-- ==== Sys2Proof/Word.lean ====
section
/-! DEFINITION. The word types of the AVY-1648: bytes, 32-bit registers (R6), 64-bit quantities (R6). -/
namespace Sys2Proof

/-- A byte of any store. -/
abbrev Byte := BitVec 8

/-- A register word: every register is 32 bits wide (R6). -/
abbrev Word := BitVec 32

/-- A 64-bit quantity, such as the frame number (R36). -/
abbrev Word64 := BitVec 64

/-- A sparse table: key and value pairs, keys strictly rising. What an unlisted key reads as is said where the table is read. -/
abbrev Sparse (α : Type) := List (Nat × α)

end Sys2Proof
end

