-- ==== Sys2Proof/Syntax.lean ====
section
/-! DEFINITION. The commands of the block: one constructor of Instr for each row of spec/opcode_table.json.
The table gives the rows no operands; each constructor carries the fields that the row's rule gives the event
(cue fields R324, R336 to R341; control unit fields R360; KV message fields R344; register fields; addresses
and data), and what the world outside the device decides: times in ns, pulse lengths, sensor codes, data read
from host memory, symbol errors found. `num` is a cue's cue number (R333). Log entries 12 and 13. -/
namespace Sys2Proof

/-- Service class, in order of precedence (R156 CLASS). -/
inductive Svc where
  | lead | featured | ensemble | extra
  deriving DecidableEq, Repr, Inhabited

/-- The four bundles and mesh directions (R362). -/
inductive Dir where
  | west | east | north | south
  deriving DecidableEq, Repr, Inhabited

/-- Mesh coordinates, 4 bits each. -/
structure Coord where
  x : BitVec 4
  y : BitVec 4
  deriving DecidableEq, Repr, Inhabited

/-- Array input formats (R66). -/
inductive ArrFmt where
  | an4 | aw8
  deriving DecidableEq, Repr, Inhabited

/-- Output formats of the output stage and of a requantiser source (R83, R336). -/
inductive OutFmt where
  | bf16 | e4m3 | e5m2
  deriving DecidableEq, Repr, Inhabited

/-- Element formats of a kernel operand (R340 FMT). -/
inductive NumFmt where
  | fp32 | bf16 | e4m3 | e5m2 | mxfp4 | mxfp6e2m3 | mxfp6e3m2 | int8 | int32
  deriving DecidableEq, Repr, Inhabited

/-- Where a tile cue's data lies (R336 SRC_KIND, DST_KIND). -/
inductive DataKind where
  | wings | apron | laneBuf
  deriving DecidableEq, Repr, Inhabited

/-- EVAL (R336). -/
structure EvalCue where
  slot : BitVec 16
  lane : BitVec 12
  tile : BitVec 13
  pslot : BitVec 4
  row : BitVec 5
  rowLo : BitVec 5
  fmt : ArrFmt
  range : BitVec 2
  qpoint : BitVec 13
  chain : BitVec 24
  num : BitVec 24
  deriving DecidableEq, Repr, Inhabited

/-- REQUANT (R336). -/
structure RequantCue where
  slot : BitVec 16
  lane : BitVec 12
  tile : BitVec 13
  srcKind : DataKind
  src : BitVec 28
  srcFmt : OutFmt
  dst : BitVec 5
  dstLo : BitVec 5
  fmt : ArrFmt
  oset : BitVec 3
  qpoint : BitVec 13
  stoch : Bool
  num : BitVec 24
  deriving DecidableEq, Repr, Inhabited

/-- OUT (R336). -/
structure OutCue where
  slot : BitVec 16
  lane : BitVec 12
  tile : BitVec 13
  chain : BitVec 24
  ofmt : OutFmt
  stoch : Bool
  dstKind : DataKind
  dst : BitVec 28
  num : BitVec 24
  deriving DecidableEq, Repr, Inhabited

/-- HOP (R336). -/
structure HopCue where
  slot : BitVec 16
  lane : BitVec 12
  tile : BitVec 13
  dst : BitVec 7
  num : BitVec 24
  deriving DecidableEq, Repr, Inhabited

/-- RELAY (R336). -/
structure RelayCue where
  slot : BitVec 16
  lane : BitVec 12
  tile : BitVec 13
  dst : BitVec 13
  hops : BitVec 2
  dirs : BitVec 6
  num : BitVec 24
  deriving DecidableEq, Repr, Inhabited

/-- MOVE (R336). `toApron` is DIR 1. -/
structure MoveCue where
  slot : BitVec 16
  lane : BitVec 12
  tile : BitVec 13
  row : BitVec 5
  toApron : Bool
  fmt : BitVec 3
  laneBuf : Bool
  waddr : BitVec 28
  num : BitVec 24
  deriving DecidableEq, Repr, Inhabited

/-- REPEAT_WIN and REHEARSE_WIN (R338). -/
structure WinCue where
  slot : BitVec 16
  flock : BitVec 6
  slots : BitVec 16
  tiles : BitVec 7
  num : BitVec 24
  deriving DecidableEq, Repr, Inhabited

/-- PLACE (R339). -/
structure PlaceCue where
  slot : BitVec 16
  expert : BitVec 10
  layer : BitVec 10
  arrLane : BitVec 12
  arrN : BitVec 8
  regLane : BitVec 12
  encLane : BitVec 12
  num : BitVec 24
  deriving DecidableEq, Repr, Inhabited

/-- The KIND of a kernel operand (R340). -/
inductive OpKind where
  | none | wings | laneBuf | localBuf | kvPages | adapter
  deriving DecidableEq, Repr, Inhabited

/-- One operand of a kernel parameter record (R340). -/
structure KOperand where
  kind : OpKind
  fmt : NumFmt
  elems : BitVec 32
  addr : BitVec 32
  deriving DecidableEq, Repr, Inhabited

/-- A KERNEL cue with its parameter record (R340); the family is the command's row. -/
structure KernelCue where
  slot : BitVec 16
  lane : BitVec 12
  engine : BitVec 7
  thread : BitVec 6
  last : BitVec 16
  clear : Bool
  stoch : Bool
  nlanes : BitVec 13
  layer : BitVec 10
  const : BitVec 32
  op0 : KOperand
  op1 : KOperand
  op2 : KOperand
  op3 : KOperand
  num : BitVec 24
  deriving DecidableEq, Repr, Inhabited

/-- The target of HBM_RD and the source of HBM_WR (R341 TKIND). -/
inductive HbmTarget where
  | wings | laneBuf | localBuf
  deriving DecidableEq, Repr, Inhabited

/-- HBM_RD and HBM_WR (R341). -/
structure HbmCue where
  slot : BitVec 16
  lane : BitVec 12
  addr : BitVec 38
  len : BitVec 14
  tkind : HbmTarget
  engine : BitVec 7
  target : BitVec 28
  num : BitVec 24
  deriving DecidableEq, Repr, Inhabited

/-- A LINKS record as a cue (R324). -/
structure LinkRec where
  link : BitVec 6
  outLink : BitVec 6
  first : BitVec 16
  slots : BitVec 16
  data : BitVec 16
  consumer : BitVec 16
  bytes : BitVec 24
  wings : BitVec 28
  peer : Coord
  transfer : BitVec 24
  num : BitVec 24
  deriving DecidableEq, Repr, Inhabited

/-- Why a receive is late (R52): the cause bit it records. -/
inductive LateCause where
  | onTime | replay | lanes | upstream
  deriving DecidableEq, Repr, Inhabited

/-- The fields of DONE (R360). -/
structure DoneInfo where
  num : BitVec 16
  causes : BitVec 8
  throttle : BitVec 4
  last : Coord
  deriving DecidableEq, Repr, Inhabited

/-- The fields of TICK (R360). LATE is in 10 ps. -/
structure TickInfo where
  num : BitVec 16
  abort : Bool
  level : BitVec 4
  late : BitVec 16
  deriving DecidableEq, Repr, Inhabited

/-- The fields of HELLO (R360). -/
structure HelloInfo where
  herd : BitVec 8
  at_ : Coord
  index : BitVec 4
  grade : BitVec 8
  digest : BitVec 64
  deriving DecidableEq, Repr, Inhabited

/-- The fields of REPORT (R360). -/
structure ReportInfo where
  at_ : Coord
  grade : BitVec 4
  state : BitVec 4
  epoch : BitVec 16
  path : BitVec 16
  scriptId : BitVec 64
  loaded : Bool
  curOk : Bool
  hostUp : Bool
  deriving DecidableEq, Repr, Inhabited

/-- The fields of HERD (R360). -/
structure HerdInfo where
  lat : BitVec 16
  result : BitVec 8
  width : BitVec 4
  height : BitVec 4
  devices : BitVec 16
  first : BitVec 64
  deriving DecidableEq, Repr, Inhabited

/-- The fields of FREEZE, THAW and REDISCOVER (R360): origin, sequence, cause. -/
structure FloodInfo where
  origin : Coord
  seq : BitVec 8
  cause : BitVec 8
  deriving DecidableEq, Repr, Inhabited

/-- The fields of SPILL (R360). -/
structure SpillInfo where
  transfer : BitVec 24
  first : BitVec 24
  units : BitVec 8
  link : BitVec 8
  deriving DecidableEq, Repr, Inhabited

/-- The fields of LANE (R360). -/
structure LaneInfo where
  mask : BitVec 4
  now : Bool
  frame : BitVec 16
  deriving DecidableEq, Repr, Inhabited

/-- A KV command lane message (R344), without its code. -/
structure KvMsg where
  tag : BitVec 8
  src : Coord
  session : BitVec 20
  tenant : BitVec 4
  epoch : BitVec 16
  pos : BitVec 24
  target : BitVec 20
  free : BitVec 21
  cause : BitVec 8
  deriving DecidableEq, Repr, Inhabited

/-- What start-up finds in the world (R450): HBM training, the Stage Manager's own start, the loop of AVSBus writes. -/
structure BootIn where
  hbmOk : Bool
  smOk : Bool
  avsOk : Bool
  deriving DecidableEq, Repr, Inhabited

/-- The rails whose power-good GEN_PINS.PG shows, bits in this order (R498). -/
inductive Rail where
  | core | array | link | vddqHbm | vppHbm | aon | io18
  deriving DecidableEq, Repr, Inhabited

/-- DETAIL words 0 to 2 of a fatal record (R416): program counter or rail, value, limit. -/
structure FatalDetail where
  w0 : Word
  w1 : Word
  w2 : Word
  deriving DecidableEq, Repr, Inhabited

/-- Symbol errors found in a codeword: symbol index and the value XORed onto it (R203). -/
abbrev SymErrs := List (Nat × BitVec 8)

/-- A memory store as ERR_MEM_SEL.STORE numbers it (R215). -/
inductive Store where
  | apron | rowTag | wings | localBuf | prompter | hbm
  deriving DecidableEq, Repr, Inhabited

/-- One page read from the green room: its table index and its bytes that are not zero (offset, byte). -/
structure PageIn where
  index : Nat
  bytes : List (Nat × BitVec 8)
  deriving DecidableEq, Repr, Inhabited

/-- How the host link comes up (R382, HOST_STATUS) and what the host then programs in configuration space: mode CXL or
PCIe, width, speed code, Bus Master Enable, MSI-X Enable (with Function Mask clear). -/
structure LinkUp where
  pcie : Bool
  width : BitVec 5
  speed : BitVec 3
  bme : Bool
  msix : Bool
  deriving DecidableEq, Repr, Inhabited

/-- Samples of one converter burst (R441): its sum, smallest and largest code. -/
structure Burst where
  sum : Nat
  min : Nat
  max : Nat
  deriving DecidableEq, Repr, Inhabited

/-- The readings of one monitor cycle (R443): bursts of channels 0 to 28 in order. -/
structure MonitorIn where
  bursts : List Burst
  diodes : List Int
  deriving DecidableEq, Repr, Inhabited

/-- An owner's pair of keys (R448): script key, debug key. -/
structure OwnerKeys where
  script : List Byte
  debug : List Byte
  deriving DecidableEq, Repr, Inhabited

/-- A signed DOE request's binding and signatures (R457). -/
structure DoeAuth where
  tag : Byte
  digest : List Byte
  bootCount : Word
  sig : List Byte
  sig2 : List Byte
  deriving DecidableEq, Repr, Inhabited

/-- A 77-bit DBG_ACCESS request (R475). -/
structure DbgReq where
  addr : BitVec 38
  space : BitVec 4
  data : BitVec 32
  write : Bool
  deriving DecidableEq, Repr, Inhabited

/-- The latest verify read of a row whose cells do not all lie in their windows (R63, R292): the pulses it has had, and the readings that
matter, in 0.01 µS: weight pair 0 to 511 or 512 plus the reference pair, whether the cell is L−, conductance. Cells not listed lie in
their windows. -/
structure RowVerify where
  row : BitVec 9
  iters : Nat
  cells : List (Nat × Bool × Nat)
  deriving DecidableEq, Repr, Inhabited

/-- The commands: one constructor per row of spec/opcode_table.json, in the table's order. Times `t` are in ns. -/
inductive Instr where
  | vddAonRise (t : Nat) (boot : BootIn)
  | vddAonLoss
  | sysRstNAssert (lowNs : Nat)
  | sysRstNRelease (t : Nat) (boot : BootIn)
  | prsntNChange (asserted : Bool) (stableNs : Nat) (t : Nat) (boot : BootIn)
  | perstNAssert (lowNs : Nat)
  | perstNRelease
  | bypassNChange (asserted : Bool) (stableNs : Nat)
  | powerGoodLost (rail : Rail)
  | powerGoodRestored (t : Nat) (boot : BootIn)
  | thermalTrip (diode : Fin 2) (diodeFault : Bool) (t : Nat)
  | tripRelease (t : Nat) (boot : BootIn)
  | coreClockLockLost (d : FatalDetail)
  | smWatchdogExpiry (d : FatalDetail)
  | boSelfCheckFail (d : FatalDetail)
  | containmentTimeout (d : FatalDetail)
  | freezeNAssert (lowNs : Nat) (t : Nat)
  | freezeNRelease (highNs : Nat) (t : Nat)
  | tickInEdge (t : Nat)
  | tickInLost (t : Nat)
  | tickLaunch (t : Nat)
  | overrunAbort (t : Nat)
  | bellwetherLost (t : Nat)
  | doneSend (t : Nat)
  | echoMeasure
  | stallResume (slot : BitVec 16)
  | eval (c : EvalCue)
  | requant (c : RequantCue)
  | out (c : OutCue)
  | hop (c : HopCue)
  | relay (c : RelayCue)
  | move (c : MoveCue)
  | repeatWin (c : WinCue)
  | rehearseWin (c : WinCue)
  | place (c : PlaceCue)
  | matmul (k : KernelCue)
  | norm (k : KernelCue)
  | rotary (k : KernelCue)
  | attnGqa (k : KernelCue)
  | attnLatent (k : KernelCue)
  | kvwrite (k : KernelCue)
  | route (k : KernelCue)
  | combine (k : KernelCue)
  | sample (k : KernelCue)
  | verify (k : KernelCue)
  | adapt (k : KernelCue)
  | exact (k : KernelCue)
  | kernelStop (fam : BitVec 4) (k : KernelCue)
  | hbmRd (c : HbmCue)
  | hbmRdDeliver (c : HbmCue) (found : List SymErrs)
  | hbmWr (c : HbmCue)
  | linkSend (r : LinkRec)
  | linkReceive (r : LinkRec) (late : LateCause)
  | linkForward (r : LinkRec)
  | stepComplete (session : BitVec 20) (t : Nat)
  | flitReceive (link : Fin 48) (body : List Byte) (crc : BitVec 16) (corrected : Nat) (uncorrectable : Bool) (t : Nat)
  | tick (link : Fin 48) (u : TickInfo) (t : Nat)
  | done (link : Fin 48) (u : DoneInfo)
  | echo (link : Fin 48) (num : BitVec 16)
  | echoReply (link : Fin 48) (num : BitVec 16) (turn : BitVec 16) (roundTrip : Nat)
  | ack (link : Fin 48) (last : BitVec 16)
  | nak (link : Fin 48) (failed : BitVec 16)
  | replay (link : Fin 48) (count : BitVec 16)
  | spill (link : Fin 48) (u : SpillInfo)
  | lane (link : Fin 48) (u : LaneInfo)
  | freeze (link : Fin 48) (u : FloodInfo) (t : Nat)
  | thaw (link : Fin 48) (u : FloodInfo) (t : Nat)
  | curtain (link : Fin 48) (g : BitVec 16)
  | drained (link : Fin 48)
  | drainedSend
  | rewrite (link : Fin 48)
  | curtainReady (link : Fin 48) (failure : Bool) (failedAt : Coord)
  | curtainReadySend
  | raise (link : Fin 48) (h : BitVec 16)
  | unload (link : Fin 48) (g : BitVec 16)
  | stop (link : Fin 48) (frame : BitVec 16)
  | park (link : Fin 48) (g : BitVec 16)
  | wake (link : Fin 48) (origin : Coord)
  | awake (link : Fin 48)
  | hello (link : Fin 48) (u : HelloInfo)
  | discover (link : Fin 48) (herd : BitVec 8) (parentPath : BitVec 16) (digest : BitVec 64) (round : BitVec 8)
  | report (link : Fin 48) (u : ReportInfo)
  | herd (link : Fin 48) (u : HerdInfo)
  | rediscover (link : Fin 48) (u : FloodInfo)
  | controlUnitReserved (link : Fin 48) (type : Byte)
  | discoveryStart
  | discoverLaunch
  | herdIssue
  | orphan
  | laneLockLost (link : Fin 48) (lane : Fin 4) (t : Nat)
  | laneErrorDrop (link : Fin 48) (lane : Fin 4) (corrected : Nat) (t : Nat)
  | laneRetry (link : Fin 48) (lane : Fin 4) (trained : Bool) (t : Nat)
  | laneIdle (link : Fin 48) (idle : Bool)
  | swapOut (m : KvMsg)
  | swapOutWritten (session : BitVec 20) (ok : Bool)
  | swapIn (m : KvMsg)
  | swapInLoaded (session : BitVec 20) (ok : Bool) (pages : List PageIn)
  | commit (m : KvMsg)
  | keep (m : KvMsg)
  | release (m : KvMsg)
  | fork (m : KvMsg)
  | resume (m : KvMsg)
  | written (m : KvMsg)
  | loaded (m : KvMsg)
  | failed (m : KvMsg)
  | released (m : KvMsg)
  | forked (m : KvMsg)
  | sessionFault (m : KvMsg)
  | mirrorLost (m : KvMsg)
  | mirrored (m : KvMsg)
  | free (m : KvMsg)
  | kvMessageReserved (code : Byte) (m : KvMsg)
  | mirrorConfirm (session : BitVec 20) (upTo : BitVec 24) (ok : Bool)
  | pageZeroDone (page : BitVec 21)
  | hostMemWrite (addr : Nat) (bytes : List Byte)
  | callboardBitSet (addr : Nat) (bytes : List Byte)
  | hostMemRead (addr : Nat) (len : Nat) (found : SymErrs)
  | hostLinkDown
  | hostLinkUp (u : LinkUp)
  | hdmCommit (base : Word64) (size : Word64) (ways : Nat)
  | msixUnmask (vector : Fin 2048)
  | bar0UnsupportedAccess (offset : Nat) (write : Bool)
  | registerWrite (offset : Word) (value : Word)
  | registerLowWordRead (offset : Word)
  | genPark
  | genWake
  | tickInLostClear
  | scriptStretchClr
  | forceLearn
  | forceService
  | tilePrecClr
  | exactArrayJob
  | exactLayerJob
  | exactAbort
  | exactJobDone
  | exactJobTimeout
  | callRouteClr
  | callCntClr
  | callAdpLoad (slot : BitVec 8) (tenant : BitVec 4)
  | adapterLoadDone
  | retireReq (slot : BitVec 8)
  | callAdpDirWrite (entry : BitVec 8) (slot : BitVec 8) (valid : Bool)
  | kvCmdPark (session : BitVec 20)
  | kvCmdWake (session : BitVec 20)
  | kvCmdFork (session : BitVec 20)
  | callKvClr
  | errMemClr
  | wtVerify (next : Bool) (program : Bool)
  | wtLoad (next : Bool) (program : Bool)
  | wtAbort (next : Bool) (program : Bool)
  | sectionLoadDone
  | curtainLower (t : Nat)
  | curtainAbandon
  | tileHcStart (layer : BitVec 10)
  | hcIntervalExpiry
  | headCountDone
  | tileProgClr
  | refreshStart (tile : BitVec 13) (array : Fin 17) (vprogOk : Bool)
  | replacementStart (tile : BitVec 13) (array : Fin 17) (vprogOk : Bool)
  | arrayProgramDone (tile : BitVec 13) (array : Fin 17) (rows : List RowVerify)
  | arrayResetDone (tile : BitVec 13) (array : Fin 17) (ok : Bool)
  | trackStale (tile : BitVec 13) (array : Fin 17)
  | overdue (tile : BitVec 13) (array : Fin 17)
  | scriptLoad
  | scriptLoadDone
  | scriptUnload
  | scriptLoadAbort
  | hazardModeWrite (mode : BitVec 2)
  | meshRediscover
  | meshLaneRetry
  | meshIdWrite (herd : BitVec 8) (x : BitVec 4) (y : BitVec 4) (lock : Bool)
  | meshCntClr
  | hostCntClr
  | hostEvtClear (bits : BitVec 10)
  | errRingHeadWrite (count : Word)
  | errStackClrFatal
  | errCntClr
  | errHistCommit
  | clearStruck
  | historyHourlyCommit
  | historyScoreDecay (kind : BitVec 5) (unit : BitVec 18)
  | locationReread (store : Store) (unit : Nat) (loc : Nat) (same : Bool)
  | scrubRead (store : Store) (unit : Nat) (loc : Nat) (found : SymErrs)
  | thermCntClr
  | bandReading (temps : List Int)
  | monitorCycle (m : MonitorIn) (t : Nat)
  | hkcStart (n : BitVec 4) (urgChan : BitVec 5)
  | hkcUrgent (n : BitVec 4) (urgChan : BitVec 5)
  | hkcRefWrite (sel : BitVec 2)
  | hostBurstDone (b : Burst)
  | urgentDone (b : Burst)
  | avsPoll (mv : BitVec 12) (amps : BitVec 11) (t : Nat)
  | avsReadback (mv : Nat)
  | secDbgLevel (level : BitVec 2)
  | secDbgExit
  | fwAppend (kind : Bool) (units : BitVec 9)
  | fwCommit (kind : Bool) (vprogOk : Bool)
  | fwCancel
  | dbgFreeze (t : Nat)
  | dbgThaw (t : Nat)
  | getIdentity (tag : Byte)
  | getMeasure (tag : Byte) (nonce : List Byte)
  | lock (a : DoeAuth)
  | ownerClaim (a : DoeAuth) (keys : OwnerKeys)
  | ownerTransfer (a : DoeAuth) (keys : Option OwnerKeys)
  | debugToken (a : DoeAuth) (vendor : Bool) (level : BitVec 2)
  | unlock (a : DoeAuth)
  | doeAbort
  | jtagBypass
  | jtagIdcode
  | jtagSamplePreload (value : List Bool)
  | jtagExtest
  | jtagAonRead
  | jtagDbgAccess (r : DbgReq)
  | jtagFreeze (engage : Bool) (t : Nat)
  | jtagKeptRead
  | jtagStop (engage : Bool) (t : Nat)
  | jtagScan (bits : List Bool)
  | i3cEntdaa (addr : BitVec 7)
  | i3cOffsetWrite (offset : Word)
  | i3cPrivateRead
  | ethFrameReceive (frame : List Byte)
  | telemetrySend
  | awakeSend
  | hbmSelfRefreshReturn (stack : Fin 4)
  | ethLinkChange (speed : BitVec 2)
  | doeDiscovery (index : Byte) (type : Byte) (length : Nat)
  | coreMemoryUncorrectable (boxOffice : Bool) (d : FatalDetail)
  | calibrationRereadFail (d : FatalDetail)
  | errorUnitSelfCheckFail (d : FatalDetail)
  | refSettled
  | laneRealigned (link : Fin 48)
  | linkRetrainDone (link : Fin 48) (lanes : BitVec 4)
  deriving DecidableEq, Repr

end Sys2Proof
end

