-- ==== Sys2Proof/Machine/Bits.lean ====
section
/-! DEFINITION. Bit fields, byte order, saturating counters, checksums and rounding to a grid: the small arithmetic the
rules share. Numbers are little-endian in every format the device defines (R5). -/
namespace Sys2Proof.Machine

/-- Bits lo to lo + w − 1 of a number. -/
def fld (v lo w : Nat) : Nat := v / 2 ^ lo % 2 ^ w

/-- One bit of a number. -/
def bit (v i : Nat) : Bool := v / 2 ^ i % 2 == 1

/-- A Bool as a number. -/
def b2n (b : Bool) : Nat := if b then 1 else 0

/-- The number of a little-endian byte list (R5). -/
def leNat : List Byte → Nat
  | [] => 0
  | b :: t => b.toNat + 256 * leNat t

/-- The n-byte little-endian form of a number. -/
def leBytes : Nat → Nat → List Byte
  | 0, _ => []
  | n + 1, v => BitVec.ofNat 8 v :: leBytes n (v / 256)

/-- The signed value of the low w bits of a number. -/
def sext (w v : Nat) : Int := if v % 2 ^ w < 2 ^ (w - 1) then (v % 2 ^ w : Nat) else ((v % 2 ^ w : Nat) : Int) - 2 ^ w

/-- The low w bits of a signed number. -/
def trunc (w : Nat) (i : Int) : Nat := (i % 2 ^ w).toNat

/-- A counter that saturates at 2^w − 1 goes up by one. -/
def bumpW (w n : Nat) : Nat := if n + 1 < 2 ^ w then n + 1 else 2 ^ w - 1

/-- A 32-bit saturating counter goes up by one. -/
def bump (n : Nat) : Nat := bumpW 32 n

/-- A 32-bit saturating counter goes up by k. -/
def bumpBy (n k : Nat) : Nat := min (n + k) (2 ^ 32 - 1)

/-- Clamp to lo … hi. -/
def clampI (lo hi i : Int) : Int := if i < lo then lo else if hi < i then hi else i

/-- Round up the quotient. -/
def ceilDiv (a b : Nat) : Nat := (a + b - 1) / b

/-- Pieces of n bytes; the last may be short. -/
def chunks (n : Nat) : Nat → List Byte → List (List Byte)
  | 0, _ => []
  | k + 1, bs => if bs.isEmpty then [] else bs.take n :: chunks n k (bs.drop n)

/-- Take n items at position k × n. -/
def slice {α : Type} (l : List α) (lo n : Nat) : List α := (l.drop lo).take n

/-- A little-endian field of w bytes at an offset. -/
def leAt (bs : List Byte) (off w : Nat) : Nat := leNat (slice bs off w)

/-- All bytes of a list are 0. -/
def allZero (bs : List Byte) : Bool := bs.all fun b => b == 0

/-- Index of the first item that satisfies a test. -/
def findIdxOf {α : Type} (l : List α) (p : α → Bool) : Option Nat := l.findIdx? p

/-- One byte of a CRC-16 with polynomial 0x1021, most significant bit first. -/
def crcBit (poly : BitVec 16) : Nat → BitVec 16 → BitVec 16
  | 0, c => c
  | n + 1, c => crcBit poly n (if c.msb then (c <<< 1) ^^^ poly else c <<< 1)

/-- CRC-16 over bytes from an initial value. -/
def crc16 (poly init : BitVec 16) (bs : List Byte) : BitVec 16 :=
  bs.foldl (fun c b => crcBit poly 8 (c ^^^ (BitVec.ofNat 16 (256 * b.toNat)))) init

end Sys2Proof.Machine
end

