-- ==== Sys2Proof/Machine/Keccak.lean ====
section
/-! DEFINITION. SHAKE256 with a 256-bit output, by which the spec digests images, sections, files and cell levels
(R247, R319, R451 and others). The function itself is a public standard (log 17). The 1,600 bits are held as five columns
of five words; the word amounts and the round constants are generated by the standard's own recurrences, not tabled. -/
namespace Sys2Proof.Machine

/-- A column: the five words that share an x. -/
abbrev KCol := Nat × Nat × Nat × Nat × Nat

/-- Word y of a column. -/
def KCol.at_ (c : KCol) : Nat → Nat
  | 0 => c.1
  | 1 => c.2.1
  | 2 => c.2.2.1
  | 3 => c.2.2.2.1
  | _ => c.2.2.2.2

/-- A column from a word for each y. -/
def KCol.of (f : Nat → Nat) : KCol := (f 0, f 1, f 2, f 3, f 4)

def KCol.parity (c : KCol) : Nat := c.1 ^^^ c.2.1 ^^^ c.2.2.1 ^^^ c.2.2.2.1 ^^^ c.2.2.2.2

/-- The state: columns x = 0 to 4. -/
abbrev KState := List KCol

def KState.word (s : KState) (x y : Nat) : Nat := (s.getD x (0, 0, 0, 0, 0)).at_ y

/-- Turn a 64-bit word left. -/
def turn64 (n w : Nat) : Nat := w * 2 ^ n % 2 ^ 64 + w / 2 ^ (64 - n)

/-- Stops of the walk (x, y) → (y, 2x + 3y) from (1, 0), last first, with the amount each word is turned by: stop t has the
triangular number (t + 1)(t + 2) ÷ 2. -/
def kWalk : Nat → List ((Nat × Nat) × Nat)
  | 0 => [((1, 0), 1)]
  | t + 1 =>
    match kWalk t with
    | [] => []
    | ((x, y), r) :: l => ((y, (2 * x + 3 * y) % 5), (r + t + 2) % 64) :: ((x, y), r) :: l

/-- The amount for each word, as 5x + y. -/
def kTurns : List Nat := (kWalk 23).foldl (fun l e => l.set (5 * e.1.1 + e.1.2) e.2) (List.replicate 25 0)

/-- The shift register x⁸ + x⁶ + x⁵ + x⁴ + 1, one step. -/
def kLfsr (r : Nat) : Nat := if r < 128 then 2 * r else (2 * r ^^^ 0x171) % 256

/-- A round's constant from the register: one bit per step at places 2^j − 1, and the register after seven steps. -/
def kConst : List Nat → Nat → Nat × Nat
  | [], r => (0, r)
  | j :: t, r => ((kConst t (kLfsr r)).1 + r % 2 * 2 ^ (2 ^ j - 1), (kConst t (kLfsr r)).2)

/-- Constants of n rounds. -/
def kConsts : Nat → Nat → List Nat
  | 0, _ => []
  | n + 1, r =>
    match kConst [0, 1, 2, 3, 4, 5, 6] r with
    | (c, r') => c :: kConsts n r'

/-- θ: every word takes in the parities of the columns beside it. -/
def kTheta (s : KState) : KState :=
  let p := s.map KCol.parity
  s.zipIdx.map fun (c, x) =>
    let e := p.getD ((x + 4) % 5) 0 ^^^ turn64 1 (p.getD ((x + 1) % 5) 0)
    KCol.of fun y => c.at_ y ^^^ e

/-- ρ and π: the word at (y', x') of the new state is the turned word (x, y) with x' = y. -/
def kMove (s : KState) : KState :=
  (List.range 5).map fun u => KCol.of fun v =>
    let x := (u + 3 * v) % 5
    turn64 (kTurns.getD (5 * x + u) 0) (s.word x u)

/-- χ and ι. -/
def kMix (s : KState) (c : Nat) : KState :=
  (List.range 5).map fun x => KCol.of fun y =>
    let w := s.word x y ^^^ (s.word ((x + 2) % 5) y - (s.word ((x + 1) % 5) y &&& s.word ((x + 2) % 5) y))
    if x = 0 ∧ y = 0 then w ^^^ c else w

/-- The permutation: 24 rounds. -/
def keccak1600 (s : KState) : KState := (kConsts 24 1).foldl (fun s c => kMix (kMove (kTheta s)) c) s

/-- One block of the message, 17 words of 8 bytes, taken in. -/
def kTake (s : KState) (block : List Byte) : KState :=
  keccak1600 ((List.range 5).map fun x => KCol.of fun y => s.word x y ^^^ leAt (block.take 136) (8 * (x + 5 * y)) 8)

/-- Blocks of a message: the last one is ended by the bits 11111 and a 1 in its last bit. -/
def shakeBlocks : Nat → List Byte → List (List Byte)
  | 0, _ => []
  | n + 1, bs =>
    if bs.length < 136 then
      let tail := bs ++ [0x1F] ++ List.replicate (135 - bs.length) 0
      [tail.set 135 (tail.getD 135 0 ^^^ 0x80)]
    else bs.take 136 :: shakeBlocks n (bs.drop 136)

/-- SHAKE256 with 32 output bytes. -/
def shake256 (bs : List Byte) : List Byte :=
  let s := (shakeBlocks (bs.length / 136 + 1) bs).foldl kTake (List.replicate 5 (0, 0, 0, 0, 0))
  (List.range 4).flatMap fun x => leBytes 8 (s.word x 0)

end Sys2Proof.Machine
end

