-- ==== Sys2Proof/Machine/Ecc.lean ====
section
/-! DEFINITION. The Reed–Solomon codes of R202 and their decoder (R203). The codes are linear, so what a read does
depends on the symbol errors alone: the model holds data without check symbols and decodes the errors a command
names (log 13). -/
namespace Sys2Proof.Machine

/-- Multiply by α = 0x02 in GF(2^8) with 0x11D (R202). -/
def gfX (a : Nat) : Nat := if a < 128 then 2 * a else (2 * a) ^^^ 0x11D

def gfMulGo : Nat → Nat → Nat → Nat
  | 0, _, _ => 0
  | n + 1, a, b => (if b % 2 = 1 then a else 0) ^^^ gfMulGo n (gfX a) (b / 2)

/-- Product in GF(2^8). -/
def gfMul (a b : Nat) : Nat := gfMulGo 8 a b

def gfPow (a : Nat) : Nat → Nat
  | 0 => 1
  | n + 1 => gfMul a (gfPow a n)

/-- Inverse in GF(2^8): a^254. -/
def gfInv (a : Nat) : Nat :=
  let a2 := gfMul a a
  let a4 := gfMul a2 a2
  let a8 := gfMul a4 a4
  let a16 := gfMul a8 a8
  let a32 := gfMul a16 a16
  let a64 := gfMul a32 a32
  gfMul (gfMul a64 a64) (gfMul (gfMul a64 a32) (gfMul (gfMul a16 a8) (gfMul a4 a2)))

/-- α^i. -/
def gfExp (i : Nat) : Nat := gfPow 2 (i % 255)

/-- Locator of symbol i of a codeword of n symbols: the first symbol is the highest-degree coefficient (R202). -/
def rsLoc (n i : Nat) : Nat := gfExp (n - 1 - i)

/-- Errors of one codeword with each symbol once and no zero values. -/
def rsNorm (n : Nat) (es : SymErrs) : List (Nat × Nat) :=
  (List.range n).filterMap fun i =>
    let v := es.foldl (fun v e => if e.1 = i then v ^^^ e.2.toNat else v) 0
    if v = 0 then none else some (i, v)

/-- Syndrome j of the errors. -/
def rsSyn (n : Nat) (es : List (Nat × Nat)) (j : Nat) : Nat :=
  es.foldl (fun s e => s ^^^ gfMul e.2 (gfPow (rsLoc n e.1) j)) 0

/-- What the decoder finds (R203): no error, a pattern of 1 or 2 symbols that it corrects, or uncorrectable. -/
inductive EccOut where
  | clean
  | correct (pattern : List (Nat × Nat))
  | uncorrectable
  deriving DecidableEq, Repr

/-- The decoder: every received word within 2 symbols of a codeword goes to that codeword (R203). -/
def rsDecode (n : Nat) (found : SymErrs) : EccOut :=
  let es := rsNorm n found
  let s0 := rsSyn n es 0
  let s1 := rsSyn n es 1
  let s2 := rsSyn n es 2
  let s3 := rsSyn n es 3
  if s0 = 0 ∧ s1 = 0 ∧ s2 = 0 ∧ s3 = 0 then .clean
  else
    match (List.range n).find? fun i =>
      let x := rsLoc n i
      s0 != 0 && gfMul s0 x == s1 && gfMul s1 x == s2 && gfMul s2 x == s3 with
    | some i => .correct [(i, s0)]
    | none =>
      let det := gfMul s0 s2 ^^^ gfMul s1 s1
      if det = 0 then .uncorrectable
      else
        let di := gfInv det
        let c1 := gfMul di (gfMul s0 s3 ^^^ gfMul s1 s2)
        let c2 := gfMul di (gfMul s1 s3 ^^^ gfMul s2 s2)
        match (List.range n).filter fun i =>
          let x := rsLoc n i
          gfMul x x ^^^ gfMul c1 x ^^^ c2 == 0 with
        | [i, k] =>
          let xi := rsLoc n i
          let xk := rsLoc n k
          let ek := gfMul (s1 ^^^ gfMul s0 xi) (gfInv (xi ^^^ xk))
          let ei := s0 ^^^ ek
          if ei = 0 ∨ ek = 0 then .uncorrectable else .correct [(i, ei), (k, ek)]
        | _ => .uncorrectable

/-- The errors left in the data after correction: empty unless the decoder took another codeword (R203). -/
def rsResidue (n : Nat) (found : SymErrs) (pattern : List (Nat × Nat)) : List (Nat × Nat) :=
  rsNorm n (found ++ pattern.map fun e => (e.1, BitVec.ofNat 8 e.2))

/-- Symbols in error, for the location test (R406). -/
def rsSymbols (n : Nat) (found : SymErrs) : List Nat := (rsNorm n found).map Prod.fst

end Sys2Proof.Machine
end

