-- ==== Sys2Proof/Machine/Sparse.lean ====
section
/-! DEFINITION. Sparse tables, byte stores and sets as lists in one canonical form: keys strictly rising, and in a byte
store no entry equal to 0, what an unlisted address reads as (log 7, log 8). Every write goes through put, del or
their byte forms, which keep that form (Laws/Sparse.lean). -/
namespace Sys2Proof.Machine

/-! ## Tables -/

/-- Keys strictly rising from `lo` on. -/
def sparseFrom {α : Type} (lo : Nat) : Sparse α → Bool
  | [] => true
  | (k, _) :: t => decide (lo ≤ k) && sparseFrom (k + 1) t

/-- The canonical form of a table: keys strictly rising. -/
def sparseWf {α : Type} (m : Sparse α) : Bool := sparseFrom 0 m

/-- The entry at a key. -/
def sget {α : Type} (m : Sparse α) (k : Nat) : Option α :=
  match m with
  | [] => none
  | (k', v) :: t => if k = k' then some v else sget t k

/-- The entry at a key, or what an unlisted key reads as. -/
def sgetD {α : Type} (m : Sparse α) (k : Nat) (d : α) : α := (sget m k).getD d

/-- Set the entry at a key. -/
def sput {α : Type} (m : Sparse α) (k : Nat) (v : α) : Sparse α :=
  match m with
  | [] => [(k, v)]
  | (k', v') :: t => if k < k' then (k, v) :: (k', v') :: t else if k = k' then (k, v) :: t else (k', v') :: sput t k v

/-- Remove the entry at a key. -/
def sdel {α : Type} (m : Sparse α) (k : Nat) : Sparse α :=
  match m with
  | [] => []
  | (k', v') :: t => if k = k' then t else (k', v') :: sdel t k

/-- Change the entry at a key, from `d` when it is unlisted. -/
def smod {α : Type} (m : Sparse α) (k : Nat) (d : α) (f : α → α) : Sparse α := sput m k (f (sgetD m k d))

/-- Remove the entries with lo ≤ key < hi. -/
def sclear {α : Type} (m : Sparse α) (lo hi : Nat) : Sparse α := m.filter fun e => e.1 < lo || hi ≤ e.1

/-! ## Byte stores -/

/-- The canonical form of a byte store. -/
def cellsWf (m : Sparse Byte) : Bool := sparseWf m && m.all fun c => c.2 != 0

/-- Read one byte; an unlisted address reads 0. -/
def rd1 (m : Sparse Byte) (a : Nat) : Byte := sgetD m a 0

/-- Write one byte; writing 0 removes the entry. -/
def wr1 (m : Sparse Byte) (a : Nat) (b : Byte) : Sparse Byte := if b = 0 then sdel m a else sput m a b

/-- Read `n` bytes from `a` on. -/
def rdN (m : Sparse Byte) (a n : Nat) : List Byte := (List.range n).map fun i => rd1 m (a + i)

/-- Write bytes from `a` on. -/
def wrN (m : Sparse Byte) (a : Nat) (bs : List Byte) : Sparse Byte :=
  match bs with
  | [] => m
  | b :: t => wrN (wr1 m a b) (a + 1) t

/-- Zero the bytes lo to hi − 1. -/
def zeroRange (m : Sparse Byte) (lo hi : Nat) : Sparse Byte := sclear m lo hi

/-! ## Sets of numbers, rising -/

def setIns (s : List Nat) (k : Nat) : List Nat :=
  match s with
  | [] => [k]
  | x :: t => if k < x then k :: x :: t else if k = x then x :: t else x :: setIns t k

def setDel (s : List Nat) (k : Nat) : List Nat := s.filter fun x => x != k

end Sys2Proof.Machine
end

