-- ==== Sys2Proof/Sections.lean ====
section
/-! DEFINITION. What the script's sections whose encoding the spec does not give hold (R322), read by the opaque parsers of
Config (log 11). -/
namespace Sys2Proof.Machine

/-- A shared partition of an engine's local buffer: its granules, and the threads it is open to (R147). -/
structure SharedPart where
  engine : Nat
  first : Nat
  count : Nat
  threads : List Nat
  deriving DecidableEq, Repr, Inhabited

/-- One template of the POOLS section. Threads are numbered 64 × engine + thread: the pool of each (R182; unlisted: no
pool), the first granule and number of granules of its private partition and the shared ones (R147), and each engine's issue table of 64
entries, naming a thread or none (R146). -/
structure PoolInfo where
  member : Sparse Nat
  priv : Sparse (Nat × Nat)
  shared : List SharedPart
  issue : Sparse (List (Option Nat))
  deriving DecidableEq, Repr, Inhabited

/-- A granule of an engine lies in a partition of a thread, its own or one open to it (R147). -/
def PoolInfo.owns (p : PoolInfo) (thread granule : Nat) : Bool :=
  (p.priv.any fun e => e.1 == thread && decide (e.2.1 ≤ granule) && decide (granule < e.2.1 + e.2.2)) ||
    p.shared.any fun s => s.engine == thread / 64 && decide (s.first ≤ granule) && decide (granule < s.first + s.count) && s.threads.contains thread

/-- Slots of a routed expert (R167). -/
structure ExpertSlots where
  layer : Nat
  expert : Nat
  regular : Nat
  lead : Nat
  encore : Nat
  deriving DecidableEq, Repr, Inhabited

/-- Routing parameters of a layer (R164, R165); BF16 values as their bits. -/
structure RouteLayer where
  layer : Nat
  e : Nat
  k : Nat
  masked : List Nat
  tau : Nat
  omega : List Nat
  norm : Bool
  sigma : Nat
  phi : Nat
  lambda : Option Nat
  /-- Token slots per frame of the layer's shared expert (R166). -/
  shared : Option Nat
  deriving DecidableEq, Repr, Inhabited

/-- The EXPERTS section. -/
structure Experts where
  layers : List RouteLayer
  slots : List ExpertSlots
  deriving DecidableEq, Repr, Inhabited

/-- An admission slot (R232), with the first delay lane it names (R339). -/
structure AdmSlot where
  cls : Nat
  tenant : Nat
  decode : Bool
  encore : Bool
  delayLane : Nat
  deriving DecidableEq, Repr, Inhabited

/-- The ADMISSION section for one template: slots, and the attention budgets per class for decode and prefill (R183). -/
structure AdmTemplate where
  slots : List AdmSlot
  decodeBudget : List Nat
  prefillBudget : List Nat
  deriving DecidableEq, Repr, Inhabited

/-- The WINGS section: bank partitions and the window base of each partition (R197, R334). -/
structure WingsSec where
  owner : Sparse Nat
  window : Sparse Nat
  deriving DecidableEq, Repr, Inhabited

/-- An adapter target point (R179, R247): its widths. -/
structure AdpTarget where
  point : Nat
  dIn : Nat
  dOut : Nat
  deriving DecidableEq, Repr, Inhabited

/-- A kernel's shapes and family parameters (CONSTANTS, R322): lengths, heads, BF16 or FP32 constants as bits, the adapter
target point, and for COMBINE the first return lane of each rank (R401). -/
structure KConst where
  dIn : Nat
  dOut : Nat
  heads : Nat
  kvHeads : Nat
  dim : Nat
  scale : Nat
  eps : Nat
  gains : List Nat
  base : Nat
  point : Nat
  returns : List Nat
  deriving DecidableEq, Repr, Inhabited

/-- The Prompter table area of one slot of a tile: offset and length in the store (R107, R284). -/
structure PromptArea where
  tile : Nat
  slot : Nat
  off : Nat
  len : Nat
  deriving DecidableEq, Repr, Inhabited

/-- An annotation of the DEBUG section: reading cue and which of its reads, expected writer, frame distance (R329). A cue's reads are
numbered from 0 in the order of its fields. -/
structure DebugNote where
  reader : Nat
  operand : Nat
  writer : Nat
  distance : Nat
  deriving DecidableEq, Repr, Inhabited

end Sys2Proof.Machine
end

