-- ==== Sys2Proof/Config.lean ====
section
/-! DEFINITION. What one part fixes and what the spec leaves open: opaque constants, never given a body, so no proof can
depend on a value. Per-part identity and non-volatile contents (log 5), the analogue error (log 9), signatures
(log 10), the section encodings the spec does not give (log 11). -/
namespace Sys2Proof.Config

/-! ## The part (R2, R12, log 5) -/

/-- The grade of the part is -E (0x2); otherwise -S (0x1) (R2, R12). -/
opaque gradeE : Bool
/-- GEN_ID.STEPPING, per die (R12). -/
opaque stepping : Byte
/-- Harvested non-volatile contents at the first start: the protected part passes its check word (R448). -/
opaque protectedOk : Bool
/-- The persisted security state is MANUFACTURE; otherwise LOCKED (R461). -/
opaque persistManufacture : Bool
/-- Owner keys held in the protected part (R448). -/
opaque ownerKeys : Option OwnerKeys
/-- Identity public key, 1,952 B (R457). -/
opaque identityKey : List Byte
/-- Certificate chain (R457). -/
opaque certificate : List Byte
/-- Boot count before the first start the model sees (R448). -/
opaque bootCount : Word
/-- Security version floors of the Box Office and the Stage Manager (R448). -/
opaque floorBo : BitVec 16
opaque floorSm : BitVec 16
/-- Firmware slots A and B of the Box Office and of the Stage Manager, as image bytes; empty = blank (R448). -/
opaque fwBoA : List Byte
opaque fwBoB : List Byte
opaque fwSmA : List Byte
opaque fwSmB : List Byte
/-- The calibration check word passes (R450 order 7), its 32 bytes (R458), and the die's set point in mV (R426). -/
opaque calOk : Bool
opaque calWord : List Byte
opaque calSetPoint : Nat
/-- Of two qualifying firmware slots of the same VERSION, B boots (R452; log 64). -/
opaque slotTie : Bool

/-! ## Values the spec leaves open -/

/-- Temperature, in 0.1 °C, of a thermistor whose formula has no value in range (log 20). -/
opaque freeThermistor : Nat → Int

/-- Analogue error of a converted column, in codes (R72, R92 to R96), and of a reference column (log 9). -/
opaque colError : Nat → Nat → Int
opaque refError : Nat → Nat → Int
/-- Factory gain K of an array and group, 1.15 (R86), and drift-correction coefficient C of a flock, band and group; from
the calibration tables (R458). -/
opaque factoryGain : Nat → Nat → BitVec 16
opaque driftCoeff : Nat → Nat → Nat → Rat
/-- VDD_PROG lies below 2.66 V at a sample that no command brings (R293; log 101). -/
opaque vprogLow : Nat → Bool
/-- The row that a paused programming had reached (R299; log 101). -/
opaque rowReached : Nat → BitVec 9
/-- Analogue error of a cell's reading in a head count, in 0.01 µS (R307; log 81). -/
opaque readError : Nat → Nat → Int
/-- Tenant partition and ENCORE_HELD mark of a token descriptor that arrived over a link (log 22). -/
opaque laneTenant : Nat → Nat
opaque laneEncHeld : Nat → Bool
/-- An ENCORE_HELD step whose return lane comes EMPTY was delayed by the device that serves it, not lost (R171, R401; log 120). -/
opaque remoteDelay : Nat → Bool
/-- MIRROR bit in HELD of a session entered on another device: entry x, y, session (log 23). -/
opaque remoteMirror : Nat → Nat → Nat → Bool
/-- Rounding seed of a step entered on another device: entry x, y, session, entry frame (log 23). -/
opaque remoteSeed : Nat → Nat → Nat → Nat → Nat
/-- What the other devices of the herd raised for a step, as its entry device learns at its completion: precision flags, and a mark for
replay (log 25). -/
opaque remoteFlags : Nat → BitVec 8
opaque remoteMark : Nat → Bool
/-- A step entered on another device runs under SERVICE rules after its fourth replay: entry x, y, session, entry frame (log 25). -/
opaque remoteServed : Nat → Nat → Nat → Nat → Bool
/-- Logical slot (16 × tile + slot) whose census data an HBM address of the census region holds (log 16). -/
opaque censusSlot : Nat → Option Nat
/-- Powered service age of the device at the first start the model sees, in hours, for the bounds of R92 (log 5). -/
opaque serviceHours : Nat
/-- The Box Office's check of a calibration write that the Stage Manager made fails (R21; log 96). -/
opaque calCheckFails : Nat → Bool

/-- Relative error in parts per million where R141 divides by zero (log 29). -/
opaque freePpm : Nat → Nat
/-- Error code of an evaluation of a suspended slot, which R404 does not list (log 26). -/
opaque suspendCode : Nat
/-- Error code of an array that a head count finds differing, which R404 does not list (log 26). -/
opaque headCountCode : Nat
/-- Error code of the steps a rediscovery discards, which R404 does not list (log 26). -/
opaque rediscoverCode : Nat

/-! ## Where the device keeps things the spec places only by region (log 16) -/

/-- The COMMON wings line (wings address ÷ 128) that holds a quantisation point's entry of the scale table (R115). -/
opaque pointLine : Nat → Nat
/-- Error ring position whose record a codeword of the firmware region holds. -/
opaque ringPos : Nat → Option Nat
/-- The HBM row that holds a codeword, and the KV pages with data in a row (R212). -/
opaque hbmRow : Nat → Nat
opaque hbmRowPages : Nat → List Nat
/-- Repair resources that a stack reports for a channel before any repair the model sees (R215). -/
opaque hbmResources : Nat → Nat

/-! ## Ports -/

/-- What the boundary register captures, and the bits that the scan chains shift out; the spec gives neither layout (log 61). -/
opaque boundaryCapture : Nat → List Bool
opaque scanOut : Nat → Nat → Bool
/-- MAC address of the management Ethernet port, derived from the identity in a way the spec does not give, and a telemetry datagram
(log 62). -/
opaque macAddress : Nat → Byte
opaque telemetry : Nat → List Byte
/-- The vendor ID at configuration offset 0x00 (R394), whose value the spec does not give (log 65). -/
opaque vendorId : BitVec 16
/-- Data that comes with poison, or of a codeword that JTAG finds uncorrectable; KEPT_READ beyond its last word (log 66). -/
opaque poisonByte : Nat → Byte
opaque freeWord : Nat → Word
/-- A byte of a region whose layout the spec does not give: firmware data, census copy, spill areas (log 16). -/
opaque placedByte : Nat → Nat → Byte
/-- An address of the spill areas belongs to a thread of the EXACT pool (R467). -/
opaque spillExact : Nat → Bool

/-! ## Kernels -/

/-- FP32 sum of a row in an order the spec leaves open (R154, R155); none: it overflows (log 42). -/
opaque reduceAdd : List Nat → Option Nat
/-- Rotary embedding (R155): the FP32 angular frequency of pair i for a base constant and a dimension, and the two elements
of pair i (log 43). -/
opaque rotaryFreq : Nat → Nat → Nat → Nat
opaque rotaryPair : Nat → Nat → Nat × Nat
/-- Draw of a kernel output's stochastic rounding, for which R136 names no domain: use, element (log 44). -/
opaque kernelDraw : Nat → Nat → BitVec 16

/-! ## Section encodings the spec does not give (log 11); none: a wrong encoding -/

opaque parsePools : List Byte → Option (List Machine.PoolInfo)
opaque parseExperts : List Byte → Option Machine.Experts
opaque parseAdmission : List Byte → Option (List Machine.AdmTemplate)
opaque parseWings : List Byte → Option Machine.WingsSec
opaque parsePrompter : List Byte → Option (List Machine.PromptArea)
opaque parseTargets : List Byte → Option (List Machine.AdpTarget)
/-- Kernel constants, the stop tokens of the stop rules, and the initial contents of the COMMON banks. -/
opaque parseConstants : List Byte → Option (List Machine.KConst × List Nat × List (Nat × List Byte))
opaque parseDebug : List Byte → Option (List Machine.DebugNote)

/-- Load checks whose data the spec does not give: access counts of kernels and lane buffers, partitions of local buffers, shared
experts' slots (R166, R196, R197, R199, R201, R205; log 55): the cause, the file, the device's x and y. -/
opaque openCheck : Nat → List Byte → Nat → Nat → Bool

/-! ## Keys and signatures (log 10) -/

/-- Vendor firmware key and vendor test key in ROM (R451, R461). -/
opaque vendorKey : List Byte
opaque testKey : List Byte
/-- ML-DSA-65 verification: key, message, signature. -/
opaque mldsaVerify : List Byte → List Byte → List Byte → Bool
/-- The identity key's signature over a message: 3,309 B (R457). -/
opaque identitySign : List Byte → List Byte

end Sys2Proof.Config
end

