-- ==== Sys2Proof/Machine/State.lean ====
section
/-! DEFINITION. The state of one AVY-1648: every register, store, queue, counter, mode and pin the spec gives it, as plain
data, with the queue of waiting commands. A field's default is its value at reset (R11, R449); where the spec gives
none, the log entry named beside it does. Counters are Nat and saturate where they are bumped (Machine/Ops.lean).
Sparse tables are lists of key and value, keys strictly rising; an unlisted key reads as the default the field's
comment names. -/
namespace Sys2Proof.Machine

/-- Why the machine stops. No command of the table is given undefined behaviour by the spec; the only fault is an
access outside the device address space. -/
inductive Fault where
  /-- A device address at or beyond 0x30_0000_0000 (R210), in HBM_RD, HBM_RD_DELIVER, HBM_WR, or a window offset at or
  beyond 24 GiB in HOST_MEM_WRITE, HOST_MEM_READ and CALLBOARD_BIT_SET (R213). Safe: the load check (R341) and the
  decoder (R385) keep such accesses from arising. -/
  | noSuchAddress
  deriving DecidableEq, Repr

/-- Why a command is refused. -/
inductive Refusal where
  /-- A command that has no meaning in the model; raised by exec's refused arms only. Safe. -/
  | notModelled (mnemonic : String)
  /-- Operands that no event of this hardware has (WellFormed.lean): a reserved encoding of a field. Raised by exec's
  meanings before any effect. Safe. -/
  | illFormed
  deriving DecidableEq, Repr

/-! ## Device, pins, park -/

/-- Device states (R14), codes 0x0 to 0xA. -/
inductive DevState where
  | off | boot | darkHouse | ready | playing | curtain | parked | frozen | struck | tripped | blackout
  deriving DecidableEq, Repr, Inhabited

/-- Phases of GEN_PARK_STATUS (R474). -/
inductive ParkPhase where
  | none | draining | parked | waking
  deriving DecidableEq, Repr, Inhabited

/-- Identity, compatibility, device state, pins and park (GEN block R12, R474, R498; R6; R483). -/
structure Sys where
  st : DevState := .boot
  /-- The state FROZEN returns to (R469). DESIGN CHOICE ready (log 6). -/
  frozenFrom : DevState := .ready
  boLevel : Byte := 0
  smLevel : Byte := 0
  dieLevel : Byte := 0
  abiLevel : Byte := 0
  abiMin : Byte := 0
  /-- High-word latches of R6, key 4 × pair + path; unlisted 0. -/
  latch : Sparse Word := []
  autoWake : Bool := false
  parkScope : Bool := false
  parkPhase : ParkPhase := .none
  parkCount : Nat := 0
  /-- A wake asked for during a park sequence (R472). -/
  wakeWanted : Bool := false
  /-- The bellwether has sent WAKE and waits for AWAKE (R472). -/
  awakeSent : Bool := false
  /-- Tree links whose AWAKE is held (R472). -/
  awakeHeld : List Nat := []
  /-- SYS_RST_N is asserted; at reset the model stands at the moment before its release (log 4). -/
  sysRst : Bool := true
  prsnt : Bool := true
  perst : Bool := false
  freezeN : Bool := false
  bypassN : Bool := false
  /-- Bypass switches closed (R376). -/
  switches : Bool := true
  thermTripN : Bool := false
  /-- Power-good, bits as GEN_PINS.PG (R498). DESIGN CHOICE all good (log 6). -/
  pg : BitVec 7 := 0x7F
  /-- GEN_PIN_GLITCH (R498), saturating at 255. -/
  glFreeze : Nat := 0
  glBypass : Nat := 0
  glPrsnt : Nat := 0
  glTickIn : Nat := 0
  /-- Model time of the latest SYS_RST_N release (R415 TIME). -/
  relT : Nat := 0
  /-- Core clocks stopped (R414, R438, JTAG STOP). -/
  coreStopped : Bool := false
  /-- HBM stacks in self-refresh (R211), bit per stack. -/
  selfRefresh : BitVec 4 := 0
  /-- In-band I3C interrupts raised (R497). -/
  ibi : Nat := 0
  deriving DecidableEq, Repr

/-! ## Errors and history -/

/-- An error record (R415). -/
structure ErrRec where
  seq : Nat := 0
  cls : Nat := 0
  nested : Bool := false
  verdict : Nat := 0
  action : Nat := 0
  code : Nat := 0
  kind : Nat := 0
  unit : Nat := 0
  frame : Nat := 0
  slot : Nat := 0
  template : Nat := 0
  st : Nat := 0
  cue : Nat := 0
  x : Nat := 0
  y : Nat := 0
  herd : Nat := 0
  boots : Nat := 0
  related : Nat := 0
  /-- Session, call and step, when known (SVALID). -/
  session : Option (Nat × Nat × Nat) := none
  dcause : Nat := 0
  lanes : Nat := 0
  exposure : Nat := 0
  detail : List Word := []
  timeUs : Nat := 0
  deriving DecidableEq, Repr, Inhabited

/-- A unit's history (R405). -/
structure Hist where
  score : Nat := 0
  events : Nat := 0
  verdict : Nat := 0
  hours : Nat := 0
  /-- The last event came since the most recent BOOT (R407). -/
  thisBoot : Bool := false
  deriving DecidableEq, Repr, Inhabited

/-- An entry of the recent-location table (R405), also a location test in progress (R406). -/
structure Loc where
  store : Store
  unit : Nat
  loc : Nat
  syms : List Nat
  score : Nat := 0
  /-- Powered hours since its last event. -/
  hours : Nat := 0
  /-- Its last event came since the most recent BOOT (R407). -/
  thisBoot : Bool := true
  /-- Written back and awaiting its re-read. -/
  testing : Bool := false
  deriving DecidableEq, Repr

/-- The error unit (R400 to R421). -/
structure Err where
  /-- Record stack, entries 0 to 15 (R417), each with whether the host has consumed it from the ring; an unlisted
  entry is free. -/
  stack : Sparse (ErrRec × Bool) := []
  stackOvf : Bool := false
  logFull : Bool := false
  worst : Nat := 0
  /-- SEQ of the next record, from 1 (R415). -/
  nextSeq : Nat := 1
  tail : Word := 0
  head : Word := 0
  /-- Ring positions 0 to 65,535 (R418). -/
  ring : Sparse ErrRec := []
  /-- SEQs of stack records waiting for ring space (R418 case 4). -/
  held : List Nat := []
  selRing : Bool := false
  selIndex : BitVec 16 := 0
  /-- ERR_CNT[n]; unlisted 0. -/
  cnt : Sparse Nat := []
  histKind : BitVec 5 := 0
  histUnit : BitVec 18 := 0
  /-- Unit histories, key 2^18 × kind + unit; unlisted: no event ever. Kept; DESIGN CHOICE empty (log 5). -/
  hist : Sparse Hist := []
  /-- Recent-location table, newest first, 256 per store kind (R405). Kept; DESIGN CHOICE empty (log 5). -/
  locs : List Loc := []
  struck : Bool := false
  drained : Bool := false
  /-- History commits since manufacture. Kept; DESIGN CHOICE 0 (log 5). -/
  commits : Nat := 0
  /-- Histories and locations as last committed: what a start-up finds (R405). -/
  histSaved : Sparse Hist := []
  locsSaved : List Loc := []
  /-- BOOTs recorded in history (R415 BOOTS). -/
  boots : Nat := 0
  /-- Powered hours since the most recent BOOT (R407). -/
  hoursUp : Nat := 0
  /-- Powered hours since the first start the model sees (R92). Kept; DESIGN CHOICE 0 (log 5). -/
  hoursOn : Nat := 0
  /-- A drain (R409): the SEQ of the record that began it. -/
  drain : Option Nat := none
  /-- Drain order 2 waits for the next frame boundary. -/
  strikePending : Bool := false
  /-- Fatal handling: SEQ of its record and the model time of detection (log 18). -/
  fatal : Option (Nat × Nat) := none
  /-- SEQ of the record that began the containment in progress (R413 RELATED). -/
  contain : Nat := 0
  /-- After codes 0x0F04 and 0x0F05 no swap-out starts (R412). -/
  noSwapOut : Bool := false
  /-- Fatal snapshot words (R412). -/
  snapshot : List Word := []
  deriving DecidableEq, Repr

/-! ## Memory -/

/-- Spares of one unit of a store (R188, R206, R215). -/
structure Spares where
  used : Nat := 0
  pending : Nat := 0
  /-- Physical rows, lines or codewords mapped out, the n-th to spare n. -/
  mapped : List Nat := []
  deriving DecidableEq, Repr, Inhabited

/-- The memory stores (chapter 06). Bytes are cells of (address, byte), rising, none equal to 0: every store is zeroed
in BOOT (R449). SRAM keys: wings address; engine × 2^20 + offset; tile × 2^12 + offset; apron row × 2^9 + column, where
32 × tile + row is a logical row and 2^18 + 34 × tile + p a physical row p that stands for none. -/
structure Mem where
  hbm : List Host.Cell := []
  wings : List Host.Cell := []
  localBuf : List Host.Cell := []
  prompter : List Host.Cell := []
  apron : List Host.Cell := []
  /-- Row tags (R191), keys as apron rows; unlisted 0 (empty). -/
  tags : Sparse (BitVec 16) := []
  /-- HBM codewords that hold an uncorrectable error (address ÷ 64). -/
  bad : List Nat := []
  /-- Step whose HBM_WR wrote a codeword of the spill areas, by codeword (R204); unlisted: none. -/
  spill : Sparse (Nat × Nat × Nat) := []
  /-- Granule partitions (R200), key 256 × engine + granule: tenant or 16 COMMON; unlisted none. -/
  granule : Sparse Nat := []
  /-- Wings bank partitions (R197, R216); unlisted 31. -/
  owner : Sparse Nat := []
  /-- Spares, key 2^13 × store + unit. The map is kept; DESIGN CHOICE none used (log 5). -/
  spares : Sparse Spares := []
  /-- Map-outs that wait for the next frame boundary (R207): store, unit, row or line. -/
  mapNext : List (Store × Nat × Nat) := []
  /-- HBM codewords into which a merge of the device's own was dropped (R214), to be handled at the next boundary (log 114). -/
  missed : List Nat := []
  /-- ERR_MEM_CNT, key 8 × (2^13 × store + unit) + n; unlisted 0. -/
  cnt : Sparse Nat := []
  /-- Scrub passes per store; unlisted 0. -/
  passes : Sparse Nat := []
  selStore : BitVec 3 := 0
  selAll : Bool := false
  selUnit : BitVec 13 := 0
  /-- Hazard tags (R329): writer and frame bits, key store × 2^32 + row, line or granule. -/
  writer : Sparse (Nat × Nat) := []
  /-- Tag of the apron rows that no cue has written since the frame-end zeroing (R329, R333). -/
  apronTag : Nat × Nat := (0, 0)
  deriving DecidableEq, Repr

/-! ## Host attachment -/

/-- An MSI-X table entry (R392, R395). -/
structure MsixEnt where
  addr : Word64 := 0
  data : Word := 0
  mask : Bool := true
  deriving DecidableEq, Repr, Inhabited

/-- Host attachment (chapter 13). -/
structure HostIf where
  up : Bool := false
  pcie : Bool := false
  width : BitVec 5 := 0
  speed : BitVec 3 := 0
  bme : Bool := false
  memActive : Bool := false
  /-- HDM decoder 0, committed: base and size (R385). -/
  hdm : Option (Word64 × Word64) := none
  linkLoss : Nat := 0
  evtVector : BitVec 11 := 0
  evtOn : Bool := false
  evtStatus : BitVec 10 := 0
  evtEn : BitVec 10 := 0
  /-- The event vector may fire (R393). -/
  armed : Bool := true
  /-- HOST_DMA_CNT[n]; unlisted 0. -/
  dma : Sparse Nat := []
  msix : Sparse MsixEnt := []
  msixPend : List Nat := []
  msixEnable : Bool := false
  /-- DOE Error (R394). -/
  doeErr : Bool := false
  /-- A DOE response being returned: the mailbox is busy with it until read or aborted. -/
  doeResp : List Byte := []
  deriving DecidableEq, Repr

/-! ## Temperature, power, housekeeping -/

/-- A thermistor (R433). -/
structure Thermistor where
  temp : Int := 0
  valid : Bool := false
  isOpen : Bool := false
  short : Bool := false
  high : Bool := false
  beta : BitVec 14 := 0x0D6B
  rnom : BitVec 16 := 0x03E8
  en : Bool := false
  alarm : BitVec 12 := 0x384
  deriving DecidableEq, Repr, Inhabited

/-- THERM block (R422 to R440, R446). Temperatures in 0.1 °C. -/
structure Thm where
  warn : Bool := false
  level : Nat := 0
  /-- Model time of the level's last change (R435). -/
  lastChange : Option Nat := none
  excl : BitVec 8 := 0
  hot : Int := 0
  hotDiode : Nat := 0
  peak : Int := 0
  /-- Diode readings, unlisted: none taken (VALID 0). -/
  diode : Sparse Int := []
  /-- Consecutive mismatches per diode (R432) and per oscillator (R431). -/
  diodeMis : Sparse Nat := []
  roMis : Sparse Nat := []
  ro : Sparse Int := []
  roFault : List Nat := []
  thmA : Thermistor := {}
  thmB : Thermistor := {}
  vset : Nat := 800
  avsErr : Bool := false
  avsFails : Nat := 0
  avsStopped : Bool := false
  pwrMv : BitVec 12 := 0
  pwrAmps : BitVec 11 := 0
  /-- Products in mW of the running 1 ms average, and the window's start (R424). -/
  samples : List Nat := []
  winStart : Nat := 0
  avgW : Nat := 0
  maxW : Nat := 0
  tripCount : Nat := 0
  tripDiode : Nat := 0
  tripCause : Nat := 0
  tripLatched : Bool := false
  /-- Model times of the two latest trips (R439 ages); none: age 4,095. -/
  trip1 : Option Nat := none
  trip2 : Option Nat := none
  /-- A trip to record at the next BOOT (0x0C02, R439). -/
  tripRecord : Bool := false
  cnt : Sparse Nat := []
  /-- Flock bands in effect, pending bands, and changes (R89, R101, R430); 0 A to 3 D, unlisted 0. -/
  band : Sparse Nat := []
  pendBand : Sparse Nat := []
  bandChanges : Sparse Nat := []
  /-- A monitor cycle has completed since SYS_RST_N (R434). -/
  monitored : Bool := false
  deriving DecidableEq, Repr

/-- A host burst's latched request (R443). -/
structure BurstReq where
  chan : Nat
  n : Nat
  ref : Nat
  deriving DecidableEq, Repr

/-- HKC block (R441 to R447). -/
structure Hkc where
  chan : BitVec 5 := 0
  n : BitVec 4 := 8
  urgChan : BitVec 5 := 0
  ref : BitVec 2 := 0
  extUv : BitVec 21 := 0xF4240
  /-- Host burst requested or running (BUSY). -/
  burst : Option BurstReq := none
  done : Bool := false
  err : Bool := false
  settled : Bool := false
  clipped : Bool := false
  /-- Host urgent request waiting or running (URG_BUSY): its channel. -/
  urg : Option Nat := none
  urgDone : Bool := false
  aborts : Nat := 0
  curRef : Nat := 0
  acc : Nat := 0
  min : Nat := 0
  max : Nat := 0
  urgAcc : Nat := 0
  urgMin : Nat := 0
  urgMax : Nat := 0
  /-- HKC_MON[n]: mean and cycle number; unlisted 0. -/
  mon : Sparse (Nat × Nat) := []
  cycle : Nat := 0
  deriving DecidableEq, Repr

/-! ## Security, firmware, debug -/

/-- Security states (R461, SEC_STATUS.STATE R476). -/
inductive SecState where
  | manufacture | locked | ownerDebug | vendorDebug | dark | notYet
  deriving DecidableEq, Repr, Inhabited

/-- Security and firmware (R448 to R464, R476). The protected part, firmware and calibration items are kept through
every reset; their values at the first start are opaque (log 5). -/
structure Sec where
  st : SecState := .notYet
  level : Nat := 0
  max : Nat := 0
  boSlot : Bool := false
  smSlot : Bool := false
  smRun : Bool := false
  dhCause : Nat := 0
  boVer : Word := 0
  smVer : Word := 0
  boDigest : List Byte := []
  smDigest : List Byte := []
  /-- SEC_BOOT_COUNT, SEC_FLOOR and OWNED as firmware filled them (R11). -/
  shown : Bool := false
  -- kept: protected part
  persistMan : Bool := Config.persistManufacture
  protectedOk : Bool := Config.protectedOk
  owner : Option OwnerKeys := Config.ownerKeys
  bootCount : Word := Config.bootCount
  floorBo : BitVec 16 := Config.floorBo
  floorSm : BitVec 16 := Config.floorSm
  -- kept: firmware slots and calibration
  boA : List Byte := Config.fwBoA
  boB : List Byte := Config.fwBoB
  smA : List Byte := Config.fwSmA
  smB : List Byte := Config.fwSmB
  -- firmware update
  fwKind : Bool := false
  fwUnits : BitVec 9 := 0
  fwDone : Bool := false
  fwErr : Bool := false
  fwCause : Nat := 0
  /-- Update buffer, and the kind its first append named. -/
  buffer : List Byte := []
  bufKind : Bool := false
  /-- SEC_FW_WIN words; unlisted 0. -/
  win : Sparse Word := []
  deriving DecidableEq, Repr

/-- JTAG instruction selected (R475). -/
inductive JtagInstr where
  | bypass | idcode | samplePreload | extest | aonRead | dbgAccess | freeze | keptRead | stop | scan
  deriving DecidableEq, Repr, Inhabited

/-- Freeze, JTAG and I3C (R468 to R477, R497). -/
structure Dbg where
  holdPin : Bool := false
  holdCmd : Bool := false
  holdHazard : Bool := false
  holdJtag : Bool := false
  ownSeq : Byte := 0
  /-- Remote holds: origin and sequence (R468). -/
  remote : List (Coord × Byte) := []
  cause : Nat := 0
  origin : Coord := ⟨0, 0⟩
  seq : Byte := 0
  /-- FREEZE and THAW already forwarded: thaw?, origin, sequence (R375). -/
  seen : List (Bool × Coord × Byte) := []
  frozen : Bool := false
  frozenAt : Nat := 0
  frozenUs : Nat := 0
  frozenCnt : Nat := 0
  denied : Nat := 0
  instr : JtagInstr := .bypass
  deniedFlag : Bool := false
  boundary : List Bool := []
  keptPos : Nat := 0
  /-- Debug level at BLACKOUT entry (R466). -/
  keptLevel : Nat := 0
  scanReg : List Bool := []
  i3cAddr : Option (BitVec 7) := none
  i3cOff : Word := 0
  deriving DecidableEq, Repr

/-! ## Sessions -/

/-- A token descriptor (R156). -/
structure Tok where
  pos : Nat := 0
  seg : Nat := 0
  cslot : Nat := 0
  cls : Nat := 0
  draft : Bool := false
  adp : Bool := false
  adapter : Nat := 0
  session : Nat := 0
  ex : Nat := 0
  ey : Nat := 0
  admitted : Nat := 0
  eframe : Nat := 0
  /-- The step's ENCORE_HELD mark, which travels with the descriptor (R168). -/
  encHeld : Bool := false
  /-- Tenant partition of the step (R197); like the mark, it has no place in the 128 bits (log 22). -/
  tenant : Nat := 0
  deriving DecidableEq, Repr, Inhabited

/-- A step in flight with this device as entry device (R232, R236 to R238). -/
structure Step where
  session : Nat
  callSeq : Nat := 0
  index : Nat := 0
  cls : Nat := 0
  tenant : Nat := 0
  decode : Bool := true
  /-- Admission slot of the template. -/
  slot : Nat := 0
  encore : Bool := false
  /-- New positions: first position and token ids in order; the last `kEff` are drafts. -/
  pos : Nat := 0
  tokens : List Nat := []
  kEff : Nat := 0
  /-- The call's first step; a RESET call; a prefill-only call. -/
  first : Bool := false
  reset : Bool := false
  prefillOnly : Bool := false
  frame : Nat := 0
  admitted : Nat := 0
  /-- Chunks of a PREFILL step (R184), and how many have entered. -/
  chunks : Nat := 1
  entered : Nat := 1
  epoch : Nat := 0
  adp : Option Nat := none
  prec : BitVec 8 := 0
  skips : Nat := 0
  delayed : Bool := false
  /-- Cause of a discard waiting for its record (R401). -/
  discard : Option Nat := none
  /-- Marked for replay under LEARN, and how often it was replayed (R129). -/
  replay : Bool := false
  nReplay : Nat := 0
  /-- Released tokens after SAMPLE and VERIFY. -/
  sampled : Bool := false
  released : List Nat := []
  /-- Drafts proposed for the next step (R175). -/
  nextDrafts : List Nat := []
  /-- Segment number its descriptors carry (R156, R157). -/
  segNo : Nat := 0
  /-- Positions whose blocks its session held before this step's claim (R261). -/
  reach : Nat := 0
  deriving DecidableEq, Repr, Inhabited

/-- An adapter slot (R246): 1 LOADING, 2 READY; unlisted FREE. -/
structure AdpSlot where
  ready : Bool := false
  retire : Bool := false
  tenant : Nat := 0
  refs : Nat := 0
  version : Word := 0
  deriving DecidableEq, Repr, Inhabited

/-- The call in progress of a session (R228, R236). -/
structure CallInfo where
  seq : Nat := 0
  nIn : Nat := 0
  maxNew : Nat := 0
  reset : Bool := false
  /-- Words of the record, padding included. -/
  words : Nat := 0
  /-- The call's first step has completed (R236). -/
  begun : Bool := false
  deriving DecidableEq, Repr, Inhabited

/-- A claim of an admission slot in a frame (R232): frame, slot, session. -/
structure SlotClaim where
  frame : Nat
  slot : Nat
  session : Nat
  deriving DecidableEq, Repr, Inhabited

/-- The callboard unit and adapters (chapter 07). Session entries, rings and the bitmap are bytes of HBM. -/
structure Call where
  hold : Bool := false
  /-- Session cache: slot to session. -/
  cache : Sparse Nat := []
  /-- Summary bits: bitmap codewords written since read (R225). -/
  summary : List Nat := []
  /-- Rotor of each class (R230); unlisted 0. -/
  rotor : Sparse Nat := []
  /-- Ready frame of each candidate session (R230). -/
  ready : Sparse Nat := []
  /-- Sessions whose VALID rose, and fell, since the last scan (R221). -/
  init : List Nat := []
  empty : List Nat := []
  steps : List Step := []
  /-- Steps marked for replay, waiting for admission (R129). -/
  replays : List Step := []
  /-- Calls in progress, by session. -/
  calls : Sparse CallInfo := []
  /-- Admission slots taken in this frame and claimed in later ones (R232). -/
  claims : List SlotClaim := []
  /-- Attention pairs used per frame, kind and class (R183), key (frame × 2 + prefill) × 4 + class. -/
  pairs : Sparse Nat := []
  cnt : Sparse Nat := []
  /-- Sessions whose bit stays set during a call, to examine again (R226). -/
  again : List Nat := []
  adpSlots : Sparse AdpSlot := []
  /-- Directory: slot and VALID; unlisted (0, invalid). -/
  adpDir : Sparse (Nat × Bool) := []
  adpSlot : BitVec 8 := 0
  adpTenant : BitVec 4 := 0
  adpSrc : BitVec 19 := 0
  /-- Adapter load running (BUSY): slot, tenant, source unit. -/
  adpJob : Option (Nat × Nat × Nat) := none
  adpDone : Bool := false
  adpErr : Bool := false
  adpCause : Nat := 0
  routeCnt : Sparse Nat := []
  deriving DecidableEq, Repr

/-! ## Frames and lanes -/

/-- What a DONE unit of a tree child carried (R37), in order of arrival. -/
structure DoneHeld where
  link : Nat
  causes : Nat
  throttle : Nat
  x : Nat
  y : Nat
  deriving DecidableEq, Repr, Inhabited

/-- The herd-wide drains: curtain, unload and park (R304, R317, R472). -/
inductive DrainKind where
  | curtain | unload | park
  deriving DecidableEq, Repr, Inhabited

/-- A range that a read or a receive has not written yet (R343): wings bytes, or local buffer bytes of an engine. -/
structure Outst where
  wings : Bool
  lo : Nat
  hi : Nat
  /-- Cause bit a stall on it records (R52), and the HBM channel or link it blames (R60). -/
  cause : Nat
  unit : Nat
  /-- Cue number of the read or the receive. -/
  num : Nat
  deriving DecidableEq, Repr, Inhabited

/-- A stall in progress (R49): the range waited for and the slot of the cue that waits. -/
structure StallInfo where
  on : Outst
  slot : Nat
  deriving DecidableEq, Repr, Inhabited

/-- One frame of the overrun history (R60): own work late in an overrun, and the causes and units it recorded. -/
structure OverrunEnt where
  late : Bool := false
  units : List (Nat × Nat) := []
  deriving DecidableEq, Repr, Inhabited

/-- Frame tick, stall and lane table (chapter 02, R334, R343). Times in ns of the model clock. -/
structure Frm where
  /-- Frames are beginning on this device; a frame is open. -/
  running : Bool := false
  isOpen : Bool := false
  frame : Nat := 0
  start : Nat := 0
  planned : Nat := 0
  /-- Frames played since the latest discovery (R36). -/
  played : Nat := 0
  lat : Nat := 0
  path : Nat := 0
  pathTarget : Nat := 0
  tickLock : Bool := false
  tickInEn : Bool := false
  tickInLost : Bool := false
  tickInLast : Option Nat := none
  /-- TICK_IN paces launches again after a loss (R42). -/
  tickInUse : Bool := false
  throttle : Nat := 0
  phaseBand : Nat := 0
  aborted : Bool := false
  stretchFrames : Nat := 0
  stretchTotal : Nat := 0
  stretchMax : Nat := 0
  overruns : Nat := 0
  lastCauses : Nat := 0
  lastX : Nat := 0
  lastY : Nat := 0
  stretchCause : Sparse Nat := []
  stallCause : Sparse Nat := []
  stallSlots : Nat := 0
  /-- Own cause bitmap of the frame (R37). -/
  causes : Nat := 0
  /-- Herd bitmap and last device of the latest complete DONE aggregate (R61 LAST_STRETCH). -/
  aggCauses : Nat := 0
  aggX : Nat := 0
  aggY : Nat := 0
  aggThrottle : Nat := 0
  children : List DoneHeld := []
  ownDone : Bool := false
  doneSent : Bool := false
  /-- All child DONE had arrived when the own work finished (R37). -/
  ownLast : Bool := false
  stall : Option StallInfo := none
  /-- Slots by which the frame's remaining cues have moved later: stalls that ended, and inserted slots (R49, R54). -/
  stallShift : Nat := 0
  /-- Causes stalled for in this frame, and the causes and units recorded (R60, R61). -/
  stalledFor : List Nat := []
  units : List (Nat × Nat) := []
  overrunHist : List OverrunEnt := []
  /-- Drain the host asked for on the bellwether, to be named at the next boundary (R304, R317, R472). -/
  want : Option DrainKind := none
  /-- Drain named by CURTAIN, UNLOAD or PARK and its frame g (low 16 bits). -/
  drain : Option (DrainKind × Nat) := none
  /-- The drain that runs (CURTAIN, or PLAYING without admission). -/
  draining : Option DrainKind := none
  drainedHeld : List Nat := []
  drainedSent : Bool := false
  /-- Boundary at which frames stop (STOP), low 16 bits. -/
  stopAt : Option Nat := none
  lanes : Sparse Tok := []
  /-- Lanes whose assignment was skipped (R345). -/
  skipped : List Nat := []
  /-- Lanes to fill at the next frame start: encore and delay lanes (R339), and delay lanes that carry a skip. -/
  nextLanes : Sparse Tok := []
  nextSkipped : List Nat := []
  outst : List Outst := []
  /-- Model time of the latest TICK_OUT pulse (R43). -/
  tickOut : Option Nat := none
  /-- The echo number last sent on the tree link (R34). -/
  echoNum : Nat := 0
  deriving DecidableEq, Repr

/-! ## Mesh -/

/-- A control unit (R360). -/
inductive CtlUnit where
  | tick (u : TickInfo)
  | done (u : DoneInfo)
  | echo (num : BitVec 16)
  | echoReply (num : BitVec 16) (turn : BitVec 16)
  | ack (last : BitVec 16)
  | nak (failed : BitVec 16)
  | replay (count : BitVec 16)
  | spill (u : SpillInfo)
  | lane (u : LaneInfo)
  | freeze (u : FloodInfo)
  | thaw (u : FloodInfo)
  | curtain (g : BitVec 16)
  | drained
  | rewrite
  | curtainReady (failure : Bool) (failedAt : Coord)
  | raise (h : BitVec 16)
  | unload (g : BitVec 16)
  | stop (frame : BitVec 16)
  | park (g : BitVec 16)
  | wake (origin : Coord)
  | awake
  | hello (u : HelloInfo)
  | discover (herd : BitVec 8) (parentPath : BitVec 16) (digest : BitVec 64) (round : BitVec 8)
  | report (u : ReportInfo)
  | herd (u : HerdInfo)
  | rediscover (u : FloodInfo)
  | reserved (type : Byte)
  deriving DecidableEq, Repr

/-- A flit as sent (R357). -/
structure Flit where
  body : List Byte
  crc : BitVec 16
  deriving DecidableEq, Repr, Inhabited

/-- One Kafel link, both directions (R356 to R373). -/
structure Link where
  /-- MESH_LINK_STAT.STATE: 0 no partner; 1 training; 2 up; 3 degraded; 4 down; 5 MISWIRED; 6 DELAY; 7 all disabled. -/
  st : Nat := 0
  lanes : BitVec 4 := 0
  disabled : BitVec 4 := 0
  partX : BitVec 4 := 0
  partY : BitVec 4 := 0
  partK : BitVec 4 := 0
  bypassed : Bool := false
  /-- One-way delay in 10 ps. -/
  delay : Nat := 0
  /-- Sums and number of echo round trips measured (R365). -/
  echoSum : Nat := 0
  echoN : Nat := 0
  txCount : Nat := 0
  rxCount : Nat := 0
  /-- Replay buffer: sent flits by count, oldest first. -/
  replayBuf : List (Nat × Flit) := []
  /-- Flits from the oldest failed one on, by count: the flit once it has arrived, and how often it failed (R359). -/
  held : List (Nat × Option Flit × Nat) := []
  /-- REPLAY received: the next flit is the resent one of this count. -/
  replayNext : Option Nat := none
  /-- Data flits that wait for room in the replay buffer (R359). -/
  txWait : List Flit := []
  /-- Flits received since the latest ACK was sent. -/
  sinceAck : Nat := 0
  /-- SPILL runs named for the next data units: link and units. -/
  runs : List SpillInfo := []
  /-- Data units of this link's own stream received and not yet taken by a receive record. -/
  rx : List (List Byte) := []
  /-- Spilled units of this link's transfers received on other links: transfer, unit index, unit. -/
  rxSpill : List (Nat × Nat × List Byte) := []
  /-- Receive mask, and send mask, that applies from a frame on (low 16 bits, R370). -/
  nextMask : Option (BitVec 4 × Nat) := none
  nextTx : Option (BitVec 4 × Nat) := none
  /-- The receiver realigns after a lane lost lock (R370). -/
  outage : Bool := false
  /-- When the latest ECHO went out (R34, R365). -/
  echoAt : Nat := 0
  /-- The peer's reported mask for the direction this device sends in. -/
  txLanes : BitVec 4 := 0xF
  /-- Lane and time in ns of each drop of the last 24 hours (R371). -/
  drops : List (Nat × Nat) := []
  /-- Dropped lanes that the host's LANE_RETRY retries (R371). -/
  retry : BitVec 4 := 0
  idle : Bool := false
  deriving DecidableEq, Repr, Inhabited

/-- Kafel mesh and management Ethernet (chapter 12). -/
structure Mesh where
  /-- MESH_ID as stored in non-volatile history (R363); reset column 0xFF, 0, 0 (R380). -/
  herd : BitVec 8 := 0xFF
  x : BitVec 4 := 0
  y : BitVec 4 := 0
  lock : Bool := false
  /-- Coordinates in force since the latest discovery. -/
  at_ : Option Coord := none
  /-- Herd identifier in force since the latest discovery (R363; log 132); 0xFF before the first. -/
  herdAt : BitVec 8 := 0xFF
  /-- Dᵢ of the parent, in ns, from the first DISCOVER (R365). -/
  parentPath : Nat := 0
  disc : Nat := 0
  result : Nat := 0
  seenX : BitVec 4 := 0
  seenY : BitVec 4 := 0
  devices : Nat := 0
  discCount : Nat := 0
  links : Sparse Link := []
  cntLink : BitVec 6 := 0
  cntAll : Bool := false
  /-- MESH_CNT, key 16 × link + n; unlisted 0. -/
  cnt : Sparse Nat := []
  short : List Nat := []
  /-- REDISCOVER floods seen: origin and sequence. -/
  seenRedisc : List (Coord × Byte) := []
  ownRedisc : Byte := 0
  reports : List ReportInfo := []
  /-- Digests of the bellwethers whose DISCOVER was seen. -/
  discovers : List (BitVec 64) := []
  round : Byte := 0
  ethEn : Bool := false
  ethVlan : BitVec 12 := 0
  ethPort : BitVec 16 := 0
  ethSpeed : BitVec 2 := 0
  ethInterval : BitVec 14 := 1000
  ethDest : Sparse Word := []
  deriving DecidableEq, Repr

/-! ## Outputs -/

/-- What the device sends to the world. -/
inductive Output where
  /-- Mule write to host memory (R390); `relaxed` is Relaxed Ordering. -/
  | hostWrite (addr : Nat) (bytes : List Byte) (relaxed : Bool)
  | hostRead (addr : Nat) (len : Nat)
  | msix (addr : Word64) (data : Word)
  /-- A control unit on a link. -/
  | unit (link : Nat) (u : CtlUnit)
  /-- A data flit, or a control flit whose SPILL unit names the run it carries, on a link. -/
  | flit (link : Nat) (f : Flit)
  /-- A flit sent again (R359). -/
  | resend (link : Nat) (f : Flit)
  | kv (dst : Coord) (op : Byte) (m : KvMsg)
  | eth (bytes : List Byte)
  | doe (bytes : List Byte)
  /-- Data of a host read, with poison. -/
  | hostData (bytes : List Byte) (poison : Bool)
  | bar0 (w : Word)
  | unsupported
  | tdo (bits : List Bool)
  | i3c (w : Word)
  /-- The provisioned ID sent in ENTDAA (R497). -/
  | i3cId (bytes : List Byte)
  | tickOut (t : Nat)
  | avsWrite (mv : Nat)
  deriving DecidableEq, Repr

/-! ## The loaded script (chapters 10, 11, and the sections other chapters name) -/

/-- A placement entry (R323). -/
structure PlaceEnt where
  layer : Nat
  matrix : Nat
  expert : Nat
  w8 : Bool
  kslice : Nat
  ngroup : Nat
  x : Nat
  y : Nat
  tile : Nat
  slot : Nat
  deriving DecidableEq, Repr, Inhabited

/-- A chain record with its members (R337). -/
structure Chain where
  chain : Nat
  layer : Nat
  matrix : Nat
  ngroup : Nat
  scales : Nat
  outTile : Nat
  members : List (Nat × Nat)
  deriving DecidableEq, Repr, Inhabited

/-- A lane map record (R334): 0 admission, 1 arrival, 2 expert regular, 3 expert encore, 4 delay. -/
structure LaneMap where
  first : Nat
  count : Nat
  kind : Nat
  offset : Nat
  stride : Nat
  deriving DecidableEq, Repr, Inhabited

/-- A frame template: cue words of 128 bits, parameter records, lane map (R331). -/
structure Template where
  cues : List Nat
  params : List (List Byte)
  lanes : List LaneMap
  deriving DecidableEq, Repr, Inhabited

/-- A layer record of the KV section (R499). -/
structure KvLayer where
  layer : Nat
  x : Nat
  y : Nat
  latent : Bool
  window : Nat
  deriving DecidableEq, Repr, Inhabited

/-- A device record of the KV section with its share row (R499). -/
structure KvDev where
  x : Nat
  y : Nat
  e : Nat
  lk : Nat
  shares : List Nat
  deriving DecidableEq, Repr, Inhabited

/-- A LINKS record (R324): direction 0 send, 1 receive, 2 forward. -/
structure LinkEnt where
  dir : Nat
  template : Nat
  rec_ : LinkRec
  deriving DecidableEq, Repr, Inhabited

/-- The header (R320). -/
structure ScriptHdr where
  abi : Nat := 0
  grade : Nat := 0
  declBand : Nat := 0
  cycle : Nat := 0
  xDim : Nat := 0
  yDim : Nat := 0
  depth : Nat := 0
  cmd : Nat := 0
  period : Nat := 0
  tickBudget : Nat := 0
  workSlots : Nat := 0
  sustained : Nat := 0
  placement : Nat := 0
  layout : Nat := 0
  hcInterval : Nat := 0
  learn : Nat := 0
  hbmBudget : Nat := 0
  chunk : Nat := 0
  headroom : Nat := 0
  vocab : Nat := 0
  context : Nat := 0
  version : Nat := 0
  weightKey : List Byte := []
  deriving DecidableEq, Repr, Inhabited

/-- A script as the device holds it after a load (R315). -/
structure Script where
  hdr : ScriptHdr := {}
  /-- SCRIPT_ID, 32 bytes (R319). -/
  id : List Byte := []
  placement : List PlaceEnt := []
  templates : List Template := []
  chains : List Chain := []
  scales : List Byte := []
  qpoints : List Nat := []
  prompter : List PromptArea := []
  pools : List PoolInfo := []
  experts : Experts := ⟨[], []⟩
  admission : List AdmTemplate := []
  links : List LinkEnt := []
  kvLayers : List KvLayer := []
  kvDevs : List KvDev := []
  wings : WingsSec := ⟨[], []⟩
  targets : List AdpTarget := []
  consts : List KConst := []
  /-- Stop tokens of the script's stop rules (R322). -/
  stops : List Nat := []
  notes : Option (List DebugNote) := none
  /-- Initial contents of the COMMON wings banks (R315). -/
  common : List (Nat × List Byte) := []
  /-- The sections copied into the script image region, in order: offset in the file, and length (R315). -/
  parts : List (Nat × Nat) := []
  deriving DecidableEq, Repr, Inhabited

/-- A hazard record (R330). -/
structure HazRec where
  found : Nat
  foundFrame : Nat
  slot : Nat
  template : Nat
  store : Nat
  reader : Nat
  expect : Nat
  distance : Nat
  deriving DecidableEq, Repr, Inhabited

/-- Script load, identity and hazard detector (R313 to R318, R329, R330). -/
structure Scr where
  src : BitVec 22 := 0
  /-- Load running (BUSY): the file's first byte as a device address. -/
  job : Option Nat := none
  done : Bool := false
  err : Bool := false
  cause : Nat := 0
  whereSlot : Nat := 0
  whereTemplate : Nat := 0
  whereSection : Nat := 0
  unit : Nat := 0
  unitKind : Nat := 0
  script : Option Script := none
  /-- Where its source lies in weight staging, as a device address (R204, R315). -/
  srcAt : Nat := 0
  hazMode : BitVec 2 := 0
  hazLost : Bool := false
  hazCnt : Nat := 0
  /-- The latest hazards, newest first, at most 4. -/
  haz : List HazRec := []
  deriving DecidableEq, Repr

/-! ## Chorus engines -/

/-- Engine state beyond the local buffers (chapter 05). -/
structure Eng where
  /-- Threads that ran a kernel in this frame and in the previous one: 64 × engine + thread. -/
  active : List Nat := []
  prevActive : List Nat := []
  /-- SCRIPT_POOL_LATE. -/
  late : Nat := 0
  /-- Assignments beyond the encore lanes, reported as skipped by the next frame's PLACE (R339): key 1,024 × layer + expert;
  the lane in which each arrived. -/
  encoreOver : Sparse (List (Nat × Tok)) := []
  /-- Steps delayed in this frame, with the layer: entry x, y, session, layer (R171). -/
  delayed : List (Nat × Nat × Nat × Nat) := []
  deriving DecidableEq, Repr

/-! ## Arrays and tiles -/

/-- Tracking state of one column group of an array (R85, R86, R294). The ratios are exact (log 21). -/
structure Grp where
  /-- Applied gain with 23 fraction bits. -/
  applied : Nat := 2 ^ 23
  rho : Rat := 1
  rho0 : Rat := 1
  /-- ΣE and ΣM of this frame's qualifying phases, and whether there were any. -/
  sumE : Rat := 0
  sumM : Rat := 0
  qual : Bool := false
  /-- The same sums over the tracking evaluations of R294. -/
  mE : Rat := 0
  mM : Rat := 0
  deriving DecidableEq, Repr, Inhabited

/-- Why an array is being programmed (R298, R300, R303). -/
inductive ProgJob where
  /-- A section load or curtain writes the slot in place. -/
  | load (slot : Nat)
  | refresh (slot : Nat)
  | replacement (slot : Nat)
  | reset
  /-- A repaired row's array is proved with the slot's census weights (R303). -/
  | prove (slot : Nat)
  deriving DecidableEq, Repr, Inhabited

/-- One physical array (R101, R312). Its role, writes, verdicts and programming record are kept. -/
structure Arr where
  /-- ROLE: 0 principal, 1 understudy free, 2 understudy busy, 3 retired. -/
  role : Nat := 0
  pslot : Nat := 0
  /-- Row map (R98): logical row and the spare physical row, 512 to 519, oldest entry first; the latest of a row counts. Kept; DESIGN
  CHOICE empty (log 5). -/
  rowMap : List (Nat × Nat) := []
  /-- Age since programming: ns of band A × 7 (R88). -/
  age : Nat := 0
  stale : Bool := false
  due : Bool := false
  /-- Made due by ρ ÷ ρ⁰ (R299). -/
  dueRho : Bool := false
  /-- AGE, as `age`, when it was marked due (R302). -/
  dueAge : Nat := 0
  overdue : Bool := false
  worn : Bool := false
  writes : Nat := 0
  /-- PSTATE: 0 idle, 1 programming, 2 paused, 3 measuring, 4 awaiting swap, 5 incomplete. -/
  pstate : Nat := 0
  /-- What it is programmed for; with PSTATE 0 it waits for a programming place (R293). -/
  job : Option ProgJob := none
  /-- Row that the programming has reached. -/
  row : Nat := 0
  /-- When its programming started: for the pause rule of R299. -/
  started : Nat := 0
  /-- Programming record in non-volatile history (R296). -/
  record : Bool := false
  /-- A principal whose programming was cut off (R296). -/
  incomplete : Bool := false
  /-- Failed principal of a suspended slot (R300); `toSuspend` waits for the boundary. -/
  suspended : Bool := false
  toSuspend : Bool := false
  failed : Bool := false
  failedRow : Option Nat := none
  /-- Reference pairs hold the values of R84. -/
  refs : Bool := false
  /-- Reprogrammed under the curtain: its applied gains start when the curtain rises (R304 order 8). -/
  newGain : Bool := false
  groups : Sparse Grp := []
  /-- Tracking evaluations of R294 still to run, with their sums per group. -/
  toMeasure : Nat := 0
  /-- Tile.frames at the latest qualifying phase (R87), and at the latest probe passed or qualifying frame within the drift limits (R403; log 129). -/
  qualAt : Nat := 0
  provedAt : Nat := 0
  deriving DecidableEq, Repr, Inhabited

/-- A tile's accumulator set (R75, R78). -/
structure AccSet where
  chain : Nat
  exp : Int
  /-- 512 accumulators, and the columns whose overflow flag is set. -/
  vals : List Int
  ovf : List Nat
  deriving DecidableEq, Repr, Inhabited

/-- A contribution on its way to a set: added at the end of `slot`, in the order array, Prompter, forwarded sum
(R74, R80, R112, R345). -/
structure Contrib where
  slot : Nat
  order : Nat
  tile : Nat
  chain : Nat
  exp : Int
  vals : List Int
  ovf : List Nat
  deriving DecidableEq, Repr, Inhabited

/-- What the requantiser knows of the vector in an apron row (R115, R118). -/
structure Block where
  /-- The source: apron key of a row, or a wings address. -/
  apron : Bool
  addr : Nat
  srcFmt : OutFmt
  fmt : ArrFmt
  oset : Nat
  qpoint : Nat
  stoch : Bool
  n : Nat
  z : Nat
  s : Nat
  exp : Int
  deriving DecidableEq, Repr, Inhabited

/-- A repeat request (R120 to R124). -/
structure RepReq where
  slot : Nat
  tile : Nat
  pslot : Nat
  chain : Nat
  lane : Nat
  tok : Tok
  format : Bool
  range : Nat
  /-- A range repeat's codes per phase, exponent, clipped columns and their codes per phase. -/
  phases : List (List Int)
  exp : Int
  clips : List (List (Nat × Int))
  block : Block
  deriving DecidableEq, Repr, Inhabited

/-- Where a chain's output for a lane lies (R123): apron key of the first row, or a wings address. -/
structure OutLoc where
  tile : Nat
  apron : Bool
  addr : Nat
  fmt : OutFmt
  tok : Tok
  deriving DecidableEq, Repr, Inhabited

/-- An apron row as it was before the latest write to it (R115, R190): the slot of that write, the bytes, the tag, and what the
requantiser and the hazard detector knew of it. -/
structure RowOld where
  slot : Nat
  bytes : List Byte
  tag : BitVec 16
  block : Option Block
  /-- The hazard detector's tag (R329). -/
  writer : Nat × Nat
  deriving DecidableEq, Repr, Inhabited

/-- Lead requests of one flock left over at the end of its window (R54): its tile-phases per inserted slot, and the tile and cost of
each request in the order of service. -/
structure InsWin where
  flock : Nat
  tiles : Nat
  reqs : List (Nat × Nat)
  deriving DecidableEq, Repr, Inhabited

/-- Trouble of this frame under LEARN (R128): the point, the row of the table (1 rise, 2 fall, 3 widen), and the largest
magnitude for row 1. -/
structure LearnUp where
  point : Nat
  row : Nat
  big : Rat
  fmt : ArrFmt
  deriving DecidableEq, Repr, Inhabited

/-- A captured phase of an ARRAY job (R140). -/
structure PhaseCap where
  codes : List Int
  conv : List Int
  range : Nat
  gains : List Nat
  /-- RMS bound of R92 to R94 that applied; none while the array is TRACK_STALE or OVERDUE. -/
  bound : Option Rat
  deriving DecidableEq, Repr, Inhabited

/-- A captured source of a LAYER job (R141): tile, slot, block, the scale table's entry then, the rounding seed, the bytes. -/
structure SrcCap where
  tile : Nat
  pslot : Nat
  block : Block
  entry : Nat
  seed : Nat
  src : List Byte
  deriving DecidableEq, Repr, Inhabited

/-- A captured chain of a LAYER job (R141): its sources in order of evaluation, and the final output with its rounding. -/
structure ChainCap where
  chain : Nat
  lane : Nat
  blocks : List SrcCap
  out : List Byte
  fmt : OutFmt
  stoch : Bool
  tok : Tok
  deriving DecidableEq, Repr, Inhabited

/-- Exact-mode registers and job (R140 to R143). -/
structure Exact where
  kind : BitVec 2 := 0
  tile : BitVec 13 := 0
  slot : BitVec 4 := 0
  layer : BitVec 10 := 0
  session : BitVec 20 := 0
  /-- Job running: ARRAY (false) or LAYER, with its target latched. -/
  job : Option (Bool × Nat × Nat) := none
  startFrame : Nat := 0
  done : Bool := false
  err : Bool := false
  cause : Nat := 0
  phases : List PhaseCap := []
  chains : List ChainCap := []
  /-- A LAYER job has met its step. -/
  step : Bool := false
  rms : Nat := 0
  max : Nat := 0
  bound : Nat := 0
  over_ : Nat := 0
  digest : List Byte := []
  deriving DecidableEq, Repr

/-- A probe in hand (R355): the array, its flagged columns with their pattern-0 differences, the next pattern (0: not
confirmed yet), the row bits read out so far, and whether some column is not a row fault. -/
structure Probe where
  arr : Nat
  flagged : List (Nat × Rat)
  next : Nat := 0
  rows : List (Nat × Nat) := []
  notRow : Bool := false
  deriving DecidableEq, Repr, Inhabited

/-- TILE block, precision mode and array work (chapters 03, 04, 09, R352 to R355). Arrays are numbered 17 × tile +
array. -/
structure Tile where
  winTile : BitVec 13 := 0
  winArray : BitVec 5 := 0
  winGroup : BitVec 4 := 0
  /-- Array state; an unlisted array is as manufactured (Arr.fresh). -/
  arrs : Sparse Arr := []
  /-- Cell levels of the arrays, L+ in [2:0] and L− in [5:3], key (1,024 × array + physical row) × 512 + column, rows 0 to 519; unlisted
  (0, 0). Kept; DESIGN CHOICE all level 0 (log 5). -/
  cells : Sparse Byte := []
  /-- Census copy: weights as pairs by logical slot, key ((16 × tile + slot) × 512 + row) × 512 + column (log 16). -/
  census : Sparse Byte := []
  /-- Kind of each loaded slot: 0 W4s, 1 W8s high, 2 W8s low; key 16 × tile + slot; unlisted: no slice. -/
  kinds : Sparse Nat := []
  /-- Prompter store image of the census, key 4096 × tile + offset. -/
  censusPr : Sparse Byte := []
  /-- Output scales of every chain in the census copy, as the script's section holds them (R138). -/
  censusScales : List Byte := []
  /-- Slots with an uncorrectable census codeword (R290), 16 × tile + slot. -/
  censusBad : List Nat := []
  /-- Slots whose refresh and replacement CENSUS_BAD holds: layers (R310). -/
  heldLayers : List Nat := []
  /-- Tiles not cued until their Prompter store is rewritten (R114, R207). -/
  prBad : List Nat := []
  acc : Sparse AccSet := []
  pend : List Contrib := []
  /-- Blocks by apron row, 32 × tile + row. -/
  blocks : Sparse Block := []
  /-- Lanes that an EVAL of a slot served in this frame (R403): 16 × tile + slot, lane. -/
  served : List (Nat × Nat) := []
  /-- Steps of other devices that this device has marked for replay and that have not passed it yet (R128, R130). -/
  marked : List (Nat × Nat × Nat) := []
  /-- Chain outputs of this frame, key 4096 × chain + lane. -/
  outs : Sparse OutLoc := []
  /-- Repeat queues per flock (R124). -/
  queue : Sparse (List RepReq) := []
  /-- Scale table (R115), as the script gives it and LEARN moves it. -/
  qtab : List Nat := []
  learn : Bool := false
  entry : Nat := 0
  left : Nat := 0
  /-- An entry event waits for the boundary: its cause 1 to 4 (R127). -/
  modeReq : Option Nat := none
  /-- FORCE_LEARN (true) or FORCE_SERVICE (false) waits for the boundary, whichever was written later (R130). -/
  hostMode : Option Bool := none
  ups : List LearnUp := []
  updates : Nat := 0
  replays : Nat := 0
  precFlock : BitVec 6 := 0
  precAll : Bool := false
  /-- TILE_PREC_CNT, key 16 × flock + n. -/
  precCnt : Sparse Nat := []
  exact : Exact := {}
  /-- Flagged arrays awaiting confirmation (R355) and the rotation position per flock (R354). -/
  probes : List Probe := []
  rot : Sparse Nat := []
  /-- Windows that end in one slot and share inserted slots (R54): that slot, and the windows in ascending flock order. -/
  ins : Option (Nat × List InsWin) := none
  /-- Rows written in this frame, as they were before the latest write's slot; key 32 × tile + row. -/
  rowOld : Sparse RowOld := []
  /-- AW8 evaluations whose low row is not read yet (R345), in order. -/
  late : List EvalCue := []
  /-- Who uses the apron in this frame (R204): an apron row or 2^19 + a tile with each step that read or used it, and 2^20 + a thread with
  each step its kernels served. -/
  users : List (Nat × Nat × Nat × Nat) := []
  /-- Rows, and tiles as 2^19 + tile, whose codeword was lost in this frame: what uses them is discarded (R204). -/
  lost : List Nat := []
  /-- Tiles and slots of this frame in which the tile drives rows: it evaluates one array in any phase (R17). -/
  driven : List (Nat × Nat) := []
  /-- Steps of other devices that an EVAL served in this frame (R130). -/
  foreign : List (Nat × Nat × Nat) := []
  /-- Steps of other devices that an EVAL served in the frame before this one (R130; log 25). -/
  passing : List (Nat × Nat × Nat) := []
  /-- Frames begun on this device since SYS_RST_N, against which an array's idle count is kept (R87). -/
  frames : Nat := 0
  /-- Frames left of R94 after a flock's latest band change, and the band before it. -/
  bandSince : Sparse (Nat × Nat) := []
  /-- Column faults of a tile so far (R355), key tile: 512 × slot + column. -/
  colFaults : Sparse (List Nat) := []
  hold : Bool := false
  noVprog : Bool := false
  progCnt : Sparse Nat := []
  /-- Tiles counted degraded (R301). -/
  degraded : List Nat := []
  deriving DecidableEq, Repr

/-! ## Weights and the curtain -/

/-- A section entry of a manifest (R283), with whether it has completed a load or is recorded for NEXT. -/
structure SecEnt where
  layer : Nat
  len : Nat
  arrays : Nat
  digest : List Byte
  head : List Byte
  done : Bool := false
  /-- Staging offset at which it was recorded, in bytes. -/
  off : Nat := 0
  deriving DecidableEq, Repr, Inhabited

/-- A verified manifest (R283). -/
structure Manifest where
  version : Nat
  digest : List Byte
  secs : List SecEnt
  deriving DecidableEq, Repr, Inhabited

/-- The running weight command (R311): a section of the CURRENT (false) or NEXT manifest, its staging offset, PROGRAM. -/
structure WtJob where
  next : Bool
  index : Nat
  off : Nat
  program : Bool
  /-- The section has passed its check and is being written (R286, R288). -/
  begun : Bool
  deriving DecidableEq, Repr, Inhabited

/-- Weight loads, curtain and head counts (R281 to R312). -/
structure Wts where
  manOff : BitVec 22 := 0
  target : Bool := false
  mode : Bool := false
  secOff : BitVec 22 := 0
  index : BitVec 12 := 0
  job : Option WtJob := none
  /-- Sections the device itself processes: NEXT under the curtain, or promoted (R289, R304). -/
  own : List Nat := []
  /-- Those of them that have passed their check and are being written. -/
  ownBegun : List Nat := []
  /-- Layers whose arrays the curtain refreshes in place and that are digested after it (R302, R309). -/
  toCount : List Nat := []
  done : Bool := false
  err : Bool := false
  cause : Nat := 0
  cur : Option Manifest := none
  next : Option Manifest := none
  mismatch : Bool := false
  /-- Weight epoch and the digest last completed (R289). Kept; DESIGN CHOICE none programmed (log 5). -/
  epoch : Nat := 0
  lastDigest : List Byte := []
  phase : Nat := 0
  failX : Nat := 0
  failY : Nat := 0
  failed : Bool := false
  rewriteSent : Bool := false
  loweredAt : Nat := 0
  timeUs : Nat := 0
  /-- CURTAIN_READY held from children: link, failure, coordinates. -/
  ready : List (Nat × Bool × Nat × Nat) := []
  readySent : Bool := false
  raiseAt : Option Nat := none
  -- head counts
  hcSel : BitVec 10 := 0
  hcBusy : Option Nat := none
  hcNext : Option Nat := none
  hcLast : Option Nat := none
  /-- Tile.frames when the latest layer in turn was started (R309). -/
  hcAt : Nat := 0
  hcDone : Bool := false
  hcMismatch : Bool := false
  hcCensusBad : Bool := false
  hcLayer : Nat := 0
  hcDigest : List Byte := []
  hcExpect : List Byte := []
  hcFound : Nat := 0
  deriving DecidableEq, Repr

/-! ## KV -/

/-- A swap in progress on its entry device (R269, R270). -/
structure Swap where
  session : Nat
  out : Bool
  /-- Started by a host command. -/
  host : Bool
  /-- Devices whose reply is awaited, 16 × y + x, and whether one failed. -/
  wait : List Nat
  failed : Bool := false
  deriving DecidableEq, Repr, Inhabited

/-- A host KV command (R280): 0 PARK, 1 WAKE, 2 FORK, with its session, target and length. -/
structure KvJob where
  op : Nat
  session : Nat
  dst : Nat := 0
  len : Nat := 0
  wait : List Nat := []
  failed : Option Nat := none
  deriving DecidableEq, Repr, Inhabited

/-- Mirror writes not yet confirmed (R275): the positions of a session and layer written one after another, from `lo` to below
`upTo`. -/
structure MirrorPend where
  session : Nat
  layer : Nat
  lo : Nat
  upTo : Nat
  deriving DecidableEq, Repr, Inhabited

/-- KV pages and the green room (chapter 08). Page headers, tables and session KV words are bytes of HBM. -/
structure Kv where
  low : BitVec 21 := 0x800
  high : BitVec 21 := 0x1000
  leadRes : BitVec 21 := 0x400
  op : BitVec 2 := 0
  session : BitVec 20 := 0
  dst : BitVec 20 := 0
  len : BitVec 24 := 0
  job : Option KvJob := none
  done : Bool := false
  err : Bool := false
  cause : Nat := 0
  selX : BitVec 4 := 0
  selY : BitVec 4 := 0
  cnt : Sparse Nat := []
  /-- FREE_d of each KV-owning device, 16 × y + x; unlisted: the share's size (R255). -/
  free : Sparse Nat := []
  /-- Reference counts of the pages held here; unlisted 0 (R263). -/
  refs : Sparse Nat := []
  /-- Pages released and not yet zeroed, and pages withdrawn (R263, R278, R212). -/
  zeroing : List Nat := []
  withdrawn : List Nat := []
  swaps : List Swap := []
  /-- RESET or emptying sessions whose RELEASED replies are awaited. -/
  releases : Sparse (List Nat) := []
  /-- Sessions whose swap-out was abandoned: the frame (R267). -/
  abandoned : Sparse Nat := []
  /-- Commands sent in this frame per KV-owning device (R254). -/
  sent : Sparse Nat := []
  /-- Swap-ins waiting for room (R270): session, and whether a host command asked. -/
  wantIn : List (Nat × Bool) := []
  mirrors : List MirrorPend := []
  /-- Sessions whose mirror has stopped on this device until a swap-out has written every page (R274). -/
  mirrorOff : List Nat := []
  /-- The entry device's view of confirmed mirror positions, key 256 × session + device. -/
  mirrored : Sparse Nat := []
  /-- Completions waiting for mirror confirmation (R275). -/
  waitMirror : List Nat := []
  /-- Pages claimed on each device since the scan of this frame began (R255). -/
  claims : Sparse Nat := []
  /-- Positions whose blocks a session holds, as its entry device claimed them (R261), and N of a fork it was the target
  of (R264). -/
  reach : Sparse Nat := []
  shared : Sparse Nat := []
  /-- Pages that committed swap-outs free on a device and no reply counts yet (R266; log 95): device, frame of the COMMIT, pages. -/
  coming : List (Nat × Nat × Nat) := []
  /-- Messages that wait for the command lane: destination 16 × y + x, code, message (R254). -/
  lane : List (Nat × Byte × KvMsg) := []
  /-- Swaps running on this KV-owning device, and whether each is a swap-out: the command of each. -/
  own : List (Bool × KvMsg) := []
  /-- A host command waits for the scan. -/
  jobNew : Bool := false
  tag : Nat := 0
  deriving DecidableEq, Repr

/-! ## The device and the machine -/

/-- One device. -/
structure Dev where
  /-- Model clock in ns (log 3). The model's own; DESIGN CHOICE 0. -/
  now : Nat := 0
  /-- Free values used so far (log 9). The model's own; DESIGN CHOICE 0. -/
  freeCtr : Nat := 0
  sys : Sys := {}
  err : Err := {}
  mem : Mem := {}
  host : HostIf := {}
  thm : Thm := {}
  hkc : Hkc := {}
  sec : Sec := {}
  dbg : Dbg := {}
  call : Call := {}
  frm : Frm := {}
  mesh : Mesh := {}
  scr : Scr := {}
  eng : Eng := {}
  tile : Tile := {}
  wts : Wts := {}
  kv : Kv := {}
  /-- Everything sent so far, oldest first. -/
  out : List Output := []
  deriving DecidableEq, Repr

/-- The machine: the device and the commands that wait, first in, first out. -/
structure State where
  pending : List Instr
  dev : Dev
  deriving DecidableEq, Repr

/-- The machine right after reset: at the moment SYS_RST_N, with power and clocks good, is about to be released
(R11, R449; log 4), nothing waiting. -/
def State.reset : State := { pending := [], dev := {} }

end Sys2Proof.Machine
end

