-- ==== Sys2Proof/Machine/Ops.lean ====
section
/-! DEFINITION. The operations every family shares: one setter per block, the model clock, outputs, the MSI-X vectors
and device events (R392, R393), the device state with its switches and ALERT_N (R14, R376, R486), and a command's
outcome. -/
namespace Sys2Proof.Machine

/-! ## One setter per block -/

def Dev.modSys (d : Dev) (f : Sys → Sys) : Dev := { d with sys := f d.sys }
def Dev.modErr (d : Dev) (f : Err → Err) : Dev := { d with err := f d.err }
def Dev.modMem (d : Dev) (f : Mem → Mem) : Dev := { d with mem := f d.mem }
def Dev.modHost (d : Dev) (f : HostIf → HostIf) : Dev := { d with host := f d.host }
def Dev.modThm (d : Dev) (f : Thm → Thm) : Dev := { d with thm := f d.thm }
def Dev.modHkc (d : Dev) (f : Hkc → Hkc) : Dev := { d with hkc := f d.hkc }
def Dev.modSec (d : Dev) (f : Sec → Sec) : Dev := { d with sec := f d.sec }
def Dev.modDbg (d : Dev) (f : Dbg → Dbg) : Dev := { d with dbg := f d.dbg }
def Dev.modCall (d : Dev) (f : Call → Call) : Dev := { d with call := f d.call }
def Dev.modFrm (d : Dev) (f : Frm → Frm) : Dev := { d with frm := f d.frm }
def Dev.modMesh (d : Dev) (f : Mesh → Mesh) : Dev := { d with mesh := f d.mesh }
def Dev.modScr (d : Dev) (f : Scr → Scr) : Dev := { d with scr := f d.scr }
def Dev.modEng (d : Dev) (f : Eng → Eng) : Dev := { d with eng := f d.eng }
def Dev.modTile (d : Dev) (f : Tile → Tile) : Dev := { d with tile := f d.tile }
def Dev.modWts (d : Dev) (f : Wts → Wts) : Dev := { d with wts := f d.wts }
def Dev.modKv (d : Dev) (f : Kv → Kv) : Dev := { d with kv := f d.kv }

/-- Send something. -/
def Dev.emit (d : Dev) (o : Output) : Dev := { d with out := d.out ++ [o] }

/-- The model clock never runs back (log 3). -/
def Dev.at_ (d : Dev) (t : Nat) : Dev := { d with now := max d.now t }

/-- A free value was used (log 9). -/
def Dev.useFree (d : Dev) (k : Nat) : Dev := { d with freeCtr := d.freeCtr + k }

/-- A command's effect on the device leaves the queue as it is. -/
def State.onDev (s : State) (f : Dev → Dev) : Host.Outcome State Fault Refusal := .next { s with dev := f s.dev }

/-! ## Vectors and device events -/

/-- Send a vector's message (R392). -/
def Dev.sendMsix (d : Dev) (v : Nat) : Dev :=
  let e := sgetD d.host.msix v {}
  (d.modHost fun h => { h with msixPend := setDel h.msixPend v, dma := smod h.dma 1 0 bump }).emit (.msix e.addr e.data)

/-- Messages can go out: the link is up, MSI-X is enabled, and the mule, the only bus master (R390), may write (R391, R392). -/
def HostIf.msixSends (h : HostIf) : Bool := h.up && h.bme && h.msixEnable

/-- A vector fires: its message goes out, or its pending bit is set while it is masked or no message can go out (R391, R392,
R395). -/
def Dev.fireVector (d : Dev) (v : Nat) : Dev :=
  if d.host.msixSends && !(sgetD d.host.msix v {}).mask then d.sendMsix v
  else d.modHost fun h => { h with msixPend := setIns h.msixPend v }

/-- Bits of HOST_EVT_STATUS (R398). -/
inductive Evt where
  | state | error | script | weights | adapter | kvCmd | exact | headCount | curtain | thermal
  deriving DecidableEq, Repr

def Evt.bit : Evt → Nat
  | .state => 0 | .error => 1 | .script => 2 | .weights => 3 | .adapter => 4 | .kvCmd => 5 | .exact => 6
  | .headCount => 7 | .curtain => 8 | .thermal => 9

/-- A device event sets its status bit and fires the vector when it is enabled and armed (R393). -/
def Dev.event (d : Dev) (e : Evt) : Dev :=
  let m : BitVec 10 := BitVec.ofNat 10 (2 ^ e.bit)
  let rose := d.host.evtStatus &&& m == 0
  let d := d.modHost fun h => { h with evtStatus := h.evtStatus ||| m }
  if rose && d.host.evtEn &&& m != 0 && d.host.evtOn && d.host.armed then
    (d.modHost fun h => { h with armed := false }).fireVector d.host.evtVector.toNat
  else d

/-- Clear status bits; the vector is armed again once no set bit is enabled (R393). -/
def Dev.clearEvents (d : Dev) (bits : BitVec 10) : Dev :=
  d.modHost fun h =>
    let st := h.evtStatus &&& ~~~ bits
    { h with evtStatus := st, armed := h.armed || (st &&& h.evtEn == 0) }

/-! ## Device state -/

/-- The code of a device state (R14). -/
def DevState.code : DevState → Nat
  | .off => 0 | .boot => 1 | .darkHouse => 2 | .ready => 3 | .playing => 4 | .curtain => 5 | .parked => 6
  | .frozen => 7 | .struck => 8 | .tripped => 9 | .blackout => 10

/-- Power-good is lost on a rail; the core, array and link rails are part of a trip while TRIPPED (R489). -/
def Dev.powerLost (d : Dev) : Bool := (if d.sys.st = .tripped then d.sys.pg ||| 7 else d.sys.pg) != 0x7F

/-- Held in reset: SYS_RST_N asserted, PRSNT_N deasserted, or power-good lost on a rail (R484, R489). -/
def Dev.inReset (d : Dev) : Bool := d.sys.sysRst || !d.sys.prsnt || d.powerLost

/-- ALERT_N is asserted (R486). -/
def Dev.alert (d : Dev) : Bool :=
  !d.inReset && (d.sys.st == .darkHouse || d.sys.st == .struck || d.sys.st == .tripped || d.sys.st == .blackout ||
    decide (2 ≤ d.err.worst))

/-- The bypass switches are closed (R376). -/
def Dev.switchesClosed (d : Dev) : Bool :=
  d.inReset || d.sys.bypassN || d.sys.st == .off || d.sys.st == .boot || d.sys.st == .darkHouse ||
    d.sys.st == .tripped || d.sys.st == .blackout

/-- After a change: the switches follow R376, and an asserting ALERT_N raises the I3C interrupt (R497). -/
def Dev.settle (before d : Dev) : Dev :=
  d.modSys fun s =>
    { s with switches := d.switchesClosed, ibi := if d.alert && !before.alert then s.ibi + 1 else s.ibi }

/-- Change GEN_STATUS.STATE; a change sets HOST_EVT_STATUS.STATE (R398). -/
def Dev.setSt (d : Dev) (st : DevState) : Dev :=
  if d.sys.st = st then d
  else Dev.settle d ((d.modSys fun s => { s with st := st }).event .state)

/-- The state the device is in when FROZEN is set aside (R469). -/
def Dev.stUnder (d : Dev) : DevState := if d.sys.st = .frozen then d.sys.frozenFrom else d.sys.st

/-- PLAYING or CURTAIN, frozen or not. -/
def Dev.inPlay (d : Dev) : Bool := d.stUnder == .playing || d.stUnder == .curtain

/-- Coordinates in force, or those of MESH_ID before the first discovery. -/
def Dev.coord (d : Dev) : Coord := d.mesh.at_.getD ⟨d.mesh.x, d.mesh.y⟩

/-- The herd identifier in force, or that of MESH_ID before the first discovery. -/
def Dev.herdId (d : Dev) : BitVec 8 := if d.mesh.at_.isSome then d.mesh.herdAt else d.mesh.herd

/-- This device is the bellwether (R30). -/
def Dev.bellwether (d : Dev) : Bool := d.mesh.at_ == some ⟨0, 0⟩

/-- The grade (R12). -/
def gradeCode : Nat := if Config.gradeE then 2 else 1

/-- Template of the open frame (R44). -/
def Dev.template (d : Dev) : Nat :=
  match d.scr.script with
  | some sc => d.frm.frame % (sc.hdr.cycle + 1)
  | none => 0

/-- The core domain is clocked and out of reset. -/
def Dev.coreRuns (d : Dev) : Bool :=
  !d.inReset && !d.sys.coreStopped && d.sys.st != .off && d.sys.st != .tripped && d.sys.st != .blackout

/-- The Stage Manager and what it starts are up: past BOOT and not in DARK_HOUSE. -/
def Dev.up (d : Dev) : Bool := d.coreRuns && d.sys.st != .boot && d.sys.st != .darkHouse

/-- An urgent request aborts a host burst unless it was aborted twice already (R443). -/
def Hkc.abortBurst (h : Hkc) : Hkc := if h.burst.isSome && h.aborts < 2 then { h with aborts := h.aborts + 1 } else h

end Sys2Proof.Machine
end

