-- ==== Sys2Proof/Machine/Memory.lean ====
section
/-! DEFINITION. Device memory: its map (R210, R213), reads and writes of HBM by codeword (R214), the SRAM stores'
keys (R195, R200, R202), their counters (R215), and the fields of session entries, rings and the bitmap that live in
HBM (R217, R225, R227). -/
namespace Sys2Proof.Machine

/-! ## Map -/

/-- End of device memory (R210). -/
def hbmEnd : Nat := 0x30_0000_0000
/-- End of the host window (R213). -/
def windowEnd : Nat := 0x6_0000_0000

/-- Regions of device memory (R213). -/
inductive Region where
  | sessionTable | inputRing | bitmap | reserved | adpStaging | wtStaging | firmware | scriptImage | spill | census
  | adapters | kvPool
  deriving DecidableEq, Repr, Inhabited

def regionOf (a : Nat) : Region :=
  if a < 0x8000_0000 then .sessionTable
  else if a < 0x1_0000_0000 then .inputRing
  else if a < 0x1_0002_0000 then .bitmap
  else if a < 0x1_4000_0000 then .reserved
  else if a < 0x1_C000_0000 then .adpStaging
  else if a < 0x5_C000_0000 then .wtStaging
  else if a < 0x6_0000_0000 then .reserved
  else if a < 0x6_4000_0000 then .firmware
  else if a < 0x6_8000_0000 then .scriptImage
  else if a < 0x7_0000_0000 then .spill
  else if a < 0xC_0000_0000 then .census
  else if a < 0x12_0000_0000 then .adapters
  else .kvPool

def ringArea : Nat := 0x8000_0000
def bitmapBase : Nat := 0x1_0000_0000
def adpStagingBase : Nat := 0x1_4000_0000
def wtStagingBase : Nat := 0x1_C000_0000
def scriptImageBase : Nat := 0x6_4000_0000
def adpSlotBase (n : Nat) : Nat := 0xC_0000_0000 + n * 0x600_0000
def kvPoolBase : Nat := 0x12_0000_0000
/-- Address of KV page p (R213). -/
def kvPage (p : Nat) : Nat := kvPoolBase + p * 65536

/-- The HBM channel of an address: 32 × stack + channel (R210, R215). -/
def hbmChannel (a : Nat) : Nat := 32 * fld a 13 2 + fld a 8 5

/-! ## HBM -/

def Dev.hbmRd (d : Dev) (a n : Nat) : List Byte := rdN d.mem.hbm a n

/-- Codewords that a range touches. -/
def cwRange (a n : Nat) : List Nat := if n = 0 then [] else (List.range ((a + n - 1) / 64 - a / 64 + 1)).map (a / 64 + ·)

/-- A range touches a codeword that holds an uncorrectable error. -/
def Mem.isBad (m : Mem) (a n : Nat) : Bool := (cwRange a n).any fun c => m.bad.contains c

/-- Write the part of `bs` (from address `a`) that lies in codeword `c`. A part smaller than the codeword is merged by
read-modify-write and writes nothing into an uncorrectable codeword; a whole codeword replaces it (R214). -/
def Mem.wrCw (m : Mem) (a : Nat) (bs : List Byte) (c : Nat) : Mem :=
  let lo := max a (64 * c)
  let part := (bs.drop (lo - a)).take (64 * c + 64 - lo)
  if m.bad.contains c then
    if part.length = 64 then { m with hbm := wrN m.hbm lo part, bad := setDel m.bad c } else m
  else { m with hbm := wrN m.hbm lo part }

/-- Write bytes to HBM, codeword by codeword (R214). -/
def Mem.wrHbm (m : Mem) (a : Nat) (bs : List Byte) : Mem := (cwRange a bs.length).foldl (fun m c => m.wrCw a bs c) m

/-- Codewords of a range that a write leaves uncorrectable: those it covers in part only (R214). -/
def Mem.missedBy (m : Mem) (a n : Nat) : List Nat :=
  if m.bad.isEmpty then [] else (cwRange a n).filter fun c => m.bad.contains c && (decide (64 * c < a) || decide (a + n < 64 * c + 64))

/-- A write of the device's own; merges that are dropped are noted, to be handled as reads (R214; log 114). -/
def Dev.hbmWr (d : Dev) (a : Nat) (bs : List Byte) : Dev :=
  d.modMem fun m => { m.wrHbm a bs with missed := (m.missedBy a bs.length).foldl setIns m.missed }

/-- Zero a range of HBM, errors included. -/
def Mem.zeroHbm (m : Mem) (lo hi : Nat) : Mem :=
  { m with hbm := zeroRange m.hbm lo hi, bad := m.bad.filter fun c => 64 * c + 64 ≤ lo || hi ≤ 64 * c }

/-- Zero all SRAM and all HBM (R449, R459). -/
def Mem.zeroAll (m : Mem) : Mem :=
  { m with hbm := [], bad := [], wings := [], localBuf := [], prompter := [], apron := [], tags := [], granule := [],
           writer := [] }

/-! ## SRAM keys -/

/-- Apron byte key: tile, logical row, column. -/
def apronKey (tile row col : Nat) : Nat := (32 * tile + row) * 512 + col
/-- The key of a physical apron row that stands for no logical row. -/
def spareRowKey (tile p : Nat) : Nat := 2 ^ 18 + 34 * tile + p
def localKey (engine off : Nat) : Nat := engine * 2 ^ 20 + off
def prompterKey (tile off : Nat) : Nat := tile * 4096 + off

/-- ERR_MEM_SEL.STORE of a store (R215). -/
def storeCode : Store → Nat
  | .apron => 0 | .rowTag => 1 | .wings => 2 | .localBuf => 3 | .prompter => 4 | .hbm => 5

/-- Spares of one unit of a store (R188). -/
def storeSpares : Store → Nat
  | .apron => 2 | .rowTag => 1 | .wings => 16 | .localBuf => 16 | .prompter => 1 | .hbm => 255

/-- Key of a store's unit (Mem.spares, Mem.cnt). -/
def unitKey (store : Store) (unit : Nat) : Nat := 8192 * storeCode store + unit

/-- Count in ERR_MEM_CNT[n] of a unit (R215). -/
def Mem.count (m : Mem) (store : Store) (unit n : Nat) : Mem :=
  { m with cnt := smod m.cnt (8 * unitKey store unit + n) 0 bump }

/-! ## Session entries (R217 to R220, R259) -/

def sesAddr (s off : Nat) : Nat := 2048 * s + off

/-- A 32-bit word of session s's entry. -/
def Dev.ses (d : Dev) (s off : Nat) : Nat := leNat (d.hbmRd (sesAddr s off) 4)

def Dev.setSes (d : Dev) (s off v : Nat) : Dev := d.hbmWr (sesAddr s off) (leBytes 4 v)

/-- A field of a word of the entry. -/
def Dev.sesF (d : Dev) (s off lo w : Nat) : Nat := fld (d.ses s off) lo w

/-- Replace a field of a number. -/
def putF (v lo w x : Nat) : Nat := v - fld v lo w * 2 ^ lo + x % 2 ^ w * 2 ^ lo

def Dev.setSesF (d : Dev) (s off lo w x : Nat) : Dev := d.setSes s off (putF (d.ses s off) lo w x)

/-- A codeword of the session's entry is lost (R244). -/
def Dev.entryLost (d : Dev) (s : Nat) : Bool := (List.range 32).any fun i => d.mem.bad.contains (sesAddr s 0 / 64 + i)

/-- SSTATE (R220): 0 EMPTY, 1 IDLE, 2 CALLING, 3 PARKED, 4 SWAPPING, 5 FAULTED; FAULTED while a codeword of the entry is lost (R244). -/
def Dev.sstate (d : Dev) (s : Nat) : Nat := if d.entryLost s then 5 else d.sesF s 0x200 0 4
def Dev.setSstate (d : Dev) (s v : Nat) : Dev := d.setSesF s 0x200 0 4 v

/-- KSTATE (R259): 0 NONE, 1 RESIDENT, 2 OUT, 3 WRITTEN, 4 IN, 5 PARKED. -/
def Dev.kstate (d : Dev) (s : Nat) : Nat := d.sesF s 0x500 0 3
def Dev.setKstate (d : Dev) (s v : Nat) : Dev := d.setSesF s 0x500 0 3 v

/-- A host-owned word as taken into HELD when the current call was accepted (R222). -/
def Dev.held (d : Dev) (s off : Nat) : Nat := d.ses s (0x240 + off)

/-- Device-owned codewords of an entry: offsets 0x200 to 0x3FF and 0x500 to 0x7FF (R217, R259). -/
def deviceOwned (off : Nat) : Bool := (0x200 ≤ off && off < 0x400) || 0x500 ≤ off

/-- Sessions with VALID 1 are found among the entries that hold a byte. -/
def Dev.sessions (d : Dev) : List Nat :=
  (d.mem.hbm.filterMap fun c => if c.1 < 0x8000_0000 && c.1 % 2048 == 0 then some (c.1 / 2048) else none).filter
    fun s => d.ses s 0 % 2 == 1

/-- 64-bit LAST_FRAME (R220). -/
def Dev.lastFrame (d : Dev) (s : Nat) : Nat := d.ses s 0x224 + 2 ^ 32 * d.ses s 0x2C0

/-! ## Bitmap and rings -/

/-- Session s's callboard bit (R225). -/
def Dev.calling (d : Dev) (s : Nat) : Bool := bit ((rd1 d.mem.hbm (bitmapBase + s / 8)).toNat) (s % 8)

/-- Clear a session's callboard bit (R226). -/
def Dev.clearCalling (d : Dev) (s : Nat) : Dev :=
  let b := (rd1 d.mem.hbm (bitmapBase + s / 8)).toNat
  if d.calling s then d.hbmWr (bitmapBase + s / 8) [BitVec.ofNat 8 (b - 2 ^ (s % 8))] else d

/-- A host-owned word as a call uses it: from HELD once the call was accepted, otherwise live (R222). -/
def Dev.callWord (d : Dev) (s off : Nat) (accepted : Bool) : Nat := if accepted then d.held s off else d.ses s off

/-- IN_BASE and IN_SIZE: as taken into HELD for a call in progress (R222). -/
def Dev.ringDesc (d : Dev) (s : Nat) : Nat := d.callWord s 0x30 (sget d.call.calls s).isSome

/-- Ring geometry: first byte and size in words (R227). -/
def Dev.ringBase (d : Dev) (s : Nat) : Nat := ringArea + 1024 * fld (d.ringDesc s) 0 21
def Dev.ringWords (d : Dev) (s : Nat) : Nat := 2 ^ fld (d.ringDesc s) 21 5 / 4

/-- Word n of a session's input stream (R227). -/
def Dev.ringWord (d : Dev) (s n : Nat) : Nat := leNat (d.hbmRd (d.ringBase s + 4 * (n % max 1 (d.ringWords s))) 4)

/-- The input ring is empty (R227). -/
def Dev.ringEmpty (d : Dev) (s : Nat) : Bool := d.ses s 0x210 == d.ses s 0x100

/-! ## Lanes -/

/-- The lanes that hold a token of a step, named by entry device and session. -/
def Frm.lanesOf (f : Frm) (ex ey s : Nat) : List Nat :=
  f.lanes.filterMap fun l => if l.2.ex == ex && l.2.ey == ey && l.2.session == s then some l.1 else none

/-- Empty every lane of a step, and what waits to fill lanes at the next frame (R335, R401). -/
def Frm.emptyLanes (f : Frm) (ex ey s : Nat) : Frm :=
  let keep (l : Nat × Tok) : Bool := !(l.2.ex == ex && l.2.ey == ey && l.2.session == s)
  { f with lanes := f.lanes.filter keep, nextLanes := f.nextLanes.filter keep, skipped := (f.lanesOf ex ey s).foldl setDel f.skipped }

/-- A token of a lane, none when the lane is empty (R334). -/
def Dev.lane (d : Dev) (n : Nat) : Option Tok := sget d.frm.lanes n

end Sys2Proof.Machine
end

