-- ==== Sys2Proof/Machine/Errors.lean ====
section
/-! DEFINITION. The error unit: records in stack and ring (R415 to R419), nesting (R413), history (R405 to R408),
containment (R401, R402), drain (R409), fatal handling and BLACKOUT (R412, R414). -/
namespace Sys2Proof.Machine

/-- What a detecting block reports. -/
structure ErrIn where
  code : Nat
  cls : Nat
  kind : Nat := 16
  unit : Nat := 0
  slot : Nat := 0
  cue : Nat := 0
  session : Option (Nat × Nat × Nat) := none
  dcause : Nat := 0
  lanes : Nat := 0
  exposure : Nat := 0
  detail : List Word := []
  verdict : Nat := 0
  /-- The unit has a spare (R408). -/
  spare : Bool := false
  /-- It touches only steps already being discarded (R413). -/
  onlyDiscarding : Bool := false
  deriving DecidableEq, Repr

/-- DETAIL words 0 to 4 of a memory error (R416): store, address, symbols in error, session entry offset or page number. -/
def memDetail (store a syms w : Nat) : List Word :=
  [BitVec.ofNat 32 store, BitVec.ofNat 32 a, BitVec.ofNat 32 (a / 2 ^ 32), BitVec.ofNat 32 syms, BitVec.ofNat 32 w]

/-! ## The record's words (R415) -/

def ErrRec.words (r : ErrRec) : List Nat :=
  [r.seq, r.cls + 4 * b2n r.nested + 8 * r.verdict + 32 * r.action, r.code + 2 ^ 16 * r.kind, r.unit,
   r.frame % 2 ^ 32, r.frame / 2 ^ 32 % 2 ^ 32, r.slot + 2 ^ 16 * r.template + 2 ^ 20 * r.st, r.cue,
   r.x + 16 * r.y + 256 * r.herd + 2 ^ 16 * min r.boots 65535, r.related]
  ++ (match r.session with
      | some (s, c, i) => [s + 2 ^ 31, c, i + 2 ^ 16 * r.dcause]
      | none => [0, 0, 2 ^ 16 * r.dcause])
  ++ [r.lanes, r.exposure, 0] ++ (List.range 14).map (fun n => (r.detail.getD n 0).toNat)
  ++ [r.timeUs % 2 ^ 32, r.timeUs / 2 ^ 32 % 2 ^ 32]

def ErrRec.bytes (r : ErrRec) : List Byte := r.words.flatMap (leBytes 4)

/-! ## Stack and ring -/

/-- Unconsumed ring positions (R418). -/
def Err.live (e : Err) (pos : Nat) : Bool := decide ((pos + 2 ^ 32 - e.head.toNat % 65536) % 65536 < (e.tail - e.head).toNat)

def Err.inRing (e : Err) (seq : Nat) : Bool := e.ring.any fun r => e.live r.1 && r.2.seq == seq
def Err.inStack (e : Err) (seq : Nat) : Bool := e.stack.any fun r => r.2.1.seq == seq

/-- The stack entry with the least SEQ among 0 to 13 that satisfies a test. -/
def Err.oldest (e : Err) (p : ErrRec × Bool → Bool) : Option Nat :=
  (e.stack.foldl (fun (best : Option (Nat × Nat)) r =>
    if r.1 < 14 && p r.2 then
      match best with
      | some (_, s) => if r.2.1.seq < s then some (r.1, r.2.1.seq) else best
      | none => some (r.1, r.2.1.seq)
    else best) none).map Prod.fst

/-- The entry a record takes (R417). -/
def Err.entryFor (e : Err) (fatal : Bool) : Option Nat :=
  let free (l : List Nat) := l.find? fun i => (sget e.stack i).isNone
  let low := List.range 14
  match if fatal then free ([14, 15] ++ low) else free low with
  | some i => some i
  | none =>
    match e.oldest (fun r => r.2) with
    | some i => some i
    | none => e.oldest (fun r => !r.2 && r.1.cls == 0)

def Err.count (e : Err) (n : Nat) : Err := { e with cnt := smod e.cnt n 0 bump }

/-- Place a record in the stack (R417). A displaced record that is not in the ring either is counted as lost. -/
def Err.pushStack (e : Err) (r : ErrRec) : Err :=
  match e.entryFor (r.cls == 3) with
  | none => { e with stackOvf := true }
  | some i =>
    let e' := match sget e.stack i with
      | some (old, consumed) => if consumed || e.inRing old.seq then e else e.count 7
      | none => e
    { e' with stack := sput e'.stack i (r, false) }

/-- Room for a record in a new ring position. -/
def Err.ringRoom (e : Err) : Bool := decide ((e.tail - e.head).toNat < 65536)

/-- The oldest corrected record of the ring: its position and SEQ. -/
def Err.oldestCorrected (e : Err) : Option (Nat × Nat) :=
  e.ring.foldl (fun (best : Option (Nat × Nat)) (p : Nat × ErrRec) =>
    if p.2.cls == 0 then
      match best with
      | some (_, s) => if p.2.seq < s then some (p.1, p.2.seq) else best
      | none => some (p.1, p.2.seq)
    else best) none

/-- The ring takes no record of a class (R418 cases 3 and 4). -/
def Err.ringShut (e : Err) : Bool := !e.ringRoom && e.oldestCorrected.isNone

/-- Copy a record, in the stack or not, into the ring (R418 cases 1 to 4); one that ends in neither is counted. -/
def Err.pushRing (e : Err) (r : ErrRec) : Err :=
  if e.ringRoom then { e with ring := sput e.ring (e.tail.toNat % 65536) r, tail := e.tail + 1 }
  else
    let lost (e : Err) (seq : Nat) : Err := if e.inStack seq then e else e.count 7
    match e.oldestCorrected with
    | some (pos, seq) =>
      let e := lost (e.count 5) seq
      { e with ring := sput e.ring pos r }
    | none =>
      if r.cls = 0 then lost (e.count 5) r.seq
      else
        let e := lost e r.seq
        { e with held := if e.inStack r.seq then e.held ++ [r.seq] else e.held, logFull := true }

/-- The host advanced the head: records it passed are consumed in the stack too, and held records are copied while
there is room (R418). -/
def Err.advance (e : Err) (head : Word) : Err :=
  let passed := (List.range (min 65536 (head - e.head).toNat)).filterMap fun i =>
    (sget e.ring ((e.head.toNat + i) % 65536)).map ErrRec.seq
  let e : Err := { e with head := head, stack := e.stack.map fun p => (p.1, p.2.1, p.2.2 || passed.contains p.2.1.seq) }
  let e := e.held.foldl (fun (e : Err) seq =>
    if e.ringRoom then
      let e : Err := { e with held := e.held.filter fun x => x != seq }
      match e.stack.find? fun p => p.2.1.seq == seq with
      | some p => { e with ring := sput e.ring (e.tail.toNat % 65536) p.2.1, tail := e.tail + 1 }
      | none => e
    else e) e
  { e with logFull := e.logFull && !e.held.isEmpty }

/-! ## Recording -/

/-- µs since the release of SYS_RST_N (R415). -/
def Dev.timeUs (d : Dev) : Nat := (d.now - d.sys.relT) / 1000

/-- Management Ethernet may send: port enabled and up, a destination, the Stage Manager running, level D1 or above,
and a power state that serves it (R379, R466). -/
def Dev.ethMaySend (d : Dev) : Bool :=
  d.mesh.ethEn && d.mesh.ethSpeed != 0 && d.mesh.ethDest.any (fun w => w.2 != 0) && d.sec.smRun && decide (1 ≤ d.sec.level)
    && d.up

/-- A datagram on management Ethernet, when it may be sent (R379). -/
def Dev.ethSend (d : Dev) (bs : List Byte) : Dev := if d.ethMaySend then d.emit (.eth bs) else d

/-- Handling is in progress: a discard whose record is not written, a drain, or fatal handling at this moment (R413). -/
def Dev.inFatal (d : Dev) : Bool := match d.err.fatal with | some (_, t) => t == d.now | none => false
def Dev.inDrain (d : Dev) : Bool := d.err.drain.isSome && !d.err.drained
def Dev.inContain (d : Dev) : Bool := d.call.steps.any fun s => s.discard.isSome

/-- Write a record: SEQ, the fields common to all, stack, ring, counters, WORST, HOST_EVT_STATUS.ERROR and Ethernet
(R400, R415 to R419). -/
def Dev.record (d : Dev) (i : ErrIn) (action : Nat) (nested : Bool) : Dev :=
  let c := d.coord
  let r : ErrRec :=
    { seq := d.err.nextSeq, cls := i.cls, nested := nested, verdict := i.verdict, action := action, code := i.code,
      kind := i.kind, unit := i.unit, frame := d.frm.frame, slot := i.slot, template := d.template,
      st := d.sys.st.code, cue := i.cue, x := c.x.toNat, y := c.y.toNat, herd := d.herdId.toNat, boots := d.err.boots,
      related := if nested then
          match d.err.fatal, d.err.drain with
          | some (s, _), _ => s
          | none, some s => s
          | none, none => d.err.contain
        else 0,
      session := i.session, dcause := i.dcause, lanes := i.lanes, exposure := i.exposure, detail := i.detail,
      timeUs := d.timeUs }
  let e := ((d.err.pushStack r).pushRing r).count i.cls
  let d1 := d.modErr fun _ => { e with nextSeq := e.nextSeq + 1, worst := max e.worst i.cls }
  let d2 := if d.err.ringShut && i.cls != 0 then d1.modCall fun c => { c with hold := true } else d1
  (Dev.settle d (d2.event .error)).ethSend r.bytes

/-! ## Drain and fatal handling -/

/-- An exact-mode job ends in error (R142). -/
def Dev.exactFail (d : Dev) (cause : Nat) : Dev :=
  match d.tile.exact.job with
  | some _ => (d.modTile fun t => { t with exact := { t.exact with job := none, err := true, cause := cause } }).event .exact
  | none => d

/-- A LAYER job's captured step is discarded (R142). -/
def Dev.exactDiscard (d : Dev) (t : Nat × Nat × Nat) : Dev :=
  match d.tile.exact.chains with
  | c :: _ => if d.tile.exact.step && c.tok.ex == t.1 && c.tok.ey == t.2.1 && c.tok.session == t.2.2 then d.exactFail 3 else d
  | [] => d

/-- Discard an own step: its record is written at the next boundary (R401, R238). -/
def Dev.discardStep (d : Dev) (s cause : Nat) : Dev :=
  let hit := d.call.steps.any fun x => x.session == s && x.discard.isNone
  let d := d.modCall fun c =>
    { c with steps := c.steps.map fun x => if x.session == s && x.discard.isNone then { x with discard := some cause } else x }
  let c := d.coord
  let d := (d.modFrm fun f => f.emptyLanes c.x.toNat c.y.toNat s).exactDiscard (c.x.toNat, c.y.toNat, s)
  if hit then d.modErr fun e => e.count 6 else d

/-- Discard every own step and empty every lane; an exact-mode job's captured step, of whatever entry device, is among them (R142). -/
def Dev.discardAll (d : Dev) (cause : Nat) : Dev :=
  let d := d.call.steps.foldl (fun d s => d.discardStep s.session cause) d
  let d := if d.tile.exact.step then d.exactFail 3 else d
  d.modFrm fun f => { f with lanes := [], nextLanes := [], skipped := [], nextSkipped := [] }

/-- No session of this entry device holds KV: none is idle, calling or swapping with KV resident (R409). -/
def Dev.noKvHeld (d : Dev) : Bool :=
  d.scr.script.isNone || d.sessions.all fun s =>
    let st := d.sstate s
    !(st == 1 || st == 2 || st == 4) || (d.ses s 0x204 == 0 && d.sesF s 0x200 4 1 == 0)

/-- History is committed (R405). -/
def Dev.commitHistory (d : Dev) : Dev :=
  d.modErr fun e => { e with commits := bumpW 24 e.commits, histSaved := e.hist, locsSaved := e.locs }

/-- The drain ends: DRAINED, and the struck verdict is committed (R409 order 6). -/
def Dev.finishDrain (d : Dev) : Dev := (d.modErr fun e => { e with drained := true, struck := true }).commitHistory

/-- Enter STRUCK (R409 order 2). -/
def Dev.enterStruck (d : Dev) : Dev :=
  let d := (d.discardAll 4).setSt .struck
  let d := d.modErr fun e => { e with strikePending := false }
  if d.noKvHeld then d.finishDrain else d

/-- A unit-suspect error without spare starts the drain: at the next frame boundary, or at once while frames are not
running (R409). -/
def Dev.beginDrain (d : Dev) (seq : Nat) : Dev :=
  let d := d.modErr fun e => { e with drain := some seq, drained := false }
  if d.frm.running then d.modErr fun e => { e with strikePending := true }
  else if d.sys.st == .ready || d.sys.st == .parked || d.sys.st == .playing || d.sys.st == .curtain then d.enterStruck
  else d

/-- The host link goes down (R396): HOST_LINK_LOSS counts, a DOE exchange is dropped (R394). -/
def Dev.linkLoss (d : Dev) : Dev :=
  d.modHost fun h =>
    { h with up := false, width := 0, speed := 0, doeResp := [], linkLoss := if h.up then bump h.linkLoss else h.linkLoss }

/-- Fatal handling (R412): the record stands already; no further cue is performed (`Dev.linkCues`), those that remain count as complete,
what is under way among them, lanes are emptied, steps discarded with cause 0x04, the
snapshot is written, STATE becomes STRUCK, and the drain proceeds. -/
def Dev.fatalHandling (d : Dev) (seq code : Nat) : Dev :=
  let snap : List Word := [BitVec.ofNat 32 d.sys.st.code, BitVec.ofNat 32 d.frm.frame, BitVec.ofNat 32 (d.frm.frame / 2 ^ 32),
    BitVec.ofNat 32 d.frm.lanes.length]
  let d := d.modErr fun e =>
    { e with fatal := some (seq, d.now), drain := some seq, drained := false, snapshot := snap,
             noSwapOut := e.noSwapOut || code == 0x0F04 || code == 0x0F05 }
  let d := (d.modDbg fun b => { b with frozen := false }).modFrm fun f => { f with outst := [], stall := none }
  let d := d.enterStruck
  if d.err.noSwapOut && !d.err.drained then d.finishDrain else d

/-- BLACKOUT (R414): self-refresh, clocks stopped, switches closed, the level kept for KEPT_READ (R466). -/
def Dev.blackout (d : Dev) : Dev :=
  let d := d.modSys fun s => { s with selfRefresh := 0xF, coreStopped := true }
  let d := d.modDbg fun b => { b with keptLevel := d.sec.level, keptPos := 0, frozen := false }
  let d := d.modFrm fun f => { f with running := false, isOpen := false, tickLock := false, lanes := [] }
  d.linkLoss.setSt .blackout

/-- An error is detected (R399, R413): recorded, merged, or handled. DARK_HOUSE is left only by a start-up (R455): a fatal error there is
recorded (log 63). -/
def Dev.raise (d : Dev) (i : ErrIn) : Dev :=
  if d.sys.st = .blackout then d
  else
    let seq := d.err.nextSeq
    let handling := d.inFatal || d.inDrain || d.inContain
    match i.cls with
    | 0 => d.record i 1 handling
    | 1 =>
      if d.inFatal || (i.onlyDiscarding && handling) then (d.record i 7 true).modErr fun e => e.count 4
      else (d.record i 2 (d.inDrain || d.inContain)).modErr fun e => { e with contain := if d.inContain then e.contain else seq }
    | 2 =>
      if d.inFatal || d.inDrain then (d.record i 7 true).modErr fun e => e.count 4
      else if i.spare then d.record i 3 d.inContain
      else (d.record i 4 d.inContain).beginDrain seq
    | _ =>
      if d.sys.st = .darkHouse then d.record i 0 false
      else if d.inFatal then (d.record i 6 true).blackout
      else (d.record i 5 (d.inDrain || d.inContain)).fatalHandling seq i.code

/-! ## Containment -/

/-- The CAUSE of a discard as the entry device judges it (R401). -/
def Dev.discardCause (d : Dev) (cause : Nat) : Nat :=
  if d.inFatal || d.inDrain || d.err.drain.isSome then 4 else cause

/-- A step, named by entry device and session, is being discarded already (R413). -/
def Dev.discarding (d : Dev) (t : Nat × Nat × Nat) : Bool :=
  let c := d.coord
  d.sys.st == .struck ||
    (t.1 == c.x.toNat && t.2.1 == c.y.toNat && d.call.steps.any fun s => s.session == t.2.2 && s.discard.isSome)

/-- Discard a step on this device: its lanes are emptied; on its entry device its record follows (R401). -/
def Dev.discardTok (d : Dev) (t : Nat × Nat × Nat) (cause : Nat) : Dev :=
  let c := d.coord
  if t.1 == c.x.toNat && t.2.1 == c.y.toNat then d.discardStep t.2.2 (d.discardCause cause)
  else (d.modFrm fun f => f.emptyLanes t.1 t.2.1 t.2.2).exactDiscard t

/-- The step of a token. -/
def Tok.step (t : Tok) : Nat × Nat × Nat := (t.ex, t.ey, t.session)

/-- A contained error that touches steps: recorded, and the steps discarded (R399, R401). -/
def Dev.contain (d : Dev) (i : ErrIn) (touched : List (Nat × Nat × Nat)) (cause : Nat := 1) : Dev :=
  let touched := touched.dedup
  let c := d.coord
  let own := (touched.find? fun t => t.1 == c.x.toNat && t.2.1 == c.y.toNat).bind fun t =>
    (d.call.steps.find? fun s => s.session == t.2.2).map fun s => (s.session, s.callSeq, s.index)
  let lanes := (touched.map fun t => (d.frm.lanesOf t.1 t.2.1 t.2.2).length).sum
  let d' := d.raise { i with cls := 1, session := i.session <|> own, lanes := lanes,
                             dcause := if own.isSome then d.discardCause cause else 0,
                             onlyDiscarding := !touched.isEmpty && touched.all d.discarding }
  touched.foldl (fun d t => d.discardTok t cause) d'

/-! ## History -/

def histKey (kind unit : Nat) : Nat := 2 ^ 18 * kind + unit

/-- The history of a unit after an event (R406): score added, doubled under R407; permanent at a threshold. -/
def Dev.histNext (d : Dev) (kind unit score threshold : Nat) : Hist :=
  let h := sgetD d.err.hist (histKey kind unit) {}
  let add := if h.events > 0 && !h.thisBoot && d.err.hoursUp < 24 then 2 * score else score
  let sc := min 255 (h.score + add)
  { score := sc, events := bumpW 8 h.events, verdict := if h.verdict = 2 || threshold ≤ sc then 2 else 1, hours := 0, thisBoot := true }

/-- A history event of a unit (R406). Answers whether the unit became permanent. -/
def Dev.histEvent (d : Dev) (kind unit score threshold : Nat) : Dev × Bool :=
  let h := d.histNext kind unit score threshold
  let perm := (sgetD d.err.hist (histKey kind unit) {}).verdict != 2 && h.verdict == 2
  let d := d.modErr fun e => { e with hist := sput e.hist (histKey kind unit) h }
  (if perm then d.commitHistory else d, perm)

/-- A permanent verdict at once (R406). -/
def Dev.histPermanent (d : Dev) (kind unit : Nat) : Dev :=
  let d := d.modErr fun e =>
    { e with hist := smod e.hist (histKey kind unit) {} fun h =>
        { h with events := bumpW 8 h.events, verdict := 2, hours := 0, thisBoot := true } }
  d.commitHistory

/-! ## Calibration writes (R21) -/

/-- The record of a calibration write that failed the Box Office's check; the address and both values are free (log 96). -/
def Dev.calError (d : Dev) (cls : Nat) : Dev :=
  (d.raise { code := 0x0701, cls := cls, kind := 12, verdict := if cls = 2 then 2 else (d.histNext 12 0 16 48).verdict,
             detail := [Config.freeWord d.freeCtr, Config.freeWord (d.freeCtr + 1), Config.freeWord (d.freeCtr + 2)] }).useFree 3

/-- A calibration write of the Stage Manager (R21). One that fails the Box Office's check is not applied: it is recorded and scores in the
Stage Manager's history (R406), and at the threshold the Stage Manager, which has no spare (R408), is unit-suspect. Answers whether the
write took effect. -/
def Dev.calWrite (d : Dev) (apply : Dev → Dev) : Dev × Bool :=
  let bad := Config.calCheckFails d.freeCtr
  let d := d.useFree 1
  if !bad then (apply d, true)
  else
    let (d, perm) := (d.calError 0).histEvent 12 0 16 48
    (if perm then d.calError 2 else d, false)

end Sys2Proof.Machine
end

