-- ==== Sys2Proof/Machine/Numeric.lean ====
section
/-! DEFINITION. Number formats and their exact arithmetic (R149 to R154): a value is a sign and a rational magnitude; each
operation computes exactly and rounds once. The special functions are evaluated far beyond FP32 precision and
rounded once (R154, log 14). -/
namespace Sys2Proof.Machine

/-! ## Rounding -/

/-- floor(log2 q) for q > 0. -/
def ilog2 (q : Rat) : Int :=
  let k : Int := (Nat.log2 q.num.natAbs : Int) - Nat.log2 q.den
  if (2 : Rat) ^ k ≤ q then k else k - 1

/-- Round to the nearest integer, ties to even. -/
def rne (q : Rat) : Int :=
  let f := q.floor
  let r := q - f
  if r < 1 / 2 then f else if 1 / 2 < r then f + 1 else if f % 2 = 0 then f else f + 1

/-- Stochastic rounding of a signed value onto the integers by a 16-bit draw r: up when floor(f × 65,536) + r reaches
65,536, f the fraction above the grid point below (R134). -/
def stochRound (q : Rat) (r : Nat) : Int :=
  let f := q.floor
  if 65536 ≤ ((q - f) * 65536).floor + r then f + 1 else f

/-- The same for the magnitude of a value with a sign: the grid point below a negative value has the larger magnitude. -/
def stochMag (neg : Bool) (r : Nat) (q : Rat) : Int := if neg then -stochRound (-q) r else stochRound q r

/-- A binary floating-point format: exponent bits, mantissa bits, bias, largest finite value, infinity and NaN. -/
structure Fmt where
  e : Nat
  m : Nat
  bias : Nat
  max : Rat
  inf : Bool
  nan : Bool

def fmtFp32 : Fmt := ⟨8, 23, 127, (2 - 1 / 2 ^ 23) * 2 ^ 127, true, true⟩
def fmtBf16 : Fmt := ⟨8, 7, 127, (2 - 1 / 2 ^ 7) * 2 ^ 127, true, true⟩
def fmtE5m2 : Fmt := ⟨5, 2, 15, 57344, true, true⟩
def fmtE4m3 : Fmt := ⟨4, 3, 7, 448, false, true⟩
def fmtE2m1 : Fmt := ⟨2, 1, 1, 6, false, false⟩
def fmtE2m3 : Fmt := ⟨2, 3, 1, 15 / 2, false, false⟩
def fmtE3m2 : Fmt := ⟨3, 2, 3, 28, false, false⟩

/-- A decoded value. -/
inductive FpVal where
  | fin (neg : Bool) (mag : Rat)
  | inf (neg : Bool)
  | nan
  deriving DecidableEq, Repr

/-- Decode the bits of a format (R149). -/
def fpDec (f : Fmt) (b : Nat) : FpVal :=
  let s := bit b (f.e + f.m)
  let x := fld b f.m f.e
  let y := fld b 0 f.m
  let top := 2 ^ f.e - 1
  if f.inf && x == top then (if y = 0 then .inf s else .nan)
  else if f.nan && !f.inf && x == top && y == 2 ^ f.m - 1 then .nan
  else if x = 0 then .fin s ((y : Rat) / 2 ^ f.m * (2 : Rat) ^ (1 - (f.bias : Int)))
  else .fin s ((1 + (y : Rat) / 2 ^ f.m) * (2 : Rat) ^ ((x : Int) - f.bias))

/-- Grid step of a format at a magnitude. -/
def fpStep (f : Fmt) (q : Rat) : Rat :=
  let e := if q = 0 then 1 - (f.bias : Int) else max (ilog2 q) (1 - (f.bias : Int))
  (2 : Rat) ^ (e - f.m)

/-- Round a magnitude to the grid, by the rounding of its quotient. -/
def fpRoundBy (f : Fmt) (rnd : Rat → Int) (q : Rat) : Rat :=
  let s := fpStep f q
  (rnd (q / s) : Rat) * s

/-- Encode a magnitude that lies on the grid. -/
def fpEnc (f : Fmt) (neg : Bool) (q : Rat) : Nat :=
  let sg := b2n neg * 2 ^ (f.e + f.m)
  if q = 0 then sg
  else
    let e := max (ilog2 q) (1 - (f.bias : Int))
    let y := (q / (2 : Rat) ^ (e - f.m)).floor.toNat
    if y < 2 ^ f.m then sg + y else sg + (e + f.bias).toNat * 2 ^ f.m + (y - 2 ^ f.m)

/-- Round to nearest even and encode; a magnitude beyond the largest finite saturates to it (R152). -/
def fpSat (f : Fmt) (neg : Bool) (q : Rat) (rnd : Rat → Int := rne) : Nat := fpEnc f neg (min f.max (fpRoundBy f rnd q))

/-! ## FP32 operations on bits (R154); none is an overflow, a NaN or an infinity (R153) -/

abbrev F32 := Nat

/-- Round a signed exact value to FP32; an exact zero takes the sign given. -/
def f32Of (q : Rat) (negZero : Bool := false) : Option F32 :=
  let neg := if q = 0 then negZero else decide (q < 0)
  let r := fpRoundBy fmtFp32 rne |q|
  if fmtFp32.max < r then none else some (fpEnc fmtFp32 neg r)

/-- The value of finite FP32 bits; a NaN or an infinity reads as 0 and is excluded by f32Fin. -/
def f32Val (b : F32) : Rat :=
  match fpDec fmtFp32 b with
  | .fin true q => -q
  | .fin false q => q
  | _ => 0

def f32Fin (b : F32) : Bool := match fpDec fmtFp32 b with | .fin _ _ => true | _ => false
def f32Neg (b : F32) : Bool := bit b 31

/-- An operation on two operands: a NaN or an infinity among them is never computed on (R153). -/
def f32Op (a b : F32) (r : Option F32) : Option F32 := if f32Fin a && f32Fin b then r else none

def f32Add (a b : F32) : Option F32 := f32Op a b (f32Of (f32Val a + f32Val b) (f32Neg a && f32Neg b))
def f32Sub (a b : F32) : Option F32 := f32Op a b (f32Of (f32Val a - f32Val b) (f32Neg a && !f32Neg b))
def f32Mul (a b : F32) : Option F32 := f32Op a b (f32Of (f32Val a * f32Val b) (f32Neg a != f32Neg b))
/-- Division; by zero it is an infinity, which is none. -/
def f32Div (a b : F32) : Option F32 :=
  f32Op a b (if f32Val b = 0 then none else f32Of (f32Val a / f32Val b) (f32Neg a != f32Neg b))
def f32Lt (a b : F32) : Bool := decide (f32Val a < f32Val b)

/-- log2(e) as FP32, 0x3FB8_AA3B (R154). -/
def f32Log2e : F32 := 0x3FB8AA3B
def f32One : F32 := 0x3F800000

/-! ## Fixed-point series, 2^512 to the unit -/

def fxP : Nat := 512
def fxOne : Int := 2 ^ fxP
def fxMul (a b : Int) : Int := a * b / fxOne

/-- Sum of a power series: term k + 1 is term k × x × num k ÷ den k. -/
def fxSeries (x : Int) (num den : Nat → Int) : Nat → Nat → Int → Int
  | 0, _, _ => 0
  | n + 1, k, term => term + fxSeries x num den n (k + 1) (fxMul term x * num k / den k)

/-- exp(x) for |x| ≤ 1. -/
def fxExp (x : Int) : Int := fxSeries x (fun _ => 1) (fun k => k + 1) 120 0 fxOne

/-- atanh(x) for |x| ≤ 1/3. -/
def fxAtanh (x : Int) : Int := fxSeries (fxMul x x) (fun k => 2 * k + 1) (fun k => 2 * k + 3) 170 0 x

/-- arctan(1 ÷ n). -/
def fxAtanInv (n : Int) : Int :=
  let x := fxOne / n
  fxSeries (fxMul x x) (fun k => -(2 * k + 1)) (fun k => 2 * k + 3) 120 0 x

/-- ln 2 and π. -/
def fxLn2 : Int := 2 * fxAtanh (fxOne / 3)
def fxPi : Int := 16 * fxAtanInv 5 - 4 * fxAtanInv 239

def fxSin (x : Int) : Int := fxSeries (fxMul x x) (fun _ => -1) (fun k => (2 * k + 2) * (2 * k + 3)) 80 0 x
def fxCos (x : Int) : Int := fxSeries (fxMul x x) (fun _ => -1) (fun k => (2 * k + 1) * (2 * k + 2)) 80 0 fxOne

/-- Natural logarithm of q > 0, in fixed point. -/
def fxLn (q : Rat) : Int :=
  let k := ilog2 q
  let m := q / (2 : Rat) ^ k
  k * fxLn2 + 2 * fxAtanh (((m - 1) / (m + 1) * fxOne).floor)

def fxRat (x : Int) : Rat := (x : Rat) / fxOne

/-! ## Special functions (R154) -/

def f32Exp2 (a : F32) : Option F32 :=
  let x := f32Val a
  let n := x.floor
  let fr := x - n
  if !f32Fin a || decide (128 ≤ n) then none
  else if n < -160 then some 0
  else if fr = 0 then f32Of ((2 : Rat) ^ n)
  else f32Of (fxRat (fxExp ((fr * fxLn2).floor)) * (2 : Rat) ^ n)

def f32Recip (a : F32) : Option F32 := f32Div f32One a

/-- The root of x > 0 rounded once: 256 bits of it, with a mark below them when it is not exact. -/
def f32Root (x : Rat) : Option F32 :=
  let v := (x * 2 ^ 512).floor.toNat
  let s := Nat.sqrt v
  let exact : Bool := decide ((s : Rat) * s = x * 2 ^ 512)
  f32Of (((s : Rat) + (if exact then 0 else 1 / 2)) / 2 ^ 256)

/-- 1 ÷ sqrt(x). -/
def f32Rsqrt (a : F32) : Option F32 := if !f32Fin a || decide (f32Val a ≤ 0) then none else f32Root (1 / f32Val a)

/-- sqrt(x) as one IEEE operation (R154): ±0 is its own root, and a negative operand gives a NaN. -/
def f32Sqrt (a : F32) : Option F32 :=
  if !f32Fin a then none
  else if f32Val a = 0 then some a
  else if f32Val a < 0 then none
  else f32Root (f32Val a)

/-- Reduce to a quadrant: k and the remainder in (−π/4, π/4]. -/
def fxQuadrant (x : Rat) : Int × Int :=
  let v := (x * fxOne).floor
  let h := fxPi / 2
  let k := (2 * v + h) / (2 * h)
  (k % 4, v - k * h)

def f32Sin (a : F32) : Option F32 :=
  let x := f32Val a
  if !f32Fin a then none
  else if x = 0 then some a
  else
    let (k, r) := fxQuadrant x
    let v := if k = 0 then fxSin r else if k = 1 then fxCos r else if k = 2 then -fxSin r else -fxCos r
    f32Of (fxRat v)

def f32Cos (a : F32) : Option F32 :=
  let x := f32Val a
  if !f32Fin a then none
  else if x = 0 then some f32One
  else
    let (k, r) := fxQuadrant x
    let v := if k = 0 then fxCos r else if k = 1 then -fxSin r else if k = 2 then -fxCos r else fxSin r
    f32Of (fxRat v)

/-! ## Elements of operands and results (R149 to R152) -/

/-- Bits of one element; MX elements are stored apart from their scales. -/
def numFmt : NumFmt → Option Fmt
  | .fp32 => some fmtFp32 | .bf16 => some fmtBf16 | .e4m3 => some fmtE4m3 | .e5m2 => some fmtE5m2
  | .mxfp4 => some fmtE2m1 | .mxfp6e2m3 => some fmtE2m3 | .mxfp6e3m2 => some fmtE3m2 | .int8 => none | .int32 => none

/-- Width of an element in bits. -/
def numBits : NumFmt → Nat
  | .fp32 => 32 | .bf16 => 16 | .e4m3 => 8 | .e5m2 => 8 | .mxfp4 => 4 | .mxfp6e2m3 => 6 | .mxfp6e3m2 => 6 | .int8 => 8
  | .int32 => 32

/-- A format is microscaled. -/
def isMx : NumFmt → Bool
  | .mxfp4 => true | .mxfp6e2m3 => true | .mxfp6e3m2 => true | _ => false

/-- Bytes of n elements: MX blocks of 32 elements are stored packed, each block followed by its scale byte; other formats
are packed little-endian (log 19). -/
def numBytes (f : NumFmt) (n : Nat) : Nat := if isMx f then ceilDiv n 32 * (4 * numBits f + 1) else n * numBits f / 8

/-- Element i of an operand: none for a NaN, an infinity or a scale of 0xFF (R153). -/
def elemAt (f : NumFmt) (bs : List Byte) (i : Nat) : Option Rat :=
  match numFmt f with
  | none => if f = .int8 then some (sext 8 (leAt bs i 1)) else some (sext 32 (leAt bs (4 * i) 4))
  | some g =>
    if isMx f then
      let blk := numBits f * 4 + 1
      let raw := leAt bs (i / 32 * blk) (blk - 1)
      let sc := leAt bs (i / 32 * blk + blk - 1) 1
      if sc = 255 then none
      else match fpDec g (fld raw (i % 32 * numBits f) (numBits f)) with
        | .fin s q => some ((if s then -q else q) * (2 : Rat) ^ ((sc : Int) - 127))
        | _ => none
    else
      let w := numBits f / 8
      match fpDec g (leAt bs (w * i) w) with
      | .fin s q => some (if s then -q else q)
      | _ => none

/-- Element i of an operand as FP32 bits, sign of zero kept; none also where it overflows (R153). -/
def elemF32 (f : NumFmt) (bs : List Byte) (i : Nat) : Option F32 :=
  match numFmt f with
  | some g =>
    if isMx f then (elemAt f bs i).bind fun q => f32Of q
    else
      let w := numBits f / 8
      match fpDec g (leAt bs (w * i) w) with
      | .fin s q => f32Of (if s then -q else q) s
      | _ => none
  | none => (elemAt f bs i).bind fun q => f32Of q

/-- A row of n elements. -/
def rowAt (f : NumFmt) (bs : List Byte) (n : Nat) : Option (List Rat) := (List.range n).mapM (elemAt f bs)
def rowF32 (f : NumFmt) (bs : List Byte) (n : Nat) : Option (List F32) := (List.range n).mapM (elemF32 f bs)

/-- A result before its one rounding: sign and exact magnitude. -/
structure Res where
  neg : Bool
  mag : Rat

/-- An FP32 result. -/
def resF32 (b : F32) : Res := ⟨f32Neg b, |f32Val b|⟩

/-- How element i is rounded: to nearest even, or stochastically by a 16-bit draw (R134, R152). -/
abbrev Rounding := Option (Nat → Nat)

def Rounding.go (r : Rounding) (i : Nat) (neg : Bool) : Rat → Int :=
  match r with
  | none => rne
  | some f => stochMag neg (f i)

/-- An MX block from element k on: its elements' bytes and its scale (R150, R152). -/
def mxBlock (f : NumFmt) (g : Fmt) (vs : List Res) (r : Rounding) (k : Nat) : List Byte :=
  let amax := vs.foldl (fun m v => max m v.mag) 0
  let emax : Int := match f with | .mxfp6e3m2 => 4 | _ => 2
  if amax = 0 then List.replicate (numBits f * 4 + 1) 0
  else
    let sc := clampI 0 254 (ilog2 amax - emax + 127)
    let one (i : Nat) (v : Res) : Nat := fpSat g v.neg (v.mag / (2 : Rat) ^ (sc - 127)) (r.go (k + i) v.neg)
    let packed := (vs.zipIdx.map fun v => one v.2 v.1 * 2 ^ (v.2 * numBits f)).sum
    leBytes (numBits f * 4) packed ++ [BitVec.ofNat 8 sc.toNat]

/-- Encode a row of results in a format, rounding each once (R152). -/
def encodeRow (f : NumFmt) (vs : List Res) (r : Rounding := none) : List Byte :=
  match numFmt f with
  | none =>
    let int (v : Res) : Int := if v.neg then -rne v.mag else rne v.mag
    if f = .int8 then vs.map fun v => BitVec.ofInt 8 (clampI (-128) 127 (int v))
    else vs.flatMap fun v => leBytes 4 (trunc 32 (clampI (-(2 ^ 31 - 1)) (2 ^ 31 - 1) (int v)))
  | some g =>
    if isMx f then (List.range (ceilDiv vs.length 32)).flatMap fun b => mxBlock f g (slice vs (32 * b) 32) r (32 * b)
    else vs.zipIdx.flatMap fun v => leBytes (numBits f / 8) (fpSat g v.1.neg v.1.mag (r.go v.2 v.1.neg))

/-! ## Sums of products (R151) -/

/-- The multiply array's sum: 64-deep passes summed exactly, each added to the FP32 accumulator with one rounding, in
ascending order. -/
def dotPasses : Nat → List Rat → List Rat → F32 → Option F32
  | 0, _, _, acc => some acc
  | n + 1, xs, ys, acc =>
    if xs.isEmpty then some acc
    else
      match f32Of (f32Val acc + ((xs.take 64).zipWith (· * ·) (ys.take 64)).sum) with
      | some a => dotPasses n (xs.drop 64) (ys.drop 64) a
      | none => none

def dot (xs ys : List Rat) : Option F32 := dotPasses (ceilDiv xs.length 64) xs ys 0

/-- The same for INT8: an INT32 accumulator that saturates, with its sticky overflow flag. -/
def dotInt : Nat → List Rat → List Rat → Int × Bool → Int × Bool
  | 0, _, _, acc => acc
  | n + 1, xs, ys, acc =>
    if xs.isEmpty then acc
    else
      let v := acc.1 + ((xs.take 64).zipWith (· * ·) (ys.take 64)).sum.floor
      dotInt n (xs.drop 64) (ys.drop 64) (clampI (-(2 ^ 31 - 1)) (2 ^ 31 - 1) v, acc.2 || decide (2 ^ 31 - 1 < |v|))

/-- FP32 sum in list order; the first term opens it. -/
def f32Sum : List F32 → Option F32
  | [] => some 0
  | a :: t => t.foldlM f32Add a

end Sys2Proof.Machine
end

