-- ==== Sys2Proof/Machine/Records.lean ====
section
/-! DEFINITION. Calls and their completion records (chapter 07): call records in the input ring (R228, R229), the record
layout (R240), writing a record and its vector (R239), ending a call (R236 to R238, R242), adapter pins (R248, R249). -/
namespace Sys2Proof.Machine

/-- The host link serves the device: up and not in PCIe mode (R382, R396). -/
def Dev.hostUp (d : Dev) : Bool := d.host.up && !d.host.pcie
/-- The mule may transfer: also Bus Master Enable (R391). -/
def Dev.muleUp (d : Dev) : Bool := d.hostUp && d.host.bme

/-- Count in HOST_DMA_CNT[n], CALL_CNT[n], CALL_KV_CNT[n]. -/
def Dev.dmaCount (d : Dev) (n k : Nat) : Dev := d.modHost fun h => { h with dma := smod h.dma n 0 fun c => bumpBy c k }
def Dev.callCount (d : Dev) (n : Nat) : Dev := d.modCall fun c => { c with cnt := smod c.cnt n 0 bump }
def Dev.kvCount (d : Dev) (n k : Nat) : Dev := d.modKv fun v => { v with cnt := smod v.cnt n 0 fun c => bumpBy c k }
def Dev.routeCount (d : Dev) (n k : Nat) : Dev := d.modCall fun c => { c with routeCnt := smod c.routeCnt n 0 fun x => bumpBy x k }

/-- The current weight epoch. -/
def Dev.epoch (d : Dev) : Nat := d.wts.epoch

/-! ## Adapter pins (R248, R249) -/

/-- A marked slot without holders becomes FREE (R249). -/
def Call.retireFree (c : Call) (n : Nat) : Call :=
  match sget c.adpSlots n with
  | some s => if s.ready && s.retire && s.refs == 0 then { c with adpSlots := sdel c.adpSlots n } else c
  | none => c

/-- The adapter of a new call: the directory entry is valid, its slot READY without a mark, and of the tenant (R248). -/
def Dev.adapterFor (d : Dev) (id tenant : Nat) : Option Nat :=
  match sget d.call.adpDir id with
  | some (n, true) =>
    match sget d.call.adpSlots n with
    | some s => if s.ready && !s.retire && s.tenant == tenant then some n else none
    | none => none
  | _ => none

/-- Pin a slot for a session's call (R248). -/
def Dev.pinAdapter (d : Dev) (s n : Nat) : Dev :=
  let d := d.modCall fun c => { c with adpSlots := smod c.adpSlots n {} fun x => { x with refs := x.refs + 1 } }
  (d.setSesF s 0x220 16 8 n).setSesF s 0x220 24 1 1

/-- Release a session's pin (R248). -/
def Dev.unpinAdapter (d : Dev) (s : Nat) : Dev :=
  if d.sesF s 0x220 24 1 = 0 then d
  else
    let n := d.sesF s 0x220 16 8
    let d := d.modCall fun c =>
      ({ c with adpSlots := smod c.adpSlots n {} fun x => { x with refs := x.refs - 1 } } : Call).retireFree n
    d.setSesF s 0x220 24 1 0

/-! ## Call records (R228, R229) -/

/-- The header of a call record at a session's IN_HEAD. -/
structure CallRec where
  w0 : Nat
  seq : Nat
  w2 : Nat
  w3 : Nat
  w4 : Nat
  zero : Bool
  deriving DecidableEq, Repr

def Dev.callRec (d : Dev) (s : Nat) : CallRec :=
  let h := d.ses s 0x210
  let w (n : Nat) : Nat := d.ringWord s (h + n)
  ⟨w 0, w 1, w 2, w 3, w 4, w 5 == 0 && w 6 == 0 && w 7 == 0⟩

def CallRec.reset (r : CallRec) : Bool := bit r.w0 16
def CallRec.nIn (r : CallRec) : Nat := fld r.w2 0 24
def CallRec.start (r : CallRec) : Nat := fld r.w3 0 24
def CallRec.maxNew (r : CallRec) : Nat := fld r.w4 0 24
/-- Words of the whole record: header and token words, padded to a multiple of 8 (R228). -/
def CallRec.words (r : CallRec) : Nat := 8 + ceilDiv r.nIn 8 * 8
/-- MAGIC and reserved bits (R229 check 1). -/
def CallRec.formed (r : CallRec) : Bool :=
  fld r.w0 0 16 == 0xCA11 && fld r.w0 17 15 == 0 && fld r.w2 24 8 == 0 && fld r.w3 24 8 == 0 && fld r.w4 24 8 == 0 && r.zero

/-- Words waiting in the ring (R227). -/
def Dev.ringFill (d : Dev) (s : Nat) : Nat := (d.ses s 0x100 + 2 ^ 32 - d.ses s 0x210) % 2 ^ 32

/-- The ring is well formed (R227). -/
def Dev.ringOk (d : Dev) (s : Nat) : Bool :=
  let n := d.sesF s 0x30 21 5
  let base := 1024 * d.sesF s 0x30 0 21
  decide (10 ≤ n) && decide (n ≤ 24) && base % 2 ^ n == 0 && decide (base + 2 ^ n ≤ 0x8000_0000)

/-- Token word n of the record at IN_HEAD, padding included. -/
def Dev.callToken (d : Dev) (s n : Nat) : Nat := d.ringWord s (d.ses s 0x210 + 8 + n)

/-- TEMP, TOP_K and TOP_P are valid (R219, R229 check 4). -/
def samplingOk (temp topK topP : Nat) : Bool :=
  f32Fin temp && decide (0 ≤ f32Val temp) && decide (topK ≤ 1024) && f32Fin topP && decide (0 < f32Val topP) && decide (f32Val topP ≤ 1)

/-- Where IN_HEAD goes when a call ends without its step's completion (R229, R238, R244). -/
inductive HeadMove where
  | stay | past | tail
  deriving DecidableEq, Repr

/-- Status codes (R241). -/
inductive Status where
  | ok | cancelled | discarded | staleContext | badInput | contextLimit | noAdapter | draining | sessionFault | greenRoom
  deriving DecidableEq, Repr

def Status.code : Status → Nat
  | .ok => 0 | .cancelled => 1 | .discarded => 2 | .staleContext => 3 | .badInput => 4 | .contextLimit => 5
  | .noAdapter => 6 | .draining => 7 | .sessionFault => 8 | .greenRoom => 9

/-- The checks of R229 in order: the first that fails, with what IN_HEAD does. -/
def Dev.checkCall (d : Dev) (s vocab : Nat) : Option (Status × HeadMove) :=
  let r := d.callRec s
  let pos := d.sesF s 0x204 0 24
  let pend := d.sesF s 0x200 4 1
  let toks := (List.range (r.words - 8)).map (d.callToken s)
  if !d.ringOk s then some (.badInput, .tail)
  else if !r.formed then some (.badInput, .tail)
  else if d.ringFill s < r.words then some (.badInput, .tail)
  else if r.seq != (d.ses s 0x218 + 1) % 2 ^ 32 then some (.badInput, .past)
  else if (toks.take r.nIn).any (fun t => decide (vocab ≤ t % 2 ^ 18) || fld t 18 14 != 0) || (toks.drop r.nIn).any (fun t => t != 0) ||
      !samplingOk (d.ses s 0x10) (d.sesF s 0x14 0 11) (d.ses s 0x18) then some (.badInput, .past)
  else if !(r.start == pos + pend || (r.reset && r.start == 0)) then some (.badInput, .past)
  else if r.nIn + (if r.reset then 0 else pend) < 1 || r.nIn + r.maxNew < 1 then some (.badInput, .past)
  else if d.sesF s 0x1C 0 24 < r.start + r.nIn + r.maxNew then some (.contextLimit, .past)
  else none

/-! ## Completion records (R239, R240) -/

/-- What a record says. -/
structure RecIn where
  status : Status := .ok
  fin : Nat := 4
  tokens : List Nat := []
  prec : Nat := 0
  delayed : Bool := false
  seq : Nat := 0
  step : Nat := 0
  skips : Nat := 0
  pos : Nat := 0
  kEff : Nat := 0
  accepted : Nat := 0
  frame : Nat := 0
  epoch : Nat := 0
  cause : Nat := 0
  frames : Nat := 0

/-- The 64 bytes of a record; PHASE is 1 on the ring's first pass and alternates (R240). -/
def RecIn.bytes (r : RecIn) (phase : Nat) (adp : Option (Nat × Nat)) : List Byte :=
  let words : List Nat :=
    [r.status.code + 256 * r.fin + 2 ^ 12 * r.tokens.length + 2 ^ 16 * r.prec + 2 ^ 24 * phase + 2 ^ 25 * b2n r.delayed,
     r.seq, r.step % 65536 + 2 ^ 16 * min r.skips 65535, r.pos + 2 ^ 24 * r.kEff + 2 ^ 27 * r.accepted, r.frame % 2 ^ 32,
     r.epoch + 2 ^ 16 * r.cause + 2 ^ 24 * (match adp with | some a => a.1 | none => 0),
     (match adp with | some a => a.2 % 65536 | none => 0) + 2 ^ 16 * min r.frames 65535, 0]
  (words ++ (List.range 8).map fun i => r.tokens.getD i 0xFFFFFFFF).flatMap (leBytes 4)

/-- The pinned adapter slot and its version. -/
def Dev.pinned (d : Dev) (s : Nat) : Option (Nat × Nat) :=
  if d.sesF s 0x220 24 1 = 1 then
    let n := d.sesF s 0x220 16 8
    some (n, (match sget d.call.adpSlots n with | some a => a.version.toNat | none => 0))
  else none

/-- The mule writes a record and raises its vector; nothing is written while the host link is down (R239, R396). -/
def Dev.writeRecord (d : Dev) (s : Nat) (accepted : Bool) (r : RecIn) : Dev :=
  if !d.muleUp then d.dmaCount 5 1
  else
    let n := fld (d.callWord s 0x40 accepted) 0 5
    let base := d.callWord s 0x38 accepted + 2 ^ 32 * d.callWord s 0x3C accepted
    let tail := d.ses s 0x214
    let d := d.emit (.hostWrite (base + 64 * (tail % 2 ^ n)) (r.bytes (1 - tail / 2 ^ n % 2) (d.pinned s)) false)
    let d := (d.dmaCount 0 1).setSes s 0x214 ((tail + 1) % 2 ^ 32)
    let d := match r.status with
      | .cancelled => d.callCount 9
      | .discarded => d.callCount 10
      | .staleContext => d.callCount 11
      | .badInput => d.callCount 12
      | .contextLimit => d.callCount 12
      | _ => d
    let mode := fld (d.callWord s 0 accepted) 12 2
    if mode = 0 || (mode = 1 && r.fin != 0) then d.fireVector (fld (d.callWord s 4 accepted) 0 11) else d

/-- The output ring has a free record (R239, R231 check 4). -/
def Dev.outRoom (d : Dev) (s : Nat) (accepted : Bool) : Bool :=
  decide ((d.ses s 0x214 + 2 ^ 32 - d.ses s 0x104) % 2 ^ 32 < 2 ^ fld (d.callWord s 0x40 accepted) 0 5)

/-! ## Chunks and their attention pairs (R183, R184) -/

/-- Prefill chunk size of the script. -/
def Dev.chunkSize (d : Dev) : Nat := match d.scr.script with | some sc => max 1 sc.hdr.chunk | none => 1

/-- Positions of chunk j: first and count. -/
def Step.chunk (x : Step) (size j : Nat) : Nat × Nat :=
  if x.decode then (0, x.tokens.length) else (j * size, min size (x.tokens.length - j * size))

/-- Visible keys of the queries at positions a to b − 1 under a window, 0 for none (R158). -/
def pairsOf (w a b : Nat) : Nat :=
  let tri (n : Nat) : Nat := n * (n + 1) / 2
  if w = 0 || b ≤ w then tri b - tri a else if w ≤ a then (b - a) * w else tri w - tri a + (b - w) * w

/-- Pairs of a chunk at the layer that costs most. -/
def Dev.chunkPairs (d : Dev) (x : Step) (j : Nat) : Nat :=
  let (o, n) := x.chunk d.chunkSize j
  match d.scr.script with
  | some sc => (sc.kvLayers.map fun l => pairsOf l.window (x.pos + o) (x.pos + o + n)).foldl max 0
  | none => 0

def pairKey (g : Nat) (decode : Bool) (cls : Nat) : Nat := (2 * g + if decode then 0 else 1) * 4 + cls

/-- The pairs of chunks that will not enter leave the budgets of their frames. -/
def Dev.dropPairs (d : Dev) (x : Step) : Dev :=
  d.modCall fun c =>
    { c with pairs := (List.range x.chunks).foldl (fun p j =>
        if x.entered ≤ j then smod p (pairKey (x.frame + j) x.decode x.cls) 0 (· - d.chunkPairs x j) else p) c.pairs }

/-! ## Ending a call -/

/-- A call with sequence number q is cancelled (R237), or its entry is no longer valid (R221). -/
def Dev.cancelledSeq (d : Dev) (s q : Nat) : Bool :=
  decide ((d.ses s 0x108 + 2 ^ 32 - q) % 2 ^ 32 < 2 ^ 31) || d.ses s 0 % 2 == 0

/-- The call ends: drafts dropped, the pin released, SSTATE IDLE, in SWAP_PREV while the session is PARKED or SWAPPING, the bit examined
again (R236). -/
def Dev.closeCall (d : Dev) (s : Nat) : Dev :=
  let d := (((d.unpinAdapter s).setSes s 0x31C 0).setSesF s 0x200 5 1 0)
  let d := if d.sstate s = 2 then d.setSstate s 1 else if d.sstate s = 3 || d.sstate s = 4 then d.setSesF s 0x580 0 4 1 else d
  let d := (d.call.steps.filter fun x => x.session == s).foldl Dev.dropPairs d
  d.modCall fun c =>
    { c with calls := sdel c.calls s, ready := sdel c.ready s, again := setIns c.again s,
             steps := c.steps.filter fun x => x.session != s, replays := c.replays.filter fun x => x.session != s,
             claims := c.claims.filter fun x => x.session != s }

/-- PREC of a step (R126): CAPTURED when an exact-mode layer job holds its token. -/
def Dev.precOf (d : Dev) (x : Step) : BitVec 8 :=
  if d.tile.exact.step && d.tile.exact.chains.any fun c => c.tok.step == (d.coord.x.toNat, d.coord.y.toNat, x.session) then
    x.prec ||| 0x10 else x.prec

/-- The record fields of a step that ends without tokens (R237, R238, R242); POS is the next position (log 30). -/
def Dev.stepRec (d : Dev) (x : Step) (st : Status) (cause : Nat) : RecIn :=
  { status := st, fin := 4, prec := (d.precOf x).toNat, delayed := x.delayed, seq := x.callSeq, step := x.index, skips := x.skips,
    pos := d.sesF x.session 0x204 0 24 + d.sesF x.session 0x200 4 1, frame := x.frame, epoch := x.epoch,
    kEff := if x.sampled then x.kEff else 0, accepted := if x.sampled then x.released.length - 1 else 0,
    cause := if st = .discarded then cause else 0, frames := d.frm.frame - x.frame + 1 }

/-- IN_HEAD after the call's end; a call that was not accepted advances CALL_SEQ when its record was the next (R229). -/
def Dev.moveHead (d : Dev) (s : Nat) (m : HeadMove) : Dev :=
  match m with
  | .stay => d
  | .tail => d.setSes s 0x210 (d.ses s 0x100)
  | .past =>
    match sget d.call.calls s with
    | some i => if !i.begun then d.setSes s 0x210 ((d.ses s 0x210 + i.words) % 2 ^ 32) else d
    | none =>
      let r := d.callRec s
      let next := (d.ses s 0x218 + 1) % 2 ^ 32
      let d := if d.ringFill s < r.words then d.setSes s 0x210 (d.ses s 0x100)
        else d.setSes s 0x210 ((d.ses s 0x210 + r.words) % 2 ^ 32)
      if r.seq = next then d.setSes s 0x218 next else d

/-- Writes no record when the session fault lost HELD or OUT_TAIL (R239, R244). -/
def Dev.recordLost (d : Dev) (s : Nat) : Bool :=
  [0x200, 0x240, 0x280].any fun o => d.mem.bad.contains ((sesAddr s o) / 64)

/-- The call of a session ends with a record and without its step's completion: the step in flight, if any, is discarded
(R229, R231, R237, R238, R244, R271). -/
def Dev.endCall (d : Dev) (s : Nat) (st : Status) (cause : Nat) (m : HeadMove) : Dev :=
  let step := d.call.steps.find? fun x => x.session == s
  let acc := (sget d.call.calls s).isSome
  let r : RecIn := match step with
    | some x => d.stepRec x st cause
    | none =>
      { status := st, fin := 4, seq := if acc then d.ses s 0x218 else (d.callRec s).seq, step := if acc then d.sesF s 0x220 0 16 else 0,
        pos := d.sesF s 0x204 0 24 + d.sesF s 0x200 4 1, frame := d.frm.frame, epoch := d.sesF s 0x20C 0 16,
        cause := if st = .discarded then cause else 0 }
  let d := if step.isSome then d.discardStep s cause else d
  let d := d.moveHead s m
  let d := if st = .sessionFault && d.recordLost s then d else d.writeRecord s acc r
  d.closeCall s

/-- SSTATE FAULTED and the SESSION_FAULT record that ends a step and its call (R244, R278). -/
def Dev.sessionFault (d : Dev) (s : Nat) : Dev :=
  let d := if (sget d.call.calls s).isSome then d.endCall s .sessionFault 0 .stay else d
  (d.setSstate s 5).modCall fun c => { c with ready := sdel c.ready s }

end Sys2Proof.Machine
end

