-- ==== Sys2Proof/Machine/Adapters.lean ====
section
/-! DEFINITION. Adapter slots, their loads and the directory (R246 to R249, R251). -/
namespace Sys2Proof.Machine

/-- Copy n bytes of HBM from one place to another, apart from it; what the target held is gone. -/
def Mem.copyHbm (m : Mem) (src dst n : Nat) : Mem :=
  let z := m.zeroHbm dst (dst + n)
  let moved := (m.hbm.filter fun c => decide (src ≤ c.1) && decide (c.1 < src + n)).map fun c => (c.1 - src + dst, c.2)
  { z with hbm := moved.foldl (fun h c => wr1 h c.1 c.2) z.hbm }

/-- The image of an adapter load: a field of its header or target table. -/
def Dev.img (d : Dev) (base off n : Nat) : Nat := leNat (d.hbmRd (base + off) n)

/-- One matrix lies wholly after the target table and before LENGTH. -/
def extentOk (tableEnd len off elems : Nat) (fp8 : Bool) : Bool :=
  decide (tableEnd ≤ off) && decide (off + elems * (if fp8 then 1 else 2) ≤ len)

/-- The widths the loaded script gives a target point (R247). -/
def Dev.target (d : Dev) (p : Nat) : Option AdpTarget :=
  match d.scr.script with
  | some sc => sc.targets.find? fun t => t.point == p
  | none => none

/-- Cause of an adapter image at `b` in HBM: the first check of R247 that fails, 0 when all pass. -/
def Dev.imageCause (d : Dev) (b : Nat) : Nat :=
  let g := d.img b
  let r := fld (g 8 4) 0 7
  let n := fld (g 8 4) 8 7
  let len := g 0xC 4
  let ts := (List.range n).map fun i => 0x40 + 32 * i
  let tableEnd := 0x40 + 32 * n
  let point (t : Nat) : Nat := fld (g t 4) 0 6
  if g 0 4 != 0x41445031 || bit (g 8 4) 7 || fld (g 8 4) 15 17 != 0 || g 0x30 16 != 0 then 2
  else if r = 0 || 64 < r || n = 0 || 64 < n then 3
  else if ts.any fun t => (d.target (point t)).isNone || fld (g t 4) 6 2 != 0 || fld (g t 4) 10 22 != 0 || g (t + 10) 2 != 0 ||
      g (t + 20) 12 != 0 then 4
  else if 0x6000000 < len || len < tableEnd || ts.any fun t =>
      match d.target (point t) with
      | some p => !(extentOk tableEnd len (g (t + 12) 4) (r * p.dIn) (bit (g t 4) 8) &&
                    extentOk tableEnd len (g (t + 16) 4) (p.dOut * r) (bit (g t 4) 9))
      | none => true then 5
  else if d.hbmRd (b + 0x10) 32 != shake256 (d.hbmRd (b + 0x40) (len - 0x40)) then 6
  else if d.mem.isBad b len then 7
  else 0

/-- CALL_ADP_LOAD.START (R247): ignored while BUSY; a slot that is not FREE fails with cause 1 (R249). -/
def callAdpLoad (slot tenant : Nat) (d : Dev) : Dev :=
  if !d.up then d
  else
    let d := d.modCall fun c => { c with adpSlot := BitVec.ofNat 8 slot, adpTenant := BitVec.ofNat 4 tenant }
    if d.call.adpJob.isSome then d
    else if (sget d.call.adpSlots slot).isSome then (d.modCall fun c => { c with adpErr := true, adpCause := 1 }).event .adapter
    else d.modCall fun c =>
      { c with adpJob := some (slot, tenant, c.adpSrc.toNat),
               adpSlots := sput c.adpSlots slot { tenant := tenant } }

def execCallAdpLoad (slot : BitVec 8) (tenant : BitVec 4) (s : State) : Host.Outcome State Fault Refusal :=
  s.onDev (callAdpLoad slot.toNat tenant.toNat)

/-- The load ends: READY, or FREE with the cause (R247). -/
def adapterLoadDone (d : Dev) : Dev :=
  match d.call.adpJob with
  | none => d
  | some (slot, tenant, src) =>
    if !d.up then d
    else
      let b := adpStagingBase + 4096 * src
      let cause := d.imageCause b
      let d' := d.modCall fun c => { c with adpJob := none, adpCause := cause }
      if cause != 0 then
        (d'.modCall fun c => { c with adpErr := true, adpSlots := sdel c.adpSlots slot }).event .adapter
      else
        let d' := d'.modMem fun m => m.copyHbm b (adpSlotBase slot) (d.img b 0xC 4)
        (d'.modCall fun c =>
          { c with adpDone := true,
                   adpSlots := sput c.adpSlots slot { ready := true, tenant := tenant, version := BitVec.ofNat 32 (d.img b 4 4) } }).event
          .adapter

def execAdapterLoadDone (s : State) : Host.Outcome State Fault Refusal := s.onDev adapterLoadDone

/-- A directory entry names a slot. -/
def Call.named (c : Call) (slot : Nat) : Bool := c.adpDir.any fun e => e.2 == (slot, true)

/-- A READY slot without a mark takes one; with REFS 0 it becomes FREE at once (R249). -/
def Call.mark (c : Call) (slot : Nat) : Call :=
  match sget c.adpSlots slot with
  | some x => if x.ready then ({ c with adpSlots := sput c.adpSlots slot { x with retire := true } } : Call).retireFree slot else c
  | none => c

/-- CALL_ADP_SLOT[n].RETIRE_REQ (R249). -/
def retireReq (slot : Nat) (d : Dev) : Dev :=
  if !d.up then d else d.modCall fun c => if c.named slot then c else c.mark slot

def execRetireReq (slot : BitVec 8) (s : State) : Host.Outcome State Fault Refusal := s.onDev (retireReq slot.toNat)

/-- CALL_ADP_DIR[n] (R249): a write naming a slot that is not READY, or is marked, is ignored. -/
def callAdpDirWrite (entry slot : Nat) (valid : Bool) (d : Dev) : Dev :=
  if !d.up then d
  else d.modCall fun c =>
    let ok := match sget c.adpSlots slot with | some x => x.ready && !x.retire | none => false
    if valid && !ok then c
    else
      let old := sgetD c.adpDir entry (0, false)
      let c : Call := { c with adpDir := sput c.adpDir entry (slot, valid) }
      if old.2 && !c.named old.1 then c.mark old.1 else c

def execCallAdpDirWrite (entry slot : BitVec 8) (valid : Bool) (s : State) : Host.Outcome State Fault Refusal :=
  s.onDev (callAdpDirWrite entry.toNat slot.toNat valid)

end Sys2Proof.Machine
end

