-- ==== Sys2Proof/Machine/Units.lean ====
section
/-! DEFINITION. Kafel links and the tick tree: bundles (R362), the tree of R30 on working links (R374), control units as
bytes (R360), flits and the replay buffer (R357 to R359). -/
namespace Sys2Proof.Machine

/-! ## Bundles (R362) -/

def Dir.base : Dir → Nat
  | .west => 0 | .east => 12 | .north => 24 | .south => 36

/-- A link that carries traffic. -/
def Link.working (l : Link) : Bool := l.st == 2 || l.st == 3

def Dev.link (d : Dev) (n : Nat) : Link := sgetD d.mesh.links n {}
def Dev.modLink (d : Dev) (n : Nat) (f : Link → Link) : Dev := d.modMesh fun m => { m with links := smod m.links n {} f }

/-- Working links of a bundle, lowest number first. -/
def Dev.working (d : Dev) (b : Dir) : List Nat := ((List.range 12).map (Dir.base b + ·)).filter fun n => (d.link n).working

/-- The lowest-numbered working link of a bundle (R374). -/
def Dev.face (d : Dev) (b : Dir) : Option Nat := (d.working b).head?

/-- Direction of a link. -/
def linkDir (n : Nat) : Dir := if n < 12 then .west else if n < 24 then .east else if n < 36 then .north else .south

/-- DETAIL of a link's record (R416): lane mask before and after, corrected symbols in the latest 2^24. Where no operand brings that
number, it is a free value (log 71). -/
def linkDetail (before after : BitVec 4) (corrected : Word) : List Word := [before.setWidth 32, after.setWidth 32, corrected]

/-- Every bundle with a partner: its lowest working link. -/
def Dev.faces (d : Dev) : List Nat := [Dir.west, .east, .north, .south].filterMap d.face

/-! ## The tick tree (R30) -/

/-- Link toward the parent. -/
def Dev.parent (d : Dev) : Option Nat :=
  let c := d.coord
  if d.mesh.at_.isNone then none
  else if c.y != 0 then d.face .south
  else if c.x != 0 then d.face .west
  else none

/-- Links toward the children. -/
def Dev.children (d : Dev) : List Nat :=
  if d.mesh.at_.isNone then []
  else (if d.coord.y == 0 then [d.face .east, d.face .north] else [d.face .north]).filterMap id

/-- A unit arrived from a tree child, or from the parent. -/
def Dev.fromChild (d : Dev) (link : Nat) : Bool := d.children.any fun c => linkDir c == linkDir link
def Dev.fromParent (d : Dev) (link : Nat) : Bool :=
  match d.parent with
  | some p => linkDir p == linkDir link
  | none => false

/-! ## Control units as bytes (R360) -/

def coordByte (c : Coord) : Nat := c.x.toNat + 16 * c.y.toNat

def CtlUnit.nats : CtlUnit → List Nat
  | .tick u => [0x01, u.num.toNat % 256, u.num.toNat / 256, b2n u.abort + 2 * u.level.toNat, u.late.toNat % 256, u.late.toNat / 256]
  | .done u => [0x02, u.num.toNat % 256, u.num.toNat / 256, u.causes.toNat, u.throttle.toNat, coordByte u.last]
  | .echo n => [0x03, n.toNat % 256, n.toNat / 256]
  | .echoReply n t => [0x04, n.toNat % 256, n.toNat / 256, t.toNat % 256, t.toNat / 256]
  | .ack n => [0x05, n.toNat % 256, n.toNat / 256]
  | .nak n => [0x06, n.toNat % 256, n.toNat / 256]
  | .replay n => [0x07, n.toNat % 256, n.toNat / 256]
  | .spill u => [0x08, u.transfer.toNat % 256, u.transfer.toNat / 256 % 256, u.transfer.toNat / 65536, u.first.toNat % 256,
      u.first.toNat / 256 % 256, u.first.toNat / 65536, u.units.toNat, u.link.toNat]
  | .lane u => [0x09, u.mask.toNat, b2n u.now, u.frame.toNat % 256, u.frame.toNat / 256]
  | .freeze u => [0x0A, coordByte u.origin, u.seq.toNat, u.cause.toNat]
  | .thaw u => [0x0B, coordByte u.origin, u.seq.toNat, u.cause.toNat]
  | .curtain g => [0x10, g.toNat % 256, g.toNat / 256]
  | .drained => [0x11]
  | .rewrite => [0x12]
  | .curtainReady f c => [0x13, b2n f, coordByte c]
  | .raise h => [0x14, h.toNat % 256, h.toNat / 256]
  | .unload g => [0x15, g.toNat % 256, g.toNat / 256]
  | .stop f => [0x16, f.toNat % 256, f.toNat / 256]
  | .park g => [0x17, g.toNat % 256, g.toNat / 256]
  | .wake c => [0x18, coordByte c]
  | .awake => [0x19]
  | .hello u => [0x20, u.herd.toNat, coordByte u.at_, u.index.toNat, u.grade.toNat] ++ (leBytes 8 u.digest.toNat).map BitVec.toNat
  | .discover h p g r => [0x21, h.toNat, p.toNat % 256, p.toNat / 256] ++ (leBytes 8 g.toNat).map BitVec.toNat ++ [r.toNat]
  | .report u => [0x22, coordByte u.at_, u.grade.toNat + 16 * u.state.toNat, u.epoch.toNat % 256, u.epoch.toNat / 256,
      u.path.toNat % 256, u.path.toNat / 256] ++ (leBytes 8 u.scriptId.toNat).map BitVec.toNat ++
      [b2n u.loaded + 2 * b2n u.curOk + 4 * b2n u.hostUp]
  | .herd u => [0x23, u.lat.toNat % 256, u.lat.toNat / 256, u.result.toNat, u.width.toNat + 16 * u.height.toNat,
      u.devices.toNat % 256, u.devices.toNat / 256] ++ (leBytes 8 u.first.toNat).map BitVec.toNat
  | .rediscover u => [0x24, coordByte u.origin, u.seq.toNat, u.cause.toNat]
  | .reserved t => [t.toNat]

/-- The 16 bytes of a unit. -/
def CtlUnit.bytes (u : CtlUnit) : List Byte :=
  let l := u.nats.map (BitVec.ofNat 8)
  l ++ List.replicate (16 - l.length) 0

def coordOf (b : Nat) : Coord := ⟨BitVec.ofNat 4 b, BitVec.ofNat 4 (b / 16)⟩
def floodOf (bs : List Byte) : FloodInfo := ⟨coordOf (leAt bs 1 1), BitVec.ofNat 8 (leAt bs 2 1), BitVec.ofNat 8 (leAt bs 3 1)⟩

/-- The unit that 16 bytes hold. -/
def parseUnit (bs : List Byte) : CtlUnit :=
  let w (o n : Nat) : Nat := leAt bs o n
  let h (o : Nat) : BitVec 16 := BitVec.ofNat 16 (w o 2)
  match w 0 1 with
  | 0x01 => .tick ⟨h 1, bit (w 3 1) 0, BitVec.ofNat 4 (w 3 1 / 2), h 4⟩
  | 0x02 => .done ⟨h 1, BitVec.ofNat 8 (w 3 1), BitVec.ofNat 4 (w 4 1), coordOf (w 5 1)⟩
  | 0x03 => .echo (h 1)
  | 0x04 => .echoReply (h 1) (h 3)
  | 0x05 => .ack (h 1)
  | 0x06 => .nak (h 1)
  | 0x07 => .replay (h 1)
  | 0x08 => .spill ⟨BitVec.ofNat 24 (w 1 3), BitVec.ofNat 24 (w 4 3), BitVec.ofNat 8 (w 7 1), BitVec.ofNat 8 (w 8 1)⟩
  | 0x09 => .lane ⟨BitVec.ofNat 4 (w 1 1), bit (w 2 1) 0, h 3⟩
  | 0x0A => .freeze (floodOf bs)
  | 0x0B => .thaw (floodOf bs)
  | 0x10 => .curtain (h 1)
  | 0x11 => .drained
  | 0x12 => .rewrite
  | 0x13 => .curtainReady (bit (w 1 1) 0) (coordOf (w 2 1))
  | 0x14 => .raise (h 1)
  | 0x15 => .unload (h 1)
  | 0x16 => .stop (h 1)
  | 0x17 => .park (h 1)
  | 0x18 => .wake (coordOf (w 1 1))
  | 0x19 => .awake
  | 0x20 => .hello ⟨BitVec.ofNat 8 (w 1 1), coordOf (w 2 1), BitVec.ofNat 4 (w 3 1), BitVec.ofNat 8 (w 4 1), BitVec.ofNat 64 (w 5 8)⟩
  | 0x21 => .discover (BitVec.ofNat 8 (w 1 1)) (h 2) (BitVec.ofNat 64 (w 4 8)) (BitVec.ofNat 8 (w 12 1))
  | 0x22 => .report ⟨coordOf (w 1 1), BitVec.ofNat 4 (w 2 1), BitVec.ofNat 4 (w 2 1 / 16), h 3, h 5, BitVec.ofNat 64 (w 7 8),
      bit (w 15 1) 0, bit (w 15 1) 1, bit (w 15 1) 2⟩
  | 0x23 => .herd ⟨h 1, BitVec.ofNat 8 (w 3 1), BitVec.ofNat 4 (w 4 1), BitVec.ofNat 4 (w 4 1 / 16), h 5, BitVec.ofNat 64 (w 7 8)⟩
  | 0x24 => .rediscover (floodOf bs)
  | t => .reserved (BitVec.ofNat 8 t)

/-! ## Flits (R357 to R359) -/

/-- Count in MESH_CNT[n] of a link. -/
def Dev.meshCount (d : Dev) (link n : Nat) : Dev := d.modMesh fun m => { m with cnt := smod m.cnt (16 * link + n) 0 bump }

/-- The CRC of a flit body: initial value 0xFFFF for data, 0x5A5A for control (R357). -/
def flitCrc (control : Bool) (body : List Byte) : BitVec 16 := crc16 0x1021 (if control then 0x5A5A else 0xFFFF) body

/-- A control flit with one unit (R358); the model sends one unit to a flit (log 27). -/
def ctlFlit (u : CtlUnit) : Flit :=
  let body := (1 : Byte) :: List.replicate 15 0 ++ u.bytes ++ List.replicate 480 0
  ⟨body, flitCrc true body⟩

/-- Keep a sent flit in the replay buffer under its count (R359). -/
def Link.keep (l : Link) (f : Flit) : Link :=
  { l with replayBuf := (l.replayBuf ++ [(l.txCount, f)]).drop (l.replayBuf.length + 1 - 64),
           txCount := (l.txCount + 1) % 65536 }

/-- Send a control unit on a link. -/
def Dev.sendUnit (d : Dev) (link : Nat) (u : CtlUnit) : Dev :=
  (d.modLink link fun l => l.keep (ctlFlit u)).emit (.unit link u)

/-- Send a unit on every bundle's lowest working link (R375). -/
def Dev.flood (d : Dev) (u : CtlUnit) : Dev := d.faces.foldl (fun d l => d.sendUnit l u) d

/-- Send a unit up the tree, or down it. -/
def Dev.sendUp (d : Dev) (u : CtlUnit) : Dev := match d.parent with | some l => d.sendUnit l u | none => d
def Dev.sendDown (d : Dev) (u : CtlUnit) : Dev := d.children.foldl (fun d l => d.sendUnit l u) d

end Sys2Proof.Machine
end

