-- ==== Sys2Proof/Machine/Freeze.lean ====
section
/-! DEFINITION. Freeze (R468 to R471, R375), the device's own holds and remote holds; and the hazard detector (R329, R330),
whose MODE 3 freezes. -/
namespace Sys2Proof.Machine

/-! ## Holds -/

/-- One of the device's own sources is engaged (R468). -/
def Dbg.ownHeld (b : Dbg) : Bool := b.holdPin || b.holdCmd || b.holdHazard || b.holdJtag
def Dbg.held (b : Dbg) : Bool := b.ownHeld || !b.remote.isEmpty

/-- States in which a hold stops the device (R469); in PARKED it is held for PLAYING (R466), and a fatal error overrides it (R471). -/
def Dev.stoppable (d : Dev) : Bool :=
  d.sys.st == .ready || d.sys.st == .playing || d.sys.st == .curtain || (d.sys.st == .struck && d.err.fatal.isNone) || d.sys.st == .frozen

/-- The device stops or resumes as its holds say (R469, R470): STATE reads FROZEN in place of PLAYING and CURTAIN only. LEARN begins at the
next boundary after a release. -/
def Dev.applyHolds (d : Dev) : Dev :=
  if d.dbg.held then
    let d := if !d.dbg.frozen && d.stoppable then
        (d.modDbg fun b => { b with frozen := true, frozenAt := d.now, frozenCnt := bump b.frozenCnt }).modFrm fun f => { f with tickLock := false }
      else d
    if d.dbg.frozen && (d.sys.st == .playing || d.sys.st == .curtain) then (d.modSys fun s => { s with frozenFrom := d.sys.st }).setSt .frozen else d
  else if d.dbg.frozen then
    let t := d.now - d.dbg.frozenAt
    let d := d.modDbg fun b => { b with frozen := false, frozenUs := (t / 1000) % 2 ^ 32 }
    let d := if d.sys.st == .frozen then d.setSt d.sys.frozenFrom else d
    if d.frm.running then (d.modFrm fun f => { f with start := f.start + t }).modTile fun x => { x with modeReq := some 4 } else d
  else d

/-- FREEZE as this device floods it. -/
def Dev.ownFlood (d : Dev) (cause : Nat) : FloodInfo := ⟨d.coord, d.dbg.ownSeq, BitVec.ofNat 8 cause⟩

/-- Engage a source: the first one floods FREEZE under a new sequence number (R468). -/
def Dev.engage (d : Dev) (cause t : Nat) (set : Dbg → Dbg) : Dev :=
  let first := !d.dbg.ownHeld
  let d := (d.at_ t).modDbg set
  let d := if first then d.modDbg fun b => { b with ownSeq := b.ownSeq + 1, cause := cause, origin := d.coord,
                                                     seq := b.ownSeq + 1, seen := (false, d.coord, b.ownSeq + 1) :: b.seen }
           else d
  (if first then d.flood (.freeze (d.ownFlood cause)) else d).applyHolds

/-- Release sources: the last one floods THAW with the same number (R468). -/
def Dev.release (d : Dev) (t : Nat) (clr : Dbg → Dbg) : Dev :=
  let was := d.dbg.ownHeld
  let d := (d.at_ t).modDbg clr
  let d := if was && !d.dbg.ownHeld then
      (d.modDbg fun b => { b with seen := (true, d.coord, b.ownSeq) :: b.seen }).flood (.thaw (d.ownFlood d.dbg.cause))
    else d
  d.applyHolds

/-- A FREEZE unit: the first of its origin and sequence is recorded and forwarded (R375, R468). -/
def Dev.remoteFreeze (d : Dev) (u : FloodInfo) (t : Nat) : Dev :=
  if d.dbg.seen.contains (false, u.origin, u.seq) then d
  else
    let d := (d.at_ t).modDbg fun b =>
      { b with seen := (false, u.origin, u.seq) :: b.seen, remote := b.remote ++ [(u.origin, u.seq)], cause := u.cause.toNat,
               origin := u.origin, seq := u.seq }
    (d.flood (.freeze u)).applyHolds

/-- A THAW unit drops the matching hold and is forwarded once (R468). -/
def Dev.remoteThaw (d : Dev) (u : FloodInfo) (t : Nat) : Dev :=
  if d.dbg.seen.contains (true, u.origin, u.seq) then d
  else
    let d := (d.at_ t).modDbg fun b =>
      { b with seen := (true, u.origin, u.seq) :: b.seen, remote := b.remote.filter fun r => r != (u.origin, u.seq) }
    (d.flood (.thaw u)).applyHolds

/-- A rediscovery drops every remote hold (R471). -/
def Dev.dropRemote (d : Dev) : Dev := (d.modDbg fun b => { b with remote := [] }).applyHolds

/-- Once the herd forms, a device with a source still engaged floods FREEZE again (R471), under a new sequence number: devices have seen the
old one (DESIGN CHOICE, log 125). -/
def Dev.refreeze (d : Dev) : Dev :=
  if d.dbg.ownHeld then
    let d := d.modDbg fun b => { b with ownSeq := b.ownSeq + 1, seq := b.ownSeq + 1, origin := d.coord, seen := (false, d.coord, b.ownSeq + 1) :: b.seen }
    d.flood (.freeze (d.ownFlood d.dbg.cause))
  else d

/-! ## Hazard detector (R329) -/

/-- Annotations of the loaded DEBUG section. -/
def Dev.notes (d : Dev) : List DebugNote :=
  match d.scr.script with
  | some sc => sc.notes.getD []
  | none => []

/-- The detector runs: a DEBUG section is loaded and MODE is above 0. -/
def Dev.hazActive (d : Dev) : Bool :=
  d.scr.hazMode != 0 && (match d.scr.script with | some sc => sc.notes.isSome | none => false)

/-- Tag written rows, lines or granules with the writing cue and the low 4 bits of the frame counter. Stores: 0 apron,
1 wings, 2 local buffer. -/
def Dev.tagWrite (d : Dev) (store : Nat) (keys : List Nat) (cue : Nat) : Dev :=
  if d.hazActive then
    d.modMem fun m => { m with writer := keys.foldl (fun w k => sput w (store * 2 ^ 32 + k) (cue, d.frm.frame % 16)) m.writer }
  else d

/-- The frame-end zeroing writes every apron row, under its own cue number (R194, R333). -/
def Dev.tagZeroing (d : Dev) : Dev :=
  if d.hazActive then
    d.modMem fun m => { m with writer := m.writer.filter fun w => decide (2 ^ 32 ≤ w.1), apronTag := (0xFFFF00, d.frm.frame % 16) }
  else d

/-- One hazard: counted and recorded, with LOST when a record is displaced; MODE 2 discards, MODE 3 freezes. -/
def Dev.hazard (d : Dev) (store reader slot : Nat) (found : Nat × Nat) (n : DebugNote) (toks : List (Nat × Nat × Nat)) : Dev :=
  let r : HazRec := ⟨found.1, found.2, slot, d.template, store, reader, n.writer, n.distance⟩
  let d := d.modScr fun s => { s with hazCnt := bump s.hazCnt, hazLost := s.hazLost || decide (4 ≤ s.haz.length),
                                      haz := (r :: s.haz).take 4 }
  let words : List Word := [BitVec.ofNat 32 (found.1 + 2 ^ 24 * found.2),
    BitVec.ofNat 32 (slot + 2 ^ 16 * d.template + 2 ^ 20 * store + 2 ^ 23),
    BitVec.ofNat 32 reader, BitVec.ofNat 32 (n.writer + 2 ^ 24 * n.distance)]
  let e : ErrIn := { code := 0x0A01, cls := 0, kind := 16, slot := slot, cue := reader, detail := words }
  match d.scr.hazMode.toNat with
  | 2 => d.contain { e with cls := 1 } toks
  | 3 => (d.raise e).engage 3 d.now fun b => { b with holdHazard := true }
  | _ => d.raise e

/-- An apron row before a write in this same slot: a write is usable from the next slot on (R115, R190, R345). -/
def Dev.rowBefore (d : Dev) (key slot : Nat) : Option RowOld := (sget d.tile.rowOld key).filter fun o => slot ≤ o.slot

/-- The tag that a read in a slot meets: writer and frame bits. -/
def Dev.tagAt (d : Dev) (store key slot : Nat) : Nat × Nat :=
  match if store = 0 then d.rowBefore key slot else none with
  | some o => o.writer
  | none => sgetD d.mem.writer (store * 2 ^ 32 + key) (if store = 0 then d.mem.apronTag else (0, 0))

/-- Check a cue's read against its annotations. -/
def Dev.hazRead (d : Dev) (store : Nat) (keys : List Nat) (reader slot : Nat) (toks : List (Nat × Nat × Nat)) (operand : Nat := 0) : Dev :=
  if d.hazActive then
    (d.notes.filter fun n => n.reader == reader && n.operand == operand).foldl (fun d n =>
      match keys.findSome? fun k =>
          let f := d.tagAt store k slot
          if f.1 == n.writer && (f.2 + n.distance) % 16 == d.frm.frame % 16 then none else some f with
      | some f => d.hazard store reader slot f n toks
      | none => d) d
  else d

end Sys2Proof.Machine
end

