-- ==== Sys2Proof/Machine/Operands.lean ====
section
/-! DEFINITION. The operand forms of cues: when a cue is performed (R335, R39, R49), lanes and their buffers (R334), the
wings crossbar (R198), apron rows and tags (R189 to R192), 512-element vectors, and the random draws (R135, R136). -/
namespace Sys2Proof.Machine

/-! ## Philox-4×32-10 (R135) -/

/-- A four-word counter. -/
structure Phil where
  a : Nat
  b : Nat
  c : Nat
  d : Nat
  deriving DecidableEq, Repr

def philRound (k0 k1 : Nat) (s : Phil) : Phil :=
  let p := 0xD2511F53 * s.a
  let q := 0xCD9E8D57 * s.c
  ⟨(q / 2 ^ 32) ^^^ s.b ^^^ k0, q % 2 ^ 32, (p / 2 ^ 32) ^^^ s.d ^^^ k1, p % 2 ^ 32⟩

def philGo : Nat → Nat → Nat → Phil → Phil
  | 0, _, _, s => s
  | n + 1, k0, k1, s => philGo n ((k0 + 0x9E3779B9) % 2 ^ 32) ((k1 + 0xBB67AE85) % 2 ^ 32) (philRound k0 k1 s)

/-- Ten rounds under a 64-bit seed, low word first. -/
def philox (seed : Nat) (ctr : Phil) : Phil := philGo 10 (seed % 2 ^ 32) (seed / 2 ^ 32 % 2 ^ 32) ctr

/-- The 16-bit draw for element i (R135, R136). -/
def draw16 (seed pos domain index i : Nat) : Nat :=
  let o := philox seed ⟨pos % 2 ^ 32, domain * 2 ^ 24 + index % 2 ^ 24, i / 8, 0⟩
  let w := match i % 8 / 2 with
    | 0 => o.a
    | 1 => o.b
    | 2 => o.c
    | _ => o.d
  if i % 2 = 0 then w % 65536 else w / 65536

/-- The draw of a sampled position (R174). -/
def drawSample (seed pos : Nat) : Nat := (philox seed ⟨pos % 2 ^ 32, 5 * 2 ^ 24, 0, 0⟩).a

/-- The rounding seed of a token's session: HELD on the entry device; elsewhere as the world gives it (log 23). -/
def Dev.seedOf (d : Dev) (t : Tok) : Nat :=
  let c := d.coord
  if t.ex == c.x.toNat && t.ey == c.y.toNat then d.held t.session 8 + 2 ^ 32 * d.held t.session 12
  else Config.remoteSeed t.ex t.ey t.session t.eframe

/-! ## When a cue is performed -/

/-- Cues are performed: a frame is open in PLAYING or CURTAIN, and the device is neither stalled nor stopped (R39, R49,
R412). -/
def Dev.cues (d : Dev) : Bool :=
  d.coreRuns && d.frm.isOpen && d.frm.stall.isNone && (d.sys.st == .playing || d.sys.st == .curtain)

/-- A STRUCK device still performs link and memory cues (R409), but none after a fatal error (R412). Transfers arrive also while it is
stalled. -/
def Dev.receives (d : Dev) : Bool :=
  d.err.fatal.isNone && d.coreRuns && d.frm.isOpen && !d.dbg.frozen && (d.sys.st == .playing || d.sys.st == .curtain || d.sys.st == .struck)

def Dev.linkCues (d : Dev) : Bool := d.receives && d.frm.stall.isNone

/-- Two byte ranges overlap. -/
def overlap (lo hi lo' hi' : Nat) : Bool := decide (lo < hi') && decide (lo' < hi)

/-- The outstanding range that an operand overlaps (R343). -/
def Dev.outstanding (d : Dev) (wings : Bool) (lo n : Nat) : Option Outst :=
  if n = 0 then none else d.frm.outst.find? fun o => o.wings == wings && overlap lo (lo + n) o.lo o.hi

/-- The device stalls on a range (R49). The cue has no other effect now; the world issues it again after STALL_RESUME
(log 24). -/
def Dev.stallOn (d : Dev) (o : Outst) (slot : Nat) : Dev := d.modFrm fun f => { f with stall := some ⟨o, slot⟩ }

/-! ## Lanes and their buffers (R334) -/

/-- Bits [2:0] of a crossbar access are 0 (R195): the word that an address names (DEDUCED, log 115). -/
def wordAddr (a : Nat) : Nat := a / 8 * 8

/-- The lane map of the open frame. -/
def Dev.laneMaps (d : Dev) : List LaneMap :=
  match d.scr.script with
  | some sc => match sc.templates[d.template]? with | some t => t.lanes | none => []
  | none => []

/-- Wings window base of a tenant partition (R334). -/
def Dev.window (d : Dev) (tenant : Nat) : Nat :=
  match d.scr.script with
  | some sc => sgetD sc.wings.window tenant 0
  | none => 0

/-- Wings address of a lane's buffer. -/
def Dev.laneBuf (d : Dev) (n tenant : Nat) : Nat :=
  match d.laneMaps.find? fun r => r.first ≤ n && n < r.first + r.count with
  | some r => d.window tenant + r.offset + 128 * r.stride * (n - r.first)
  | none => d.window tenant

/-! ## Wings (R195 to R198) -/

/-- Partition of a wings address's bank: a tenant, 16 COMMON, 31 unassigned. -/
def Dev.bankOwner (d : Dev) (a : Nat) : Nat := sgetD d.mem.owner (a / 2 ^ 20) 31

/-- Banks that a range touches. -/
def banksOf (a n : Nat) : List Nat := if n = 0 then [] else (List.range ((a + n - 1) / 2 ^ 20 - a / 2 ^ 20 + 1)).map (a / 2 ^ 20 + ·)

/-- The first bank that the crossbar refuses (R198). -/
def Dev.refusedBank (d : Dev) (tenant : Nat) (write : Bool) (a n : Nat) : Option Nat :=
  (banksOf a n).find? fun b =>
    let o := sgetD d.mem.owner b 31
    !(o == tenant || (!write && o == 16))

/-- The step a token stands for; none for padding and for a cue that serves no lane, of segment 0xFFFF (R332, R350). -/
def Tok.steps (t : Tok) : List (Nat × Nat × Nat) := if t.seg = 65535 then [] else [t.step]

/-- A refused access: counted, recorded, the step discarded (R198). -/
def Dev.refuseWings (d : Dev) (bank slot cue : Nat) (t : Tok) : Dev :=
  (d.modMem fun m => m.count .wings bank 4).contain
    { code := 0x0503, cls := 1, kind := 3, unit := bank, slot := slot, cue := cue, detail := [2, BitVec.ofNat 32 (bank * 2 ^ 20)] }
    t.steps

/-- Lines of 128 B that a range touches. -/
def linesOf (a n : Nat) : List Nat := if n = 0 then [] else (List.range ((a + n - 1) / 128 - a / 128 + 1)).map (a / 128 + ·)

/-- Read wings bytes for a token's cue: zeros when refused. -/
def Dev.wingsRd (d : Dev) (t : Tok) (a n slot cue : Nat) (operand : Nat := 0) : Dev × List Byte :=
  match d.refusedBank t.tenant false a n with
  | some b => (d.refuseWings b slot cue t, List.replicate n 0)
  | none => (d.hazRead 1 (linesOf a n) cue slot t.steps operand, rdN d.mem.wings a n)

/-- Write wings bytes for a token's cue: nothing when refused. -/
def Dev.wingsWr (d : Dev) (t : Tok) (a : Nat) (bs : List Byte) (slot cue : Nat) : Dev :=
  match d.refusedBank t.tenant true a bs.length with
  | some b => d.refuseWings b slot cue t
  | none => (d.modMem fun m => { m with wings := wrN m.wings a bs }).tagWrite 1 (linesOf a bs.length) cue

/-! ## Apron rows (R189 to R192) -/

/-- A row's tag as a cue of a slot reads it. -/
def Dev.rowTag (d : Dev) (tile row slot : Nat) : Nat :=
  match d.rowBefore (32 * tile + row) slot with
  | some o => o.tag.toNat
  | none => (sgetD d.mem.tags (32 * tile + row) 0).toNat

/-- A row's bytes as a cue of a slot reads them. -/
def Dev.rowBytes (d : Dev) (key slot : Nat) : List Byte :=
  match d.rowBefore key slot with
  | some o => o.bytes
  | none => rdN d.mem.apron (key * 512) 512

/-- What the requantiser knows of a row as a cue of a slot reads it. -/
def Dev.rowBlock (d : Dev) (key slot : Nat) : Block :=
  match d.rowBefore key slot with
  | some o => o.block.getD default
  | none => sgetD d.tile.blocks key default

def tagExp (t : Nat) : Int := sext 6 t
def tagFmt (t : Nat) : Nat := fld t 6 3
def tagOset (t : Nat) : Nat := fld t 9 3
def mkTag (exp : Int) (fmt oset : Nat) : BitVec 16 := BitVec.ofNat 16 (trunc 6 exp + 64 * fmt + 512 * oset)

/-- A step uses rows, a tile or a thread in this frame; what was lost there takes the step with it (R204). -/
def Dev.useKeys (d : Dev) (keys : List Nat) (step : Nat × Nat × Nat) : Dev :=
  let d := d.modTile fun t => { t with users := keys.foldl (fun u k => if u.contains (k, step) then u else (k, step) :: u) t.users }
  if keys.any d.tile.lost.contains then d.discardTok step 1 else d

/-- Steps that used a row, a tile or a thread in this frame (R204). -/
def Tile.usersOf (t : Tile) (key : Nat) : List (Nat × Nat × Nat) :=
  ((t.users.filter fun u => u.1 == key).map fun u => u.2).dedup

/-- Read whole rows from an apron key on, with the detector's check. -/
def Dev.rowsRd (d : Dev) (t : Tok) (keys : List Nat) (slot cue operand : Nat) : Dev × List Byte :=
  ((d.useKeys keys t.step).hazRead 0 keys cue slot [t.step] operand, keys.flatMap fun k => d.rowBytes k slot)

/-- Read a whole row. -/
def Dev.rowRd (d : Dev) (t : Tok) (tile row slot cue : Nat) (operand : Nat := 0) : Dev × List Byte :=
  d.rowsRd t [32 * tile + row] slot cue operand

/-- The first write to a row in a slot sets aside what the row held. -/
def Dev.keepRow (d : Dev) (key slot : Nat) : Dev :=
  if (d.rowBefore key slot).isSome then d
  else d.modTile fun t =>
    { t with rowOld := sput t.rowOld key ⟨slot, rdN d.mem.apron (key * 512) 512, sgetD d.mem.tags key 0, sget t.blocks key, sgetD d.mem.writer key d.mem.apronTag⟩ }

/-- Write a whole row with its tag, usable from the next slot on; what the requantiser knew of it is gone. -/
def Dev.rowWr (d : Dev) (tile row : Nat) (bs : List Byte) (tag : BitVec 16) (slot cue : Nat) : Dev :=
  let d := (d.keepRow (32 * tile + row) slot).modTile fun t => { t with blocks := sdel t.blocks (32 * tile + row) }
  (d.modMem fun m =>
    { m with apron := wrN m.apron (apronKey tile row 0) bs, tags := sput m.tags (32 * tile + row) tag }).tagWrite 0
      [32 * tile + row] cue

/-- Zero every apron row and tag (R194). -/
def Mem.zeroApron (m : Mem) : Mem := { m with apron := [], tags := [] }

/-! ## 512-element vectors -/

/-- Bytes of a vector in an output format. -/
def vecBytes : OutFmt → Nat
  | .bf16 => 1024 | _ => 512

def outFmt : OutFmt → NumFmt
  | .bf16 => .bf16 | .e4m3 => .e4m3 | .e5m2 => .e5m2

def outFmtF : OutFmt → Fmt
  | .bf16 => fmtBf16 | .e4m3 => fmtE4m3 | .e5m2 => fmtE5m2

/-- Tag FMT values of a vector's rows (R191). -/
def dataTags : OutFmt → List Nat
  | .e4m3 => [4] | .e5m2 => [5] | .bf16 => [6, 7]

/-- Decode a vector's bytes: element i. -/
def vecElem (f : OutFmt) (bs : List Byte) (i : Nat) : FpVal :=
  match f with
  | .bf16 => fpDec fmtBf16 (leAt bs (2 * i) 2)
  | .e4m3 => fpDec fmtE4m3 (leAt bs i 1)
  | .e5m2 => fpDec fmtE5m2 (leAt bs i 1)

def vecElems (f : OutFmt) (bs : List Byte) : List FpVal := (List.range 512).map (vecElem f bs)

/-- Where a vector lies: apron rows of a tile, or a wings address (R336). -/
structure VecLoc where
  apron : Bool
  addr : Nat

/-- Resolve SRC or DST of a tile cue. -/
def Dev.vecLoc (d : Dev) (k : DataKind) (v tile lane tenant : Nat) : VecLoc :=
  match k with
  | .wings => ⟨false, wordAddr v⟩
  | .apron => ⟨true, 32 * tile + v % 32⟩
  | .laneBuf => ⟨false, wordAddr (d.laneBuf lane tenant + v)⟩

/-- Read a vector. -/
def Dev.vecRd (d : Dev) (t : Tok) (l : VecLoc) (f : OutFmt) (slot cue : Nat) : Dev × List Byte :=
  if l.apron then d.rowsRd t ((List.range (vecBytes f / 512)).map (l.addr + ·)) slot cue 0
  else d.wingsRd t l.addr (vecBytes f) slot cue

/-- Write a vector, with the tags of its format on apron rows. -/
def Dev.vecWr (d : Dev) (t : Tok) (l : VecLoc) (f : OutFmt) (bs : List Byte) (slot cue : Nat) : Dev :=
  if l.apron then
    (dataTags f).zipIdx.foldl (fun d (p : Nat × Nat) =>
      d.rowWr (l.addr / 32) (l.addr % 32 + p.2) (slice bs (512 * p.2) 512) (mkTag 0 p.1 0) slot cue) d
  else d.wingsWr t l.addr bs slot cue

/-- A row or vector of a tile is named in a contained error (R192, R104). -/
def Dev.tileError (d : Dev) (code tile pslot slot cue : Nat) (t : Tok) : Dev :=
  d.contain { code := code, cls := 1, kind := 1, unit := tile, slot := slot, cue := cue, detail := [BitVec.ofNat 32 pslot, 0,
    BitVec.ofNat 32 1] } [t.step]

/-- A flag of the step's precision flags (R126): on the entry device in the step; another device's flags travel by no message the spec
gives, and the entry device takes them as free values at the step's completion (log 25). -/
def Dev.precFlag (d : Dev) (t : Tok) (bit : Nat) : Dev :=
  let c := d.coord
  if t.ex == c.x.toNat && t.ey == c.y.toNat then
    d.modCall fun k => { k with steps := k.steps.map fun s =>
      if s.session == t.session then { s with prec := s.prec ||| BitVec.ofNat 8 (2 ^ bit) } else s }
  else d

/-- Count in TILE_PREC_CNT[n] of a tile's flock (R133). -/
def Dev.precCount (d : Dev) (tile n : Nat) : Dev :=
  d.modTile fun t => { t with precCnt := smod t.precCnt (16 * (tile / 128) + n) 0 bump }

end Sys2Proof.Machine
end

