-- ==== Sys2Proof/Machine/Flags.lean ====
section
/-! DEFINITION. Accumulator sets with their overflow flags (R75 to R80), the output stage's rounding (R83), and the
precision rules that turn trouble into repeat requests and flags (R118 to R120, R124, R126, R128). -/
namespace Sys2Proof.Machine

/-! ## Accumulators -/

def accMax : Int := 2 ^ 31 - 1

/-- Arithmetic shift right by k with round half to even; 0 from 32 on (R76). -/
def shrRne (v : Int) (k : Nat) : Int := if 32 ≤ k then 0 else rne ((v : Rat) / 2 ^ k)

/-- Saturating addition (R77): the sum, and whether it saturated. -/
def satAdd (a b : Int) : Int × Bool := (clampI (-accMax) accMax (a + b), accMax < |a + b|)

/-- Add a column list into another with saturation; columns that saturated. -/
def satAddAll (a b : List Int) : List Int × List Nat :=
  let r := (List.range 512).map fun j => satAdd (a.getD j 0) (b.getD j 0)
  (r.map Prod.fst, (r.zipIdx.filterMap fun p => if p.1.2 then some p.2 else none))

/-- Add a contribution to a tile's set (R76 to R78): the first sets the exponent, a later one is aligned. -/
def AccSet.add (s : Option AccSet) (c : Contrib) : AccSet :=
  let merge (o : List Nat) (x : List Nat) : List Nat := (x ++ c.ovf).foldl setIns o
  match s with
  | none =>
    let (v, o) := satAddAll (List.replicate 512 0) c.vals
    ⟨c.chain, c.exp, v, merge [] o⟩
  | some s =>
    if c.exp ≤ s.exp then
      let (v, o) := satAddAll s.vals (c.vals.map fun x => shrRne x (s.exp - c.exp).toNat)
      ⟨s.chain, s.exp, v, merge s.ovf o⟩
    else
      let (v, o) := satAddAll (s.vals.map fun x => shrRne x (c.exp - s.exp).toNat) c.vals
      ⟨s.chain, c.exp, v, merge s.ovf o⟩

/-- Order of contributions: by slot, then array, Prompter, forwarded (R80, R112). -/
def Contrib.key (c : Contrib) : Nat := 4 * c.slot + c.order

/-- Put a contribution in its place. -/
def insContrib (l : List Contrib) (c : Contrib) : List Contrib :=
  match l with
  | [] => [c]
  | x :: t => if c.key < x.key then c :: x :: t else x :: insContrib t c

/-- Add every contribution of a slot before `slot` to its tile's set (R74). -/
def Tile.land (t : Tile) (slot : Nat) : Tile :=
  t.pend.foldl (fun t c =>
    if c.slot < slot then
      { t with acc := sput t.acc c.tile (AccSet.add (sget t.acc c.tile) c), pend := t.pend.drop 1 }
    else t) t

/-- A new contribution. -/
def Dev.contribute (d : Dev) (c : Contrib) : Dev := d.modTile fun t => { t with pend := insContrib t.pend c }

/-! ## Output stage (R83, R348) -/

/-- An exact output value rounded once; the largest finite for an overflowed column; zeros are +0. -/
def outRound (f : Fmt) (y : Rat) (ovf : Bool) (draw : Option Nat) : Nat :=
  if y = 0 then 0
  else
    let neg := decide (y < 0)
    let r := if ovf then fpEnc f neg f.max
      else match draw with
        | some r => fpSat f neg |y| (stochMag neg r)
        | none => fpSat f neg |y|
    if fpDec f r = .fin true 0 then 0 else r

/-- One column: the exact value s × A × 2^(e − 3), rounded. -/
def outColumn (f : Fmt) (s : Rat) (a : Int) (e : Int) (ovf : Bool) (draw : Option Nat) : Nat :=
  outRound f (s * a * (2 : Rat) ^ (e - 3)) ovf draw

/-- The 512 scales of a chain (R337, R83), from the scales of the script or from the census copy of them (R138). -/
def Dev.scalesIn (d : Dev) (scales : Script → List Byte) (chain : Nat) : List Rat :=
  match d.scr.script with
  | some sc =>
    match sc.chains.find? fun c => c.chain == chain with
    | some c => (List.range 512).map fun j =>
        match fpDec fmtBf16 (leAt (scales sc) (c.scales + 2 * j) 2) with
        | .fin true q => -q
        | .fin false q => q
        | _ => 0
    | none => []
  | none => []

def Dev.chainScales (d : Dev) (chain : Nat) : List Rat := d.scalesIn Script.scales chain

/-- A chain output's bytes from its columns. -/
def colBytes (f : OutFmt) (cols : List Nat) : List Byte := cols.flatMap (leBytes (if f = .bf16 then 2 else 1))

/-! ## Scale table (R115) -/

def Dev.qEntry (d : Dev) (p : Nat) : Nat := d.tile.qtab.getD p 0
def qBase (q : Nat) : Int := sext 6 q
def qZeroTh (q : Nat) : Nat := fld q 6 9
def qSatTh (q : Nat) : Nat := fld q 15 9
def qWiden (q : Nat) : Nat := fld q 24 2

/-- A block has format trouble (R118): by zeroed elements, by clamped elements. -/
def Block.zTrouble (b : Block) (q : Nat) : Bool := b.n != 0 && decide (qZeroTh q < b.z)
def Block.sTrouble (b : Block) (q : Nat) : Bool := b.n != 0 && decide (qSatTh q < b.s)

/-! ## Repeat requests (R120, R124) -/

/-- What an evaluation asks for: a range repeat, a format repeat, CLAMPED. -/
structure Asked where
  range : Bool
  format : Bool
  clamped : Bool
  deriving DecidableEq, Repr

/-- The table of R120; `again` is a range repeat, which meets only the rows without format trouble. -/
def askRepeats (n : Nat) (zT sT : Bool) (s : Nat) (fmt : ArrFmt) (clip : Bool) (range : Nat) (again : Bool) : Asked :=
  let trouble := (zT || sT) && !again
  if n = 0 then ⟨false, false, false⟩
  else if !trouble then ⟨clip && decide (1 ≤ range), false, clip && range == 0⟩
  else match fmt with
    | .an4 => ⟨clip && decide (1 ≤ range), true, clip && range == 0⟩
    | .aw8 => ⟨clip && decide (1 ≤ range), false, decide (0 < s) || (clip && range == 0)⟩

/-- A request is served before another (R54): class, then order of arising, then tile. -/
def RepReq.before (a b : RepReq) : Bool :=
  if a.tok.cls != b.tok.cls then decide (a.tok.cls < b.tok.cls)
  else if a.slot != b.slot then decide (a.slot < b.slot)
  else decide (a.tile ≤ b.tile)

/-- Put a request in its place. -/
def insReq (l : List RepReq) (r : RepReq) : List RepReq :=
  match l with
  | [] => [r]
  | x :: t => if x.before r then x :: insReq t r else r :: x :: t

/-- A request is not served (R124, R126). -/
def Dev.unserved (d : Dev) (r : RepReq) : Dev := (d.precCount r.tile 9).precFlag r.tok 1

/-- Queue a request of a flock; at 256 a lead request displaces the last non-lead one or is a contained error, and another
class is unserved (R124). -/
def Dev.request (d : Dev) (r : RepReq) : Dev :=
  let f := r.tile / 128
  let d := d.precCount r.tile (if r.format then 5 else 6)
  let q := sgetD d.tile.queue f []
  let put (d : Dev) (q : List RepReq) : Dev := d.modTile fun t => { t with queue := sput t.queue f (insReq q r) }
  if q.length < 256 then put d q
  else
    let d := d.precCount r.tile 11
    if r.tok.cls = 0 then
      match q.reverse.find? fun x => x.tok.cls != 0 with
      | some x => (put d (q.erase x)).unserved x
      | none => d.contain { code := 0x0303, cls := 1, kind := 2, unit := f, slot := r.slot, detail := [BitVec.ofNat 32 r.pslot, BitVec.ofNat 32 r.block.qpoint, 1] } [r.tok.step]
    else d.unserved r

/-- CLAMPED (R120, R126, R133). -/
def Dev.clamped (d : Dev) (tile : Nat) (t : Tok) : Dev := (d.precCount tile 10).precFlag t 2

/-! ## LEARN (R128) -/

/-- A step is marked for replay; a mark made on another device reaches the entry device as a free value (log 25). -/
def Dev.markReplay (d : Dev) (t : Tok) : Dev :=
  let c := d.coord
  if t.ex == c.x.toNat && t.ey == c.y.toNat then
    let hit := d.call.steps.any fun s => s.session == t.session && !s.replay
    let d := d.modCall fun k => { k with steps := k.steps.map fun s => if s.session == t.session then { s with replay := true } else s }
    if hit then d.modTile fun x => { x with replays := bump x.replays } else d
  else if d.tile.marked.contains t.step then d
  else d.modTile fun x => { x with marked := t.step :: x.marked, replays := bump x.replays }

/-- The device is a token's entry device. -/
def Dev.entered (d : Dev) (t : Tok) : Bool := t.ex == d.coord.x.toNat && t.ey == d.coord.y.toNat

/-- The token's step runs under LEARN. One replayed four times runs under SERVICE on every device (R129); of a step entered elsewhere
that is a free value (log 25). -/
def Dev.learning (d : Dev) (t : Tok) : Bool :=
  d.tile.learn &&
    !(if d.entered t then d.call.steps.any fun s => s.session == t.session && decide (4 ≤ s.nReplay)
      else Config.remoteServed t.ex t.ey t.session t.eframe)

/-- Largest code of a format (R116). -/
def codeMax : ArrFmt → Nat
  | .an4 => 15 | .aw8 => 255

/-- Smallest e from lo with M ≤ max × 2^e, up to hi (R116). -/
def fitExp (m : Rat) (mx : Nat) (lo : Int) : Nat → Int
  | 0 => lo
  | n + 1 => if m ≤ mx * (2 : Rat) ^ lo then lo else fitExp m mx (lo + 1) n

/-- The rise of row 1 of R128: the smallest that makes M fit at e_L + 7, up to e_L = 24. -/
def learnRise (m : Rat) (f : ArrFmt) (e : Int) : Int := fitExp m (codeMax f) (e + 7) (24 - e).toNat - (e + 7)

/-- Trouble of an evaluation under LEARN. M is the block's largest magnitude; none is an infinity. -/
def Dev.learnTrouble (d : Dev) (tile : Nat) (t : Tok) (b : Block) (m : Option Rat) (clip : Bool) (range : Nat) : Dev :=
  let q := d.qEntry b.qpoint
  let e := qBase q
  let big := m.getD fmtFp32.max
  let up (d : Dev) (row : Nat) : Dev :=
    (d.modTile fun x => { x with ups := x.ups ++ [⟨b.qpoint, row, big, b.fmt⟩] }).markReplay t
  let lowest := match b.fmt with | .an4 => e | .aw8 => e - 4
  let d :=
    if b.sTrouble q then (if 0 < learnRise big b.fmt e then up d 1 else d.clamped tile t)
    else if b.zTrouble q && b.s == 0 && decide (-28 < e) && b.exp == lowest && decide (big ≤ codeMax b.fmt * (2 : Rat) ^ (e + 6)) then
      up d 2
    else d
  if clip && b.n != 0 then (if 1 ≤ range then up d 3 else d.clamped tile t) else d

/-- Apply the frame's updates at its boundary: each row once for a point, in the order of the table (R128). -/
def Tile.applyUps (t : Tile) : Tile :=
  let points := (t.ups.map LearnUp.point).dedup
  let one (t : Tile) (p row : Nat) : Tile :=
    let us := t.ups.filter fun u => u.point == p && u.row == row
    match us with
    | [] => t
    | _ =>
      let q := t.qtab.getD p 0
      let q' := match row with
        | 1 => putF q 0 6 (trunc 6 (qBase q + us.foldl (fun r u => max r (learnRise u.big u.fmt (qBase q))) 0))
        | 2 => putF q 0 6 (trunc 6 (qBase q - 1))
        | _ => putF q 24 2 (min 3 (qWiden q + 1))
      { t with qtab := t.qtab.set p q', updates := if q' = q then t.updates else bump t.updates }
  let t := points.foldl (fun t p => one (one (one t p 1) p 2) p 3) t
  { t with ups := [] }

end Sys2Proof.Machine
end

