-- ==== Sys2Proof/WellFormed.lean ====
section
/-! DEFINITION. Which operands a cue can have: an encoding that the spec calls reserved, or names among those refused when the script is
loaded (R324, R332, R336, R338 to R341), never reaches its unit. Bits that a form of a cue does not use are no ground: the cue runs
without them (log 100). Addresses outside device memory are faults instead (Machine/State.lean). -/
namespace Sys2Proof

/-- A BF16 vector in the apron begins on an even row (R336); the row is the low five bits. -/
def apronRowOk (v : BitVec 28) (f : OutFmt) : Bool := f != .bf16 || v.toNat % 2 == 0

/-- REQUANT: OSET up to 4, an even apron row for BF16. -/
def RequantCue.wf (c : RequantCue) : Bool := decide (c.oset.toNat ≤ 4) && (c.srcKind != .apron || apronRowOk c.src c.srcFmt)

/-- OUT: stochastic rounding for FP8 only, an even apron row for BF16. -/
def OutCue.wf (c : OutCue) : Bool :=
  !(c.stoch && c.ofmt == .bf16) && (c.dstKind != .apron || apronRowOk c.dst c.ofmt)

/-- Where a relay's hops lead on the die's 8 × 8 flock grid (R79, R336): column, row; none off the grid. -/
def relayEnd (dirs : Nat) : Nat → Nat × Nat → Option (Nat × Nat)
  | 0, p => some p
  | n + 1, p =>
    let go (q : Nat × Nat) : Option (Nat × Nat) := relayEnd (dirs / 4) n q
    match dirs % 4 with
    | 0 => if p.2 = 0 then none else go (p.1, p.2 - 1)
    | 1 => if p.1 = 7 then none else go (p.1 + 1, p.2)
    | 2 => if p.2 = 7 then none else go (p.1, p.2 + 1)
    | _ => if p.1 = 0 then none else go (p.1 - 1, p.2)

/-- Grid place of a tile's flock. -/
def flockAt (tile : BitVec 13) : Nat × Nat := (tile.toNat / 128 % 8, tile.toNat / 128 / 8)

/-- RELAY: 1 to 3 hops that lead from the sender's flock to the receiver's. -/
def RelayCue.wf (c : RelayCue) : Bool :=
  decide (1 ≤ c.hops.toNat) && relayEnd c.dirs.toNat c.hops.toNat (flockAt c.tile) == some (flockAt c.dst)

/-- MOVE: the tag FMT written into the apron is 4 to 7. -/
def MoveCue.wf (c : MoveCue) : Bool := !c.toApron || decide (4 ≤ c.fmt.toNat)

/-- A window has slots and tiles, up to the flock limit (R338). -/
def WinCue.wf (c : WinCue) : Bool := decide (1 ≤ c.slots.toNat) && decide (1 ≤ c.tiles.toNat) && decide (c.tiles.toNat ≤ 64)

/-- PLACE: routed experts 0 to 511. -/
def PlaceCue.wf (c : PlaceCue) : Bool := decide (c.expert.toNat < 512)

/-- KERNEL: engines 0 to 95; no lanes only for EXACT (R340). -/
def KernelCue.wf (k : KernelCue) (lanes : Bool) : Bool := decide (k.engine.toNat < 96) && (!lanes || k.nlanes != 0)

/-- HBM_RD, HBM_WR: whole codewords, at least one, engines 0 to 95. -/
def HbmCue.wf (c : HbmCue) : Bool :=
  c.addr.toNat % 64 == 0 && c.len != 0 && (c.tkind != .localBuf || decide (c.engine.toNat < 96))

/-- LINKS record: links 0 to 47; OUT_LINK counts for a forward only (R324). -/
def LinkRec.wf (r : LinkRec) (forward : Bool) : Bool := decide (r.link.toNat < 48) && (!forward || decide (r.outLink.toNat < 48))

/-- A command's operands are those of an event the hardware can have. -/
def Instr.wf : Instr → Bool
  | .requant c => c.wf
  | .out c => c.wf
  | .relay c => c.wf
  | .move c => c.wf
  | .repeatWin c => c.wf
  | .rehearseWin c => c.wf
  | .place c => c.wf
  | .matmul k => k.wf true
  | .norm k => k.wf true
  | .rotary k => k.wf true
  | .attnGqa k => k.wf true
  | .attnLatent k => k.wf true
  | .kvwrite k => k.wf true
  | .route k => k.wf true
  | .combine k => k.wf true
  | .sample k => k.wf true
  | .verify k => k.wf true
  | .adapt k => k.wf true
  | .exact k => k.wf false
  | .kernelStop f k => k.wf false && decide (f.toNat < 12)
  | .hbmRd c => c.wf
  | .hbmRdDeliver c _ => c.wf
  | .hbmWr c => c.wf
  | .linkSend r => r.wf false
  | .linkReceive r _ => r.wf false
  | .linkForward r => r.wf true
  | _ => true

end Sys2Proof
end

