-- ==== Sys2Proof/Machine/Tiles.lean ====
section
/-! DEFINITION. Tile cues (R336, R346 to R349): EVAL, REQUANT, OUT, HOP, RELAY, MOVE, with the arrays, the Prompter and the
requantiser behind them (chapters 03 and 04). -/
namespace Sys2Proof.Machine

/-- A cue's meaning: refused when its encoding cannot occur, otherwise its effect on the device. -/
def State.onCue (s : State) (ok : Bool) (f : Dev → Dev) : Host.Outcome State Fault Refusal :=
  if ok then s.onDev f else .refused .illFormed

/-! ## Arrays -/

/-- Array 17 × tile + n as manufactured: array n holds principal slot n, array 16 is the free understudy (log 5). -/
def Arr.fresh (a : Nat) : Arr := if a % 17 = 16 then { role := 1 } else { pslot := a % 17 }

def Tile.arr (t : Tile) (a : Nat) : Arr := (sget t.arrs a).getD (Arr.fresh a)
def Tile.setArr (t : Tile) (a : Nat) (x : Arr) : Tile := { t with arrs := sput t.arrs a x }
def Dev.arr (d : Dev) (a : Nat) : Arr := d.tile.arr a
def Dev.modArr (d : Dev) (a : Nat) (f : Arr → Arr) : Dev := d.modTile fun t => t.setArr a (f (t.arr a))

/-- The array that holds a logical slot's principal role (R82, R18). -/
def Tile.holder (t : Tile) (tile slot : Nat) : Option Nat :=
  ((List.range 17).map (17 * tile + ·)).find? fun a => (t.arr a).role == 0 && (t.arr a).pslot == slot

/-- The tile's understudy. -/
def Tile.understudy (t : Tile) (tile : Nat) : Option Nat :=
  ((List.range 17).map (17 * tile + ·)).find? fun a => (t.arr a).role == 1 || (t.arr a).role == 2

/-- W4s weight of a pair of levels (R64). -/
def pairWeight (b : Byte) : Int := (b.toNat % 8 : Nat) - (b.toNat / 8 % 8 : Nat)
/-- The pair of a W4s weight. -/
def weightPair (w : Int) : Byte := if 0 ≤ w then BitVec.ofNat 8 w.toNat else BitVec.ofNat 8 (8 * (-w).toNat)

/-- Key of a cell pair in a physical row. -/
def cellKey (a row col : Nat) : Nat := (1024 * a + row) * 512 + col

/-- The physical row of a logical row (R98). -/
def Arr.phys (x : Arr) (row : Nat) : Nat := ((x.rowMap.filter fun r => r.1 == row).getLast?.map Prod.snd).getD row

/-- The logical row that a physical row stands for; none for an unused spare or a row replaced by one. -/
def Arr.logical (x : Arr) (row : Nat) : Option Nat :=
  let r := ((x.rowMap.find? fun e => e.2 == row).map Prod.fst).getD row
  if r < 512 && x.phys r == row then some r else none

/-- The listed cells of an array: logical row, column, weight. -/
def Tile.cellsOf (t : Tile) (a : Nat) : List (Nat × Nat × Int) :=
  t.cells.filterMap fun c =>
    if c.1 / 2 ^ 19 = a then ((t.arr a).logical (c.1 / 512 % 1024)).map fun r => (r, c.1 % 512, pairWeight c.2) else none

/-- Exact column sums of R72. -/
def colSums (ws : List (Nat × Nat × Int)) (codes : List Int) : List Int :=
  (List.range 512).map fun j => ws.foldl (fun s w => if w.2.1 = j then s + codes.getD w.1 0 * w.2.2 else s) 0

/-- Full scale of a range code, and Q (R73). -/
def rangeFs (r : Nat) : Rat := 53760 / 2 ^ r
def rangeQ (r : Nat) : Nat := 840 / 2 ^ r

/-- A converter's code (R72): rounded to nearest, with the analogue error, within ten bits. -/
def convCode (y : Int) (range : Nat) (err : Int) : Int := clampI (-512) 511 (rne ((y : Rat) * 512 / rangeFs range) + err)

/-- A column is clipped (R72). -/
def isClip (c : Int) : Bool := c == -512 || c == 511

/-- The gain a column uses: the internal value rounded to 1.15 (R86). -/
def Grp.gain (g : Grp) : Nat := min 65535 (rne ((g.applied : Rat) / 256)).toNat

def Arr.grp (a : Arr) (k : Nat) : Grp := sgetD a.groups k {}

/-- Contribution of a column's code in one phase (R75). -/
def colValue (c : Int) (range gain m : Nat) : Int := rne ((c : Rat) * rangeQ range * gain / 32768) * m

/-- Reference weight of group k (R84). -/
def refWeight (k : Nat) : Int := if k % 2 = 0 then 6 else -6

/-- One converted phase of an array. -/
structure Phase where
  codes : List Int
  conv : List Int
  gains : List Nat
  deriving DecidableEq, Repr

/-- Drive, integrate and convert one phase, and take its reference columns into drift tracking (R85, R87). -/
def Dev.phase (d : Dev) (a range : Nat) (codes : List Int) : Dev × Phase :=
  let arr := d.arr a
  let ctr := d.freeCtr
  let ys := colSums (d.tile.cellsOf a) codes
  let conv := (List.range 512).map fun j => convCode (ys.getD j 0) range (Config.colError ctr j)
  let gains := (List.range 16).map fun k => (arr.grp k).gain
  let total := codes.sum
  let fs := rangeFs range
  let ref (k : Nat) : Int := convCode (if arr.refs then refWeight k * total else 0) range (Config.refError ctr k)
  let ok (k : Nat) : Bool :=
    codes.any (fun x => x != 0) && !isClip (ref k) && decide (fs / 4 ≤ |((refWeight k * total : Int) : Rat)|)
  let groups := (List.range 16).foldl (fun gs k =>
    if arr.refs && ok k then
      smod gs k {} fun g => { g with sumE := g.sumE + (refWeight k * total : Int), sumM := g.sumM + (ref k : Rat) * rangeQ range / 8, qual := true }
    else gs) arr.groups
  let q := (List.range 16).any ok
  ((d.useFree 1).modArr a fun x =>
      { x with groups := groups, qualAt := if q then d.tile.frames else x.qualAt, stale := x.stale && !q },
   ⟨codes, conv, gains⟩)

/-! ## Prompter (R102 to R113) -/

def Dev.prRd (d : Dev) (tile off n : Nat) : List Byte := rdN d.mem.prompter (prompterKey tile off) n

/-- A slot's descriptor (R107). -/
structure SlotDesc where
  oset : Nat
  kind : Nat
  rowsOff : Nat
  resOff : Nat
  resLen : Nat

def Dev.slotDesc (d : Dev) (tile slot : Nat) : SlotDesc :=
  let v := leNat (d.prRd tile (0x40 + 8 * slot) 8)
  ⟨fld v 0 3, fld v 4 2, fld v 6 12, fld v 18 12, fld v 30 12⟩

/-- The channels of outlier set n, in ascending order (R106). -/
def Dev.outliers (d : Dev) (tile n : Nat) : List Nat :=
  if n = 0 then []
  else
    let v := leNat (d.prRd tile (16 * (n - 1)) 16)
    (List.range (fld v 72 4)).map fun i => fld v (9 * i) 9

/-- A residual stream's data entries: row, column, E4M3 byte (R109). -/
def residuals : List (Nat × Nat) → Nat → Int → List (Nat × Int × Nat)
  | [], _, _ => []
  | (v, c) :: t, row, col =>
    if v = 0x80 then (if c = 0xFF then residuals t row (col + 256) else residuals t (row + c + 1) (-1))
    else (row, col + c + 1, v) :: residuals t row (col + c + 1)

def Dev.resEntries (d : Dev) (tile : Nat) (s : SlotDesc) : List (Nat × Int × Nat) :=
  residuals ((List.range s.resLen).map fun i =>
    let bs := d.prRd tile (s.resOff + 2 * i) 2
    (leAt bs 0 1, leAt bs 1 1)) 0 (-1)

def e4m3Val (b : Nat) : Rat :=
  match fpDec fmtE4m3 b with
  | .fin true q => -q
  | .fin false q => q
  | _ => 0

/-- Weight of an outlier channel (the i-th of the set) at a column (R108). -/
def Dev.outlierWeight (d : Dev) (tile : Nat) (s : SlotDesc) (i j : Nat) : Int :=
  match s.kind with
  | 0 => sext 4 (fld (leNat (d.prRd tile (s.rowsOff + 256 * i + j / 2) 1)) (4 * (j % 2)) 4)
  | 1 => sext 8 (leNat (d.prRd tile (s.rowsOff + 512 * i + j) 1))
  | _ => 0

/-- The Prompter's contribution (R111), in eighths of a unit; none for a slot without tables. -/
def Dev.prompter (d : Dev) (tile slot : Nat) (xs : List Int) : Option (List Int) :=
  let s := d.slotDesc tile slot
  let chans := d.outliers tile s.oset
  let rs := d.resEntries tile s
  if chans.isEmpty && rs.isEmpty then none
  else some <| (List.range 512).map fun (j : Nat) =>
    ((chans.zipIdx.map fun c => 8 * xs.getD c.1 0 * d.outlierWeight tile s c.2 j).sum) +
    ((rs.filterMap fun r => if r.2.1 = (j : Int) then some (rne (8 * (xs.getD r.1 0 : Rat) * e4m3Val r.2.2)) else none).sum)

/-! ## Apron codes (R66, R103) -/

/-- Code of an AN4 byte: an outlier channel's magnitude has seven bits. -/
def an4Code (b : Byte) (outlier : Bool) : Int :=
  let m := b.toNat % (if outlier then 128 else 16)
  if b.msb then -m else m

/-- Element of an AW8 pair of bytes. -/
def aw8Code (hi lo : Byte) (outlier : Bool) : Int :=
  let m := if outlier then 256 * (hi.toNat % 128) + lo.toNat else 16 * (hi.toNat % 16) + lo.toNat % 16
  if hi.msb then -m else m

/-- Element codes of a row or pair, and the codes driven per phase: outlier channels are not driven (R102). -/
def rowCodes (fmt : ArrFmt) (hi lo : List Byte) (chans : List Nat) : List Int × List (List Int) :=
  let at_ (l : List Byte) (i : Nat) : Byte := l.getD i 0
  match fmt with
  | .an4 =>
    let xs := (List.range 512).map fun i => an4Code (at_ hi i) (chans.contains i)
    (xs, [xs.zipIdx.map fun p => if chans.contains p.2 then 0 else p.1])
  | .aw8 =>
    let xs := (List.range 512).map fun i => aw8Code (at_ hi i) (at_ lo i) (chans.contains i)
    let drive (x : Int) (i : Nat) (f : Nat → Nat) : Int :=
      if chans.contains i then 0 else if x < 0 then -(f x.natAbs : Int) else f x.natAbs
    (xs, [xs.zipIdx.map fun p => drive p.1 p.2 (· / 16), xs.zipIdx.map fun p => drive p.1 p.2 (· % 16)])

/-- Age in band-A-equivalent hours (R88): the sum is kept in ns × 7. -/
def Arr.hours (a : Arr) : Nat := a.age / (7 * 3600 * 1000000000)

/-! ## Bounds (R92 to R94), as shares of Y_fs -/

/-- Powered service age in years of 8,760 hours (log 97). -/
def Dev.serviceYears (d : Dev) : Rat := ((Config.serviceHours + d.err.hoursOn : Nat) : Rat) / 8760

/-- Bound of a band: fresh below 24 h of age, else before refresh at the service age. -/
def bandBound (years : Rat) (band : Nat) (fresh : Bool) : Rat :=
  let (f, a, b) : Rat × Rat × Rat := match band with
    | 0 => (50, 70, 90)
    | 1 => (60, 80, 100)
    | 2 => (75, 90, 105)
    | _ => (90, 100, 110)
  (if fresh then f else if years ≤ 1 then a else if years ≤ 5 then a + (b - a) * (years - 1) / 4 else b + 10 * (years - 5)) / 10000

/-- Range factor (R93). -/
def rangeFactor : Nat → Rat
  | 0 => 1 | 1 => 115 / 100 | 2 => 140 / 100 | _ => 190 / 100

/-- The RMS bound of an array at a range code; during 1,024 frames after a band change, that of R94. -/
def Dev.rmsBound (d : Dev) (a range : Nat) : Rat :=
  let f := a / 17 / 128
  let fresh := decide ((d.arr a).hours < 24)
  let bound (b : Nat) : Rat := bandBound d.serviceYears b fresh * rangeFactor range
  let now := bound (sgetD d.thm.band f 0)
  match sget d.tile.bandSince f with
  | some (_, old) => max now (bound old) + 30 / 10000
  | none => now

/-- A bound applies to the array: not while it is TRACK_STALE (R94) or OVERDUE (R302). -/
def Dev.bounded (d : Dev) (a : Nat) : Bool := !(d.arr a).stale && !(d.arr a).overdue

/-- Frames since an array's latest qualifying phase (R87), and since it passed a probe (R403). -/
def Dev.idle (d : Dev) (a : Nat) : Nat := d.tile.frames - (d.arr a).qualAt
def Dev.unproved (d : Dev) (a : Nat) : Nat := d.tile.frames - (d.arr a).provedAt

/-! ## EVAL -/

/-- What an evaluation runs on. -/
structure EvalIn where
  tile : Nat
  pslot : Nat
  chain : Nat
  exp : Int
  range : Nat
  fmt : ArrFmt
  xs : List Int
  phases : List (List Int)

/-- Convert an evaluation's phases on an array. -/
def Dev.convert (d : Dev) (a range : Nat) : List (List Int) → Dev × List Phase
  | [] => (d, [])
  | p :: t =>
    let (d, ph) := d.phase a range p
    let (d, rest) := d.convert a range t
    (d, ph :: rest)

/-- The multiplier m of a phase (R75): 15 for a high array, 16 for the high nibble. -/
def phaseMul (kind : Nat) (fmt : ArrFmt) (i : Nat) : Nat := (if kind = 1 then 15 else 1) * (if fmt = .aw8 ∧ i = 0 then 16 else 1)

/-- Column values of a converted phase. -/
def phaseVals (p : Phase) (range m : Nat) : List Int :=
  (List.range 512).map fun j => colValue (p.conv.getD j 0) range (p.gains.getD (j / 32) 0) m

/-- Clipped columns of a phase with their codes (R119). -/
def phaseClips (p : Phase) : List (Nat × Int) := p.conv.zipIdx.filterMap fun c => if isClip c.1 then some (c.2, c.1) else none

/-- Largest magnitude of a block's non-outlier source elements; none when one is infinite. -/
def maxMag (es : List FpVal) (chans : List Nat) : Option Rat :=
  es.zipIdx.foldl (fun m p =>
    if chans.contains p.2 then m
    else match p.1, m with
      | .fin _ q, some x => some (max x q)
      | _, _ => none) (some 0)

def Dev.blockSrc (d : Dev) (b : Block) : List Byte :=
  if b.apron then rdN d.mem.apron (b.addr * 512) (vecBytes b.srcFmt) else rdN d.mem.wings b.addr (vecBytes b.srcFmt)

/-- Capture of an ARRAY job (R140): phases of the slot with N > 0 and no clipped column, up to 4,096. -/
def Exact.capturePhases (x : Exact) (key range : Nat) (ps : List Phase) (bound : Option Rat) : Exact :=
  match x.job with
  | some (false, k, _) =>
    if k = key then
      ps.foldl (fun x p =>
        if (phaseClips p).isEmpty && decide (x.phases.length < 4096) then
          { x with phases := x.phases ++ [⟨p.codes, p.conv, range, p.gains, bound⟩] }
        else x) x
    else x
  | _ => x

/-- Phases that an array converted for a slot, repeats included, go to an ARRAY job that captures the slot (R140). -/
def Dev.capture (d : Dev) (a key range : Nat) (ps : List Phase) : Dev :=
  let bound := if d.bounded a then some (d.rmsBound a range) else none
  d.modTile fun t => { t with exact := t.exact.capturePhases key range ps bound }

/-- After an evaluation: trouble becomes requests, flags or updates (R119, R120, R128). -/
def Dev.evalTrouble (d : Dev) (tok : Tok) (i : EvalIn) (b : Block) (ps : List Phase) (slot lane : Nat) (again : Bool) : Dev :=
  let clips := ps.map phaseClips
  let clip := clips.any fun c => !c.isEmpty
  let q := d.qEntry b.qpoint
  let d := if clip then d.precCount i.tile 4 else d
  if d.learning tok then
    d.learnTrouble i.tile tok b (maxMag (vecElems b.srcFmt (d.blockSrc b)) (d.outliers i.tile b.oset)) clip i.range
  else
    let a := askRepeats b.n (b.zTrouble q) (b.sTrouble q) b.s i.fmt clip i.range again
    let req (format : Bool) : RepReq :=
      { slot := slot, tile := i.tile, pslot := i.pslot, chain := i.chain, lane := lane, tok := tok, format := format,
        range := if format then i.range else i.range - 1, phases := i.phases, exp := i.exp, clips := clips, block := b }
    let d := if a.range then d.request (req false) else d
    let d := if a.format then d.request (req true) else d
    if a.clamped then d.clamped i.tile tok else d

/-- Add an evaluation's contributions: one per phase, then the Prompter's (R74, R112, R345). -/
def Dev.evalContrib (d : Dev) (i : EvalIn) (kind slot : Nat) (ps : List Phase) : Dev :=
  let d := ps.zipIdx.foldl (fun d p =>
    d.contribute ⟨slot + p.2 + 1, 0, i.tile, i.chain, i.exp, phaseVals p.1 i.range (phaseMul kind i.fmt p.2), []⟩) d
  match d.prompter i.tile i.pslot i.xs with
  | some v => d.contribute ⟨slot + ps.length, 1, i.tile, i.chain, i.exp, v, []⟩
  | none => d

/-- A LAYER job captures a token's chains: its session's first step met (R141). -/
def Exact.takes (x : Exact) (t : Tok) : Bool :=
  match x.job with
  | some (true, _, s) =>
    s == t.session && (match x.chains with | c :: _ => c.tok.step == t.step && c.tok.eframe == t.eframe | [] => true)
  | _ => false

/-- Capture for a LAYER job (R141): a source that an evaluation of the chain for the lane read. -/
def Exact.captureBlock (x : Exact) (chainLayer : Option Nat) (tok : Tok) (chain lane : Nat) (src : SrcCap) : Exact :=
  match x.job with
  | some (true, layer, _) =>
    if x.takes tok && chainLayer == some layer then
      let mine (c : ChainCap) : Bool := c.chain == chain && c.lane == lane
      if x.chains.any mine then
        { x with chains := x.chains.map fun c => if mine c then { c with blocks := c.blocks ++ [src] } else c }
      else { x with step := true, chains := x.chains ++ [⟨chain, lane, [src], [], .bf16, false, tok⟩] }
    else x
  | _ => x

/-- Layer of a chain (R337). -/
def Dev.chainLayer (d : Dev) (chain : Nat) : Option Nat :=
  match d.scr.script with
  | some sc => (sc.chains.find? fun c => c.chain == chain).map Chain.layer
  | none => none

/-- The rows of an evaluation's input: row, tag FMT (R346), and the slot that reads it (R345). -/
def evalRows (c : EvalCue) : List (Nat × Nat × Nat) :=
  match c.fmt with
  | .an4 => [(c.row.toNat, 1, c.slot.toNat)]
  | .aw8 => [(c.row.toNat, 2, c.slot.toNat), (c.rowLo.toNat, 3, c.slot.toNat + 1)]

/-- The lane of a served evaluation (R403); a step entered elsewhere is seen by this device (R130; log 25). -/
def Dev.serveLane (d : Dev) (key lane : Nat) (tok : Tok) : Dev :=
  d.modTile fun t => { t with served := (key, lane) :: t.served, foreign := if d.entered tok then t.foreign else (tok.step :: t.foreign).dedup }

/-- An evaluation performed for a lane's token, its rows read each in its slot (R345, R346). No conversion runs when every code is 0
(R68); format trouble of the block counts all the same. -/
def Dev.evalTok (d : Dev) (c : EvalCue) (tok : Tok) : Dev :=
  let tile := c.tile.toNat
  let pslot := c.pslot.toNat
  let slot := c.slot.toNat
  let lane := c.lane.toNat
  let cue := c.num.toNat
  let rows := evalRows c
  match d.tile.holder tile pslot with
  | none => d.tileError Config.suspendCode tile pslot slot cue tok
  | some a =>
    if (d.arr a).suspended then
      (d.tileError Config.suspendCode tile pslot slot cue tok).modTile fun t => { t with progCnt := smod t.progCnt 7 0 bump }
    else if rows.any fun r => tagFmt (d.rowTag tile r.1 r.2.2) != r.2.1 then d.tileError 0x0201 tile pslot slot cue tok
    else if rows.any fun r => tagOset (d.rowTag tile r.1 r.2.2) != (d.slotDesc tile pslot).oset then
      d.tileError 0x0201 tile pslot slot cue tok
    else
      let exp := tagExp (d.rowTag tile c.row.toNat slot)
      let b := d.rowBlock (32 * tile + c.row.toNat) slot
      let (d, hi) := d.rowRd tok tile c.row.toNat slot cue
      let (d, lo) := if c.fmt = .aw8 then d.rowRd tok tile c.rowLo.toNat (slot + 1) cue 1 else (d, [])
      let sd := d.slotDesc tile pslot
      let (xs, phases) := rowCodes c.fmt hi lo (d.outliers tile sd.oset)
      let d := d.serveLane (16 * tile + pslot) lane tok
      let range := c.range.toNat - qWiden (d.qEntry c.qpoint.toNat)
      let i : EvalIn := ⟨tile, pslot, c.chain.toNat, exp, range, c.fmt, xs, phases⟩
      let zero := xs.all fun x => x == 0
      let (d, ps) := if zero then (d, []) else d.convert a range phases
      let d := if zero then d else d.evalContrib i sd.kind slot ps
      let d := d.evalTrouble tok i b ps slot lane false
      let d := if b.n = 0 then d else d.capture a (16 * tile + pslot) range ps
      d.modTile fun t =>
        { t with exact := t.exact.captureBlock (d.chainLayer c.chain.toNat) tok c.chain.toNat lane
                   ⟨tile, pslot, b, d.qEntry b.qpoint, d.seedOf tok, d.blockSrc b⟩ }

/-- An evaluation whose rows have been read: nothing for a lane emptied meanwhile. -/
def Dev.evalRun (d : Dev) (c : EvalCue) : Dev :=
  match d.lane c.lane.toNat with
  | none => d
  | some tok => d.evalTok c tok

/-- A cue of a slot is reached: AW8 evaluations of earlier slots have read their low rows, and contributions of earlier slots have
landed (R74, R345). -/
def Dev.advance (d : Dev) (slot : Nat) : Dev :=
  let due := d.tile.late.filter fun c => decide (c.slot.toNat < slot)
  let d := d.modTile fun t => { t with late := t.late.filter fun c => !decide (c.slot.toNat < slot) }
  (due.foldl Dev.evalRun d).modTile fun t => t.land slot

/-- A tile cue of a lane and slot: not performed for an empty lane (R335), nor where what came due before it emptied the lane; while a
tile it works on is not cued, the step is discarded (R114). -/
def Dev.onTile (d : Dev) (tiles : List Nat) (lane slot : Nat) (f : Tok → Dev → Dev) : Dev :=
  if !d.cues then d
  else
    match d.lane lane with
    | none => d
    | some tok =>
      let d := (d.advance slot).useKeys (tiles.map (2 ^ 19 + ·)) tok.step
      if !d.cues || (d.lane lane).isNone then d
      else if tiles.any d.tile.prBad.contains then d.discardTok tok.step 1 else f tok d

/-- A tile drives no rows in n slots from one on (R17). -/
def Tile.idleIn (t : Tile) (tile slot n : Nat) : Bool := (List.range n).all fun i => !t.driven.contains (tile, slot + i)

/-- A tile drives rows in n slots from one on. -/
def Dev.drives (d : Dev) (tile slot n : Nat) : Dev :=
  d.modTile fun t => { t with driven := (List.range n).map (fun i => (tile, slot + i)) ++ t.driven }

/-- Slots in which an evaluation drives its tile's rows. -/
def evalSlots (c : EvalCue) : Nat := match c.fmt with | .an4 => 1 | .aw8 => 2

/-- EVAL (R346). A tile evaluates one array in a phase: a second one in the slot is not performed (R17; log 98). An AW8 evaluation goes on
when its low row's slot has come. -/
def eval (c : EvalCue) (d : Dev) : Dev :=
  d.onTile [c.tile.toNat] c.lane.toNat c.slot.toNat fun tok d =>
    if !d.tile.idleIn c.tile.toNat c.slot.toNat (evalSlots c) then d
    else
      let d := d.drives c.tile.toNat c.slot.toNat (evalSlots c)
      match c.fmt with
      | .an4 => d.evalTok c tok
      | .aw8 => d.modTile fun t => { t with late := t.late ++ [c] }

def execEval (c : EvalCue) (s : State) : Host.Outcome State Fault Refusal := s.onDev (eval c)

/-! ## REQUANT (R115 to R118, R347) -/

/-- Vector exponent of R116. -/
def vecExp (m : Option Rat) (f : ArrFmt) (base : Int) : Int :=
  let lo := match f with | .an4 => base | .aw8 => base - 4
  match m with
  | none => base + 7
  | some m => if m = 0 then base else fitExp m (codeMax f) lo (base + 7 - lo).toNat

/-- Quantise elements to codes at an exponent: code, and whether it was clamped (R117). -/
def quantise (es : List FpVal) (f : ArrFmt) (e : Int) (chans : List Nat) (draw : Option (Nat → Nat)) : List (Int × Bool) :=
  es.zipIdx.map fun p =>
    let lim : Int := match f, chans.contains p.2 with
      | .an4, false => 15 | .an4, true => 127 | .aw8, false => 255 | .aw8, true => 32767
    match p.1 with
    | .inf neg => (if neg then -lim else lim, true)
    | .nan => (0, false)
    | .fin neg q =>
      let x := (if neg then -q else q) / (2 : Rat) ^ e
      let r := match draw with
        | some g => stochRound x (g p.2)
        | none => rne x
      (clampI (-lim) lim r, decide (lim < |r|))

/-- Apron bytes of codes: the high or only row, and the low row (R66, R103). -/
def codeRows (f : ArrFmt) (chans : List Nat) (codes : List Int) : List Byte × List Byte :=
  let sg (c : Int) : Nat := if c < 0 then 128 else 0
  match f with
  | .an4 => (codes.map fun c => BitVec.ofNat 8 (sg c + c.natAbs), [])
  | .aw8 =>
    let one (p : Int × Nat) : Byte × Byte :=
      if chans.contains p.2 then (BitVec.ofNat 8 (sg p.1 + p.1.natAbs / 256), BitVec.ofNat 8 (p.1.natAbs % 256))
      else (BitVec.ofNat 8 (sg p.1 + p.1.natAbs / 16), BitVec.ofNat 8 (sg p.1 + p.1.natAbs % 16))
    ((codes.zipIdx.map one).map Prod.fst, (codes.zipIdx.map one).map Prod.snd)

/-- The draws of a requantisation (R136): domain 1, or 2 for a remainder. -/
def Dev.reqDraw (d : Dev) (t : Tok) (domain point : Nat) : Nat → Nat :=
  draw16 (d.seedOf t) t.pos domain point

/-- N, Z and S of a block (R118). -/
def blockCounts (es : List FpVal) (codes : List (Int × Bool)) (chans : List Nat) : Nat × Nat × Nat :=
  let nz (e : FpVal) : Bool := match e with | .fin _ q => q != 0 | _ => true
  ((es.filter nz).length,
   ((es.zip codes).zipIdx.filter fun p => nz p.1.1 && p.1.2.1 == 0 && !chans.contains p.2).length,
   (codes.filter fun c => c.2).length)

/-- Write the rows of a block with their tags. -/
def Dev.writeBlock (d : Dev) (tile dst dstLo : Nat) (f : ArrFmt) (e : Int) (oset : Nat) (rows : List Byte × List Byte) (slot cue : Nat) :
    Dev :=
  match f with
  | .an4 => d.rowWr tile dst rows.1 (mkTag e 1 oset) slot cue
  | .aw8 => (d.rowWr tile dst rows.1 (mkTag e 2 oset) slot cue).rowWr tile dstLo rows.2 (mkTag e 3 oset) slot cue

/-- Wings range of a vector source. -/
def VecLoc.wingsRange (l : VecLoc) (n : Nat) : Nat × Nat := if l.apron then (0, 0) else (l.addr, n)

/-- A REQUANT's block counts in the flock's counters 0 to 3 (R133). -/
def Dev.countBlock (d : Dev) (tile : Nat) (b : Block) : Dev :=
  let q := d.qEntry b.qpoint
  let d := d.precCount tile 0
  let d := if b.n = 0 then d.precCount tile 1 else d
  let d := if b.zTrouble q then d.precCount tile 2 else d
  if b.sTrouble q then d.precCount tile 3 else d

/-- REQUANT of a source that has been read (R115 to R118, R347). A NaN in it is a contained error and the rows are written as zeros; of
that case the spec states neither the tag's exponent, where the model writes the point's BASE, nor whether counter 0 counts the
block, which the model leaves out (log 99). -/
def Dev.requantise (d : Dev) (c : RequantCue) (tok : Tok) (l : VecLoc) (src : List Byte) : Dev :=
  let tile := c.tile.toNat
  let slot := c.slot.toNat
  let cue := c.num.toNat
  let es := vecElems c.srcFmt src
  let oset := c.oset.toNat
  let point := c.qpoint.toNat
  let chans := d.outliers tile oset
  let base := qBase (d.qEntry point)
  let zeros := List.replicate 512 (0 : Byte)
  if es.any fun e => e == .nan then
    let d := d.writeBlock tile c.dst.toNat c.dstLo.toNat c.fmt base oset (zeros, zeros) slot cue
    d.contain { code := 0x0302, cls := 1, kind := 1, unit := tile, slot := slot, cue := cue, detail := [0, BitVec.ofNat 32 point, 1] } [tok.step]
  else
    let e := vecExp (maxMag es chans) c.fmt base
    let codes := quantise es c.fmt e chans (if c.stoch then some (d.reqDraw tok 1 point) else none)
    let (bn, bz, bs) := blockCounts es codes chans
    let b : Block := ⟨l.apron, l.addr, c.srcFmt, c.fmt, oset, point, c.stoch, bn, bz, bs, e⟩
    let d := d.writeBlock tile c.dst.toNat c.dstLo.toNat c.fmt e oset (codeRows c.fmt chans (codes.map Prod.fst)) slot cue
    (d.modTile fun t => { t with blocks := sput t.blocks (32 * tile + c.dst.toNat) b }).countBlock tile b

/-- REQUANT (R347). -/
def requant (c : RequantCue) (d : Dev) : Dev :=
  let tile := c.tile.toNat
  let slot := c.slot.toNat
  let cue := c.num.toNat
  d.onTile [tile] c.lane.toNat slot fun tok d =>
    let l := d.vecLoc c.srcKind c.src.toNat tile c.lane.toNat tok.tenant
    if l.apron && (dataTags c.srcFmt).zipIdx.any fun p => tagFmt (d.rowTag tile (l.addr % 32 + p.2) slot) != p.1 then
      d.tileError 0x0201 tile 0 slot cue tok
    else
      match d.outstanding true (l.wingsRange (vecBytes c.srcFmt)).1 (l.wingsRange (vecBytes c.srcFmt)).2 with
      | some o => d.stallOn o slot
      | none =>
        let (d, src) := d.vecRd tok l c.srcFmt slot cue
        d.requantise c tok l src

def execRequant (c : RequantCue) (s : State) : Host.Outcome State Fault Refusal := s.onCue c.wf (requant c)

/-! ## OUT (R83, R348) -/

/-- Columns of a released set. -/
def Dev.outCols (d : Dev) (f : OutFmt) (chain : Nat) (s : AccSet) (draw : Option (Nat → Nat)) : List Nat :=
  let sc := d.chainScales chain
  (List.range 512).map fun j =>
    outColumn (outFmtF f) (sc.getD j 0) (s.vals.getD j 0) s.exp (s.ovf.contains j) (draw.map fun g => g j)

/-- Final output of a chain under a LAYER job; OUT says how it is rounded. -/
def Exact.captureOut (x : Exact) (chain lane : Nat) (f : OutFmt) (stoch : Option Bool) (bs : List Byte) : Exact :=
  { x with chains := x.chains.map fun c =>
      if c.chain == chain && c.lane == lane then { c with out := bs, fmt := f, stoch := stoch.getD c.stoch } else c }

/-- OUT (R83, R348). -/
def out (c : OutCue) (d : Dev) : Dev :=
  let tile := c.tile.toNat
  let slot := c.slot.toNat
  d.onTile [tile] c.lane.toNat slot fun tok d =>
    let l := d.vecLoc c.dstKind c.dst.toNat tile c.lane.toNat tok.tenant
    match d.outstanding true (l.wingsRange (vecBytes c.ofmt)).1 (l.wingsRange (vecBytes c.ofmt)).2 with
    | some o => d.stallOn o slot
    | none =>
      let cols := match sget d.tile.acc tile with
        | some s => d.outCols c.ofmt c.chain.toNat s
            (if c.stoch then some (draw16 (d.seedOf tok) tok.pos 3 c.chain.toNat) else none)
        | none => List.replicate 512 0
      let bs := colBytes c.ofmt cols
      let d := d.modTile fun t =>
        { t with acc := sdel t.acc tile, outs := sput t.outs (4096 * c.chain.toNat + c.lane.toNat) ⟨tile, l.apron, l.addr, c.ofmt, tok⟩,
                 exact := t.exact.captureOut c.chain.toNat c.lane.toNat c.ofmt (some c.stoch) bs }
      d.vecWr tok l c.ofmt bs slot c.num.toNat

def execOut (c : OutCue) (s : State) : Host.Outcome State Fault Refusal := s.onCue c.wf (out c)

/-! ## HOP and RELAY (R349) -/

/-- Capture and release the sender's set; the receiver adds it at the end of `landSlot`. -/
def forward (slot lane tile dst landSlot : Nat) (d : Dev) : Dev :=
  d.onTile [tile, dst] lane slot fun _ d =>
    match sget d.tile.acc tile with
    | none => d
    | some s => (d.modTile fun t => { t with acc := sdel t.acc tile }).contribute ⟨landSlot, 2, dst, s.chain, s.exp, s.vals, s.ovf⟩

def hop (c : HopCue) (d : Dev) : Dev :=
  forward c.slot.toNat c.lane.toNat c.tile.toNat (c.tile.toNat / 128 * 128 + c.dst.toNat) c.slot.toNat d

def relay (c : RelayCue) (d : Dev) : Dev :=
  forward c.slot.toNat c.lane.toNat c.tile.toNat c.dst.toNat (c.slot.toNat + 2 * c.hops.toNat - 1) d

def execHop (c : HopCue) (s : State) : Host.Outcome State Fault Refusal := s.onDev (hop c)
def execRelay (c : RelayCue) (s : State) : Host.Outcome State Fault Refusal := s.onCue c.wf (relay c)

/-! ## MOVE (R336, R192) -/

/-- MOVE: one row from the wings to the apron, or back. -/
def move (c : MoveCue) (d : Dev) : Dev :=
  let tile := c.tile.toNat
  let slot := c.slot.toNat
  let cue := c.num.toNat
  d.onTile [tile] c.lane.toNat slot fun tok d =>
    let a := wordAddr (if c.laneBuf then d.laneBuf c.lane.toNat tok.tenant + c.waddr.toNat else c.waddr.toNat)
    match d.outstanding true a 512 with
    | some o => d.stallOn o slot
    | none =>
      if c.toApron then
        let (d, bs) := d.wingsRd tok a 512 slot cue
        d.rowWr tile c.row.toNat bs (mkTag 0 c.fmt.toNat 0) slot cue
      else if tagFmt (d.rowTag tile c.row.toNat slot) = 0 then d.tileError 0x0201 tile 0 slot cue tok
      else
        let (d, bs) := d.rowRd tok tile c.row.toNat slot cue
        d.wingsWr tok a bs slot cue

def execMove (c : MoveCue) (s : State) : Host.Outcome State Fault Refusal := s.onCue c.wf (move c)

end Sys2Proof.Machine
end

