-- ==== Sys2Proof/Machine/Arrays.lean ====
section
/-! DEFINITION. Array work (chapter 09): roles and role swaps (R18, R298), failed principals (R88, R99, R300, R403), programming
and its places (R292 to R297, R299), the measurement of ρ⁰ (R294), refresh, replacement and reset (R298 to R303), and what
each frame boundary does to gains, ages and marks (R85 to R88). -/
namespace Sys2Proof.Machine

def Dev.progCount (d : Dev) (n : Nat) : Dev := d.modTile fun t => { t with progCnt := smod t.progCnt n 0 bump }

/-- Age weight of a band × 7 (R89). -/
def ageWeight7 : Nat → Nat
  | 0 => 7 | 1 => 30 | 2 => 105 | _ => 420

/-- An error that names an array, with the DETAIL of its group (R416); of an array found failed, with its EXPOSURE (R403). -/
def Dev.arrayError (d : Dev) (code cls a : Nat) (flagged : List Nat) (row : Option Nat) (pattern : Nat) (spare : Bool)
    (verdict : Nat := 0) : Dev :=
  let x := d.arr a
  let ratio (g : Grp) : Nat := if g.rho0 = 0 then 0 else min 65535 (rne (g.rho / g.rho0 * 32768)).toNat
  let worst := x.groups.foldl (fun (w : Nat) g => if |(ratio g.2 : Int) - 32768| < |(w : Int) - 32768| then w else ratio g.2) 32768
  let two (i : Nat) : Word := BitVec.ofNat 32 (flagged.getD (2 * i) 0 + 65536 * flagged.getD (2 * i + 1) 0)
  d.raise { code := code, cls := cls, kind := 10, unit := a, spare := spare, exposure := if cls = 2 then d.unproved a else 0,
            verdict := if cls = 2 then 2 else verdict,
            detail := [BitVec.ofNat 32 x.pslot, BitVec.ofNat 32 flagged.length] ++ (List.range 8).map two ++
              [match row with | some r => BitVec.ofNat 32 r | none => 0xFFFFFFFF, BitVec.ofNat 32 pattern, BitVec.ofNat 32 worst] }

/-- A unit-suspect error against a tile, which has no spare (R301, R295, R355); DETAIL names no row (R416). -/
def Dev.tileSuspect (d : Dev) (code tile slot : Nat) : Dev :=
  (d.histPermanent 1 tile).raise { code := code, cls := 2, kind := 1, unit := tile, verdict := 2,
                                   detail := BitVec.ofNat 32 slot :: List.replicate 9 0 ++ [0xFFFFFFFF] }

/-- The lanes that an EVAL of a slot served in this frame are emptied (R403). -/
def Dev.emptyServed (d : Dev) (key : Nat) : Dev :=
  (d.tile.served.filter fun s => s.1 == key).foldl (fun d s =>
    match d.lane s.2 with
    | some t => d.discardTok t.step 1
    | none => d) d

/-- An ARRAY job captures a slot (16 × tile + slot). -/
def Dev.exactOn (d : Dev) (key : Nat) : Bool := match d.tile.exact.job with | some (false, k, _) => k == key | _ => false

/-- A failed principal (R300, R301, R403): its served lanes are emptied, the slot is suspended from the next boundary, and an
understudy must be able to take over; otherwise the tile is unit-suspect. -/
def Dev.failPrincipal (d : Dev) (code a : Nat) (flagged : List Nat) (row : Option Nat) (pattern : Nat) : Dev :=
  let x := d.arr a
  let tile := a / 17
  if x.role != 0 || x.failed then d
  else
    let key := 16 * tile + x.pslot
    let others := ((List.range 17).map (17 * tile + ·)).any fun b => b != a && (d.arr b).failed && (d.arr b).role == 0
    let usable := (d.tile.understudy tile).isSome
    let d := d.arrayError code 2 a flagged row pattern true
    let d := (d.histPermanent 10 a).emptyServed key
    let d := d.modArr a fun x => { x with failed := true, failedRow := row, toSuspend := true }
    let d := if d.exactOn key then d.exactFail 5 else d
    if others || !usable then d.tileSuspect 0x0208 tile x.pslot else d

/-! ## Programming -/

/-- Nominal conductance of a level and its verify window, in 0.01 µS (R63). -/
def levelCenti (n : Nat) : Nat := 10 + 125 * n
def verifyWindow (n : Nat) : Nat × Nat := if n = 0 then (0, 30) else (levelCenti n - 12, levelCenti n + 12)

/-- Arrays programming now (R312 ACTIVE), and those of one flock. -/
def Tile.active (t : Tile) : List Nat := t.arrs.filterMap fun a => if a.2.pstate = 1 then some a.1 else none
def Tile.activeFlock (t : Tile) (f : Nat) : List Nat := t.active.filter fun a => a / 17 / 128 == f

/-- A programming place is free (R293). -/
def Dev.placeFree (d : Dev) (flock : Nat) : Bool :=
  let play := d.stUnder == .playing
  decide ((d.tile.activeFlock flock).length < (if play then 4 else 48)) && decide (d.tile.active.length < (if play then 64 else 3072))

/-- VDD_PROG sampled before a programming (R293): an urgent request of the device's own, against the internal reference (R443). -/
def Dev.sampleVprog (d : Dev) (ok : Bool) : Dev :=
  let d := (d.modTile fun t => { t with noVprog := !ok }).modHkc fun h => if h.curRef = 0 then h.abortBurst else h
  if ok then d else d.raise { code := 0x020B, cls := 0, kind := 16 }

/-- Retire an array (R100, R297): its marks no longer count. -/
def Dev.retire (d : Dev) (a : Nat) : Dev :=
  (d.modArr a fun x => { x with role := 3, pstate := 0, job := none, record := false, due := false, dueRho := false, overdue := false,
                                suspended := false, toSuspend := false, toMeasure := 0 }).progCount 4

/-- A programming starts: recorded in history before the first pulse (R296), counted, WORN at 45,000; at 50,000 an array that holds no
principal role is retired at once (R297). -/
def Dev.startProg (d : Dev) (a : Nat) (j : ProgJob) : Dev :=
  let x := d.arr a
  let w := if x.writes + 1 < 2 ^ 20 then x.writes + 1 else 2 ^ 20 - 1
  let d := (d.modArr a fun x => { x with job := some j, pstate := 1, row := 0, started := d.now, record := true, writes := w }).progCount 9
  let d := if 45000 ≤ w && !x.worn then (d.modArr a fun x => { x with worn := true }).arrayError 0x020A 0 a [] none 0 false else d
  if 50000 ≤ w && x.role != 0 then d.retire a else d

/-- Copy the census weights of a slot into an array's physical rows, with its reference pairs; every other row is at level 0 (R292,
R298). -/
def Tile.writeCells (t : Tile) (a key : Nat) : Tile :=
  let x := t.arr a
  let src : List (Nat × Byte) := t.census.filterMap fun c =>
    if c.1 / 2 ^ 18 = key then some (cellKey a (x.phys (c.1 / 512 % 512)) (c.1 % 512), c.2) else none
  let cleared := sclear t.cells (cellKey a 0 0) (cellKey (a + 1) 0 0)
  ({ t with cells := src.foldl (fun (m : Sparse Byte) (c : Nat × Byte) => sput m c.1 c.2) cleared }).setArr a { x with refs := true }

/-- One group's sums start again. -/
def Grp.clear (g : Grp) : Grp := { g with sumE := 0, sumM := 0, qual := false }

/-- Sum one tracking evaluation of an array that holds no principal role into the measurement (R294). -/
def Dev.measureOne (d : Dev) (a : Nat) : Dev :=
  let d := d.modArr a fun x => { x with groups := x.groups.map fun g => (g.1, g.2.clear) }
  (d.phase a 0 (List.replicate 512 15)).1.modArr a fun x =>
    let add (gs : Sparse Grp) (k : Nat) : Sparse Grp := smod gs k {} fun g => { g.clear with mE := g.mE + g.sumE, mM := g.mM + g.sumM }
    { x with toMeasure := x.toMeasure - 1, groups := (List.range 16).foldl add x.groups }

/-- The sixteen evaluations are in: ρ and ρ⁰ are ΣE ÷ ΣM, the age starts again, and the array waits for its role (R294). -/
def Arr.measured (x : Arr) : Arr :=
  { x with age := 0, due := false, dueRho := false, overdue := false, toMeasure := 0,
           pstate := if x.role = 0 then 0 else match x.job with | some (.refresh _) | some (.replacement _) | some (.load _) => 4 | _ => 0,
           job := if x.role = 0 then none else match x.job with | some .reset | some (.prove _) => none | j => j,
           groups := x.groups.map fun g =>
             let r := if g.2.mM = 0 then 1 else g.2.mE / g.2.mM
             (g.1, { g.2 with rho := r, rho0 := r, mE := 0, mM := 0, sumE := 0, sumM := 0, qual := false }) }

/-- Run the sixteen evaluations at once (READY and CURTAIN, R294). -/
def Dev.measureAll (d : Dev) (a : Nat) : Dev :=
  let d := d.modArr a fun x =>
    { x with toMeasure := 16, groups := x.groups.map fun g => (g.1, { g.2.clear with mE := 0, mM := 0 }) }
  ((List.range 16).foldl (fun d _ => d.measureOne a) d).modArr a Arr.measured

/-- G_target of a group (R86). -/
def Dev.gTarget (d : Dev) (a k : Nat) : Rat :=
  let g := (d.arr a).grp k
  let f := a / 17 / 128
  let kf : Rat := ((Config.factoryGain a k).toNat : Rat) / 32768
  kf * Config.driftCoeff f (sgetD d.thm.band f 0) k * (if g.rho0 = 0 then 1 else g.rho / g.rho0)

/-- Applied gains start at their targets (R294). -/
def Dev.startGains (d : Dev) (a : Nat) : Dev :=
  (List.range 16).foldl (fun d k =>
    let g := d.gTarget a k
    d.modArr a fun x => { x with groups := smod x.groups k {} fun y => { y with applied := (g * 2 ^ 23).floor.toNat } }) d

/-- An array takes a slot's principal role (R294). -/
def Dev.takeRole (d : Dev) (a slot : Nat) : Dev :=
  (d.modArr a fun x => { x with role := 0, pslot := slot, pstate := 0, job := none, suspended := false, toSuspend := false,
                                failed := false, failedRow := none, incomplete := false }).startGains a

/-- What becomes of an array that leaves a principal role: it is retired when worn out (R297) or when a row failed and no spare is left
(R100); a failed row is to be repaired and proved (R99, R303); otherwise it waits for its reset (R298). -/
def Dev.leaveRole (d : Dev) (a : Nat) : Dev :=
  let x := d.arr a
  let busy (j : ProgJob) : Dev := d.modArr a fun x =>
    { x with role := 2, pstate := 0, job := some j, due := false, dueRho := false, overdue := false, suspended := false, toSuspend := false,
             incomplete := false }
  if 50000 ≤ x.writes || (x.failedRow.isSome && 8 ≤ x.rowMap.length) then d.retire a
  else if x.failedRow.isSome then busy (.prove x.pslot)
  else busy .reset

/-- One role swap, a calibration write (R21): the array takes the slot and the old principal leaves it. A write that fails its check leaves
both as they were, and the swap is tried again at the next boundary. -/
def Dev.swapRole (d : Dev) (a slot : Nat) (n : Option Nat) : Dev :=
  (d.calWrite fun d =>
    let d := match d.tile.holder (a / 17) slot with | some o => d.leaveRole o | none => d
    let d := d.takeRole a slot
    (match n with | some n => d.progCount n | none => d).commitHistory).1

/-- Role swaps scheduled for a boundary (R46 order 3, R298 order 3, R300, R295): a measured array takes the slot; a refresh swap of a slot
that an ARRAY job captures waits (R301). -/
def Dev.roleSwaps (d : Dev) : Dev :=
  d.tile.arrs.foldl (fun d e =>
    let a := e.1
    let x := d.arr a
    match x.pstate, x.job with
    | 4, some (.refresh s) => if d.exactOn (16 * (a / 17) + s) then d else d.swapRole a s (some 0)
    | 4, some (.replacement s) => d.swapRole a s (some 1)
    | 4, some (.load s) => d.swapRole a s none
    | _, _ => d) d

/-- Slots of failed principals are suspended from this boundary (R300). -/
def Tile.suspend (t : Tile) : Tile :=
  { t with arrs := t.arrs.map fun a => (a.1, if a.2.toSuspend then { a.2 with suspended := true, toSuspend := false } else a.2) }

/-! ## Frame boundary: tracking, gains, ages (R46 order 4, R85 to R88) -/

/-- ρ ← ρ + (ΣE ÷ ΣM − ρ) ÷ 16 for a group with qualifying phases (R85). -/
def Grp.track (g : Grp) : Grp :=
  if g.qual && g.sumM != 0 then { g with rho := g.rho + (g.sumE / g.sumM - g.rho) / 16, sumE := 0, sumM := 0, qual := false }
  else { g with sumE := 0, sumM := 0, qual := false }

/-- Move the applied gain by 1/64 of the remaining difference, truncated toward zero to 23 fraction bits (R86). -/
def Grp.slew (g : Grp) (target : Rat) : Grp :=
  let diff := (target * 2 ^ 23 - g.applied) / 64
  let step : Int := if diff < 0 then -((-diff).floor) else diff.floor
  { g with applied := (max 0 ((g.applied : Int) + step)).toNat }

/-- Ratio of a group: ρ ÷ ρ⁰. -/
def Grp.ratio (g : Grp) : Rat := if g.rho0 = 0 then 1 else g.rho / g.rho0

/-- A group's reference pair has failed: over a frame's qualifying phases its reading has not the sign of what the inputs make it, or is
0 (R88; log 102). -/
def Grp.refFailed (g : Grp) : Bool := g.qual && g.sumE != 0 && decide (g.sumE * g.sumM ≤ 0)

/-- A frame of `len` ns adds to an array's age at its flock's band; at 720 h it is due (R88). -/
def Dev.ageFrame (d : Dev) (a len : Nat) : Dev :=
  let band := sgetD d.thm.band (a / 17 / 128) 0
  d.modArr a fun x =>
    let x := { x with age := x.age + len * ageWeight7 band }
    if x.role = 0 && x.refs && !x.due && decide (720 ≤ x.hours) then { x with due := true, dueAge := x.age } else x

/-- The boundary's work on one array, a frame of `len` ns having ended. A qualifying phase within the drift limits proves it (R403). -/
def Dev.arrayBoundary (d : Dev) (a len : Nat) : Dev :=
  let x := d.arr a
  if x.role = 3 then d
  else
    let broken := x.groups.any fun g => g.2.refFailed
    let qual := x.groups.any fun g => g.2.qual
    let d := d.modArr a fun x => { x with groups := x.groups.map fun g => (g.1, g.2.track) }
    let d := (d.ageFrame a len).modArr a fun x =>
      { x with groups := x.groups.map fun g => (g.1, g.2.slew (d.gTarget a g.1)) }
    let x := d.arr a
    let off (lo hi : Rat) : Bool := x.groups.any fun g => g.2.ratio < lo || hi < g.2.ratio
    let d := if x.role = 0 && off (94 / 100) (106 / 100) && x.refs then
        d.modArr a fun x => { x with due := true, dueRho := true, dueAge := if x.due then x.dueAge else x.age }
      else d
    let bad := broken || off (8 / 10) (125 / 100)
    let d := if qual && !bad then d.modArr a fun x => { x with provedAt := d.tile.frames } else d
    if x.role = 0 && x.refs && bad then d.failPrincipal 0x0203 a [] none 0 else d

/-- Every listed array at a boundary; one more frame has passed for all. -/
def Dev.arraysBoundary (d : Dev) (len : Nat) : Dev :=
  d.tile.arrs.foldl (fun d e => d.arrayBoundary e.1 len) (d.modTile fun t => { t with frames := t.frames + 1 })

/-- The last frame before frames stop adds to the ages as every frame does. -/
def Dev.agesEnd (d : Dev) (len : Nat) : Dev := d.tile.arrs.foldl (fun d e => if (d.arr e.1).role = 3 then d else d.ageFrame e.1 len) d

/-! ## Section writes that fail (R295, R306) -/

/-- The arrays that a section load was writing stop: one that was being programmed is incomplete (R296), an understudy waits for its
reset, one that had not started keeps its levels. -/
def Tile.dropLoads (t : Tile) : Tile :=
  { t with arrs := t.arrs.map fun a =>
      match a.2.job with
      | some (.load _) =>
        if a.2.role = 2 then (a.1, { a.2 with pstate := 0, job := some .reset, toMeasure := 0 })
        else if a.2.record then (a.1, { a.2 with pstate := 5, job := none, incomplete := true, toMeasure := 0 })
        else (a.1, { a.2 with pstate := 0, job := none })
      | _ => a }

/-- A weight command in progress ends with its script (R317; log 121). -/
def Dev.dropWeights (d : Dev) : Dev :=
  let d := (d.modTile Tile.dropLoads).modWts fun w => { w with own := [], ownBegun := [], toCount := [] }
  if d.wts.job.isSome then (d.modWts fun w => { w with job := none, err := true, cause := 11 }).event .weights else d

/-- A section cannot be written: under the curtain the device fails it, otherwise the running command or the promotion does (R295,
R306). -/
def Dev.wtFail (d : Dev) (cause : Nat) : Dev :=
  let d := d.modTile Tile.dropLoads
  if d.stUnder == .curtain then (d.modWts fun w => { w with failed := true, err := true, cause := cause }).event .weights
  else (d.modWts fun w => { w with job := none, own := [], ownBegun := [], err := true, cause := cause }).event .weights

/-- An understudy that reached 50,000 as it was to take a slot is retired instead (R297), and leaves its tile without one (R295, R301). -/
def Dev.wornOut (d : Dev) (a : Nat) (j : ProgJob) : Dev :=
  if (d.arr a).role != 3 then d
  else match j with
    | .replacement s => d.tileSuspect 0x0208 (a / 17) s
    | .load s => (d.tileSuspect 0x020C (a / 17) s).wtFail 10
    | _ => d

/-! ## Refresh and replacement -/

/-- Layer that the placement table gives a slot of this device (R281, R323). -/
def Dev.slotLayer (d : Dev) (tile slot : Nat) : Option Nat :=
  let c := d.coord
  match d.scr.script with
  | some sc =>
    (sc.placement.find? fun p => p.x == c.x.toNat && p.y == c.y.toNat && p.tile == tile && (p.slot == slot || (p.w8 && p.slot + 1 == slot))).map
      PlaceEnt.layer
  | none => none

/-- The census of a slot can be drawn on: readable, and its layer not held by CENSUS_BAD (R204, R310). -/
def Dev.censusUsable (d : Dev) (tile slot : Nat) : Bool :=
  !d.tile.censusBad.contains (16 * tile + slot) &&
    (match d.slotLayer tile slot with | some l => !d.tile.heldLayers.contains l | none => true)

/-- Array programming proceeds: not in FROZEN, and only where arrays are programmed (R469, R293). -/
def Dev.progRuns (d : Dev) : Bool :=
  d.coreRuns && !d.dbg.frozen && (d.sys.st == .ready || d.sys.st == .playing || d.sys.st == .curtain)

/-- A refresh or a reset of an understudy, as R299 means them. -/
def Arr.soft (x : Arr) : Bool := match x.job with | some (.refresh _) | some .reset | some (.prove _) => true | _ => false

/-- A due principal whose refresh could start (R298 order 1). -/
def Dev.refreshable (d : Dev) (a : Nat) : Bool :=
  let x := d.arr a
  x.due && x.role == 0 && !x.failed && d.placeFree (a / 17 / 128) && d.censusUsable (a / 17) x.pslot &&
    (match d.tile.understudy (a / 17) with | some u => (d.arr u).role == 1 | none => false)

/-- One refresh comes before another (R299): due by ρ ÷ ρ⁰, then by greatest AGE, then by tile. -/
def Dev.refreshBefore (d : Dev) (a b : Nat) : Bool :=
  let x := d.arr a
  let y := d.arr b
  if x.dueRho != y.dueRho then x.dueRho else if !x.dueRho && x.age != y.age then decide (y.age < x.age) else decide (a / 17 < b / 17)

/-- REFRESH_START (R298 order 1): the due principal's slot is programmed into the free understudy. In PLAYING the place goes to the first
refresh of R299's order. -/
def refreshStart (tile array : Nat) (vprogOk : Bool) (d : Dev) : Dev :=
  let a := 17 * tile + array
  let others := d.tile.arrs.any fun e => d.refreshable e.1 && d.refreshBefore e.1 a
  match d.tile.understudy tile with
  | none => d
  | some u =>
    if !d.progRuns || d.sys.st == .curtain || d.tile.hold || !d.refreshable a || (d.sys.st == .playing && others) then d
    else
      let d := d.sampleVprog vprogOk
      if vprogOk then (d.modArr u fun y => { y with role := 2 }).startProg u (.refresh (d.arr a).pslot) else d

def execRefreshStart (tile : BitVec 13) (array : Fin 17) (vprogOk : Bool) (s : State) : Host.Outcome State Fault Refusal :=
  s.onDev (refreshStart tile.toNat array.val vprogOk)

/-- A programming pauses at the row it has reached, which no command brings (R299; log 101). -/
def Dev.pauseProg (d : Dev) (a : Nat) : Dev :=
  (d.modArr a fun x => { x with pstate := 2, row := max x.row (Config.rowReached d.freeCtr).toNat }).useFree 1

/-- Pause the most recently started refresh or reset of the flock, or of the device (R299). -/
def Dev.pauseOne (d : Dev) (flock : Nat) : Dev :=
  let pick (l : List Nat) : Option Nat :=
    (l.filter fun a => (d.arr a).soft).foldl (fun (b : Option Nat) a => match b with
      | some y => if (d.arr y).started ≤ (d.arr a).started then some a else some y
      | none => some a) none
  match (pick (d.tile.activeFlock flock)).orElse fun _ => pick d.tile.active with
  | some a => (d.pauseProg a).progCount 3
  | none => d

/-- A place for a replacement: a free one, or that of a paused refresh or reset (R299). -/
def Dev.makePlace (d : Dev) (flock : Nat) : Dev := if d.placeFree flock then d else d.pauseOne flock

/-- The slot's refresh goes on as its replacement, from the row it had reached (R301). -/
def Dev.refreshReplaces (d : Dev) (u slot : Nat) : Dev :=
  let d := d.modArr u fun y => { y with job := some (.replacement slot) }
  if (d.arr u).pstate != 2 then d
  else
    let d := d.makePlace (u / 17 / 128)
    if d.placeFree (u / 17 / 128) then d.modArr u fun y => { y with pstate := 1 } else d

/-- REPLACEMENT_START (R300, R301): the understudy, whose refresh or reset of another array is abandoned, is programmed for the failed
slot. -/
def replacementStart (tile array : Nat) (vprogOk : Bool) (d : Dev) : Dev :=
  let a := 17 * tile + array
  let slot := (d.arr a).pslot
  match d.tile.understudy tile with
  | none => d
  | some u =>
    if !d.progRuns || (d.arr a).role != 0 || !(d.arr a).failed then d
    else
      match (d.arr u).job with
      | some (.replacement _) => d
      | job =>
        if job = some (.refresh slot) then d.refreshReplaces u slot
        else if !d.censusUsable tile slot then d
        else
          let d := d.sampleVprog vprogOk
          if !vprogOk then d
          else
            let d := if (d.arr u).pstate = 1 then d else d.makePlace (tile / 128)
            if (d.arr u).pstate != 1 && !d.placeFree (tile / 128) then d
            else
              let d := if (d.arr u).role = 2 then (d.progCount 2).modTile fun t => { t with degraded := setIns t.degraded tile } else d
              ((d.modArr u fun y => { y with role := 2 }).startProg u (.replacement slot)).wornOut u (.replacement slot)

def execReplacementStart (tile : BitVec 13) (array : Fin 17) (vprogOk : Bool) (s : State) : Host.Outcome State Fault Refusal :=
  s.onDev (replacementStart tile.toNat array.val vprogOk)

/-! ## Places (R293, R299) -/

/-- A waiting programming starts: VDD_PROG is sampled, and a failed row is mapped to a spare first (R99, a calibration write of R21). -/
def Dev.startWaiting (d : Dev) (a : Nat) (j : ProgJob) : Dev :=
  let low := Config.vprogLow d.freeCtr
  let d := (d.useFree 1).sampleVprog (!low)
  let x := d.arr a
  if low then d
  else match j, x.failedRow with
    | .prove _, some r =>
      let (d, ok) := d.calWrite fun d => (d.modArr a fun x => { x with rowMap := x.rowMap ++ [(r, 512 + x.rowMap.length)], failedRow := none }).progCount 5
      if ok then d.startProg a j else d
    | _, _ => (d.startProg a j).wornOut a j

/-- Programmings that are paused or wait for a place, in the order of R299: section loads, replacements, refreshes by ρ, refreshes by
AGE, resets. -/
def Dev.waiting (d : Dev) : List Nat :=
  let on (p : Arr → Bool) : List Nat := d.tile.arrs.filterMap fun e => if (e.2.pstate == 2 || (e.2.pstate == 0 && e.2.job.isSome)) && p e.2 then some e.1 else none
  let age (a : Nat) : Nat := match (d.arr a).job with
    | some (.refresh s) => match d.tile.holder (a / 17) s with | some o => (d.arr o).age | none => 0
    | _ => 0
  let byRho (a : Nat) : Bool := match (d.arr a).job with
    | some (.refresh s) => match d.tile.holder (a / 17) s with | some o => (d.arr o).dueRho | none => false
    | _ => false
  let refreshes := on fun x => match x.job with | some (.refresh _) => true | _ => false
  (on fun x => match x.job with | some (.load _) => true | _ => false) ++
    (on fun x => match x.job with | some (.replacement _) => true | _ => false) ++ refreshes.filter byRho ++
    ((refreshes.filter fun a => !byRho a).mergeSort fun a b => decide (age b ≤ age a)) ++
    on fun x => match x.job with | some .reset | some (.prove _) => true | _ => false

/-- Free places are given out: a paused programming goes on from its row, a waiting one starts; HOLD lets no reset start, and no reset
runs under the curtain (R299, R304 order 2). -/
def Dev.resumePaused (d : Dev) : Dev :=
  d.waiting.foldl (fun d a =>
    let x := d.arr a
    if !d.placeFree (a / 17 / 128) || (x.soft && d.sys.st == .curtain) then d
    else if x.pstate = 2 then d.modArr a fun x => { x with pstate := 1 }
    else match x.job with
      | some j => if x.soft && d.tile.hold then d else d.startWaiting a j
      | none => d) d

/-! ## Verify reads and their outcome (R292, R295, R303) -/

/-- After the last row verified: the record is cleared and ρ⁰ measured, at once while frames do not run a cue sheet over the
arrays, otherwise in rehearsal slots (R294, R296). -/
def Dev.progVerified (d : Dev) (a : Nat) (key : Nat) : Dev :=
  let d := d.modTile fun t => t.writeCells a key
  let d := d.modArr a fun x =>
    { x with record := false, incomplete := false, pstate := 3, toMeasure := 16,
             groups := x.groups.map fun g => (g.1, { g.2 with mE := 0, mM := 0 }) }
  if d.stUnder == .playing then d else d.measureAll a

/-- A slot's principal is written in place (R288, R295): its gains start, under the curtain when it rises (R304 order 8). -/
def Dev.loadVerified (d : Dev) (a slot : Nat) : Dev :=
  let d := d.progVerified a (16 * (a / 17) + slot)
  if (d.arr a).role != 0 then d.roleSwaps
  else if d.stUnder == .curtain then d.modArr a fun x => { x with newGain := true }
  else d.startGains a

/-- Target level of a cell of a logical row (R64, R84): the census of the slot for a weight pair, +6 and −6 in turn for reference pairs;
0 for a reset. -/
def Dev.targetLevel (d : Dev) (j : ProgJob) (tile row col : Nat) (minus : Bool) : Nat :=
  let of (slot : Nat) : Nat :=
    let b : Nat := if col < 512 then (rd1 d.tile.census ((16 * tile + slot) * 2 ^ 18 + 512 * row + col)).toNat
      else if (col - 512) % 2 = 0 then 6 else 48
    if minus then b / 8 % 8 else b % 8
  match j with
  | .load s | .refresh s | .replacement s | .prove s => of s
  | .reset => 0

/-- A reading lies outside the window of its level (R63): windows apply in band A, so a reading is first brought there by the flock's
drift-correction coefficient of its group (R292; log 103). -/
def Dev.outOfWindow (d : Dev) (a : Nat) (j : ProgJob) (row : Nat) (c : Nat × Bool × Nat) : Bool :=
  let w := verifyWindow (d.targetLevel j (a / 17) row c.1 c.2.1)
  let f := a / 17 / 128
  let g : Rat := c.2.2 * Config.driftCoeff f (sgetD d.thm.band f 0) (if c.1 < 512 then c.1 / 32 else c.1 - 512)
  decide (g < w.1) || decide ((w.2 : Rat) < g)

/-- The first row with a cell out of its window. -/
def Dev.openRow (d : Dev) (a : Nat) (j : ProgJob) (rows : List RowVerify) : Option RowVerify :=
  rows.find? fun r => r.cells.any (d.outOfWindow a j r.row.toNat)

/-- Every row of the array is in its windows (R292): a slot's array is measured, a proved array is reset, a reset one is the free
understudy (R298 order 4, R303). -/
def Dev.progDone (d : Dev) (a : Nat) (j : ProgJob) : Dev :=
  let tile := a / 17
  match j with
  | .refresh s | .replacement s => d.progVerified a (16 * tile + s)
  | .load s => d.loadVerified a s
  | .prove s => (d.modTile fun t => t.writeCells a (16 * tile + s)).startProg a .reset
  | .reset =>
    let d := (d.modTile fun t => { t with cells := sclear t.cells (cellKey a 0 0) (cellKey (a + 1) 0 0) }).progCount 8
    d.modArr a fun x =>
      { x with role := 1, pstate := 0, job := none, record := false, refs := false, failed := false, failedRow := none, groups := [] }

/-- A row failed and no spare is left (R100, R295, R301): the array is retired; a slot written in place goes to the tile's understudy, and
without a usable one the tile is unit-suspect and the load or curtain fails. -/
def Dev.noSpare (d : Dev) (a row : Nat) (j : ProgJob) : Dev :=
  let tile := a / 17
  match j with
  | .replacement s => (d.retire a).tileSuspect 0x0208 tile s
  | .load s =>
    match d.tile.understudy tile with
    | some u =>
      if (d.arr u).role = 1 && (d.arr a).role = 0 then
        let d := d.modArr a fun x => { x with pstate := 5, job := none, incomplete := true, failedRow := some row }
        ((d.modArr u fun y => { y with role := 2 }).startProg u (.load s)).wornOut u (.load s)
      else ((d.retire a).tileSuspect 0x020C tile s).wtFail 10
    | none => ((d.retire a).tileSuspect 0x020C tile s).wtFail 10
  | _ => d.retire a

/-- A row failed after 16 iterations (R292, R295): it is mapped to a free spare, a calibration write of R21, and the array is programmed
again; a write that fails its check leaves the row to fail again. -/
def Dev.rowFailed (d : Dev) (a row : Nat) (j : ProgJob) : Dev :=
  let d := d.arrayError 0x0204 2 a [] (some row) 0 true
  if (d.arr a).rowMap.length < 8 then
    let (d, ok) := d.calWrite fun d => (d.modArr a fun x => { x with rowMap := x.rowMap ++ [(row, 512 + x.rowMap.length)] }).progCount 5
    if ok then d.startProg a j else d.modArr a fun x => { x with row := row }
  else d.noSpare a row j

/-- ARRAY_PROGRAM_DONE (R292): the verify reads of a programming. A row still out of its windows before its sixteenth iteration is where
the programming stands. -/
def arrayProgramDone (tile array : Nat) (rows : List RowVerify) (d : Dev) : Dev :=
  let a := 17 * tile + array
  let x := d.arr a
  match x.job with
  | none => d
  | some j =>
    if !d.progRuns || x.pstate != 1 then d
    else match d.openRow a j rows with
      | none => (d.progDone a j).resumePaused
      | some r =>
        if r.iters < 16 then d.modArr a fun x => { x with row := r.row.toNat }
        else (d.rowFailed a r.row.toNat j).resumePaused

def execArrayProgramDone (tile : BitVec 13) (array : Fin 17) (rows : List RowVerify) (s : State) : Host.Outcome State Fault Refusal :=
  s.onDev (arrayProgramDone tile.toNat array.val rows)

/-- ARRAY_RESET_DONE (R298 order 4, R303): the reset that runs is complete, and the array is the free understudy at level 0; any other
outcome retires it. -/
def arrayResetDone (tile array : Nat) (ok : Bool) (d : Dev) : Dev :=
  let a := 17 * tile + array
  let x := d.arr a
  if !d.progRuns || x.pstate != 1 || x.job != some .reset then d
  else (if ok then d.progDone a .reset else d.retire a).resumePaused

def execArrayResetDone (tile : BitVec 13) (array : Fin 17) (ok : Bool) (s : State) : Host.Outcome State Fault Refusal :=
  s.onDev (arrayResetDone tile.toNat array.val ok)

/-- TRACK_STALE (R87): an array without a qualifying phase for 1,048,576 frames. -/
def trackStale (tile array : Nat) (d : Dev) : Dev :=
  let a := 17 * tile + array
  let x := d.arr a
  if !d.up || d.idle a < 1048576 || x.stale || x.role == 3 then d
  else
    let d := (d.modArr a fun x => { x with stale := true }).arrayError 0x0202 0 a [] none 0 false
    if x.role = 0 && d.exactOn (16 * tile + x.pslot) then d.exactFail 5 else d

def execTrackStale (tile : BitVec 13) (array : Fin 17) (s : State) : Host.Outcome State Fault Refusal :=
  s.onDev (trackStale tile.toNat array.val)

/-- OVERDUE (R302): 24 band-A-equivalent hours after REFRESH_DUE. -/
def overdue (tile array : Nat) (d : Dev) : Dev :=
  let a := 17 * tile + array
  let x := d.arr a
  if !d.up || !x.due || x.overdue || x.age < x.dueAge + 24 * 7 * 3600 * 1000000000 then d
  else ((d.modArr a fun x => { x with overdue := true }).progCount 6).arrayError 0x0209 0 a [] none 0 false

def execOverdue (tile : BitVec 13) (array : Fin 17) (s : State) : Host.Outcome State Fault Refusal :=
  s.onDev (overdue tile.toNat array.val)

/-- TILE_PROG_CLR (R312). -/
def tileProgClr (d : Dev) : Dev :=
  if d.up then (d.modTile fun t => { t with progCnt := [] }).modWts fun w => { w with hcFound := 0 } else d
def execTileProgClr (s : State) : Host.Outcome State Fault Refusal := s.onDev tileProgClr

end Sys2Proof.Machine
end

