-- ==== Sys2Proof/Machine/Pages.lean ====
section
/-! DEFINITION. KV pages: shares (R253, R499), page tables and headers (R256 to R260), allocation and release (R261 to R263),
claims (R255, R261), and the command lane (R254, R344). -/
namespace Sys2Proof.Machine

/-! ## Shares -/

def KvDev.key (k : KvDev) : Nat := 16 * k.y + k.x
/-- Positions per page (R256). -/
def KvDev.tpg (k : KvDev) : Nat := max 1 (64512 / k.e)

def Script.kvDev (sc : Script) (key : Nat) : Option KvDev := sc.kvDevs.find? fun k => k.key == key
/-- KV-owning devices. -/
def Script.kvOwners (sc : Script) : List KvDev := sc.kvDevs.filter fun k => k.lk != 0
/-- Index of a device's record, which numbers its word in a share row (R499). -/
def Script.kvIndex (sc : Script) (key : Nat) : Option Nat := sc.kvDevs.findIdx? fun k => k.key == key
/-- A device is an entry device: its share is non-zero on every KV-owning device (R499). -/
def Script.isEntry (sc : Script) (key : Nat) : Bool :=
  match sc.kvIndex key with
  | some i => sc.kvOwners.all fun k => k.shares.getD i 0 != 0
  | none => false

def coordKey (c : Coord) : Nat := 16 * c.y.toNat + c.x.toNat
def keyCoord (k : Nat) : Coord := ⟨BitVec.ofNat 4 (k % 16), BitVec.ofNat 4 (k / 16)⟩

def Dev.owners (d : Dev) : List KvDev := match d.scr.script with | some sc => sc.kvOwners | none => []
/-- This device's record, when it owns KV. -/
def Dev.ownKv (d : Dev) : Option KvDev := d.owners.find? fun k => k.key == coordKey d.coord
def Dev.kvLayout (d : Dev) : Nat := match d.scr.script with | some sc => sc.hdr.layout | none => 0
def Dev.kvIndex (d : Dev) (c : Coord) : Option Nat := match d.scr.script with | some sc => sc.kvIndex (coordKey c) | none => none

/-- Model layers this device owns, in ascending order (R260, R499). -/
def Dev.localLayers (d : Dev) : List Nat :=
  match d.scr.script with
  | some sc => (sc.kvLayers.filter fun l => 16 * l.y + l.x == coordKey d.coord).map KvLayer.layer
  | none => []

/-- First page and size of the share of device record i: shares lie one after another in record order (log 31). -/
def KvDev.share (k : KvDev) (i : Nat) : Nat × Nat := ((k.shares.take i).sum, k.shares.getD i 0)

/-- A page is not free: held, awaiting its zeroing, or withdrawn. -/
def Kv.busy (v : Kv) (p : Nat) : Bool := sgetD v.refs p 0 != 0 || v.zeroing.contains p || v.withdrawn.contains p

/-- Free pages of a share (R255, R263). -/
def Dev.freePages (d : Dev) (k : KvDev) (i : Nat) : Nat :=
  let r := k.share i
  let inside (p : Nat) : Bool := decide (r.1 ≤ p) && decide (p < r.1 + r.2)
  let held := ((d.kv.refs.filter fun e => e.2 != 0).map Prod.fst ++ d.kv.zeroing ++ d.kv.withdrawn).dedup.filter inside
  r.2 - held.length

/-- Take the lowest-numbered free page of a share (log 31). -/
def Dev.allocPage (d : Dev) (k : KvDev) (i : Nat) : Option (Nat × Dev) :=
  let r := k.share i
  match ((List.range r.2).map (r.1 + ·)).find? fun p => !d.kv.busy p with
  | some p => some (p, d.modKv fun v => { v with refs := sput v.refs p 1 })
  | none => none

/-! ## Page tables (R259, R260) and headers (R257) -/

/-- Table pages that a number of data pages needs. -/
def tablesFor (n : Nat) : Nat := ceilDiv n 16384

/-- The table page behind ROOT[n]. -/
def Dev.root (d : Dev) (s n : Nat) : Option Nat :=
  let v := d.ses s (0x540 + 4 * n)
  if bit v 31 then some (fld v 0 21) else none

/-- The page of table entry i. -/
def Dev.tableEntry (d : Dev) (s i : Nat) : Option Nat :=
  match d.root s (i / 16384) with
  | some t =>
    let v := leNat (d.hbmRd (kvPage t + 4 * (i % 16384)) 4)
    if bit v 31 then some (fld v 0 21) else none
  | none => none

/-- Set table entry i, with a new table page when it has none. -/
def Dev.setEntry (d : Dev) (k : KvDev) (idx s i p : Nat) : Dev :=
  let put (d : Dev) (t : Nat) : Dev := d.hbmWr (kvPage t + 4 * (i % 16384)) (leBytes 4 (p + 2 ^ 31))
  match d.root s (i / 16384) with
  | some t => put d t
  | none =>
    match d.allocPage k idx with
    | some (t, d) => put (d.setSes s (0x540 + 4 * (i / 16384)) (t + 2 ^ 31)) t
    | none => d

/-- What a page header says of its session and step. -/
structure PageCtx where
  session : Nat
  tenant : Nat
  epoch : Nat

/-- The 1 KiB header of the page with table index i (R257). -/
def Dev.pageHeader (d : Dev) (k : KvDev) (c : PageCtx) (i : Nat) : List Byte :=
  let layer := d.localLayers.getD (i % max 1 k.lk) 0
  ([0x4B56, d.kvLayout, c.session, c.tenant + 16 * layer, c.epoch, i / max 1 k.lk * k.tpg, k.e + 65536 * k.tpg, i].flatMap
    (leBytes 4)) ++ List.replicate 992 0

/-- Blocks and pages the session holds here. -/
def Dev.blocks (d : Dev) (s : Nat) : Nat := d.sesF s 0x508 0 18
def Dev.dataPages (d : Dev) (k : KvDev) (s : Nat) : List (Nat × Nat) :=
  (List.range (d.blocks s * k.lk)).filterMap fun i => (d.tableEntry s i).map fun p => (i, p)
def Dev.rootPages (d : Dev) (s : Nat) : List Nat := (List.range 16).filterMap (d.root s)

/-- Pages that holding `n` blocks asks for beyond those held. -/
def KvDev.need (k : KvDev) (held n : Nat) : Nat := (n - held) * k.lk + (tablesFor (n * k.lk) - tablesFor (held * k.lk))

/-- MIRROR bit in HELD of a session, live while no call is in progress (R274; log 23). -/
def Dev.mirrorOf (d : Dev) (entry : Coord) (s : Nat) : Bool :=
  if entry == d.coord then bit (d.callWord s 0 (sget d.call.calls s).isSome) 1 else Config.remoteMirror entry.x.toNat entry.y.toNat s

/-- Allocate every page up to `n` blocks with its header, or nothing (R258, R261). -/
def Dev.growTo (d : Dev) (k : KvDev) (idx n : Nat) (c : PageCtx) : Option Dev :=
  let s := c.session
  let held := d.blocks s
  if n ≤ held then some d
  else if d.freePages k idx < k.need held n then none
  else
    let d := (List.range ((n - held) * k.lk)).foldl (fun d j =>
      let i := held * k.lk + j
      match d.allocPage k idx with
      | some (p, d) => (d.setEntry k idx s i p).hbmWr (kvPage p) (d.pageHeader k c i)
      | none => d) d
    let d := d.setSes s 0x508 n
    some (d.setSes s 0x504 (n * k.lk + tablesFor (n * k.lk)))

/-- Lower a page's reference count; at 0 it waits to be zeroed, unless withdrawn (R263, R278). -/
def Dev.dropPage (d : Dev) (p : Nat) : Dev :=
  let n := sgetD d.kv.refs p 0
  d.modKv fun v =>
    if n ≤ 1 then { v with refs := sdel v.refs p, zeroing := if v.withdrawn.contains p || n = 0 then v.zeroing else setIns v.zeroing p }
    else { v with refs := sput v.refs p (n - 1) }

/-- Release a session's pages here (R262, R263). -/
def Dev.releaseKv (d : Dev) (k : KvDev) (s : Nat) : Dev :=
  let ps := (d.dataPages k s).map Prod.snd ++ d.rootPages s
  let d := ps.foldl Dev.dropPage d
  d.hbmWr (sesAddr s 0x504) (List.replicate 124 0)

/-! ## Claims on the entry device (R255, R261) -/

/-- FREE_d: an unlisted device's is its share's size (R255). -/
def Dev.freeOf (d : Dev) (k : KvDev) : Nat :=
  match sget d.kv.free k.key with
  | some n => n
  | none => match d.kvIndex d.coord with | some i => k.shares.getD i 0 | none => 0

/-- Blocks a session holds on a device: BLOCKS of the entry here, elsewhere what its entry device's completed claims allocated
(R261; log 104). -/
def Dev.heldBlocks (d : Dev) (k : KvDev) (s : Nat) : Nat :=
  if k.key = coordKey d.coord then d.blocks s else ceilDiv (sgetD d.kv.reach s 0) k.tpg

/-- The claim on device k for positions below `n` (R261); a swap-in claims every block anew (R270). -/
def Dev.claimOn (d : Dev) (k : KvDev) (s n : Nat) (anew : Bool) : Nat := k.need (if anew then 0 else d.heldBlocks k s) (ceilDiv n k.tpg)

/-- A claim fits every share (R261 check 11). -/
def Dev.claimFits (d : Dev) (s n : Nat) (lead anew : Bool) : Bool :=
  d.owners.all fun k =>
    let c := d.claimOn k s n anew
    if lead then decide (c ≤ d.freeOf k) else decide (c + d.kv.leadRes.toNat ≤ d.freeOf k)

/-- A passed check debits FREE_d (R261). -/
def Dev.debit (d : Dev) (s n : Nat) (anew : Bool) : Dev :=
  let d' := d.owners.foldl (fun (e : Dev) k =>
    let c := d.claimOn k s n anew
    e.modKv fun v => { v with free := sput v.free k.key (d.freeOf k - c), claims := smod v.claims k.key 0 (· + c) }) d
  d'.modKv fun v => { v with reach := smod v.reach s 0 fun r => max r n }

/-- FREE in a reply: less what the scan of the open frame has claimed (R255, log 32). Committed swap-outs of earlier frames are in
it (log 95): `late` marks a FREE reply, sent at the boundary before the open frame. -/
def Dev.takeFree (d : Dev) (late : Bool) (m : KvMsg) : Dev :=
  let key := coordKey m.src
  d.modKv fun v => { v with free := sput v.free key (m.free.toNat - sgetD v.claims key 0),
                            coming := v.coming.filter fun c => c.1 != key || decide (d.frm.frame ≤ c.2.1 + late.toNat) }

/-- A step ended without its KV being sure: its session holds what it held before the step's claim (R261; log 104). -/
def Dev.claimBack (d : Dev) (x : Step) : Dev :=
  d.modKv fun v =>
    if (sget v.reach x.session).isNone then v
    else { v with reach := if x.reach = 0 then sdel v.reach x.session else sput v.reach x.session x.reach }

/-- Positions of a session that every KV-owning device confirmed, as its entry device sees it; a device whose mirror was lost is not
awaited (R274, R275; log 34). -/
def Kv.setMirrored (v : Kv) (s : Nat) (devs : List Nat) (f : Nat → Nat) : Kv :=
  { v with mirrored := devs.foldl (fun m k => smod m (256 * s + k) 0 f) v.mirrored }

/-! ## Command lane (R254, R344) -/

def isReply (op : Byte) : Bool := decide (0x80 ≤ op.toNat)

/-- CMD of the header. -/
def Dev.cmdLimit (d : Dev) : Nat := match d.scr.script with | some sc => max 1 sc.hdr.cmd | none => 1

/-- Messages sent in this frame, counted apart for commands and replies. -/
def laneKey (dst : Nat) (op : Byte) : Nat := dst + if isReply op then 256 else 0
def Dev.laneRoom (d : Dev) (dst : Nat) (op : Byte) : Bool :=
  decide (sgetD d.kv.sent (laneKey dst op) 0 < d.cmdLimit) &&
    !d.kv.lane.any fun m => m.1 == dst && isReply m.2.1 == isReply op

/-- Put a message on the lane; a reply carries the free pages of the receiver's share (R255). -/
def Dev.kvEmit (d : Dev) (dst : Nat) (op : Byte) (m : KvMsg) : Dev :=
  let free := if isReply op then
      match d.ownKv, d.kvIndex (keyCoord dst) with
      | some k, some i => d.freePages k i
      | _, _ => 0
    else 0
  (d.modKv fun v => { v with sent := smod v.sent (laneKey dst op) 0 (· + 1) }).emit
    (.kv (keyCoord dst) op { m with src := d.coord, free := BitVec.ofNat 21 free })

/-- Send a message now, or when the lane has room (R254). -/
def Dev.kvSend (d : Dev) (dst : Nat) (op : Byte) (m : KvMsg) : Dev :=
  if d.laneRoom dst op then d.kvEmit dst op m else d.modKv fun v => { v with lane := v.lane ++ [(dst, op, m)] }

/-- A new frame: the lane is free again, and waiting messages go first. -/
def Dev.laneOpen (d : Dev) : Dev :=
  let l := d.kv.lane
  l.foldl (fun d m => d.kvSend m.1 m.2.1 m.2.2) (d.modKv fun v => { v with sent := [], lane := [] })

/-- At a frame's end, FREE goes to every entry device that got no reply in it (R344). -/
def Dev.laneFree (d : Dev) : Dev :=
  match d.ownKv, d.scr.script with
  | some k, some sc =>
    sc.kvDevs.zipIdx.foldl (fun d e =>
      if k.shares.getD e.2 0 != 0 && sgetD d.kv.sent (laneKey e.1.key 0x89) 0 == 0 then
        d.kvSend e.1.key 0x89 ⟨0, d.coord, 0, 0, 0, 0, 0, 0, 0⟩
      else d) d
  | _, _ => d

/-- A message about a session, with its fields as the entry device holds them. -/
def Dev.sesMsg (d : Dev) (s : Nat) : KvMsg :=
  { tag := BitVec.ofNat 8 d.kv.tag, src := d.coord, session := BitVec.ofNat 20 s, tenant := BitVec.ofNat 4 (d.sesF s 0 4 4),
    epoch := BitVec.ofNat 16 (d.sesF s 0x20C 0 16), pos := BitVec.ofNat 24 (d.sesF s 0x204 0 24), target := 0, free := 0, cause := 0 }

/-- Send a command to every KV-owning device, under one tag. -/
def Dev.toOwners (d : Dev) (op : Byte) (m : KvMsg) : Dev :=
  let d' := d.owners.foldl (fun d k => d.kvSend k.key op m) d
  d'.modKv fun v => { v with tag := (v.tag + 1) % 256 }

/-- Reply to a command. -/
def Dev.kvReply (d : Dev) (m : KvMsg) (op : Byte) (cause : Nat) : Dev :=
  d.kvSend (coordKey m.src) op { m with cause := BitVec.ofNat 8 cause, pos := 0 }

/-! ## Release on the entry device (R262) -/

/-- RELEASE to every KV-owning device; the replies are awaited. -/
def Dev.releaseSession (d : Dev) (s : Nat) : Dev :=
  let d := d.modKv fun v => { v with reach := sdel v.reach s, shared := sdel v.shared s,
                                     mirrored := v.mirrored.filter fun e => e.1 / 256 != s,
                                     releases := if d.owners.isEmpty then v.releases else sput v.releases s (d.owners.map KvDev.key) }
  d.toOwners 0x05 (d.sesMsg s)

end Sys2Proof.Machine
end

