-- ==== Sys2Proof/Machine/Kv.lean ====
section
/-! DEFINITION. KV messages and commands: swaps (R269 to R273), release (R262, R263), fork (R264, R265), mirror (R274 to R277),
page errors (R278), pre-emption (R266, R267), the drain's swap-outs (R409), host commands (R280). A message's meaning is what
the device does when the message takes effect (R254, log 33). -/
namespace Sys2Proof.Machine

/-- A KV message about a session: what it does on this device, when it owns KV and knows the sender's share. -/
def Dev.onOwner (d : Dev) (m : KvMsg) (f : KvDev → Nat → Dev → Dev) : Dev :=
  if !d.up then d
  else
    match d.ownKv, d.kvIndex m.src with
    | some k, some i => f k i d
    | _, _ => d

/-! ## Errors in KV pages (R278) -/

/-- Entry device of a session that holds pages here: the device whose share they come from (R253). -/
def Dev.entryOf (d : Dev) (k : KvDev) (p : Nat) : Option Nat :=
  match d.scr.script with
  | some sc =>
    (sc.kvDevs.zipIdx.find? fun e => let r := k.share e.2; decide (r.1 ≤ p) && decide (p < r.1 + r.2)).map fun e => e.1.key
  | none => none

/-- A message to a session's entry device that answers no command. -/
def Dev.kvNotice (d : Dev) (k : KvDev) (s : Nat) (op : Byte) (pos : Nat) : Dev :=
  match (d.rootPages s).head?.bind (d.entryOf k) with
  | some e => d.kvSend e op ⟨0, d.coord, BitVec.ofNat 20 s, 0, 0, BitVec.ofNat 24 pos, 0, 0, 0⟩
  | none => d

/-- Sessions that hold blocks on this device. -/
def Dev.kvSessions (d : Dev) : List Nat :=
  ((d.mem.hbm.filterMap fun c =>
    if c.1 < 0x8000_0000 && 0x508 ≤ c.1 % 2048 && c.1 % 2048 < 0x50C then some (c.1 / 2048) else none).dedup).filter
    fun s => d.blocks s != 0

/-- An uncorrectable codeword in KV page p (R278): recorded, the page withdrawn, every holder's session faulted. -/
def Dev.kvPageBad (d : Dev) (p : Nat) (e : ErrIn) : Dev :=
  match d.ownKv with
  | none => d.raise { e with code := 0x0602, cls := 1, kind := 15 }
  | some k =>
    let holders := d.kvSessions.filter fun s => ((d.dataPages k s).map Prod.snd ++ d.rootPages s).contains p
    let toks := (d.frm.lanes.filter fun l => holders.contains l.2.session).map fun l => l.2.step
    let d := d.contain { e with code := 0x0602, cls := 1, kind := 15, unit := holders.headD 0 } toks
    let d := d.modKv fun v => { v with withdrawn := setIns v.withdrawn p, zeroing := setDel v.zeroing p }
    holders.foldl (fun d s => d.kvNotice k s 0x86 0) d

/-- Pages of a list that hold an uncorrectable codeword, each with the effect of R278; answers the device and whether there was one. -/
def Dev.readPages (d : Dev) (ps : List Nat) : Dev × Bool :=
  let bad := ps.dedup.filter fun p => d.mem.isBad (kvPage p) 65536
  (bad.foldl (fun d p => d.kvPageBad p { code := 0, cls := 1, detail := memDetail 5 (kvPage p) 0 p }) d, !bad.isEmpty)

/-! ## KV-owning device -/

/-- Green room of a session on this device (R259): base, size in pages, present. -/
def Dev.grBase (d : Dev) (s : Nat) : Nat := d.ses s 0x400 + 2 ^ 32 * d.ses s 0x404
def Dev.grSize (d : Dev) (s : Nat) : Nat := d.sesF s 0x408 0 21
def Dev.grOn (d : Dev) (s : Nat) : Bool := d.sesF s 0x40C 0 1 == 1

def Dev.mirrorOk (d : Dev) (s : Nat) : Bool := d.sesF s 0x500 3 1 == 1
def Dev.mirroredTo (d : Dev) (s : Nat) : Nat := d.sesF s 0x510 0 24

/-- A mule transfer failed (R391): counted and recorded. Its host address and completion status come from the host attachment: free
values (R416; log 71). -/
def Dev.muleFailed (d : Dev) : Dev :=
  ((d.dmaCount 4 1).raise { code := 0x0901, cls := 0, kind := 14, detail := (List.range 3).map fun n => Config.freeWord (d.freeCtr + n) }).useFree 3

/-- FAILED cause of a broken transfer (R344). -/
def Dev.transferCause (d : Dev) : Nat := if d.muleUp then 3 else 2

/-- A swap-out has every page in the green room: a stopped mirror may run again, and the entries of a mirrored session are confirmed
(R274, R275). -/
def Dev.mirrorBack (d : Dev) (m : KvMsg) : Dev :=
  let s := m.session.toNat
  let d := d.modKv fun v => { v with mirrorOff := setDel v.mirrorOff s, mirrors := v.mirrors.filter fun p => p.session != s }
  if d.mirrorOf m.src s then (d.setSesF s 0x500 3 1 1).setSes s 0x510 m.pos.toNat else d

/-- SWAP_OUT (R269 order 2). -/
def swapOut (m : KvMsg) (d : Dev) : Dev :=
  d.onOwner m fun k _ d =>
    let s := m.session.toNat
    if !d.grOn s || d.grSize s < d.blocks s * k.lk then d.kvReply m 0x83 1
    else if !d.muleUp then d.kvReply m 0x83 2
    else
      let d := d.setKstate s 2
      let ps := (d.dataPages k s).filter fun p => !(d.mirrorOk s && decide ((p.1 / k.lk + 1) * k.tpg ≤ d.mirroredTo s))
      let (d, bad) := d.readPages (d.rootPages s ++ ps.map Prod.snd)
      if bad then d.kvReply m 0x83 3
      else match ps.getLast? with
      | none => ((d.setKstate s 3).mirrorBack m).kvReply m 0x81 0
      | some last =>
        let d := ps.foldl (fun d p => d.emit (.hostWrite (d.grBase s + 65536 * p.1) (d.hbmRd (kvPage p.2) 65536) true)) d
        let d := (d.dmaCount 2 (1024 * ps.length)).emit (.hostRead (d.grBase s + 65536 * last.1 + 65472) 64)
        d.modKv fun v => { v with own := v.own ++ [(true, m)] }

def execSwapOut (m : KvMsg) (s : State) : Host.Outcome State Fault Refusal := s.onDev (swapOut m)

/-- The running swap of a session here. -/
def Kv.ownOf (v : Kv) (out : Bool) (s : Nat) : Option KvMsg :=
  (v.own.find? fun o => o.1 == out && o.2.session.toNat == s).map Prod.snd
def Kv.dropOwn (v : Kv) (s : Nat) : Kv := { v with own := v.own.filter fun o => o.2.session.toNat != s }

/-- Transfers pause in FROZEN (R272). -/
def Dev.muleRuns (d : Dev) : Bool := d.up && !d.dbg.frozen

/-- SWAP_OUT_WRITTEN (R269 order 3): the read-back of the last 64 B completed, or an error. -/
def swapOutWritten (s : Nat) (ok : Bool) (d : Dev) : Dev :=
  match d.kv.ownOf true s with
  | none => d
  | some m =>
    if !d.muleRuns then d
    else
      let d := d.modKv fun v => v.dropOwn s
      if ok then ((d.setKstate s 3).mirrorBack m).kvReply m 0x81 0
      else d.muleFailed.kvReply m 0x83 d.transferCause

def execSwapOutWritten (session : BitVec 20) (ok : Bool) (s : State) : Host.Outcome State Fault Refusal :=
  s.onDev (swapOutWritten session.toNat ok)

/-- SWAP_IN (R270 order 2). -/
def swapIn (m : KvMsg) (d : Dev) : Dev :=
  d.onOwner m fun k i d =>
    let s := m.session.toNat
    if !d.grOn s then d.kvReply m 0x83 1
    else if !d.muleUp then d.kvReply m 0x83 2
    else
      let n := ceilDiv m.pos.toNat k.tpg
      match d.growTo k i n ⟨s, m.tenant.toNat, m.epoch.toNat⟩ with
      | none => d.kvReply m 0x83 6
      | some d =>
        if n = 0 then (d.setKstate s 1).kvReply m 0x82 0
        else
          let d := d.setKstate s 4
          let d := (List.range (n * k.lk)).foldl (fun d j => d.emit (.hostRead (d.grBase s + 65536 * j) 65536)) d
          d.modKv fun v => { v with own := v.own ++ [(false, m)] }

def execSwapIn (m : KvMsg) (s : State) : Host.Outcome State Fault Refusal := s.onDev (swapIn m)

/-- Word at an offset of a page as read. -/
def pageWord (p : PageIn) (off : Nat) : Nat :=
  p.bytes.foldl (fun a b => if off ≤ b.1 ∧ b.1 < off + 4 then a + b.2.toNat * 256 ^ (b.1 - off) else a) 0

/-- The check of R271 on the page with table index i. -/
def Dev.pageOk (d : Dev) (k : KvDev) (m : KvMsg) (p : PageIn) : Bool :=
  let i := p.index
  fld (pageWord p 0) 0 16 == 0x4B56 && pageWord p 4 == d.kvLayout && fld (pageWord p 0xC) 0 4 == m.tenant.toNat &&
    fld (pageWord p 0xC) 4 10 == d.localLayers.getD (i % k.lk) 0 && fld (pageWord p 0x10) 0 16 == m.epoch.toNat &&
    fld (pageWord p 0x14) 0 24 == i / k.lk * k.tpg && fld (pageWord p 0x18) 0 16 == k.e && fld (pageWord p 0x18) 16 10 == k.tpg &&
    fld (pageWord p 0x1C) 0 18 == i

/-- Write a page as read over an allocated page. -/
def Dev.loadPage (d : Dev) (s : Nat) (p : PageIn) : Dev :=
  match d.tableEntry s p.index with
  | some n =>
    d.modMem fun m =>
      let m := m.zeroHbm (kvPage n) (kvPage n + 65536)
      { m with hbm := p.bytes.foldl (fun h b => if b.1 < 65536 then wr1 h (kvPage n + b.1) b.2 else h) m.hbm }
  | none => d

/-- SWAP_IN_LOADED (R271): reads and page checks. -/
def swapInLoaded (s : Nat) (ok : Bool) (pages : List PageIn) (d : Dev) : Dev :=
  match d.kv.ownOf false s, d.ownKv with
  | some m, some k =>
    if !d.muleRuns then d
    else
      let n := ceilDiv m.pos.toNat k.tpg * k.lk
      let d := d.modKv fun v => v.dropOwn s
      if !ok then d.muleFailed.kvReply m 0x83 d.transferCause
      else
        let d := d.dmaCount 3 (1024 * n)
        let found := (List.range n).map fun i => pages.find? fun p => p.index == i
        if found.any fun p => match p with | some p => !d.pageOk k m p | none => true then d.kvReply m 0x83 4
        else
          let d := (found.filterMap id).foldl (fun d p => d.loadPage s p) d
          let d := if d.mirrorOf m.src s then d.setSes s 0x510 m.pos.toNat else d
          (d.setKstate s 1).kvReply m 0x82 0
  | _, _ => d

def execSwapInLoaded (session : BitVec 20) (ok : Bool) (pages : List PageIn) (s : State) : Host.Outcome State Fault Refusal :=
  s.onDev (swapInLoaded session.toNat ok pages)

/-- COMMIT (R269 order 5): the pages are released, KSTATE PARKED. -/
def kvCommit (m : KvMsg) (d : Dev) : Dev :=
  d.onOwner m fun k _ d => (d.releaseKv k m.session.toNat).setKstate m.session.toNat 5
def execCommit (m : KvMsg) (s : State) : Host.Outcome State Fault Refusal := s.onDev (kvCommit m)

/-- KEEP (R269 order 5). -/
def kvKeep (m : KvMsg) (d : Dev) : Dev := d.onOwner m fun _ _ d => d.setKstate m.session.toNat 1
def execKeep (m : KvMsg) (s : State) : Host.Outcome State Fault Refusal := s.onDev (kvKeep m)

/-- RELEASE (R262, R263). -/
def kvRelease (m : KvMsg) (d : Dev) : Dev :=
  d.onOwner m fun k _ d =>
    let s := m.session.toNat
    let d := (d.releaseKv k s).modKv fun v => { v.dropOwn s with mirrors := v.mirrors.filter fun p => p.session != s }
    ((d.setSesF s 0x500 3 1 0).setKstate s 0).kvReply m 0x84 0
def execRelease (m : KvMsg) (s : State) : Host.Outcome State Fault Refusal := s.onDev (kvRelease m)

/-- RESUME (R277). -/
def kvResume (m : KvMsg) (d : Dev) : Dev := d.onOwner m fun _ _ d => d.setKstate m.session.toNat 5
def execResume (m : KvMsg) (s : State) : Host.Outcome State Fault Refusal := s.onDev (kvResume m)

/-- FORK (R264, R265): whole blocks below N are shared, the partial block is copied. -/
def kvFork (m : KvMsg) (d : Dev) : Dev :=
  d.onOwner m fun k i d =>
    let src := m.session.toNat
    let dst := m.target.toNat
    let n := m.pos.toNat
    let whole := n / k.tpg * k.lk
    let all := ceilDiv n k.tpg * k.lk
    let (d, bad) := d.readPages (d.rootPages src ++ (List.range all).filterMap (d.tableEntry src))
    let shared := (List.range whole).filterMap fun e => (d.tableEntry src e).map fun p => (e, p)
    if bad then d.kvReply m 0x83 3
    else if shared.any fun e => 65535 ≤ sgetD d.kv.refs e.2 0 then d.kvReply m 0x83 5
    else if d.freePages k i < (all - whole) + tablesFor all then d.kvReply m 0x83 6
    else
      let d := shared.foldl (fun d e =>
        (d.setEntry k i dst e.1 e.2).modKv fun v => { v with refs := smod v.refs e.2 0 (· + 1) }) d
      let d := (List.range (all - whole)).foldl (fun d j =>
        let e := whole + j
        match d.tableEntry src e, d.allocPage k i with
        | some p, some (q, d) =>
          ((d.setEntry k i dst e q).hbmWr (kvPage q) (d.hbmRd (kvPage p) 65536)).hbmWr (kvPage q)
            (d.pageHeader k ⟨dst, m.tenant.toNat, m.epoch.toNat⟩ e)
        | _, _ => d) d
      let d := ((d.setSes dst 0x508 (ceilDiv n k.tpg)).setSes dst 0x504 (all + tablesFor all)).setSes dst 0x50C (n / k.tpg * k.tpg)
      (d.setKstate dst 1).kvReply m 0x85 0
def execFork (m : KvMsg) (s : State) : Host.Outcome State Fault Refusal := s.onDev (kvFork m)

/-- PAGE_ZERO_DONE (R263): the page is zero and free again. -/
def pageZeroDone (p : Nat) (d : Dev) : Dev :=
  if d.up && d.kv.zeroing.contains p then
    (d.modMem fun m => m.zeroHbm (kvPage p) (kvPage p + 65536)).modKv fun v => { v with zeroing := setDel v.zeroing p }
  else d
def execPageZeroDone (page : BitVec 21) (s : State) : Host.Outcome State Fault Refusal := s.onDev (pageZeroDone page.toNat)

/-- The mirror stops here (R274): MIRROR_OK 0, a corrected error naming the session, MIRROR_LOST. -/
def Dev.mirrorStop (d : Dev) (k : KvDev) (s : Nat) : Dev :=
  if !d.mirrorOk s then d
  else
    let d := (d.setSesF s 0x500 3 1 0).modKv fun v =>
      { v with mirrors := v.mirrors.filter fun p => p.session != s, mirrorOff := setIns v.mirrorOff s }
    (d.raise { code := 0x0603, cls := 0, kind := 15, unit := s }).kvNotice k s 0x87 0

/-- The position below which every layer's entries are confirmed once the writes below `n` are: a layer's run counts when it joins the
entries already confirmed (R275). -/
def Dev.confirmedTo (d : Dev) (s n : Nat) : Nat :=
  let m := d.mirroredTo s
  let tops := d.localLayers.map fun l =>
    match d.kv.mirrors.find? fun p => p.session == s && p.layer == l with
    | some p => if p.lo ≤ m then max m (min n p.upTo) else m
    | none => m
  tops.tail.foldl min (tops.headD m)

/-- MIRROR_CONFIRM (R275): the read-back of mirror writes completed. -/
def mirrorConfirm (s upTo : Nat) (ok : Bool) (d : Dev) : Dev :=
  match d.ownKv, d.kv.mirrors.find? fun p => p.session == s with
  | some k, some _ =>
    if !d.muleRuns then d
    else if !ok || !d.muleUp then (if ok then d else d.muleFailed).mirrorStop k s
    else
      let n := d.confirmedTo s upTo
      let d := (d.setSes s 0x510 n).modKv fun v => { v with mirrors := v.mirrors.filter fun q => q.session != s || decide (n < q.upTo) }
      d.kvNotice k s 0x88 n
  | _, _ => d
def execMirrorConfirm (session : BitVec 20) (upTo : BitVec 24) (ok : Bool) (s : State) : Host.Outcome State Fault Refusal :=
  s.onDev (mirrorConfirm session.toNat upTo.toNat ok)

/-! ## Entry device: replies -/

/-- A reply brings FREE_d up to date, then has its own effect (R255). -/
def Dev.onReply (d : Dev) (m : KvMsg) (f : Nat → Dev → Dev) : Dev := if d.up then f (coordKey m.src) (d.takeFree false m) else d

/-- A reply to a session's running swap. -/
def Kv.swapReply (v : Kv) (s dev : Nat) (failed : Bool) : Kv :=
  { v with swaps := v.swaps.map fun w =>
      if w.session = s then { w with wait := w.wait.filter fun x => x != dev, failed := w.failed || failed } else w }

/-- A fork's reply. -/
def Kv.forkReply (v : Kv) (dev : Nat) (failed : Option Nat) : Kv :=
  match v.job with
  | some j => { v with job := some { j with wait := j.wait.filter fun x => x != dev, failed := j.failed <|> failed } }
  | none => v

def Kv.swapping (v : Kv) (s : Nat) : Bool := v.swaps.any fun w => w.session == s

/-- Data pages of a session on a device, less those its mirror holds already when they are written (R269, R276). -/
def Dev.swapPages (d : Dev) (dev s : Nat) (out : Bool) : Nat :=
  match d.owners.find? fun k => k.key == dev with
  | some k =>
    let n := d.heldBlocks k s * k.lk
    let m := sgetD d.kv.mirrored (256 * s + dev) 0
    if out && d.mirrorOf d.coord s && m < 2 ^ 24 then n - min n (m / k.tpg * k.lk) else n
  | none => 0

/-- WRITTEN (R269). -/
def kvWritten (m : KvMsg) (d : Dev) : Dev :=
  d.onReply m fun dev d =>
    let s := m.session.toNat
    if d.kv.swapping s then (d.kvCount 6 (d.swapPages dev s true)).modKv fun v => v.swapReply s dev false else d
def execWritten (m : KvMsg) (s : State) : Host.Outcome State Fault Refusal := s.onDev (kvWritten m)

/-- LOADED (R270). -/
def kvLoaded (m : KvMsg) (d : Dev) : Dev :=
  d.onReply m fun dev d =>
    let s := m.session.toNat
    if d.kv.swapping s then (d.kvCount 7 (d.swapPages dev s false)).modKv fun v => v.swapReply s dev false else d
def execLoaded (m : KvMsg) (s : State) : Host.Outcome State Fault Refusal := s.onDev (kvLoaded m)

/-- FAILED (R269, R271, R264). -/
def kvFailed (m : KvMsg) (d : Dev) : Dev :=
  d.onReply m fun dev d =>
    let s := m.session.toNat
    d.modKv fun v =>
      if v.swapping s then v.swapReply s dev true
      else match v.job with
        | some j => if j.op = 2 && j.session == s then v.forkReply dev (some m.cause.toNat) else v
        | none => v
def execFailed (m : KvMsg) (s : State) : Host.Outcome State Fault Refusal := s.onDev (kvFailed m)

/-- RELEASED (R262). -/
def kvReleased (m : KvMsg) (d : Dev) : Dev :=
  d.onReply m fun dev d =>
    let s := m.session.toNat
    d.modKv fun v =>
      match sget v.releases s with
      | some l =>
        let l := l.filter fun x => x != dev
        { v with releases := if l.isEmpty then sdel v.releases s else sput v.releases s l }
      | none => v
def execReleased (m : KvMsg) (s : State) : Host.Outcome State Fault Refusal := s.onDev (kvReleased m)

/-- FORKED (R264). -/
def kvForked (m : KvMsg) (d : Dev) : Dev :=
  d.onReply m fun dev d =>
    d.modKv fun v => match v.job with | some j => if j.op = 2 && j.session == m.session.toNat then v.forkReply dev none else v | none => v
def execForked (m : KvMsg) (s : State) : Host.Outcome State Fault Refusal := s.onDev (kvForked m)

/-- SESSION_FAULT (R278, R244). -/
def kvSessionFault (m : KvMsg) (d : Dev) : Dev := d.onReply m fun _ d => d.sessionFault m.session.toNat
def execSessionFault (m : KvMsg) (s : State) : Host.Outcome State Fault Refusal := s.onDev (kvSessionFault m)

/-- MIRROR_LOST (R274): counted, and confirmations of that device are no longer awaited (log 34). -/
def kvMirrorLost (m : KvMsg) (d : Dev) : Dev :=
  d.onReply m fun dev d =>
    (d.kvCount 9 1).modKv fun v => v.setMirrored m.session.toNat [dev] fun _ => 2 ^ 24
def execMirrorLost (m : KvMsg) (s : State) : Host.Outcome State Fault Refusal := s.onDev (kvMirrorLost m)

/-- MIRRORED (R275). -/
def kvMirrored (m : KvMsg) (d : Dev) : Dev :=
  d.onReply m fun dev d =>
    d.modKv fun v => v.setMirrored m.session.toNat [dev] fun n => if n = 2 ^ 24 then n else m.pos.toNat
def execMirrored (m : KvMsg) (s : State) : Host.Outcome State Fault Refusal := s.onDev (kvMirrored m)

/-- FREE (R255). -/
def kvFree (m : KvMsg) (d : Dev) : Dev := if d.up then d.takeFree true m else d
def execFree (m : KvMsg) (s : State) : Host.Outcome State Fault Refusal := s.onDev (kvFree m)

/-- KV_MESSAGE_RESERVED (R344): a contained error. -/
def kvReserved (d : Dev) : Dev := if d.up then d.contain { code := 0x0604, cls := 1, kind := 5 } [] else d

/-- A code of R344 is not reserved; such a message is no event of this row and changes nothing. -/
def kvCodeKnown (code : Byte) : Bool := (1 ≤ code.toNat && code.toNat ≤ 7) || (0x81 ≤ code.toNat && code.toNat ≤ 0x89)

def execKvMessageReserved (code : Byte) (_m : KvMsg) (s : State) : Host.Outcome State Fault Refusal :=
  s.onDev fun d => if kvCodeKnown code then d else kvReserved d

/-- Every KV-owning device has confirmed a mirrored session's entries below a position (R275). -/
def Dev.mirrorReady (d : Dev) (s pos : Nat) : Bool :=
  d.owners.all fun k => decide (pos ≤ sgetD d.kv.mirrored (256 * s + k.key) 0)

/-! ## Entry device: swaps -/

/-- A host command ends: DONE, or ERR with a cause (R280). -/
def Dev.kvDone (d : Dev) (cause : Nat) : Dev :=
  (d.modKv fun v => { v with job := none, jobNew := false, done := v.done || cause == 0, err := v.err || cause != 0, cause := cause }).event .kvCmd

/-- Class of a session: in HELD while CALLING, live otherwise (R267). -/
def Dev.sesClass (d : Dev) (s : Nat) : Nat := fld (if d.sstate s = 2 then d.held s 0 else d.ses s 0) 2 2

/-- A session may be swapped out (R267); `wait`: not within 1,024 frames of an abandoned swap-out. -/
def Dev.evictable (d : Dev) (s : Nat) (wait pages : Bool) : Bool :=
  d.ses s 0 % 2 == 1 && (d.sstate s == 1 || d.sstate s == 2) && d.sesF s 0x200 5 1 == 0 && (sget d.kv.releases s).isNone &&
    !d.kv.swapping s && !(d.call.claims.any fun c => c.session == s && d.frm.frame < c.frame) &&
    (!pages || sgetD d.kv.reach s 0 != 0) &&
    (match sget d.kv.abandoned s with | some f => !wait || decide (f + 1024 ≤ d.frm.frame) | none => true)

/-- Begin a swap-out (R269 order 1). -/
def Dev.swapOutStart (d : Dev) (s : Nat) (host : Bool) : Dev :=
  let d := (d.setSesF s 0x580 0 4 (d.sstate s)).setSstate s 4
  let d := d.modKv fun v => { v with swaps := v.swaps ++ [{ session := s, out := true, host := host, wait := d.owners.map KvDev.key }] }
  d.toOwners 0x01 (d.sesMsg s)

/-- A host command asked for the swap-in that a session waits for. -/
def Kv.hostWants (v : Kv) (s : Nat) : Bool := v.wantIn.any fun w => w.1 == s && w.2

/-- Begin a swap-in when its claim fits as a lead claim; at once, without data, when the epoch has changed (R270). -/
def Dev.swapInTry (d : Dev) (s : Nat) : Dev :=
  let host := d.kv.hostWants s
  let drop (d : Dev) : Dev := d.modKv fun v => { v with wantIn := v.wantIn.filter fun w => w.1 != s }
  if d.sstate s != 3 || d.kv.swapping s then drop d
  else if d.sesF s 0x20C 0 16 != d.epoch then
    let d := drop (d.setSstate s (d.sesF s 0x580 0 4))
    if host then d.kvDone 0 else d
  else
    let n := d.sesF s 0x204 0 24
    if !d.claimFits s n true true then d
    else
      let d := drop ((d.debit s n true).setSstate s 4)
      let d := d.modKv fun v => { v with swaps := v.swaps ++ [{ session := s, out := false, host := host, wait := d.owners.map KvDev.key }] }
      d.toOwners 0x02 (d.sesMsg s)

/-- A waiting call: a candidate with a record in its ring, not accepted. -/
def Dev.callWaits (d : Dev) (s : Nat) : Bool :=
  (sget d.call.calls s).isNone && !d.ringEmpty s && (d.calling s || (sget d.call.ready s).isSome)

/-- A swap-in failed (R271); a cancelled call's record is CANCELLED (R242). -/
def Dev.greenRoomError (d : Dev) (s : Nat) : Dev :=
  let d := d.releaseSession s
  let d := (d.setSesF s 0x204 0 24 0).setSesF s 0x200 4 1 0
  let waits := d.callWaits s
  let seq := match sget d.call.calls s with | some i => i.seq | none => (d.callRec s).seq
  let d := if (sget d.call.calls s).isSome || waits then
      let d := if waits then d.clearCalling s else d
      if d.cancelledSeq s seq then d.endCall s .cancelled 0 .past else (d.endCall s .greenRoom 0 .past).kvCount 5 1
    else d
  d.setSstate s 1

/-- Pages that swapping a session out frees on a device (R266). -/
def Dev.freesOn (d : Dev) (k : KvDev) (s : Nat) : Nat :=
  let b := d.heldBlocks k s
  b * k.lk + tablesFor (b * k.lk) - sgetD d.kv.shared s 0 / k.tpg * k.lk

/-- A swap whose replies are all in (R269 order 4, R270 order 4, R271, R272). -/
def Dev.swapDone (d : Dev) (w : Swap) : Dev :=
  let s := w.session
  let d := d.modKv fun v => { v with swaps := v.swaps.filter fun x => x.session != s }
  let faulted := d.sstate s == 5
  let d :=
    if w.out then
      if w.failed then
        let d := (d.toOwners 0x04 (d.sesMsg s)).kvCount 3 1
        let d := d.modKv fun v => { v with abandoned := sput v.abandoned s d.frm.frame }
        if faulted then d else d.setSstate s (d.sesF s 0x580 0 4)
      else
        let due := d.owners.map fun k => (k.key, d.frm.frame, d.freesOn k s)
        let d := (d.toOwners 0x03 (d.sesMsg s)).kvCount 2 1
        let d := d.modKv fun v => { v with reach := sdel v.reach s, shared := sdel v.shared s, coming := v.coming ++ due,
                                           mirrored := v.mirrored.filter fun e => e.1 / 256 != s }
        if faulted then d else d.setSstate s 3
    else if w.failed then
      if faulted then d.releaseSession s else d.greenRoomError s
    else
      let d := (d.kvCount 4 1).modKv fun v =>
        if d.mirrorOf d.coord s then v.setMirrored s (d.owners.map KvDev.key) fun _ => d.sesF s 0x204 0 24 else v
      if faulted then d else d.setSstate s (d.sesF s 0x580 0 4)
  if w.host then d.kvDone (if w.failed then 7 else 0) else d

/-- A session asked for a swap-in (R231 check 3, R272). -/
def Dev.wantSwapIn (d : Dev) (s : Nat) (host : Bool) : Dev :=
  d.modKv fun v =>
    if v.wantIn.any fun w => w.1 == s then { v with wantIn := v.wantIn.map fun w => if w.1 = s then (s, w.2 || host) else w }
    else { v with wantIn := v.wantIn ++ [(s, host)] }

/-- A fork's end (R264). -/
def Dev.forkDone (d : Dev) (j : KvJob) : Dev :=
  match j.failed with
  | some c => ((d.releaseSession j.dst).kvDone (if c = 5 then 5 else 6))
  | none =>
    let d := (d.setSesF j.dst 0x204 0 24 j.len).setSesF j.dst 0x200 4 1 0
    let d := d.setSesF j.dst 0x20C 0 16 (d.sesF j.session 0x20C 0 16)
    (d.kvCount 8 1).kvDone 0

/-- Why a fork cannot start, as a cause of CALL_KV_RESULT (R264, R280). -/
def Dev.forkCause (d : Dev) (src dst n : Nat) : Nat :=
  let valid (s : Nat) : Bool := d.ses s 0 % 2 == 1
  if !valid src || !valid dst then 1
  else if d.sstate src != 1 || d.sstate dst != 1 || d.sesF dst 0x204 0 24 != 0 || d.sesF dst 0x200 4 1 != 0 || sgetD d.kv.reach dst 0 != 0 ||
      (sget d.kv.releases dst).isSome then 2
  else if d.sesF src 0 4 4 != d.sesF dst 0 4 4 || d.sesF src 0x20C 0 16 != d.epoch then 3
  else if n = 0 || d.sesF src 0x204 0 24 < n then 4
  else 0

/-- Start the host command that waits for this scan (R269, R270, R264). -/
def Dev.jobStart (d : Dev) (j : KvJob) : Dev :=
  let d := d.modKv fun v => { v with jobNew := false }
  match j.op with
  | 0 => if d.evictable j.session true false then (d.swapOutStart j.session true).kvCount 1 1 else d.kvDone 2
  | 1 => if d.sstate j.session = 3 then d.wantSwapIn j.session true else d.kvDone 2
  | _ =>
    let c := d.forkCause j.session j.dst j.len
    if c != 0 then d.kvDone c
    else
      let copied (k : KvDev) : Nat := (ceilDiv j.len k.tpg - j.len / k.tpg) * k.lk + tablesFor (ceilDiv j.len k.tpg * k.lk)
      let d' := d.owners.foldl (fun (e : Dev) k =>
        e.modKv fun v => { v with free := sput v.free k.key (d.freeOf k - copied k), claims := smod v.claims k.key 0 (· + copied k) }) d
      let d := d'.modKv fun v => { v with job := some { j with wait := d.owners.map KvDev.key }, reach := sput v.reach j.dst j.len,
                                          shared := sput v.shared j.dst j.len }
      d.toOwners 0x06 { d.sesMsg j.session with pos := BitVec.ofNat 24 j.len, target := BitVec.ofNat 20 j.dst }

/-- Swaps whose replies are in end at the scan, before entries whose VALID fell empty (R269, R270, R272). -/
def Dev.swapsEnd (d : Dev) : Dev := (d.kv.swaps.filter fun w => w.wait.isEmpty).foldl Dev.swapDone d

/-- The KV part of a scan before admission: host commands and waiting swap-ins (R264, R269, R270, log 33). -/
def Dev.kvScan (d : Dev) : Dev :=
  let d := match d.kv.job with
    | some j => if d.kv.jobNew then d.jobStart j else if j.op = 2 && j.wait.isEmpty then d.forkDone j else d
    | none => d
  d.kv.wantIn.foldl (fun d w => d.swapInTry w.1) d

/-! ## Pre-emption and drain (R266, R267, R409) -/

/-- Order of victims: by a class key, then LAST_FRAME, then index. -/
def Dev.victimLe (d : Dev) (key : Nat → Nat) (a b : Nat) : Bool :=
  let ka := key (d.sesClass a)
  let kb := key (d.sesClass b)
  if ka != kb then decide (ka < kb)
  else if d.lastFrame a != d.lastFrame b then decide (d.lastFrame a < d.lastFrame b)
  else decide (a ≤ b)

def insBy (le : Nat → Nat → Bool) (l : List Nat) (x : Nat) : List Nat :=
  match l with
  | [] => [x]
  | y :: t => if le x y then x :: y :: t else y :: insBy le t x

def sortBy (le : Nat → Nat → Bool) (l : List Nat) : List Nat := l.foldl (insBy le) []

/-- The command lane has room for one more command to every KV-owning device. -/
def Dev.lanesOpen (d : Dev) : Bool := d.owners.all fun k => d.laneRoom k.key 0x01

/-- Pages that the running swap-outs will free on a device, and committed ones that no reply counts yet (log 95). -/
def Dev.freeing (d : Dev) (k : KvDev) : Nat :=
  ((d.kv.swaps.filter fun w => w.out).map fun w => d.freesOn k w.session).sum + ((d.kv.coming.filter fun c => c.1 == k.key).map fun c => c.2.2).sum

/-- Pre-emption after admission (R266, R267). Lead sessions come last, when no session of another class is left. -/
def Dev.preempt (d : Dev) : Dev :=
  let low := d.owners.filter fun k => decide (d.freeOf k < d.kv.low.toNat)
  if low.isEmpty then d
  else
    let can := (d.kv.reach.map Prod.fst).filter fun s => d.evictable s true true && low.any fun k => d.heldBlocks k s != 0
    (sortBy (d.victimLe fun c => 3 - c) can).foldl (fun (e : Dev) s =>
      if !e.lanesOpen || low.all fun k => decide (e.kv.high.toNat ≤ e.freeOf k + e.freeing k) then e
      else (e.swapOutStart s false).kvCount 0 1) d

/-- Sessions whose swap-out a drain has still to start (R409 orders 4 and 5). -/
def Dev.drainLeft (d : Dev) : List Nat :=
  (d.kv.reach.map Prod.fst).filter fun s =>
    d.ses s 0 % 2 == 1 && d.grOn s && (d.sstate s == 1 || d.sstate s == 2) && !d.kv.swapping s && (sget d.kv.abandoned s).isNone

/-- The drain's part of a STRUCK scan (R409 orders 4 to 6). -/
def Dev.drainScan (d : Dev) : Dev :=
  if d.err.drained || d.err.drain.isNone then d
  else
    let go := (sortBy (d.victimLe fun c => c) (d.drainLeft.filter fun s => d.evictable s false true))
    let d := if d.err.noSwapOut then d
      else go.foldl (fun (e : Dev) s => if e.lanesOpen then e.swapOutStart s false else e) d
    if d.kv.swaps.isEmpty && (d.err.noSwapOut || d.drainLeft.isEmpty) then d.finishDrain else d

/-! ## Host commands (R280) -/

/-- START with an operation: ignored while BUSY; the fields are written (R280). -/
def Dev.kvCommand (d : Dev) (op session : Nat) : Dev :=
  if !d.up then d
  else
    let d := d.modKv fun v => { v with op := BitVec.ofNat 2 op, session := BitVec.ofNat 20 session }
    if d.kv.job.isSome then d
    else
      let j : KvJob := { op := op, session := session, dst := d.kv.dst.toNat, len := d.kv.len.toNat }
      let go (d : Dev) : Dev := d.modKv fun v => { v with job := some j, jobNew := true }
      if d.ses session 0 % 2 == 0 then d.kvDone 1
      else match op with
        | 0 => if d.evictable session true false then go d else d.kvDone 2
        | 1 => if d.sstate session = 3 && !d.kv.swapping session then go d else d.kvDone 2
        | _ =>
          let c := d.forkCause session j.dst j.len
          if c = 0 then go d else d.kvDone c

def execKvCmdPark (session : BitVec 20) (s : State) : Host.Outcome State Fault Refusal := s.onDev fun d => d.kvCommand 0 session.toNat
def execKvCmdWake (session : BitVec 20) (s : State) : Host.Outcome State Fault Refusal := s.onDev fun d => d.kvCommand 1 session.toNat
def execKvCmdFork (session : BitVec 20) (s : State) : Host.Outcome State Fault Refusal := s.onDev fun d => d.kvCommand 2 session.toNat

/-- CALL_KV_CLR (R280). -/
def callKvClr (d : Dev) : Dev := if d.up then d.modKv fun v => { v with cnt := [] } else d
def execCallKvClr (s : State) : Host.Outcome State Fault Refusal := s.onDev callKvClr

end Sys2Proof.Machine
end

