-- ==== Sys2Proof/Machine/Callboard.lean ====
section
/-! DEFINITION. The callboard's scan (R225, R226, R230 to R233): sessions that begin and end (R221, R277), errors in session
memory (R244), acceptance (R222, R229, R245), admission with its claims (R224, R232, R183, R184), chunk entry and lanes (R334). -/
namespace Sys2Proof.Machine

/-! ## Errors in session memory (R244) -/

/-- SSTATE is FAULTED. -/
def Dev.faulted (d : Dev) (s : Nat) : Bool := d.sstate s == 5

/-- The session in whose input ring, between IN_HEAD and IN_TAIL, a codeword lies. -/
def Dev.ringUser (d : Dev) (cw : Nat) : Option Nat :=
  d.sessions.find? fun s =>
    let n := max 1 (d.ringWords s)
    let w := (64 * cw - d.ringBase s) / 4 % n
    decide (d.ringBase s ≤ 64 * cw) && decide (64 * cw < d.ringBase s + 4 * n) &&
      decide ((w + n - d.ses s 0x210 % n) % n < d.ringFill s + 15)

/-- The bitmap codeword rewritten from the rings (R244). -/
def Dev.rebuildBitmap (d : Dev) (cw : Nat) : Dev :=
  let first := 8 * (64 * cw - bitmapBase)
  let live := d.sessions.filter fun s => decide (first ≤ s) && decide (s < first + 512) && !d.ringEmpty s
  let byte (i : Nat) : Byte := BitVec.ofNat 8 ((live.filter fun s => s / 8 == first / 8 + i).map fun s => 2 ^ (s % 8)).sum
  let d := d.hbmWr (64 * cw) ((List.range 64).map byte)
  d.modCall fun c => { c with summary := setIns c.summary (cw - bitmapBase / 64) }

/-- The call whose record lies in a lost ring codeword ends (R244); a record not yet accepted meets it at acceptance. -/
def Dev.ringLost (d : Dev) (s cw : Nat) : Dev :=
  match sget d.call.calls s with
  | some i =>
    let n := max 1 (d.ringWords s)
    let uses := (List.range i.words).any fun j => (d.ringBase s + 4 * ((d.ses s 0x210 + j) % n)) / 64 == cw
    if !i.begun && uses then d.endCall s (if d.cancelledSeq s i.seq then .cancelled else .discarded) 5 .tail else d
  | none => d

/-- An uncorrectable codeword of session memory (R204, R244): contained, with the effect of its region. -/
def Dev.sessionMemBad (d : Dev) (cw : Nat) (e : ErrIn) : Dev :=
  let a := 64 * cw
  let e : ErrIn := { e with code := 0x0601, cls := 1, kind := 15, detail := if e.detail.isEmpty then memDetail 5 a 0 (a % 2048) else e.detail }
  match regionOf a with
  | .sessionTable =>
    let s := a / 2048
    (d.raise { e with unit := s, session := some (s, d.ses s 0x218, d.sesF s 0x220 0 16) }).sessionFault s
  | .inputRing =>
    match d.ringUser cw with
    | some s => (d.raise { e with unit := s }).ringLost s cw
    | none => d.raise e
  | _ => (d.raise e).rebuildBitmap cw

/-! ## Sessions that begin and end (R221, R277, R272) -/

def Call.dropCache (c : Call) (s : Nat) : Call := { c with cache := c.cache.filter fun e => e.2 != s }

/-- VALID fell: the call is cancelled, the KV released, the entry EMPTY; a step in flight or a swap is waited for (R221, R262, R272). A
WAKE that waits for the entry ends with cause 1 (log 105). -/
def Dev.emptySession (d : Dev) (s : Nat) : Dev :=
  if (d.call.steps.any fun x => x.session == s) || d.sstate s = 4 then d
  else
    let d := if (sget d.call.calls s).isSome then d.endCall s .cancelled 0 .past else d
    let d := d.releaseSession s
    let d := d.hbmWr (sesAddr s 0x200) (List.replicate 512 0)
    let d := if d.kv.hostWants s then d.kvDone 1 else d
    let d := d.modKv fun v => { v with wantIn := v.wantIn.filter fun w => w.1 != s }
    d.modCall fun c => { c.dropCache s with empty := setDel c.empty s, ready := sdel c.ready s }

/-- VALID rose: the device-owned fields are initialised; RESUME takes the resume values (R277). -/
def Dev.initSession (d : Dev) (s : Nat) : Dev :=
  if d.call.empty.contains s then d
  else
    let k := if d.sesF s 0 8 1 = 1 && d.sesF s 0 9 3 != 0 then 1 else 0
    let d := d.hbmWr (sesAddr s 0x200) (List.replicate 512 0)
    let d := ((d.setSstate s 1).setSes s 0x210 (d.ses s 0x100)).setSes s 0x20C (d.epoch + 65536 * k)
    let d := d.modCall fun c => { c.dropCache s with init := setDel c.init s, again := setIns c.again s }
    if d.sesF s 0x440 0 1 = 1 then
      let d := (d.setSes s 0x204 (d.sesF s 0x444 0 24)).setSesF s 0x200 4 1 (d.sesF s 0x440 1 1)
      let d := (d.setSes s 0x208 (d.ses s 0x448)).setSesF s 0x20C 0 16 (d.sesF s 0x44C 0 16)
      (((d.setSesF s 0x580 0 4 1).setSstate s 3).toOwners 0x07 (d.sesMsg s))
    else d

/-! ## Candidates (R225, R226, R230) -/

/-- A session whose bit is set, examined at the scan of frame f. -/
def Dev.examine (d : Dev) (f s : Nat) : Dev :=
  let keep (d : Dev) : Dev := d.modCall fun c => { c with again := setIns c.again s }
  if (sget d.call.calls s).isSome || d.ses s 0 % 2 = 0 || d.faulted s then keep d
  else if d.ringEmpty s then
    let d := (d.clearCalling s).setSes s 0x228 (bump (d.ses s 0x228))
    (d.callCount 8).modCall fun c => { c with ready := sdel c.ready s }
  else d.modCall fun c => { c with ready := if (sget c.ready s).isSome then c.ready else sput c.ready s f }

/-- Read every marked bitmap codeword, and the bits kept for another look. -/
def Dev.readBitmap (d : Dev) (f : Nat) : Dev :=
  let d := d.call.summary.foldl (fun d c =>
    if d.mem.bad.contains (bitmapBase / 64 + c) then d.sessionMemBad (bitmapBase / 64 + c) { code := 0x0601, cls := 1 } else d) d
  let marked := d.call.summary.flatMap fun c => (List.range 512).map (512 * c + ·)
  let all := (d.call.again.foldl setIns marked).filter d.calling
  let d := d.modCall fun c => { c with summary := [], again := [] }
  all.foldl (fun d s => d.examine f s) d

/-- A candidate of the scan. -/
structure Cand where
  session : Nat
  cls : Nat
  replay : Bool
  ready : Nat
  deriving DecidableEq, Repr, Inhabited

/-- Class in HELD for a call in progress, live for a new call. -/
def Dev.candOf (d : Dev) (s ready : Nat) : Cand :=
  let acc := (sget d.call.calls s).isSome
  ⟨s, fld (d.callWord s 0 acc) 2 2, d.call.replays.any fun x => x.session == s, ready⟩

/-- Order of R230. -/
def Dev.candLe (d : Dev) (a b : Cand) : Bool :=
  let turn (c : Cand) : Nat := (c.session + 2 ^ 20 - sgetD d.call.rotor c.cls 0) % 2 ^ 20
  if a.cls != b.cls then decide (a.cls < b.cls)
  else if a.replay != b.replay then a.replay
  else if a.ready != b.ready then decide (a.ready < b.ready)
  else decide (turn a ≤ turn b)

def insCand (le : Cand → Cand → Bool) (l : List Cand) (x : Cand) : List Cand :=
  match l with
  | [] => [x]
  | y :: t => if le x y then x :: y :: t else y :: insCand le t x

/-- The candidates of frame f in order: none with a step in flight, none whose ready frame lies ahead. -/
def Dev.candidates (d : Dev) (f : Nat) : List Cand :=
  let l := d.call.ready.filter fun e => decide (e.2 ≤ f) && !d.call.steps.any fun x => x.session == e.1
  (l.map fun e => d.candOf e.1 e.2).foldl (insCand d.candLe) []

/-! ## Acceptance (R222, R229, R245) -/

/-- K as a call's acceptance sets it (R245). -/
def acceptK (k bench kMax : Nat) (en : Bool) : Nat :=
  if !en then 0
  else
    let k := min k kMax
    if k = 0 && bench = 0 && 1 ≤ kMax then 1 else k

/-- The record at IN_HEAD becomes the current call. -/
def Dev.accept (d : Dev) (s : Nat) : Dev :=
  let r := d.callRec s
  let d := d.hbmWr (sesAddr s 0x240) (d.hbmRd (sesAddr s 0) 128)
  let d := ((d.setSes s 0x218 r.seq).setSes s 0x21C 0).setSesF s 0x220 0 16 0
  let k := acceptK (d.sesF s 0x20C 16 3) (d.sesF s 0x20C 19 7) (fld (d.held s 0) 9 3) (bit (d.held s 0) 8)
  let d := ((d.setSes s 0x31C 0).setSesF s 0x20C 16 3 k).setSstate s 2
  let d := d.modCall fun c =>
    { c with calls := sput c.calls s { seq := r.seq, nIn := r.nIn, maxNew := r.maxNew, reset := r.reset, words := r.words } }
  if r.reset then ((d.setSesF s 0x204 0 24 0).setSesF s 0x200 4 1 0).releaseSession s else d

/-- The words of the record at IN_HEAD lie in a lost codeword. -/
def Dev.recordBad (d : Dev) (s : Nat) : Bool :=
  let n := max 1 (d.ringWords s)
  (List.range (min (d.ringFill s) (max 8 (d.callRec s).words))).any fun i =>
    d.mem.bad.contains ((d.ringBase s + 4 * ((d.ses s 0x210 + i) % n)) / 64)

/-- Checks 5 and 6 of R231 on a new call: answers whether the call was accepted. The bit is cleared when the record is read. Check 5
needs a ring that holds the record's CALL_SEQ (log 106). -/
def Dev.tryAccept (d : Dev) (s vocab : Nat) : Dev × Bool :=
  let d := (d.clearCalling s).modCall fun c => { c with again := setDel c.again s }
  let stop (d : Dev) : Dev × Bool := (d.modCall fun c => { c with ready := sdel c.ready s }, false)
  if d.recordBad s then stop (d.endCall s .badInput 0 .tail)
  else if d.ringOk s && decide (2 ≤ d.ringFill s) && d.cancelledSeq s (d.callRec s).seq then
    stop (d.endCall s .cancelled 0 .past)
  else
    match d.checkCall s vocab with
    | some (st, m) => stop (d.endCall s st 0 m)
    | none => (d.accept s, true)

/-- The epoch check passes (R231 check 7). -/
def Dev.epochOk (d : Dev) (s : Nat) : Bool :=
  let reset := match sget d.call.calls s with | some i => i.reset && !i.begun | none => false
  d.sesF s 0x20C 0 16 == d.epoch || reset || (d.sesF s 0x204 0 24 == 0 && d.sesF s 0x200 4 1 == 0)

/-! ## The step's plan (R236, R184) -/

/-- The step that a candidate runs next. -/
def Dev.planStep (d : Dev) (s : Nat) : Step :=
  match d.call.replays.find? fun x => x.session == s with
  | some x => x
  | none =>
    let i := sgetD d.call.calls s {}
    let first := !i.begun
    let pend := d.sesF s 0x200 4 1
    let last := d.ses s 0x208
    let k := if first then 0 else min (min (d.sesF s 0x31C 0 3) (i.maxNew - d.sesF s 0x21C 0 24 - 1)) 7
    let toks := if first then (if pend = 1 then [last] else []) ++ (List.range i.nIn).map fun n => d.callToken s n % 2 ^ 18
      else last :: (List.range k).map fun n => d.ses s (0x300 + 4 * n)
    let decode := decide (toks.length ≤ 8)
    { session := s, callSeq := i.seq, index := d.sesF s 0x220 0 16, cls := fld (d.held s 0) 2 2, tenant := fld (d.held s 0) 4 4,
      decode := decode, pos := d.sesF s 0x204 0 24, tokens := toks, kEff := k, first := first, reset := i.reset,
      prefillOnly := i.maxNew == 0, chunks := if decode then 1 else ceilDiv toks.length d.chunkSize,
      adp := (d.pinned s).map Prod.fst }

/-! ## Claims of slots and attention (R232, R183) -/

/-- ADMISSION of the template of frame g. -/
def Dev.admOf (d : Dev) (g : Nat) : AdmTemplate :=
  match d.scr.script with
  | some sc => sc.admission.getD (g % (sc.hdr.cycle + 1)) ⟨[], [], []⟩
  | none => ⟨[], [], []⟩

/-- The first free admission slot of frame g for a step. -/
def Dev.freeSlot (d : Dev) (x : Step) (g : Nat) : Option Nat :=
  ((d.admOf g).slots.zipIdx.find? fun a =>
    a.1.cls == x.cls && a.1.tenant == x.tenant && a.1.decode == x.decode &&
      !d.call.claims.any fun c => c.frame == g && c.slot == a.2).map Prod.snd

/-- The attention budget covers chunk j in frame g. -/
def Dev.budgetOk (d : Dev) (x : Step) (g j : Nat) : Bool :=
  let b := if x.decode then (d.admOf g).decodeBudget else (d.admOf g).prefillBudget
  decide (sgetD d.call.pairs (pairKey g x.decode x.cls) 0 + d.chunkPairs x j ≤ b.getD x.cls 0)

/-- The claims of a step admitted in frame f, one slot a frame; none when a check 9 or 10 fails. -/
def Dev.slotClaims (d : Dev) (x : Step) (f : Nat) : Option (List SlotClaim) :=
  (List.range x.chunks).mapM fun j =>
    match d.freeSlot x (f + j) with
    | some i => if d.budgetOk x (f + j) j then some ⟨f + j, i, x.session⟩ else none
    | none => none

/-! ## Cache (R223, R224) -/

/-- The session's cache slot: its own, the lowest free one, or that of the oldest entry without a step in flight. -/
def Dev.cacheSlot (d : Dev) (s : Nat) : Dev × Nat :=
  match d.call.cache.find? fun e => e.2 == s with
  | some e => (d, e.1)
  | none =>
    let put (d : Dev) (n : Nat) : Dev × Nat :=
      let d := d.setSes s 0x200 (putF (d.ses s 0x200 % 64 + 64) 7 12 n)
      (d.modCall fun c => { c with cache := sput c.cache n s }, n)
    if d.call.cache.length < 4096 then
      put d (((List.range 4096).find? fun n => (sget d.call.cache n).isNone).getD 0)
    else
      let idle := d.call.cache.filter fun e => d.sesF e.2 0x200 5 1 == 0
      match idle.foldl (fun (b : Option (Nat × Nat)) e =>
          match b with
          | some o => if d.lastFrame e.2 < d.lastFrame o.2 then some e else b
          | none => some e) none with
      | some e => put (((d.setSesF e.2 0x200 6 1 0).setSesF e.2 0x200 7 12 0).callCount 13) e.1
      | none => (d, 0)

/-! ## Lanes of an admission slot (R334, R156) -/

/-- The lane range of admission slot i: the i-th range of kind 0 (log 36). -/
def Dev.admLanes (d : Dev) (i : Nat) : Option LaneMap := (d.laneMaps.filter fun r => r.kind == 0)[i]?

/-- Place of this device among the herd's entry devices, and their number. -/
def Dev.entryPlace (d : Dev) : Nat × Nat :=
  match d.scr.script with
  | some sc =>
    let l := (sc.kvDevs.map KvDev.key).filter sc.isEntry
    ((l.findIdx? (· == coordKey d.coord)).getD 0, max 1 l.length)
  | none => (0, 1)

/-- The segment number of a step to admit: the lowest that no other step in flight of this device has, taken from the numbers that
belong to this entry device (R157; log 107). -/
def Dev.pickSeg (d : Dev) (s : Nat) : Nat :=
  let (i, n) := d.entryPlace
  let used := (d.call.steps.filter fun x => x.session != s).map Step.segNo
  (((List.range (65535 / n)).map fun k => k * n + i).find? fun g => !used.contains g).getD i

/-- The descriptor of a step's token n, entering in the open frame. -/
def Dev.tokOf (d : Dev) (x : Step) (cslot n : Nat) : Tok :=
  let c := d.coord
  { pos := x.pos + n, seg := x.segNo, cslot := cslot, cls := x.cls,
    draft := decide (x.tokens.length - x.kEff ≤ n), adp := x.adp.isSome, adapter := x.adp.getD 0, session := x.session,
    ex := c.x.toNat, ey := c.y.toNat, admitted := x.admitted % 4096, eframe := d.frm.frame % 65536, encHeld := x.encore,
    tenant := x.tenant }

/-- Chunk j of a step enters: its descriptors are written into the lanes of the slot it claimed in this frame. -/
def Dev.enterChunk (d : Dev) (x : Step) (j : Nat) : Dev :=
  let slot := (d.call.claims.find? fun c => c.frame == d.frm.frame && c.session == x.session).map SlotClaim.slot
  let cslot := match d.call.cache.find? fun e => e.2 == x.session with | some e => e.1 | none => 0
  match slot.bind d.admLanes with
  | some r =>
    let (o, n) := x.chunk d.chunkSize j
    d.modFrm fun f =>
      { f with lanes := (List.range (min n r.count)).foldl (fun l i => sput l (r.first + i) (d.tokOf x cslot (o + i))) f.lanes }
  | none => d

/-- Chunks of admitted PREFILL steps that enter in this frame (R184). -/
def Dev.chunksEnter (d : Dev) : Dev :=
  let l := d.call.steps.filter fun x => decide (x.entered < x.chunks) && x.discard.isNone
  l.foldl (fun d x =>
    (d.enterChunk x x.entered).modCall fun c =>
      { c with steps := c.steps.map fun y => if y.session == x.session then { y with entered := y.entered + 1 } else y }) d

/-! ## Admission (R230 to R232) -/

/-- Admit a step that passed every check. -/
def Dev.admitted (d : Dev) (x : Step) (cl : List SlotClaim) (admitted : Nat) : Dev :=
  let s := x.session
  let f := d.frm.frame
  let (d, _) := d.cacheSlot s
  let d := ((d.setSesF s 0x200 5 1 1).setSes s 0x224 (f % 2 ^ 32)).setSes s 0x2C0 (f / 2 ^ 32 % 2 ^ 32)
  let reach := sgetD d.kv.reach s 0
  let d := (d.callCount x.cls).debit s (x.pos + x.tokens.length) false
  let d := d.modKv fun v => v.setMirrored s (d.owners.map KvDev.key) fun n => if n = 2 ^ 24 then n else min n x.pos
  let slot := match cl with | c :: _ => c.slot | [] => 0
  let a := (d.admOf f).slots[slot]?
  let x := { x with slot := slot, encore := (match a with | some a => a.encore | none => false), frame := f, admitted := admitted, entered := 1,
                    epoch := d.epoch, segNo := d.pickSeg s, reach := reach }
  let d := d.modCall fun c =>
    { c with steps := c.steps ++ [x], replays := c.replays.filter fun y => y.session != s, ready := sdel c.ready s,
             claims := c.claims ++ cl,
             pairs := (List.range x.chunks).foldl (fun p j =>
               smod p (pairKey (f + j) x.decode x.cls) 0 (· + d.chunkPairs x j)) c.pairs }
  d.enterChunk x 0

/-- What admission carries through a scan: the device, steps admitted so far, the blocked classes and kinds (R232), and the
highest index admitted of each class (R230). -/
structure ScanSt where
  dev : Dev
  n : Nat := 0
  blocked : List (Nat × Bool) := []
  top : Sparse Nat := []

/-- Checks 9 to 11 and admission. -/
def ScanSt.tryAdmit (z : ScanSt) (c : Cand) : ScanSt :=
  let d := z.dev
  let s := c.session
  let x := d.planStep s
  let f := d.frm.frame
  let wait : ScanSt :=
    { z with dev := d.callCount (4 + x.cls), blocked := if c.ready + 8 ≤ f then (x.cls, x.decode) :: z.blocked else z.blocked }
  if z.blocked.contains (x.cls, x.decode) then z
  else
    match d.slotClaims x f with
    | none => wait
    | some cl =>
      if (sget d.kv.releases s).isSome || !d.claimFits s (x.pos + x.tokens.length) (x.cls == 0) false then wait
      else { z with dev := d.admitted x cl z.n, n := z.n + 1, top := smod z.top x.cls 0 fun t => max t s }

/-- The device accepts no step and writes DRAINING records (R233, R499). -/
def Dev.drainingScan (d : Dev) : Bool :=
  d.sys.st == .struck || !(match d.scr.script with | some sc => sc.isEntry (coordKey d.coord) | none => false)

/-- One candidate through R231; a cancelled call between steps ends first (R237), and a draining device takes new calls only to end
them (R233). -/
def ScanSt.check (vocab : Nat) (z : ScanSt) (c : Cand) : ScanSt :=
  let d := z.dev
  let s := c.session
  let acc := (sget d.call.calls s).isSome
  let dropReady (d : Dev) : Dev := d.modCall fun c => { c with ready := sdel c.ready s }
  if acc && d.cancelledSeq s (sgetD d.call.calls s {}).seq && !d.faulted s then
    if d.outRoom s acc then { z with dev := d.endCall s .cancelled 0 .past } else { z with dev := d.callCount 15 }
  else if d.drainingScan then
    if acc then z
    else if d.outRoom s acc then { z with dev := dropReady ((d.clearCalling s).endCall s .draining 0 .past) }
    else z
  else if d.call.hold && !acc then z
  else if d.faulted s then { z with dev := dropReady (d.sessionFault s) }
  else if d.sstate s = 3 then { z with dev := (d.wantSwapIn s false).swapInTry s }
  else if d.sstate s = 4 then z
  else if !d.outRoom s acc then { z with dev := d.callCount 15 }
  else
    let (d, ok) := if acc then (d, true) else d.tryAccept s vocab
    if !ok then { z with dev := d }
    else if !d.epochOk s then { z with dev := d.endCall s .staleContext 0 .past }
    else
      let want := !acc && bit (d.held s 0) 14
      match if want then d.adapterFor (fld (d.held s 0) 24 8) (fld (d.held s 0) 4 4) else some 0 with
      | none => { z with dev := d.endCall s .noAdapter 0 .past }
      | some n =>
        let d := if want then d.pinAdapter s n else d
        if d.sys.st != .playing then { z with dev := d } else ScanSt.tryAdmit { z with dev := d } c

/-- A class's rotor moves past the highest index admitted (R230). -/
def Call.turnRotor (c : Call) (top : Sparse Nat) : Call :=
  { c with rotor := top.foldl (fun r t => sput r t.1 ((t.2 + 1) % 2 ^ 20)) c.rotor }

/-- Admission stops while a codeword of the script image is lost (R204). -/
def Dev.imageLost (d : Dev) : Bool := d.mem.bad.any fun c => regionOf (64 * c) == .scriptImage

/-- Admission of a scan. -/
def Dev.admission (d : Dev) : Dev :=
  match d.scr.script with
  | none => d
  | some sc =>
    if d.imageLost || d.frm.draining == some .unload || d.frm.draining == some .park then d
    else
      let z := (d.candidates d.frm.frame).foldl (ScanSt.check sc.hdr.vocab) { dev := d }
      z.dev.modCall fun c => c.turnRotor z.top

end Sys2Proof.Machine
end

