-- ==== Sys2Proof/Machine/Steps.lean ====
section
/-! DEFINITION. Step completion (R236 to R240, R129, R130, R245, R275), discarded steps at a boundary (R238, R242, R401), the
scan as a whole (R225, R233, R396), and the counters' clears. -/
namespace Sys2Proof.Machine

/-! ## Draft length (R245) -/

/-- The acceptance window as entries (a, k_eff), oldest first. -/
def Dev.accWindow (d : Dev) (s : Nat) : List (Nat × Nat) :=
  let v := leNat (d.hbmRd (sesAddr s 0x230) 12)
  (List.range (d.sesF s 0x22C 0 5)).map fun n => (fld v (6 * n) 3, fld v (6 * n + 3) 3)

def Dev.setWindow (d : Dev) (s : Nat) (w : List (Nat × Nat)) : Dev :=
  let v := (w.zipIdx.map fun e => (e.1.1 + 8 * e.1.2) * 2 ^ (6 * e.2)).sum
  (d.setSes s 0x22C w.length).hbmWr (sesAddr s 0x230) (leBytes 12 v)

/-- K, BENCH and the window after a step that released a + 1 tokens. -/
def Dev.adaptK (d : Dev) (s a kEff : Nat) : Dev :=
  let k := d.sesF s 0x20C 16 3
  let bench := d.sesF s 0x20C 19 7
  let kMax := fld (d.held s 0) 9 3
  let put (d : Dev) (k b : Nat) : Dev := (d.setSesF s 0x20C 16 3 k).setSesF s 0x20C 19 7 b
  if 1 ≤ kEff then
    let w := d.accWindow s
    let w := (if w.length = 16 then w.drop 1 else w) ++ [(a, kEff)]
    if w.length = 16 && decide (5 * (w.map Prod.fst).sum < (w.map Prod.snd).sum) then (put d 0 64).setWindow s []
    else
      let d := d.setWindow s w
      if a = kEff && k < kMax then put d (k + 1) bench
      else if a ≤ kEff / 2 && 1 < k then put d (k - 1) bench
      else d
  else if 0 < bench then
    put d (if bench = 1 && bit (d.held s 0) 8 && 1 ≤ kMax then 1 else k) (bench - 1)
  else d

/-! ## Completion -/

/-- Stop tokens of a call: those in HELD and the script's (R219, R322). -/
def Dev.stopTokens (d : Dev) (s : Nat) : List Nat :=
  (((List.range 4).map fun n => d.held s (0x20 + 4 * n)).filter fun t => t != 0xFFFFFFFF) ++
    (match d.scr.script with | some sc => sc.stops | none => [])

/-- END of a completed step's record (R240): STOP before LIMIT when both hold (log 37). -/
def Dev.endReason (d : Dev) (x : Step) : Nat :=
  let s := x.session
  if x.prefillOnly then 3
  else if x.released.any (d.stopTokens s).contains then 2
  else if (sgetD d.call.calls s {}).maxNew ≤ d.sesF s 0x21C 0 24 + x.released.length then 1
  else 0

/-- A completed step counts toward leaving LEARN (R130). -/
def Dev.learnStep (d : Dev) (marked : Bool) : Dev :=
  let n := match d.scr.script with | some sc => sc.hdr.learn | none => 0
  if d.tile.learn && d.tile.left != 0 then d.modTile fun t => { t with left := if marked then n else t.left - 1 } else d

/-- The herd has other devices (R30). -/
def Dev.hasPeers (d : Dev) : Bool := !d.faces.isEmpty

/-- A step with what the other devices of the herd raised for it: precision flags and a mark for replay, free values (R126, R129; log 25).
A lead step never carries UNREPEATED. -/
def Dev.withRemote (d : Dev) (x : Step) : Step :=
  if !d.hasPeers then x
  else
    { x with prec := x.prec ||| (Config.remoteFlags d.freeCtr &&& if x.cls = 0 then 0x15 else 0x17),
             replay := x.replay || (Config.remoteMark d.freeCtr && decide (x.nReplay < 4)) }

/-- The session after an OK step, before its record (R236, R177). -/
def Dev.sessionAfter (d : Dev) (x : Step) : Dev :=
  let s := x.session
  let n := x.tokens.length - x.kEff
  let r := x.released.length
  let d := d.setSesF s 0x204 0 24 (x.pos + n + (r - 1))
  let d := match x.released.getLast? with
    | some t => ((d.setSes s 0x208 t).setSesF s 0x200 4 1 1).setSesF s 0x21C 0 24 (d.sesF s 0x21C 0 24 + r)
    | none => d
  let d := if x.first then
      (d.setSes s 0x210 ((d.ses s 0x210 + (sgetD d.call.calls s {}).words) % 2 ^ 32)).setSesF s 0x20C 0 16 x.epoch
    else d
  let d := d.modCall fun c => { c with calls := smod c.calls s {} fun i => { i with begun := true } }
  (d.setSesF s 0x220 0 16 (x.index + 1)).setSesF s 0x200 5 1 0

/-- A step completes with status OK: session, drafts, record, and the call's end or its next step. -/
def Dev.completeOk (d : Dev) (x : Step) : Dev :=
  let s := x.session
  let a := x.released.length - 1
  let fin := d.endReason x
  let r : RecIn :=
    { status := .ok, fin := fin, tokens := x.released, prec := (d.precOf x).toNat, delayed := x.delayed, seq := x.callSeq, step := x.index,
      skips := x.skips, pos := x.pos + x.tokens.length - x.kEff, kEff := x.kEff, accepted := a, frame := x.frame, epoch := x.epoch,
      frames := d.frm.frame - x.frame + 1 }
  let d := (d.learnStep false).sessionAfter x
  let d := if fin = 2 then d else d.adaptK s a x.kEff
  let n := min x.nextDrafts.length (d.sesF s 0x20C 16 3)
  let d := (x.nextDrafts.take n).zipIdx.foldl (fun d t => d.setSes s (0x300 + 4 * t.2) t.1) (d.setSes s 0x31C n)
  let d := d.writeRecord s true r
  if fin = 0 then
    d.modCall fun c => { c with steps := c.steps.filter fun y => y.session != s, ready := sput c.ready s (d.frm.frame + 1),
                                claims := c.claims.filter fun y => y.session != s }
  else d.closeCall s

/-- A step marked for replay: its output is discarded and it is admitted again (R129). -/
def Dev.replayStep (d : Dev) (x : Step) : Dev :=
  let s := x.session
  let y : Step := { x with prec := 8, skips := 0, delayed := false, replay := false, nReplay := x.nReplay + 1, sampled := false, released := [],
                           nextDrafts := [], entered := 1 }
  ((d.learnStep true).setSesF s 0x200 5 1 0).modCall fun c =>
    { c with steps := c.steps.filter fun z => z.session != s, replays := c.replays ++ [y], ready := sput c.ready s (d.frm.frame + 1),
             claims := c.claims.filter fun z => z.session != s }

/-- A step that does not complete with OK ends its call; IN_HEAD passes the record of a call's first step (R237, R238). -/
def Dev.endStep (d : Dev) (x : Step) (st : Status) (cause : Nat) : Dev :=
  let d := if st = .discarded || x.discard.isSome then d.claimBack x else d
  d.endCall x.session st cause (if x.first then (if st = .discarded && cause = 5 then .tail else .past) else .stay)

/-- STEP_COMPLETE (R236): outcomes in the order of R242; a step without every token sampled is discarded (R402). -/
def stepComplete (s t : Nat) (d : Dev) : Dev :=
  let d := d.at_ t
  match d.call.steps.find? fun x => x.session == s with
  | none => d
  | some x =>
    if !d.up || x.discard.isSome || d.kv.waitMirror.contains s then d
    else
    let x := d.withRemote x
    let d := if d.hasPeers then d.useFree 1 else d
    if d.faulted s then d.sessionFault s
    else if d.cancelledSeq s x.callSeq then d.endStep x .cancelled 0
    else if !d.muleUp then d.endStep x .discarded 1
    else if x.entered < x.chunks || (!x.sampled && !x.prefillOnly) then d.discardStep s (d.discardCause 1)
    else if x.replay && x.nReplay < 4 then d.replayStep x
    else if bit (d.held s 0) 1 && !d.mirrorReady s x.pos then d.modKv fun v => { v with waitMirror := setIns v.waitMirror s }
    else d.completeOk x

def execStepComplete (session : BitVec 20) (t : Nat) (s : State) : Host.Outcome State Fault Refusal :=
  s.onDev (stepComplete session.toNat t)

/-- Completions that waited for the mirror (R275). -/
def Dev.mirrorRetry (d : Dev) : Dev :=
  let l := d.kv.waitMirror
  l.foldl (fun d s => stepComplete s 0 d) (d.modKv fun v => { v with waitMirror := [] })

/-- Records of discarded steps, at the boundary after the discard (R401 order 4, R242). -/
def Dev.flushDiscards (d : Dev) : Dev :=
  d.call.steps.foldl (fun d x =>
    match x.discard with
    | some c => if d.cancelledSeq x.session x.callSeq then d.endStep x .cancelled 0 else d.endStep x .discarded c
    | none => d) (d.modErr fun e => { e with contain := 0 })

/-! ## The scan -/

/-- The scan of the open frame's first slot (R46 order 7, R225, R233). No call is accepted while the host link is down, Bus Master Enable at 0
included (R391, R396). -/
def Dev.scan (d : Dev) : Dev :=
  if !(d.sys.st == .playing || d.sys.st == .curtain || d.sys.st == .struck) then d
  else
    let f := d.frm.frame
    let d := d.modKv fun v => { v with claims := [] }
    let d := d.modCall fun c => { c with claims := c.claims.filter fun x => decide (f ≤ x.frame),
                                         pairs := c.pairs.filter fun x => decide (8 * f ≤ x.1) }
    let d := d.swapsEnd
    let d := d.call.empty.foldl Dev.emptySession d
    let d := d.call.init.foldl Dev.initSession d
    let d := d.kvScan.mirrorRetry
    let d := if d.muleUp then (d.readBitmap f).admission else d
    if d.sys.st = .struck then d.drainScan else d.preempt

/-! ## Clears (R250, R186) -/

def execCallCntClr (s : State) : Host.Outcome State Fault Refusal :=
  s.onDev fun d => if d.up then d.modCall fun c => { c with cnt := [] } else d

def execCallRouteClr (s : State) : Host.Outcome State Fault Refusal :=
  s.onDev fun d => if d.up then d.modCall fun c => { c with routeCnt := [] } else d

end Sys2Proof.Machine
end

