-- ==== Sys2Proof/Machine/Lifecycle.lean ====
section
/-! DEFINITION. What happens to the device as a whole when frames stop, a script is unloaded (R315, R317), the herd parks (R472,
R473), a curtain or a drain begins (R304), and a discovery starts (R364). -/
namespace Sys2Proof.Machine

/-! ## A frame's figures -/

/-- The loaded script's period in ns; 0 without a script. -/
def Dev.period (d : Dev) : Nat := match d.scr.script with | some sc => sc.hdr.period | none => 0
def Dev.declBand (d : Dev) : Nat := match d.scr.script with | some sc => sc.hdr.declBand | none => 0

/-- Clocks of a phase slot in a band (R69, R95). -/
def bandClocks (b : Nat) : Nat := if b = 3 then 20 else if b = 2 then 18 else 16

/-- Phase slots in a length of ns at the device's phase length: clocks of 2.5 GHz (-S) or 2.2 GHz (-E). -/
def Dev.slotsIn (d : Dev) (len : Nat) : Nat :=
  let c := bandClocks d.frm.phaseBand
  if Config.gradeE then 11 * len / (5 * c) else 5 * len / (2 * c)

/-! ## What DONE carries -/

/-- Every child's DONE of the open frame is held (R37). -/
def Dev.childrenDone (d : Dev) : Bool := d.children.all fun c => d.frm.children.any fun x => linkDir x.link == linkDir c

/-- What DONE carries: the causes and throttle of the device and its subtree, and the device that finished last (R37). -/
def Dev.doneInfo (d : Dev) : DoneInfo :=
  let cs := d.frm.children
  let last : Coord := if d.frm.ownLast then d.coord
    else match cs.getLast? with | some c => ⟨BitVec.ofNat 4 c.x, BitVec.ofNat 4 c.y⟩ | none => d.coord
  ⟨BitVec.ofNat 16 d.frm.frame, BitVec.ofNat 8 (cs.foldl (fun a c => a ||| c.causes) d.frm.causes),
   BitVec.ofNat 4 (cs.foldl (fun a c => max a c.throttle) d.thm.level), last⟩

/-- The aggregate is complete or taken as it stands. -/
def Dev.aggregate (d : Dev) : Dev :=
  let i := d.doneInfo
  d.modFrm fun f => { f with aggCauses := i.causes.toNat, aggX := i.last.x.toNat, aggY := i.last.y.toNat, aggThrottle := i.throttle.toNat }

/-- Stretch counters and the history of the frame that ends (R61). -/
def Frm.countLen (f : Frm) (len period : Nat) : Frm :=
  let f := { f with stretchTotal := min (f.stretchTotal + (len - period)) (2 ^ 64 - 1), stretchMax := min (max f.stretchMax len) (2 ^ 20 - 1) }
  if period + 40 < len then
    { f with stretchFrames := bump f.stretchFrames, lastCauses := f.aggCauses, lastX := f.aggX, lastY := f.aggY,
             stretchCause := (List.range 8).foldl (fun c n => if bit f.aggCauses n then smod c n 0 bump else c) f.stretchCause }
  else f

/-- Frames in which the device itself stalled, by cause. -/
def Frm.countStalls (f : Frm) : Frm := { f with stallCause := f.stalledFor.dedup.foldl (fun c n => smod c n 0 bump) f.stallCause }

/-- Slots of lateness of a link's transfer (R373, R380). -/
def Dev.lateSlots (d : Dev) (link n : Nat) : Dev :=
  d.modMesh fun m => { m with cnt := smod m.cnt (16 * link + 9) 0 fun c => bumpBy c n, short := setIns m.short (link / 12) }

/-! ## Stalls (R49) -/

/-- A stall is over at a slot of the phase clock: its whole slots count, with its cause and unit, and the frame's remaining cues move
later by them (R49, R52, R60, R61). -/
def Dev.endStall (d : Dev) (st : StallInfo) (slot : Nat) : Dev :=
  let n := slot - (st.slot + d.frm.stallShift)
  let d := if st.on.cause = 2 then d.lateSlots st.on.unit n else d
  d.modFrm fun f =>
    { f with stall := none, stallShift := f.stallShift + n, stallSlots := bumpBy f.stallSlots n, causes := f.causes ||| 2 ^ st.on.cause,
             stalledFor := setIns f.stalledFor st.on.cause, units := f.units ++ [(st.on.cause, st.on.unit)] }

/-- A frame of `len` ns ends in a stall: what it lasted counts as of one that ended (R58, R60, R61). -/
def Dev.cutStall (d : Dev) (len : Nat) : Dev :=
  match d.frm.stall with
  | some st => d.endStall st (d.slotsIn len)
  | none => d

/-! ## Frames stop -/

/-- Every slot of a frame lies below this. -/
def lastSlot : Nat := 2 ^ 32

/-- The end of a frame's work (R46 order 1, R194): what is under way completes (R49), a request left over is unserved, a lead one takes its
step with it (R126), apron and tags are zeroed, accumulators and repeat queues empty. -/
def Dev.workEnd (d : Dev) : Dev :=
  let d := d.advance lastSlot
  let left := d.tile.queue.flatMap Prod.snd
  let d := left.foldl (fun d r => if r.tok.cls = 0 then d.discardTok r.tok.step 1 else d.unserved r) d
  let d := (d.modMem Mem.zeroApron).tagZeroing
  d.modTile fun t =>
    { t with acc := [], pend := [], blocks := [], outs := [], served := [], queue := [], ins := none, rowOld := [], late := [], driven := [] }

/-- Nothing waits in the frame any more. -/
def Frm.stopCues (f : Frm) : Frm := { f with outst := [], stall := none }

/-- The open frame is over after `len` ns: DONE is taken as it stands, a stall is cut, the work ends, and the frame counts (R37, R46,
R61). -/
def Dev.frameOver (d : Dev) (len : Nat) : Dev :=
  let d := if d.frm.ownDone then d else d.cutStall len
  let d := if d.frm.doneSent then d else d.aggregate
  let d := if d.frm.ownDone then d else d.workEnd
  d.modFrm fun f => (f.stopCues.countLen len d.period).countStalls

/-- Length of the open frame so far; a frame that ends at its boundary lasts the planned period at least (R38). -/
def Dev.openLen (d : Dev) : Nat := d.now - d.frm.start
def Dev.fullLen (d : Dev) : Nat := max d.frm.planned d.openLen

/-- The device stops beginning frames: the open frame of `len` ns ends, a drain that waited for its boundary begins (R409), and records of
discarded steps are written (R401). -/
def Dev.endFrames (d : Dev) (len : Nat) : Dev :=
  let d := if d.frm.isOpen then (d.frameOver len).agesEnd len else d
  let d := if d.err.strikePending then d.enterStruck else d
  d.flushDiscards.modFrm fun f =>
    { f.stopCues with running := false, isOpen := false, tickLock := false, lanes := [], nextLanes := [], skipped := [], nextSkipped := [], drain := none,
                      draining := none, drainedHeld := [], drainedSent := false, stopAt := none, children := [], want := none }

/-! ## Script unload (R315, R317) -/

/-- Memories and tables that a load and an unload clear (R315 orders 2 to 5). -/
def Dev.clearScript (d : Dev) : Dev :=
  let d := d.modMem fun m =>
    ({ m with apron := [], tags := [], wings := [], localBuf := [], prompter := [], granule := [], owner := [], writer := [] } : Mem).zeroHbm
      kvPoolBase hbmEnd
  let d := if d.kv.job.isSome then d.kvDone 2 else d
  let d := d.modKv fun v =>
    { v with free := [], refs := [], zeroing := [], swaps := [], releases := [], abandoned := [], sent := [], wantIn := [], mirrors := [], mirrorOff := [],
             mirrored := [], waitMirror := [], claims := [], reach := [], shared := [], coming := [], lane := [], own := [] }
  let d := d.modCall fun c => { c with adpSlots := [], adpDir := [], adpJob := none }
  let d := d.modEng fun e => { late := e.late }
  let d := d.modTile fun t =>
    { t with acc := [], pend := [], blocks := [], served := [], marked := [], outs := [], queue := [], qtab := [], ups := [], learn := false,
             left := 0, modeReq := none, hostMode := none, probes := [], rot := [], ins := none, rowOld := [], late := [], driven := [],
             foreign := [], passing := [], users := [], lost := [] }
  d.modWts fun w => { w with cur := w.cur.map fun m => { m with secs := m.secs.map fun x => { x with done := false } } }

/-- Every session with VALID 1 is IDLE and holds nothing (R317); its call, if any, ends without a record (log 38). -/
def Dev.resetSessions (d : Dev) : Dev :=
  let d := (d.sessions ++ d.kvSessions).dedup.foldl (fun d s =>
    let d := d.hbmWr (sesAddr s 0x500) (List.replicate 192 0)
    if d.ses s 0 % 2 = 1 then
      let d := ((d.setSesF s 0x204 0 24 0).setSesF s 0x200 4 2 0).setSes s 0x31C 0
      (d.setSesF s 0x220 24 1 0).setSstate s 1
    else d) d
  d.modCall fun c => { c with steps := [], replays := [], calls := [], ready := [], claims := [], pairs := [] }

/-- The script is unloaded: a running exact-mode job has no pool left (R142), what R315 clears is cleared, sessions are reset, the frame counter is 0 (R36). -/
def Dev.unloadScript (d : Dev) : Dev :=
  let d := (d.exactFail 1).resetSessions.clearScript
  let d := d.modScr fun s => { s with script := none, hazCnt := s.hazCnt }
  let d := d.modFrm fun f => { f with frame := 0, played := 0, planned := 0, throttle := 0, phaseBand := 0, overrunHist := [] }
  d.dropWeights.modWts fun w => { w with hcBusy := none, hcNext := none, hcLast := none }

/-! ## Arrays and jobs that stop or pause -/

/-- Refreshes and resets in progress are abandoned (R304 order 2): the understudy waits for its reset. -/
def Tile.abandonSoft (t : Tile) : Tile :=
  { t with arrs := t.arrs.map fun a =>
      match a.2.job with
      | some (.refresh _) => (a.1, { a.2 with role := 2, pstate := 0, job := some .reset, toMeasure := 0 })
      | some .reset => (a.1, { a.2 with pstate := 0 })
      | some (.prove _) => (a.1, { a.2 with pstate := 0 })
      | _ => a }

/-- Refreshes and resets pause at the rows they have reached (R472 order 2); every programming pauses in PARKED (R473). -/
def Dev.pauseSoft (d : Dev) (all : Bool) : Dev :=
  d.tile.active.foldl (fun d a => if all || (d.arr a).soft then d.pauseProg a else d) d

/-! ## Parking (R472, R473) -/

/-- Links idle lanes 1 to 3 in PARKED and take them back on leaving. -/
def Dev.idleLanes (d : Dev) (idle : Bool) : Dev :=
  d.modMesh fun m => { m with links := m.links.map fun l => (l.1, { l.2 with idle := idle && l.2.working }) }

/-- PARKED: the power state of R473. -/
def Dev.enterParked (d : Dev) (herd : Bool) : Dev :=
  let d := d.modSys fun s => { s with parkScope := herd, parkPhase := .parked, parkCount := bump s.parkCount, selfRefresh := 0xF,
                                      awakeSent := false, awakeHeld := [] }
  let d := d.pauseSoft true
  ((d.idleLanes true).commitHistory).setSt .parked

/-- The PARKED power state ends (R473): self-refresh and lanes as before, paused work resumes. -/
def Dev.unpark (d : Dev) : Dev :=
  let d := d.modSys fun s => { s with selfRefresh := 0, parkPhase := .none, wakeWanted := false, awakeSent := false, awakeHeld := [] }
  (d.idleLanes false).resumePaused

/-- The PARKED power state is left: memory and lanes as before, frames may begin (R472 wake order 3, R473). -/
def Dev.leavePower (d : Dev) : Dev :=
  ((d.modSys fun s => { s with selfRefresh := 0, parkPhase := .waking, wakeWanted := false, awakeHeld := [], awakeSent := false }).idleLanes false).modFrm
    fun f => { f with running := true }

/-- A wake event (R472): alone, READY; in a parked herd, WAKE goes toward the bellwether, which sends it down; during a park
sequence it waits for PARKED. -/
def Dev.wakeEvent (d : Dev) : Dev :=
  if d.sys.st = .parked then
    if !d.sys.parkScope then
      let d := d.unpark
      (if d.sys.st = .parked then d.setSt .ready else d).applyHolds
    else if d.sys.parkPhase != .parked then d
    else if d.bellwether then (d.sendDown (.wake d.coord)).leavePower
    else d.sendUp (.wake d.coord)
  else if d.sys.st = .playing && (d.frm.draining == some .park || (d.frm.drain.any fun x => x.1 == .park)) then
    d.modSys fun s => { s with wakeWanted := true }
  else d

/-! ## Drains (R304 order 2, R317, R472) -/

/-- The curtain's first order on this device. -/
def Dev.beginCurtain (d : Dev) : Dev :=
  let d := (d.exactFail 2).modTile Tile.abandonSoft
  let d := d.modWts fun w => { w with phase := 1, hcBusy := none, ready := [], readySent := false, rewriteSent := false, failed := false }
  if d.sys.st = .playing then (d.setSt .curtain).event .curtain else d

/-- The drain named for this frame begins. -/
def Dev.beginDrainKind (d : Dev) (k : DrainKind) : Dev :=
  let d := d.modFrm fun f => { f with drain := none, draining := some k, drainedHeld := [], drainedSent := false }
  match k with
  | .curtain => d.beginCurtain
  | .unload => ((d.exactFail 2).modTile Tile.abandonSoft).modWts fun w => { w with hcBusy := none }
  | .park => (d.pauseSoft false).modSys fun s => { s with parkPhase := .draining }

/-- Frames have stopped for a drain (R317, R472 order 3). A STRUCK device stays STRUCK (log 39). -/
def Dev.drainEnd (d : Dev) (k : DrainKind) : Dev :=
  let d := d.endFrames d.fullLen
  match k with
  | .curtain => d
  | .unload =>
    let d := d.unloadScript
    (if d.sys.st = .struck then d else d.setSt .ready).resumePaused
  | .park =>
    if d.sys.st = .struck then d
    else
      let d := d.enterParked true
      if d.sys.wakeWanted then (d.modSys fun s => { s with wakeWanted := false }).wakeEvent else d

/-! ## Discovery begins (R364) -/

/-- The curtain is cut off by a discovery: sections recorded stay recorded (log 40). -/
def Wts.cutCurtain (w : Wts) : Wts :=
  { w with phase := if w.phase = 5 then 5 else 0, rewriteSent := false, ready := [], readySent := false, raiseAt := none, own := [], ownBegun := [],
           toCount := [] }

/-- A device leaves its frames for a discovery: steps discarded with cause 3, READY (R364, R472). -/
def Dev.leaveFrames (d : Dev) : Dev :=
  let playing := d.inPlay
  let parked := d.sys.st == .parked
  let d := if playing then
      (d.raise { code := Config.rediscoverCode, cls := 1, dcause := d.discardCause 3, onlyDiscarding := true }).discardAll (d.discardCause 3)
    else d
  let d := ((d.endFrames d.openLen).modTile Tile.dropLoads).modWts Wts.cutCurtain
  let d := if playing || parked then d.modTile fun t => { t with modeReq := t.modeReq <|> some 3 } else d
  let d := if parked then d.unpark else d
  let d := d.modSys fun s => { s with parkPhase := .none }
  (if (playing || parked) && d.sys.st != .struck then d.setSt .ready else d).dropRemote

/-- A link trains: its flit counts and buffers start over (R359); a link with every lane disabled stays retired. -/
def Link.train (l : Link) : Link :=
  if l.st = 7 then l
  else { disabled := l.disabled, drops := l.drops, st := 1 }

/-- Every link of the device in training. -/
def Dev.trainLinks (d : Dev) : Dev := (List.range 48).foldl (fun d n => d.modLink n Link.train) d

/-- Discovery begins (R364): frames are left, MESH_ID takes effect (R363), and the links train (R365 order 1). -/
def Dev.beginDiscovery (d : Dev) : Dev :=
  let d := d.leaveFrames.trainLinks
  let d := d.modMesh fun m =>
    { m with disc := 1, at_ := if m.herd = 0xFF then none else some ⟨m.x, m.y⟩, herdAt := m.herd, reports := [], discovers := [], devices := 0 }
  d.modFrm fun f => { f with pathTarget := f.path }

/-- A REDISCOVER flood of this device; the spec gives its cause byte no values (R364). -/
def Dev.floodRediscover (d : Dev) : Dev :=
  let d := d.modMesh fun m => { m with ownRedisc := m.ownRedisc + 1, seenRedisc := (d.coord, m.ownRedisc + 1) :: m.seenRedisc }
  d.flood (.rediscover ⟨d.coord, d.mesh.ownRedisc, 0⟩)

end Sys2Proof.Machine
end

