-- ==== Sys2Proof/Machine/Thermal.lean ====
section
/-! DEFINITION. Temperature, supply and housekeeping (chapter 15): bands, diodes, warning and throttle, thermistors, rails,
the converter's requests, AVSBus and the trip. -/
namespace Sys2Proof.Machine

/-- The housekeeping domain runs (R23). -/
def Dev.hkRuns (d : Dev) : Bool :=
  !d.inReset && d.sys.st != .off && d.sys.st != .tripped && d.sys.st != .blackout

def Thm.count (t : Thm) (n : Nat) : Thm := { t with cnt := smod t.cnt n 0 bump }

/-! ## Bands (R89, R429 to R431) -/

/-- Lower bound of a band in 0.1 °C; band A has none. -/
def bandLower (b : Nat) : Int := if b = 3 then 950 else if b = 2 then 800 else 600

/-- The hottest band whose lower bound is at most a guarded temperature. -/
def risingBand (t : Int) : Nat := if 950 ≤ t then 3 else if 800 ≤ t then 2 else if 600 ≤ t then 1 else 0

/-- Band after a reading, from the current (pending) band and the temperature that stands for T_RO (R430). -/
def nextBand (cur : Nat) (tro : Int) : Nat :=
  let t := tro + 30
  let r := risingBand t
  if cur < r then r else if r < cur then (if t < bandLower cur - 20 then r else cur) else cur

/-- A diode's reading counts: taken, and not excluded (R432). -/
def Thm.diodeOk (t : Thm) (n : Nat) : Option Int := if t.excl.getLsbD n then none else sget t.diode n

/-- The hottest valid diode: its number and reading (R432). -/
def Thm.hottest (t : Thm) : Option (Nat × Int) :=
  (List.range 8).foldl (fun best n =>
    match t.diodeOk n, best with
    | some v, some (_, b) => if b < v then some (n, v) else best
    | some v, none => some (n, v)
    | none, _ => best) none

/-- One oscillator's reading: mismatch count, fault (R431), pending band (R430). -/
def Thm.oscRead (t : Thm) (f : Nat) (tro : Int) : Thm :=
  let t := { t with ro := sput t.ro f tro }
  let t := match t.diodeOk (f / 8) with
    | some dv =>
      let m := if 100 < |tro - dv| then sgetD t.roMis f 0 + 1 else 0
      let t := { t with roMis := sput t.roMis f m }
      if 4 ≤ m && !t.roFault.contains f then { t.count 3 with roFault := setIns t.roFault f } else t
    | none => t
  let cur := sgetD t.pendBand f 0
  let b := if t.roFault.contains f then
      match t.diodeOk (f / 8), t.hottest with
      | some v, _ => nextBand cur (v + 50)
      | none, some (_, v) => nextBand cur (v + 50)
      | none, none => 3
    else nextBand cur tro
  { t with pendBand := sput t.pendBand f b }

/-- The pending bands take effect (R47, R430); a flock that changes counts (R101). -/
def Thm.applyBands (t : Thm) : Thm :=
  (List.range 64).foldl (fun t f =>
    let b := sgetD t.pendBand f 0
    if sgetD t.band f 0 = b then t
    else { t with band := sput t.band f b, bandChanges := smod t.bandChanges f 0 (bumpW 16) }) t

/-- The pending bands of a device take effect; for a flock that changes the 1,024 frames of R94 begin. -/
def Dev.applyBands (d : Dev) : Dev :=
  let old := d.thm.band
  let d := d.modThm Thm.applyBands
  d.modTile fun t =>
    { t with bandSince := (List.range 64).foldl (fun m f =>
        if sgetD old f 0 = sgetD d.thm.band f 0 then m else sput m f (1024, sgetD old f 0)) t.bandSince }

/-- BAND_READING (R429): every oscillator is read; while frames are not running the new bands take effect at once. -/
def bandReading (temps : List Int) (d : Dev) : Dev :=
  if d.hkRuns then
    let t := (List.range 64).foldl (fun t f => match temps[f]? with | some v => t.oscRead f v | none => t) d.thm
    let e := d.modThm fun _ => t
    if d.frm.running then e else e.applyBands
  else d

def execBandReading (temps : List Int) (s : State) : Host.Outcome State Fault Refusal := s.onDev (bandReading temps)

/-! ## Monitor cycle (R432 to R436, R443) -/

/-- Burst exponent of a channel in the monitor cycle (R442). -/
def monN (ch : Nat) : Nat := if ch < 8 || ch = 16 || ch = 17 then 10 else if 18 ≤ ch && ch ≤ 20 then 6 else 8

/-- Exclude a diode when its reading is out of range or differs from its row's oscillators four times (R432). -/
def Thm.diodeRead (t : Thm) (n : Nat) (v : Int) : Thm :=
  let t := { t with diode := sput t.diode n v }
  if t.excl.getLsbD n then t
  else
    let row := (List.range 8).filterMap fun i =>
      let f := 8 * n + i
      if t.roFault.contains f then none else sget t.ro f
    let off := !row.isEmpty && decide ((150 : Int) * row.length < |v * row.length - row.sum|)
    let m := if off then sgetD t.diodeMis n 0 + 1 else 0
    let t := { t with diodeMis := sput t.diodeMis n m }
    if v < -200 || 1500 < v || 4 ≤ m then { t.count 4 with excl := t.excl ||| BitVec.ofNat 8 (2 ^ n) } else t

/-- Diodes excluded (R432). -/
def Thm.excluded (t : Thm) : Nat := ((List.range 8).filter fun n => t.excl.getLsbD n).length

/-- DETAIL word 0 of a thermal record (R436). -/
def Thm.hotWord (t : Thm) : Word := match t.hottest with | some (_, v) => BitVec.ofInt 32 v | none => 0x80000000

/-- A thermal record and its event (R436). -/
def Dev.thermalRecord (d : Dev) (threshold : Nat) : Dev :=
  (d.raise { code := 0x0C01, cls := 0, detail := [d.thm.hotWord, BitVec.ofNat 32 threshold] }).event .thermal

/-- WARN after a cycle (R434, R436). -/
def Dev.warnUpdate (d : Dev) : Dev :=
  let set (d : Dev) : Dev := (d.modThm fun t => { t with warn := true }).modSys fun s => { s with ibi := s.ibi + 1 }
  match d.thm.hottest with
  | some (_, v) =>
    if 950 ≤ v && !d.thm.warn then ((set d).modThm fun t => t.count 0).thermalRecord 95
    else if v < 900 then d.modThm fun t => { t with warn := false }
    else d
  | none => if d.thm.warn then d else (set d).thermalRecord 0

/-- Throttle level after a cycle at time t (R435, R436). -/
def Dev.throttleUpdate (d : Dev) (t : Nat) : Dev :=
  let old := d.thm.level
  let since (n : Nat) : Bool := match d.thm.lastChange with | some c => decide (c + n ≤ t) | none => true
  let go (l : Nat) (d : Dev) : Dev := d.modThm fun m => { m with level := l, lastChange := some t }
  if 2 ≤ d.thm.excluded then
    if old < 8 then ((go 8 d).modThm fun m => m.count 1).thermalRecord 0 else d
  else
    match d.thm.hottest with
    | some (_, v) =>
      if 1050 ≤ v && old < 8 && (old == 0 || since 1000000) then
        ((go (old + 1) d).modThm fun m => m.count 1).thermalRecord 105
      else if v < 1000 && 0 < old && since 10000000 then (go (old - 1) d).modThm fun m => m.count 2
      else d
    | none => d

/-- Sum of a monitor burst. -/
def monSum (m : MonitorIn) (ch : Nat) : Nat := match m.bursts[ch]? with | some b => b.sum | none => 0

/-- A thermistor's reading from its sum and that of VDD_AON (R433). -/
def Thermistor.read (h : Thermistor) (sum aon : Nat) (free : Int) : Thermistor :=
  let v : Rat := (sum : Rat) / 2 ^ 10
  let a : Rat := (aon : Rat) / 2 ^ 8
  if 98 / 100 * a < v then { h with isOpen := true, short := false, valid := false }
  else if v < 2 / 100 * a then { h with isOpen := false, short := true, valid := false }
  else
    let r := 10000 * v / (a - v)
    let rn : Rat := 10 * h.rnom.toNat
    let inv : Rat := 1 / (29815 / 100) + (if h.beta = 0 || rn = 0 || r ≤ 0 then 0 else fxRat (fxLn (r / rn)) / h.beta.toNat)
    let t := rne ((1 / inv - 27315 / 100) * 10)
    let t := if h.beta = 0 || rn = 0 || r ≤ 0 || inv ≤ 0 || t < -2048 || 2047 < t then free else t
    let al := sext 12 h.alarm.toNat
    { h with isOpen := false, short := false, valid := true, temp := t,
             high := if h.en && decide (al ≤ t) then true else if t < al - 20 then false else h.high }

/-- A rail's burst mean in µV (R441, R442). -/
def railUv (sum n div : Nat) : Rat := (sum : Rat) * 1200000 * div / (4096 * 2 ^ n)

/-- A supply outside its fatal window (R411, R488): rail number, µV and the limit broken. -/
def railBroken (rail : Nat) (uv nominal : Rat) (pct : Nat) : Option (List Word) :=
  let lo := nominal * (100 - pct) / 100
  let hi := nominal * (100 + pct) / 100
  let w (q : Rat) : Word := BitVec.ofNat 32 q.floor.toNat
  if uv < lo then some [BitVec.ofNat 32 rail, w uv, w lo] else if hi < uv then some [BitVec.ofNat 32 rail, w uv, w hi] else none

/-- MONITOR_CYCLE (R443). -/
def monitorCycle (m : MonitorIn) (t : Nat) (d : Dev) : Dev :=
  if !d.hkRuns then d
  else
    let d := d.at_ t
    let d := d.modHkc fun h =>
      let c := h.cycle + 1
      { h with cycle := c,
               mon := (List.range 29).foldl (fun l ch => sput l ch (monSum m ch / 2 ^ (monN ch - 4) % 65536, c % 65536)) h.mon }
    let d := d.modThm fun x =>
      let x := (List.range 8).foldl (fun x n => match m.diodes[n]? with | some v => x.diodeRead n v | none => x) x
      let x := match x.hottest with
        | some (n, v) => { x with hot := v, hotDiode := n, peak := max x.peak v }
        | none => x
      { x with monitored := true,
               thmA := x.thmA.read (monSum m 16) (monSum m 11) (Config.freeThermistor d.freeCtr),
               thmB := x.thmB.read (monSum m 17) (monSum m 11) (Config.freeThermistor (d.freeCtr + 1)) }
    let d := (d.useFree 2).warnUpdate.throttleUpdate t
    let chk := [railBroken 0 (railUv (monSum m 8) 8 1) ((d.thm.vset : Rat) * 1000) 6,
                railBroken 1 (railUv (monSum m 9) 8 1) 1100000 5, railBroken 2 (railUv (monSum m 10) 8 1) 900000 6]
    chk.foldl (fun d r => match r with | some w => d.raise { code := 0x0F05, cls := 3, detail := w } | none => d) d

def execMonitorCycle (m : MonitorIn) (t : Nat) (s : State) : Host.Outcome State Fault Refusal := s.onDev (monitorCycle m t)

/-! ## Converter requests (R443 to R445) -/

/-- EXT_VREF as the latest monitor reading of channel 18 shows it lies within 10% of HKC_EXT_VREF.UV (R444). -/
def Hkc.extOk (h : Hkc) : Bool :=
  let uv : Rat := ((sgetD h.mon 18 (0, 0)).1 : Rat) * 1200000 / 65536
  let r : Rat := h.extUv.toNat
  decide (9 / 10 * r ≤ uv) && decide (uv ≤ 11 / 10 * r)

/-- The fields a write of HKC_CTRL carries: N from 4 to 14 only (R10, R447). -/
def Hkc.ctrlFields (h : Hkc) (n : BitVec 4) (urg : BitVec 5) : Hkc :=
  { h with n := if 4 ≤ n.toNat && n.toNat ≤ 14 then n else h.n, urgChan := urg }

/-- A change of reference clears REF_SETTLED (R444). -/
def Hkc.useRef (h : Hkc) (r : Nat) : Hkc := if h.curRef = r then h else { h with curRef := r, settled := false }

/-- START: a host burst with the values latched now, refused when EXT_VREF is out of its window, ignored while BUSY. -/
def Hkc.start (h : Hkc) : Hkc :=
  if h.burst.isSome then h
  else if h.ref = 1 && !h.extOk then { h with err := true }
  else { h with burst := some ⟨h.chan.toNat, h.n.toNat, h.ref.toNat⟩, aborts := 0 }.useRef h.ref.toNat

/-- URGENT, ignored while URG_BUSY (R445). -/
def Hkc.urgent (h : Hkc) : Hkc :=
  if h.urg.isSome then h else { h.abortBurst with urg := some h.urgChan.toNat }

def hkcStart (n : BitVec 4) (urg : BitVec 5) (d : Dev) : Dev :=
  if d.up then d.modHkc fun h => (h.ctrlFields n urg).start else d
def hkcUrgent (n : BitVec 4) (urg : BitVec 5) (d : Dev) : Dev :=
  if d.up then d.modHkc fun h => (h.ctrlFields n urg).urgent else d
/-- A write of HKC_REF.SEL; 3 is reserved (R10, R447). The reference itself changes when a burst uses it (R443). -/
def hkcRefWrite (sel : BitVec 2) (d : Dev) : Dev :=
  if d.up && sel != 3 then d.modHkc fun h => { h with ref := sel } else d

def execHkcStart (n : BitVec 4) (urg : BitVec 5) (s : State) : Host.Outcome State Fault Refusal := s.onDev (hkcStart n urg)
def execHkcUrgent (n : BitVec 4) (urg : BitVec 5) (s : State) : Host.Outcome State Fault Refusal := s.onDev (hkcUrgent n urg)
def execHkcRefWrite (sel : BitVec 2) (s : State) : Host.Outcome State Fault Refusal := s.onDev (hkcRefWrite sel)

/-- What a reserved channel converts as: 0 V (R442). -/
def zeroBurst : Burst := ⟨0, 0, 0⟩

/-- HOST_BURST_DONE (R445): no sample is taken while REF_SETTLED is 0; afterwards the converter returns to the internal
reference. -/
def hostBurstDone (b : Burst) (d : Dev) : Dev :=
  if d.hkRuns && d.hkc.settled && d.hkc.burst.isSome then
    d.modHkc fun h =>
      let b := if (match h.burst with | some q => decide (29 ≤ q.chan) | none => false) then zeroBurst else b
      ({ h with acc := b.sum % 2 ^ 26, min := b.min, max := b.max, done := true, burst := none,
                clipped := b.min == 0 || b.max == 4095 }).useRef 0
  else d

/-- URGENT_DONE (R445). -/
def urgentDone (b : Burst) (d : Dev) : Dev :=
  if d.hkRuns && d.hkc.settled && d.hkc.urg.isSome then
    let b := if (match d.hkc.urg with | some c => decide (29 ≤ c) | none => false) then zeroBurst else b
    d.modHkc fun h => { h with urgAcc := b.sum % 2 ^ 26, urgMin := b.min, urgMax := b.max, urgDone := true, urg := none }
  else d

/-- REF_SETTLED (R444). -/
def refSettled (d : Dev) : Dev := if d.hkRuns then d.modHkc fun h => { h with settled := true } else d

def execHostBurstDone (b : Burst) (s : State) : Host.Outcome State Fault Refusal := s.onDev (hostBurstDone b)
def execUrgentDone (b : Burst) (s : State) : Host.Outcome State Fault Refusal := s.onDev (urgentDone b)
def execRefSettled (s : State) : Host.Outcome State Fault Refusal := s.onDev refSettled

/-! ## AVSBus (R424 to R427) -/

/-- AVS_POLL: ten readings make one 1 ms average. -/
def avsPoll (mv : BitVec 12) (amps : BitVec 11) (t : Nat) (d : Dev) : Dev :=
  if !d.coreRuns then d
  else
    (d.at_ t).modThm fun m =>
      let l := m.samples ++ [mv.toNat * amps.toNat]
      let m := { m with pwrMv := mv, pwrAmps := amps, samples := l }
      if l.length < 10 then m
      else
        let w := min 4095 (rne ((l.sum : Rat) / (1000 * l.length))).toNat
        { m with samples := [], winStart := t, avgW := w, maxW := max m.maxW w }

/-- AVS_READBACK: a reading more than 15 mV off repeats the write; after three failures writing stops. -/
def avsReadback (mv : Nat) (d : Dev) : Dev :=
  if !d.coreRuns || d.thm.avsStopped then d
  else if mv ≤ d.thm.vset + 15 && d.thm.vset ≤ mv + 15 then d.modThm fun m => { m with avsFails := 0 }
  else if d.thm.avsFails + 1 < 3 then (d.modThm fun m => { m with avsFails := m.avsFails + 1 }).emit (.avsWrite d.thm.vset)
  else d.modThm fun m => { m.count 5 with avsErr := true, avsFails := 0, avsStopped := true }

def execAvsPoll (mv : BitVec 12) (amps : BitVec 11) (t : Nat) (s : State) : Host.Outcome State Fault Refusal :=
  s.onDev (avsPoll mv amps t)
def execAvsReadback (mv : Nat) (s : State) : Host.Outcome State Fault Refusal := s.onDev (avsReadback mv)

/-- THERM_CNT_CLR (R446). -/
def thermCntClr (d : Dev) : Dev := if d.up then d.modThm fun m => { m with cnt := [], peak := 0, maxW := 0 } else d
def execThermCntClr (s : State) : Host.Outcome State Fault Refusal := s.onDev thermCntClr

/-! ## Trip (R437 to R440) -/

/-- Age of a trip in seconds, saturating at 4,095 (R439). -/
def tripAge (now : Nat) : Option Nat → Nat
  | some t => min 4095 ((now - t) / 1000000000)
  | none => 4095

/-- THERM_TRIP and the ages as a trip updates them (R438, R439). -/
def Thm.trip (m : Thm) (diode : Nat) (fault : Bool) (t : Nat) : Thm :=
  { m with tripCount := bumpW 8 m.tripCount, tripDiode := diode, tripCause := if fault then 2 else 1,
           tripLatched := m.tripLatched || (tripAge t m.trip1 < 3600 && tripAge t m.trip2 < 3600),
           trip2 := m.trip1, trip1 := some t, tripRecord := true }

/-- The core and housekeeping domains stop; nothing in flight survives (R438). -/
def Dev.stopCore (d : Dev) : Dev :=
  let d := d.modSys fun s => { s with selfRefresh := 0xF, coreStopped := true }
  let d := d.modFrm fun _ => {}
  let d := d.modCall fun c => { c with steps := [], replays := [] }
  let d := d.modDbg fun b => { b with holdPin := false, holdCmd := false, holdHazard := false, holdJtag := false, remote := [],
                                      frozen := false }
  d.linkLoss

/-- THERMAL_TRIP in each state (R440). -/
def thermalTrip (diode : Fin 2) (fault : Bool) (t : Nat) (d : Dev) : Dev :=
  if d.sys.st = .off then d
  else
    let d := d.at_ t
    if d.sys.st = .tripped then
      if fault then d.modThm fun m => { m with tripCause := 2, tripDiode := diode.val } else d
    else
      let d := (d.modThm fun m => m.trip diode.val fault t).modSys fun s => { s with thermTripN := true }
      if d.sys.st = .blackout then d else d.stopCore.setSt .tripped

def execThermalTrip (diode : Fin 2) (fault : Bool) (t : Nat) (s : State) : Host.Outcome State Fault Refusal :=
  s.onDev (thermalTrip diode fault t)

end Sys2Proof.Machine
end

