-- ==== Sys2Proof/Machine/Boot.lean ====
section
/-! DEFINITION. Firmware images (R451, R452, R454), reset and start-up (R449, R450, R410), and the pins, rails and trip release that
reset or start the device (R395, R439, R440, R483, R484, R487, R489). A start-up runs whole in the command that begins it (log 4). -/
namespace Sys2Proof.Machine

/-! ## Firmware images -/

/-- A firmware image whose header has its form. -/
structure FwImage where
  kind : Nat
  ver : Nat
  svn : Nat
  level : Nat
  header : List Byte
  body : List Byte
  sig : List Byte
  /-- Compatibility table (R454): stepping, die level, Stage Manager level, ABI range. -/
  table : List (Nat × Nat × Nat × Nat × Nat)
  deriving DecidableEq, Repr

/-- An entry of the compatibility table; none when bytes 5 to 7 are not 0. -/
def parseCompat (b : List Byte) : Option (Nat × Nat × Nat × Nat × Nat) :=
  if allZero (slice b 5 3) then some (leAt b 0 1, leAt b 1 1, leAt b 2 1, leAt b 3 1, leAt b 4 1) else none

/-- Largest body of a kind: 1 Box Office, 2 Stage Manager. -/
def fwMaxBody (kind : Nat) : Nat := if kind = 1 then 524288 else 8388608

/-- Magic, fields and reserved bytes of a header (R451), its length aside. -/
def fwHeaderOk (h : List Byte) : Bool :=
  let kind := leAt h 4 4
  let n := leAt h 0x1C 4
  leAt h 0 4 == 0x46574931 && (kind == 1 || kind == 2) && leAt h 0x0E 2 == 0 && decide (1 ≤ leAt h 0x10 4) && decide (leAt h 0x10 4 ≤ 255) &&
    (if kind = 1 then decide (1 ≤ n) && decide (n ≤ 4096) else leAt h 0x18 4 == 0 && n == 0) && allZero (slice h 0x40 192)

/-- The image a byte list begins with. -/
def parseFw (bs : List Byte) : Option FwImage := do
  let h := slice bs 0 256
  let kind := leAt h 4 4
  let len := leAt h 0x14 4
  let off := leAt h 0x18 4
  let n := leAt h 0x1C 4
  if !fwHeaderOk h || fwMaxBody kind < len || bs.length < 256 + len + 3309 || (kind = 1 && len < off + 8 * n) then failure
  let body := slice bs 256 len
  let table ← if kind = 1 then (List.range n).mapM fun i => parseCompat (slice body (off + 8 * i) 8) else some []
  some ⟨kind, leAt h 8 4, leAt h 0x0C 2, leAt h 0x10 1, h, body, slice bs (256 + len) 3309, table⟩

def FwImage.signed (i : FwImage) : Bool := Config.mldsaVerify Config.vendorKey i.header i.sig
def FwImage.digestOk (i : FwImage) : Bool := shake256 i.body == slice i.header 0x20 32
/-- Digest of a whole image (R458). -/
def FwImage.digest (i : FwImage) : List Byte := shake256 (i.header ++ i.body ++ i.sig)

/-- A slot's image qualifies (R452). -/
def qualifies (kind floor : Nat) (bs : List Byte) : Option FwImage := do
  let i ← parseFw bs
  if i.kind == kind && i.signed && i.digestOk && decide (floor ≤ i.svn) then some i else none

/-- The qualifying slot with the higher VERSION; either one when both have the same (log 64). -/
def pickFw (a b : Option FwImage) : Option (Bool × FwImage) :=
  match a, b with
  | some i, some j => if i.ver < j.ver || (i.ver == j.ver && Config.slotTie) then some (true, j) else some (false, i)
  | some i, none => some (false, i)
  | none, some j => some (true, j)
  | none, none => none

/-- The first entry of the table that names the stepping and a Stage Manager level. -/
def FwImage.pairing (i : FwImage) (level : Nat) : Option (Nat × Nat × Nat × Nat × Nat) :=
  i.table.find? fun e => e.1 == Config.stepping.toNat && e.2.2.1 == level

/-! ## Reset (R449) -/

/-- Programming stops where it is; frame-bound work is gone. -/
def Arr.cut (x : Arr) : Arr :=
  { x with pstate := if x.incomplete then 5 else 0, job := none, row := 0, started := 0, toMeasure := 0, toSuspend := false,
           groups := x.groups.map fun g => (g.1, { g.2 with sumE := 0, sumM := 0, qual := false, mE := 0, mM := 0 }) }

/-- What the arrays and their history keep. R449 names the cells; that ages, ratios, gains, marks and roles stay with them, and the frames
counted for R87 and R403, is a choice (DESIGN CHOICE, log 111). -/
def Tile.kept (t : Tile) : Tile :=
  { arrs := t.arrs.map fun a => (a.1, a.2.cut), cells := t.cells, colFaults := t.colFaults, degraded := t.degraded, frames := t.frames }

/-- Links that every reset keeps retired, and lanes disabled permanently (R371, R406). -/
def Link.kept (l : Link) : Link := { disabled := l.disabled, st := if l.disabled = 0xF then 7 else 0 }

/-- Everything at its reset value but the pins, what is non-volatile, the record stack and the always-on domain. -/
def Dev.reset (d : Dev) : Dev :=
  let s := d.sys
  let e := d.err
  let h := d.thm
  let c := d.sec
  let d' : Dev :=
    { now := d.now, freeCtr := d.freeCtr, out := d.out,
      sys := { st := if s.st = .off || s.st = .tripped then s.st else .boot, sysRst := s.sysRst, prsnt := s.prsnt, perst := s.perst,
               freezeN := s.freezeN, bypassN := s.bypassN, thermTripN := s.thermTripN, pg := s.pg, relT := s.relT, ibi := s.ibi, switches := s.switches },
      err := { stack := e.stack, hist := e.histSaved, locs := e.locsSaved, histSaved := e.histSaved, locsSaved := e.locsSaved, struck := e.struck,
               commits := e.commits, boots := e.boots, snapshot := e.snapshot, hoursOn := e.hoursOn },
      mem := { spares := d.mem.spares },
      thm := { tripCount := h.tripCount, tripDiode := h.tripDiode, tripCause := h.tripCause, tripLatched := h.tripLatched, trip1 := h.trip1,
               trip2 := h.trip2, tripRecord := h.tripRecord },
      sec := { persistMan := c.persistMan, protectedOk := c.protectedOk, owner := c.owner, bootCount := c.bootCount, floorBo := c.floorBo,
               floorSm := c.floorSm, boA := c.boA, boB := c.boB, smA := c.smA, smB := c.smB },
      dbg := { instr := d.dbg.instr, deniedFlag := d.dbg.deniedFlag, boundary := d.dbg.boundary, i3cAddr := d.dbg.i3cAddr, i3cOff := d.dbg.i3cOff },
      mesh := { herd := d.mesh.herd, x := d.mesh.x, y := d.mesh.y,
                links := d.mesh.links.filterMap fun l => if l.2.disabled = 0 then none else some (l.1, l.2.kept) },
      tile := d.tile.kept,
      wts := { epoch := d.wts.epoch, lastDigest := d.wts.lastDigest } }
  Dev.settle d d'

/-! ## Start-up (R450) -/

/-- DARK_HOUSE with its cause; in DARK the ROM alone answers (R455, R456, R461). -/
def Dev.darkHouse (d : Dev) (cause : Nat) (dark : Bool) : Dev :=
  (d.modSec fun s =>
    { s with
      dhCause := cause
      shown := !dark
      st := if dark then .dark else s.st
      max := if dark then 0 else min s.max 1
      level := if dark then 0 else min s.level 1 }).setSt .darkHouse

/-- Order 5 failed: a fatal record goes to the kept stack, not to the ring. -/
def Dev.hbmStartFailed (d : Dev) : Dev :=
  let d' := d.record { code := 0x0F01, cls := 3, kind := 13 } 0 false
  (d'.modErr fun e => { e with ring := d.err.ring, tail := d.err.tail, held := d.err.held, logFull := d.err.logFull }).darkHouse 7 false

/-- Pending HBM repairs are applied (R212). -/
def Mem.applyRepairs (m : Mem) : Mem :=
  { m with spares := m.spares.map fun s => if unitKey .hbm 0 ≤ s.1 then (s.1, { s.2 with used := s.2.used + s.2.pending, pending := 0, mapped := [] }) else s }

/-- Order 8: VDD_CORE moves from 0.80 V to the set point in calibration writes of at most 10 mV (R21, R426). A write that fails the Box
Office's check is made again; the model makes two such repeats in all (log 112). -/
def Dev.avsStep (d : Dev) (goal : Nat) : Nat → Nat → Dev × Nat
  | 0, cur => (d, cur)
  | n + 1, cur =>
    if cur = goal then (d, cur)
    else
      let next := if cur < goal then min goal (cur + 10) else max goal (cur - 10)
      let (d, ok) := d.calWrite fun d => d.emit (.avsWrite next)
      d.avsStep goal n (if ok then next else cur)

/-- The set point is reached; three writes of the first step whose read-backs are off end the writing (R427). -/
def Dev.setPoint (d : Dev) (ok : Bool) : Dev :=
  let goal := Config.calSetPoint
  let steps := (goal - 800 + (800 - goal) + 9) / 10
  if steps = 0 then d
  else if ok then
    let (d, v) := d.avsStep goal (steps + 2) 800
    d.modThm fun t => { t with vset := v }
  else
    let once (d : Dev) : Dev := (d.avsStep goal 1 800).1
    (once (once (once d))).modThm fun t => { t.count 5 with avsErr := true, avsStopped := true }

/-- Stack entries in SEQ order. -/
def insSeq (l : List ErrRec) (r : ErrRec) : List ErrRec :=
  match l with
  | [] => [r]
  | x :: t => if r.seq < x.seq then r :: x :: t else x :: insSeq t r

/-- Order 9: history is loaded and the kept stack copied to the new ring, first and in SEQ order; the entries are freed (R407, R449). -/
def Err.boot (e : Err) : Err :=
  let kept := (e.stack.map fun r => r.2.1).foldl insSeq []
  { e with hist := e.hist.map fun h => (h.1, { h.2 with thisBoot := false }), locs := e.locs.map fun l => { l with thisBoot := false, testing := false },
           hoursUp := 0, boots := min 65535 (e.boots + 1), ring := kept.zipIdx.map fun r => (r.2, r.1), tail := BitVec.ofNat 32 kept.length,
           stack := [], snapshot := [] }

/-- Programming records are resolved (R296): a principal's slot is incomplete, another array is reset before use. -/
def Arr.resolve (x : Arr) : Arr :=
  if !x.record then x else if x.role = 0 then { x with incomplete := true, pstate := 5 } else if x.role = 3 then x else { x with role := 2 }

/-- Highest level that a security state permits (R461); OWNER_DEBUG takes its token's level (R463). -/
def SecState.max : SecState → Nat
  | .manufacture => 3 | .locked => 1 | .ownerDebug => 2 | .vendorDebug => 3 | .dark => 0 | .notYet => 0

/-- Orders 9 and 10: the Stage Manager starts and brings the device to READY, or STRUCK under R410 or after a unit-suspect error of the
start-up itself (R409). -/
def Dev.bootManager (d : Dev) (bo sm : FwImage) (t : Nat) : Dev :=
  let d := (d.modErr Err.boot).modTile fun x => { x with arrs := x.arrs.map fun a => (a.1, a.2.resolve) }
  let d := d.modSec fun s =>
    { s with smRun := true, smVer := BitVec.ofNat 32 sm.ver, smDigest := sm.digest, shown := true,
             floorBo := if s.floorBo.toNat < bo.svn then BitVec.ofNat 16 bo.svn else s.floorBo,
             floorSm := if s.floorSm.toNat < sm.svn then BitVec.ofNat 16 sm.svn else s.floorSm }
  let d := d.modSys fun s => { s with smLevel := BitVec.ofNat 8 sm.level }
  let d := if d.thm.tripRecord then
      (d.raise { code := 0x0C02, cls := 0, detail := [d.thm.hotWord, 0] }).modThm fun m => { m with tripRecord := false }
    else d
  let d := (d.setSt (if d.err.struck then .struck else .ready)).modHost fun h => { h with memActive := true }
  let d := if d.inDrain then d.enterStruck else d
  if d.sys.freezeN then d.engage 1 t fun b => { b with holdPin := true } else d

/-- The start-up sequence, whole. -/
def Dev.startUp (d : Dev) (t : Nat) (b : BootIn) : Dev :=
  let d := ((d.modSys fun s => { s with st := .boot }).reset.at_ t)
  let d := d.modSys fun s => { s with relT := d.now }
  if !d.sec.protectedOk then d.darkHouse 5 true
  else
    let d := d.modSec fun s => { s with bootCount := s.bootCount + 1 }
    let c := d.sec
    match pickFw (qualifies 1 c.floorBo.toNat c.boA) (qualifies 1 c.floorBo.toNat c.boB) with
    | none => d.darkHouse 6 true
    | some (slot, bo) =>
      let st := if c.persistMan then SecState.manufacture else .locked
      let d := d.modSec fun s => { s with st := st, max := st.max, boSlot := slot, boVer := BitVec.ofNat 32 bo.ver, boDigest := bo.digest }
      let d := d.modSys fun s => { s with boLevel := BitVec.ofNat 8 bo.level }
      if !(bo.table.any fun e => e.1 == Config.stepping.toNat) then d.darkHouse 1 false
      else if !b.hbmOk then d.hbmStartFailed
      else
        let d := d.modMem Mem.applyRepairs
        let a := qualifies 2 c.floorSm.toNat c.smA
        let b' := qualifies 2 c.floorSm.toNat c.smB
        let paired (i : Option FwImage) : Option FwImage := i.filter fun i => (bo.pairing i.level).isSome
        match pickFw (paired a) (paired b') with
        | none => d.darkHouse (if (pickFw a b').isSome then 2 else 3) false
        | some (slot, sm) =>
          let e := (bo.pairing sm.level).getD (0, 0, 0, 0, 0)
          let d := d.modSys fun s => { s with dieLevel := BitVec.ofNat 8 e.2.1, abiMin := BitVec.ofNat 8 e.2.2.2.1, abiLevel := BitVec.ofNat 8 e.2.2.2.2 }
          let d := d.modSec fun s => { s with smSlot := slot }
          if !Config.calOk then d.darkHouse 4 false
          else
            let d := d.setPoint b.avsOk
            if b.smOk then d.bootManager bo sm t
            else (d.modSec fun s => { s with shown := true }).raise { code := 0x0F02, cls := 3, kind := 12 }

/-- A start-up begins only with every reset released, power good and no trip in force (R484, R489, R494). -/
def Dev.tryStart (d : Dev) (t : Nat) (b : BootIn) : Dev :=
  if d.sys.st != .off && d.sys.st != .blackout && !d.sys.sysRst && d.sys.prsnt && d.sys.pg == 0x7F && !d.sys.thermTripN then d.startUp t b else d

/-! ## Resets and rails -/

/-- Reset is asserted: the security state is left by the start-up that follows, not before (R462; log 67). -/
def Dev.holdReset (d : Dev) : Dev := d.reset.modSec fun s => { s with st := d.sec.st }

/-- SYS_RST_N_ASSERT (R483): after 100 ns low. -/
def sysRstNAssert (lowNs : Nat) (d : Dev) : Dev :=
  if lowNs < 100 || d.sys.sysRst then d else (d.modSys fun s => { s with sysRst := true }).holdReset
def execSysRstNAssert (lowNs : Nat) (s : State) : Host.Outcome State Fault Refusal := s.onDev (sysRstNAssert lowNs)

/-- SYS_RST_N_RELEASE (R449): LATCHED clears (R446), and start-up begins. -/
def sysRstNRelease (t : Nat) (b : BootIn) (d : Dev) : Dev :=
  if !d.sys.sysRst then d
  else ((d.modSys fun s => { s with sysRst := false }).modThm fun m => { m with tripLatched := false }).tryStart t b
def execSysRstNRelease (t : Nat) (boot : BootIn) (s : State) : Host.Outcome State Fault Refusal := s.onDev (sysRstNRelease t boot)

/-- PRSNT_N_CHANGE (R483, R484): after 10 ms stable; a shorter assertion is counted in GEN_PIN_GLITCH. -/
def prsntNChange (asserted : Bool) (stableNs t : Nat) (b : BootIn) (d : Dev) : Dev :=
  if d.sys.st = .off then d
  else if stableNs < 10000000 then if asserted then d.modSys fun s => { s with glPrsnt := bumpW 8 s.glPrsnt } else d
  else if asserted == d.sys.prsnt then d
  else
    let d := d.modSys fun s => { s with prsnt := asserted }
    if asserted then d.tryStart t b else d.holdReset
def execPrsntNChange (asserted : Bool) (stableNs t : Nat) (boot : BootIn) (s : State) : Host.Outcome State Fault Refusal :=
  s.onDev (prsntNChange asserted stableNs t boot)

/-- VDD_AON_LOSS (R489): every state ends, the kept stack and the trip's record with it; the boundary and I3C state are gone. -/
def vddAonLoss (d : Dev) : Dev :=
  if d.sys.st = .off then d
  else
    let d := d.reset
    let d := d.modSys fun s => { s with st := .off, thermTripN := false, pg := s.pg &&& 0x5F }
    let d := (d.modErr fun e => { e with stack := [], snapshot := [] }).modDbg fun _ => {}
    Dev.settle d (d.modThm fun _ => {})
def execVddAonLoss (s : State) : Host.Outcome State Fault Refusal := s.onDev vddAonLoss

/-- The always-on domain is powered: THERM_TRIP reads 0 and both ages 4,095 (R446). -/
def Dev.aonUp (d : Dev) : Dev := d.modSys fun s => { s with st := .boot, pg := s.pg ||| 0x20 }

/-- VDD_AON_RISE (R449). -/
def vddAonRise (t : Nat) (b : BootIn) (d : Dev) : Dev := if d.sys.st = .off then d.aonUp.tryStart t b else d
def execVddAonRise (t : Nat) (boot : BootIn) (s : State) : Host.Outcome State Fault Refusal := s.onDev (vddAonRise t boot)

/-- Bit of a rail in GEN_PINS.PG (R498). -/
def Rail.bit : Rail → Nat
  | .core => 0 | .array => 1 | .link => 2 | .vddqHbm => 3 | .vppHbm => 4 | .aon => 5 | .io18 => 6

/-- POWER_GOOD_LOST (R489): every effect of SYS_RST_N asserted; part of the trip for the core, array and link rails while TRIPPED. -/
def powerGoodLost (rail : Rail) (d : Dev) : Dev :=
  if rail = .aon then vddAonLoss d
  else
    let d := d.modSys fun s => { s with pg := s.pg &&& ~~~ BitVec.ofNat 7 (2 ^ Rail.bit rail) }
    if d.sys.st = .off || !d.powerLost then d else d.holdReset
def execPowerGoodLost (rail : Rail) (s : State) : Host.Outcome State Fault Refusal := s.onDev (powerGoodLost rail)

/-- POWER_GOOD_RESTORED (R489): every rail has been back for 1 ms. -/
def powerGoodRestored (t : Nat) (b : BootIn) (d : Dev) : Dev :=
  if d.sys.pg == 0x7F then d
  else
    let d := if d.sys.st = .off then d.aonUp else d
    (d.modSys fun s => { s with pg := 0x7F }).tryStart t b
def execPowerGoodRestored (t : Nat) (boot : BootIn) (s : State) : Host.Outcome State Fault Refusal := s.onDev (powerGoodRestored t boot)

/-- TRIP_RELEASE (R439, R440, R487): both trip diodes have read below 85 °C for 100 ms, which no open or shorted diode does
(log 93). A latched device waits for SYS_RST_N; one in BLACKOUT does not restart. -/
def tripRelease (t : Nat) (b : BootIn) (d : Dev) : Dev :=
  let held := d.sys.sysRst || !d.sys.prsnt
  if !d.sys.thermTripN || (d.thm.tripLatched && !held) then d
  else (d.modSys fun s => { s with thermTripN := false }).tryStart t b
def execTripRelease (t : Nat) (boot : BootIn) (s : State) : Host.Outcome State Fault Refusal := s.onDev (tripRelease t boot)

/-! ## PERST_N, BYPASS_N -/

/-- The CXL controller, configuration space, BAR2 and the MSI-X table are reset (R395). -/
def Dev.cxlReset (d : Dev) : Dev :=
  d.modHost fun h => { h with pcie := false, bme := false, hdm := none, msix := [], msixPend := [], msixEnable := false, doeErr := false, doeResp := [] }

/-- The host link goes down (R396): counted, recorded, a DOE exchange dropped (R394). -/
def Dev.hostDown (d : Dev) : Dev := if d.host.up then d.linkLoss.raise { code := 0x0902, cls := 0, kind := 14 } else d

/-- PERST_N_ASSERT (R395, R483): after 100 ns low; no block but the CXL controller is reset. Ignored while SYS_RST_N is asserted (R481). -/
def perstNAssert (lowNs : Nat) (d : Dev) : Dev :=
  if lowNs < 100 || d.sys.perst then d
  else
    let d := d.modSys fun s => { s with perst := true }
    if d.inReset then d else d.hostDown.cxlReset
def execPerstNAssert (lowNs : Nat) (s : State) : Host.Outcome State Fault Refusal := s.onDev (perstNAssert lowNs)

/-- PERST_N_RELEASE: at once (R483); the link then comes up by HOST_LINK_UP. -/
def perstNRelease (d : Dev) : Dev := d.modSys fun s => { s with perst := false }
def execPerstNRelease (s : State) : Host.Outcome State Fault Refusal := s.onDev perstNRelease

/-- BYPASS_N_CHANGE (R376, R377, R483): asserted after 100 ns, released after 1 ms; a shorter assertion is counted. -/
def bypassNChange (asserted : Bool) (stableNs : Nat) (d : Dev) : Dev :=
  if d.sys.st = .off then d
  else if asserted && stableNs < 100 then d.modSys fun s => { s with glBypass := bumpW 8 s.glBypass }
  else if !asserted && stableNs < 1000000 then d
  else Dev.settle d (d.modSys fun s => { s with bypassN := asserted })
def execBypassNChange (asserted : Bool) (stableNs : Nat) (s : State) : Host.Outcome State Fault Refusal := s.onDev (bypassNChange asserted stableNs)

/-! ## Fatal sources (R411) -/

/-- The DETAIL words of a fatal record (R416). -/
def fatalWords (w : FatalDetail) : List Word := [w.w0, w.w1, w.w2]

/-- A fatal source fires while the core domain runs. -/
def Dev.fatalSource (d : Dev) (on : Bool) (code kind : Nat) (w : FatalDetail) : Dev :=
  if d.coreRuns && on then d.raise { code := code, cls := 3, kind := kind, detail := fatalWords w } else d

def coreClockLockLost (w : FatalDetail) (d : Dev) : Dev := d.fatalSource true 0x0F04 16 w
def execCoreClockLockLost (d : FatalDetail) (s : State) : Host.Outcome State Fault Refusal := s.onDev (coreClockLockLost d)

/-- The watchdog is armed while the Stage Manager runs. -/
def smWatchdogExpiry (w : FatalDetail) (d : Dev) : Dev := d.fatalSource d.sec.smRun 0x0F02 12 w
def execSmWatchdogExpiry (d : FatalDetail) (s : State) : Host.Outcome State Fault Refusal := s.onDev (smWatchdogExpiry d)

def boSelfCheckFail (w : FatalDetail) (d : Dev) : Dev := d.fatalSource true 0x0F03 13 w
def execBoSelfCheckFail (d : FatalDetail) (s : State) : Host.Outcome State Fault Refusal := s.onDev (boSelfCheckFail d)

/-- A contained error's discard has not emptied its lanes in time. -/
def containmentTimeout (w : FatalDetail) (d : Dev) : Dev := d.fatalSource d.up 0x0F07 16 w
def execContainmentTimeout (d : FatalDetail) (s : State) : Host.Outcome State Fault Refusal := s.onDev (containmentTimeout d)

def coreMemoryUncorrectable (boxOffice : Bool) (w : FatalDetail) (d : Dev) : Dev :=
  d.fatalSource (boxOffice || d.sec.smRun) 0x0F01 (if boxOffice then 13 else 12) w
def execCoreMemoryUncorrectable (boxOffice : Bool) (d : FatalDetail) (s : State) : Host.Outcome State Fault Refusal :=
  s.onDev (coreMemoryUncorrectable boxOffice d)

def calibrationRereadFail (w : FatalDetail) (d : Dev) : Dev := d.fatalSource d.up 0x0F06 16 w
def execCalibrationRereadFail (d : FatalDetail) (s : State) : Host.Outcome State Fault Refusal := s.onDev (calibrationRereadFail d)

def errorUnitSelfCheckFail (w : FatalDetail) (d : Dev) : Dev := d.fatalSource true 0x0F08 16 w
def execErrorUnitSelfCheckFail (d : FatalDetail) (s : State) : Host.Outcome State Fault Refusal := s.onDev (errorUnitSelfCheckFail d)

end Sys2Proof.Machine
end

