-- ==== Sys2Proof/Machine/Lanes.lean ====
section
/-! DEFINITION. Lanes of a link lost and regained (R370, R371, R423), links taken down and retrained (R359), a bundle that loses
its last link (R364, R373), and the echo exchange (R34, R365). -/
namespace Sys2Proof.Machine

/-! ## A link's state -/

/-- MESH_LINK_STAT.STATE of a link that has a partner, from its lanes (R370, R371, R380). -/
def Link.restate (l : Link) : Link :=
  if l.disabled = 0xF then { l with st := 7, lanes := 0 }
  else if l.st = 2 || l.st = 3 || l.st = 4 then { l with st := if l.lanes = 0 then 4 else if l.lanes = 0xF then 2 else 3 }
  else l

/-- A lane of a mask. -/
def laneBit (lane : Nat) : BitVec 4 := BitVec.ofNat 4 (2 ^ lane)
def hasLane (m : BitVec 4) (lane : Nat) : Bool := m.getLsbD lane

/-- An ECHO goes out on a link. -/
def Dev.sendEcho (d : Dev) (link : Nat) : Dev :=
  let n := (d.frm.echoNum + 1) % 65536
  ((d.modFrm fun f => { f with echoNum := n }).modLink link fun l => { l with echoAt := d.now }).sendUnit link (.echo (BitVec.ofNat 16 n))

/-- The link that faces the tree parent has changed: Dᵢ is measured anew (R374). -/
def Dev.parentCheck (before d : Dev) : Dev :=
  match d.parent with
  | some p => if d.mesh.disc = 4 && before.parent != some p then d.sendEcho p else d
  | none => d

/-- After links changed: one of the bundles that had a working link and has none now starts a rediscovery (R364, R373), but a device whose
BYPASS_N is asserted keeps its state and begins no more frames (R494). -/
def Dev.bundlesCheck (before d : Dev) (bundles : List Dir := [.west, .east, .north, .south]) : Dev :=
  if bundles.any fun b => !(before.working b).isEmpty && (d.working b).isEmpty then
    if d.sys.bypassN then d.endFrames d.openLen else d.floodRediscover.beginDiscovery
  else before.parentCheck d

def Dev.bundleCheck (before d : Dev) (link : Nat) : Dev := before.bundlesCheck d [linkDir link]

/-- Nanoseconds in 24 hours. -/
def dayNs : Nat := 86_400_000_000_000

/-- A lane is dropped: counted, recorded and kept in history; the fourth drop within 24 hours disables it permanently, and a link
with four disabled lanes is retired (R371, R373, R406). -/
def Dev.laneDrop (d : Dev) (link lane t : Nat) (mask : BitVec 4) (corrected : Word) : Dev :=
  let unit := 4 * link + lane
  let d := ((d.at_ t).meshCount link 5).modLink link fun l =>
    { l with drops := l.drops.filter (fun x => decide (t < x.2 + dayNs)) ++ [(lane, t)] }
  let once := decide (((d.link link).drops.filter fun x => x.1 == lane).length < 4)
  let d := d.raise { code := 0x0801, cls := 0, kind := 11, unit := unit, detail := linkDetail (d.link link).lanes mask corrected,
                     verdict := if once then 1 else 2 }
  let d := (d.histEvent 11 unit 16 256).1
  if once then d
  else
    let d := (d.modLink link fun l => { l with disabled := l.disabled ||| laneBit lane }).histPermanent 11 unit
    if (d.link link).disabled = 0xF then d.histPermanent 5 link else d

/-- The frame a mask change of NOW 0 names: two frames ahead (R370). -/
def Dev.switchFrame (d : Dev) : Nat := (d.frm.frame + 2) % 65536

/-! ## Commands -/

/-- LANE_LOCK_LOST (R370): the lane is dropped at once, the sender is told with NOW 1, and the receiver realigns. -/
def laneLockLost (link lane t : Nat) (d : Dev) : Dev :=
  let l := d.link link
  if !d.coreRuns || !l.working || !hasLane l.lanes lane then d
  else
    let mask := l.lanes &&& ~~~ laneBit lane
    let d1 := ((d.laneDrop link lane t mask (Config.freeWord d.freeCtr)).useFree 1).modLink link fun l =>
      { l with lanes := mask, outage := true, nextMask := l.nextMask.map fun m => (m.1 &&& ~~~ laneBit lane, m.2) }
    let d1 := (d1.meshCount link 11).sendUnit link (.lane ⟨mask, true, 0⟩)
    Dev.bundleCheck d (d1.modLink link Link.restate) link
def execLaneLockLost (link : Fin 48) (lane : Fin 4) (t : Nat) (s : State) : Host.Outcome State Fault Refusal :=
  s.onDev (laneLockLost link.val lane.val t)

/-- LANE_ERROR_DROP (R370): a lane with too many corrected symbols is dropped from a frame two frames ahead. -/
def laneErrorDrop (link lane corrected t : Nat) (d : Dev) : Dev :=
  let l := d.link link
  if !d.coreRuns || !l.working || !hasLane l.lanes lane then d
  else
    let mask := ((l.nextMask.map Prod.fst).getD l.lanes) &&& ~~~ laneBit lane
    let d := (d.laneDrop link lane t mask (BitVec.ofNat 32 corrected))
    let d := d.modLink link fun l => { l with nextMask := some (mask, d.switchFrame) }
    d.sendUnit link (.lane ⟨mask, false, BitVec.ofNat 16 d.switchFrame⟩)
def execLaneErrorDrop (link : Fin 48) (lane : Fin 4) (corrected t : Nat) (s : State) : Host.Outcome State Fault Refusal :=
  s.onDev (laneErrorDrop link.val lane.val corrected t)

/-- LANE_RETRY (R371): a dropped lane that trained cleanly rejoins, two frames ahead; every rejoin is recorded (R373). -/
def laneRetry (link lane : Nat) (trained : Bool) (t : Nat) (d : Dev) : Dev :=
  let l := d.link link
  let able := (l.working || l.st == 4) && !hasLane l.lanes lane && !hasLane l.disabled lane
  if !d.coreRuns || !able then d
  else
    let d := (d.at_ t).modLink link fun l => { l with retry := l.retry &&& ~~~ laneBit lane }
    if !trained then d
    else
      let mask := ((l.nextMask.map Prod.fst).getD l.lanes) ||| laneBit lane
      let d := ((d.meshCount link 6).raise
        { code := 0x0801, cls := 0, kind := 11, unit := 4 * link + lane, detail := linkDetail l.lanes mask (Config.freeWord d.freeCtr) }).useFree 1
      let d := d.modLink link fun l => { l with nextMask := some (mask, d.switchFrame) }
      d.sendUnit link (.lane ⟨mask, false, BitVec.ofNat 16 d.switchFrame⟩)
def execLaneRetry (link : Fin 48) (lane : Fin 4) (trained : Bool) (t : Nat) (s : State) : Host.Outcome State Fault Refusal :=
  s.onDev (laneRetry link.val lane.val trained t)

/-- MESH_LANE_RETRY (R371): every dropped lane is retried at once; LANE_RETRY says how each went. -/
def meshLaneRetry (d : Dev) : Dev :=
  if d.up then
    d.modMesh fun m => { m with links := m.links.map fun l =>
      (l.1, if l.2.working || l.2.st == 4 then { l.2 with retry := ~~~ l.2.lanes &&& ~~~ l.2.disabled } else l.2) }
  else d
def execMeshLaneRetry (s : State) : Host.Outcome State Fault Refusal := s.onDev meshLaneRetry

/-- A link of a bundle with a partner sends on fewer than four lanes (R370). -/
def Dev.bundleShort (d : Dev) (b : Dir) : Bool :=
  (List.range 12).any fun k => let l := d.link (Dir.base b + k)
                               l.st == 3 || l.st == 4 || l.st == 7 || (l.st == 2 && l.txLanes != 0xF)

/-- No link of a bundle idles lanes while one of them runs short of lanes (R423); in PARKED they all idle (R473). -/
def Dev.wakeShort (d : Dev) (b : Dir) : Dev :=
  if d.sys.st != .parked && d.bundleShort b then (List.range 12).foldl (fun d k => d.modLink (Dir.base b + k) fun l => { l with idle := false }) d
  else d

/-- LANE (R370): the peer's mask for the direction this device sends in. -/
def laneUnit (link : Nat) (u : LaneInfo) (d : Dev) : Dev :=
  if !d.coreRuns then d
  else (d.modLink link fun l =>
    if u.now then { l with txLanes := u.mask } else { l with nextTx := some (u.mask, u.frame.toNat) }).wakeShort (linkDir link)
def execLane (link : Fin 48) (u : LaneInfo) (s : State) : Host.Outcome State Fault Refusal := s.onDev (laneUnit link.val u)

/-- LANE_IDLE (R423): lanes 1 to 3 of a working link idle, or wake; they do not idle while its bundle runs short of lanes. -/
def laneIdle (link : Nat) (idle : Bool) (d : Dev) : Dev :=
  if d.coreRuns && !(idle && d.bundleShort (linkDir link)) then d.modLink link fun l => if l.working then { l with idle := idle } else l else d
def execLaneIdle (link : Fin 48) (idle : Bool) (s : State) : Host.Outcome State Fault Refusal := s.onDev (laneIdle link.val idle)

/-- LANE_REALIGNED (R370): the link carries traffic again. -/
def laneRealigned (link : Nat) (d : Dev) : Dev :=
  if d.coreRuns then d.modLink link fun l => { l with outage := false } else d
def execLaneRealigned (link : Fin 48) (s : State) : Host.Outcome State Fault Refusal := s.onDev (laneRealigned link.val)

/-- A link is taken down after four failures of a flit (R359). -/
def Dev.linkDown (d : Dev) (link : Nat) : Dev :=
  let d1 := ((d.modLink link fun l => { l with st := 4, lanes := 0, held := [], replayNext := none }).meshCount link 11).raise
    { code := 0x0803, cls := 0, kind := 5, unit := link, detail := linkDetail (d.link link).lanes 0 (Config.freeWord d.freeCtr) }
  Dev.bundleCheck d (d1.useFree 1) link

/-- A link is found miswired (5) or too slow (6) (R363, R368). -/
def Dev.linkOff (d : Dev) (link st : Nat) : Dev :=
  ((d.modLink link fun l => { l with st := st, lanes := 0 }).raise
    { code := 0x0802, cls := 0, kind := 5, unit := link, detail := linkDetail (d.link link).lanes 0 (Config.freeWord d.freeCtr) }).useFree 1

/-- LINK_RETRAIN_DONE (R359): a link that was down carries flits again on the lanes that trained; flits are counted anew. Toward the tree parent
Dᵢ may have to be measured anew (R374). -/
def linkRetrainDone (link : Nat) (lanes : BitVec 4) (d : Dev) : Dev :=
  let l := d.link link
  let mask := lanes &&& ~~~ l.disabled
  if !d.coreRuns || l.st != 4 || mask = 0 then d
  else
    d.parentCheck <| d.modLink link fun l =>
      ({ l with lanes := mask, txLanes := mask, outage := false, txCount := 0, rxCount := 0, replayBuf := [], txWait := [], held := [],
                replayNext := none, sinceAck := 0, runs := [], rx := [], rxSpill := [], nextMask := none, nextTx := none } : Link).restate
def execLinkRetrainDone (link : Fin 48) (lanes : BitVec 4) (s : State) : Host.Outcome State Fault Refusal :=
  s.onDev (linkRetrainDone link.val lanes)

/-! ## Frame boundaries and echoes -/

/-- Masks that name this frame apply at its start (R370). -/
def Dev.switchMasks (d : Dev) (num : Nat) : Dev :=
  let f := num % 65536
  d.modMesh fun m => { m with links := m.links.map fun l =>
    let x := l.2
    let x := match x.nextMask with | some (k, g) => if g = f then { x with lanes := k &&& ~~~ x.disabled, nextMask := none }.restate else x | none => x
    let x := match x.nextTx with | some (k, g) => if g = f then { x with txLanes := k, nextTx := none } else x | none => x
    (l.1, x) }

/-- Units of the frame that ended, which no record took, are dropped (log 53). -/
def Dev.newStreams (d : Dev) : Dev :=
  d.modMesh fun m => { m with links := m.links.map fun l => (l.1, { l.2 with rx := [], rxSpill := [], runs := [] }) }

/-- MESH_CNT_CLR (R380). -/
def meshCntClr (d : Dev) : Dev := if d.up then d.modMesh fun m => { m with cnt := [] } else d
def execMeshCntClr (s : State) : Host.Outcome State Fault Refusal := s.onDev meshCntClr

end Sys2Proof.Machine
end

