-- ==== Sys2Proof/Machine/MemErrors.lean ====
section
/-! DEFINITION. Memory errors: what a corrected and an uncorrectable codeword do (R203, R204), the location test and its history
(R405 to R407), map-outs and their spares (R206 to R208, R212), the scrubber (R205). A location is a codeword: 4 × row +
codeword of an apron tile, 0 of a tag store, a line of a bank, engine or tile, an HBM codeword (address ÷ 64). -/
namespace Sys2Proof.Machine

/-! ## Units -/

/-- Error unit kind of a store's unit (R404, R415). -/
def storeKind : Store → Nat
  | .apron => 1 | .rowTag => 1 | .wings => 3 | .localBuf => 4 | .prompter => 1 | .hbm => 6

/-- Kind under which the history of a store's unit is kept: a local buffer's apart from its engine's (R405, log 51). -/
def storeHist (s : Store) : Nat := if s = .localBuf then 18 else storeKind s

/-- Symbols of a store's codewords (R188). -/
def storeSyms : Store → Nat
  | .hbm => 68 | _ => 132

/-- The unit of a location: for HBM the channel of the address. -/
def locUnit (store : Store) (unit loc : Nat) : Nat := if store = .hbm then hbmChannel (64 * loc) else unit

/-- The physical row that stands for a logical row of a tile (R206): the n-th mapped out went to spare row 32 + n. -/
def Mem.physRow (m : Mem) (tile row : Nat) : Nat :=
  (sgetD m.spares (unitKey .apron tile) {}).mapped.zipIdx.foldl (fun p e => if p = e.1 then 32 + e.2 else p) row

/-- The apron key of a physical row of a tile, 0 to 33. -/
def Mem.rowKey (m : Mem) (tile p : Nat) : Nat :=
  match (List.range 32).find? fun r => m.physRow tile r == p with
  | some r => 32 * tile + r
  | none => spareRowKey tile p

/-- Key of the byte that is data symbol i of a codeword (R202); of a tag store's symbols, 2 × apron key + byte. -/
def Mem.symKey (m : Mem) (store : Store) (unit loc i : Nat) : Nat :=
  match store with
  | .apron => m.rowKey unit (loc / 4) * 512 + 4 * i + loc % 4
  | .rowTag => 2 * m.rowKey unit (i / 2) + i % 2
  | .wings => unit * 2 ^ 20 + 128 * loc + i
  | .localBuf => localKey unit (128 * loc + i)
  | .prompter => prompterKey unit (128 * loc + i)
  | .hbm => 64 * loc + i

/-- Symbols of a codeword that hold data: the other symbols of a tag codeword are 0 (R191), and check symbols are not held. -/
def dataSyms : Store → Nat
  | .rowTag => 68 | .hbm => 64 | _ => 128

/-- XOR a value onto one symbol of a stored codeword. -/
def Mem.flip (m : Mem) (store : Store) (unit loc : Nat) (e : Nat × Nat) : Mem :=
  let k := m.symKey store unit loc e.1
  let x (s : List Host.Cell) : List Host.Cell := wr1 s k (rd1 s k ^^^ BitVec.ofNat 8 e.2)
  if dataSyms store ≤ e.1 then m
  else
    match store with
    | .apron => { m with apron := x m.apron }
    | .rowTag => { m with tags := smod m.tags (k / 2) 0 fun t => t ^^^ BitVec.ofNat 16 (e.2 * 256 ^ (k % 2)) }
    | .wings => { m with wings := x m.wings }
    | .localBuf => { m with localBuf := x m.localBuf }
    | .prompter => { m with prompter := x m.prompter }
    | .hbm => { m with hbm := x m.hbm }

/-- Write a codeword back zeroed (R406). -/
def Mem.zeroCw (m : Mem) (store : Store) (unit loc : Nat) : Mem :=
  match store with
  | .apron => { m with apron := (List.range 128).foldl (fun a i => wr1 a (m.symKey .apron unit loc i) 0) m.apron }
  | .rowTag => { m with tags := (List.range 34).foldl (fun t p => sdel t (m.rowKey unit p)) m.tags }
  | .wings => { m with wings := zeroRange m.wings (m.symKey .wings unit loc 0) (m.symKey .wings unit loc 128) }
  | .localBuf => { m with localBuf := zeroRange m.localBuf (m.symKey .localBuf unit loc 0) (m.symKey .localBuf unit loc 128) }
  | .prompter => { m with prompter := zeroRange m.prompter (m.symKey .prompter unit loc 0) (m.symKey .prompter unit loc 128) }
  | .hbm => m.zeroHbm (64 * loc) (64 * loc + 64)

/-- What a memory error's record names as its place (R416): a device address, a wings address, or a line number. -/
def locAddr (store : Store) (unit loc : Nat) : Nat :=
  match store with
  | .hbm => 64 * loc
  | .wings => unit * 2 ^ 20 + 128 * loc
  | _ => loc

/-- What a memory error's record carries (R416). -/
def memErrIn (store : Store) (unit loc syms : Nat) (code cls : Nat) : ErrIn :=
  let a := locAddr store unit loc
  { code := code, cls := cls, kind := 17, detail := memDetail (storeCode store) a syms
      (if store = .hbm && a < 0x8000_0000 then a % 2048 else if store = .hbm && kvPoolBase ≤ a then (a - kvPoolBase) / 65536 else 0) }

/-! ## Map-outs (R206 to R208, R212) -/

/-- Row or line that holds a location. -/
def mapLoc (store : Store) (loc : Nat) : Nat := if store = .apron then loc / 4 else loc

/-- A COMMON line as the Stage Manager rewrites it from the script image: entries of the scale table in it return to the header's values
(R204, R207), and the write carries its cue number (R333). -/
def Dev.commonLine (d : Dev) (bank loc : Nat) : Dev :=
  let lo := bank * 2 ^ 20 + 128 * loc
  let img := match d.scr.script with | some sc => sc.common | none => []
  let d := d.modMem fun m => { m with wings := zeroRange m.wings lo (lo + 128) }
  let d := img.foldl (fun d e =>
    d.modMem fun m => { m with wings := e.2.zipIdx.foldl (fun w b =>
      let a := e.1 + b.2
      if lo ≤ a && a < lo + 128 then wr1 w a b.1 else w) m.wings }) d
  let q0 := match d.scr.script with | some sc => sc.qpoints | none => []
  (d.modTile fun t =>
    { t with qtab := t.qtab.zipIdx.map fun q => if Config.pointLine q.2 = lo / 128 then q0.getD q.2 0 else q.1 }).tagWrite 1 [lo / 128] 0xFFFF03

/-- One map-out takes effect: the map is a calibration write (R21, R206). Answers whether it did. -/
def Dev.mapOne (d : Dev) (e : Store × Nat × Nat) : Dev × Bool :=
  d.calWrite fun d => d.modMem fun m =>
    ({ m with spares := smod m.spares (unitKey e.1 e.2.1) {} fun s => { s with used := s.used + 1, mapped := s.mapped ++ [e.2.2] } } : Mem).count e.1 e.2.1 3

/-- Map-outs that wait take effect (R207); one whose write failed its check waits on. -/
def Dev.mapOuts (d : Dev) (now : Store → Bool) : Dev :=
  d.mem.mapNext.foldl (fun d e =>
    if now e.1 then
      let z := d.mapOne e
      if z.2 then z.1.modMem fun m => { m with mapNext := m.mapNext.filter fun x => x != e } else z.1
    else d) d

/-- A wings or local buffer line is mapped out at once, the other stores' rows and lines at a frame boundary (R207). -/
def mapsAtOnce (s : Store) : Bool := s == .wings || s == .localBuf

/-- A failed HBM row (R212): recorded once, for repair at the next BOOT; KV pages in it are withdrawn, and in any other region it is
unit-suspect, as are more rows than the stack can repair (R406). -/
def Dev.hbmRowOut (d : Dev) (loc : Nat) : Dev :=
  let u := locUnit .hbm 0 loc
  let row := Config.hbmRow loc
  let s := sgetD d.mem.spares (unitKey .hbm u) {}
  if s.mapped.contains row then d
  else
    let s' : Spares := { s with pending := s.pending + 1, mapped := s.mapped ++ [row] }
    let d := d.modMem fun m => { m with spares := sput m.spares (unitKey .hbm u) s' }
    let e : ErrIn := { memErrIn .hbm u loc 0 0x0506 0 with kind := 6, unit := u, verdict := 2 }
    let d := if regionOf (64 * loc) = .kvPool then
        let ps := ((64 * loc - kvPoolBase) / 65536) :: Config.hbmRowPages row
        (d.modKv fun v => { v with withdrawn := ps.foldl setIns v.withdrawn, zeroing := v.zeroing.filter fun p => !ps.contains p }).raise e
      else d.raise { e with cls := 2 }
    if Config.hbmResources u < s'.used + s'.pending then d.raise { e with cls := 2 } else d

/-- A location is permanent: a spare is to take over, or its unit has none left (R207, R208); an HBM row waits for repair
(R212). -/
def Dev.mapOut (d : Dev) (store : Store) (unit loc : Nat) : Dev :=
  let u := locUnit store unit loc
  let d := d.commitHistory
  let e := (store, u, mapLoc store loc)
  let waiting := (d.mem.mapNext.filter fun x => x.1 == store && x.2.1 == u).length
  if store = .hbm then d.hbmRowOut loc
  else if d.mem.mapNext.contains e then d
  else if (sgetD d.mem.spares (unitKey store u) {}).used + waiting < storeSpares store then
    let d := d.modMem fun m => { m with mapNext := m.mapNext ++ [e] }
    let d := if store = .prompter then d.modTile fun t => { t with prBad := setIns t.prBad u } else d
    if mapsAtOnce store then d.mapOuts fun s => s == store else d
  else d.raise { memErrIn store u loc 0 0x0505 2 with kind := storeKind store, unit := u, verdict := 2 }

/-! ## History of locations (R405, R406, R407) -/

def Loc.is (l : Loc) (store : Store) (unit loc : Nat) : Bool := l.store == store && l.unit == unit && l.loc == loc

/-- Newest first, at most 256 of each store kind. -/
def addLoc (ls : List Loc) (x : Loc) : List Loc :=
  let rest := ls.filter fun l => !l.is x.store x.unit x.loc
  let same := (rest.filter fun l => l.store == x.store).take 255
  x :: (same ++ rest.filter fun l => l.store != x.store)

/-- Drop a location's test. -/
def Err.endTest (e : Err) (store : Store) (unit loc : Nat) : Err :=
  { e with locs := e.locs.map fun l => if l.is store unit loc then { l with testing := false } else l }

/-- The score of a location after a memory event, and whether the event makes it permanent: the same symbols during its test, or a
score of 48. -/
def Dev.locNext (d : Dev) (store : Store) (unit loc : Nat) (syms : List Nat) : Nat × Bool :=
  match d.err.locs.find? fun l => l.is store (locUnit store unit loc) loc with
  | some l =>
    let score := l.score + if !l.thisBoot && d.err.hoursUp < 24 then 32 else 16
    (score, l.testing && l.syms == syms || 48 ≤ score)
  | none => (16, false)

/-- The VERDICT of a memory event's record (R415). -/
def Dev.locVerdict (d : Dev) (store : Store) (unit loc : Nat) (syms : List Nat) : Nat :=
  if (d.locNext store unit loc syms).2 then 2 else 1

/-- A memory event of a location; unless it is permanent, its write-back, when it is done, starts a test. -/
def Dev.locEvent (d : Dev) (store : Store) (unit loc : Nat) (syms : List Nat) (written : Bool) : Dev :=
  let u := locUnit store unit loc
  let (score, perm) := d.locNext store unit loc syms
  let (d, _) := d.histEvent (storeHist store) u 16 256
  let d := d.modErr fun e =>
    { e with locs := addLoc e.locs { store := store, unit := u, loc := loc, syms := syms, score := min 255 score, testing := written && !perm } }
  if perm then d.mapOut store unit loc else d

/-! ## Corrected and uncorrectable codewords -/

/-- Steps evaluated on a tile in this frame (R114, R204; log 50). -/
def Dev.tileSteps (d : Dev) (tile : Nat) : List (Nat × Nat × Nat) :=
  ((d.tile.served.filter fun s => s.1 / 16 == tile).filterMap fun s => (d.lane s.2).map Tok.step).dedup

/-- Steps with a lane whose buffer overlaps a wings line. -/
def Dev.lineSteps (d : Dev) (a : Nat) : List (Nat × Nat × Nat) :=
  (d.frm.lanes.filterMap fun l =>
    match d.laneMaps.find? fun r => r.first ≤ l.1 && l.1 < r.first + r.count with
    | some r => let b := d.laneBuf l.1 l.2.tenant
                if overlap b (b + 128 * r.stride) a (a + 128) then some l.2.step else none
    | none => none).dedup

/-- Lanes that steps hold here (R416 lanes affected). -/
def Dev.lanesOfSteps (d : Dev) (ts : List (Nat × Nat × Nat)) : Nat := (ts.dedup.map fun t => (d.frm.lanesOf t.1 t.2.1 t.2.2).length).sum

/-- Steps served by kernels whose partitions include a granule of an engine (R147, R204). -/
def Dev.granuleSteps (d : Dev) (engine granule : Nat) : List (Nat × Nat × Nat) :=
  match d.scr.script with
  | some sc =>
    let p := (sc.pools[d.template]?).getD default
    (((List.range 64).filter fun t => p.owns (64 * engine + t) granule).flatMap fun t => d.tile.usersOf (2 ^ 20 + 64 * engine + t)).dedup
  | none => []

/-- An apron row, or a tile's tags, lost their contents: the steps that use them are discarded, those that come to it later in the frame
too (R204). -/
def Dev.loseKey (d : Dev) (e : ErrIn) (key : Nat) : Dev :=
  (d.contain e (d.tile.usersOf key)).modTile fun t => { t with lost := setIns t.lost key }

/-- An uncorrectable codeword of an SRAM store (R204), then its write-back. -/
def Dev.sramBad (d : Dev) (store : Store) (unit loc syms verdict : Nat) : Dev :=
  let e := { memErrIn store unit loc syms 0x0502 1 with verdict := verdict }
  match store with
  | .wings =>
    if d.bankOwner (unit * 2 ^ 20) = 16 then
      (d.contain e ((d.frm.lanes.map fun l => l.2.step).dedup)).commonLine unit loc
    else (d.contain e (d.lineSteps (locAddr .wings unit loc))).modMem fun m => m.zeroCw store unit loc
  | .localBuf => (d.contain e (d.granuleSteps unit (loc / 32))).modMem fun m => m.zeroCw store unit loc
  | .prompter =>
    ((d.contain { e with code := 0x0301, kind := 1, unit := unit, detail := [0, 0, BitVec.ofNat 32 (d.lanesOfSteps (d.tileSteps unit))] } (d.tileSteps unit)).modMem fun m => m.zeroCw store unit loc).modTile fun t =>
      { t with prBad := setIns t.prBad unit }
  | .apron => (d.loseKey e (d.mem.rowKey unit (loc / 4))).modMem fun m => m.zeroCw store unit loc
  | _ => (d.loseKey e (2 ^ 19 + unit)).modMem fun m => m.zeroCw store unit loc

/-- A codeword of HBM is uncorrectable (R204): the effect of its region, for the steps that the reading cue serves. Answers
whether the codeword has been written back. -/
def Dev.hbmBad (d : Dev) (cw syms slot cue : Nat) (toks : List (Nat × Nat × Nat)) (verdict : Nat := 0) :
    Dev × Bool :=
  let a := 64 * cw
  let e : ErrIn := { memErrIn .hbm 0 cw syms 0x0502 1 with slot := slot, cue := cue, verdict := verdict }
  let d := d.modMem fun m => { m with bad := setIns m.bad cw }
  let zero (d : Dev) : Dev × Bool := (d.modMem fun m => m.zeroCw .hbm 0 cw, true)
  match regionOf a with
  | .sessionTable => (d.sessionMemBad cw e, false)
  | .inputRing => (d.sessionMemBad cw e, false)
  | .bitmap => (d.sessionMemBad cw e, true)
  | .kvPool => zero (d.kvPageBad ((a - kvPoolBase) / 65536) e)
  | .adapters =>
    let n := (a - adpSlotBase 0) / 0x6000000
    let using_ := ((d.frm.lanes.filter fun l => l.2.adp && l.2.adapter == n).map fun l => l.2.step) ++ toks
    zero (d.contain { e with code := 0x0404, kind := 4, detail := [0, 10, BitVec.ofNat 32 (d.lanesOfSteps using_)] } using_)
  | .census =>
    let d := d.raise { e with code := 0x0507, cls := 2, kind := 6, unit := hbmChannel a }
    match Config.censusSlot a with
    | some s =>
      let d := d.modTile fun t => { t with censusBad := setIns t.censusBad s }
      let d := match d.tile.exact.job with
        | some (layer, target, _) => if !layer && target == s then d.exactFail 5 else d
        | none => d
      (d, false)
    | none => (d, false)
  | .scriptImage => (d.contain e toks, false)
  | .firmware =>
    let d := d.raise { e with cls := 0 }
    match Config.ringPos cw with
    | some p => zero ((d.modErr fun r => { r with ring := sdel r.ring p }).modMem fun m => m.count .hbm (hbmChannel a) 5)
    | none => zero d
  | .spill => zero (d.contain e (toks ++ (match sget d.mem.spill cw with | some s => [s] | none => [])))
  | _ => zero (d.contain e toks)

/-- A codeword is read and its symbol errors are found (R203, R204). Answers the device, and whether the data is
uncorrectable. -/
def Dev.readCw (d : Dev) (store : Store) (unit loc : Nat) (found : SymErrs) (scrub : Bool) (slot cue : Nat)
    (toks : List (Nat × Nat × Nat)) : Dev × Bool :=
  let n := storeSyms store
  let u := locUnit store unit loc
  let syms := rsSymbols n found
  let old := store == .hbm && d.mem.bad.contains loc
  let v := d.locVerdict store unit loc syms
  match rsDecode n found with
  | .clean =>
    if !old then (d, false)
    else
      let d := d.modMem fun m => m.count store u 2
      ((d.hbmBad loc 0 slot cue toks).1, true)
  | .correct p =>
    if old then ((d.hbmBad loc syms.length slot cue toks).1, true)
    else
      let d := d.modMem fun m => (rsResidue n found p).foldl (fun m e => m.flip store unit loc e) m
      let d := (d.modMem fun m => m.count store u (if scrub then 1 else 0)).raise { memErrIn store u loc syms.length 0x0501 0 with verdict := v }
      (d.locEvent store unit loc syms true, false)
  | .uncorrectable =>
    let d := d.modMem fun m => m.count store u 2
    let (d, written) := if store = .hbm then d.hbmBad loc syms.length slot cue toks v else (d.sramBad store unit loc syms.length v, true)
    (d.locEvent store unit loc syms written, true)

/-- Read a range of HBM with the symbol errors found in its codewords, in order. Answers whether any is uncorrectable. -/
def Dev.readHbm (d : Dev) (a n : Nat) (found : List SymErrs) (slot cue : Nat) (toks : List (Nat × Nat × Nat)) : Dev × Bool :=
  (cwRange a n).zipIdx.foldl (fun (z : Dev × Bool) c =>
    let (d, b) := z.1.readCw .hbm 0 c.1 (found.getD c.2 []) false slot cue toks
    (d, z.2 || b)) (d, false)

/-! ## Scrubber and location test -/

/-- The scrubber works: core clocks run, the device is not stopped by a hold, and HBM is not in self-refresh (R205, R211, R469). -/
def Dev.scrubs (d : Dev) (store : Store) : Bool := d.up && !d.dbg.frozen && (store != .hbm || (d.sys.st != .parked && d.sys.selfRefresh == 0))

/-- Locations of a store's unit, and units. -/
def locOk (store : Store) (unit loc : Nat) : Bool :=
  match store with
  | .apron => decide (unit < 8192) && decide (loc < 136)
  | .rowTag => decide (unit < 8192) && loc == 0
  | .wings => decide (unit < 256) && decide (loc < 8192)
  | .localBuf => decide (unit < 96) && decide (loc < 8192)
  | .prompter => decide (unit < 8192) && decide (loc < 32)
  | .hbm => decide (64 * loc < hbmEnd)

/-- Codewords in a scrub pass end with the last location: the pass is counted (R215). -/
def lastLoc (store : Store) (unit loc : Nat) : Bool :=
  match store with
  | .apron => unit == 8191 && loc == 135
  | .rowTag => unit == 8191
  | .wings => unit == 255 && loc == 8191
  | .localBuf => unit == 95 && loc == 8191
  | .prompter => unit == 8191 && loc == 31
  | .hbm => 64 * loc + 64 == hbmEnd

def scrubRead (store : Store) (unit loc : Nat) (found : SymErrs) (d : Dev) : Dev :=
  if !d.scrubs store || !locOk store unit loc then d
  else
    let d := (d.readCw store unit loc found true 0 0 []).1
    if lastLoc store unit loc then d.modMem fun m => { m with passes := smod m.passes (storeCode store) 0 bump } else d

def execScrubRead (store : Store) (unit loc : Nat) (found : SymErrs) (s : State) : Host.Outcome State Fault Refusal :=
  s.onDev (scrubRead store unit loc found)

/-- LOCATION_REREAD (R406): the same symbols again make the location permanent; otherwise its test ends. -/
def locationReread (store : Store) (unit loc : Nat) (same : Bool) (d : Dev) : Dev :=
  let u := locUnit store unit loc
  if !d.up then d
  else if d.err.locs.any fun l => l.is store u loc && l.testing then
    let d := d.modErr fun e => e.endTest store u loc
    if same then d.mapOut store unit loc else d
  else d

def execLocationReread (store : Store) (unit loc : Nat) (same : Bool) (s : State) : Host.Outcome State Fault Refusal :=
  s.onDev (locationReread store unit loc same)

/-- ERR_MEM_CLR (R215). -/
def errMemClr (d : Dev) : Dev := if d.up then d.modMem fun m => { m with cnt := [] } else d
def execErrMemClr (s : State) : Host.Outcome State Fault Refusal := s.onDev errMemClr

/-- A host write rewrote a codeword whole: a location test that waited for the host begins (R406). -/
def Err.hostWrote (e : Err) (cw : Nat) : Err :=
  { e with locs := e.locs.map fun l => if l.store == .hbm && l.loc == cw then { l with testing := true } else l }

/-- The Stage Manager rewrites the Prompter stores that wait for it from the census copy, at a boundary (R114, R207); one whose line is
still to be mapped out waits on. -/
def Dev.restorePrompters (d : Dev) : Dev :=
  let waits (tile : Nat) : Bool := d.mem.mapNext.any fun e => e.1 == .prompter && e.2.1 == tile
  let now := d.tile.prBad.filter fun t => !waits t
  let d' := d.modMem fun m => { m with prompter := now.foldl (fun p tile =>
    let lo := prompterKey tile 0
    (d.tile.censusPr.filter fun c => lo ≤ c.1 && c.1 < lo + 4096).foldl (fun p c => wr1 p c.1 c.2) (zeroRange p lo (lo + 4096))) m.prompter }
  d'.modTile fun t => { t with prBad := t.prBad.filter waits }

/-- Where byte i of the script image lies in the script's file (R315). -/
def imageSrc : List (Nat × Nat) → Nat → Option Nat
  | [], _ => none
  | (off, len) :: t, i => if i < len then some (off + i) else imageSrc t (i - len)

/-- Codewords of the script image that are lost come again from the script's source in weight staging, where that can be read (R204). -/
def Dev.reloadImage (d : Dev) : Dev :=
  match d.scr.script with
  | none => d
  | some sc =>
    (d.mem.bad.filter fun c => regionOf (64 * c) == .scriptImage).foldl (fun d c =>
      let src := (List.range 64).map fun i => (imageSrc sc.parts (64 * c - scriptImageBase + i)).map (d.scr.srcAt + ·)
      if src.any fun a => a.any fun a => d.mem.isBad a 1 then d
      else (d.hbmWr (64 * c) (src.map fun a => match a with | some a => rd1 d.mem.hbm a | none => 0)).modErr fun e => e.hostWrote c) d

/-- Merges of the device's own that found their codeword uncorrectable are handled as reads of it (R214; log 114). -/
def Dev.missedMerges (d : Dev) : Dev :=
  (d.mem.missed.foldl (fun d c =>
    if d.mem.bad.contains c then ((d.modMem fun m => m.count .hbm (hbmChannel (64 * c)) 2).hbmBad c 0 0 0 []).1 else d) d).modMem fun m =>
      { m with missed := [] }

/-- Memory work of a frame boundary: map-outs (R46 order 3, R207), rewrites by the Stage Manager (R114, R204), dropped merges. -/
def Dev.memBoundary (d : Dev) : Dev := (d.missedMerges.mapOuts fun _ => true).restorePrompters.reloadImage

end Sys2Proof.Machine
end

