-- ==== Sys2Proof/Machine/Frame.lean ====
section
/-! DEFINITION. Frames (chapter 02): the boundary's actions in the order of R46, ticks (R32, R35, R38, R41, R42), overruns (R57 to
R60), DONE (R37), the path delay (R34), stalls (R49). Times in ns of the model clock. -/
namespace Sys2Proof.Machine

/-- TICK_IN paces the bellwether's launches (R40 to R42): it is enabled, and was not lost or has had an edge since TICK_IN_LOST was
cleared. -/
def Dev.tickInPaces (d : Dev) : Bool := d.bellwether && d.frm.tickInEn && d.frm.tickInUse

/-- The planned period at a throttle level (R56): with TICK_IN, whole script periods. Another device does not know whether TICK_IN paces
its bellwether; its own planned period, on which R59 rests, is then not rounded up (DESIGN CHOICE, log 108). -/
def Dev.plannedAt (d : Dev) (level : Nat) : Nat :=
  if d.tickInPaces then ceilDiv (8 + level) 8 * d.period else d.period * (8 + level) / 8

/-- Number of the frame that follows (R36): the first frame after a discovery has the number HERD gave. -/
def Frm.next (f : Frm) : Nat := if f.played = 0 then f.frame else f.frame + 1

/-- The unit that R60 names: recorded most often under HBM, REPLAY and LANES in the late overruns of 16 frames. -/
def suspectUnit (h : List OverrunEnt) : Option (Bool × Nat) :=
  let us := ((h.filter OverrunEnt.late).flatMap OverrunEnt.units).filter fun u => u.1 < 3
  let key (u : Nat × Nat) : Bool × Nat := (u.1 == 0, u.2)
  let n (u : Nat × Nat) : Nat := (us.filter fun v => key v == key u).length
  let better (a b : Nat × Nat) : Bool :=
    if n a != n b then decide (n b < n a) else if a.1 != b.1 then decide (a.1 < b.1) else decide (a.2 < b.2)
  (us.foldl (fun (b : Option (Nat × Nat)) u =>
    match b with
    | some x => if better u x then some u else b
    | none => some u) none).map key

/-- DETAIL of a frame error (R416): own stall causes, LAST of the latest DONE, frame length in ns. -/
def Dev.frameDetail (d : Dev) (causes len : Nat) : List Word :=
  [BitVec.ofNat 32 causes, BitVec.ofNat 32 (d.frm.aggX + 16 * d.frm.aggY), BitVec.ofNat 32 len]

/-- An overrun on this device (R58, R60): the abort tick ends the frame, every step is discarded. -/
def Dev.overrun (d : Dev) (len : Nat) : Dev :=
  let late := !d.frm.ownDone
  let det := d.frameDetail (if late then d.frm.causes else 0) len
  let d := d.modFrm fun f => { f with aborted := true, overruns := bump f.overruns }
  let d := (d.raise { code := 0x0102, cls := 1, dcause := d.discardCause 2, detail := det }).discardAll (d.discardCause 2)
  let h := (⟨late, if late then d.frm.units else []⟩ :: d.frm.overrunHist).take 16
  let d := d.modFrm fun f => { f with overrunHist := h }
  if late && decide (3 ≤ (h.filter OverrunEnt.late).length) then
    match suspectUnit h with
    | some (hbm, u) => d.raise { code := 0x0104, cls := 2, kind := if hbm then 6 else 5, unit := u, detail := det }
    | none => d
  else d

/-- The open frame ends at the start of the next (R46 orders 1 and 2). -/
def Dev.closeFrame (d : Dev) (start : Nat) (abort : Bool) : Dev :=
  if !d.frm.isOpen then d
  else
    let len := start - d.frm.start
    let d := d.frameOver len
    let d := if abort then d.overrun len else d.modFrm fun f => { f with overrunHist := (⟨false, []⟩ :: f.overrunHist).take 16 }
    d.flushDiscards.laneFree

/-! ## The start of a frame -/

/-- Bands take effect (R46 order 5, R47); one more frame of R94 has passed for the flocks that changed before. -/
def Dev.bandsBoundary (d : Dev) : Dev :=
  (d.modTile fun t =>
    { t with bandSince := t.bandSince.filterMap fun e => if e.2.1 ≤ 1 then none else some (e.1, e.2.1 - 1, e.2.2) }).applyBands

/-- The hottest of the declared band and the flocks' bands (R47). -/
def Dev.hotBand (d : Dev) : Nat := ((List.range 64).map fun f => sgetD d.thm.band f 0).foldl max d.declBand

/-- Steps of other devices that an EVAL served in the frame before and none in the frame that ended have passed: each counts toward
leaving LEARN, or resets the count when this device marked it (R130; log 25). -/
def Tile.passed (t : Tile) (n : Nat) : Tile :=
  let gone := t.passing.filter fun s => !t.foreign.contains s
  let left := if t.left = 0 then 0 else if gone.any t.marked.contains then n else t.left - gone.length
  { t with passing := t.foreign, foreign := [], marked := t.marked.filter t.foreign.contains, left := if t.learn then left else t.left }

/-- LEARN is entered or left at a boundary (R127, R130): an entry event prevails. -/
def Dev.modeBoundary (d : Dev) : Dev :=
  let n := match d.scr.script with | some sc => sc.hdr.learn | none => 0
  let ups := d.tile.ups
  let d := d.modTile fun t =>
    let t := t.applyUps.passed n
    let enter (c : Nat) : Tile := { t with learn := true, entry := c, left := n, modeReq := none, hostMode := none }
    match t.modeReq, t.hostMode with
    | some c, _ => enter c
    | none, some true => enter 5
    | none, some false => { t with learn := false, left := 0, hostMode := none }
    | none, none => if t.learn && t.left == 0 then { t with learn := false } else t
  if ups.isEmpty then d else d.tagWrite 1 (ups.map fun u => Config.pointLine u.point) 0xFFFF02

/-- The curtain rises (R304 order 8): with the phase DONE the NEXT manifest becomes CURRENT, and the epoch advances when its
digest is new; an abandoned curtain changes neither. Gains of reprogrammed arrays start (R294), and resets may run again. -/
def Dev.raiseCurtain (d : Dev) : Dev :=
  let w := d.wts
  let d := match w.phase, w.next with
    | 4, some m =>
      let fresh := decide (m.digest ≠ w.lastDigest)
      let ep := if fresh then (if w.epoch = 65535 then 1 else w.epoch + 1) else w.epoch
      let d := d.modWts fun w => { w with cur := some m, next := none, epoch := ep, lastDigest := m.digest }
      if fresh then d.modTile fun t => { t with modeReq := some 2 } else d
    | _, _ => d
  let d := d.modWts fun w =>
    { w with phase := 0, raiseAt := none, rewriteSent := false, ready := [], readySent := false, own := [],
             ownBegun := [], toCount := [], timeUs := min ((d.now - w.loweredAt) / 1000) (2 ^ 32 - 1) }
  let d := d.modFrm fun f => { f with draining := none, drain := none, drainedHeld := [], drainedSent := false }
  let d := d.tile.arrs.foldl (fun d e => if e.2.newGain then (d.startGains e.1).modArr e.1 fun x => { x with newGain := false } else d) d
  ((if d.sys.st = .curtain then d.setSt .playing else d).event .curtain).resumePaused

/-- The bellwether names what the host asked for, the second frame after this boundary (R304, R317, R472). -/
def Dev.nameDrain (d : Dev) (num : Nat) : Dev :=
  let g : BitVec 16 := BitVec.ofNat 16 (num + 2)
  let set (d : Dev) (k : DrainKind) : Dev := d.modFrm fun f => { f with want := none, drain := some (k, g.toNat) }
  if !d.bellwether || d.frm.drain.isSome || d.frm.draining.isSome then d
  else
    match d.frm.want with
    | some .curtain => ((set d .curtain).modWts fun w => { w with loweredAt := d.now }).sendDown (.curtain g)
    | some .unload => (set d .unload).sendDown (.unload g)
    | some .park => (set d .park).sendDown (.park g)
    | none => d

/-- The bellwether holds every CURTAIN_READY: RAISE names the second frame after this boundary (R304). -/
def Dev.nameRaise (d : Dev) (num : Nat) : Dev :=
  let w := d.wts
  let all := w.phase == 4 && w.readySent && d.children.all fun c => w.ready.any fun r => linkDir r.1 == linkDir c
  if d.bellwether && w.raiseAt.isNone && all then
    let h : BitVec 16 := BitVec.ofNat 16 (num + 2)
    (d.modWts fun w => { w with raiseAt := some h.toNat }).sendDown (.raise h)
  else d

/-- Path delay moves by at most 2 ns (R34). -/
def Frm.slewPath (f : Frm) : Frm :=
  { f with path := if f.path < f.pathTarget then min (f.path + 2) f.pathTarget else max (f.path - 2) f.pathTarget }

/-- Open frame `num` at `start`, in the order of R46. A device that begins it with a hold in force stops in its first slot (R469). -/
def Dev.openFrame (d : Dev) (num level : Nat) (abort : Bool) (start : Nat) : Dev :=
  let len := if d.frm.isOpen then start - d.frm.start else 0
  let d := (d.closeFrame start abort).at_ start
  -- orders 3 to 5
  let d := ((d.memBoundary.roleSwaps.resumePaused).modTile Tile.suspend).arraysBoundary len
  let d := d.bandsBoundary
  let hot := d.hotBand
  -- order 6
  let d := d.modFrm fun f =>
    { f.slewPath with isOpen := true, frame := num % 2 ^ 64, start := start, planned := d.plannedAt level, played := f.played + 1, throttle := level,
                      phaseBand := hot, causes := (if bandClocks d.declBand < bandClocks hot then 16 else 0) + (if level = 0 then 0 else 64),
                      aggCauses := 0, aggX := 0, aggY := 0, aggThrottle := 0, children := [], ownDone := false, doneSent := false, ownLast := false,
                      stalledFor := [], units := [], lanes := f.nextLanes, nextLanes := [], skipped := f.nextSkipped, nextSkipped := [], tickLock := true, outst := [],
                      stall := none, stallShift := 0 }
  let d := d.modEng fun e => { e with prevActive := e.active, active := [], delayed := [] }
  let links := d
  let d := (d.modMesh fun m => { m with short := [] }).newStreams.switchMasks num
  let d := if d.sys.st == .ready || d.sys.st == .parked then
      ((if d.sys.st = .parked then d.unpark else d).modSys fun s => { s with parkPhase := .none }).setSt .playing
    else d
  let d := if d.wts.raiseAt == some (num % 65536) then d.raiseCurtain else d
  let d := match d.frm.drain with
    | some (k, g) => if g = num % 65536 then d.beginDrainKind k else d
    | none => d
  let d := d.modeBoundary
  let d := if d.err.strikePending then d.enterStruck else d
  let d := if d.sys.st == .playing || d.sys.st == .curtain then
      (d.modFrm fun f => { f with tickOut := some start }).emit (.tickOut start)
    else d
  -- order 7
  let d := d.laneOpen.chunksEnter.scan
  (Dev.bundlesCheck links ((d.nameDrain num).nameRaise num)).applyHolds

/-! ## Ticks -/

/-- The bellwether launches the next frame's tick at t (R38): TICK goes down the tree and the frame starts L later. The level is that of
the DONE it holds (R56); before the first frame it is its own, and on an abort that of what it holds so far (DESIGN CHOICE, log 109). -/
def Dev.launch (d : Dev) (t : Nat) (abort : Bool) : Dev :=
  let d := d.aggregate
  let num := d.frm.next
  let level := if d.frm.isOpen then min 8 d.frm.aggThrottle else min 8 d.thm.level
  let d := d.sendDown (.tick ⟨BitVec.ofNat 16 num, abort, BitVec.ofNat 4 level, 0⟩)
  d.openFrame num level abort (t + d.frm.lat)

/-- Frames may be launched here: the bellwether runs, not in FROZEN, and holds every AWAKE when it parks (R316, R472). -/
def Dev.mayLaunch (d : Dev) : Bool :=
  d.coreRuns && d.bellwether && d.frm.running && !d.dbg.frozen &&
    (d.sys.st != .parked || (d.sys.awakeSent && d.children.all fun c => d.sys.awakeHeld.any fun l => linkDir l == linkDir c))

/-- STOP names the boundary that has come (R317, R472). -/
def Dev.atStop (d : Dev) : Bool := d.frm.stopAt == some (d.frm.next % 65536)

/-- The drain that STOP ends. -/
def Dev.stopNow (d : Dev) : Dev :=
  match d.frm.draining with
  | some k => d.drainEnd k
  | none => d.endFrames d.fullLen

/-- TICK_LAUNCH (R38): after the nominal time, holding every DONE. With TICK_IN the edge launches, the first frame too (R41). -/
def tickLaunch (t : Nat) (d : Dev) : Dev :=
  if !d.mayLaunch then d
  else if !d.frm.isOpen then (if d.tickInPaces then d else (d.at_ t).launch t false)
  else if d.frm.ownDone && d.childrenDone && decide (d.frm.start + d.frm.planned ≤ t + d.frm.lat) then
    if d.atStop then (d.at_ t).aggregate.stopNow
    else if d.tickInPaces then d
    else (d.at_ t).launch t false
  else d
def execTickLaunch (t : Nat) (s : State) : Host.Outcome State Fault Refusal := s.onDev (tickLaunch t)

/-- OVERRUN_ABORT (R57): DONE is not held L before twice the planned period has passed. -/
def overrunAbort (t : Nat) (d : Dev) : Dev :=
  if d.mayLaunch && d.frm.isOpen && !(d.frm.ownDone && d.childrenDone) &&
      decide (d.frm.start + 2 * d.frm.planned ≤ t + d.frm.lat) then (d.at_ t).launch t true
  else d
def execOverrunAbort (t : Nat) (s : State) : Host.Outcome State Fault Refusal := s.onDev (overrunAbort t)

/-- TICK_IN_EDGE (R40, R41, R483): an edge closer than 0.9 periods to the accepted one is ignored; an accepted edge starts the
frame whose DONE is held, when it falls after the time of R38 (log 41), or the first frame. -/
def tickInEdge (t : Nat) (d : Dev) : Dev :=
  if !d.coreRuns || !d.bellwether || !d.frm.tickInEn then d
  else
    let near := match d.frm.tickInLast with | some e => decide (10 * (t - e) < 9 * d.period) | none => false
    if near then d.modSys fun s => { s with glTickIn := min 255 (s.glTickIn + 1) }
    else
      let d := (d.at_ t).modFrm fun f => { f with tickInLast := some t, tickInUse := !f.tickInLost }
      if d.mayLaunch && d.tickInPaces && !d.frm.isOpen then d.launch (t - d.frm.lat) false
      else if d.mayLaunch && d.tickInPaces && d.frm.isOpen && d.frm.ownDone && d.childrenDone && decide (d.frm.start + d.frm.planned ≤ t + d.frm.lat) &&
          !d.atStop then
        let d := if d.frm.start + d.frm.planned < t then d.modFrm fun f => { f with causes := f.causes ||| 128 } else d
        d.launch (t - d.frm.lat) false
      else d
def execTickInEdge (t : Nat) (s : State) : Host.Outcome State Fault Refusal := s.onDev (tickInEdge t)

/-- TICK_IN_LOST (R42). -/
def tickInLost (t : Nat) (d : Dev) : Dev :=
  let old := match d.frm.tickInLast with | some e => decide (e + 2 * d.period ≤ t) | none => !d.frm.isOpen || decide (d.frm.start + 2 * d.period ≤ t)
  if d.coreRuns && d.tickInPaces && d.frm.running && old then
    ((d.at_ t).modFrm fun f => { f with tickInLost := true, tickInUse := false }).raise
      { code := 0x0105, cls := 0, detail := d.frameDetail d.frm.causes (t - d.frm.start) }
  else d
def execTickInLost (t : Nat) (s : State) : Host.Outcome State Fault Refusal := s.onDev (tickInLost t)

/-- TICK_IN_LOST_CLEAR (R42): the next edge paces the ticks again. -/
def tickInLostClear (d : Dev) : Dev := if d.up then d.modFrm fun f => { f with tickInLost := false } else d
def execTickInLostClear (s : State) : Host.Outcome State Fault Refusal := s.onDev tickInLostClear

/-- TICK (R32, R35): forwarded with this device's own LATE of 0, and the frame opens at t + (L − Dᵢ), t the nominal arrival. The first
frame after a discovery has the number of HERD whatever the symbol carries (R36). A symbol carries 16 bits: a counter set to match keeps
its upper 48 (DESIGN CHOICE, log 110). -/
def tick (link : Nat) (u : TickInfo) (t : Nat) (d : Dev) : Dev :=
  if !d.coreRuns || d.bellwether || !d.fromParent link || !d.frm.running || d.dbg.frozen then d
  else
    let d := (d.at_ t).sendDown (.tick { u with late := 0 })
    let start := t - u.late.toNat / 100 + (d.frm.lat - d.frm.path)
    let exp := d.frm.next
    if exp % 65536 = u.num.toNat || d.frm.played = 0 then d.openFrame exp u.level.toNat u.abort start
    else
      let num := exp - exp % 65536 + u.num.toNat
      let d := (d.raise { code := 0x0101, cls := 1, dcause := d.discardCause 3,
                          detail := d.frameDetail d.frm.causes (start - d.frm.start) }).discardAll (d.discardCause 3)
      d.openFrame num u.level.toNat u.abort start
def execTick (link : Fin 48) (u : TickInfo) (t : Nat) (s : State) : Host.Outcome State Fault Refusal :=
  s.onDev (tick link.val u t)

/-! ## DONE -/

/-- Own work and every child's DONE are complete: DONE goes up the tree once (R37). After the last frame before STOP the device
stops. -/
def Dev.tryDone (d : Dev) : Dev :=
  if !d.frm.isOpen || d.frm.doneSent || !d.frm.ownDone || !d.childrenDone then d
  else
    let d := d.aggregate.modFrm fun f => { f with doneSent := true }
    if d.bellwether then d
    else
      let d := d.sendUp (.done d.doneInfo)
      if d.atStop then d.stopNow else d

/-- DONE_SEND (R37, R39): every own cue of the frame has completed, so no input is outstanding; the apron is zeroed (R46 order 1). -/
def doneSend (t : Nat) (d : Dev) : Dev :=
  if !d.coreRuns || !d.frm.isOpen || d.frm.stall.isSome || !d.frm.outst.isEmpty || d.dbg.frozen then d
  else
    let d := d.at_ t
    let d := if d.frm.ownDone then d
      else d.workEnd.modFrm fun f => { f with ownDone := true, ownLast := d.childrenDone }
    d.tryDone
def execDoneSend (t : Nat) (s : State) : Host.Outcome State Fault Refusal := s.onDev (doneSend t)

/-- DONE (R37): a tree child's DONE of the open frame is held. -/
def done (link : Nat) (u : DoneInfo) (d : Dev) : Dev :=
  if !d.coreRuns || !d.frm.isOpen || !d.fromChild link || u.num.toNat != d.frm.frame % 65536 then d
  else
    let c : DoneHeld := ⟨link, u.causes.toNat, u.throttle.toNat, u.last.x.toNat, u.last.y.toNat⟩
    (d.modFrm fun f => { f with children := f.children.filter (fun x => linkDir x.link != linkDir link) ++ [c] }).tryDone
def execDone (link : Fin 48) (u : DoneInfo) (s : State) : Host.Outcome State Fault Refusal := s.onDev (done link.val u)

/-! ## Bellwether lost, path delay, stalls, clears -/

/-- BELLWETHER_LOST (R59): steps discarded, a contained error, no more frames, and rediscovery. -/
def bellwetherLost (t : Nat) (d : Dev) : Dev :=
  if d.coreRuns && d.frm.running && d.frm.isOpen && !d.bellwether && !d.dbg.frozen && (d.sys.st == .playing || d.sys.st == .curtain || d.sys.st == .struck) &&
      decide (d.frm.start + 2 * d.frm.planned + 1000 ≤ t) then
    let d := (d.at_ t).raise { code := 0x0103, cls := 1, dcause := d.discardCause 3, detail := d.frameDetail d.frm.causes (t - d.frm.start) }
    let d := (d.discardAll (d.discardCause 3)).endFrames d.openLen
    let d := d.modTile fun x => { x with modeReq := x.modeReq <|> some 3 }
    let d := (d.modTile Tile.dropLoads).modWts Wts.cutCurtain
    let d := if d.sys.st = .struck then d else d.setSt .ready
    d.floodRediscover.beginDiscovery
  else d
def execBellwetherLost (t : Nat) (s : State) : Host.Outcome State Fault Refusal := s.onDev (bellwetherLost t)

/-- ECHO_MEASURE (R34): an echo goes out on the link toward the parent. -/
def echoMeasure (d : Dev) : Dev :=
  if !d.coreRuns then d
  else match d.parent with
    | some l =>
      d.sendEcho l
    | none => d
def execEchoMeasure (s : State) : Host.Outcome State Fault Refusal := s.onDev echoMeasure

/-- STALL_RESUME (R49): the input is there, and the device goes on at a slot of its phase clock. -/
def stallResume (slot : Nat) (d : Dev) : Dev :=
  match d.frm.stall with
  | none => d
  | some st => if !d.coreRuns || d.dbg.frozen || d.frm.outst.contains st.on then d else d.endStall st slot
def execStallResume (slot : BitVec 16) (s : State) : Host.Outcome State Fault Refusal := s.onDev (stallResume slot.toNat)

/-- SCRIPT_STRETCH_CLR (R61). -/
def scriptStretchClr (d : Dev) : Dev :=
  if d.up then
    d.modFrm fun f => { f with stretchFrames := 0, stretchTotal := 0, stretchMax := 0, overruns := 0, lastCauses := 0, lastX := 0, lastY := 0,
                               stretchCause := [], stallCause := [], stallSlots := 0 }
  else d
def execScriptStretchClr (s : State) : Host.Outcome State Fault Refusal := s.onDev scriptStretchClr

end Sys2Proof.Machine
end

