-- ==== Sys2Proof/Machine/Discovery.lean ====
section
/-! DEFINITION. Discovery (R363 to R365, R30, R31, R316): HELLO, echoes, DISCOVER, REPORT, HERD, ORPHAN, REDISCOVER; MESH_ID. -/
namespace Sys2Proof.Machine

/-! ## What a device tells the herd -/

/-- The first 64 bits of the SHAKE256 digest of the device identity (R360). -/
def identityDigest : BitVec 64 := BitVec.ofNat 64 (leAt (shake256 Config.identityKey) 0 8)

/-- SCRIPT_WT_STATUS.CUR_OK (R288). -/
def Dev.curOk (d : Dev) : Bool :=
  match d.scr.script, d.wts.cur with
  | some sc, some m =>
    m.secs.all SecEnt.done && !(sc.placement.any fun p =>
      p.x == d.coord.x.toNat && p.y == d.coord.y.toNat && (d.tile.arrs.any fun a =>
        a.1 / 17 == p.tile && a.2.role == 0 && a.2.incomplete && (a.2.pslot == p.slot || (p.w8 && a.2.pslot == p.slot + 1))))
  | _, _ => false

/-- This device's REPORT (R365). -/
def Dev.report (d : Dev) : ReportInfo :=
  { at_ := d.coord, grade := BitVec.ofNat 4 gradeCode, state := BitVec.ofNat 4 d.sys.st.code, epoch := BitVec.ofNat 16 d.wts.epoch,
    path := BitVec.ofNat 16 d.frm.path,
    scriptId := match d.scr.script with | some sc => BitVec.ofNat 64 (leAt sc.id 0 8) | none => 0,
    loaded := d.scr.script.isSome, curOk := d.curOk, hostUp := d.hostUp }

/-- HELLO on a link (R363). -/
def Dev.sendHello (d : Dev) (link : Nat) : Dev :=
  d.sendUnit link (.hello ⟨d.mesh.herdAt, d.coord, BitVec.ofNat 4 (link % 12), BitVec.ofNat 8 gradeCode, identityDigest⟩)

/-! ## Start (R364, R365 order 1) -/

/-- DISCOVERY_START: the links have trained, after SYS_RST_N, for a discovery that began, or for an ORPHAN's retry; HELLO goes
out on each. -/
def discoveryStart (d : Dev) : Dev :=
  if !d.up || d.sys.switches || !(d.mesh.disc == 0 || d.mesh.disc == 1 || d.mesh.disc == 5) then d
  else
    let d := if d.mesh.disc = 1 then d else d.beginDiscovery
    let d := (List.range 48).foldl (fun d n => if (d.link n).st = 1 then d.sendHello n else d) d
    d.modMesh fun m => { m with disc := 2 }
def execDiscoveryStart (s : State) : Host.Outcome State Fault Refusal := s.onDev discoveryStart

/-- MESH_REDISCOVER (R364): the host's write begins a discovery; it is not among the cases that flood. -/
def meshRediscover (d : Dev) : Dev := if d.up then d.beginDiscovery else d
def execMeshRediscover (s : State) : Host.Outcome State Fault Refusal := s.onDev meshRediscover

/-- REDISCOVER (R364): forwarded once per origin and sequence; the device begins a discovery. -/
def rediscover (link : Nat) (u : FloodInfo) (d : Dev) : Dev :=
  if !d.up || !(d.link link).working || d.mesh.seenRedisc.contains (u.origin, u.seq) then d
  else ((d.modMesh fun m => { m with seenRedisc := (u.origin, u.seq) :: m.seenRedisc }).flood (.rediscover u)).beginDiscovery
def execRediscover (link : Fin 48) (u : FloodInfo) (s : State) : Host.Outcome State Fault Refusal := s.onDev (rediscover link.val u)

/-! ## HELLO (R363) -/

/-- Distance of a partner that lies in the bundle's direction. -/
def helloDist (dir : Dir) (me other : Coord) : Option Nat :=
  let x := me.x.toNat
  let y := me.y.toNat
  let p := other.x.toNat
  let q := other.y.toNat
  let near (a b : Nat) : Option Nat := if a = b + 1 then some 1 else if a = b + 2 then some 2 else none
  match dir with
  | .west => if y = q then near x p else none
  | .east => if y = q then near p x else none
  | .north => if x = p then near q y else none
  | .south => if x = p then near y q else none

/-- A link of the bundle toward the tree parent, or toward a tree child (R30). -/
def Dev.treeLink (d : Dev) (link : Nat) : Bool :=
  match d.mesh.at_ with
  | none => false
  | some c =>
    match linkDir link with
    | .south => c.y != 0
    | .west => c.y == 0 && c.x != 0
    | .east => c.y == 0
    | .north => true

/-- HELLO: the link is accepted, or disabled as MISWIRED. A partner nearer than the bypassed one of before is a bypassed device
that rejoins: the device floods REDISCOVER (R364). -/
def hello (link : Nat) (u : HelloInfo) (d : Dev) : Dev :=
  let l := d.link link
  if !d.up || d.sys.switches || l.st = 7 then d
  else
    let dist := helloDist (linkDir link) d.coord u.at_
    let good := u.herd == d.mesh.herdAt && u.index.toNat == link % 12 && dist.isSome
    let d := if d.mesh.disc = 4 && good && l.bypassed && dist == some 1 then d.floodRediscover.beginDiscovery else d
    if good then
      let mask : BitVec 4 := ~~~ l.disabled
      let d := d.modLink link fun l =>
        ({ l with st := 2, lanes := mask, txLanes := 0xF, partX := u.at_.x, partY := u.at_.y, partK := u.index, bypassed := dist == some 2,
                  echoSum := 0, echoN := 0 } : Link).restate
      if d.treeLink link && d.mesh.herdAt != 0xFF then d.sendEcho link else d
    else
      d.linkOff link 5
def execHello (link : Fin 48) (u : HelloInfo) (s : State) : Host.Outcome State Fault Refusal := s.onDev (hello link.val u)

/-! ## Echoes (R34, R365) -/

/-- ECHO is answered; the turnaround is 0 in the model's time (log 3). -/
def echo (link : Nat) (num : BitVec 16) (d : Dev) : Dev :=
  if d.coreRuns && (d.link link).working then d.sendUnit link (.echoReply num 0) else d
def execEcho (link : Fin 48) (num : BitVec 16) (s : State) : Host.Outcome State Fault Refusal := s.onDev (echo link.val num)

/-- 10 ps to ns, to nearest. -/
def tenPsNs (v : Nat) : Nat := (v + 50) / 100

/-- ECHO_REPLY: the sixteenth measurement of a discovery gives the link's one-way delay, and above 90 ns the link is disabled
(R365, R368); while a herd stands, the link to the parent gives a new Dᵢ (R34), of which only this link's part is measured anew: the
parent's part stays what DISCOVER gave (log 124, DESIGN CHOICE). Delays in 10 ps. -/
def echoReply (link turn roundTrip : Nat) (d : Dev) : Dev :=
  let l := d.link link
  if !d.coreRuns || !l.working then d
  else if l.echoN < 16 then
    let sum := l.echoSum + (roundTrip - turn)
    let d := d.modLink link fun l => { l with echoSum := sum, echoN := l.echoN + 1 }
    if l.echoN + 1 < 16 then d.sendEcho link
    else
      let one := min 65535 (sum / 32)
      let d := d.modLink link fun l => { l with delay := one }
      if 9000 < one then
        d.linkOff link 6
      else d
  else
    let one := min 65535 ((roundTrip - turn) / 2)
    let d := d.modLink link fun l => { l with delay := one }
    if d.fromParent link then d.modFrm fun f => { f with pathTarget := d.mesh.parentPath + tenPsNs one } else d
def execEchoReply (link : Fin 48) (_num : BitVec 16) (turn : BitVec 16) (roundTrip : Nat) (s : State) : Host.Outcome State Fault Refusal :=
  s.onDev (echoReply link.val turn.toNat roundTrip)

/-! ## DISCOVER and REPORT (R365) -/

/-- Links still in training have no partner (R362). -/
def Dev.noPartner (d : Dev) : Dev :=
  d.modMesh fun m => { m with links := m.links.map fun l => (l.1, if l.2.st = 1 then { l.2 with st := 0 } else l.2) }

/-- DISCOVER_LAUNCH: the bellwether sends DISCOVER with Dᵢ 0 down the tree. -/
def discoverLaunch (d : Dev) : Dev :=
  if !d.up || !d.bellwether || d.mesh.disc != 2 then d
  else
    let d := d.noPartner.modFrm fun f => { f with path := 0, pathTarget := 0 }
    let d := d.modMesh fun m => { m with disc := 3, parentPath := 0, round := m.round + 1, discovers := [identityDigest] }
    let d := d.modMesh fun m => { m with reports := [d.report] }
    d.sendDown (.discover d.mesh.herdAt 0 identityDigest d.mesh.round)
def execDiscoverLaunch (s : State) : Host.Outcome State Fault Refusal := s.onDev discoverLaunch

/-- DISCOVER: the first sets Dᵢ, goes on to the children, and REPORT goes up. Another bellwether's is remembered. -/
def discover (link : Nat) (herd : BitVec 8) (pp : Nat) (digest : BitVec 64) (round : BitVec 8) (d : Dev) : Dev :=
  if !d.up || d.mesh.at_.isNone || herd != d.mesh.herdAt || !(d.link link).working then d
  else
    let d := d.modMesh fun m => { m with discovers := if m.discovers.contains digest then m.discovers else m.discovers ++ [digest] }
    if d.mesh.disc != 2 || !d.fromParent link then d
    else
      let path := pp + tenPsNs (d.link link).delay
      let d := d.noPartner.modMesh fun m => { m with disc := 3, parentPath := pp, round := round }
      let d := d.modFrm fun f => { f with path := path, pathTarget := path }
      (d.sendDown (.discover herd (BitVec.ofNat 16 path) digest round)).sendUp (.report d.report)
def execDiscover (link : Fin 48) (herd : BitVec 8) (parentPath : BitVec 16) (digest : BitVec 64) (round : BitVec 8) (s : State) :
    Host.Outcome State Fault Refusal :=
  s.onDev (discover link.val herd parentPath.toNat digest round)

/-- REPORT: the bellwether collects, every other device forwards. -/
def reportUnit (link : Nat) (u : ReportInfo) (d : Dev) : Dev :=
  if !d.up || d.mesh.disc != 3 || !d.fromChild link then d
  else if d.bellwether then d.modMesh fun m => { m with reports := m.reports ++ [u] }
  else d.sendUp (.report u)
def execReport (link : Fin 48) (u : ReportInfo) (s : State) : Host.Outcome State Fault Refusal := s.onDev (reportUnit link.val u)

/-! ## HERD (R365, R316) -/

/-- L: the largest Dᵢ rounded up to the next 100 ns (R30). -/
def herdLat (rs : List ReportInfo) : Nat := ceilDiv (rs.foldl (fun m r => max m r.path.toNat) 0) 100 * 100

/-- The positions of the script's shape are reported, and none besides. -/
def shapeOk (hdr : ScriptHdr) (rs : List ReportInfo) : Bool :=
  let cs := rs.map ReportInfo.at_
  (List.range (hdr.xDim + 1)).all (fun x => (List.range (hdr.yDim + 1)).all fun y => cs.contains ⟨BitVec.ofNat 4 x, BitVec.ofNat 4 y⟩) &&
    cs.all fun c => decide (c.x.toNat ≤ hdr.xDim) && decide (c.y.toNat ≤ hdr.yDim)

/-- Some two reports differ in a field. -/
def differ {α : Type} [DecidableEq α] (rs : List ReportInfo) (f : ReportInfo → α) : Bool :=
  match rs with
  | [] => false
  | r :: t => t.any fun x => f x != f r

/-- The result byte (R365): the first value that applies, Formed when no other does. -/
def Dev.herdResult (d : Dev) : Nat :=
  let rs := d.mesh.reports
  let hdr := d.scr.script.map Script.hdr
  if decide (¬ (rs.map ReportInfo.at_).Nodup) || decide (1 < d.mesh.discovers.length) then 1
  else if (match hdr with | some h => !shapeOk h rs | none => false) then 2
  else if differ rs ReportInfo.grade then 3
  else if differ rs ReportInfo.scriptId then 4
  else if (match hdr with | some h => decide (h.tickBudget < herdLat rs) | none => false) then 5
  else if differ rs ReportInfo.epoch then 6
  else if hdr.isNone then 7
  else 0

/-- The script is unloaded with a cause found at discovery (R316, R317). -/
def Dev.unloadFor (d : Dev) (cause : Nat) : Dev :=
  if d.scr.script.isNone then d
  else (d.unloadScript.modScr fun s => { s with err := true, cause := cause }).event .script

/-- HERD's result on this device (R365 order 6, R316, R291): frames begin at the next tick, or the script goes, or stays. A herd that
has formed is frozen again by the sources still engaged (R471). -/
def Dev.applyHerd (d : Dev) (u : HerdInfo) : Dev :=
  let r := u.result.toNat
  let d := d.modFrm fun f => { f with lat := u.lat.toNat }
  let d := d.modMesh fun m =>
    { m with result := r % 8, seenX := u.width, seenY := u.height, devices := u.devices.toNat, discCount := bump m.discCount,
             disc := if r = 0 || r = 6 || r = 7 then 4 else 6 }
  let d := d.modWts fun w => { w with mismatch := r == 6 }
  let d := if r = 0 then d.refreeze else d
  if 2 ≤ r && r ≤ 4 then d.unloadFor 0x19
  else if r = 5 then d.unloadFor 0x18
  else if r = 0 && d.scr.script.isSome && d.curOk && (d.sys.st == .ready || d.sys.st == .struck) then
    d.modFrm fun f => { f with running := true, frame := u.first.toNat, played := 0, planned := d.period }
  else d

/-- HERD_ISSUE: the bellwether evaluates the reports and sends HERD; its table of reports goes out on management Ethernet (R379). -/
def herdIssue (d : Dev) : Dev :=
  if !d.up || !d.bellwether || d.mesh.disc != 3 then d
  else
    let rs := d.mesh.reports
    let w := rs.foldl (fun m r => max m r.at_.x.toNat) 0
    let h := rs.foldl (fun m r => max m r.at_.y.toNat) 0
    let u : HerdInfo :=
      { lat := BitVec.ofNat 16 (herdLat rs), result := BitVec.ofNat 8 d.herdResult, width := BitVec.ofNat 4 w, height := BitVec.ofNat 4 h,
        devices := BitVec.ofNat 16 (min 256 rs.length), first := BitVec.ofNat 64 d.frm.next }
    ((d.sendDown (.herd u)).ethSend (rs.flatMap fun r => (CtlUnit.report r).bytes)).applyHerd u
def execHerdIssue (s : State) : Host.Outcome State Fault Refusal := s.onDev herdIssue

/-- HERD from the parent: sent on, and applied. -/
def herd (link : Nat) (u : HerdInfo) (d : Dev) : Dev :=
  if !d.up || d.mesh.disc != 3 || !d.fromParent link then d else (d.sendDown (.herd u)).applyHerd u
def execHerd (link : Fin 48) (u : HerdInfo) (s : State) : Host.Outcome State Fault Refusal := s.onDev (herd link.val u)

/-- ORPHAN (R365): no DISCOVER within 200 ms. -/
def orphan (d : Dev) : Dev :=
  if d.up && !d.bellwether && d.mesh.at_.isSome && d.mesh.disc == 2 then d.modMesh fun m => { m with disc := 5 } else d
def execOrphan (s : State) : Host.Outcome State Fault Refusal := s.onDev orphan

/-! ## MESH_ID (R363, R8) -/

/-- MESH_ID_WRITE: taken in READY with no script loaded while the register is not locked; LOCK locks it until SYS_RST_N. -/
def meshIdWrite (herd : BitVec 8) (x y : BitVec 4) (lock : Bool) (d : Dev) : Dev :=
  if !d.up then d
  else
    let d := if d.sys.st == .ready && d.scr.script.isNone && !d.mesh.lock then d.modMesh fun m => { m with herd := herd, x := x, y := y } else d
    d.modMesh fun m => { m with lock := m.lock || lock }
def execMeshIdWrite (herd : BitVec 8) (x y : BitVec 4) (lock : Bool) (s : State) : Host.Outcome State Fault Refusal :=
  s.onDev (meshIdWrite herd x y lock)

end Sys2Proof.Machine
end

