-- ==== Sys2Proof/Machine/Weights.lean ====
section
/-! DEFINITION. Weights (chapter 09): manifests (R282, R283, R289), sections (R284 to R288, R290), programming in place (R295, R302),
head counts (R307 to R310). -/
namespace Sys2Proof.Machine

/-! ## Manifests (R283) -/

/-- Staging bytes at a 4 KiB unit, and whether they hold an uncorrectable codeword. -/
def Dev.staged (d : Dev) (unit off n : Nat) : List Byte := d.hbmRd (wtStagingBase + 4096 * unit + off) n
def Dev.stagedBad (d : Dev) (unit n : Nat) : Bool := d.mem.isBad (wtStagingBase + 4096 * unit) n

/-- A range lies in weight staging. -/
def stagingHolds (unit n : Nat) : Bool := decide (wtStagingBase + 4096 * unit + n ≤ 0x5_C000_0000)

/-- A section entry of 128 bytes; none when a byte that must be 0 is not. -/
def parseEntry (bs : List Byte) : Option SecEnt :=
  if 1024 ≤ leAt bs 0 4 || !allZero (slice bs 12 4) || !allZero (slice bs 80 48) then none
  else some { layer := leAt bs 0 4, len := leAt bs 4 4, arrays := leAt bs 8 4, digest := slice bs 16 32, head := slice bs 48 32 }

/-- Entries in ascending order, each layer once. -/
def ascending : List Nat → Bool
  | a :: b :: t => decide (a < b) && ascending (b :: t)
  | _ => true

/-- Check the manifest at a staging unit under a weight key: its cause code, or the manifest. Staging errors come first, then the
causes in ascending order. -/
def Dev.checkManifest (d : Dev) (sc : Script) (unit : Nat) : Nat ⊕ Manifest :=
  let n := leAt (d.staged unit 12 4) 0 4
  let len := 64 + 128 * n
  if d.stagedBad unit 64 then .inl 7
  else if leAt (d.staged unit 0 4) 0 4 != 0x57544D31 || n = 0 || 4095 < n || !allZero (d.staged unit 20 44) || !stagingHolds unit (len + 3309) then .inl 2
  else if d.stagedBad unit (len + 3309) then .inl 7
  else
    let es := (List.range n).map fun i => parseEntry (d.staged unit (64 + 128 * i) 128)
    match es.mapM id with
    | none => .inl 2
    | some secs =>
      let c := d.coord
      let body := d.staged unit 0 len
      let sig := d.staged unit len 3309
      if !ascending (secs.map SecEnt.layer) then .inl 2
      else if leAt body 4 4 != sc.hdr.placement || leAt body 8 4 != c.x.toNat + 16 * c.y.toNat then .inl 3
      else if !Config.mldsaVerify sc.hdr.weightKey body sig then .inl 4
      else .inr ⟨leAt body 16 4, shake256 (body ++ sig), secs⟩

/-! ## The weight command's status (R311) -/

def Dev.wtDone (d : Dev) : Dev := (d.modWts fun w => { w with job := none, done := true }).event .weights
def Dev.wtErr (d : Dev) (cause : Nat) : Dev := (d.modWts fun w => { w with job := none, err := true, cause := cause }).event .weights

/-- A write of SCRIPT_WT_CTRL sets TARGET and MODE. -/
def Wts.ctrl (w : Wts) (next program : Bool) : Wts := { w with target := next, mode := program }

/-- Sections recorded for NEXT whose digest differs from the CURRENT entry of their layer (R304 order 5). -/
def Wts.differs (w : Wts) (e : SecEnt) : Bool :=
  match w.cur with
  | some m => !(m.secs.any fun x => x.layer == e.layer && x.digest == e.digest)
  | none => true

/-- Indices of NEXT sections that are to be rewritten: recorded ones, or those still missing. -/
def Wts.toRewrite (w : Wts) (recorded : Bool) : List Nat :=
  match w.next with
  | some m => m.secs.zipIdx.filterMap fun e => if w.differs e.1 && e.1.done == recorded then some e.2 else none
  | none => []

/-- REWRITING begins with a verified NEXT manifest; without one the device awaits it (R304 order 5). -/
def Dev.startRewrite (d : Dev) : Dev :=
  d.modWts fun w => if w.next.isSome then { w with phase := 3, own := w.toRewrite true, ownBegun := [] }
                    else { w with phase := 2, own := [], ownBegun := [] }

/-- NEXT is promoted in READY (R289): the recorded sections are processed by the device itself, in PROGRAM mode. -/
def Wts.promote (w : Wts) (m : Manifest) : Wts :=
  { w with cur := some { m with secs := m.secs.map fun e => { e with done := false } }, next := none,
           own := m.secs.zipIdx.filterMap fun e => if e.1.done then some e.2 else none, ownBegun := [] }

/-- WT_VERIFY (R286, R289): ignored while BUSY. A NEXT manifest that is verified already is promoted in READY. -/
def wtVerify (next program : Bool) (d : Dev) : Dev :=
  if !d.up then d
  else
    let d := d.modWts fun w => w.ctrl next program
    if d.wts.job.isSome then d
    else
      let st := d.sys.st
      match d.scr.script with
      | none => d.wtErr 1
      | some sc =>
        if !(st == .ready || (next && (st == .playing || st == .curtain))) then d.wtErr 1
        else match next, d.wts.next, st with
          | true, some m, .ready => (d.modWts fun w => w.promote m).wtDone
          | _, _, _ =>
            match d.checkManifest sc d.wts.manOff.toNat with
            | .inl c => d.wtErr c
            | .inr m =>
              let d := d.modWts fun w => if next then { w with next := some m } else { w with cur := some m, own := [], ownBegun := [] }
              (if next && d.wts.phase == 2 then d.startRewrite else d).wtDone
def execWtVerify (next program : Bool) (s : State) : Host.Outcome State Fault Refusal := s.onDev (wtVerify next program)

/-- A section of the CURRENT manifest has census data with an uncorrectable codeword (R290). -/
def Dev.needsRestore (d : Dev) (layer : Nat) : Bool := d.tile.censusBad.any fun k => d.slotLayer (k / 16) (k % 16) == some layer

/-- R287: the load that the state allows. -/
def Dev.loadAllowed (d : Dev) (next program : Bool) (e : Option SecEnt) : Bool :=
  match d.sys.st with
  | .ready => true
  | .playing => next || (!program && (match e with | some x => d.needsRestore x.layer | none => true))
  | .curtain => next
  | _ => false

/-- WT_LOAD (R286, R287): ignored while BUSY; cause 1 outside R287 or beyond the manifest, cause 8 without a verified manifest. -/
def wtLoad (next program : Bool) (d : Dev) : Dev :=
  if !d.up then d
  else
    let d := d.modWts fun w => w.ctrl next program
    if d.wts.job.isSome then d
    else
      let m := if next then d.wts.next else d.wts.cur
      let i := d.wts.index.toNat
      let e := m.bind fun m => m.secs[i]?
      if d.scr.script.isNone || !d.loadAllowed next program e then d.wtErr 1
      else if m.isNone then d.wtErr 8
      else if e.isNone then d.wtErr 1
      else d.modWts fun w => { w with job := some ⟨next, i, w.secOff.toNat, program, false⟩ }
def execWtLoad (next program : Bool) (s : State) : Host.Outcome State Fault Refusal := s.onDev (wtLoad next program)

/-- WT_ABORT (R311): arrays that the command was writing are incomplete (log 121). -/
def wtAbort (next program : Bool) (d : Dev) : Dev :=
  if !d.up then d
  else
    let d := d.modWts fun w => w.ctrl next program
    match d.wts.job with
    | some j => (if j.begun then d.modTile Tile.dropLoads else d).wtErr 11
    | none => d
def execWtAbort (next program : Bool) (s : State) : Host.Outcome State Fault Refusal := s.onDev (wtAbort next program)

/-! ## A section's contents (R284, R285) -/

/-- One logical slot of a section: its weights as levels, its Prompter descriptor, outlier set and table. -/
structure SecSlot where
  tile : Nat
  slot : Nat
  kind : Nat
  cells : List (Nat × Byte)
  desc : Nat
  oset : List Byte
  table : List Byte

/-- The weights of a block: row-major, W4s nibbles or W8s bytes. -/
def blockWeights (w8 : Bool) (bs : List Byte) : List Int :=
  if w8 then bs.map fun b => sext 8 b.toNat else bs.flatMap fun b => [sext 4 b.toNat, sext 4 (b.toNat / 16)]

/-- Every weight lies in its range (R285). -/
def weightsOk (w8 : Bool) (ws : List Int) : Bool := ws.all fun w => if w8 then decide (|w| ≤ 112) else decide (w ≠ -8)

/-- Levels of a list of W4s weights, by row × 512 + column; only pairs above level 0. -/
def levelCells (ws : List Int) : List (Nat × Byte) := ws.zipIdx.filterMap fun w => if w.1 = 0 then none else some (w.2, weightPair w.1)

/-- The high part of a W8s weight (R65). -/
def highPart (w : Int) : Int := rne ((w : Rat) / 15)

/-- Prompter bytes of a slot that follow the descriptors: the script's allotment (R284). -/
def Script.area (sc : Script) (tile slot : Nat) : Nat × Nat :=
  match sc.prompter.find? fun a => a.tile == tile && a.slot == slot with | some a => (a.off, a.len) | none => (0, 0)

/-- Slots from a descriptor word on: the blocks at `blk`, the Prompter parts at `pr`; answers the slots and the next places. -/
def secDesc (sc : Script) (bs : List Byte) (v : Nat) (blk pr : Nat) : List SecSlot × Bool × Nat × Nat :=
  let tile := fld v 0 13
  let slot := fld v 16 4
  let w8 := fld v 20 2 == 1
  let n := if w8 then 262144 else 131072
  let ws := blockWeights w8 (slice bs blk n)
  let ok := weightsOk w8 ws
  let l0 := (sc.area tile slot).2
  let l1 := (sc.area tile (slot + 1)).2
  if w8 then
    let hi : SecSlot := ⟨tile, slot, 1, levelCells (ws.map highPart), leAt bs pr 8, slice bs (pr + 16) 16, slice bs (pr + 48) l0⟩
    let lo : SecSlot := ⟨tile, slot + 1, 2, levelCells (ws.map fun w => w - 15 * highPart w), leAt bs (pr + 8) 8, slice bs (pr + 32) 16,
      slice bs (pr + 48 + l0) l1⟩
    ([hi, lo], ok, blk + n, pr + 48 + l0 + l1)
  else ([⟨tile, slot, 0, levelCells ws, leAt bs pr 8, slice bs (pr + 8) 16, slice bs (pr + 24) l0⟩], ok, blk + n, pr + 24 + l0)

def secDescs (sc : Script) (bs : List Byte) : List Nat → Nat → Nat → List SecSlot × Bool × Nat
  | [], _, pr => ([], true, pr)
  | v :: t, blk, pr =>
    let r := secDesc sc bs v blk pr
    let u := secDescs sc bs t r.2.2.1 r.2.2.2
    (r.1 ++ u.1, r.2.1 && u.2.1, u.2.2)

/-- Channels of a 16-byte outlier set; none when it breaks R106 or R110. -/
def parseOset (bs : List Byte) : Option (List Nat) :=
  let v := leNat bs
  let n := fld v 72 4
  let ch := (List.range n).map fun i => fld v (9 * i) 9
  if n = 0 || 8 < n || v / 2 ^ 76 != 0 || fld v (9 * n) (72 - 9 * n) != 0 || !ascending ch then none else some ch

/-- Bytes of outlier row weights of a slot (R108). -/
def rowBytes (kind n : Nat) : Nat := if kind = 0 then 256 * n else if kind = 1 then 512 * n else 0

/-- Residual positions of a stream, in order (R109). -/
def streamEntries (bs : List Byte) (n : Nat) : List (Nat × Int × Nat) :=
  residuals ((List.range n).map fun i => (leAt bs (2 * i) 1, leAt bs (2 * i + 1) 1)) 0 (-1)

/-- Positions strictly rising in row-major order. -/
def rising : List (Nat × Int × Nat) → Bool
  | a :: b :: t => decide (a.1 < b.1 ∨ a.1 = b.1 ∧ a.2.1 < b.2.1) && rising (b :: t)
  | _ => true

/-- A slot's Prompter part keeps R105, R107 and R110. -/
def SecSlot.prompterOk (x : SecSlot) (len : Nat) : Bool :=
  let o := fld x.desc 0 3
  let res := fld x.desc 30 12
  let chans := if o = 0 then (if allZero x.oset then some [] else none) else parseOset x.oset
  match chans with
  | none => false
  | some ch =>
    let rows := rowBytes x.kind ch.length
    let rw := blockWeights (x.kind == 1) (x.table.take rows)
    let es := streamEntries (x.table.drop rows) res
    decide (o ≤ 4) && fld x.desc 3 1 == 0 && fld x.desc 4 2 == x.kind && fld x.desc 6 24 == 0 && x.desc / 2 ^ 42 == 0 && decide (res ≤ 1952) &&
      decide (rows + 2 * res ≤ len) && weightsOk (x.kind == 1) rw && !(x.kind == 1 && res != 0) && decide (es.length ≤ 2621) && rising es &&
      es.all fun e => decide (e.1 < 512) && decide (0 ≤ e.2.1) && decide (e.2.1 < 512) && e.2.2 != 0 && e.2.2 != 0x7F && e.2.2 != 0xFF

/-- An outlier set's number stands for the same channels in every slot of the tile (R285). -/
def Dev.osetsAgree (d : Dev) (xs : List SecSlot) : Bool :=
  xs.all fun x =>
    let o := fld x.desc 0 3
    o == 0 || ((xs.all fun y => y.tile != x.tile || fld y.desc 0 3 != o || y.oset == x.oset) &&
      ((List.range 16).all fun s =>
        xs.any (fun y => y.tile == x.tile && y.slot == s) || (sget d.tile.kinds (16 * x.tile + s)).isNone || (d.slotDesc x.tile s).oset != o ||
          d.prRd x.tile (16 * (o - 1)) 16 == x.oset))

/-- Slots that the placement gives a layer on this device, as tile, slot and W8s. -/
def Dev.layerSlots (d : Dev) (sc : Script) (layer : Nat) : List (Nat × Nat × Bool) :=
  let c := d.coord
  (sc.placement.filter fun p => p.layer == layer && p.x == c.x.toNat && p.y == c.y.toNat).map fun p => (p.tile, p.slot, p.w8)

/-- Check a section (R284 to R286): its cause, or its slots. -/
def Dev.checkSection (d : Dev) (sc : Script) (e : SecEnt) (off : Nat) : Nat ⊕ List SecSlot :=
  if !stagingHolds off e.len then .inl 2
  else if d.stagedBad off e.len then .inl 7
  else
    let bs := d.staged off 0 e.len
    let n := leAt bs 8 4
    let vs := (List.range n).map fun i => leAt bs (64 + 8 * i) 8
    let blocks := (vs.map fun v => if fld v 20 2 = 1 then 262144 else 131072).sum
    let r := secDescs sc bs vs (64 + 8 * n) (64 + 8 * n + blocks)
    let fmtOk := leAt bs 0 4 == 0x57545331 && leAt bs 4 4 == e.layer && n == e.arrays && allZero (slice bs 12 52) && r.2.2 == e.len &&
      (vs.all fun v => fld v 13 3 == 0 && decide (fld v 20 2 ≤ 1) && v / 2 ^ 22 == 0 && !(fld v 20 2 == 1 && fld v 16 1 == 1)) &&
      ascending (vs.map fun v => 16 * fld v 0 13 + fld v 16 4)
    let assigned := d.layerSlots sc e.layer
    let given := vs.map fun v => (fld v 0 13, fld v 16 4, fld v 20 2 == 1)
    if !fmtOk then .inl 2
    else if shake256 bs != e.digest then .inl 5
    else if !r.2.1 || !given.all assigned.contains || !assigned.all given.contains || !d.osetsAgree r.1 ||
        !(r.1.all fun x => x.prompterOk (sc.area x.tile x.slot).2) then .inl 6
    else .inr r.1

/-! ## Processing a section (R286, R288, R290) -/

/-- Put bytes into a byte store. -/
def putBytes (m : Sparse Byte) (a : Nat) (bs : List Byte) : Sparse Byte := wrN m a bs

/-- The census copy of a slot: its weights, kind and Prompter regions, with the offsets the device gives (R107, R284). -/
def Tile.setCensus (t : Tile) (x : SecSlot) (area : Nat × Nat) : Tile :=
  let key := 16 * x.tile + x.slot
  let o := fld x.desc 0 3
  let n := if o = 0 then 0 else fld (leNat x.oset) 72 4
  let desc := x.desc + area.1 * 2 ^ 6 + (area.1 + rowBytes x.kind n) * 2 ^ 18
  let pr := putBytes t.censusPr (prompterKey x.tile (0x40 + 8 * x.slot)) (leBytes 8 desc)
  let pr := if o = 0 then pr else putBytes pr (prompterKey x.tile (16 * (o - 1))) x.oset
  { t with census := x.cells.foldl (fun m c => sput m (key * 2 ^ 18 + c.1) c.2) (sclear t.census (key * 2 ^ 18) ((key + 1) * 2 ^ 18)),
           kinds := sput t.kinds key x.kind, censusPr := putBytes pr (prompterKey x.tile area.1) x.table, censusBad := setDel t.censusBad key }

/-- The tile's Prompter store takes what the census holds of it. -/
def Dev.loadPrompter (d : Dev) (tile : Nat) : Dev :=
  let lo := prompterKey tile 0
  d.modMem fun m => { m with prompter :=
    (d.tile.censusPr.filter fun c => lo ≤ c.1 && c.1 < lo + 4096).foldl (fun p c => wr1 p c.1 c.2) (zeroRange m.prompter lo (lo + 4096)) }

/-! ## Head counts (R307 to R310) -/

/-- The level whose interval holds a reading, in 0.01 µS (R307). -/
def readLevelOf (q : Rat) : Nat := if q < 145 / 2 then 0 else if 1645 / 2 ≤ q then 7 else ((q - 10) / 125 + 1 / 2).floor.toNat

/-- A reference pair as programmed (R84): +6 and −6 in turn; level 0 in an array without them. -/
def refPair (refs : Bool) (k : Nat) : Byte := if refs then (if k % 2 = 0 then 6 else 48) else 0

/-- One cell read back: its conductance has moved by ρ ÷ ρ⁰ of its group since it was programmed and is read with an error of the free
value's run `n`; the reading times ρ⁰ ÷ ρ gives its level (R307; log 81). -/
def Dev.readCell (d : Dev) (n a cell level group : Nat) : Nat :=
  let ratio := ((d.arr a).grp group).ratio
  let reading : Rat := levelCenti level * ratio + Config.readError n (2 ^ 32 * a + cell)
  readLevelOf (if ratio = 0 then reading else reading / ratio)

/-- A pair of a logical row read back: a weight pair, or reference pair col − 512. -/
def Dev.readPair (d : Dev) (n a row col : Nat) : Byte :=
  let x := d.arr a
  let b := if col < 512 then (rd1 d.tile.cells (cellKey a (x.phys row) col)).toNat else (refPair x.refs (col - 512)).toNat
  let g := if col < 512 then col / 32 else col - 512
  let cell := 2 * (1024 * row + col)
  BitVec.ofNat 8 (d.readCell n a cell (b % 8) g + 8 * d.readCell n a (cell + 1) (b / 8 % 8) g)

/-- A pair as the census has it: the slot's weights, and reference pairs of R84. -/
def Dev.censusPair (d : Dev) (key row col : Nat) : Byte :=
  if col < 512 then rd1 d.tile.census (key * 2 ^ 18 + 512 * row + col) else refPair true (col - 512)

/-- Every pair of an array reads as the census of a slot has it (R288, R310). -/
def Dev.readsAs (d : Dev) (n a key : Nat) : Bool :=
  (List.range 512).all fun row => (List.range 528).all fun col => d.readPair n a row col == d.censusPair key row col

/-- The bytes of one slot for a digest (R308), from its pairs by row and column. -/
def slotBytes (tile slot kind : Nat) (pair : Nat → Nat → Byte) : List Byte :=
  leBytes 2 tile ++ [BitVec.ofNat 8 slot, BitVec.ofNat 8 kind] ++
    (List.range 512).flatMap fun row => (List.range 528).map fun col => pair row col

/-- Slots of a layer with their kinds, ascending. -/
def Dev.layerKeys (d : Dev) (layer : Nat) : List Nat :=
  d.tile.kinds.filterMap fun k => if d.slotLayer (k.1 / 16) (k.1 % 16) == some layer then some k.1 else none

/-- A layer's digest, read back from the arrays that hold its slots. -/
def Dev.layerDigest (d : Dev) (layer : Nat) : List Byte :=
  shake256 ((d.layerKeys layer).flatMap fun key =>
    match d.tile.holder (key / 16) (key % 16) with
    | some a => slotBytes (key / 16) (key % 16) (sgetD d.tile.kinds key 0) (d.readPair d.freeCtr a)
    | none => [])

/-- Expected value of a layer, from the manifest (R309). -/
def Dev.expected (d : Dev) (layer : Nat) : List Byte :=
  let m := if d.stUnder == .curtain && d.wts.rewriteSent then d.wts.next <|> d.wts.cur else d.wts.cur
  match m.bind fun m => m.secs.find? fun e => e.layer == layer with | some e => e.head | none => []

/-- A layer is digested and compared (R310): arrays that read otherwise than the census fail; when none does, CENSUS_BAD. -/
def Dev.headCount (d : Dev) (layer : Nat) : Dev :=
  let dig := d.layerDigest layer
  let exp := d.expected layer
  let n := d.freeCtr
  let d := d.useFree 1
  let d := d.modWts fun w => { w with hcBusy := none, hcLast := some layer, hcLayer := layer, hcDigest := dig, hcExpect := exp, hcDone := true,
                                      hcMismatch := w.hcMismatch || dig != exp }
  let d := d.event .headCount
  if dig = exp then d
  else
    let bad := (d.layerKeys layer).filterMap fun key =>
      match d.tile.holder (key / 16) (key % 16) with
      | some a => if d.readsAs n a key then none else some a
      | none => none
    if bad.isEmpty then
      let d := (d.modWts fun w => { w with hcCensusBad := true }).modTile fun t => { t with heldLayers := setIns t.heldLayers layer }
      d.raise { code := 0x0508, cls := 1, kind := 16 }
    else
      let d := d.modWts fun w => { w with hcFound := bumpBy w.hcFound bad.length }
      bad.foldl (fun d a => d.failPrincipal Config.headCountCode a [] none 0) d

/-- Layers of the placement on this device, ascending. -/
def Dev.ownLayers (d : Dev) : List Nat :=
  match d.scr.script with
  | some sc => (sc.placement.filter fun p => p.x == d.coord.x.toNat && p.y == d.coord.y.toNat).foldl (fun l p => setIns l p.layer) []
  | none => []

/-- Head counts run: not frozen, parked or under the curtain's drain. -/
def Dev.hcRuns (d : Dev) : Bool := d.up && !d.dbg.frozen && (d.sys.st == .ready || d.sys.st == .playing || d.sys.st == .curtain) && d.frm.draining.isNone

/-- The layer digested next: a named one, else the next after the last, in a ring (R309). -/
def Dev.hcPick (d : Dev) : Option Nat :=
  let ls := d.ownLayers
  match d.wts.hcNext with
  | some l => some l
  | none => match d.wts.hcLast with
    | some l => (ls.find? fun x => decide (l < x)) <|> ls.head?
    | none => ls.head?

/-- TILE_HC_START: the named layer is digested next. -/
def tileHcStart (layer : BitVec 10) (d : Dev) : Dev :=
  if !d.up then d
  else
    let d := d.modWts fun w => { w with hcSel := layer, hcNext := some layer.toNat }
    if d.hcRuns && d.wts.hcBusy.isNone && d.scr.script.isSome then
      d.modWts fun w => { w with hcBusy := some layer.toNat, hcNext := none }
    else d
def execTileHcStart (layer : BitVec 10) (s : State) : Host.Outcome State Fault Refusal := s.onDev (tileHcStart layer)

/-- HC_INTERVAL frames of the script's header have passed since the latest layer in turn started (R309). -/
def Dev.hcDue (d : Dev) : Bool :=
  match d.scr.script with
  | some sc => decide (d.wts.hcAt + sc.hdr.hcInterval ≤ d.tile.frames)
  | none => false

/-- HC_INTERVAL_EXPIRY: the next layer starts. -/
def hcIntervalExpiry (d : Dev) : Dev :=
  if d.hcRuns && d.frm.running && d.wts.hcBusy.isNone && d.hcDue then
    match d.hcPick with
    | some l => d.modWts fun w => { w with hcBusy := some l, hcNext := none, hcAt := d.tile.frames }
    | none => d
  else d
def execHcIntervalExpiry (s : State) : Host.Outcome State Fault Refusal := s.onDev hcIntervalExpiry

/-- HEAD_COUNT_DONE (R310); a named layer that waits starts. -/
def headCountDone (d : Dev) : Dev :=
  match d.wts.hcBusy with
  | none => d
  | some l =>
    if !d.hcRuns then d
    else
      let d := d.headCount l
      match d.wts.hcNext with
      | some n => d.modWts fun w => { w with hcBusy := some n, hcNext := none }
      | none => d
def execHeadCountDone (s : State) : Host.Outcome State Fault Refusal := s.onDev headCountDone

/-! ## Completion of a section -/

/-- Mark a section of a manifest. -/
def Manifest.mark (m : Manifest) (i : Nat) (done : Bool) (off : Nat) : Manifest :=
  { m with secs := m.secs.zipIdx.map fun e => if e.2 = i then { e.1 with done := done, off := off } else e.1 }

/-- Every section of CURRENT has completed: a new digest advances the epoch once (R289). -/
def Dev.epochCheck (d : Dev) : Dev :=
  match d.wts.cur with
  | some m =>
    if m.secs.all SecEnt.done && m.digest != d.wts.lastDigest then
      d.modWts fun w => { w with epoch := if w.epoch = 65535 then 1 else w.epoch + 1, lastDigest := m.digest }
    else d
  | none => d

/-- Have a slot programmed in place (R288, R295): its principal, in CENSUS mode only when it reads otherwise than the census; the
understudy of a suspended slot receives the weights instead (R301). False when neither can. -/
def Dev.loadSlot (d : Dev) (n tile slot : Nat) (always : Bool) : Dev × Bool :=
  match d.tile.holder tile slot with
  | none => (d.tileSuspect 0x020C tile slot, false)
  | some a =>
    let x := d.arr a
    if x.suspended || x.failed then
      match d.tile.understudy tile with
      | some u => (d.modArr u fun y => { y with role := 2, pstate := 0, job := some (.load slot), toMeasure := 0 }, true)
      | none => (d, false)
    else if always || x.incomplete || !x.refs || !d.readsAs n a (16 * tile + slot) then
      (d.modArr a fun x => { x with pstate := 0, job := some (.load slot) }, true)
    else (d, true)

/-- Write a checked section: census with the chains' scales (R138), Prompter stores, and the programming of its arrays. In PLAYING no
array is programmed (R290). Answers whether every slot can be programmed. -/
def Dev.writeSection (d : Dev) (sc : Script) (layer : Nat) (xs : List SecSlot) (program : Bool) : Dev × Bool :=
  let d := d.modTile fun t =>
    { xs.foldl (fun t x => t.setCensus x (sc.area x.tile x.slot)) t with
      heldLayers := setDel t.heldLayers layer, censusScales := sc.scales }
  let d := (xs.map SecSlot.tile).dedup.foldl Dev.loadPrompter d
  if d.sys.st = .playing then (d, true)
  else
    let n := d.freeCtr
    let r := xs.foldl (fun (a : Dev × Bool) x =>
      let p := a.1.loadSlot n x.tile x.slot program
      (p.1, a.2 && p.2)) (d.useFree 1, true)
    (r.1.resumePaused, r.2)

/-- Arrays of a layer that a section is still being written into. -/
def Dev.loading (d : Dev) (layer : Nat) : List Nat :=
  d.tile.arrs.filterMap fun e =>
    match e.2.job with
    | some (.load s) => if d.slotLayer (e.1 / 17) s == some layer then some e.1 else none
    | _ => none

/-- A layer waits for VDD_PROG: one of its arrays has no programming, and the latest sample was low (R293). -/
def Dev.loadStarved (d : Dev) (layer : Nat) : Bool :=
  d.tile.noVprog && (d.loading layer).any fun a => (d.arr a).pstate == 0

/-- The running command's section has no array left to program: it is digested (R309) and complete (R287, R288, R290). -/
def Dev.endJob (d : Dev) (j : WtJob) (layer : Nat) : Dev :=
  if d.loadStarved layer then (d.modTile Tile.dropLoads).wtErr 9
  else if !(d.loading layer).isEmpty then d
  else
    let d := d.headCount layer
    ((d.modWts fun w => { w with cur := w.cur.map fun m => m.mark j.index true j.off }).epochCheck).wtDone

/-- The running command: its section is checked and begun, or recorded for NEXT; once begun it ends with its last array (R286 to
R290). -/
def Dev.finishJob (d : Dev) (sc : Script) (j : WtJob) : Dev :=
  let m := if j.next then d.wts.next else d.wts.cur
  match m.bind fun m => m.secs[j.index]? with
  | none => d.wtErr 8
  | some e =>
    if j.begun then d.resumePaused.endJob j e.layer
    else match d.checkSection sc e j.off with
    | .inl c => d.wtErr c
    | .inr xs =>
      if j.next then
        let d := d.modWts fun w => { w with next := w.next.map fun m => m.mark j.index true j.off }
        (if d.stUnder == .curtain && d.wts.rewriteSent && d.wts.differs e then
          d.modWts fun w => { w with own := setIns w.own j.index, ownBegun := w.ownBegun.filter fun k => k != j.index } else d).wtDone
      else
        let d := d.modWts fun w => { w with job := some { j with begun := true } }
        let (d, ok) := d.writeSection sc e.layer xs j.program
        if d.wts.job.isNone then d
        else if !ok then d.wtFail 10
        else d.endJob j e.layer

/-- Mark a section that the device processes itself: of NEXT under the curtain, of CURRENT after a promotion. -/
def Dev.markOwn (d : Dev) (curtain : Bool) (i : Nat) (done : Bool) (off : Nat) : Dev :=
  d.modWts fun w => if curtain then { w with next := w.next.map fun m => m.mark i done off } else { w with cur := w.cur.map fun m => m.mark i done off }

/-- Begin a section of the device's own. Staged data that no longer passes its check leaves the section not loaded (R286);
uncorrectable data fails the curtain (R306). -/
def Dev.beginOwn (d : Dev) (sc : Script) (curtain : Bool) (i : Nat) (e : SecEnt) : Dev :=
  match d.checkSection sc e e.off with
  | .inl c =>
    let d := ((d.markOwn curtain i false e.off).modWts fun w =>
      { w with own := setDel w.own i, err := true, cause := if c = 7 then 7 else 5 }).event .weights
    if c = 7 && curtain then d.modWts fun w => { w with failed := true } else d
  | .inr xs =>
    let d := d.modWts fun w => { w with ownBegun := setIns w.ownBegun i }
    let (d, ok) := d.writeSection sc e.layer xs true
    if ok then d else d.wtFail 10

/-- The first section of the device's own has its last array written: it is digested and complete. -/
def Dev.endOwn (d : Dev) (curtain : Bool) (i : Nat) (e : SecEnt) : Dev :=
  let d := (d.headCount e.layer).modWts fun w => { w with own := setDel w.own i, ownBegun := setDel w.ownBegun i }
  if curtain then d else (d.markOwn false i true e.off).epochCheck

/-- The sections that the device processes itself (R289, R304 order 5): the first completes when its arrays are written; otherwise the
next one begins, and arrays of several are written at once. -/
def Dev.finishOwn (d : Dev) (sc : Script) : Dev :=
  let curtain := d.sys.st == .curtain
  let m := if curtain then d.wts.next else d.wts.cur
  let ent (i : Nat) : Option SecEnt := m.bind fun m => m.secs[i]?
  let d := d.resumePaused
  match d.wts.own with
  | [] => d
  | i :: _ =>
    match ent i with
    | none => d.modWts fun w => { w with own := setDel w.own i }
    | some e =>
      if d.wts.ownBegun.contains i && (d.loading e.layer).isEmpty then d.endOwn curtain i e
      else match d.wts.own.find? fun k => !d.wts.ownBegun.contains k with
        | some k => match ent k with
          | some u => d.beginOwn sc curtain k u
          | none => d.modWts fun w => { w with own := setDel w.own k }
        | none => d

/-- SECTION_LOAD_DONE: what the running command, else the device's own sections, can do next: a section whose check and census are
through begins its programming, one whose arrays are written completes. Programming pauses in FROZEN (R306). -/
def sectionLoadDone (d : Dev) : Dev :=
  if !d.up || d.dbg.frozen then d
  else match d.scr.script, d.wts.job with
    | some sc, some j => d.finishJob sc j
    | some sc, none => if (d.sys.st == .ready || d.sys.st == .curtain) && !d.wts.failed then d.finishOwn sc else d
    | none, _ => d
def execSectionLoadDone (s : State) : Host.Outcome State Fault Refusal := s.onDev sectionLoadDone

/-- Arrays that the curtain refreshes in place: due ones of tiles whose understudy is retired (R302). -/
def Dev.curtainDue (d : Dev) : List Nat :=
  d.tile.arrs.filterMap fun e =>
    let x := d.arr e.1
    let tile := e.1 / 17
    if x.role = 0 && x.due && x.job.isNone && !x.failed && (d.tile.understudy tile).isNone && d.censusUsable tile x.pslot then some e.1 else none

/-- In-place refreshes begin; their layers are to be digested (R302, R309). -/
def Dev.curtainRefresh (d : Dev) : Dev :=
  (d.curtainDue.foldl (fun d a =>
    let s := (d.arr a).pslot
    let d := d.modArr a fun x => { x with pstate := 0, job := some (.load s) }
    match d.slotLayer (a / 17) s with
    | some l => d.modWts fun w => { w with toCount := setIns w.toCount l }
    | none => d) d).resumePaused

/-- The layers of the in-place refreshes are digested. -/
def Dev.curtainCounts (d : Dev) : Dev :=
  d.wts.toCount.foldl Dev.headCount (d.modWts fun w => { w with toCount := [] })

/-- An array is still being written in place. -/
def Tile.loads (t : Tile) : Bool := t.arrs.any fun e => match e.2.job with | some (.load _) => true | _ => false

end Sys2Proof.Machine
end

