-- ==== Sys2Proof/Machine/Curtain.lean ====
section
/-! DEFINITION. The herd-wide sequences over the tick tree: curtain (R304 to R306), unload (R317), park and wake (R472, R473). -/
namespace Sys2Proof.Machine

/-! ## Asked for by the host -/

/-- CURTAIN_LOWER (R304): on the bellwether in PLAYING, named at the next boundary. -/
def curtainLower (t : Nat) (d : Dev) : Dev :=
  if d.up && d.bellwether && d.sys.st == .playing && d.frm.want.isNone && d.frm.drain.isNone && d.frm.draining.isNone then
    (d.at_ t).modFrm fun f => { f with want := some .curtain }
  else d
def execCurtainLower (t : Nat) (s : State) : Host.Outcome State Fault Refusal := s.onDev (curtainLower t)

/-- CURTAIN_ABANDON (R305): before REWRITE, on the bellwether; RAISE names the next frame (log 86). -/
def curtainAbandon (d : Dev) : Dev :=
  if !d.up || !d.bellwether || d.wts.rewriteSent then d
  else if d.frm.want = some .curtain then d.modFrm fun f => { f with want := none }
  else if d.wts.raiseAt.isNone && (d.frm.draining == some .curtain || (d.frm.drain.any fun x => x.1 == .curtain)) then
    let h : BitVec 16 := BitVec.ofNat 16 (d.frm.frame + 1)
    (d.modWts fun w => { w with raiseAt := some h.toNat }).sendDown (.raise h)
  else d
def execCurtainAbandon (s : State) : Host.Outcome State Fault Refusal := s.onDev curtainAbandon

/-- SCRIPT_UNLOAD (R317): at once in READY, herd-wide from the bellwether in PLAYING, ignored otherwise. -/
def scriptUnload (d : Dev) : Dev :=
  if !d.up || d.scr.script.isNone then d
  else if d.sys.st = .ready then (d.endFrames d.openLen).unloadScript.resumePaused
  else if d.sys.st = .playing && d.bellwether && d.frm.want.isNone && d.frm.drain.isNone && d.frm.draining.isNone then
    d.modFrm fun f => { f with want := some .unload }
  else d
def execScriptUnload (s : State) : Host.Outcome State Fault Refusal := s.onDev scriptUnload

/-! ## Named by the bellwether -/

/-- A unit of the tree that comes down from the parent. -/
def Dev.fromAbove (d : Dev) (link : Nat) : Bool := d.up && d.fromParent link && d.frm.running

/-- CURTAIN, UNLOAD and PARK: the frame from which the device drains. -/
def curtainUnit (link : Nat) (g : BitVec 16) (d : Dev) : Dev :=
  if !d.fromAbove link then d
  else ((d.modFrm fun f => { f with drain := some (.curtain, g.toNat) }).modWts fun w => { w with loweredAt := d.now }).sendDown (.curtain g)
def execCurtain (link : Fin 48) (g : BitVec 16) (s : State) : Host.Outcome State Fault Refusal := s.onDev (curtainUnit link.val g)

def unloadUnit (link : Nat) (g : BitVec 16) (d : Dev) : Dev :=
  if !d.fromAbove link then d else (d.modFrm fun f => { f with drain := some (.unload, g.toNat) }).sendDown (.unload g)
def execUnload (link : Fin 48) (g : BitVec 16) (s : State) : Host.Outcome State Fault Refusal := s.onDev (unloadUnit link.val g)

def parkUnit (link : Nat) (g : BitVec 16) (d : Dev) : Dev :=
  if !d.fromAbove link then d else (d.modFrm fun f => { f with drain := some (.park, g.toNat) }).sendDown (.park g)
def execPark (link : Fin 48) (g : BitVec 16) (s : State) : Host.Outcome State Fault Refusal := s.onDev (parkUnit link.val g)

/-- RAISE: the frame at whose start the curtain rises. -/
def raiseUnit (link : Nat) (h : BitVec 16) (d : Dev) : Dev :=
  if !d.fromAbove link then d else (d.modWts fun w => { w with raiseAt := some h.toNat }).sendDown (.raise h)
def execRaise (link : Fin 48) (h : BitVec 16) (s : State) : Host.Outcome State Fault Refusal := s.onDev (raiseUnit link.val h)

/-- STOP: the boundary at which frames stop. -/
def stopUnit (link : Nat) (f : BitVec 16) (d : Dev) : Dev :=
  if !d.fromAbove link then d else (d.modFrm fun x => { x with stopAt := some f.toNat }).sendDown (.stop f)
def execStop (link : Fin 48) (frame : BitVec 16) (s : State) : Host.Outcome State Fault Refusal := s.onDev (stopUnit link.val frame)

/-! ## DRAINED (R304 orders 3 and 4, R317, R472 order 3) -/

/-- DRAINED from a child is held. -/
def drainedUnit (link : Nat) (d : Dev) : Dev :=
  if d.up && d.fromChild link then d.modFrm fun f => { f with drainedHeld := setIns f.drainedHeld link } else d
def execDrained (link : Fin 48) (s : State) : Host.Outcome State Fault Refusal := s.onDev (drainedUnit link.val)

/-- Every child has sent a unit held in a list of links. -/
def Dev.allChildren (d : Dev) (ls : List Nat) : Bool := d.children.all fun c => ls.any fun l => linkDir l == linkDir c

/-- The drain is complete here: no step in flight, every child drained; before an unload or a park also no swap (R317, R472). -/
def Dev.drainedHere (d : Dev) (k : DrainKind) : Bool :=
  d.call.steps.isEmpty && d.allChildren d.frm.drainedHeld && (k == .curtain || (d.kv.swaps.isEmpty && d.kv.own.isEmpty))

/-- DRAINED_SEND: up the tree; the bellwether sends REWRITE for a curtain, otherwise STOP, which names the second boundary ahead
(log 54). -/
def drainedSend (d : Dev) : Dev :=
  match d.frm.draining with
  | none => d
  | some k =>
    if !d.up || d.frm.drainedSent || d.dbg.frozen || !d.drainedHere k then d
    else
      let d := d.modFrm fun f => { f with drainedSent := true }
      if !d.bellwether then d.sendUp .drained
      else match k with
        | .curtain =>
          if d.wts.raiseAt.isSome then d
          else ((d.modWts fun w => { w with rewriteSent := true }).sendDown .rewrite).startRewrite
        | _ =>
          let f := (d.frm.frame + 2) % 65536
          (d.modFrm fun x => { x with stopAt := some f }).sendDown (.stop (BitVec.ofNat 16 f))
def execDrainedSend (s : State) : Host.Outcome State Fault Refusal := s.onDev drainedSend

/-! ## REWRITE and CURTAIN_READY (R304 orders 5 to 7, R306) -/

/-- REWRITE: sent on; the device rewrites, or awaits a manifest. -/
def rewrite (link : Nat) (d : Dev) : Dev :=
  if d.fromAbove link && d.frm.draining == some .curtain then
    ((d.modWts fun w => { w with rewriteSent := true }).sendDown .rewrite).startRewrite
  else d
def execRewrite (link : Fin 48) (s : State) : Host.Outcome State Fault Refusal := s.onDev (rewrite link.val)

/-- CURTAIN_READY from a child; with a failure the bellwether's PHASE is FAILED. -/
def curtainReady (link : Nat) (failure : Bool) (c : Coord) (d : Dev) : Dev :=
  if !d.up || !d.fromChild link then d
  else
    let d := d.modWts fun w => { w with ready := w.ready.filter (fun r => linkDir r.1 != linkDir link) ++ [(link, failure, c.x.toNat, c.y.toNat)] }
    if failure && d.bellwether then d.modWts fun w => { w with phase := 5, failX := c.x.toNat, failY := c.y.toNat } else d
def execCurtainReady (link : Fin 48) (failure : Bool) (failedAt : Coord) (s : State) : Host.Outcome State Fault Refusal :=
  s.onDev (curtainReady link.val failure failedAt)

/-- CURTAIN_READY_SEND: after the last section, the in-place refreshes, which begin here and whose layers are digested (R302, R309), and
every child; a device that cannot complete a section says so at once. -/
def curtainReadySend (d : Dev) : Dev :=
  let w := d.wts
  if !d.up || w.readySent || !w.rewriteSent || d.dbg.frozen then d
  else if w.failed || d.sys.st == .struck then
    let d := d.modWts fun w => { w with readySent := true }
    if d.bellwether then d.modWts fun w => { w with phase := 5, failX := d.coord.x.toNat, failY := d.coord.y.toNat }
    else d.sendUp (.curtainReady true d.coord)
  else if w.phase = 3 && w.own.isEmpty && w.job.isNone && (w.toRewrite false).isEmpty && d.allChildren (w.ready.map Prod.fst) then
    if !d.curtainDue.isEmpty then d.curtainRefresh
    else if d.tile.loads then d.resumePaused
    else
      let d := d.curtainCounts
      match w.ready.find? fun r => r.2.1 with
      | some r =>
        let d := d.modWts fun w => { w with readySent := true }
        if d.bellwether then d else d.sendUp (.curtainReady true ⟨BitVec.ofNat 4 r.2.2.1, BitVec.ofNat 4 r.2.2.2⟩)
      | none =>
        let d := d.modWts fun w => { w with readySent := true, phase := 4 }
        if d.bellwether then d else d.sendUp (.curtainReady false ⟨0, 0⟩)
  else d
def execCurtainReadySend (s : State) : Host.Outcome State Fault Refusal := s.onDev curtainReadySend

/-! ## Park and wake (R472, R473) -/

/-- GEN_PARK: READY parks this device; on the bellwether in PLAYING the herd parks. -/
def genPark (d : Dev) : Dev :=
  if !d.up then d
  else if d.sys.st = .ready then d.enterParked false
  else if d.sys.st = .playing && d.bellwether && d.frm.want.isNone && d.frm.drain.isNone && d.frm.draining.isNone then
    d.modFrm fun f => { f with want := some .park }
  else d
def execGenPark (s : State) : Host.Outcome State Fault Refusal := s.onDev genPark

/-- GEN_WAKE. -/
def genWake (d : Dev) : Dev := if d.up then d.wakeEvent else d
def execGenWake (s : State) : Host.Outcome State Fault Refusal := s.onDev genWake

/-- WAKE: up from a child, or down from the bellwether (R472). -/
def wake (link : Nat) (origin : Coord) (d : Dev) : Dev :=
  if !d.up then d
  else if d.sys.st != .parked then
    (if d.fromChild link && d.sys.st == .playing && (d.frm.draining == some .park || (d.frm.drain.any fun x => x.1 == .park)) then
      d.modSys fun s => { s with wakeWanted := true } else d)
  else if !d.sys.parkScope || d.sys.parkPhase != .parked then d
  else if d.fromParent link then (d.sendDown (.wake origin)).leavePower
  else if d.fromChild link then (if d.bellwether then (d.sendDown (.wake origin)).leavePower else d.sendUp (.wake origin))
  else d
def execWake (link : Fin 48) (origin : Coord) (s : State) : Host.Outcome State Fault Refusal := s.onDev (wake link.val origin)

/-- AWAKE from a child is held. -/
def awake (link : Nat) (d : Dev) : Dev :=
  if d.up && d.fromChild link && d.sys.st == .parked then d.modSys fun s => { s with awakeHeld := setIns s.awakeHeld link } else d
def execAwake (link : Fin 48) (s : State) : Host.Outcome State Fault Refusal := s.onDev (awake link.val)

/-- AWAKE_SEND: the device is ready and holds every child's AWAKE. -/
def awakeSend (d : Dev) : Dev :=
  if d.up && d.sys.st == .parked && d.sys.parkPhase == .waking && !d.sys.awakeSent && d.allChildren d.sys.awakeHeld then
    let d := d.modSys fun s => { s with awakeSent := true }
    if d.bellwether then d else d.sendUp .awake
  else d
def execAwakeSend (s : State) : Host.Outcome State Fault Refusal := s.onDev awakeSend

/-! ## Freeze units (R375, R468) -/

def execFreeze (link : Fin 48) (u : FloodInfo) (t : Nat) (s : State) : Host.Outcome State Fault Refusal :=
  s.onDev fun d => if d.coreRuns && (d.link link.val).working then d.remoteFreeze u t else d
def execThaw (link : Fin 48) (u : FloodInfo) (t : Nat) (s : State) : Host.Outcome State Fault Refusal :=
  s.onDev fun d => if d.coreRuns && (d.link link.val).working then d.remoteThaw u t else d

/-- CONTROL_UNIT_RESERVED (R360): ignored and counted. -/
def reservedUnit (link : Nat) (d : Dev) : Dev := if d.coreRuns then d.meshCount link 10 else d
def execControlUnitReserved (link : Fin 48) (_type : Byte) (s : State) : Host.Outcome State Fault Refusal := s.onDev (reservedUnit link.val)

end Sys2Proof.Machine
end

