-- ==== Sys2Proof/Machine/Ethernet.lean ====
section
/-! DEFINITION. The management Ethernet port (R378, R379): link changes, telemetry, and the answers to ICMPv6 neighbour solicitations
and echo requests, in the public standards' formats (log 62). -/
namespace Sys2Proof.Machine

/-- ETH_LINK_CHANGE (R378, R380): code 3 is reserved; a port that is not enabled stays down. -/
def ethLinkChange (speed : BitVec 2) (d : Dev) : Dev :=
  if d.coreRuns && speed != 3 && (d.mesh.ethEn || speed == 0) then d.modMesh fun m => { m with ethSpeed := speed } else d
def execEthLinkChange (speed : BitVec 2) (s : State) : Host.Outcome State Fault Refusal := s.onDev (ethLinkChange speed)

/-- TELEMETRY_SEND (R379): the datagram's contents are not given (log 62). -/
def telemetrySend (d : Dev) : Dev := if d.ethMaySend then (d.useFree 1).ethSend (Config.telemetry d.freeCtr) else d
def execTelemetrySend (s : State) : Host.Outcome State Fault Refusal := s.onDev telemetrySend

/-! ## Answers -/

/-- A big-endian number. -/
def beNat (bs : List Byte) : Nat := leNat bs.reverse
def beBytes (n v : Nat) : List Byte := (leBytes n v).reverse

/-- The port's MAC address and its link-local IPv6 address. -/
def macOf : List Byte := (List.range 6).map Config.macAddress
def linkLocal : List Byte :=
  let m := macOf
  [0xFE, 0x80, 0, 0, 0, 0, 0, 0, m.getD 0 0 ^^^ 2, m.getD 1 0, m.getD 2 0, 0xFF, 0xFE, m.getD 3 0, m.getD 4 0, m.getD 5 0]

/-- One's complement sum of 16-bit words, carries folded in. -/
def onesSum (bs : List Byte) : Nat :=
  let n := ((List.range ((bs.length + 1) / 2)).map fun i => 256 * (bs.getD (2 * i) 0).toNat + (bs.getD (2 * i + 1) 0).toNat).sum
  let n := n % 65536 + n / 65536
  n % 65536 + n / 65536

/-- ICMPv6 checksum with its pseudo-header; 0xFFFF over a message that carries its checksum. -/
def icmpSum (src dst icmp : List Byte) : Nat := onesSum (src ++ dst ++ beBytes 4 icmp.length ++ [0, 0, 0, 58] ++ icmp)

/-- A message with its checksum in bytes 2 and 3. -/
def icmpSeal (src dst icmp : List Byte) : List Byte :=
  let c := 65535 - icmpSum src dst icmp
  icmp.take 2 ++ beBytes 2 c ++ icmp.drop 4

/-- An IPv6 packet in a frame with the configured tag. -/
def icmpFrame (vlan : Nat) (toMac dst icmp : List Byte) : List Byte :=
  let tag := if vlan = 0 then [] else [0x81, 0x00] ++ beBytes 2 vlan
  toMac ++ macOf ++ tag ++ [0x86, 0xDD, 0x60, 0, 0, 0] ++ beBytes 2 icmp.length ++ [58, 255] ++ linkLocal ++ dst ++ icmpSeal linkLocal dst icmp

/-- The answer to a frame, none when it is dropped. -/
def icmpAnswer (vlan : Nat) (frame : List Byte) : Option (List Byte) :=
  let off := if vlan = 0 then 12 else 16
  let tagOk := vlan = 0 || (slice frame 12 2 == [0x81, 0x00] && beNat (slice frame 14 2) % 4096 == vlan)
  let ip := frame.drop (off + 2)
  let src := slice ip 8 16
  let dst := slice ip 24 16
  let n := beNat (slice ip 4 2)
  let icmp := slice ip 40 n
  if 9216 < frame.length || !tagOk || slice frame off 2 != [0x86, 0xDD] || (ip.getD 0 0).toNat / 16 != 6 || ip.getD 6 0 != 58 || icmp.length != n ||
      n < 8 || icmpSum src dst icmp != 65535 then none
  else if icmp.getD 0 0 = 128 && icmp.getD 1 0 = 0 && dst == linkLocal then
    some (icmpFrame vlan (slice frame 6 6) src ([129, 0, 0, 0] ++ icmp.drop 4))
  else if icmp.getD 0 0 = 135 && icmp.getD 1 0 = 0 && ip.getD 7 0 == 255 && 24 ≤ n && slice icmp 8 16 == linkLocal then
    some (icmpFrame vlan (slice frame 6 6) src ([136, 0, 0, 0, 0x60, 0, 0, 0] ++ linkLocal ++ [2, 1] ++ macOf))
  else none

/-- ETH_FRAME_RECEIVE (R379). -/
def ethFrameReceive (frame : List Byte) (d : Dev) : Dev :=
  match icmpAnswer d.mesh.ethVlan.toNat frame with
  | some r => d.ethSend r
  | none => d
def execEthFrameReceive (frame : List Byte) (s : State) : Host.Outcome State Fault Refusal := s.onDev (ethFrameReceive frame)

end Sys2Proof.Machine
end

