-- ==== Sys2Proof/Machine/Repeats.lean ====
section
/-! DEFINITION. Flock windows: repeats with their merges and inserted slots (R53, R54, R121 to R124), and rehearsal probes
(R352 to R355). -/
namespace Sys2Proof.Machine

/-! ## Repeats -/

/-- Tile-phases of a request (R124). -/
def RepReq.cost (r : RepReq) : Nat := if r.format then 2 else r.phases.length

/-- The result to be repeated has landed by a slot (R54, R74). A repeat's own request carries its window's slot plus 65,536,
after every request of an evaluation, and may be served in that window (log 28). -/
def RepReq.landed (r : RepReq) (slot : Nat) : Bool :=
  if 65536 ≤ r.slot then decide (r.slot ≤ slot + 65536) else decide (r.slot + r.phases.length + 1 ≤ slot)

/-- The lane still holds the request's step. -/
def Dev.reqLive (d : Dev) (r : RepReq) : Bool :=
  match d.lane r.lane with
  | some t => t.step == r.tok.step && t.pos == r.tok.pos
  | none => false

/-- The remainder of an AN4 block (R121): element i is x − code × 2^e4. -/
def remainder (es : List FpVal) (codes : List (Int × Bool)) (e4 : Int) : List FpVal :=
  (es.zip codes).map fun p =>
    match p.1 with
    | .fin neg q =>
      let x := (if neg then -q else q) - p.2.1 * (2 : Rat) ^ e4
      .fin (decide (x < 0)) |x|
    | v => v

/-- Sum of contributions in a set of their own (R123). -/
def freshSet (chain : Nat) (exp : Int) (vs : List (List Int)) : Option AccSet :=
  vs.foldl (fun s v => some (AccSet.add s ⟨0, 0, 0, chain, exp, v, []⟩)) none

/-- A format repeat (R121): the remainder block, and what it adds. -/
def Dev.runFormat (d : Dev) (r : RepReq) (a : Nat) : Dev × Option AccSet × Block × List Phase × EvalIn :=
  let b := r.block
  let es := vecElems b.srcFmt (d.blockSrc b)
  let chans := d.outliers r.tile b.oset
  let draw (dom : Nat) : Option (Nat → Nat) := if b.stoch then some (d.reqDraw r.tok dom b.qpoint) else none
  let rem := remainder es (quantise es .an4 b.exp chans (draw 1)) b.exp
  let e := vecExp (maxMag rem chans) .aw8 (qBase (d.qEntry b.qpoint))
  let codes := quantise rem .aw8 e chans (draw 2)
  let (bn, bz, bs) := blockCounts rem codes chans
  let rows := codeRows .aw8 chans (codes.map Prod.fst)
  let (xs, phases) := rowCodes .aw8 rows.1 rows.2 chans
  let nb : Block := { b with fmt := .aw8, n := bn, z := bz, s := bs, exp := e }
  let i : EvalIn := ⟨r.tile, r.pslot, r.chain, e, r.range, .aw8, xs, phases⟩
  let q := d.qEntry b.qpoint
  let d := d.precCount r.tile 0
  let d := if bn = 0 then d.precCount r.tile 1 else d
  let d := if nb.zTrouble q then d.precCount r.tile 2 else d
  let d := if nb.sTrouble q then d.precCount r.tile 3 else d
  if xs.all fun x => x == 0 then (d, none, nb, [], i)
  else
    let kind := (d.slotDesc r.tile r.pslot).kind
    let (d, ps) := d.convert a r.range phases
    let vs := ps.zipIdx.map fun p => phaseVals p.1 r.range (phaseMul kind .aw8 p.2)
    let pr := match d.prompter r.tile r.pslot xs with | some v => [v] | none => []
    (d, freshSet r.chain e (vs ++ pr), nb, ps, i)

/-- A range repeat (R122): v_new − v_clip on the columns of the clip mask. The mask is taken phase by phase: an AW8 column that was clipped
in one phase is corrected for that phase alone (DESIGN CHOICE, log 116). -/
def Dev.runRange (d : Dev) (r : RepReq) (a : Nat) : Dev × Option AccSet × Block × List Phase × EvalIn :=
  let kind := (d.slotDesc r.tile r.pslot).kind
  let (d, ps) := d.convert a r.range r.phases
  let vs := ps.zipIdx.map fun p =>
    let clips := r.clips.getD p.2 []
    let m := phaseMul kind r.block.fmt p.2
    (List.range 512).map fun j =>
      match clips.find? fun c => c.1 == j with
      | some c =>
        let g := p.1.gains.getD (j / 32) 0
        colValue (p.1.conv.getD j 0) r.range g m - colValue c.2 (r.range + 1) g m
      | none => 0
  (d, freshSet r.chain r.exp vs, r.block, ps, ⟨r.tile, r.pslot, r.chain, r.exp, r.range, r.block.fmt, [], r.phases⟩)

/-- One merged column (R123): y + Δy, Δy exact, rounded once to nearest in the output's format. -/
def mergeCol (f : Fmt) (y : Nat) (s : Rat) (a e : Int) (ovf : Bool) : Nat :=
  let v : Rat := match fpDec f y with
    | .fin true q => -q
    | .fin false q => q
    | _ => 0
  let dy := s * a * (2 : Rat) ^ (e - 3)
  let dy := if ovf && dy != 0 then (if dy < 0 then -f.max else f.max) else dy
  let t := v + dy
  let r := fpSat f (decide (t < 0)) |t|
  if fpDec f r = .fin true 0 then 0 else r

/-- Read and rewrite an output in place, under the merge's cue number (R333). -/
def Dev.mergeOut (d : Dev) (r : RepReq) (o : OutLoc) (s : AccSet) (slot : Nat) : Dev :=
  let n := vecBytes o.fmt
  let old := if o.apron then rdN d.mem.apron (o.addr * 512) n else rdN d.mem.wings o.addr n
  let w := if o.fmt = .bf16 then 2 else 1
  let sc := d.chainScales r.chain
  let cols := (List.range 512).map fun j =>
    mergeCol (outFmtF o.fmt) (leAt old (w * j) w) (sc.getD j 0) (s.vals.getD j 0) s.exp (s.ovf.contains j)
  let bs := colBytes o.fmt cols
  let d := d.modTile fun t => { t with exact := t.exact.captureOut r.chain r.lane o.fmt none bs }
  d.vecWr r.tok ⟨o.apron, o.addr⟩ o.fmt bs slot 0xFFFF01

/-- Serve one request in a slot: evaluate, merge, flag REPEATED, and climb the ladder (R120, R123). A repeat's phases go to an ARRAY job as
the evaluation's did (R140). On a tile that is not cued the step is discarded (R114). -/
def Dev.serve (d : Dev) (r : RepReq) (slot : Nat) (inserted : Bool) : Dev :=
  match d.tile.holder r.tile r.pslot with
  | none => d.unserved r
  | some a =>
    if d.tile.prBad.contains r.tile then d.discardTok r.tok.step 1
    else if (d.arr a).suspended then d.unserved r
    else
      let (d, s, b, ps, i) := if r.format then d.runFormat r a else d.runRange r a
      let d := match s, sget d.tile.outs (4096 * r.chain + r.lane) with
        | some s, some o => d.mergeOut r o s slot
        | _, _ => d
      let d := (d.precCount r.tile (if inserted then 8 else 7)).precFlag r.tok 0
      let d := if b.n = 0 then d else d.capture a (16 * r.tile + r.pslot) r.range ps
      d.evalTrouble r.tok i b ps (slot + r.cost + 1 + 65536) r.lane (!r.format)

/-- Take the next landed request of a flock. -/
def Dev.nextReq (d : Dev) (flock slot : Nat) : Option RepReq := (sgetD d.tile.queue flock []).find? fun r => r.landed slot

def Dev.dropReq (d : Dev) (flock : Nat) (r : RepReq) : Dev :=
  d.modTile fun t => { t with queue := sput t.queue flock ((sgetD t.queue flock []).erase r) }

/-- The cue sheet has a tile evaluate in a slot (R331, R336). -/
def Dev.sheetEval (d : Dev) (tile slot : Nat) : Bool :=
  match d.scr.script with
  | some sc =>
    match sc.templates[d.template]? with
    | some t => t.cues.any fun w =>
        fld w 0 8 == 1 && fld w 36 13 == tile && (fld w 8 16 == slot || (bit w 63 && fld w 8 16 + 1 == slot))
    | none => false
  | none => false

/-- Tile-phases that a window has given out so far, by slot. -/
abbrev WinUse := Sparse Nat

/-- A tile may drive its rows for a window's work in n slots: the window has tile-phases left there, and the tile evaluates for nothing else
(R17, R54, R97). -/
def Dev.winFree (d : Dev) (use : WinUse) (tiles tile slot n : Nat) : Bool :=
  (List.range n).all fun i => decide (sgetD use (slot + i) 0 < tiles) && !d.sheetEval tile (slot + i) && d.tile.idleIn tile (slot + i) 1

/-- The first slot of a window, from `lo` to below `hi`, in which a request fits. -/
def Dev.winPlace (d : Dev) (use : WinUse) (tiles lo hi : Nat) (r : RepReq) : Option Nat :=
  let from_ := if 65536 ≤ r.slot then max lo (r.slot - 65536) else lo
  ((List.range (hi - from_)).map (from_ + ·)).find? fun s => decide (s + r.cost ≤ hi) && d.winFree use tiles r.tile s r.cost

/-- Serve a window's requests in order, each in its first free slots; lead requests that do not fit are served in inserted slots, and
answered with their tiles and costs, others are unserved. A request that a repeat raises in the window is served after those that wait
(DEDUCED, log 28). -/
def Dev.serveAll (flock tiles lo hi : Nat) : Nat → WinUse → List (Nat × Nat) → Dev → Dev × List (Nat × Nat)
  | 0, _, ins, d => (d, ins)
  | fuel + 1, use, ins, d =>
    match d.nextReq flock lo with
    | none => (d, ins)
    | some r =>
      let d := d.dropReq flock r
      if !d.reqLive r then Dev.serveAll flock tiles lo hi fuel use ins d
      else match d.winPlace use tiles lo hi r with
        | some s =>
          let use := (List.range r.cost).foldl (fun u i => smod u (s + i) 0 (· + 1)) use
          Dev.serveAll flock tiles lo hi fuel use ins ((d.drives r.tile s r.cost).serve r s false)
        | none =>
          if r.tok.cls = 0 then Dev.serveAll flock tiles lo hi fuel use (ins ++ [(r.tile, r.cost)]) (d.serve r hi true)
          else Dev.serveAll flock tiles lo hi fuel use ins (d.unserved r)

/-- One flock's share of an inserted slot (R54): requests in order, each on a tile that is free there, up to `room`. Answers the requests
taken and those that wait. -/
def insTake (room : Nat) (busy : List Nat) : List (Nat × Nat) → List (Nat × Nat) × List (Nat × Nat)
  | [] => ([], [])
  | r :: t =>
    if 0 < room && !busy.contains r.1 then
      let z := insTake (room - 1) (r.1 :: busy) t
      (r :: z.1, z.2)
    else
      let z := insTake room busy t
      (z.1, r :: z.2)

/-- One inserted slot: flocks in ascending order take tiles up to the tile limit; a repeat of two tile-phases holds its tile in the next
inserted slot too. -/
def insSlot (limit : Nat) (ws : List (InsWin × List Nat)) : List (InsWin × List Nat) :=
  (ws.foldl (fun (a : List (InsWin × List Nat) × Nat) w =>
    let room := min (w.1.tiles - w.2.length) (limit - a.2 - w.2.length)
    let z := insTake room w.2 w.1.reqs
    (a.1 ++ [({ w.1 with reqs := z.2 }, (z.1.filter fun r => r.2 == 2).map Prod.fst)], a.2 + w.2.length + z.1.length)) ([], 0)).1

/-- Slots inserted until every flock's requests are served (R54). -/
def insCount (limit : Nat) : Nat → List (InsWin × List Nat) → Nat
  | 0, _ => 0
  | fuel + 1, ws => if ws.all fun w => w.1.reqs.isEmpty && w.2.isEmpty then 0 else 1 + insCount limit fuel (insSlot limit ws)

/-- Tile limit of the grade (R45), and flock limit (R97). -/
def tileLimit : Nat := if Config.gradeE then 1536 else 2048
def flockLimit : Nat := if Config.gradeE then 48 else 64

/-- Slots that the windows ending in one slot insert. -/
def insSlots (ws : List InsWin) : Nat :=
  insCount tileLimit (2 * (ws.map fun w => w.reqs.length).sum + 2) (ws.map fun w => (w, []))

/-- Windows in ascending flock order. -/
def insWin (l : List InsWin) (w : InsWin) : List InsWin :=
  match l with
  | [] => [w]
  | x :: t => if w.flock < x.flock then w :: x :: t else x :: insWin t w

/-- REPEAT_WIN (R54, R338). Inserted slots move the frame's remaining cues (R54). -/
def repeatWin (c : WinCue) (d : Dev) : Dev :=
  if !d.cues then d
  else
    let slot := c.slot.toNat
    let f := c.flock.toNat
    let endSlot := slot + c.slots.toNat
    let tiles := min c.tiles.toNat flockLimit
    let d := d.advance slot
    let q := (sgetD d.tile.queue f []).length
    let (d, ins) := Dev.serveAll f tiles slot endSlot (8 * q + 8) [] [] d
    let d := (sgetD d.tile.queue f []).foldl (fun d r => if r.landed slot && d.reqLive r then (d.dropReq f r).unserved r else d) d
    if ins.isEmpty then d
    else
      let old := match d.tile.ins with | some (e, u) => if e = endSlot then u else [] | none => []
      let now := insWin old ⟨f, tiles, ins⟩
      let extra := insSlots now - insSlots old
      (d.modTile fun t => { t with ins := some (endSlot, now) }).modFrm fun fr =>
        { fr with causes := fr.causes ||| 8, stallSlots := bumpBy fr.stallSlots extra, stallShift := fr.stallShift + extra,
                  stalledFor := setIns fr.stalledFor 3 }

def execRepeatWin (c : WinCue) (s : State) : Host.Outcome State Fault Refusal := s.onCue c.wf (repeatWin c)

/-! ## Probes (R352 to R355) -/

/-- Input code of a pattern on a logical row (R352). -/
def probeCode (b i : Nat) : Int := if b = 0 || bit i (b - 1) then 15 else -15

/-- P_bj from the census weights of the slot an array holds (R353). -/
def Dev.probeSums (d : Dev) (key b : Nat) : List Int :=
  colSums (d.tile.census.filterMap fun c =>
    if c.1 / 2 ^ 18 = key then some (c.1 / 512 % 512, c.1 % 512, pairWeight c.2) else none)
    ((List.range 512).map fun i => if b = 0 || bit i (b - 1) then 1 else -1)

/-- Run a probe: each unclipped column's ŷ − 15 × P (R91, R353). -/
def Dev.probeRun (d : Dev) (a b : Nat) : Dev × List (Nat × Rat) :=
  let key := 16 * (a / 17) + (d.arr a).pslot
  let (d, p) := d.phase a 0 ((List.range 512).map (probeCode b))
  let ps := d.probeSums key b
  (d, (List.range 512).filterMap fun j =>
    let c := p.conv.getD j 0
    if isClip c then none
    else some (j, (c : Rat) * rangeQ 0 * p.gains.getD (j / 32) 0 / 262144 - 15 * ps.getD j 0))

/-- Columns a probe flags (R353). -/
def Dev.flags (d : Dev) (a : Nat) (r : List (Nat × Rat)) : List (Nat × Rat) :=
  r.filter fun x => 8 * d.rmsBound a 0 < |x.2| / rangeFs 0

/-- An array that a probe may judge. -/
def Dev.probed (d : Dev) (a : Nat) : Bool := let x := d.arr a; x.role == 0 && !x.stale && !x.overdue && !x.failed && x.refs

/-- The outcome of a localised fault (R355): a row, a column, or a tile's converter. -/
def Dev.probeVerdict (d : Dev) (p : Probe) : Dev :=
  let cols := p.flagged.map Prod.fst
  let x := d.arr p.arr
  let tile := p.arr / 17
  let rs := (cols.map fun j => ((p.rows.find? fun r => r.1 == j).map Prod.snd).getD 0).dedup
  match p.notRow, rs with
  | false, [r] => d.failPrincipal 0x0204 p.arr cols (some r) 9
  | _, _ =>
    let old := sgetD d.tile.colFaults tile []
    let again := cols.any fun j => old.contains (512 * x.pslot + j)
    let d := d.modTile fun t => { t with colFaults := sput t.colFaults tile (cols.foldl (fun l j => setIns l (512 * x.pslot + j)) old) }
    let d := d.failPrincipal 0x0206 p.arr cols none 9
    if again then d.tileSuspect 0x0207 tile x.pslot else d

/-- One tile-phase on a probe in hand (R355): the confirmation, then patterns 1 to 9. -/
def Dev.probeStep (d : Dev) (p : Probe) : Dev :=
  let set (d : Dev) (q : Option Probe) : Dev := d.modTile fun t =>
    { t with probes := t.probes.filterMap fun x => if x.arr == p.arr then q else some x }
  let (d, r) := d.probeRun p.arr p.next
  if p.next = 0 then
    let again := (d.flags p.arr r).map Prod.fst
    let both := p.flagged.filter fun c => again.contains c.1
    if both.isEmpty then
      let d := set d none
      let d := d.arrayError 0x0205 0 p.arr (p.flagged.map Prod.fst) none 0 false (d.histNext 10 p.arr 16 64).verdict
      let (d, perm) := d.histEvent 10 p.arr 16 64
      if perm then d.failPrincipal 0x0203 p.arr (p.flagged.map Prod.fst) none 0 else d
    else set d (some { p with flagged := both, next := 1 })
  else
    let step (q : Probe) (c : Nat × Rat) : Probe :=
      let db := ((r.find? fun x => x.1 == c.1).map Prod.snd).getD 0
      let sgn (v : Rat) : Int := if v < 0 then -1 else if v = 0 then 0 else 1
      let bits := ((q.rows.find? fun x => x.1 == c.1).map Prod.snd).getD 0
      let bits := if sgn db = sgn c.2 then bits + 2 ^ (p.next - 1) else bits
      { q with notRow := q.notRow || decide (|db| < |c.2| / 2), rows := (c.1, bits) :: q.rows.filter fun x => x.1 != c.1 }
    let q : Probe := { p.flagged.foldl step p with next := p.next + 1 }
    if q.next ≤ 9 then set d (some q) else (set d none).probeVerdict q

/-- The next principal array of a flock's rotation, in ascending order of tile and array (R354), whose tile may drive its rows; one whose
tile may not is passed over (DESIGN CHOICE, log 117). -/
def Dev.rotation (d : Dev) (f : Nat) (free : Nat → Bool) : Option Nat :=
  let at_ := sgetD d.tile.rot f 0 % 2176
  ((List.range 2176).map fun i => 2176 * f + (at_ + i) % 2176).find? fun a => (d.arr a).role == 0 && free a

/-- A pattern-0 probe of the rotation: a tracking evaluation of the array (R87, R352); flagged columns are to be confirmed (R355). -/
def Dev.probeNext (d : Dev) (a : Nat) : Dev :=
  let (d, r) := d.probeRun a 0
  if !d.probed a then d
  else
    let fl := d.flags a r
    if fl.isEmpty then d.modArr a fun x => { x with provedAt := d.tile.frames }
    else d.modTile fun t => { t with probes := t.probes ++ [{ arr := a, flagged := fl }] }

/-- One tile-phase of a flock's rehearsal work in a slot (R354): measurements, probes in hand, then the rotation, each on a tile that may
drive its rows there and is cued (R17, R114). -/
def Dev.rehearse (d : Dev) (f slot : Nat) : Dev :=
  let free (a : Nat) : Bool := !d.sheetEval (a / 17) slot && d.tile.idleIn (a / 17) slot 1 && !d.tile.prBad.contains (a / 17)
  let mine (a : Nat) : Bool := a / 17 / 128 == f && free a
  let drive (d : Dev) (a : Nat) : Dev := d.drives (a / 17) slot 1
  match d.tile.arrs.find? fun a => mine a.1 && a.2.pstate == 3 && a.2.toMeasure != 0 with
  | some (a, _) =>
    let d := (drive d a).measureOne a
    if (d.arr a).toMeasure = 0 then d.modArr a Arr.measured else d
  | none =>
    match d.tile.probes.find? fun p => mine p.arr with
    | some p => (drive d p.arr).probeStep p
    | none =>
      match d.rotation f free with
      | none => d
      | some a => ((drive d a).modTile fun t => { t with rot := sput t.rot f (a % 2176 + 1) }).probeNext a

/-- REHEARSE_WIN (R354). -/
def rehearseWin (c : WinCue) (d : Dev) : Dev :=
  if !d.cues then d
  else
    let tiles := min c.tiles.toNat flockLimit
    (List.range c.slots.toNat).foldl (fun d s =>
      (List.range tiles).foldl (fun d _ => d.rehearse c.flock.toNat (c.slot.toNat + s)) d) (d.advance c.slot.toNat)

def execRehearseWin (c : WinCue) (s : State) : Host.Outcome State Fault Refusal := s.onCue c.wf (rehearseWin c)

end Sys2Proof.Machine
end

