-- ==== Sys2Proof/Machine/Exact.lean ====
section
/-! DEFINITION. Exact mode (R138 to R143), the precision counters' clear (R133), and the host's mode requests (R127,
R130). -/
namespace Sys2Proof.Machine

/-! ## Mode requests and counters -/

/-- FORCE_LEARN and FORCE_SERVICE wait for the next frame boundary; the later write prevails (R127, R130). -/
def forceMode (learn : Bool) (d : Dev) : Dev := if d.up then d.modTile fun t => { t with hostMode := some learn } else d

def execForceLearn (s : State) : Host.Outcome State Fault Refusal := s.onDev (forceMode true)
def execForceService (s : State) : Host.Outcome State Fault Refusal := s.onDev (forceMode false)

/-- TILE_PREC_CLR (R133). -/
def tilePrecClr (d : Dev) : Dev := if d.up then d.modTile fun t => { t with precCnt := [] } else d
def execTilePrecClr (s : State) : Host.Outcome State Fault Refusal := s.onDev tilePrecClr

/-! ## Jobs -/

/-- The script's exact-mode pool (6) has a thread in some template (R142, R182). -/
def Dev.exactPool (d : Dev) : Bool :=
  match d.scr.script with
  | some sc => sc.pools.any fun p => p.member.any fun m => m.2 == 6
  | none => false

/-- A job starts: its target is latched and its captures are empty (R140 to R142). DONE, ERROR, CAUSE and the figures of an earlier job
stay until this one ends (log 118, DESIGN CHOICE). -/
def Exact.begin (x : Exact) (layer : Bool) (target session frame : Nat) : Exact :=
  { x with job := some (layer, target, session), startFrame := frame, phases := [], chains := [], step := false }

/-- START (R143): ignored while BUSY; an empty pool ends the job in ERROR with cause 1. -/
def exactStart (layer : Bool) (d : Dev) : Dev :=
  if !d.up then d
  else
    let d := d.modTile fun t => { t with exact := { t.exact with kind := if layer then 1 else 0 } }
    let x := d.tile.exact
    if x.job.isSome then d
    else
      let target := if layer then x.layer.toNat else 16 * x.tile.toNat + x.slot.toNat
      let d := d.modTile fun t => { t with exact := t.exact.begin layer target (if layer then x.session.toNat else 0) d.frm.frame }
      if d.exactPool then d else d.exactFail 1

def execExactArrayJob (s : State) : Host.Outcome State Fault Refusal := s.onDev (exactStart false)
def execExactLayerJob (s : State) : Host.Outcome State Fault Refusal := s.onDev (exactStart true)

/-- ABORT ends the running job with cause 2 (R143). -/
def exactAbort (d : Dev) : Dev := if d.up then d.exactFail 2 else d
def execExactAbort (s : State) : Host.Outcome State Fault Refusal := s.onDev exactAbort

/-- No qualifying phase within 1,048,576 frames (R142). -/
def exactJobTimeout (d : Dev) : Dev :=
  let x := d.tile.exact
  if d.up && x.startFrame + 1048576 ≤ d.frm.frame && x.phases.isEmpty && !x.step then d.exactFail 4 else d
def execExactJobTimeout (s : State) : Host.Outcome State Fault Refusal := s.onDev exactJobTimeout

/-! ## Results -/

/-- A share in parts per million, to the nearest (log 29). -/
def ppm (q : Rat) : Nat := min (2 ^ 32 - 1) (rne (q * 1000000)).toNat

/-- The square root of a share in parts per million, rounded down (log 29). -/
def ppmSqrt (q : Rat) : Nat := min (2 ^ 32 - 1) (Nat.sqrt (q * 1000000000000).floor.toNat)

/-- Column errors of a captured phase, as shares of Y_fs (R91): the exact sums come from the census weights. -/
def Dev.phaseErrors (d : Dev) (key : Nat) (p : PhaseCap) : List Rat :=
  let ys := colSums (d.tile.census.filterMap fun c =>
    if c.1 / 2 ^ 18 = key then some (c.1 / 512 % 512, c.1 % 512, pairWeight c.2) else none) p.codes
  (List.range 512).map fun j =>
    ((p.conv.getD j 0 : Rat) * rangeQ p.range * p.gains.getD (j / 32) 0 / 262144 - ys.getD j 0) / rangeFs p.range

/-- The figures of an ARRAY job (R140); one bound, the largest that applied to a captured phase, or 0 where none applied (log 29). -/
def Dev.arrayResult (d : Dev) (key : Nat) : Exact :=
  let x := d.tile.exact
  let es := x.phases.flatMap (d.phaseErrors key)
  let bounds := x.phases.filterMap PhaseCap.bound
  let bound := bounds.foldl max 0
  { x with job := none, done := true, rms := ppmSqrt ((es.map fun e => e * e).sum / es.length),
           max := ppm (es.foldl (fun m e => if m < |e| then |e| else m) 0), bound := ppm bound,
           over_ := if bounds.isEmpty then 0 else (es.filter fun e => 6 * bound < |e|).length, digest := List.replicate 32 0 }

/-- One block's part of a reference result (R139), in eighths times 2^e: codes under AW8, census weights and the census image
of the Prompter store; the scale table's entry and the seed are those of the capture (R141). -/
def Dev.refBlock (d : Dev) (pos : Nat) (b : SrcCap) : List Rat :=
  let tile := b.tile
  let pslot := b.pslot
  let blk := b.block
  let d := d.modMem fun m => { m with prompter := d.tile.censusPr }
  let es := vecElems blk.srcFmt b.src
  let chans := d.outliers tile blk.oset
  let e := vecExp (maxMag es chans) .aw8 (qBase b.entry)
  let xs := (quantise es .aw8 e chans (if blk.stoch then some (draw16 b.seed pos 1 blk.qpoint) else none)).map Prod.fst
  let driven := xs.zipIdx.map fun p => if chans.contains p.2 then 0 else p.1
  let ws := d.tile.census.filterMap fun c =>
    if c.1 / 2 ^ 18 = 16 * tile + pslot then some (c.1 / 512 % 512, c.1 % 512, pairWeight c.2) else none
  let m := phaseMul (d.slotDesc tile pslot).kind .an4 0
  let pr := (d.prompter tile pslot xs).getD (List.replicate 512 0)
  (colSums ws driven).zip pr |>.map fun y => ((8 * y.1 * m + y.2 : Int) : Rat) * (2 : Rat) ^ e

/-- y_ref of a captured chain, as bytes of its output format (R139): rounded as its OUT cue rounds, domain 3 of R136,
with the scales of the census (R138). -/
def Dev.chainRef (d : Dev) (c : ChainCap) : List Byte :=
  let parts := c.blocks.map (d.refBlock c.tok.pos)
  let sc := d.scalesIn (fun _ => d.tile.censusScales) c.chain
  let seed := (c.blocks.head?.map SrcCap.seed).getD 0
  colBytes c.fmt ((List.range 512).map fun j =>
    let s := (parts.map fun p => p.getD j 0).sum
    outRound (outFmtF c.fmt) (sc.getD j 0 * s / 8) false (if c.stoch then some (draw16 seed c.tok.pos 3 c.chain j) else none))

/-- The sources of a captured chain that the digest takes: a W8s pair reads one source, hashed once (R141). -/
def Dev.chainSrcs (d : Dev) (c : ChainCap) : List Byte :=
  c.blocks.flatMap fun b => if (d.slotDesc b.tile b.pslot).kind = 2 then [] else b.src

/-- Signed values of an output. -/
def outVals (f : OutFmt) (bs : List Byte) : List Rat :=
  (vecElems f bs).map fun v => match v with
    | .fin true q => -q
    | .fin false q => q
    | _ => 0

/-- Captured chains in order of chain, then lane. -/
def insChain (l : List ChainCap) (c : ChainCap) : List ChainCap :=
  match l with
  | [] => [c]
  | x :: t => if c.chain < x.chain || (c.chain == x.chain && c.lane < x.lane) then c :: x :: t else x :: insChain t c

/-- The figures of a LAYER job (R141). -/
def Dev.layerResult (d : Dev) : Exact :=
  let x := d.tile.exact
  let cs := x.chains.foldl insChain []
  let refs := cs.map d.chainRef
  let pairs := (cs.zip refs).flatMap fun p => (outVals p.1.fmt p.1.out).zip (outVals p.1.fmt p.2)
  let num := (pairs.map fun p => (p.1 - p.2) * (p.1 - p.2)).sum
  let den := (pairs.map fun p => p.2 * p.2).sum
  let top := pairs.foldl (fun m p => if m < |p.2| then |p.2| else m) 0
  let worst := pairs.foldl (fun m p => if m < |p.1 - p.2| then |p.1 - p.2| else m) 0
  { x with job := none, done := true, bound := 0, over_ := 0,
           rms := if den = 0 then Config.freePpm d.freeCtr else ppmSqrt (num / den),
           max := if top = 0 then Config.freePpm (d.freeCtr + 1) else ppm (worst / top),
           digest := shake256 (cs.flatMap d.chainSrcs ++ refs.flatten) }

/-- EXACT_JOB_DONE (R140 to R142): the capture is complete and the threads have computed the figures. -/
def exactJobDone (d : Dev) : Dev :=
  if !d.up then d
  else
    let x := d.tile.exact
    match x.job with
    | some (false, key, _) =>
      if x.phases.length < 4096 then d else (d.modTile fun t => { t with exact := d.arrayResult key }).event .exact
    | some (true, _, _) =>
      if !x.step || x.chains.any fun c => c.out.isEmpty then d
      else ((d.modTile fun t => { t with exact := d.layerResult }).useFree 2).event .exact
    | none => d

def execExactJobDone (s : State) : Host.Outcome State Fault Refusal := s.onDev exactJobDone

end Sys2Proof.Machine
end

