-- ==== Sys2Proof/Machine/Kernels.lean ====
section
/-! DEFINITION. Kernels (R340, R350): packed lanes, operands, local buffers (R200, R201), results; and the kernels MATMUL, NORM,
ROTARY, ATTN_GQA, ATTN_LATENT, KVWRITE, EXACT and the stop of R148. -/
namespace Sys2Proof.Machine

/-! ## A kernel's run -/

/-- A kernel as it runs: its family (R340 FAMILY), cue, constants, packed tokens (none is padding), and its tenant. -/
structure KRun where
  fam : Nat
  k : KernelCue
  kc : KConst
  toks : List (Option Tok)
  tenant : Nat

/-- Tokens of the lanes packed in operand order; an empty lane or segment 0xFFFF is padding (R156, R350). -/
def Dev.packed (d : Dev) (k : KernelCue) : List (Option Tok) :=
  (List.range k.nlanes.toNat).map fun i => (d.lane (k.lane.toNat + i)).filter fun t => t.seg != 65535

def Dev.kconst (d : Dev) (n : Nat) : KConst :=
  match d.scr.script with
  | some sc => (sc.consts[n]?).getD default
  | none => default

def Dev.krun (d : Dev) (fam : Nat) (k : KernelCue) : KRun :=
  let ts := d.packed k
  ⟨fam, k, d.kconst k.const.toNat, ts, match ts.filterMap id with | t :: _ => t.tenant | [] => 16⟩

def KRun.present (z : KRun) : List Tok := z.toks.filterMap id
def KRun.steps (z : KRun) : List (Nat × Nat × Nat) := (z.present.map Tok.step).dedup
def KRun.slot (z : KRun) : Nat := z.k.slot.toNat
def KRun.num (z : KRun) : Nat := z.k.num.toNat
/-- The token whose partition packed lane i uses. -/
def KRun.tokAt (z : KRun) (i : Nat) : Tok := ((z.toks[i]?).join).getD { seg := 65535, tenant := z.tenant }

/-- DETAIL of an engine's error (R416): thread, kernel family, lanes affected. -/
def KRun.detail (z : KRun) : List Word := [BitVec.ofNat 32 z.k.thread.toNat, BitVec.ofNat 32 z.fam, BitVec.ofNat 32 z.present.length]

/-- A contained error of the engine (R404, R416): every step given is discarded. -/
def Dev.engineError (d : Dev) (z : KRun) (code : Nat) (steps : List (Nat × Nat × Nat)) (verdict : Nat := 0) : Dev :=
  d.contain { code := code, cls := 1, kind := 4, unit := z.k.engine.toNat, slot := z.slot, cue := z.num, verdict := verdict, detail := z.detail }
    steps

/-- The packed operand breaks R157: one step, one segment; different steps, different segments; POS rising. -/
def orderBroken : List Tok → Bool
  | [] => false
  | a :: t => (t.any fun b => (decide (a.step = b.step) != (a.seg == b.seg)) || (a.seg == b.seg && decide (b.pos ≤ a.pos))) ||
      orderBroken t

/-! ## Operands (R340) -/

/-- Where an operand's row for packed lane i lies: in the wings (true) or a local buffer, and its address; `size` bytes a
row. -/
def Dev.opAt (d : Dev) (z : KRun) (o : KOperand) (size i : Nat) : Option (Bool × Nat) :=
  match o.kind with
  | .wings => some (true, wordAddr (o.addr.toNat + i * size))
  | .laneBuf => some (true, wordAddr (d.laneBuf (z.k.lane.toNat + i) (z.tokAt i).tenant + o.addr.toNat))
  | .localBuf => some (false, localKey z.k.engine.toNat (4096 * o.addr.toNat + i * size))
  | _ => none

/-- Bytes of a row of an operand. -/
def opSize (o : KOperand) : Nat := numBytes o.fmt o.elems.toNat

/-- The first outstanding range that an operand overlaps (R343). -/
def Dev.opsOutstanding (d : Dev) (z : KRun) : Option Outst :=
  [z.k.op0, z.k.op1, z.k.op2, z.k.op3].findSome? fun o =>
    (List.range (max 1 z.toks.length)).findSome? fun i =>
      (d.opAt z o (opSize o) i).bind fun p => d.outstanding p.1 p.2 (opSize o)

/-- Granules, as 256 × engine + granule, that a local buffer range touches. -/
def granulesOf (a n : Nat) : List Nat := if n = 0 then [] else (List.range ((a + n - 1) / 4096 - a / 4096 + 1)).map (a / 4096 + ·)

/-- Read n bytes: a granule last written under another partition reads zeros and is a contained error (R201); a wings bank
the crossbar refuses reads zeros (R198). -/
def Dev.kRead (d : Dev) (z : KRun) (p : Bool × Nat) (n i : Nat) (operand : Nat := 0) : Dev × List Byte :=
  if p.1 then d.wingsRd (z.tokAt i) p.2 n z.slot z.num operand
  else
    let d := d.hazRead 2 (granulesOf p.2 n) z.num z.slot z.steps operand
    let foreign (g : Nat) : Bool := match sget d.mem.granule g with | some t => t != z.tenant | none => false
    if (granulesOf p.2 n).any foreign then
      ((d.modMem fun m => m.count .localBuf z.k.engine.toNat 4).engineError z 0x0504 z.steps,
       (List.range n).map fun j => if foreign ((p.2 + j) / 4096) then 0 else rd1 d.mem.localBuf (p.2 + j))
    else (d, rdN d.mem.localBuf p.2 n)

/-- Write bytes; a local buffer granule records the kernel's partition (R200). -/
def Dev.kWrite (d : Dev) (z : KRun) (p : Bool × Nat) (bs : List Byte) (i : Nat) : Dev :=
  if p.1 then d.wingsWr (z.tokAt i) p.2 bs z.slot z.num
  else
    (d.modMem fun m =>
      { m with localBuf := wrN m.localBuf p.2 bs,
               granule := (granulesOf p.2 bs.length).foldl (fun g k => sput g k z.tenant) m.granule }).tagWrite 2
      (granulesOf p.2 bs.length) z.num

/-- The number of an operand among the kernel's reads (R329, R340). -/
def KRun.operand (z : KRun) (o : KOperand) : Nat := if o = z.k.op0 then 0 else if o = z.k.op1 then 1 else 2

/-- Row i of an operand; an operand of another kind has no bytes. -/
def Dev.opRow (d : Dev) (z : KRun) (o : KOperand) (i : Nat) : Dev × List Byte :=
  match d.opAt z o (opSize o) i with
  | some p => d.kRead z p (opSize o) i (z.operand o)
  | none => (d, [])

/-- A matrix that every token shares: `n` elements from the operand's address on (log 45). -/
def Dev.opMatrix (d : Dev) (z : KRun) (o : KOperand) (n : Nat) : Dev × List Byte :=
  match d.opAt z o 0 0 with
  | some p => d.kRead z p (numBytes o.fmt n) 0 (z.operand o)
  | none => (d, [])

/-- Write the bytes of row i of the output; padding writes zeros (R350). -/
def Dev.outRow (d : Dev) (z : KRun) (size i : Nat) (bs : List Byte) : Dev :=
  match d.opAt z z.k.op3 size i with
  | some p => d.kWrite z p bs i
  | none => d

/-- Write a row of results under the cue's rounding; a stochastic row uses a free draw (log 44). -/
def Dev.outRes (d : Dev) (z : KRun) (i : Nat) (vs : List Res) : Dev :=
  let o := z.k.op3
  if z.k.stoch then
    let c := d.freeCtr
    (d.useFree 1).outRow z (opSize o) i (encodeRow o.fmt vs (some fun e => (Config.kernelDraw c e).toNat))
  else d.outRow z (opSize o) i (encodeRow o.fmt vs)

/-- Run a family's rows: each present token gives a row, none for R153; padding gives zeros. Nothing is written when any row
has no result. -/
def Dev.rows (d : Dev) (z : KRun) (row : Dev → Nat → Tok → Dev × Option (List Res)) : Dev :=
  let go := z.toks.zipIdx.foldl (fun (a : Dev × Option (List (Nat × List Res))) (e : Option Tok × Nat) =>
    match e.1 with
    | none => (a.1, a.2.map fun l => l ++ [(e.2, List.replicate z.k.op3.elems.toNat ⟨false, 0⟩)])
    | some t =>
      let (d, r) := row a.1 e.2 t
      (d, match a.2, r with | some l, some r => some (l ++ [(e.2, r)]) | _, _ => none)) (d, some [])
  match go.2 with
  | some l => l.foldl (fun d e => d.outRes z e.1 e.2) go.1
  | none => go.1.engineError z 0x0402 z.steps

/-- Zero the thread's private partition (R200). -/
def Dev.clearPartition (d : Dev) (z : KRun) : Dev :=
  let key := 64 * z.k.engine.toNat + z.k.thread.toNat
  match d.scr.script with
  | some sc =>
    match ((sc.pools[d.template]?).getD default).priv.find? fun e => e.1 == key with
    | some (_, g, n) =>
      let lo := localKey z.k.engine.toNat (4096 * g)
      (d.modMem fun m =>
        { m with localBuf := zeroRange m.localBuf lo (lo + 4096 * n),
                 granule := (granulesOf lo (4096 * n)).foldl (fun t k => sput t k z.tenant) m.granule }).tagWrite 2
        (granulesOf lo (4096 * n)) z.num
    | none => d
  | none => d

/-- The kernel's thread runs, for the steps it serves (R186, R204). -/
def Dev.runThread (d : Dev) (z : KRun) : Dev :=
  let t := 64 * z.k.engine.toNat + z.k.thread.toNat
  let d := d.modEng fun e => { e with active := setIns e.active t }
  z.steps.foldl (fun d s => d.useKeys [2 ^ 20 + t] s) d

/-- A KERNEL cue of a family (R350). -/
def Dev.kernel (fam : Nat) (k : KernelCue) (run : KRun → Dev → Dev) (d : Dev) : Dev :=
  if !d.cues then d
  else
    let z := d.krun fam k
    if z.present.isEmpty then d
    else match d.opsOutstanding z with
      | some o => d.stallOn o z.slot
      | none =>
        let d := d.runThread z
        let d := if k.clear then d.clearPartition z else d
        if orderBroken z.present then d.engineError z 0x0403 z.steps else run z d

/-! ## MATMUL (R151, R155) -/

/-- One token's product with a matrix stored row by row: INT8 operands in INT32 accumulators, others in FP32 (log 45). -/
def matRow (fx fw : NumFmt) (x w : List Byte) (n outs : Nat) : Option (List Res) :=
  match rowAt fx x n, rowAt fw w (n * outs) with
  | some xs, some ws =>
    (List.range outs).mapM fun o =>
      let wr := slice ws (o * n) n
      if fx = .int8 && fw = .int8 then
        let r := dotInt (ceilDiv n 64) xs wr (0, false)
        some ⟨decide (r.1 < 0), if r.2 then 2 ^ 200 else |(r.1 : Rat)|⟩
      else (dot xs wr).map resF32
  | _, _ => none

def matmulRun (z : KRun) (d : Dev) : Dev :=
  let n := z.k.op0.elems.toNat
  let outs := z.k.op3.elems.toNat
  let (d, w) := d.opMatrix z z.k.op1 (n * outs)
  d.rows z fun d i _ =>
    let (d, x) := d.opRow z z.k.op0 i
    (d, matRow z.k.op0.fmt z.k.op1.fmt x w n outs)

def execMatmul (k : KernelCue) (s : State) : Host.Outcome State Fault Refusal := s.onCue (k.wf true) (Dev.kernel 0 k matmulRun)

/-! ## NORM and ROTARY (R155) -/

/-- y = x × g ÷ sqrt(mean(x²) + ε); the order of the sum is open (log 42). -/
def normRow (xs gains : List F32) (eps : F32) : Option (List F32) := do
  let sq ← xs.mapM fun x => f32Mul x x
  let sum ← Config.reduceAdd sq
  let n ← f32Of xs.length
  let mean ← f32Div sum n
  let e ← f32Add mean eps
  let r ← f32Sqrt e
  xs.zipIdx.mapM fun x => do
    let y ← f32Mul x.1 (gains.getD x.2 f32One)
    f32Div y r

def normRun (z : KRun) (d : Dev) : Dev :=
  d.rows z fun d i _ =>
    let (d, x) := d.opRow z z.k.op0 i
    (d, do
      let xs ← rowF32 z.k.op0.fmt x z.k.op0.elems.toNat
      let ys ← normRow xs z.kc.gains z.kc.eps
      some (ys.map resF32))

def execNorm (k : KernelCue) (s : State) : Host.Outcome State Fault Refusal := s.onCue (k.wf true) (Dev.kernel 1 k normRun)

/-- Rotate one head's positional part by the token's position; frequencies and pairs are open (log 43). -/
def rotaryHead (base dim pos : Nat) (xs : List F32) : Option (List F32) :=
  (List.range (dim / 2)).foldlM (fun ys i => do
    let (a, b) := Config.rotaryPair dim i
    let p ← f32Of pos
    let th ← f32Mul p (Config.rotaryFreq base dim i)
    let c ← f32Cos th
    let s ← f32Sin th
    let x := xs.getD a 0
    let y := xs.getD b 0
    let xc ← f32Mul x c
    let ys' ← f32Mul y s
    let xs' ← f32Mul x s
    let yc ← f32Mul y c
    let u ← f32Sub xc ys'
    let v ← f32Add xs' yc
    some ((ys.set a u).set b v)) xs

def rotaryRun (z : KRun) (d : Dev) : Dev :=
  d.rows z fun d i t =>
    let (d, x) := d.opRow z z.k.op0 i
    let dim := max 1 z.kc.dim
    (d, do
      let xs ← rowF32 z.k.op0.fmt x z.k.op0.elems.toNat
      let hs ← (List.range (ceilDiv xs.length dim)).mapM fun h => rotaryHead z.kc.base dim t.pos (slice xs (h * dim) dim)
      some (hs.flatten.map resF32))

def execRotary (k : KernelCue) (s : State) : Host.Outcome State Fault Refusal := s.onCue (k.wf true) (Dev.kernel 2 k rotaryRun)

/-! ## KV entries (R158, R163, R256, R260) -/

/-- Table index and page of position n of a layer, and its entry's address. -/
def Dev.kvEntry (d : Dev) (k : KvDev) (s layer n : Nat) : Option (Nat × Nat × Nat) :=
  match d.localLayers.findIdx? (· == layer) with
  | some l =>
    let i := n / k.tpg * k.lk + l
    (d.tableEntry s i).map fun p => (i, p, kvPage p + 1024 + n % k.tpg * k.e)
  | none => none

/-- Attention window of a layer; 0: none (R158, R499). -/
def Dev.kvWindow (d : Dev) (layer : Nat) : Nat :=
  match d.scr.script with
  | some sc => match sc.kvLayers.find? fun l => l.layer == layer with | some l => l.window | none => 0
  | none => 0

/-- Positions a query token may attend to, rising: cached ones below its segment's first, and its segment's own (R158). -/
def Dev.visible (d : Dev) (z : KRun) (k : KvDev) (t : Tok) : List Nat :=
  let seg := (z.present.filter fun u => u.seg == t.seg).map Tok.pos
  let first := seg.foldl min t.pos
  let w := d.kvWindow z.k.layer.toNat
  (List.range (t.pos + 1)).filter fun n =>
    (decide (n < first) || seg.contains n) && (w == 0 || decide (t.pos - n < w)) &&
      (d.kvEntry k t.session z.k.layer.toNat n).isSome

/-- The page in which reading or writing an entry meets an uncorrectable codeword (R278): its table page at the entry's word, or its own
page at the header and at the entry. -/
def Dev.badPage (d : Dev) (k : KvDev) (s layer n : Nat) (header : Bool) : Option Nat :=
  match d.localLayers.findIdx? (· == layer) with
  | some l =>
    let i := n / k.tpg * k.lk + l
    match d.root s (i / 16384) with
    | some t =>
      if d.mem.isBad (kvPage t + 4 * (i % 16384)) 4 then some t
      else match d.kvEntry k s layer n with
        | some (_, p, a) => if d.mem.isBad a k.e || (header && d.mem.isBad (kvPage p) 32) then some p else none
        | none => none
    | none => none
  | none => none

/-- A bad page met by a kernel, with the effect of R278. -/
def Dev.kernelPageBad (d : Dev) (z : KRun) (p : Nat) : Dev :=
  d.kvPageBad p { code := 0, cls := 1, slot := z.slot, cue := z.num, detail := memDetail 5 (kvPage p) 0 p }

/-! ## Attention (R159 to R162) -/

/-- Running state of one head: m (none: no key yet), l, acc. -/
structure Att where
  m : Option F32
  l : F32
  acc : List F32

/-- exp2((a − b) × log2e). -/
def expDiff (a b : F32) : Option F32 := do
  let x ← f32Sub a b
  let y ← f32Mul x f32Log2e
  f32Exp2 y

def f32Max (a b : F32) : F32 := if f32Lt a b then b else a

/-- One block of up to 64 keys: scores and values in ascending POS. -/
def Att.block (z : Att) (ks : List (F32 × List F32)) : Option Att := do
  let top := match ks with | (s, _) :: t => t.foldl (fun m k => f32Max m k.1) s | [] => 0
  let mNew := match z.m with | some m => f32Max m top | none => top
  let c ← match z.m with | some m => expDiff m mNew | none => some 0
  let ws ← ks.mapM fun k => expDiff k.1 mNew
  let lc ← f32Mul z.l c
  let sw ← f32Sum ws
  let l ← f32Add lc sw
  let acc ← z.acc.zipIdx.mapM fun a => do
    let ac ← f32Mul a.1 c
    let ps ← (ws.zip ks).mapM fun k => f32Mul k.1 (k.2.2.getD a.2 0)
    let sv ← f32Sum ps
    f32Add ac sv
  some ⟨some mNew, l, acc⟩

/-- Blocks of 64 visible keys, counted from the lowest. -/
def attBlocks : Nat → List (F32 × List F32) → Att → Option Att
  | 0, _, z => some z
  | n + 1, ks, z => if ks.isEmpty then some z else (z.block (ks.take 64)).bind (attBlocks n (ks.drop 64))

/-- One head's output; no visible key gives zeros (R160). -/
def attHead (width : Nat) (ks : List (F32 × List F32)) : Option (List F32) :=
  if ks.isEmpty then some (List.replicate width 0)
  else do
    let z ← attBlocks (ceilDiv ks.length 64) ks ⟨none, 0, List.replicate width 0⟩
    let r ← f32Recip z.l
    z.acc.mapM fun a => f32Mul a r

/-- BF16 constant as FP32. -/
def ofBf16 (b : Nat) : F32 := b % 65536 * 65536

/-- Score and value of a GQA key-value head in an entry (R161, R256). -/
def gqaKey (kc : KConst) (q : List Rat) (kvh : Nat) (entry : List Byte) : Option (F32 × List F32) := do
  let key ← rowAt .e4m3 (slice entry (kvh * kc.dim) kc.dim) kc.dim
  let v ← rowF32 .e4m3 (slice entry ((kc.kvHeads + kvh) * kc.dim) kc.dim) kc.dim
  let p ← dot q key
  let s ← f32Mul (ofBf16 kc.scale) p
  some (s, v)

/-- Score and value of a latent entry (R162): the two products are summed in FP32 (log 46). -/
def latentKey (kc : KConst) (qc qp : List Rat) (entry : List Byte) : Option (F32 × List F32) := do
  let kcv ← rowAt .e4m3 entry 256
  let v ← rowF32 .e4m3 (slice entry 256 256) 256
  let p ← rowAt .e4m3 (slice entry 512 64) 64
  let a ← dot qc kcv
  let b ← dot qp p
  let ab ← f32Add a b
  let s ← f32Mul (ofBf16 kc.scale) ab
  some (s, v)

/-- The entries of the visible positions, ascending. -/
def Dev.kvEntries (d : Dev) (k : KvDev) (s layer : Nat) (ns : List Nat) : List (List Byte) :=
  ns.filterMap fun n => (d.kvEntry k s layer n).map fun e => d.hbmRd e.2.2 k.e

/-- One token's attention over every head (R159); queries lie head by head (log 46). -/
def attRow (latent : Bool) (kc : KConst) (f : NumFmt) (x : List Byte) (entries : List (List Byte)) : Option (List Res) := do
  let qw := if latent then 320 else kc.dim
  let qs ← rowAt f x (kc.heads * qw)
  let outs ← (List.range kc.heads).mapM fun h => do
    let q := slice qs (h * qw) qw
    let ks ← entries.mapM fun e =>
      if latent then latentKey kc (q.take 256) (q.drop 256) e else gqaKey kc q (h * kc.kvHeads / max 1 kc.heads) e
    attHead (if latent then 256 else kc.dim) ks
  some (outs.flatten.map resF32)

/-- An attention kernel on the device that owns its layer; an uncorrectable page is handled under R278. -/
def attnRun (latent : Bool) (z : KRun) (d : Dev) : Dev :=
  match d.ownKv with
  | none => d
  | some k =>
    match z.present.findSome? fun t => (d.visible z k t).findSome? fun n => d.badPage k t.session z.k.layer.toNat n false with
    | some p => d.kernelPageBad z p
    | none =>
      d.rows z fun d i t =>
        let (d, x) := d.opRow z z.k.op0 i
        (d, attRow latent z.kc z.k.op0.fmt x (d.kvEntries k t.session z.k.layer.toNat (d.visible z k t)))

def execAttnGqa (k : KernelCue) (s : State) : Host.Outcome State Fault Refusal := s.onCue (k.wf true) (Dev.kernel 3 k (attnRun false))
def execAttnLatent (k : KernelCue) (s : State) : Host.Outcome State Fault Refusal :=
  s.onCue (k.wf true) (Dev.kernel 4 k (attnRun true))

/-! ## KVWRITE (R137, R257, R258, R261, R274) -/

/-- The epoch of a token's step: as its entry device sampled it, elsewhere this device's own (log 47). -/
def Dev.stepEpoch (d : Dev) (t : Tok) : Nat :=
  match d.call.steps.find? fun x => x.session == t.session && t.ex == d.coord.x.toNat && t.ey == d.coord.y.toNat with
  | some x => x.epoch
  | none => d.epoch

/-- An entry of a layer was written to the green room: it joins the layer's run of writes that wait for confirmation, or begins a new one;
an entry below MIRRORED_TO is no longer confirmed (R275). -/
def Dev.mirrorPend (d : Dev) (s layer pos : Nat) : Dev :=
  let run : MirrorPend := match d.kv.mirrors.find? fun p => p.session == s && p.layer == layer with
    | some p => if p.lo ≤ pos && pos ≤ p.upTo then { p with upTo := max p.upTo (pos + 1) } else ⟨s, layer, pos, pos + 1⟩
    | none => ⟨s, layer, pos, pos + 1⟩
  let d := d.modKv fun v => { v with mirrors := (v.mirrors.filter fun p => !(p.session == s && p.layer == layer)) ++ [run] }
  if pos < d.mirroredTo s then d.setSes s 0x510 pos else d

/-- The mirror of one write (R274): the bytes go to the page's green room place, and the last 64 B of them are read back (R275). Answers
whether they went. -/
def Dev.mirrorWrite (d : Dev) (k : KvDev) (t : Tok) (i off : Nat) (bs : List Byte) : Dev × Bool :=
  let s := t.session
  if !(d.mirrorOf ⟨BitVec.ofNat 4 t.ex, BitVec.ofNat 4 t.ey⟩ s && d.mirrorOk s) then (d, false)
  else if d.grSize s ≤ i || !d.grOn s then (d.mirrorStop k s, false)
  else if !d.muleUp then (d.muleFailed.mirrorStop k s, false)
  else
    let a := d.grBase s + 65536 * i + off
    let d := (d.emit (.hostWrite a bs true)).dmaCount 2 (ceilDiv bs.length 64)
    (d.emit (.hostRead (a + bs.length - min 64 bs.length) (min 64 bs.length)), true)

/-- The pages up to a token's position, allocated when the session does not hold them (R258, R261); none: the share's free list is
empty. A session whose MIRROR is 1 is mirrored here unless its mirror stopped (R274). -/
def Dev.kvReach (d : Dev) (k : KvDev) (t : Tok) : Option Dev :=
  let entry : Coord := ⟨BitVec.ofNat 4 t.ex, BitVec.ofNat 4 t.ey⟩
  match d.kvIndex entry with
  | none => none
  | some idx =>
    let s := t.session
    let held := d.blocks s
    match d.growTo k idx (t.pos / k.tpg + 1) ⟨s, t.tenant, d.stepEpoch t⟩ with
    | none => none
    | some e =>
      let e := if e.kstate s = 0 || e.kstate s = 5 then e.setKstate s 1 else e
      let e := if e.mirrorOf entry s && !e.kv.mirrorOff.contains s && !e.mirrorOk s then e.setSesF s 0x500 3 1 1 else e
      some ((List.range ((e.blocks s - held) * k.lk)).foldl (fun e j =>
        let i := held * k.lk + j
        match e.tableEntry s i with
        | some p => (e.mirrorWrite k t i 0 (e.hbmRd (kvPage p) 1024)).1
        | none => e) e)

/-- Write one token's entry; a page whose header carries another epoch takes the step's first (R258), and a page with an uncorrectable
codeword there is lost (R278). -/
def Dev.kvPut (d : Dev) (z : KRun) (k : KvDev) (t : Tok) (bs : List Byte) : Dev :=
  let layer := z.k.layer.toNat
  match d.badPage k t.session layer t.pos true with
  | some p => d.kernelPageBad z p
  | none =>
    match d.kvEntry k t.session layer t.pos with
    | none => d
    | some (i, p, a) =>
      let ep := d.stepEpoch t
      let d := if leNat (d.hbmRd (kvPage p + 0x10) 2) = ep % 65536 then d
        else
          let d := d.hbmWr (kvPage p + 0x10) (leBytes 4 (ep % 65536))
          (d.mirrorWrite k t i 0 (d.hbmRd (kvPage p) 1024)).1
      let (d, sent) := (d.hbmWr a bs).mirrorWrite k t i (a - kvPage p) bs
      if sent then d.mirrorPend t.session layer t.pos else d

/-- The E4M3 bytes of a token's entry: operands 0 to 2 one after another (log 46), rounded stochastically in domain 0x04. -/
def Dev.kvBytes (d : Dev) (z : KRun) (i : Nat) (t : Tok) : Dev × Option (List Byte) :=
  let (d, vs) := [z.k.op0, z.k.op1, z.k.op2].foldl (fun (a : Dev × Option (List F32)) o =>
    if o.kind = .none then a
    else
      let (d, bs) := a.1.opRow z o i
      (d, do let l ← a.2; let r ← rowF32 o.fmt bs o.elems.toNat; some (l ++ r))) (d, some [])
  let seed := d.seedOf t
  (d, vs.map fun l => encodeRow .e4m3 (l.map resF32) (some (draw16 seed t.pos 4 z.k.layer.toNat)))

def kvwriteRun (z : KRun) (d : Dev) : Dev :=
  match d.ownKv with
  | none => d
  | some k =>
    let go := z.toks.zipIdx.foldl (fun (a : Dev × Option (List (Tok × List Byte))) (e : Option Tok × Nat) =>
      match e.1 with
      | none => a
      | some t =>
        let (d, r) := a.1.kvBytes z e.2 t
        (d, match a.2, r with | some l, some r => some (l ++ [(t, r)]) | _, _ => none)) (d, some [])
    match go.2 with
    | none => go.1.engineError z 0x0402 z.steps
    | some l =>
      l.foldl (fun d e =>
        match d.kvReach k e.1 with
        | some d => d.kvPut z k e.1 (e.2.take k.e)
        | none =>
          if d.discarding e.1.step then d
          else d.contain { code := 0x0606, cls := 1, kind := 15, unit := e.1.session, slot := z.slot, cue := z.num, detail :=
            [5] } [e.1.step]) go.1

def execKvwrite (k : KernelCue) (s : State) : Host.Outcome State Fault Refusal := s.onCue (k.wf true) (Dev.kernel 5 k kvwriteRun)

/-! ## EXACT and the stop of R148 -/

/-- An EXACT kernel: its thread runs and its partition is cleared; the job's results are formed when it ends (R140 to R142,
EXACT_JOB_DONE). -/
def exactKernel (k : KernelCue) (d : Dev) : Dev :=
  if !d.cues then d
  else
    let z := d.krun 11 k
    match d.opsOutstanding z with
    | some o => d.stallOn o z.slot
    | none =>
      let d := d.runThread z
      if k.clear then d.clearPartition z else d

def execExact (k : KernelCue) (s : State) : Host.Outcome State Fault Refusal := s.onCue (k.wf false) (exactKernel k)

/-- A kernel that has not completed by the end of its last slot is stopped: counted, a contained error, its steps
discarded (R148); the second within its history makes the engine permanent, and an engine has no spare (R406, R408). -/
def kernelStop (fam : Nat) (k : KernelCue) (d : Dev) : Dev :=
  if !d.cues then d
  else
    let z := d.krun fam k
    let d := (d.modEng fun e => { e with late := bump e.late }).engineError z 0x0401 z.steps
      (d.histNext 4 k.engine.toNat 16 32).verdict
    let (d, perm) := d.histEvent 4 k.engine.toNat 16 32
    if perm then d.raise { code := 0x0401, cls := 2, kind := 4, unit := k.engine.toNat, slot := z.slot, cue := z.num, verdict := 2, detail := z.detail } else d

def execKernelStop (fam : BitVec 4) (k : KernelCue) (s : State) : Host.Outcome State Fault Refusal :=
  s.onCue (k.wf false && decide (fam.toNat < 12)) (kernelStop fam.toNat k)

end Sys2Proof.Machine
end

