-- ==== Sys2Proof/Machine/Kafel.lean ====
section
/-! DEFINITION. Transfers over Kafel links: what a link carries in a slot (R324, R372), the spill onto other links (R372),
flits as sent (R358, R359), the stream of a transfer (R369), and the link records of the cue sheet (R342, R343, R367). -/
namespace Sys2Proof.Machine

/-! ## Flits as sent -/

/-- A zero unit: what fills a flit beyond its units (log 53). -/
def zeroUnit : List Byte := List.replicate 16 0

/-- A flit of up to 32 units, filled with zero units. -/
def unitFlit (control : Bool) (us : List (List Byte)) : Flit :=
  let body := (us ++ List.replicate (32 - us.length) zeroUnit).flatten
  ⟨body, flitCrc control body⟩

/-- A flit with data goes out when the replay buffer has room, else it waits (R359). -/
def Dev.sendFlit (d : Dev) (link : Nat) (f : Flit) : Dev :=
  if (d.link link).replayBuf.length < 64 && (d.link link).txWait.isEmpty then (d.modLink link fun l => l.keep f).emit (.flit link f)
  else d.modLink link fun l => { l with txWait := l.txWait ++ [f] }

/-- Waiting flits go out while the replay buffer has room. -/
def Dev.drainTx (d : Dev) (link : Nat) : Dev :=
  let room := 64 - (d.link link).replayBuf.length
  let fs := (d.link link).txWait.take room
  fs.foldl (fun d f => (d.modLink link fun l => l.keep f).emit (.flit link f)) (d.modLink link fun l => { l with txWait := l.txWait.drop room })

/-- The units of a list in groups of n. -/
def groups {α : Type} (n : Nat) : Nat → List α → List (List α)
  | 0, _ => []
  | k + 1, us => if us.isEmpty then [] else us.take n :: groups n k (us.drop n)

/-! ## What a link carries in a slot (R324, R372) -/

/-- Units of 16 B in a slot on a number of lanes: 50 GB/s over a slot of 2.5 GHz (-S) or 2.2 GHz (-E) clocks. -/
def slotUnits (clocks lanes : Nat) : Nat := if Config.gradeE then 125 * clocks * lanes / (22 * 16) else 5 * clocks * lanes / 16

def popLanes (m : BitVec 4) : Nat := ((List.range 4).filter fun i => m.getLsbD i).length

/-- Units per slot in the direction this device sends in. -/
def Dev.linkCap (d : Dev) (link : Nat) : Nat :=
  let l := d.link link
  if l.working && !l.outage then slotUnits (bandClocks d.declBand) (popLanes l.txLanes) else 0

/-! ## Spill (R372) -/

/-- A transfer on the bundle: its link, first slot, slots held, number, units, and the next unit to send. -/
structure Xfer where
  link : Nat
  first : Nat
  slots : Nat
  num : Nat
  units : Nat
  next : Nat
  deriving DecidableEq, Repr

/-- A spilled run: the link that carries it, its transfer, first unit and number of units. -/
structure SpillRun where
  via : Nat
  num : Nat
  first : Nat
  n : Nat
  deriving DecidableEq, Repr

def Xfer.left (x : Xfer) : Nat := x.units - x.next
def Xfer.holds (x : Xfer) (s : Nat) : Bool := decide (x.first ≤ s) && decide (s < x.first + x.slots)

/-- Units that a transfer's own link sends in slot s: in its held slots, and late ones while no transfer holds the link. -/
def Xfer.own (x : Xfer) (cap : Nat → Nat) (xs : List Xfer) (s : Nat) : Nat :=
  let other := xs.any fun y => y.link == x.link && y.left != 0 && y.num != x.num && (y.holds s || (decide (y.first ≤ s) && decide (y.num < x.num)))
  if x.holds s || (decide (x.first + x.slots ≤ s) && !other) then min (cap x.link) x.left else 0

/-- The deficit at slot s: R − n × c, with n the slots still held. -/
def Xfer.deficit (x : Xfer) (cap : Nat → Nat) (s : Nat) : Nat :=
  if s < x.first then 0 else x.left - (x.first + x.slots - s) * cap x.link

/-- One free link takes units of the transfers with a deficit, lowest transfer number first. -/
def spillLink (via room : Nat) : List (Nat × Nat) → List Xfer × List SpillRun → (List Xfer × List SpillRun) × List (Nat × Nat)
  | [], st => (st, [])
  | (num, owed) :: t, st =>
    let n := min owed room
    let st' := match st.1.find? fun x => x.num == num with
      | some x => if n = 0 then st else
          (st.1.map fun y => if y.num == num then { y with next := y.next + n } else y, st.2 ++ [⟨via, num, x.next, n⟩])
      | none => st
    let r := spillLink via (room - n) t st'
    (r.1, (num, owed - n) :: r.2)

def insPair (l : List (Nat × Nat)) (x : Nat × Nat) : List (Nat × Nat) :=
  match l with
  | [] => [x]
  | y :: t => if x.1 < y.1 then x :: y :: t else y :: insPair t x

/-- One slot of the bundle. -/
def planSlot (cap : Nat → Nat) (links : List Nat) (s : Nat) (st : List Xfer × List SpillRun) : List Xfer × List SpillRun :=
  let xs := st.1
  let busy := xs.filterMap fun x => if x.own cap xs s = 0 then none else some x.link
  let owed := (xs.map fun x => (x.num, min (x.deficit cap s) (x.left - x.own cap xs s))).foldl insPair []
  let xs' := xs.map fun x => { x with next := x.next + x.own cap xs s }
  ((links.filter fun l => !busy.contains l).foldl (fun r l => spillLink l (cap l) r.2 r.1) ((xs', st.2), owed)).1

/-- Slots from s on, while a transfer has units left. -/
def planFrom (cap : Nat → Nat) (links : List Nat) : Nat → Nat → List Xfer × List SpillRun → List SpillRun
  | 0, _, st => st.2
  | n + 1, s, st => if st.1.all fun x => x.left == 0 then st.2 else planFrom cap links n (s + 1) (planSlot cap links s st)

/-- Transfers that this device sends on a bundle in the open frame's template: sends, and forwards two slots later (R367). -/
def Dev.bundleXfers (d : Dev) (b : Dir) : List Xfer :=
  match d.scr.script with
  | some sc => sc.links.filterMap fun e =>
      let r := e.rec_
      let out (link first : Nat) : Option Xfer :=
        if linkDir link = b then some ⟨link, first, r.slots.toNat, r.transfer.toNat, ceilDiv r.bytes.toNat 16, 0⟩ else none
      if e.template != d.template then none
      else if e.dir = 0 then out r.link.toNat r.first.toNat
      else if e.dir = 2 then out r.outLink.toNat (r.first.toNat + 2)
      else none
  | none => []

/-- The runs of a transfer that other links carry: a fixed function of the cue sheet and the lane counts (R373). -/
def Dev.spillRuns (d : Dev) (b : Dir) (num : Nat) : List SpillRun :=
  let xs := d.bundleXfers b
  let links := (List.range 12).map (Dir.base b + ·)
  let slots := xs.foldl (fun n x => max n (x.first + x.slots)) 0 + (xs.map Xfer.units).sum
  (planFrom d.linkCap links slots 0 (xs, [])).filter fun r => r.num == num

/-- A run of spilled units in control flits of one SPILL unit and up to 30 units. -/
def Dev.sendRun (d : Dev) (own : Nat) (r : SpillRun) (us : List (List Byte)) : Dev :=
  let pieces := groups 30 (us.length + 1) (slice us r.first r.n)
  pieces.zipIdx.foldl (fun d p =>
    let u : SpillInfo := ⟨BitVec.ofNat 24 r.num, BitVec.ofNat 24 (r.first + 30 * p.2), BitVec.ofNat 8 p.1.length, BitVec.ofNat 8 own⟩
    let d := d.modMesh fun m => { m with cnt := smod m.cnt (16 * own + 7) 0 fun c => bumpBy c p.1.length }
    d.sendFlit r.via (unitFlit true ([(1 : Byte) :: List.replicate 15 0, (CtlUnit.spill u).bytes] ++ p.1))) d

/-- Send a transfer's units: its own link's stream in data flits, the rest as spilled runs. -/
def Dev.sendTransfer (d : Dev) (link num : Nat) (us : List (List Byte)) : Dev :=
  let runs := d.spillRuns (linkDir link) num
  let spilled (i : Nat) : Bool := runs.any fun r => decide (r.first ≤ i) && decide (i < r.first + r.n)
  let own := us.zipIdx.filterMap fun u => if spilled u.2 then none else some u.1
  let d := if (d.link link).working then (groups 32 (own.length + 1) own).foldl (fun d g => d.sendFlit link (unitFlit false g)) d else d
  runs.foldl (fun d r => if r.first < us.length then d.sendRun link r us else d) d

/-! ## Descriptors and the stream (R156, R369) -/

/-- The 128 bits of a token descriptor. -/
def Tok.desc (t : Tok) : Nat :=
  t.pos % 2 ^ 24 + 2 ^ 24 * (t.seg % 2 ^ 16) + 2 ^ 40 * (t.cslot % 2 ^ 12) + 2 ^ 52 * (t.cls % 4) + 2 ^ 54 * b2n t.draft + 2 ^ 55 * b2n t.adp +
    2 ^ 56 * (t.adapter % 256) + 2 ^ 64 * (t.session % 2 ^ 20) + 2 ^ 84 * (t.ex % 16) + 2 ^ 88 * (t.ey % 16) + 2 ^ 92 * (t.admitted % 2 ^ 12) +
    2 ^ 104 * (t.eframe % 2 ^ 16)

/-- The token of a received descriptor. Tenant and mark are those of the own step, or what the sender's framing leaves open (log 22). -/
def Dev.descTok (d : Dev) (v : Nat) : Tok :=
  let t : Tok :=
    { pos := fld v 0 24, seg := fld v 24 16, cslot := fld v 40 12, cls := fld v 52 2, draft := bit v 54, adp := bit v 55, adapter := fld v 56 8,
      session := fld v 64 20, ex := fld v 84 4, ey := fld v 88 4, admitted := fld v 92 12, eframe := fld v 104 16 }
  let c := d.coord
  let own := if t.ex == c.x.toNat && t.ey == c.y.toNat then d.call.steps.find? fun s => s.session == t.session else none
  match own with
  | some s => { t with tenant := s.tenant, encHeld := s.encore }
  | none => { t with tenant := Config.laneTenant v, encHeld := Config.laneEncHeld v }

/-- A header unit. -/
def headerUnit (num nlanes : Nat) (empty : Bool) (units : Nat) : List Byte :=
  leBytes 3 num ++ leBytes 2 nlanes ++ [if empty then 1 else 0] ++ leBytes 4 units ++ List.replicate 6 0

/-- Lane status units, 2 bits per lane. -/
def statusUnits (st : List Nat) : List (List Byte) :=
  let n := ceilDiv st.length 64
  let v := (st.zipIdx.map fun s => s.1 * 4 ^ s.2).sum
  groups 16 n (leBytes (16 * n) v)

/-- The range of the lane map whose buffers lie at a record's WINGS (log 52); arrival ranges only for a receive. -/
def Dev.recLanes (d : Dev) (r : LinkRec) (recv : Bool) : Option LaneMap :=
  d.laneMaps.find? fun m => m.offset == r.wings.toNat && (!recv || m.kind == 1)

/-- Payload units per lane of a transfer of n lanes, from BYTES (R369). -/
def payloadUnits (bytes n : Nat) : Nat := (bytes / 16 - 1 - ceilDiv n 64 - n) / max 1 n

/-- A link record's name in an error. -/
def Dev.linkError (d : Dev) (r : LinkRec) (toks : List (Nat × Nat × Nat)) : Dev :=
  d.contain { code := 0x0605, cls := 1, kind := 5, unit := r.link.toNat, slot := r.first.toNat, cue := r.num.toNat } toks

/-! ## LINK_SEND -/

/-- LINK_SEND (R342, R369): header, lane status, descriptors and payload of the present lanes, SKIPPED for a skipped one (R170, R339);
EMPTY when there is none, and from a STRUCK device (R409). -/
def linkSend (r : LinkRec) (d : Dev) : Dev :=
  if !d.linkCues then d
  else
    let num := r.transfer.toNat
    let map := (d.recLanes r false).getD ⟨0, 0, 0, 0, 0⟩
    let lanes := (List.range map.count).map (map.first + ·)
    let per := payloadUnits r.bytes.toNat map.count
    let toks := (lanes.filter fun n => !d.frm.skipped.contains n).filterMap fun n => (d.lane n).map fun t => (n, t)
    let skip := lanes.any d.frm.skipped.contains
    if d.sys.st = .struck || (toks.isEmpty && !skip) then d.sendTransfer r.link.toNat num [headerUnit num map.count true 1]
    else match toks.findSome? fun p => d.outstanding true (d.laneBuf p.1 p.2.tenant) (16 * per) with
      | some o => d.stallOn o r.first.toNat
      | none =>
        let st := lanes.map fun n => if d.frm.skipped.contains n then 2 else if (d.lane n).isSome then 0 else 1
        let descs := toks.map fun p => leBytes 16 p.2.desc
        let (d, pay) := toks.foldl (fun (a : Dev × List (List Byte)) p =>
          let (d, bs) := a.1.wingsRd p.2 (a.1.laneBuf p.1 p.2.tenant) (16 * per) r.first.toNat r.num.toNat
          (d, a.2 ++ groups 16 per bs)) (d, [])
        let us := statusUnits st ++ descs ++ pay
        d.sendTransfer r.link.toNat num (headerUnit num map.count false (us.length + 1) :: us)
def execLinkSend (r : LinkRec) (s : State) : Host.Outcome State Fault Refusal := s.onCue (r.wf false) (linkSend r)

/-! ## Receiving a transfer -/

/-- What the receiver holds of a record's transfer. -/
inductive Got where
  | incomplete
  /-- The header names another transfer, or the stream is longer than BYTES (R369): the units to drop. -/
  | broken (us : List (List Byte)) (rest : List (List Byte))
  | whole (us : List (List Byte)) (rest : List (List Byte))

/-- The units of a transfer by index: spilled ones by their index, the others in order from the link's own stream. -/
def weave (spilled : List (Nat × List Byte)) : Nat → Nat → List (List Byte) → List (List Byte)
  | 0, _, _ => []
  | n + 1, i, rx =>
    match spilled.find? fun u => u.1 == i with
    | some u => u.2 :: weave spilled n (i + 1) rx
    | none => match rx with
      | u :: t => u :: weave spilled n (i + 1) t
      | [] => []

/-- Collect a record's transfer from its link; zero units before the header are idle (log 53). -/
def Dev.collect (d : Dev) (r : LinkRec) : Got :=
  let l := d.link r.link.toNat
  let sp := (l.rxSpill.filter fun u => u.1 == r.transfer.toNat).map Prod.snd
  let rx := l.rx.dropWhile allZero
  match (sp.find? fun u => u.1 == 0).map Prod.snd <|> rx.head? with
  | none => .incomplete
  | some h =>
    let total := if bit (leAt h 5 1) 0 then 1 else max 1 (leAt h 6 4)
    let own := total - (sp.filter fun u => decide (u.1 < total)).length
    if leAt h 0 3 != r.transfer.toNat || r.bytes.toNat < 16 * total then .broken (weave sp total 0 rx) (rx.drop own)
    else if rx.length < own then .incomplete
    else .whole (weave sp total 0 rx) (rx.drop own)

/-- Take a transfer out of the link's buffers. -/
def Dev.takeXfer (d : Dev) (r : LinkRec) (rest : List (List Byte)) : Dev :=
  d.modLink r.link.toNat fun l => { l with rx := rest, rxSpill := l.rxSpill.filter fun u => u.1 != r.transfer.toNat }

/-- The lane status of lane i (R369). -/
def laneStatus (us : List (List Byte)) (i : Nat) : Nat := fld (leNat (us.getD (1 + i / 64) [])) (2 * (i % 64)) 2

/-- Lanes of a stream: index, status, and number of its descriptor among the present ones. -/
def streamLanes (us : List (List Byte)) (n : Nat) : List (Nat × Nat × Nat) :=
  (List.range n).map fun i => (i, laneStatus us i, ((List.range i).filter fun j => laneStatus us j == 0).length)

/-- Tokens of the present lanes. -/
def Dev.streamToks (d : Dev) (us : List (List Byte)) : List (Nat × Nat × Tok) :=
  let h := us.getD 0 []
  let n := min 4096 (leAt h 3 2)
  if bit (leAt h 5 1) 0 then []
  else (streamLanes us n).filterMap fun l =>
    if l.2.1 = 0 then some (l.1, l.2.2, d.descTok (leNat (us.getD (1 + ceilDiv n 64 + l.2.2) []))) else none

/-- A broken transfer is dropped, and the steps of its present lanes are discarded (R369). -/
def Dev.dropXfer (d : Dev) (r : LinkRec) (us rest : List (List Byte)) : Dev :=
  (d.takeXfer r rest).linkError r ((d.streamToks us).map fun t => t.2.2.step)

/-- Write a received transfer: descriptors into the arrival lanes, payload into their buffers (R334, R369). A STRUCK device empties
the lanes (R409); a step that is being discarded here stays out of them (R401). -/
def Dev.arrive (d : Dev) (r : LinkRec) (us : List (List Byte)) : Dev :=
  let first := ((d.recLanes r true).getD ⟨0, 0, 1, 0, 0⟩).first
  let h := us.getD 0 []
  let empty := bit (leAt h 5 1) 0
  let n := min 4096 (leAt h 3 2)
  let toks := d.streamToks us
  let per := (us.length - 1 - ceilDiv n 64 - toks.length) / max 1 toks.length
  let base := 1 + ceilDiv n 64 + toks.length
  (streamLanes us n).foldl (fun d l =>
    let lane := first + l.1
    let d := d.modFrm fun f => { f with lanes := sdel f.lanes lane, skipped := setDel f.skipped lane }
    if empty || d.sys.st == .struck then d
    else if l.2.1 = 2 then d.modFrm fun f => { f with skipped := setIns f.skipped lane }
    else match toks.find? fun t => t.1 == l.1 with
      | some (_, k, t) =>
        if d.discarding t.step then d
        else
          (d.modFrm fun f => { f with lanes := sput f.lanes lane t }).wingsWr t (d.laneBuf lane t.tenant) (slice us (base + k * per) per).flatten
            r.first.toNat r.num.toNat
      | none => d) d

/-- The cause a late receive records (R52). -/
def Dev.lateCause (d : Dev) (link : Nat) : LateCause → Nat
  | .replay => 1
  | .lanes => 2
  | .upstream => 5
  | .onTime => if (d.link link).outage then 2 else if (d.link link).held.isEmpty then 5 else 1

/-- LINK_RECEIVE (R343, R369): the transfer is written when it is there and on time; until then its range is outstanding. -/
def linkReceive (r : LinkRec) (late : LateCause) (d : Dev) : Dev :=
  if !d.receives then d
  else
    let link := r.link.toNat
    let clear (d : Dev) : Dev := d.modFrm fun f => { f with outst := f.outst.filter fun o => o.num != r.num.toNat }
    let wait (d : Dev) : Dev :=
      let o : Outst := ⟨true, r.wings.toNat, r.wings.toNat + r.bytes.toNat, d.lateCause link late, link, r.num.toNat⟩
      let d := (clear d).modFrm fun f => { f with outst := f.outst ++ [o] }
      if late = .lanes then d.modMesh fun m => { m with short := setIns m.short (link / 12) } else d
    match d.collect r with
    | .incomplete => wait d
    | .broken us rest => clear (d.dropXfer r us rest)
    | .whole us rest => if late = .onTime then clear ((d.takeXfer r rest).arrive r us) else wait d
def execLinkReceive (r : LinkRec) (late : LateCause) (s : State) : Host.Outcome State Fault Refusal := s.onCue (r.wf false) (linkReceive r late)

/-- LINK_FORWARD (R367): the received units go out on OUT_LINK; they do not enter the wings. -/
def linkForward (r : LinkRec) (d : Dev) : Dev :=
  if !d.linkCues then d
  else match d.collect r with
    | .incomplete => d
    | .broken us rest => d.dropXfer r us rest
    | .whole us rest => (d.takeXfer r rest).sendTransfer r.outLink.toNat r.transfer.toNat us
def execLinkForward (r : LinkRec) (s : State) : Host.Outcome State Fault Refusal := s.onCue (r.wf true) (linkForward r)

/-! ## ACK and NAK -/

/-- ACK (R359): the flits it covers leave the replay buffer, and waiting flits go out. -/
def ackUnit (link last : Nat) (d : Dev) : Dev :=
  if !d.coreRuns then d
  else
    let rec_ := (d.link link).replayBuf
    match rec_.findIdx? fun f => f.1 == last with
    | some i => (d.modLink link fun l => { l with replayBuf := l.replayBuf.drop (i + 1) }).drainTx link
    | none => d
def execAck (link : Fin 48) (last : BitVec 16) (s : State) : Host.Outcome State Fault Refusal := s.onDev (ackUnit link.val last.toNat)

/-- NAK (R359): REPLAY, which does not advance the count, and the failed flit unchanged. -/
def nakUnit (link failed : Nat) (d : Dev) : Dev :=
  if !d.coreRuns then d
  else match (d.link link).replayBuf.find? fun f => f.1 == failed with
    | some f => ((d.meshCount link 3).emit (.unit link (.replay (BitVec.ofNat 16 failed)))).emit (.resend link f.2)
    | none => d
def execNak (link : Fin 48) (failed : BitVec 16) (s : State) : Host.Outcome State Fault Refusal := s.onDev (nakUnit link.val failed.toNat)

/-- REPLAY (R359): the next flit is the resent one. -/
def replayUnit (link count : Nat) (d : Dev) : Dev :=
  if d.coreRuns then d.modLink link fun l => { l with replayNext := some count } else d
def execReplay (link : Fin 48) (count : BitVec 16) (s : State) : Host.Outcome State Fault Refusal := s.onDev (replayUnit link.val count.toNat)

/-- SPILL (R372): the run that the flit's data units begin with. -/
def spillUnit (link : Nat) (u : SpillInfo) (d : Dev) : Dev :=
  if d.coreRuns then d.modLink link fun l => { l with runs := l.runs ++ [u] } else d
def execSpill (link : Fin 48) (u : SpillInfo) (s : State) : Host.Outcome State Fault Refusal := s.onDev (spillUnit link.val u)

end Sys2Proof.Machine
end

