-- ==== Sys2Proof/Machine/Flits.lean ====
section
/-! DEFINITION. FLIT_RECEIVE (R357 to R359): a flit's kind, its count, failures and replays, the units it carries. -/
namespace Sys2Proof.Machine

/-- Act on a control unit (R358, R360). -/
def runUnit (link : Nat) (t : Nat) (d : Dev) : CtlUnit → Dev
  | .tick u => tick link u t d
  | .done u => done link u d
  | .echo n => echo link n d
  | .echoReply _ turn => echoReply link turn.toNat ((t - (d.link link).echoAt) * 100) d
  | .ack n => ackUnit link n.toNat d
  | .nak n => nakUnit link n.toNat d
  | .replay n => replayUnit link n.toNat d
  | .spill u => spillUnit link u d
  | .lane u => laneUnit link u d
  | .freeze u => if (d.link link).working then d.remoteFreeze u t else d
  | .thaw u => if (d.link link).working then d.remoteThaw u t else d
  | .curtain g => curtainUnit link g d
  | .drained => drainedUnit link d
  | .rewrite => rewrite link d
  | .curtainReady f c => curtainReady link f c d
  | .raise h => raiseUnit link h d
  | .unload g => unloadUnit link g d
  | .stop f => stopUnit link f d
  | .park g => parkUnit link g d
  | .wake c => wake link c d
  | .awake => awake link d
  | .hello u => hello link u d
  | .discover h p g r => discover link h p.toNat g r d
  | .report u => reportUnit link u d
  | .herd u => herd link u d
  | .rediscover u => rediscover link u d
  | .reserved _ => reservedUnit link d

/-- The 32 units of a body. -/
def flitUnits (f : Flit) : List (List Byte) := (List.range 32).map fun i => slice f.body (16 * i) 16

/-- A body whose CRC matches under the control value (R357). -/
def Flit.isControl (f : Flit) : Bool := f.crc == flitCrc true f.body
def Flit.isData (f : Flit) : Bool := f.crc == flitCrc false f.body

/-- Units in the runs that SPILL named go to the links they belong to (R358, R372); answers what is left. -/
def takeRuns : List SpillInfo → List (List Byte) → List (Nat × Nat × Nat × List Byte) × List (List Byte)
  | [], us => ([], us)
  | r :: t, us =>
    let n := r.units.toNat
    let mine := (us.take n).zipIdx.map fun u => (r.link.toNat, r.transfer.toNat, r.first.toNat + u.2, u.1)
    let rest := takeRuns t (us.drop n)
    (mine ++ rest.1, rest.2)

/-- Data units: the named runs, then the link's own stream; a control flit whose other units are all zero carries none (log 53). -/
def Dev.dataUnits (d : Dev) (link : Nat) (control : Bool) (us : List (List Byte)) : Dev :=
  let (runs, own) := takeRuns (d.link link).runs us
  let d := runs.foldl (fun d r =>
    (d.modLink r.1 fun l => { l with rxSpill := l.rxSpill ++ [(r.2.1, r.2.2.1, r.2.2.2)] }).meshCount r.1 8) d
  d.modLink link fun l => { l with runs := [], rx := if control && own.all allZero then l.rx else l.rx ++ own }

/-- The control units of a control flit (R358). -/
def Flit.control (f : Flit) : List CtlUnit :=
  if f.isControl then (((flitUnits f).drop 1).take (min 31 (leAt f.body 0 1))).map parseUnit else []

/-- Process a flit: its control units in order, then its data units (R358). -/
def Dev.processFlit (d : Dev) (link t : Nat) (f : Flit) : Dev :=
  let us := flitUnits f
  if f.isControl then
    let n := min 31 (leAt f.body 0 1)
    (f.control.foldl (runUnit link t) d).dataUnits link true (us.drop (n + 1))
  else d.dataUnits link false us

/-- A flit in order is counted for ACK, which goes out once every 16 flits (R359). -/
def Dev.countFlit (d : Dev) (link count : Nat) : Dev :=
  let n := (d.link link).sinceAck + 1
  if n < 16 then d.modLink link fun l => { l with sinceAck := n }
  else (d.modLink link fun l => { l with sinceAck := 0 }).sendUnit link (.ack (BitVec.ofNat 16 count))

/-- A flit with a REPLAY among its control units, which does not advance the count (R359). -/
def Flit.isReplay (f : Flit) : Bool := f.control.any fun u => match u with | .replay _ => true | _ => false

/-- NAK names the failed flit. -/
def Dev.sendNak (d : Dev) (link count : Nat) : Dev := d.sendUnit link (.nak (BitVec.ofNat 16 count))

/-- Held flits up to the next failed one are processed in order. -/
def Dev.drainHeld (d : Dev) (link t : Nat) : Dev :=
  let h := (d.link link).held
  let ready := h.takeWhile fun x => x.2.1.isSome
  let d := d.modLink link fun l => { l with held := h.drop ready.length }
  ready.foldl (fun d x => match x.2.1 with | some f => (d.countFlit link x.1).processFlit link t f | none => d) d

/-- The resent flit of count c: it fills its place, or fails again; the fourth failure takes the link down (R359). -/
def Dev.resentFlit (d : Dev) (link t c : Nat) (f : Option Flit) : Dev :=
  let d := d.modLink link fun l => { l with replayNext := none }
  match f with
  | some f =>
    let d := (d.meshCount link 4).modLink link fun l => { l with held := l.held.map fun x => if x.1 = c then (c, some f, x.2.2) else x }
    d.drainHeld link t
  | none =>
    let n := ((d.link link).held.find? fun x => x.1 == c).elim 0 fun x => x.2.2 + 1
    let d := d.modLink link fun l => { l with held := l.held.map fun x => if x.1 = c then (c, none, n) else x }
    if 4 ≤ n then d.linkDown link else d.sendNak link c

/-- FLIT_RECEIVE: `corrected` symbols of its codewords were corrected (R356). A body cut short or overlong fails its check. -/
def flitReceive (link : Nat) (f : Flit) (corrected : Nat) (uncorrectable : Bool) (t : Nat) (d : Dev) : Dev :=
  let l := d.link link
  if !d.coreRuns || !(l.working || l.st == 1) then d
  else
    let good := !uncorrectable && f.body.length == 512 && (f.isControl || f.isData)
    let d := d.modMesh fun m => { m with cnt := smod m.cnt (16 * link) 0 fun n => bumpBy n corrected }
    let d := if uncorrectable then d.meshCount link 1 else if good then d else d.meshCount link 2
    match l.replayNext with
    | some c => d.resentFlit link t c (if good then some f else none)
    | none =>
      let c := l.rxCount
      let next (d : Dev) : Dev := d.modLink link fun l => { l with rxCount := (c + 1) % 65536 }
      if good then
        if f.isReplay then d.processFlit link t f
        else if l.held.isEmpty then ((next d).countFlit link c).processFlit link t f
        else (next d).modLink link fun l => { l with held := l.held ++ [(c, some f, 0)] }
      else ((next d).modLink link fun l => { l with held := l.held ++ [(c, none, 1)] }).sendNak link c

def execFlitReceive (link : Fin 48) (body : List Byte) (crc : BitVec 16) (corrected : Nat) (uncorrectable : Bool) (t : Nat) (s : State) :
    Host.Outcome State Fault Refusal :=
  s.onDev (flitReceive link.val ⟨body, crc⟩ corrected uncorrectable t)

end Sys2Proof.Machine
end

