-- ==== Sys2Proof/Machine/History.lean ====
section
/-! DEFINITION. The error unit's host commands (R405, R410, R417, R418, R421) and history's own work: the hourly commit (R405) and
the decay of scores (R406). -/
namespace Sys2Proof.Machine

/-- ERR_RING_HEAD_WRITE (R418): records are consumed, and held ones copied while there is room. -/
def errRingHeadWrite (count : Word) (d : Dev) : Dev := if d.up then d.modErr fun e => e.advance count else d
def execErrRingHeadWrite (count : Word) (s : State) : Host.Outcome State Fault Refusal := s.onDev (errRingHeadWrite count)

/-- ERR_STACK_CLR_FATAL (R417, R421): ignored while fatal handling runs. -/
def errStackClrFatal (d : Dev) : Dev :=
  if d.up && !d.inFatal then d.modErr fun e => { e with stack := sdel (sdel e.stack 14) 15 } else d
def execErrStackClrFatal (s : State) : Host.Outcome State Fault Refusal := s.onDev errStackClrFatal

/-- ERR_CNT_CLR (R421): ERR_CNT and WORST, which ALERT_N follows (R486). -/
def errCntClr (d : Dev) : Dev := if d.up then Dev.settle d (d.modErr fun e => { e with cnt := [], worst := 0 }) else d
def execErrCntClr (s : State) : Host.Outcome State Fault Refusal := s.onDev errCntClr

/-- ERR_HIST_COMMIT (R405). -/
def errHistCommit (d : Dev) : Dev := if d.up then d.commitHistory else d
def execErrHistCommit (s : State) : Host.Outcome State Fault Refusal := s.onDev errHistCommit

/-- A unit kind that has spares (R408): link, array, link lane. -/
def spareKind (key : Nat) : Bool := key / 2 ^ 18 == 5 || key / 2 ^ 18 == 10 || key / 2 ^ 18 == 11

/-- Verdicts return to none, but for those of units that use a spare (R410). -/
def clearVerdicts (h : Sparse Hist) : Sparse Hist :=
  h.map fun x => (x.1, if spareKind x.1 && x.2.verdict == 2 then x.2 else { x.2 with verdict := 0 })

/-- CLEAR_STRUCK (R410): in MANUFACTURE and VENDOR_DEBUG only. The device stays STRUCK until a start-up (log 68). -/
def clearStruck (d : Dev) : Dev :=
  if d.up && (d.sec.st == .manufacture || d.sec.st == .vendorDebug) then
    d.modErr fun e => { e with struck := false, hist := clearVerdicts e.hist, histSaved := clearVerdicts e.histSaved }
  else d
def execClearStruck (s : State) : Host.Outcome State Fault Refusal := s.onDev clearStruck

/-- HISTORY_HOURLY_COMMIT: one more powered hour (R406, R407), and the commit of R405 while the Stage Manager runs. -/
def historyHourlyCommit (d : Dev) : Dev :=
  if d.sys.st = .off then d
  else
    let d := d.modErr fun e =>
      { e with hoursUp := e.hoursUp + 1, hoursOn := e.hoursOn + 1, hist := e.hist.map fun h => (h.1, { h.2 with hours := bump h.2.hours }),
               locs := e.locs.map fun l => { l with hours := bump l.hours } }
    if d.up then d.commitHistory else d
def execHistoryHourlyCommit (s : State) : Host.Outcome State Fault Refusal := s.onDev historyHourlyCommit

/-- The score halves when the powered hours since the last event reach a multiple of 168 (R406). -/
def halves (hours : Nat) : Bool := hours != 0 && hours % 168 == 0

/-- HISTORY_SCORE_DECAY: of a unit, or for kind 17 of an entry of the recent-location table. -/
def historyScoreDecay (kind unit : Nat) (d : Dev) : Dev :=
  if d.sys.st = .off then d
  else if kind = 17 then
    d.modErr fun e => { e with locs := e.locs.zipIdx.map fun l => if l.2 = unit && halves l.1.hours then { l.1 with score := l.1.score / 2 } else l.1 }
  else
    match sget d.err.hist (histKey kind unit) with
    | some h => if halves h.hours then d.modErr fun e => { e with hist := sput e.hist (histKey kind unit) { h with score := h.score / 2 } } else d
    | none => d
def execHistoryScoreDecay (kind : BitVec 5) (unit : BitVec 18) (s : State) : Host.Outcome State Fault Refusal :=
  s.onDev (historyScoreDecay kind.toNat unit.toNat)

end Sys2Proof.Machine
end

