-- ==== Sys2Proof/Machine/Security.lean ====
section
/-! DEFINITION. Debug level (R463), firmware updates (R453), re-lease (R459), security states (R461, R462, R464) and the DOE mailbox
(R394, R455 to R458). -/
namespace Sys2Proof.Machine

/-! ## Access -/

/-- BAR0 serves the GEN, HOST and SEC blocks: out of reset, clocked, past BOOT (R384, R455, R466). -/
def Dev.barOk (d : Dev) : Bool := d.coreRuns && d.sys.st != .boot

/-- The DOE mailbox answers: the host link is up (R394). -/
def Dev.doeOk (d : Dev) : Bool := d.barOk && d.host.up

/-! ## Debug level (R463) -/

/-- SEC_DBG_LEVEL: above SEC_STATUS.MAX ignored. -/
def secDbgLevel (level : BitVec 2) (d : Dev) : Dev :=
  if d.barOk && decide (level.toNat ≤ d.sec.max) then d.modSec fun s => { s with level := level.toNat } else d
def execSecDbgLevel (level : BitVec 2) (s : State) : Host.Outcome State Fault Refusal := s.onDev (secDbgLevel level)

/-- LOCKED: at most D1 (R461, R463). -/
def Sec.toLocked (s : Sec) : Sec := { s with st := .locked, max := 1, level := min s.level 1 }

/-- SEC_DBG_EXIT (R462). -/
def secDbgExit (d : Dev) : Dev := if d.barOk && d.sec.st == .ownerDebug then d.modSec Sec.toLocked else d
def execSecDbgExit (s : State) : Host.Outcome State Fault Refusal := s.onDev secDbgExit

/-! ## Firmware updates (R453, R476) -/

/-- A write of SEC_FW_CTRL sets KIND and UNITS; UNITS outside 1 to 256 is reserved (R10). -/
def Sec.fwFields (s : Sec) (kind : Bool) (units : BitVec 9) : Sec :=
  { s with fwKind := kind, fwUnits := if 1 ≤ units.toNat && units.toNat ≤ 256 then units else s.fwUnits }

/-- The first 4,096 × n bytes of SEC_FW_WIN. -/
def Sec.winBytes (s : Sec) (n : Nat) : List Byte := (List.range (1024 * n)).flatMap fun i => leBytes 4 (sgetD s.win i 0).toNat

def Dev.fwErr (d : Dev) (cause : Nat) : Dev := d.modSec fun s => { s with fwErr := true, fwCause := cause }

/-- In DARK only Box Office images are accepted; an image is of one kind. -/
def Sec.kindOk (s : Sec) (kind : Bool) : Bool := !(kind && s.st == .dark) && (s.buffer.isEmpty || s.bufKind == kind)

/-- FW_APPEND: STAGED counts at most 4,095 units. -/
def fwAppend (kind : Bool) (units : BitVec 9) (d : Dev) : Dev :=
  if !d.barOk then d
  else
    let d := d.modSec fun s => s.fwFields kind units
    let n := d.sec.fwUnits.toNat
    if !d.sec.kindOk kind then d.fwErr 1
    else if n = 0 || 4095 < d.sec.buffer.length / 4096 + n then d.fwErr 6
    else d.modSec fun s => { s with buffer := s.buffer ++ s.winBytes n, bufKind := kind }
def execFwAppend (kind : Bool) (units : BitVec 9) (s : State) : Host.Outcome State Fault Refusal := s.onDev (fwAppend kind units)

/-- The cause that refuses the buffered image, 0 for none (R451, R453). -/
def Sec.fwRefusal (s : Sec) (kind vprogOk : Bool) : Nat :=
  let want := if kind then 2 else 1
  let floor := if kind then s.floorSm.toNat else s.floorBo.toNat
  let len := leAt s.buffer 0x14 4
  if !s.kindOk kind then 1
  else if !fwHeaderOk (slice s.buffer 0 256) then 2
  else if leAt s.buffer 4 4 != want then 1
  else if fwMaxBody want < len || s.buffer.length < 256 + len + 3309 then 6
  else match parseFw s.buffer with
    | none => 2
    | some i =>
      if !i.signed then 3
      else if !i.digestOk then 4
      else if i.svn < floor then 5
      else if !vprogOk then 7
      else 0

/-- Bytes of the image that the buffer begins with. -/
def Sec.fwImage (s : Sec) : List Byte := s.buffer.take (256 + leAt s.buffer 0x14 4 + 3309)

/-- FW_COMMIT: the slot of the kind that did not boot is programmed. The update buffer is emptied by CANCEL alone (log 69). -/
def fwCommit (kind vprogOk : Bool) (d : Dev) : Dev :=
  if !d.barOk then d
  else
    let d := d.modSec fun s => { s with fwKind := kind }
    match d.sec.fwRefusal kind vprogOk with
    | 0 =>
      d.modSec fun s =>
        let i := s.fwImage
        let s := { s with fwDone := true, fwCause := 0 }
        if kind then (if s.smSlot then { s with smA := i } else { s with smB := i }) else if s.boSlot then { s with boA := i } else { s with boB := i }
    | c => d.fwErr c
def execFwCommit (kind vprogOk : Bool) (s : State) : Host.Outcome State Fault Refusal := s.onDev (fwCommit kind vprogOk)

/-- FW_CANCEL. -/
def fwCancel (d : Dev) : Dev := if d.barOk then d.modSec fun s => { s with buffer := [] } else d
def execFwCancel (s : State) : Host.Outcome State Fault Refusal := s.onDev fwCancel

/-! ## Clearing (R459, R462) -/

/-- An array reset to level 0; the reset counts under R297. -/
def Arr.released (x : Arr) : Arr :=
  { role := if x.role = 2 then 1 else x.role, pslot := x.pslot, rowMap := x.rowMap, worn := x.worn,
    writes := if x.writes + 1 < 2 ^ 20 then x.writes + 1 else 2 ^ 20 - 1, failed := x.failed, failedRow := x.failedRow,
    suspended := x.suspended }

/-- Every compute array is reset; WORN at 45,000, and an understudy retired at 50,000 (R297). -/
def Dev.releaseArrays (d : Dev) : Dev :=
  let arrs := (List.range 139264).map fun a => (a, (d.tile.arr a).released)
  let d := d.modTile fun t =>
    { t with arrs := arrs, cells := [], census := [], kinds := [], censusPr := [], censusScales := [], censusBad := [], heldLayers := [], prBad := [],
             progCnt := smod t.progCnt 9 0 fun n => bumpBy n 139264 }
  let d := (arrs.filter fun a => decide (45000 ≤ a.2.writes) && !a.2.worn).foldl (fun d a =>
    (d.modArr a.1 fun x => { x with worn := true }).arrayError 0x020A 0 a.1 [] none 0 false) d
  (arrs.filter fun a => a.2.role == 1 && decide (50000 ≤ a.2.writes)).foldl (fun d a => d.retire a.1) d

/-- All SRAM and HBM are zeroed, and with them the script and everything that lives in device memory. -/
def Dev.clearMemory (d : Dev) : Dev :=
  let d := (d.endFrames d.openLen).unloadScript
  let d := d.modMem fun m => { m.zeroAll with spill := [], owner := [] }
  let d := d.modCall fun c => { c with cache := [], summary := [], ready := [], init := [], empty := [], again := [] }
  d.modErr fun e => { e with ring := [] }

/-- The error ring and the record stack are emptied. -/
def Err.emptied (e : Err) : Err := { e with stack := [], ring := [], head := e.tail, held := [], logFull := false }

/-- The re-lease of R459 but for the keys. -/
def Dev.reLease (d : Dev) : Dev :=
  let d := d.clearMemory.releaseArrays
  let d := d.modWts fun w => { w with epoch := 0, lastDigest := [], cur := none, next := none, own := [], ownBegun := [], job := none }
  (d.modMesh fun m => { m with herd := 0xFF, x := 0, y := 0 }).modErr Err.emptied

/-- Entry to VENDOR_DEBUG: arrays and manifests are kept (R462); an owner debug session ends, so the level is at most D1 (R463). -/
def Dev.enterVendor (d : Dev) : Dev :=
  let d := d.clearMemory
  (d.modTile fun t => { t with census := [], censusPr := [] }).modSec fun s => { s with st := .vendorDebug, max := 3, level := min s.level 1 }

/-! ## DOE mailbox -/

/-- An attestation object: header and body (R457). -/
def doeObject (code : Nat) (tag : Byte) (body : List Byte) : List Byte :=
  [1, BitVec.ofNat 8 code, tag, 0] ++ leBytes 4 body.length ++ body

def Dev.doeReply (d : Dev) (code : Nat) (tag : Byte) (body : List Byte) : Dev :=
  (d.modHost fun h => { h with doeResp := doeObject code tag body }).emit (.doe (doeObject code tag body))

def Dev.doeError (d : Dev) (tag : Byte) (cause : Nat) : Dev := d.doeReply 0xFF tag [BitVec.ofNat 8 cause]
def Dev.doeDone (d : Dev) (tag : Byte) : Dev := d.doeReply 0x83 tag []

/-- GET_IDENTITY (R457): ERROR 4 when the protected part has failed (R456). -/
def getIdentity (tag : Byte) (d : Dev) : Dev :=
  if !d.doeOk then d
  else if !d.sec.protectedOk then d.doeError tag 4
  else d.doeReply 0x81 tag (Config.identityKey ++ Config.certificate)
def execGetIdentity (tag : Byte) (s : State) : Host.Outcome State Fault Refusal := s.onDev (getIdentity tag)

/-- GEN_ID (R12). -/
def genId : Nat := 0x1648 + 2 ^ 16 * gradeCode + 2 ^ 20 * Config.stepping.toNat
/-- GEN_COMPAT (R12). -/
def Sys.compat (s : Sys) : Nat := s.boLevel.toNat + 2 ^ 8 * s.smLevel.toNat + 2 ^ 16 * s.dieLevel.toNat + 2 ^ 24 * s.abiLevel.toNat
/-- SEC_STATUS.STATE (R476). -/
def SecState.code : SecState → Nat
  | .manufacture => 0 | .locked => 1 | .ownerDebug => 2 | .vendorDebug => 3 | .dark => 4 | .notYet => 7

/-- A field of n bytes, padded with zeros. -/
def padTo (n : Nat) (bs : List Byte) : List Byte := bs.take n ++ List.replicate (n - bs.length) 0

/-- The measurement block of R458. -/
def Dev.measureBlock (d : Dev) (nonce : List Byte) : List Byte :=
  let s := d.sec
  leBytes 4 0x4D454153
  ++ leBytes 4 (s.st.code + 2 ^ 4 * s.level + 2 ^ 8 * d.sys.st.code + 2 ^ 12 * s.dhCause)
  ++ leBytes 4 genId ++ leBytes 4 d.sys.compat ++ leBytes 4 s.bootCount.toNat ++ leBytes 4 d.wts.epoch
  ++ padTo 32 s.boDigest ++ padTo 32 (if s.smRun then s.smDigest else []) ++ padTo 32 Config.calWord
  ++ padTo 32 (match d.scr.script with | some sc => sc.id | none => [])
  ++ padTo 32 (match d.wts.cur with | some m => m.digest | none => [])
  ++ padTo 32 (match s.owner with | some k => shake256 (k.script ++ k.debug) | none => [])
  ++ padTo 40 nonce

/-- GET_MEASURE (R457): a nonce of 32 bytes. -/
def getMeasure (tag : Byte) (nonce : List Byte) (d : Dev) : Dev :=
  if !d.doeOk then d
  else if nonce.length != 32 then d.doeError tag 1
  else if !d.sec.protectedOk then d.doeError tag 4
  else
    let b := d.measureBlock nonce
    d.doeReply 0x82 tag (b ++ Config.identitySign b)
def execGetMeasure (tag : Byte) (nonce : List Byte) (s : State) : Host.Outcome State Fault Refusal := s.onDev (getMeasure tag nonce)

/-- The bytes a signed request's signature covers (log 70). -/
def DoeAuth.message (a : DoeAuth) (code : Nat) (body : List Byte) : List Byte :=
  BitVec.ofNat 8 code :: body ++ a.digest ++ leBytes 4 a.bootCount.toNat

/-- The request names this device's identity and its current start-up (R457). -/
def Dev.bound (d : Dev) (a : DoeAuth) : Bool := a.digest == shake256 Config.identityKey && a.bootCount == d.sec.bootCount

/-- What a signed request finds: 2 state, 3 signature, 5 binding, 0 nothing wrong (R457; log 70). -/
def Dev.doeCause (d : Dev) (a : DoeAuth) (stateOk signed : Bool) : Nat :=
  if !stateOk then 2 else if !signed then 3 else if !d.bound a then 5 else 0

/-- A signed request runs; in DARK the ROM answers only codes 0x01 and 0x02 (R457). -/
def Dev.doeSigned (d : Dev) (a : DoeAuth) (stateOk signed : Bool) (effect : Dev → Dev) : Dev :=
  if !d.doeOk || d.sec.st == .dark then d
  else
    match d.doeCause a stateOk signed with
    | 0 => (effect d).doeDone a.tag
    | c => d.doeError a.tag c

/-- LOCK (R457, R462): MANUFACTURE to LOCKED. -/
def lock (a : DoeAuth) (d : Dev) : Dev :=
  d.doeSigned a (d.sec.st == .manufacture && d.sys.st == .ready) (Config.mldsaVerify Config.vendorKey (DoeAuth.message a 0x03 []) a.sig) fun d =>
    d.reLease.modSec fun s => { s.toLocked with persistMan := false }
def execLock (a : DoeAuth) (s : State) : Host.Outcome State Fault Refusal := s.onDev (lock a)

/-- OWNER_CLAIM (R457): an unowned device takes an owner, who signs with the new debug key. -/
def ownerClaim (a : DoeAuth) (keys : OwnerKeys) (d : Dev) : Dev :=
  d.doeSigned a (d.sec.st == .locked && d.sec.owner.isNone && d.sys.st == .ready)
    (Config.mldsaVerify keys.debug (DoeAuth.message a 0x04 (keys.script ++ keys.debug)) a.sig) fun d =>
      d.reLease.modSec fun s => { s with owner := some keys }
def execOwnerClaim (a : DoeAuth) (keys : OwnerKeys) (s : State) : Host.Outcome State Fault Refusal := s.onDev (ownerClaim a keys)

/-- The owner's debug key, empty when the device is unowned. -/
def Sec.debugKey (s : Sec) : List Byte := match s.owner with | some k => k.debug | none => []

/-- OWNER_TRANSFER (R457, R462): signed with the current debug key; the debug session ends. -/
def ownerTransfer (a : DoeAuth) (keys : Option OwnerKeys) (d : Dev) : Dev :=
  let body := match keys with | some k => k.script ++ k.debug | none => []
  d.doeSigned a ((d.sec.st == .locked || d.sec.st == .ownerDebug) && d.sec.owner.isSome && d.sys.st == .ready)
    (Config.mldsaVerify d.sec.debugKey (DoeAuth.message a 0x05 body) a.sig) fun d =>
      d.reLease.modSec fun s => { s.toLocked with owner := keys }
def execOwnerTransfer (a : DoeAuth) (keys : Option OwnerKeys) (s : State) : Host.Outcome State Fault Refusal := s.onDev (ownerTransfer a keys)

/-- DEBUG_TOKEN (R462 to R464): an owner token in LOCKED opens OWNER_DEBUG up to its level, D1 or D2; a vendor token needs both
signatures, in READY or STRUCK. In DARK_HOUSE the level stays at most D1 (R455). -/
def debugToken (a : DoeAuth) (vendor : Bool) (level : BitVec 2) (d : Dev) : Dev :=
  let msg := DoeAuth.message a 0x06 [BitVec.ofNat 8 (b2n vendor + 2 * level.toNat)]
  let own := d.sec.owner.isSome && Config.mldsaVerify d.sec.debugKey msg a.sig
  if vendor then
    d.doeSigned a ((d.sec.st == .locked || d.sec.st == .ownerDebug) && d.sec.owner.isSome && (d.sys.st == .ready || d.sys.st == .struck))
      (own && Config.mldsaVerify Config.vendorKey msg a.sig2) Dev.enterVendor
  else
    d.doeSigned a (d.sec.st == .locked && d.sec.owner.isSome && (level == 1 || level == 2)) own fun d =>
      d.modSec fun s => { s with st := .ownerDebug, max := if d.sys.st = .darkHouse then 1 else level.toNat }
def execDebugToken (a : DoeAuth) (vendor : Bool) (level : BitVec 2) (s : State) : Host.Outcome State Fault Refusal :=
  s.onDev (debugToken a vendor level)

/-- UNLOCK (R457, R462): VENDOR_DEBUG to MANUFACTURE, the owner keys cleared. -/
def unlock (a : DoeAuth) (d : Dev) : Dev :=
  d.doeSigned a (d.sec.st == .vendorDebug && (d.sys.st == .ready || d.sys.st == .struck))
    (Config.mldsaVerify Config.vendorKey (DoeAuth.message a 0x07 []) a.sig) fun d =>
      d.reLease.modSec fun s => { s with st := .manufacture, max := 3, persistMan := true, owner := none }
def execUnlock (a : DoeAuth) (s : State) : Host.Outcome State Fault Refusal := s.onDev (unlock a)

/-- DOE_ABORT (R394): the request and any partial response are discarded; Error clears, as DOE has it (log 65). -/
def doeAbort (d : Dev) : Dev := if d.doeOk then d.modHost fun h => { h with doeResp := [], doeErr := false } else d
def execDoeAbort (s : State) : Host.Outcome State Fault Refusal := s.onDev doeAbort

/-- One entry of the discovery list: vendor, object type, next index (log 65). -/
def discoveryEntry (index : Byte) : List Byte :=
  if index = 0 then [0x01, 0x00, 0x00, 0x01]
  else if index = 1 then leBytes 2 Config.vendorId.toNat ++ [0x01, 0x00]
  else [0xFF, 0xFF, 0x00, 0x00]

/-- DOE_DISCOVERY (R394): data object type 0; a larger request or one of another type is discarded with DOE Error. -/
def doeDiscovery (index type : Byte) (length : Nat) (d : Dev) : Dev :=
  if !d.doeOk then d
  else if type != 0 || 65536 < length then d.modHost fun h => { h with doeErr := true }
  else (d.modHost fun h => { h with doeResp := discoveryEntry index }).emit (.doe (discoveryEntry index))
def execDoeDiscovery (index type : Byte) (length : Nat) (s : State) : Host.Outcome State Fault Refusal := s.onDev (doeDiscovery index type length)

end Sys2Proof.Machine
end

