-- ==== Sys2Proof/Machine/Holds.lean ====
section
/-! DEFINITION. The device's own freeze sources: the FREEZE_N pin (R468, R483) and the freeze command (R466, R468, R477). -/
namespace Sys2Proof.Machine

/-- FREEZE_N_ASSERT: after 1 µs low; a shorter one is counted. Ignored while reset is asserted (R481) but for the level of the pin. -/
def freezeNAssert (lowNs t : Nat) (d : Dev) : Dev :=
  if d.sys.st = .off then d
  else if lowNs < 1000 then if d.inReset then d else d.modSys fun s => { s with glFreeze := bumpW 8 s.glFreeze }
  else if d.sys.freezeN then d
  else
    let d := d.modSys fun s => { s with freezeN := true }
    if d.barOk then d.engage 1 t fun b => { b with holdPin := true } else d
def execFreezeNAssert (lowNs : Nat) (t : Nat) (s : State) : Host.Outcome State Fault Refusal := s.onDev (freezeNAssert lowNs t)

/-- FREEZE_N_RELEASE: after 10 µs stable high; otherwise the hold stays engaged. -/
def freezeNRelease (highNs t : Nat) (d : Dev) : Dev :=
  if d.sys.st = .off || highNs < 10000 || !d.sys.freezeN then d
  else
    let d := d.modSys fun s => { s with freezeN := false }
    if d.dbg.holdPin then d.release t fun b => { b with holdPin := false } else d
def execFreezeNRelease (highNs : Nat) (t : Nat) (s : State) : Host.Outcome State Fault Refusal := s.onDev (freezeNRelease highNs t)

/-- DBG_FREEZE: needs D2. -/
def dbgFreeze (t : Nat) (d : Dev) : Dev :=
  if d.up && decide (2 ≤ d.sec.level) then d.engage 2 t fun b => { b with holdCmd := true } else d
def execDbgFreeze (t : Nat) (s : State) : Host.Outcome State Fault Refusal := s.onDev (dbgFreeze t)

/-- The command, hazard and JTAG holds are released. -/
def Dev.thaw (d : Dev) (t : Nat) : Dev := d.release t fun b => { b with holdCmd := false, holdHazard := false, holdJtag := false }

/-- DBG_THAW. -/
def dbgThaw (t : Nat) (d : Dev) : Dev := if d.up then d.thaw t else d
def execDbgThaw (t : Nat) (s : State) : Host.Outcome State Fault Refusal := s.onDev (dbgThaw t)

end Sys2Proof.Machine
end

