-- ==== Sys2Proof/Machine/MemCue.lean ====
section
/-! DEFINITION. Memory cues (R341, R343, R345, R351): HBM_RD is issued, its data arrives, HBM_WR. -/
namespace Sys2Proof.Machine

/-- Bytes an HBM cue moves. -/
def hbmBytes (c : HbmCue) : Nat := 64 * c.len.toNat

/-- Device memory that an HBM cue names; none beyond device memory. -/
def hbmInside (c : HbmCue) : Bool := decide (c.addr.toNat + hbmBytes c ≤ hbmEnd)

/-- The token an HBM cue serves. A cue of LANE 0 whose lane is empty, with a fixed target, serves no lane (R332); its accesses to the wings
carry the tenant partition of the bank it names, and none of a tenant where that is COMMON or unassigned (DESIGN CHOICE, log 113). -/
def Dev.hbmTok (d : Dev) (c : HbmCue) : Option Tok :=
  match d.lane c.lane.toNat with
  | some t => some t
  | none =>
    if c.lane = 0 && c.tkind != .laneBuf then
      let o := d.bankOwner c.target.toNat
      some { seg := 65535, tenant := if c.tkind == .wings && o < 16 then o else 17 }
    else none

/-- Target of the cue: wings or local buffer, and its address. -/
def Dev.hbmPlace (d : Dev) (c : HbmCue) (t : Tok) : Bool × Nat :=
  match c.tkind with
  | .wings => (true, wordAddr c.target.toNat)
  | .laneBuf => (true, wordAddr (d.laneBuf c.lane.toNat t.tenant + c.target.toNat))
  | .localBuf => (false, localKey c.engine.toNat c.target.toNat)

/-- HBM_RD: the target range is outstanding until the data is written; a target that overlaps an outstanding range stalls (R343). -/
def hbmRd (c : HbmCue) (d : Dev) : Dev :=
  if !d.linkCues then d
  else match d.hbmTok c with
    | none => d
    | some t =>
      let p := d.hbmPlace c t
      let o : Outst := ⟨p.1, p.2, p.2 + hbmBytes c, 0, hbmChannel c.addr.toNat, c.num.toNat⟩
      match d.outstanding p.1 p.2 (hbmBytes c) with
      | some w => d.stallOn w c.slot.toNat
      | none => d.modFrm fun f => { f with outst := f.outst ++ [o] }

def execHbmRd (c : HbmCue) (s : State) : Host.Outcome State Fault Refusal :=
  if !c.wf then .refused .illFormed else if !hbmInside c then .fault .noSuchAddress else s.onDev (hbmRd c)

/-- Write bytes that a memory cue moves; a granule takes no partition from it (R200). -/
def Dev.hbmStore (d : Dev) (c : HbmCue) (t : Tok) (bs : List Byte) : Dev :=
  let p := d.hbmPlace c t
  if p.1 then d.wingsWr t p.2 bs c.slot.toNat c.num.toNat
  else (d.modMem fun m => { m with localBuf := wrN m.localBuf p.2 bs }).tagWrite 2 (granulesOf p.2 bs.length) c.num.toNat

/-- The data of an outstanding read arrives: what its codewords hold is written, an uncorrectable one has its region's effect,
and the range is no longer outstanding (R343, R204). A read that was not issued has nothing to deliver. -/
def hbmRdDeliver (c : HbmCue) (found : List SymErrs) (d : Dev) : Dev :=
  match d.hbmTok c with
  | none => d.modFrm fun f => { f with outst := f.outst.filter fun o => o.num != c.num.toNat }
  | some t =>
    let p := d.hbmPlace c t
    let mine (o : Outst) : Bool := o.num == c.num.toNat && o.wings == p.1 && o.lo == p.2
    if !d.coreRuns || !d.frm.outst.any mine then d
    else
      let (d, _) := d.readHbm c.addr.toNat (hbmBytes c) found c.slot.toNat c.num.toNat t.steps
      let d := d.hbmStore c t (d.hbmRd c.addr.toNat (hbmBytes c))
      d.modFrm fun f => { f with outst := f.outst.filter fun o => !mine o }

def execHbmRdDeliver (c : HbmCue) (found : List SymErrs) (s : State) : Host.Outcome State Fault Refusal :=
  if !c.wf then .refused .illFormed else if !hbmInside c then .fault .noSuchAddress else s.onDev (hbmRdDeliver c found)

/-- HBM_WR: the source is read and written to device memory; a spill is noted with its step (R204). -/
def hbmWrite (c : HbmCue) (d : Dev) : Dev :=
  if !d.linkCues then d
  else match d.hbmTok c with
    | none => d
    | some t =>
      let p := d.hbmPlace c t
      match d.outstanding p.1 p.2 (hbmBytes c) with
      | some o => d.stallOn o c.slot.toNat
      | none =>
        let (d, bs) := if !p.1 then (d.hazRead 2 (granulesOf p.2 (hbmBytes c)) c.num.toNat c.slot.toNat t.steps, rdN d.mem.localBuf p.2 (hbmBytes c))
          else d.wingsRd t p.2 (hbmBytes c) c.slot.toNat c.num.toNat
        let cws := cwRange c.addr.toNat (hbmBytes c)
        (d.hbmWr c.addr.toNat bs).modMem fun m =>
          { m with spill := t.steps.foldl (fun s x => cws.foldl (fun s k => sput s k x) s) m.spill }

def execHbmWr (c : HbmCue) (s : State) : Host.Outcome State Fault Refusal :=
  if !c.wf then .refused .illFormed else if !hbmInside c then .fault .noSuchAddress else s.onDev (hbmWrite c)

end Sys2Proof.Machine
end

