-- ==== Sys2Proof/Machine/ScriptParse.lean ====
section
/-! DEFINITION. The script file as bytes: header and directory (R319 to R322), cue words (R331 to R333, R336, R338 to R341), CHAINS
(R337), LINKS (R324), KV (R499), PLACEMENT (R323). Sections without a given encoding go through Config (log 11). -/
namespace Sys2Proof.Machine

/-! ## Cues (R332) -/

/-- A cue of a stream. -/
inductive Cue where
  | eval (c : EvalCue)
  | requant (c : RequantCue)
  | out (c : OutCue)
  | hop (c : HopCue)
  | relay (c : RelayCue)
  | move (c : MoveCue)
  | repeatWin (c : WinCue)
  | rehearseWin (c : WinCue)
  | place (c : PlaceCue)
  | kernel (fam : Nat) (k : KernelCue)
  | hbmRd (c : HbmCue)
  | hbmWr (c : HbmCue)
  deriving DecidableEq, Repr

def outFmtOf : Nat → Option OutFmt
  | 0 => some .bf16 | 1 => some .e4m3 | 2 => some .e5m2 | _ => none

def arrFmtOf (b : Nat) : ArrFmt := if b = 0 then .an4 else .aw8

def opKindOf : Nat → Option OpKind
  | 0 => some .none | 1 => some .wings | 2 => some .laneBuf | 3 => some .localBuf | 4 => some .kvPages | 5 => some .adapter | _ => none

def numFmtOf : Nat → Option NumFmt
  | 0 => some .fp32 | 1 => some .bf16 | 2 => some .e4m3 | 3 => some .e5m2 | 4 => some .mxfp4 | 5 => some .mxfp6e2m3 | 6 => some .mxfp6e3m2
  | 7 => some .int8 | 8 => some .int32 | _ => none

/-- SRC_KIND of REQUANT; DST_KIND of OUT has its first two values exchanged. -/
def srcKindOf : Nat → Option DataKind
  | 0 => some .wings | 1 => some .apron | 2 => some .laneBuf | _ => none
def dstKindOf : Nat → Option DataKind
  | 0 => some .apron | 1 => some .wings | 2 => some .laneBuf | _ => none
def hbmTargetOf : Nat → Option HbmTarget
  | 0 => some .wings | 1 => some .laneBuf | 2 => some .localBuf | _ => none

/-- One operand of a parameter record (R340). -/
def parseOperand (bs : List Byte) (m : Nat) : Option KOperand := do
  let w := leAt bs (8 + 12 * m) 4
  let k ← opKindOf (fld w 0 3)
  let f ← numFmtOf (fld w 3 4)
  if w / 2 ^ 7 = 0 then some ⟨k, f, BitVec.ofNat 32 (leAt bs (12 + 12 * m) 4), BitVec.ofNat 32 (leAt bs (16 + 12 * m) 4)⟩ else none

/-- A KERNEL cue with its parameter record (R340). -/
def parseKernel (w : Nat) (bs : List Byte) (num : BitVec 24) : Option (Nat × KernelCue) := do
  let h := leAt bs 0 4
  let o0 ← parseOperand bs 0
  let o1 ← parseOperand bs 1
  let o2 ← parseOperand bs 2
  let o3 ← parseOperand bs 3
  if fld h 0 4 < 12 && h / 2 ^ 27 = 0 && allZero (slice bs 56 8) then
    some (fld h 0 4,
      { slot := BitVec.ofNat 16 (fld w 8 16), lane := BitVec.ofNat 12 (fld w 24 12), engine := BitVec.ofNat 7 (fld w 36 7),
        thread := BitVec.ofNat 6 (fld w 43 6), last := BitVec.ofNat 16 (fld w 49 16), clear := bit w 88, stoch := bit w 89,
        nlanes := BitVec.ofNat 13 (fld h 4 13), layer := BitVec.ofNat 10 (fld h 17 10), const := BitVec.ofNat 32 (leAt bs 4 4),
        op0 := o0, op1 := o1, op2 := o2, op3 := o3, num := num })
  else none

/-- Bits of a cue word above its opcode's fields are 0. -/
def cueTop : Nat → Option Nat
  | 0x01 => some 103 | 0x02 => some 109 | 0x03 => some 106 | 0x04 => some 56 | 0x05 => some 70 | 0x06 => some 87 | 0x07 => some 65
  | 0x08 => some 65 | 0x09 => some 100 | 0x10 => some 90 | 0x20 => some 125 | 0x21 => some 125 | _ => none

/-- A DST or SRC that names an apron row has the row's five bits only (R336). -/
def rowForm (apron : Bool) (v : BitVec 28) : Bool := !apron || decide (v.toNat < 32)

/-- Fields that a form of a cue leaves 0, and ranges that a load holds a cue to beyond those of its unit (R336, R340). -/
def EvalCue.form (c : EvalCue) : Bool := c.fmt == .aw8 || c.rowLo == 0
def MoveCue.form (c : MoveCue) : Bool := c.toApron || c.fmt == 0
def KernelCue.form (k : KernelCue) : Bool := decide (k.lane.toNat + k.nlanes.toNat ≤ 4096) && decide (k.slot.toNat ≤ k.last.toNat)

/-- The cue of a 128-bit word; none for a reserved opcode, a reserved bit or a refused combination (R332, R336). -/
def parseCue (params : List (List Byte)) (w num : Nat) : Option Cue := do
  let top ← cueTop (w % 256)
  if w / 2 ^ top != 0 then failure
  let slot : BitVec 16 := BitVec.ofNat 16 (fld w 8 16)
  let lane : BitVec 12 := BitVec.ofNat 12 (fld w 24 12)
  let tile : BitVec 13 := BitVec.ofNat 13 (fld w 36 13)
  let n : BitVec 24 := BitVec.ofNat 24 num
  match w % 256 with
  | 0x01 =>
    let c : EvalCue := ⟨slot, lane, tile, BitVec.ofNat 4 (fld w 49 4), BitVec.ofNat 5 (fld w 53 5), BitVec.ofNat 5 (fld w 58 5), arrFmtOf (fld w 63 1),
      BitVec.ofNat 2 (fld w 64 2), BitVec.ofNat 13 (fld w 66 13), BitVec.ofNat 24 (fld w 79 24), n⟩
    if EvalCue.form c then some (.eval c) else none
  | 0x02 =>
    let k ← srcKindOf (fld w 49 2)
    let f ← outFmtOf (fld w 79 2)
    let c : RequantCue := ⟨slot, lane, tile, k, BitVec.ofNat 28 (fld w 51 28), f, BitVec.ofNat 5 (fld w 81 5), BitVec.ofNat 5 (fld w 86 5),
      arrFmtOf (fld w 91 1), BitVec.ofNat 3 (fld w 92 3), BitVec.ofNat 13 (fld w 95 13), bit w 108, n⟩
    if c.wf && rowForm (k == .apron) c.src then some (.requant c) else none
  | 0x03 =>
    let f ← outFmtOf (fld w 73 2)
    let k ← dstKindOf (fld w 76 2)
    let c : OutCue := ⟨slot, lane, tile, BitVec.ofNat 24 (fld w 49 24), f, bit w 75, k, BitVec.ofNat 28 (fld w 78 28), n⟩
    if c.wf && rowForm (k == .apron) c.dst then some (.out c) else none
  | 0x04 => some (.hop ⟨slot, lane, tile, BitVec.ofNat 7 (fld w 49 7), n⟩)
  | 0x05 =>
    let c : RelayCue := ⟨slot, lane, tile, BitVec.ofNat 13 (fld w 49 13), BitVec.ofNat 2 (fld w 62 2), BitVec.ofNat 6 (fld w 64 6), n⟩
    if c.wf then some (.relay c) else none
  | 0x06 =>
    let c : MoveCue := ⟨slot, lane, tile, BitVec.ofNat 5 (fld w 49 5), bit w 54, BitVec.ofNat 3 (fld w 55 3), bit w 58, BitVec.ofNat 28 (fld w 59 28), n⟩
    if c.wf && MoveCue.form c then some (.move c) else none
  | 0x07 =>
    let c : WinCue := ⟨slot, BitVec.ofNat 6 (fld w 36 6), BitVec.ofNat 16 (fld w 42 16), BitVec.ofNat 7 (fld w 58 7), n⟩
    if c.wf && lane == 0 then some (.repeatWin c) else none
  | 0x08 =>
    let c : WinCue := ⟨slot, BitVec.ofNat 6 (fld w 36 6), BitVec.ofNat 16 (fld w 42 16), BitVec.ofNat 7 (fld w 58 7), n⟩
    if c.wf && lane == 0 then some (.rehearseWin c) else none
  | 0x09 =>
    let c : PlaceCue := ⟨slot, BitVec.ofNat 10 (fld w 36 10), BitVec.ofNat 10 (fld w 46 10), BitVec.ofNat 12 (fld w 56 12), BitVec.ofNat 8 (fld w 68 8),
      BitVec.ofNat 12 (fld w 76 12), BitVec.ofNat 12 (fld w 88 12), n⟩
    if c.wf && lane == 0 then some (.place c) else none
  | 0x10 => do
    let p ← params[fld w 65 23]?
    let k ← parseKernel w p n
    if k.2.wf (k.1 != 11) && KernelCue.form k.2 then some (.kernel k.1 k.2) else none
  | op =>
    let k ← hbmTargetOf (fld w 88 2)
    let c : HbmCue := ⟨slot, lane, BitVec.ofNat 38 (fld w 36 38), BitVec.ofNat 14 (fld w 74 14), k, BitVec.ofNat 7 (fld w 90 7), BitVec.ofNat 28 (fld w 97 28), n⟩
    if c.wf then some (if op = 0x20 then .hbmRd c else .hbmWr c) else none

/-- First slot, last slot, opcode and unit index of a cue (R332, R345). -/
def Cue.first : Cue → Nat
  | .eval c => c.slot.toNat | .requant c => c.slot.toNat | .out c => c.slot.toNat | .hop c => c.slot.toNat | .relay c => c.slot.toNat
  | .move c => c.slot.toNat | .repeatWin c => c.slot.toNat | .rehearseWin c => c.slot.toNat | .place c => c.slot.toNat
  | .kernel _ k => k.slot.toNat | .hbmRd c => c.slot.toNat | .hbmWr c => c.slot.toNat
def Cue.lastSlot : Cue → Nat
  | .eval c => c.slot.toNat + (if c.fmt = .aw8 then 1 else 0)
  | .relay c => c.slot.toNat + 2 * c.hops.toNat - 1
  | .repeatWin c => c.slot.toNat + c.slots.toNat - 1
  | .rehearseWin c => c.slot.toNat + c.slots.toNat - 1
  | .kernel _ k => k.last.toNat
  | c => c.first
def Cue.order : Cue → Nat × Nat
  | .eval c => (1, c.tile.toNat) | .requant c => (2, c.tile.toNat) | .out c => (3, c.tile.toNat) | .hop c => (4, c.tile.toNat)
  | .relay c => (5, c.tile.toNat) | .move c => (6, c.tile.toNat) | .repeatWin c => (7, c.flock.toNat) | .rehearseWin c => (8, c.flock.toNat)
  | .place c => (9, c.expert.toNat) | .kernel _ k => (16, 64 * k.engine.toNat + k.thread.toNat) | .hbmRd _ => (32, 0) | .hbmWr _ => (33, 0)

/-- One cue may stand before another in a stream (R332). -/
def Cue.before (a b : Cue) : Bool :=
  decide (a.first < b.first) || (a.first == b.first && (decide (a.order.1 < b.order.1) || (a.order.1 == b.order.1 && decide (a.order.2 ≤ b.order.2))))

def inOrder : List Cue → Bool
  | a :: b :: t => a.before b && inOrder (b :: t)
  | _ => true

/-! ## Header and directory (R320, R321) -/

/-- Bits that the header does not list are 0. -/
def headerZeros (f : List Byte) : Bool :=
  let w (o : Nat) : Nat := leAt f o 4
  w 4 / 2 ^ 18 == 0 && w 8 / 2 ^ 21 == 0 && w 0x0C / 2 ^ 18 == 0 && w 0x20 / 2 ^ 24 == 0 && fld (w 0x28) 14 2 == 0 && w 0x28 / 2 ^ 22 == 0 &&
    w 0x2C / 2 ^ 19 == 0 && w 0x30 / 2 ^ 24 == 0 && w 0x34 / 2 ^ 12 == 0 && w 0x3C == 0 && allZero (slice f 0x48 0xB8) && allZero (slice f 0x8A0 0x760)

def parseHeader (f : List Byte) : ScriptHdr :=
  let w (o : Nat) : Nat := leAt f o 4
  { abi := fld (w 4) 0 8, grade := fld (w 4) 8 4, declBand := fld (w 4) 12 2, cycle := fld (w 4) 14 4, xDim := fld (w 8) 0 4, yDim := fld (w 8) 4 4,
    depth := fld (w 8) 8 8, cmd := fld (w 8) 16 5, period := fld (w 0x0C) 0 18, tickBudget := fld (w 0x10) 0 16, workSlots := fld (w 0x10) 16 16,
    sustained := fld (w 0x14) 0 16, placement := w 0x18, layout := w 0x1C, hcInterval := fld (w 0x20) 0 24, learn := fld (w 0x24) 0 16,
    hbmBudget := fld (w 0x24) 16 16, chunk := fld (w 0x28) 0 14, headroom := fld (w 0x28) 16 6, vocab := fld (w 0x2C) 0 19, context := fld (w 0x30) 0 24,
    version := w 0x38, weightKey := slice f 0x100 1952 }

/-- Values that the header's fields may have. -/
def ScriptHdr.ranges (h : ScriptHdr) : Bool :=
  decide (1 ≤ h.depth) && decide (1024 ≤ h.hcInterval) && decide (1 ≤ h.learn) && decide (16 ≤ h.chunk) && decide (h.chunk ≤ 8192) &&
    h.chunk % 16 == 0 && decide (1 ≤ h.vocab) && decide (h.vocab ≤ 262144)

/-- A directory entry. -/
structure DirEnt where
  type : Nat
  x : Nat
  y : Nat
  own : Bool
  off : Nat
  len : Nat
  digest : List Byte
  deriving DecidableEq, Repr

def parseDirEnt (b : List Byte) : Option DirEnt :=
  let w := leAt b 0 4
  if w / 2 ^ 17 = 0 && allZero (slice b 4 4) && allZero (slice b 24 8) then
    some ⟨fld w 0 8, fld w 8 4, fld w 12 4, bit w 16, leAt b 8 8, leAt b 16 8, slice b 32 32⟩
  else none

def parseDir (f : List Byte) : Option (List DirEnt) :=
  (List.range (leAt f 0x34 4 % 4096)).mapM fun i => parseDirEnt (slice f (0x1000 + 64 * i) 64)

/-- An entry serves a device. -/
def DirEnt.serves (e : DirEnt) (x y : Nat) : Bool := !e.own || (e.x == x && e.y == y)

/-- The bytes of a section type for a device; empty when there is none. -/
def secBytes (f : List Byte) (es : List DirEnt) (type x y : Nat) : List Byte :=
  match es.find? fun e => e.type == type && e.serves x y with
  | some e => slice f e.off e.len
  | none => []

/-- Types that must be there, and those that must be per device (R322). -/
def requiredTypes : List Nat := [0x01, 0x02, 0x03, 0x04, 0x05, 0x06, 0x07, 0x08, 0x09, 0x0A, 0x0B, 0x0C, 0x0E]

/-- Positions of the herd shape. -/
def ScriptHdr.positions (h : ScriptHdr) : List (Nat × Nat) :=
  (List.range (h.yDim + 1)).flatMap fun y => (List.range (h.xDim + 1)).map fun x => (x, y)

/-- A required type stands once in common scope, or once for every device of the shape (R322). -/
def typeOk (h : ScriptHdr) (es : List DirEnt) (t : Nat) : Bool :=
  let mine := es.filter fun e => e.type == t
  let common := mine.filter fun e => !e.own
  if t = 0x02 || t = 0x0A then common.isEmpty && h.positions.all fun p => (mine.filter fun e => e.x == p.1 && e.y == p.2).length == 1
  else if t = 0x0B then mine.length == 1 && common.length == 1
  else (mine.length == 1 && common.length == 1) ||
    (common.isEmpty && h.positions.all fun p => (mine.filter fun e => e.x == p.1 && e.y == p.2).length == 1)

/-- Sections start on 4 KiB boundaries after the directory, do not overlap, and end before the signature (R319, R321). -/
def extentsOk (es : List DirEnt) (flen : Nat) : Bool :=
  let lo := 0x1000 + 64 * es.length
  (es.all fun e => e.off % 4096 == 0 && decide (lo ≤ e.off) && decide (e.off + e.len + 3309 ≤ flen)) &&
    es.zipIdx.all fun a => es.zipIdx.all fun b =>
      a.2 == b.2 || a.1.len == 0 || b.1.len == 0 || decide (a.1.off + a.1.len ≤ b.1.off) || decide (b.1.off + b.1.len ≤ a.1.off)

/-! ## Sections -/

/-- TEMPLATES (R331). -/
def parseTemplates (cycle : Nat) (bs : List Byte) : Option (List Template) :=
  let t := leAt bs 4 4
  let off (o : Nat) (n k : Nat) : Bool := decide (o + n * k ≤ bs.length)
  if leAt bs 0 4 != 0x54454D31 || t != cycle + 1 || !allZero (slice bs 8 56) then none
  else (List.range t).mapM fun i =>
    let e := slice bs (0x40 + 48 * i) 48
    let co := leAt e 0 8
    let po := leAt e 8 8
    let lo := leAt e 16 8
    let cn := leAt e 24 4
    let pn := leAt e 28 4
    let ln := leAt e 32 4
    if e.length = 48 && allZero (slice e 36 12) && cn ≤ 8388608 && off co cn 16 && off po pn 64 && off lo ln 16 then
      let lanes := (List.range ln).map fun j =>
        let w (k : Nat) : Nat := leAt bs (lo + 16 * j + 4 * k) 4
        ((⟨fld (w 0) 0 12, fld (w 0) 12 13, fld (w 0) 25 3, fld (w 1) 0 28, fld (w 2) 0 16⟩ : LaneMap),
          w 0 / 2 ^ 28 == 0 && w 1 / 2 ^ 28 == 0 && w 2 / 2 ^ 16 == 0 && w 3 == 0)
      if lanes.all fun l => l.2 && decide (1 ≤ l.1.count) && decide (l.1.first + l.1.count ≤ 4096) && decide (l.1.kind ≤ 4) && l.1.offset % 128 == 0 then
        some { cues := (List.range cn).map fun j => leAt bs (co + 16 * j) 16, params := (List.range pn).map fun j => slice bs (po + 64 * j) 64,
               lanes := lanes.map Prod.fst }
      else none
    else none

/-- The cues of a template; none when one is refused or they are out of order (R332). -/
def Template.parse (t : Template) : Option (List Cue) := do
  let cs ← t.cues.zipIdx.mapM fun w => parseCue t.params w.1 w.2
  if inOrder cs then some cs else none

/-- CHAINS (R337): the records end where the first member list begins (log 56). -/
def parseChains (bs : List Byte) : Option (List Chain) :=
  let n := leAt bs 20 4 / 32
  let w (i k : Nat) : Nat := leAt bs (32 * i + 4 * k) 4
  let cs := (List.range n).map fun i =>
    let mo := w i 5
    let mn := w i 6
    ((⟨w i 0, fld (w i 1) 0 10, fld (w i 1) 10 14, w i 2, w i 3, w i 4, (List.range mn).map fun j =>
        let v := leAt bs (mo + 4 * j) 4
        (fld v 0 13, fld v 13 4)⟩ : Chain),
      w i 0 / 2 ^ 24 == 0 && w i 1 / 2 ^ 24 == 0 && w i 2 / 2 ^ 10 == 0 && w i 4 / 2 ^ 13 == 0 && decide (1 ≤ mn) && decide (mn ≤ 1024) && w i 7 == 0 &&
        decide (32 * n ≤ mo) && decide (mo + 4 * mn ≤ bs.length) && (List.range mn).all fun j => leAt bs (mo + 4 * j) 4 / 2 ^ 17 == 0)
  if bs.isEmpty then some []
  else if leAt bs 20 4 % 32 = 0 && cs.all Prod.snd && ascending (cs.map fun c => c.1.chain) then some (cs.map Prod.fst) else none

/-- LINKS (R324): records of a template are numbered in section order (R333). -/
def parseLinks (bs : List Byte) : Option (List LinkEnt) :=
  let w (i k : Nat) : Nat := leAt bs (32 * i + 4 * k) 4
  let n := bs.length / 32
  let tmpl (i : Nat) : Nat := fld (w i 0) 16 4
  if bs.length % 32 != 0 then none
  else (List.range n).mapM fun i =>
    let num := 0x800000 + ((List.range i).filter fun j => tmpl j == tmpl i).length
    let r : LinkRec :=
      ⟨BitVec.ofNat 6 (fld (w i 0) 0 6), BitVec.ofNat 6 (fld (w i 0) 8 6), BitVec.ofNat 16 (w i 1), BitVec.ofNat 16 (w i 1 / 2 ^ 16), BitVec.ofNat 16 (w i 2),
       BitVec.ofNat 16 (w i 2 / 2 ^ 16), BitVec.ofNat 24 (w i 3), BitVec.ofNat 28 (w i 4), coordOf (w i 5), BitVec.ofNat 24 (w i 6), BitVec.ofNat 24 num⟩
    if r.wf (fld (w i 0) 6 2 == 2) && r.slots != 0 && fld (w i 0) 6 2 != 3 && fld (w i 0) 14 2 == 0 && w i 0 / 2 ^ 20 == 0 && w i 3 / 2 ^ 24 == 0 && w i 4 / 2 ^ 28 == 0 && w i 5 / 2 ^ 8 == 0 &&
        w i 6 / 2 ^ 24 == 0 && w i 7 == 0 then
      some ⟨fld (w i 0) 6 2, tmpl i, r⟩
    else none

/-- KV (R499). -/
def parseKv (bs : List Byte) : Option (List KvLayer × List KvDev) :=
  let nl := leAt bs 4 4
  let nd := leAt bs 8 4
  let base := 64 + 16 * nl
  let w (o k : Nat) : Nat := leAt bs (o + 4 * k) 4
  let ls := (List.range nl).map fun i =>
    let o := 64 + 16 * i
    ((⟨fld (w o 0) 0 10, fld (w o 0) 10 4, fld (w o 0) 14 4, bit (w o 0) 18, fld (w o 1) 0 24⟩ : KvLayer),
      w o 0 / 2 ^ 19 == 0 && w o 1 / 2 ^ 24 == 0 && w o 2 == 0 && w o 3 == 0)
  let ds := (List.range nd).map fun i =>
    let o := base + 16 * i
    let lk := fld (w o 1) 0 10
    let so := w o 2
    let row := (List.range nd).map fun j => leAt bs (so + 4 * j) 4
    ((⟨fld (w o 0) 0 4, fld (w o 0) 4 4, fld (w o 0) 16 16, lk, if lk = 0 then List.replicate nd 0 else row⟩ : KvDev),
      fld (w o 0) 8 8 == 0 && w o 1 / 2 ^ 10 == 0 && w o 3 == 0 &&
        (if lk = 0 then so == 0 else decide (so + 4 * nd ≤ bs.length) && row.all fun v => v / 2 ^ 21 == 0))
  if leAt bs 0 4 = 0x4B565331 && 1 ≤ nl && nl ≤ 1023 && 1 ≤ nd && nd ≤ 256 && allZero (slice bs 12 52) && base + 16 * nd ≤ bs.length &&
      ls.all Prod.snd && ds.all Prod.snd then
    some (ls.map Prod.fst, ds.map Prod.fst)
  else none

/-- PLACEMENT (R323). -/
def parsePlacement (bs : List Byte) : Option (List PlaceEnt) :=
  if bs.length % 16 != 0 then none
  else (List.range (bs.length / 16)).mapM fun i =>
    let w (k : Nat) : Nat := leAt bs (16 * i + 4 * k) 4
    if w 0 / 2 ^ 25 = 0 && w 1 / 2 ^ 18 = 0 && w 2 / 2 ^ 25 = 0 && w 3 / 2 ^ 10 = 0 then
      some ⟨fld (w 0) 0 10, fld (w 0) 10 14, w 3, bit (w 0) 24, fld (w 1) 0 8, fld (w 1) 8 10, fld (w 2) 0 4, fld (w 2) 4 4, fld (w 2) 8 13, fld (w 2) 21 4⟩
    else none

/-- QPOINTS: 8 B entries from point 0 on (R115). -/
def parseQpoints (bs : List Byte) : Option (List Nat) :=
  if bs.length % 8 != 0 || 65536 < bs.length then none else some ((List.range (bs.length / 8)).map fun i => leAt bs (8 * i) 8)

/-- The script that a file gives a device (R315 order 1), and the causes of the sections that break their own form: such a section
reads as empty, and the check of its cause fails. -/
def parseScript (f : List Byte) (es : List DirEnt) (x y : Nat) : Script × List Nat :=
  let h := parseHeader f
  let sec (t : Nat) : List Byte := secBytes f es t x y
  let has (t : Nat) : Bool := es.any fun e => e.type == t && e.serves x y
  let pl := parsePlacement (sec 0x01)
  let ts := parseTemplates h.cycle (sec 0x02)
  let cs := parseChains (sec 0x03)
  let qs := parseQpoints (sec 0x05)
  let pr := Config.parsePrompter (sec 0x06)
  let po := Config.parsePools (sec 0x07)
  let ex := Config.parseExperts (sec 0x08)
  let ad := Config.parseAdmission (sec 0x09)
  let ls := parseLinks (sec 0x0A)
  let kv := parseKv (sec 0x0B)
  let wi := Config.parseWings (sec 0x0C)
  let ta := if has 0x0D then Config.parseTargets (sec 0x0D) else some []
  let co := Config.parseConstants (sec 0x0E)
  let db : Option (Option (List DebugNote)) := if has 0x0F then (Config.parseDebug (sec 0x0F)).map some else some none
  let bad (none? : Bool) (cause : Nat) : List Nat := if none? then [cause] else []
  ({ hdr := h, id := shake256 f, placement := pl.getD [], templates := ts.getD [], chains := cs.getD [], scales := sec 0x04, qpoints := qs.getD [],
     prompter := pr.getD [], pools := po.getD [], experts := ex.getD ⟨[], []⟩, admission := ad.getD [], links := ls.getD [],
     kvLayers := (kv.getD ([], [])).1, kvDevs := (kv.getD ([], [])).2, wings := wi.getD ⟨[], []⟩, targets := ta.getD [],
     consts := (co.getD ([], [], [])).1, stops := (co.getD ([], [], [])).2.1, notes := db.getD none, common := (co.getD ([], [], [])).2.2,
     parts := (es.filter fun e => e.serves x y).map fun e => (e.off, e.len) },
   bad ts.isNone 0x02 ++ bad co.isNone 0x02 ++ bad ta.isNone 0x02 ++ bad db.isNone 0x02 ++ bad cs.isNone 0x0A ++ bad wi.isNone 0x0C ++ bad po.isNone 0x0D ++
     bad qs.isNone 0x0F ++ bad pr.isNone 0x0F ++ bad ex.isNone 0x11 ++ bad ad.isNone 0x11 ++ bad kv.isNone 0x12 ++ bad ls.isNone 0x13 ++ bad pl.isNone 0x14)

end Sys2Proof.Machine
end

