-- ==== Sys2Proof/Machine/ScriptCheck.lean ====
section
/-! DEFINITION. The load checks of a script (R313, R314), cause by cause. Each check answers where the script breaks its rules, or
none. What a check needs and no rule gives an encoding for is asked of Config.openCheck (log 55). -/
namespace Sys2Proof.Machine

/-- Where a load failed (SCRIPT_LOAD_WHERE, SCRIPT_LOAD_UNIT). -/
structure LoadFail where
  slot : Nat := 0
  template : Nat := 0
  entry : Nat := 0
  unit : Nat := 0
  kind : Nat := 0
  deriving DecidableEq, Repr

/-- What the checks look at: the file, its directory, the parsed script, the cues of each template, and the device's place. -/
structure LoadIn where
  file : List Byte
  dir : List DirEnt
  sc : Script
  cues : List (List Cue)
  x : Nat
  y : Nat

/-- Directory entry of a section of the device. -/
def LoadIn.sec (z : LoadIn) (type : Nat) : Nat := (z.dir.findIdx? fun e => e.type == type && e.serves z.x z.y).getD 0

/-- Every cue with its template. -/
def LoadIn.all (z : LoadIn) : List (Nat × Cue) := z.cues.zipIdx.flatMap fun t => t.1.map fun c => (t.2, c)

/-- KIND and UNIT of a cue's unit (R318). -/
def Cue.unit : Cue → Nat × Nat
  | .eval c => (1, c.tile.toNat) | .requant c => (1, c.tile.toNat) | .out c => (1, c.tile.toNat) | .hop c => (1, c.tile.toNat)
  | .relay c => (1, c.tile.toNat) | .move c => (1, c.tile.toNat) | .repeatWin c => (2, c.flock.toNat) | .rehearseWin c => (2, c.flock.toNat)
  | .place c => (7, c.expert.toNat) | .kernel _ k => (4, k.engine.toNat) | .hbmRd c => (6, hbmChannel c.addr.toNat)
  | .hbmWr c => (6, hbmChannel c.addr.toNat)

def LoadIn.at_ (z : LoadIn) (tc : Nat × Cue) : LoadFail := ⟨tc.2.first, tc.1, z.sec 2, tc.2.unit.2, tc.2.unit.1⟩

/-- The first cue that breaks a rule. -/
def LoadIn.firstCue (z : LoadIn) (bad : Nat → Cue → Bool) : Option LoadFail := (z.all.find? fun tc => bad tc.1 tc.2).map z.at_

/-- A rule that names a section only. -/
def LoadIn.unless (z : LoadIn) (ok : Bool) (type : Nat) : Option LoadFail := if ok then none else some { entry := z.sec type }

/-! ## TIMING, CUE_LIMIT -/

def LoadIn.clocks (z : LoadIn) : Nat := bandClocks z.sc.hdr.declBand

/-- R27, R29; cues within the work window (R332). -/
def checkTiming (z : LoadIn) : Option LoadFail :=
  let h := z.sc.hdr
  let fits := if Config.gradeE then decide (10 * z.clocks * h.workSlots + 44 * h.tickBudget ≤ 22 * h.period)
    else decide (2 * z.clocks * h.workSlots + 10 * h.tickBudget ≤ 5 * h.period)
  if !(decide (8000 ≤ h.period) && decide (h.period ≤ 250000) && fits) then some {}
  else z.firstCue fun _ c => decide (h.workSlots ≤ c.first) || decide (h.workSlots ≤ c.lastSlot)

/-- Tile-phases of a cue in a slot (R45, R97, R338), and its flock. -/
def Cue.phasesIn (s : Nat) : Cue → Nat
  | .eval c => if c.slot.toNat = s || (c.fmt = .aw8 && c.slot.toNat + 1 = s) then 1 else 0
  | .repeatWin c => if c.slot.toNat ≤ s && s < c.slot.toNat + c.slots.toNat then c.tiles.toNat else 0
  | .rehearseWin c => if c.slot.toNat ≤ s && s < c.slot.toNat + c.slots.toNat then c.tiles.toNat else 0
  | _ => 0

def Cue.flock : Cue → Nat
  | .eval c => c.tile.toNat / 128 | .requant c => c.tile.toNat / 128 | .out c => c.tile.toNat / 128 | .hop c => c.tile.toNat / 128
  | .relay c => c.tile.toNat / 128 | .move c => c.tile.toNat / 128 | .repeatWin c => c.flock.toNat | .rehearseWin c => c.flock.toNat
  | _ => 0

def gradeTiles : Nat := if Config.gradeE then 1536 else 2048
def gradeFlock : Nat := if Config.gradeE then 48 else 64

/-- R45, R97: the load of a slot rises only where a cue begins or an AW8 evaluation has its second phase. -/
def checkCueLimit (z : LoadIn) : Option LoadFail :=
  z.cues.zipIdx.findSome? fun t =>
    t.1.findSome? fun c =>
      [c.first, c.lastSlot].findSome? fun s =>
        let n (f : Option Nat) : Nat := (t.1.map fun (e : Cue) => if f.all (· == e.flock) then e.phasesIn s else 0).sum
        if c.phasesIn s = 0 then none
        else if gradeTiles < n none then some { slot := s, template := t.2, entry := z.sec 2 }
        else if gradeFlock < n (some c.flock) then some ⟨s, t.2, z.sec 2, c.flock, 2⟩
        else none

/-! ## CHAIN (R78, R79, R337) -/

/-- Occupation of the accumulator sets while a template is followed slot by slot. -/
structure Occ where
  /-- Tile to the chain that holds its set and the slot since when. -/
  held : Sparse (Nat × Nat) := []
  /-- Contributions to come: slot, tile, chain. -/
  land : List (Nat × Nat × Nat) := []
  /-- Past occupations: tile, first slot, slot of the release. -/
  spans : List (Nat × Nat × Nat) := []
  /-- Relay hops: chain, lane, hops. -/
  hops : List (Nat × Nat × Nat) := []
  /-- Tiles that a chain's transfers enter, and flocks that its relays pass: chain, and the tile or flock. -/
  tiles : List (Nat × Nat) := []
  flocks : List (Nat × Nat) := []
  bad : List LoadFail := []

def Occ.release (o : Occ) (tile slot : Nat) : Occ :=
  match sget o.held tile with
  | some h => { o with held := sdel o.held tile, spans := (tile, h.2, slot) :: o.spans }
  | none => o

/-- Flocks of a relay's hops, the last one its receiver's. -/
def relayFlocks (dirs : Nat) : Nat → Nat × Nat → List Nat
  | 0, _ => []
  | n + 1, p =>
    let q := match dirs % 4 with
      | 0 => (p.1, p.2 - 1) | 1 => (p.1 + 1, p.2) | 2 => (p.1, p.2 + 1) | _ => (p.1 - 1, p.2)
    (8 * q.2 + q.1) :: relayFlocks (dirs / 4) n q

/-- Clock 0 of a slot: sets are captured and released. Evaluations and transfers name the slots in which they land (R74, R79). -/
def Occ.cue (z : LoadIn) (t : Nat) (o : Occ) (c : Cue) : Occ :=
  match c with
  | .eval e =>
    let s := e.slot.toNat
    { o with land := (s + 1, e.tile.toNat, e.chain.toNat) :: (if e.fmt = .aw8 then [(s + 2, e.tile.toNat, e.chain.toNat)] else []) ++ o.land }
  | .hop e =>
    let o' := o.release e.tile.toNat e.slot.toNat
    match sget o.held e.tile.toNat with
    | some h =>
      let dst := e.tile.toNat / 128 * 128 + e.dst.toNat
      { o' with land := (e.slot.toNat, dst, h.1) :: o'.land, tiles := (h.1, dst) :: o'.tiles }
    | none => o'
  | .relay e =>
    let o' := o.release e.tile.toNat e.slot.toNat
    match sget o.held e.tile.toNat with
    | some h => { o' with land := (e.slot.toNat + 2 * e.hops.toNat - 1, e.dst.toNat, h.1) :: o'.land,
                          hops := (h.1, e.lane.toNat, e.hops.toNat) :: o'.hops, tiles := (h.1, e.dst.toNat) :: o'.tiles,
                          flocks := ((relayFlocks e.dirs.toNat e.hops.toNat (flockAt e.tile)).map fun f => (h.1, f)) ++ o'.flocks }
    | none => o'
  | .out e =>
    let o' := o.release e.tile.toNat e.slot.toNat
    match sget o.held e.tile.toNat with
    | some h => if h.1 = e.chain.toNat then o' else { o' with bad := z.at_ (t, c) :: o'.bad }
    | none => o'
  | _ => o

/-- The end of a slot: contributions land; one of another chain breaks R78. -/
def Occ.lands (z : LoadIn) (t s : Nat) (o : Occ) : Occ :=
  let now := o.land.filter fun l => l.1 == s
  now.foldl (fun o l =>
    match sget o.held l.2.1 with
    | none => { o with held := sput o.held l.2.1 (l.2.2, s) }
    | some h => if h.1 = l.2.2 then o else { o with bad := ⟨s, t, z.sec 2, l.2.1, 1⟩ :: o.bad }) { o with land := o.land.filter fun l => l.1 != s }

def LoadIn.occupy (z : LoadIn) (t : Nat) (cs : List Cue) : Occ :=
  let n := z.sc.hdr.workSlots + 8
  let o := (List.range n).foldl (fun o s => ((cs.filter fun c => c.first == s).foldl (Occ.cue z t) o).lands z t s) {}
  { o with spans := o.held.map (fun h => (h.1, h.2.2, n)) ++ o.spans }

/-- Ports that a relay uses: flock, direction, slot of each hop. -/
def relayPorts (dirs : Nat) : Nat → Nat × Nat → Nat → List (Nat × Nat × Nat)
  | 0, _, _ => []
  | n + 1, p, s =>
    let q := match dirs % 4 with
      | 0 => (p.1, p.2 - 1) | 1 => (p.1 + 1, p.2) | 2 => (p.1, p.2 + 1) | _ => (p.1 - 1, p.2)
    (8 * p.2 + p.1, dirs % 4, s) :: relayPorts (dirs / 4) n q (s + 2)

/-- The limits of R79 on a chain's members, its OUT tile, and the tiles and flocks that its transfers reach or pass. -/
def Chain.small (c : Chain) (reached passed : List Nat) : Bool :=
  let tiles := (c.members.map Prod.fst ++ reached).dedup
  let flocks := ((c.outTile :: tiles).map (· / 128) ++ passed).dedup
  (tiles.all fun t => decide (((c.members.filter fun m => m.1 == t).map Prod.snd).dedup.length ≤ 16)) &&
    (flocks.all fun f => decide ((tiles.filter fun t => t / 128 == f).length ≤ 16)) && decide (flocks.length ≤ 4)

def checkChain (z : LoadIn) : Option LoadFail :=
  let member (e : EvalCue) : Bool := z.sc.chains.any fun c => c.chain == e.chain.toNat && c.members.contains (e.tile.toNat, e.pslot.toNat)
  (z.firstCue fun _ c => match c with | .eval e => !member e | _ => false) <|>
  z.cues.zipIdx.findSome? fun t =>
    let o := z.occupy t.2 t.1
    let ports := t.1.flatMap fun c => match c with
      | .relay e => relayPorts e.dirs.toNat e.hops.toNat (flockAt e.tile) e.slot.toNat | _ => []
    let of (l : List (Nat × Nat)) (c : Chain) : List Nat := (l.filter fun e => e.1 == c.chain).map Prod.snd
    ((z.sc.chains.find? fun c => !c.small (of o.tiles c) (of o.flocks c)).map fun c => ⟨0, t.2, z.sec 3, c.outTile, 1⟩) <|>
    o.bad.getLast? <|>
    ((o.hops.find? fun h => decide (3 < ((o.hops.filter fun g => g.1 == h.1 && g.2.1 == h.2.1).map fun g => g.2.2).sum)).map fun _ =>
      { template := t.2, entry := z.sec 3 }) <|>
    ((ports.find? fun p => decide (1 < ports.count p)).map fun p => ⟨p.2.2, t.2, z.sec 2, p.1, 2⟩) <|>
    ((t.1.find? fun c => match c with
      | .hop e => decide (8 < (t.1.filter fun g => match g with | .hop h => h.slot == e.slot && h.tile.toNat / 128 == e.tile.toNat / 128 | _ => false).length)
      | _ => false).map fun c => ⟨c.first, t.2, z.sec 2, c.flock, 2⟩)

/-! ## APRON (R190, R193) -/

/-- Apron rows that a cue reads and writes, as (slot, apron row 32 × tile + row). -/
def Cue.rowReads : Cue → List (Nat × Nat)
  | .eval e => (e.slot.toNat, 32 * e.tile.toNat + e.row.toNat) ::
      (if e.fmt = .aw8 then [(e.slot.toNat + 1, 32 * e.tile.toNat + e.rowLo.toNat)] else [])
  | .requant e => if e.srcKind = .apron then (List.range (vecBytes e.srcFmt / 512)).map fun i => (e.slot.toNat, 32 * e.tile.toNat + e.src.toNat + i) else []
  | .move e => if e.toApron then [] else [(e.slot.toNat, 32 * e.tile.toNat + e.row.toNat)]
  | _ => []
def Cue.rowWrites : Cue → List (Nat × Nat)
  | .requant e => (e.slot.toNat, 32 * e.tile.toNat + e.dst.toNat) :: (if e.fmt = .aw8 then [(e.slot.toNat, 32 * e.tile.toNat + e.dstLo.toNat)] else [])
  | .out e => if e.dstKind = .apron then (List.range (vecBytes e.ofmt / 512)).map fun i => (e.slot.toNat, 32 * e.tile.toNat + e.dst.toNat + i) else []
  | .move e => if e.toApron then [(e.slot.toNat, 32 * e.tile.toNat + e.row.toNat)] else []
  | _ => []

def checkApron (z : LoadIn) : Option LoadFail :=
  z.cues.zipIdx.findSome? fun t =>
    let rs := t.1.flatMap Cue.rowReads
    let ws := t.1.flatMap Cue.rowWrites
    let crowded (l : List (Nat × Nat)) (a : Nat × Nat) : Bool := decide (2 < (l.filter fun b => b.1 == a.1 && b.2 / 32 == a.2 / 32).length)
    let bad := (rs.find? fun r => crowded rs r || !(ws.any fun w => w.2 == r.2 && decide (w.1 < r.1))) <|>
      (ws.find? fun w => crowded ws w || decide (1 < ws.count w))
    bad.map fun a => ⟨a.1, t.2, z.sec 2, a.2 / 32, 1⟩

/-! ## Places of data that a cue reads and writes -/

/-- A place: an apron row, wings bytes, or bytes at an offset of a partition window, whichever partition a lane has (R334). -/
inductive Place where
  | row (r : Nat)
  | wings (lo n : Nat)
  | window (lo n : Nat)
  deriving DecidableEq, Repr

/-- Two places can name one byte. -/
def Place.meets (bases : List Nat) : Place → Place → Bool
  | .row a, .row b => a == b
  | .wings a m, .wings b n => overlap a (a + m) b (b + n)
  | .window a m, .window b n => overlap a (a + m) b (b + n)
  | .wings a m, .window b n => bases.any fun w => overlap a (a + m) (w + b) (w + b + n)
  | .window a m, .wings b n => bases.any fun w => overlap (w + a) (w + a + m) b (b + n)
  | _, _ => false

/-- The lane maps of a template. -/
def LoadIn.maps (z : LoadIn) (t : Nat) : List LaneMap := match z.sc.templates[t]? with | some x => x.lanes | none => []

/-- Bytes of a lane's buffer from an offset on; none for a lane in no range. -/
def lanePlaces (maps : List LaneMap) (lane off n : Nat) : List Place :=
  match maps.find? fun r => r.first ≤ lane && lane < r.first + r.count with
  | some r => [.window (r.offset + 128 * r.stride * (lane - r.first) + off) n]
  | none => []

/-- The whole buffer of a lane. -/
def laneWhole (maps : List LaneMap) (lane : Nat) : List Place :=
  match maps.find? fun r => r.first ≤ lane && lane < r.first + r.count with
  | some r => lanePlaces maps lane 0 (128 * r.stride)
  | none => []

/-- Places of a vector operand of a tile cue. -/
def vecPlaces (maps : List LaneMap) (k : DataKind) (v tile lane n : Nat) : List Place :=
  match k with
  | .wings => [.wings v n]
  | .apron => (List.range (n / 512)).map fun i => .row (32 * tile + v + i)
  | .laneBuf => lanePlaces maps lane v n

def operandPlaces (maps : List LaneMap) (k : KernelCue) (o : KOperand) : List Place :=
  let n := opSize o
  match o.kind with
  | .wings => (List.range k.nlanes.toNat).map fun i => .wings (o.addr.toNat + i * n) n
  | .laneBuf => (List.range k.nlanes.toNat).flatMap fun i => lanePlaces maps (k.lane.toNat + i) o.addr.toNat n
  | _ => []

def hbmPlaces (maps : List LaneMap) (c : HbmCue) : List Place :=
  match c.tkind with
  | .wings => [.wings c.target.toNat (hbmBytes c)]
  | .laneBuf => lanePlaces maps c.lane.toNat c.target.toNat (hbmBytes c)
  | .localBuf => []

/-- The wings side of a MOVE. -/
def movePlaces (maps : List LaneMap) (e : MoveCue) : List Place :=
  if e.laneBuf then lanePlaces maps e.lane.toNat e.waddr.toNat 512 else [.wings e.waddr.toNat 512]

/-- What a cue or link record reads and writes, and its first and last slot. -/
structure Access where
  first : Nat
  last : Nat
  reads : List Place
  writes : List Place

/-- Regular slots of an expert (R167). -/
def Script.regular (sc : Script) (layer expert : Nat) : Nat :=
  ((sc.experts.slots.find? fun e => e.layer == layer && e.expert == expert).map ExpertSlots.regular).getD 0

/-- A cue's accesses. PLACE copies arrival buffers into regular lanes in its slot (R339). -/
def LoadIn.access (z : LoadIn) (maps : List LaneMap) (c : Cue) : Access :=
  let go (r w : List Place) : Access := ⟨c.first, c.lastSlot, r, w⟩
  match c with
  | .eval _ => go (c.rowReads.map fun r => .row r.2) []
  | .requant e => go (vecPlaces maps e.srcKind e.src.toNat e.tile.toNat e.lane.toNat (vecBytes e.srcFmt)) (c.rowWrites.map fun r => .row r.2)
  | .out e => go [] (vecPlaces maps e.dstKind e.dst.toNat e.tile.toNat e.lane.toNat (vecBytes e.ofmt))
  | .move e => if e.toApron then go (movePlaces maps e) (c.rowWrites.map fun r => .row r.2) else go (c.rowReads.map fun r => .row r.2) (movePlaces maps e)
  | .kernel _ k => go (operandPlaces maps k k.op0 ++ operandPlaces maps k k.op1 ++ operandPlaces maps k k.op2) (operandPlaces maps k k.op3)
  | .place e =>
    go ((List.range e.arrN.toNat).flatMap fun i => laneWhole maps (e.arrLane.toNat + i))
      ((List.range (z.sc.regular e.layer.toNat e.expert.toNat)).flatMap fun i => laneWhole maps (e.regLane.toNat + i))
  | .hbmRd e => go [] (hbmPlaces maps e)
  | .hbmWr e => go (hbmPlaces maps e) []
  | _ => go [] []

/-- A link record's accesses: the buffers of the lane range at its WINGS address (log 52), or the bytes there. -/
def LinkEnt.access (maps : List LaneMap) (e : LinkEnt) : Access :=
  let r := e.rec_
  let p : List Place := match maps.find? fun m => m.offset == r.wings.toNat && (e.dir != 1 || m.kind == 1) with
    | some m => [.window m.offset (128 * m.stride * m.count)]
    | none => [.wings r.wings.toNat r.bytes.toNat]
  ⟨r.first.toNat, r.first.toNat + r.slots.toNat - 1, if e.dir = 0 then p else [], if e.dir = 1 then p else []⟩

/-- Every access of a template. -/
def LoadIn.accesses (z : LoadIn) (t : Nat) (cs : List Cue) : List Access :=
  cs.map (z.access (z.maps t)) ++ (z.sc.links.filter fun e => e.template == t).map (LinkEnt.access (z.maps t))

/-- The bases of the declared partition windows. -/
def LoadIn.bases (z : LoadIn) : List Nat := z.sc.wings.window.map Prod.snd

def meetAny (bases : List Nat) (ps qs : List Place) : Bool := ps.any fun p => qs.any (p.meets bases)

/-! ## WINGS, ENGINE, HBM -/

/-- The partition that a bank has, 16 for COMMON, 31 for none. -/
def LoadIn.bank (z : LoadIn) (b : Nat) : Nat := sgetD z.sc.wings.owner b 31

/-- The tenant whose admission slot a lane belongs to: the i-th admission range is that of the template's i-th slot (R334, R232). -/
def LoadIn.laneTenant (z : LoadIn) (t lane : Nat) : Option Nat :=
  let adm := (z.maps t).filter fun r => r.kind == 0
  let slots := match z.sc.admission[t]? with | some a => a.slots | none => []
  (adm.zip slots).findSome? fun p => if p.1.first ≤ lane && lane < p.1.first + p.1.count then some p.2.tenant else none

/-- A cue's lane with the fixed wings ranges it reads and writes for that lane (R198); a kernel has one for each lane. -/
def LoadIn.served (z : LoadIn) (t : Nat) (c : Cue) : List (Nat × List Place × List Place) :=
  let a := z.access (z.maps t) c
  let rows (o : KOperand) (i : Nat) : List Place := if o.kind = .wings then [.wings (o.addr.toNat + i * opSize o) (opSize o)] else []
  match c with
  | .requant e => [(e.lane.toNat, a.reads, [])]
  | .out e => [(e.lane.toNat, [], a.writes)]
  | .move e => [(e.lane.toNat, a.reads, a.writes)]
  | .kernel _ k => (List.range k.nlanes.toNat).map fun i => (k.lane.toNat + i, rows k.op0 i ++ rows k.op1 i ++ rows k.op2 i, rows k.op3 i)
  | _ => []

/-- A fixed wings range lies in a bank that a partition's cue may not read or write (R198). -/
def LoadIn.barred (z : LoadIn) (tenant : Nat) (write : Bool) : Place → Bool
  | .wings lo n => (banksOf lo n).any fun b => !(z.bank b == tenant || (!write && z.bank b == 16))
  | _ => false

/-- No cue writes a fixed place in a COMMON or unassigned bank or reads one in an unassigned bank (R197, R198), and none whose lane has
one tenant's admission slot reaches a bank of another (R199). -/
def LoadIn.wingsBad (z : LoadIn) (t : Nat) (c : Cue) : Bool :=
  let a := z.access (z.maps t) c
  let odd (write : Bool) : Place → Bool
    | .wings lo n => (banksOf lo n).any fun b => z.bank b == 31 || (write && z.bank b == 16)
    | _ => false
  a.reads.any (odd false) || a.writes.any (odd true) ||
    (z.served t c).any fun s => match z.laneTenant t s.1 with
      | some p => s.2.1.any (z.barred p false) || s.2.2.any (z.barred p true)
      | none => false

/-- A lane range lies, in every partition's window, in banks of that partition (R197, R334). -/
def LoadIn.rangeOk (z : LoadIn) (r : LaneMap) : Bool :=
  z.sc.wings.window.all fun w => (banksOf (w.2 + r.offset) (128 * r.stride * r.count)).all fun b => z.bank b == w.1

/-- Line accesses of a wings range in a bank: one for a line read or wholly written, two for a line written in part (R196). -/
def lineUses (bank lo n : Nat) (write : Bool) : Nat :=
  ((linesOf lo n).map fun l =>
    if l / 8192 != bank then 0 else if write && !(decide (lo ≤ 128 * l) && decide (128 * l + 128 ≤ lo + n)) then 2 else 1).sum

/-- Accesses of a place in a bank, for the choice of partitions that loads the bank most (R334). -/
def LoadIn.uses (z : LoadIn) (bank : Nat) (write : Bool) : Place → Nat
  | .wings lo n => lineUses bank lo n write
  | .window lo n => match sget z.sc.wings.window (z.bank bank) with | some w => lineUses bank (w + lo) n write | none => 0
  | .row _ => 0

/-- Accesses of a bank in a frame: one every 2 digital clocks (R196). -/
def LoadIn.bankRoom (z : LoadIn) : Nat := if Config.gradeE then 11 * z.sc.hdr.period / 10 else 5 * z.sc.hdr.period / 4

/-- The cues and link records of a template leave 1 in 64 of every bank's accesses free (R196). -/
def LoadIn.banksFree (z : LoadIn) (t : Nat) (cs : List Cue) : Option Nat :=
  let as := z.accesses t cs
  (List.range 256).find? fun b =>
    decide (63 * z.bankRoom < 64 * (as.map fun a => (a.reads.map (z.uses b false)).sum + (a.writes.map (z.uses b true)).sum).sum)

/-- R196, R197, R199, R334; what the engines and the Prompter's scale table add to a bank's accesses, and lanes whose tenants differ from
frame to frame, have no encoding that tells (log 55). -/
def checkWings (z : LoadIn) : Option LoadFail :=
  z.firstCue z.wingsBad <|>
  (z.cues.zipIdx.findSome? fun t =>
    if (z.maps t.2).all z.rangeOk then (z.banksFree t.2 t.1).map fun b => ⟨0, t.2, z.sec 2, b, 3⟩
    else some ⟨0, t.2, z.sec 2, 0, 0⟩) <|>
  z.unless (Config.openCheck 0x0C z.file z.x z.y) 0x0C

/-- Pools that may run a kernel family (R155, R182). -/
def famPools : Nat → List Nat
  | 0 => [0, 5, 6] | 1 => [0] | 2 => [0, 1, 2] | 3 => [1, 2] | 4 => [1, 2] | 5 => [1, 2] | 6 => [3] | 7 => [0] | 8 => [4] | 9 => [4] | 10 => [5] | _ => [6]

/-- Kernels of a template. -/
def kernelsOf (cs : List Cue) : List KernelCue := cs.filterMap fun c => match c with | .kernel _ k => some k | _ => none

/-- Tenants that a kernel is known to serve, from the admission slots of its lanes. -/
def LoadIn.kernelTenants (z : LoadIn) (t : Nat) (k : KernelCue) : List Nat :=
  ((List.range k.nlanes.toNat).filterMap fun i => z.laneTenant t (k.lane.toNat + i)).dedup

/-- Tenants that a thread serves in a template. -/
def LoadIn.threadTenants (z : LoadIn) (t : Nat) (ks : List KernelCue) (thread : Nat) : List Nat :=
  ((ks.filter fun k => 64 * k.engine.toNat + k.thread.toNat == thread).flatMap (z.kernelTenants t)).dedup

/-- A shared partition is open to threads of different tenants (R147). -/
def LoadIn.sharedBad (z : LoadIn) (t : Nat) (cs : List Cue) (p : SharedPart) : Bool :=
  decide (1 < (p.threads.flatMap (z.threadTenants t (kernelsOf cs))).dedup.length)

/-- Granules of an engine's local buffer that an operand names. -/
def localGranules (k : KernelCue) (o : KOperand) : List Nat :=
  let n := opSize o * k.nlanes.toNat
  if o.kind = .localBuf && n != 0 then (List.range (ceilDiv n 4096)).map (o.addr.toNat + ·) else []

/-- A kernel reads a granule whose latest writer in the template served another tenant, without clearing it (R201). -/
def LoadIn.staleRead (z : LoadIn) (t : Nat) (cs : List Cue) (k : KernelCue) : Bool :=
  let before := (kernelsOf cs).filter fun w => w.engine == k.engine && decide (w.last.toNat < k.slot.toNat)
  let mine := z.kernelTenants t k
  !k.clear && (localGranules k k.op0 ++ localGranules k k.op1 ++ localGranules k k.op2).any fun g =>
    let ws := before.filter fun w => (localGranules w w.op3).contains g
    match ws.find? fun w => ws.all fun v => decide (v.last.toNat ≤ w.last.toNat) with
    | some w => (z.kernelTenants t w).any fun q => mine.any fun p => p != q
    | none => false

/-- A kernel names a granule of the local buffer outside its thread's partitions (R147). -/
def PoolInfo.strays (p : PoolInfo) (k : KernelCue) : Bool :=
  [k.op0, k.op1, k.op2, k.op3].any fun o => (localGranules k o).any fun g => !p.owns (64 * k.engine.toNat + k.thread.toNat) g

/-- Pools and issue tables of a template (R146, R185): at most 6,144 threads, 64 entries an engine, each a thread of a pool or none. -/
def PoolInfo.ok (p : PoolInfo) : Bool :=
  decide (p.member.length ≤ 6144) && (p.member.all fun m => decide (m.1 < 6144) && decide (m.2 < 7)) &&
    p.issue.all fun e => decide (e.1 < 96) && e.2.length == 64 && e.2.all fun k => match k with
      | some th => decide (th < 64) && (sget p.member (64 * e.1 + th)).isSome
      | none => true

/-- R185, R147 and R201; what passes from one template to the next, and lanes without an admission slot of their own, have no encoding
that tells (log 55). -/
def checkEngine (z : LoadIn) : Option LoadFail :=
  let pool (t : Nat) : PoolInfo := (z.sc.pools[t]?).getD default
  (z.firstCue fun t c => match c with
    | .kernel fam k => match sget (pool t).member (64 * k.engine.toNat + k.thread.toNat) with
      | some p => !(famPools fam).contains p
      | none => true
    | _ => false) <|>
  (z.cues.zipIdx.findSome? fun t =>
    (((pool t.2).shared.find? (z.sharedBad t.2 t.1)).map fun p => ⟨0, t.2, z.sec 7, p.engine, 4⟩) <|>
    (((kernelsOf t.1).find? fun k => (pool t.2).strays k || z.staleRead t.2 t.1 k).map fun k => ⟨k.slot.toNat, t.2, z.sec 2, k.engine.toNat, 4⟩)) <|>
  z.unless (z.sc.pools.all PoolInfo.ok &&
    (z.sc.admission.all fun a => a.slots.all fun s => (if s.decode then a.decodeBudget else a.prefillBudget).getD s.cls 0 != 0) &&
    Config.openCheck 0x0D z.file z.x z.y) 0x07

/-- A local buffer range lies in the private partition of an EXACT-pool thread. -/
def exactOwned (p : PoolInfo) (engine lo n : Nat) : Bool :=
  p.member.any fun m => m.2 == 6 && m.1 / 64 == engine &&
    match sget p.priv m.1 with
    | some g => decide (g.1 * 4096 ≤ lo) && decide (lo + n ≤ (g.1 + g.2) * 4096)
    | none => false

/-- Device memory a cue may name (R341). -/
def hbmAllowed (p : PoolInfo) (c : HbmCue) : Bool :=
  let lo := c.addr.toNat
  let hi := lo + hbmBytes c
  let within (a b : Nat) : Bool := decide (a ≤ lo) && decide (hi ≤ b)
  within 0x6_8000_0000 0x7_0000_0000 || within 0x6_4000_0000 0x6_8000_0000 ||
    (within 0x7_0000_0000 0xC_0000_0000 && c.tkind == .localBuf && exactOwned p c.engine.toNat c.target.toNat (hbmBytes c))

/-- R325's read budget of 400 ns, R341, R205. -/
def checkHbm (z : LoadIn) : Option LoadFail :=
  let h := z.sc.hdr
  let budget := if Config.gradeE then decide (8800 ≤ 10 * h.hbmBudget * z.clocks) else decide (2000 ≤ 2 * h.hbmBudget * z.clocks)
  if !budget then some {}
  else
    (z.firstCue fun t c => match c with
      | .hbmRd e => !hbmAllowed ((z.sc.pools[t]?).getD default) e
      | .hbmWr e => !hbmAllowed ((z.sc.pools[t]?).getD default) e
      | _ => false) <|> z.unless (Config.openCheck 0x0E z.file z.x z.y) 0x02

/-! ## TABLES (R83, R107, R110, R115) -/

/-- A starting entry of the scale table: BASE −28 to +24, reserved bits 0. -/
def qpointOk (v : Nat) : Bool := decide (-28 ≤ sext 6 v) && decide (sext 6 v ≤ 24) && v / 2 ^ 26 == 0

/-- A BF16 scale that is neither NaN nor infinite. -/
def scaleOk (v : Nat) : Bool := fld v 7 8 != 255

def checkTables (z : LoadIn) : Option LoadFail :=
  let n := z.sc.scales.length / 2
  let areas := z.sc.prompter.zipIdx
  (match z.sc.qpoints.findIdx? fun v => !qpointOk v with
    | some i => some ⟨0, 0, z.sec 5, i, 9⟩
    | none => none) <|>
  ((z.all.find? fun tc => match tc.2 with
      | .eval e => decide (z.sc.qpoints.length ≤ e.qpoint.toNat)
      | .requant e => decide (z.sc.qpoints.length ≤ e.qpoint.toNat)
      | _ => false).map fun tc => z.at_ tc) <|>
  z.unless (((List.range n).all fun i => scaleOk (leAt z.sc.scales (2 * i) 2)) && z.sc.chains.all fun c => decide (c.scales + 1024 ≤ z.sc.scales.length)) 4 <|>
  z.unless ((areas.all fun a => decide (a.1.tile < 8192) && decide (a.1.slot < 16) && decide (0x0C0 ≤ a.1.off) && decide (a.1.off + a.1.len ≤ 4096)) &&
    areas.all fun a => areas.all fun b => a.2 == b.2 || a.1.tile != b.1.tile || !overlap a.1.off (a.1.off + a.1.len) b.1.off (b.1.off + b.1.len)) 6

/-! ## REPEAT (R125, R338) -/

/-- Repeat windows of a flock: first slot and end. -/
def repeatWins (cs : List Cue) (flock : Nat) : List (Nat × Nat) :=
  cs.filterMap fun c => match c with
    | .repeatWin w => if w.flock.toNat = flock then some (w.slot.toNat, w.slot.toNat + w.slots.toNat) else none
    | _ => none

/-- The window that serves a request of an evaluation: the next one after its result has landed (R54). -/
def servingWin (cs : List Cue) (e : EvalCue) : Option (Nat × Nat) :=
  let s := e.slot.toNat + (if e.fmt = .aw8 then 3 else 2)
  (repeatWins cs (e.tile.toNat / 128)).foldl (fun (m : Option (Nat × Nat)) w =>
    if w.1 < s then m else match m with
      | some v => if w.1 < v.1 then some w else m
      | none => some w) none

/-- An evaluation that can raise a request (R120): any but an AW8 one whose range code less its point's WIDEN, which only rises (R128), is
0. -/
def mayRepeat (z : LoadIn) (e : EvalCue) : Bool :=
  e.fmt == .an4 || decide (qWiden (z.sc.qpoints.getD e.qpoint.toNat 0) < e.range.toNat)

/-- Evaluations of a template. -/
def evalsOf (cs : List Cue) : List EvalCue := cs.filterMap fun c => match c with | .eval e => some e | _ => none

/-- End of the last window that can serve a requantised block: those of the evaluations of its row, before the row is written again. -/
def blockEnd (z : LoadIn) (cs : List Cue) (q : RequantCue) : Nat :=
  let row := 32 * q.tile.toNat + q.dst.toNat
  let next := cs.foldl (fun n c => c.rowWrites.foldl (fun n w => if w.2 = row && q.slot.toNat < w.1 then min n w.1 else n) n) 65536
  (evalsOf cs).foldl (fun m e =>
    if e.tile == q.tile && e.row == q.dst && q.slot.toNat < e.slot.toNat && e.slot.toNat ≤ next && mayRepeat z e then
      match servingWin cs e with | some w => max m w.2 | none => m
    else m) 0

/-- End of the last window that can merge into an output. -/
def outEnd (z : LoadIn) (cs : List Cue) (o : OutCue) : Nat :=
  (evalsOf cs).foldl (fun m e =>
    if e.chain == o.chain && e.lane == o.lane && e.slot.toNat < o.slot.toNat && mayRepeat z e then
      match servingWin cs e with | some w => max m w.2 | none => m
    else m) 0

/-- Tile-phases of the REHEARSE_WIN cues of a flock. -/
def rehearsed (cs : List Cue) (flock : Nat) : Nat :=
  (cs.map fun c => match c with | .rehearseWin w => if w.flock.toNat = flock then w.slots.toNat * w.tiles.toNat else 0 | _ => 0).sum

/-- R125: cues and link records that touch a source or an output before the end of the windows that may still use it. -/
def checkRepeat (z : LoadIn) : Option LoadFail :=
  z.cues.zipIdx.findSome? fun t =>
    let cs := t.1
    let spans := (z.occupy t.2 cs).spans
    let as := z.accesses t.2 cs
    let of (c : Cue) : Access := z.access (z.maps t.2) c
    ((List.range 64).find? fun f => decide (rehearsed cs f < 4)).map (fun f => (⟨0, t.2, z.sec 2, f, 2⟩ : LoadFail)) <|>
    ((cs.find? fun c => match c with
      | .eval e => mayRepeat z e && (servingWin cs e).isNone
      | .requant q =>
        let b := blockEnd z cs q
        as.any fun w => decide (q.slot.toNat ≤ w.last) && decide (w.first < b) && meetAny z.bases (of c).reads w.writes
      | .out o =>
        let b := outEnd z cs o
        as.any fun r => decide (o.slot.toNat < r.last) && decide (r.first < b) && meetAny z.bases (of c).writes r.reads
      | .repeatWin w => spans.any fun s => s.1 / 128 == w.flock.toNat && overlap s.2.1 s.2.2 w.slot.toNat (w.slot.toNat + w.slots.toNat)
      | _ => false).map fun c => z.at_ (t.2, c))

/-! ## ADMISSION, KV -/

/-- Tokens that the admission slots of a device can bring into one frame: 8 for a DECODE slot, a chunk for a PREFILL one (R232, R184). -/
def AdmTemplate.tokens (a : AdmTemplate) (chunk : Nat) : Nat := (a.slots.map fun s => if s.decode then 8 else chunk).sum

/-- Tokens that the admission slots of the whole herd can deliver to a shared expert in one frame, in the fullest template (R166). -/
def LoadIn.sharedLoad (z : LoadIn) : Nat :=
  let adms := z.sc.hdr.positions.map fun p => (Config.parseAdmission (secBytes z.file z.dir 9 p.1 p.2)).getD []
  ((List.range (z.sc.hdr.cycle + 1)).map fun t => (adms.map fun a => ((a[t]?).map fun x => x.tokens z.sc.hdr.chunk).getD 0).sum).foldl max 0

/-- R166. -/
def LoadIn.sharedOk (z : LoadIn) : Bool :=
  z.sc.experts.layers.all fun l => match l.shared with | some n => decide (z.sharedLoad ≤ n) | none => true

/-- R224; classes and tenant partitions that the script declares; R166. -/
def checkAdmission (z : LoadIn) : Option LoadFail :=
  let declared (tenant : Nat) : Bool := z.sc.wings.owner.any fun b => b.2 == tenant
  (z.sc.admission.zipIdx.findSome? fun t =>
    if 4096 < t.1.slots.length * (z.sc.hdr.depth + 3) then some { template := t.2, entry := z.sec 9 }
    else (t.1.slots.findIdx? fun s => !(decide (s.cls < 4) && decide (s.tenant < 16) && declared s.tenant)).map fun i => ⟨0, t.2, z.sec 9, i, 8⟩) <|>
  z.unless z.sharedOk 8

/-- Devices with Lk above 0, and a device's share on each of them. -/
def kvOwners (ds : List KvDev) : List KvDev := ds.filter fun k => k.lk != 0

/-- The LINKS records of a device, empty when they break their form. -/
def LoadIn.linksAt (z : LoadIn) (x y : Nat) : List LinkEnt := (parseLinks (secBytes z.file z.dir 0x0A x y)).getD []

/-- Devices that enter steps: their share is not zero on the KV-owning devices (R499). -/
def kvEntries (ds : List KvDev) : List KvDev :=
  ds.zipIdx.filterMap fun k => if (kvOwners ds).all fun o => o.shares.getD k.2 0 != 0 then some k.1 else none

/-- Bytes of the KV command lane from one device to another in a template: transfers from 0xF00000 on (R344). -/
def LoadIn.laneBytes (z : LoadIn) (t : Nat) (a b : KvDev) : Nat :=
  ((z.linksAt a.x a.y).map fun e =>
    if e.dir == 0 && e.template == t && decide (0xF00000 ≤ e.rec_.transfer.toNat) && e.rec_.peer.x.toNat == b.x && e.rec_.peer.y.toNat == b.y then
      e.rec_.bytes.toNat else 0).sum

/-- The lane of R254: in every template, CMD commands of 64 B from each entry device to each KV-owning device and CMD replies back. -/
def LoadIn.cmdLane (z : LoadIn) : Bool :=
  let ds := z.sc.kvDevs
  let es := kvEntries ds
  let os := kvOwners ds
  (List.range (z.sc.hdr.cycle + 1)).all fun t => ds.all fun a => ds.all fun b =>
    let roles := b2n (es.contains a && os.contains b) + b2n (os.contains a && es.contains b)
    decide (a = b) || decide (64 * z.sc.hdr.cmd * roles ≤ z.laneBytes t a b)

/-- R254, R256, R499. -/
def checkKv (z : LoadIn) : Option LoadFail :=
  let h := z.sc.hdr
  let ls := z.sc.kvLayers
  let ds := z.sc.kvDevs
  let entries := (List.range ds.length).map fun i => (kvOwners ds).map fun k => k.shares.getD i 0
  z.unless (decide (1 ≤ h.cmd) && decide (h.cmd ≤ 16) &&
    (z.sc.placement.all fun p => ls.any fun l => l.layer == p.layer) && ascending (ls.map KvLayer.layer) &&
    (ls.all fun l => decide (l.x ≤ h.xDim) && decide (l.y ≤ h.yDim)) && (ds.map fun k => (k.x, k.y)) == h.positions &&
    (ds.all fun k => k.lk == (ls.filter fun l => l.x == k.x && l.y == k.y).length) &&
    ((kvOwners ds).all fun k => k.e % 64 == 0 && decide (64 ≤ k.e) && decide (k.e ≤ 64512) && decide (k.shares.sum ≤ 1966080)) &&
    (entries.all fun e => e.all (· == 0) || e.all (· != 0)) && (entries.any fun e => !e.isEmpty && e.all (· != 0)) && z.cmdLane) 0x0B

/-! ## LINKS (R324, R325, R366, R368) -/

/-- Slots within which a unit sent is at the receiver (R368). -/
def LoadIn.reach (z : LoadIn) : Nat := if Config.gradeE then ceilDiv 264 z.clocks else ceilDiv 300 z.clocks

/-- Bytes of a slot on 4 lanes (R324). -/
def LoadIn.payload (z : LoadIn) : Nat := 16 * slotUnits z.clocks 4

/-- Link directions that a record holds, as (link, sends, first slot, end) (R367). -/
def LinkEnt.holds (e : LinkEnt) : List (Nat × Bool × Nat × Nat) :=
  let r := e.rec_
  let f := r.first.toNat
  let n := r.slots.toNat
  match e.dir with
  | 0 => [(r.link.toNat, true, f, f + n)]
  | 1 => [(r.link.toNat, false, f, f + n)]
  | _ => [(r.link.toNat, false, f, f + n), (r.outLink.toNat, true, f + 2, f + n + 2)]

/-- The neighbour's coordinates over a link, and the link it arrives on there (R362). -/
def overLink (x y link : Nat) : Option (Nat × Nat × Nat) :=
  match linkDir link with
  | .west => if x = 0 then none else some (x - 1, y, link + 12)
  | .east => some (x + 1, y, link - 12)
  | .north => some (x, y + 1, link + 12)
  | .south => if y = 0 then none else some (x, y - 1, link - 12)

/-- The link toward a receiver under dimension-ordered routing, x first (R366), is of this direction. -/
def routeDir (x y px py : Nat) : Option Dir :=
  if px < x then some .west else if x < px then some .east else if y < py then some .north else if py < y then some .south else none

/-- Follow a transfer from a device's sending link to its receiver: every device on the way holds a matching record, on the routed
link, far enough behind the one upstream. Answers the devices and record numbers met; none when a rule breaks. -/
def LoadIn.follow (z : LoadIn) (transfer tmpl px py : Nat) : Nat → Nat → Nat → Nat → Nat → Option (List (Nat × Nat × Nat))
  | 0, _, _, _, _ => none
  | n + 1, x, y, link, sentAt => do
    if routeDir x y px py != some (linkDir link) then failure
    let (qx, qy, inLink) ← overLink x y link
    let e ← (z.linksAt qx qy).find? fun e =>
      e.rec_.transfer.toNat == transfer && e.template == tmpl && e.dir != 0 && e.rec_.link.toNat == inLink
    if e.rec_.first.toNat < sentAt + z.reach then failure
    let here := (qx, qy, e.rec_.num.toNat)
    if e.dir = 1 then (if qx = px && qy = py then some [here] else none)
    else (z.follow transfer tmpl px py n qx qy e.rec_.outLink.toNat (e.rec_.first.toNat + 2)).map fun l => here :: l

/-- The records that a send's transfer runs over. PEER of a send is the transfer's receiver (log 59). -/
def LoadIn.path (z : LoadIn) (x y : Nat) (e : LinkEnt) : Option (List (Nat × Nat × Nat)) :=
  (z.follow e.rec_.transfer.toNat e.template e.rec_.peer.x.toNat e.rec_.peer.y.toNat 32 x y e.rec_.link.toNat e.rec_.first.toNat).map
    fun l => (x, y, e.rec_.num.toNat) :: l

/-- The record at PEER that a record's transfer must have there (R324): its receive for a send, its send for a receive, and one end of it
for a forward (log 59). -/
def LoadIn.peerOk (z : LoadIn) (e : LinkEnt) : Bool :=
  (z.linksAt e.rec_.peer.x.toNat e.rec_.peer.y.toNat).any fun f =>
    f.rec_.transfer == e.rec_.transfer && f.template == e.template &&
      (if e.dir = 0 then f.dir == 1 else if e.dir = 1 then f.dir == 0 else f.dir != 2)

def checkLinks (z : LoadIn) : Option LoadFail :=
  let h := z.sc.hdr
  let mine := z.sc.links
  let paths := h.positions.flatMap fun p => ((z.linksAt p.1 p.2).filter fun e => e.dir == 0).filterMap fun e =>
    (z.path p.1 p.2 e).map fun l => (e.template, l)
  let bad (e : LinkEnt) : Bool :=
    let r := e.rec_
    let d := r.data.toNat
    decide (d * z.payload < r.bytes.toNat) || decide (r.slots.toNat < ceilDiv (d * (64 + h.headroom)) 64) ||
      (decide (32 ≤ d) && decide (h.headroom * d < 8 * 64)) ||
      (e.dir == 1 && decide (r.first.toNat ≤ r.consumer.toNat) && decide (r.consumer.toNat < r.first.toNat + r.slots.toNat)) ||
      (mine.any fun f => e.template == f.template && e.rec_.num != f.rec_.num && e.holds.any fun a => f.holds.any fun b =>
        a.1 == b.1 && a.2.1 == b.2.1 && overlap a.2.2.1 a.2.2.2 b.2.2.1 b.2.2.2) ||
      !z.peerOk e || !(paths.any fun p => p.1 == e.template && p.2.contains (z.x, z.y, r.num.toNat))
  (mine.find? bad).map fun e => ⟨e.rec_.first.toNat, e.template, z.sec 0x0A, e.rec_.link.toNat, 5⟩

/-! ## PLACEMENT (R281, R323), SIZE -/

/-- Logical slots that an entry takes. -/
def PlaceEnt.slots (p : PlaceEnt) : List (Nat × Nat × Nat × Nat) :=
  (p.x, p.y, p.tile, p.slot) :: (if p.w8 then [(p.x, p.y, p.tile, p.slot + 1)] else [])

def checkPlacement (z : LoadIn) : Option LoadFail :=
  let ps := z.sc.placement
  let taken := ps.flatMap PlaceEnt.slots
  let slice_ (p : PlaceEnt) : Nat × Nat × Nat × Nat × Nat := (p.layer, p.matrix, p.expert, p.kslice, p.ngroup)
  z.unless (ascending (ps.map fun p => ((p.y * 16 + p.x) * 8192 + p.tile) * 16 + p.slot) && (ps.map slice_).Nodup && taken.Nodup &&
    (ps.all fun p => decide (p.x ≤ z.sc.hdr.xDim) && decide (p.y ≤ z.sc.hdr.yDim) && (!p.w8 || p.slot % 2 == 0) &&
      (decide (p.expert ≤ 512) || p.expert == 1023)) &&
    (ps.all fun p => decide (512 ≤ p.expert) || ps.all fun q => p.layer != q.layer || p.expert != q.expert || (p.x == q.x && p.y == q.y)) &&
    z.sc.chains.all fun c => c.members.all fun m => taken.contains (z.x, z.y, m.1, m.2)) 1

/-- Sections that the device copies into the script image region (R315 order 1). -/
def LoadIn.image (z : LoadIn) : List Byte := z.sc.parts.flatMap fun e => slice z.file e.1 e.2

/-! ## The whole file (R314) -/

/-- Header fields that the signature check itself needs: magic and length. -/
def preFormat (f : List Byte) (room : Nat) : Bool :=
  let n := leAt f 0x40 8
  leAt f 0 4 == 0x53435431 && decide (4096 + 3309 ≤ n) && decide (n ≤ 2 ^ 33) && decide (n ≤ room)

/-- FORMAT after the signature (R319 to R322, R331, R332, R336). -/
def formatOk (f : List Byte) (n : Nat) (es : Option (List DirEnt)) (h : ScriptHdr) : Bool :=
  match es with
  | none => false
  | some es =>
    headerZeros f && h.ranges && !es.isEmpty && extentsOk es n && (es.all fun e => decide (1 ≤ e.type) && decide (e.type ≤ 0x0F)) &&
      (es.all fun e => shake256 (slice f e.off e.len) == e.digest) && requiredTypes.all (typeOk h es)

/-- The checks from ABI on, by ascending cause. -/
def scriptChecks (z : LoadIn) (abiMin abi : Nat) (badStage : Bool) : List (Nat × Option LoadFail) :=
  let h := z.sc.hdr
  let ok (b : Bool) : Option LoadFail := if b then none else some {}
  [(0x04, ok (decide (abiMin ≤ h.abi) && decide (h.abi ≤ abi))), (0x05, ok (h.grade == gradeCode)),
   (0x06, ok (decide (z.x ≤ h.xDim) && decide (z.y ≤ h.yDim))), (0x07, ok (decide (h.sustained ≤ if Config.gradeE then 620 else 760))),
   (0x08, checkTiming z), (0x09, checkCueLimit z), (0x0A, checkChain z), (0x0B, checkApron z), (0x0C, checkWings z), (0x0D, checkEngine z),
   (0x0E, checkHbm z), (0x0F, checkTables z), (0x10, checkRepeat z), (0x11, checkAdmission z),
   (0x12, checkKv z), (0x13, checkLinks z), (0x14, checkPlacement z), (0x15, ok (decide (z.image.length ≤ 2 ^ 30))), (0x16, ok (!badStage))]

/-- Check a staged file under a script key: the cause with its place, or the script with its image. -/
def checkScript (f : List Byte) (room : Nat) (key : Option (List Byte)) (x y abiMin abi : Nat) (badStage : Bool) :
    (Nat × LoadFail) ⊕ (Script × List Byte) :=
  let n := leAt f 0x40 8
  if !preFormat f room then .inl (2, {})
  else if !(key.any fun k => Config.mldsaVerify k (f.take (n - 3309)) (slice f (n - 3309) 3309)) then .inl (3, {})
  else
    let f := f.take n
    let dir := parseDir f
    if !formatOk f n dir (parseHeader f) then .inl (2, {})
    else
      let es := dir.getD []
      let p := parseScript f es x y
      match p.1.templates.mapM Template.parse with
      | none => .inl (2, {})
      | some cues =>
        if p.2.contains 2 then .inl (2, {})
        else
          let z : LoadIn := ⟨f, es, p.1, cues, x, y⟩
          match (scriptChecks z abiMin abi badStage).find? fun c => p.2.contains c.1 || c.2.isSome with
          | some c => .inl (c.1, c.2.getD {})
          | none => .inr (p.1, z.image)

end Sys2Proof.Machine
end

