-- ==== Sys2Proof/Machine/ScriptLoad.lean ====
section
/-! DEFINITION. Loading a script (R314, R315), and the hazard detector's mode (R329). -/
namespace Sys2Proof.Machine

/-- A load ends with a cause (R313). -/
def Dev.scriptErr (d : Dev) (cause : Nat) (w : LoadFail) : Dev :=
  (d.modScr fun s => { s with job := none, err := true, cause := cause, whereSlot := w.slot, whereTemplate := w.template, whereSection := w.entry,
                              unit := w.unit, unitKind := w.kind }).event .script

/-- SCRIPT_LOAD (R314): ignored while BUSY; cause STATE unless the device is READY, has no script and knows its coordinates. -/
def scriptLoad (d : Dev) : Dev :=
  if !d.up || d.scr.job.isSome then d
  else if d.sys.st == .ready && d.scr.script.isNone && d.mesh.at_.isSome then
    d.modScr fun s => { s with job := some (wtStagingBase + 4096 * s.src.toNat) }
  else d.scriptErr 1 {}
def execScriptLoad (s : State) : Host.Outcome State Fault Refusal := s.onDev scriptLoad

/-- The key that scripts are verified under (R461). -/
def Sec.scriptKey (s : Sec) : Option (List Byte) :=
  match s.st with
  | .manufacture => some Config.testKey
  | .vendorDebug => some Config.testKey
  | .locked => s.owner.map OwnerKeys.script
  | .ownerDebug => s.owner.map OwnerKeys.script
  | .dark => none
  | .notYet => none

/-- What a load does before it sets DONE and LOADED (R315). Free lists are whole when nothing is listed; LEARN waits with entry
cause 1 (R127). -/
def Dev.installScript (d : Dev) (sc : Script) (image : List Byte) : Dev :=
  let d := d.clearScript
  let d := d.modMem fun m =>
    let m := m.wrHbm scriptImageBase image
    { m with owner := sc.wings.owner, wings := sc.common.foldl (fun w c => wrN w c.1 c.2) m.wings }
  let d := d.modTile fun t => { t with qtab := sc.qpoints, modeReq := some 1 }
  let d := d.modFrm fun f => { f with frame := 0, played := 0 }
  (d.modScr fun s => { s with srcAt := s.job.getD 0, job := none, script := some sc, done := true, cause := 0, whereSlot := 0, whereTemplate := 0, whereSection := 0,
                              unit := 0, unitKind := 0 }).event .script

/-- SCRIPT_LOAD_DONE: the file is checked whole, and accepted whole or refused whole (R313). -/
def scriptLoadDone (d : Dev) : Dev :=
  match d.scr.job with
  | none => d
  | some a =>
    if !d.up then d
    else
      let room := 0x5_C000_0000 - a
      let n := min room (leNat (d.hbmRd (a + 0x40) 8))
      let f := d.hbmRd a (max n 0x48)
      let c := d.coord
      match checkScript f room d.sec.scriptKey c.x.toNat c.y.toNat d.sys.abiMin.toNat d.sys.abiLevel.toNat (d.mem.isBad a n) with
      | .inl e => d.scriptErr e.1 e.2
      | .inr r => d.installScript r.1 r.2
def execScriptLoadDone (s : State) : Host.Outcome State Fault Refusal := s.onDev scriptLoadDone

/-- SCRIPT_LOAD_ABORT: a running load ends with cause ABORTED (R318). -/
def scriptLoadAbort (d : Dev) : Dev := if d.up && d.scr.job.isSome then d.scriptErr 0x17 {} else d
def execScriptLoadAbort (s : State) : Host.Outcome State Fault Refusal := s.onDev scriptLoadAbort

/-- HAZARD_MODE_WRITE (R329): MODE 1 and 2 need D1, MODE 3 needs D2; other writes are ignored. -/
def hazardModeWrite (mode : BitVec 2) (d : Dev) : Dev :=
  let need := if mode = 3 then 2 else if mode = 0 then 0 else 1
  if d.up && decide (need ≤ d.sec.level) then
    (d.modScr fun s => { s with hazMode := mode }).modMem fun m => if mode = 0 then { m with writer := [], apronTag := (0, 0) } else m
  else d
def execHazardModeWrite (mode : BitVec 2) (s : State) : Host.Outcome State Fault Refusal := s.onDev (hazardModeWrite mode)

end Sys2Proof.Machine
end

