-- ==== Sys2Proof/Machine/Registers.lean ====
section
/-! DEFINITION. The register blocks of BAR0 (R384): what each register reads, and what a write does by its access code (R7, R10),
for the host (BAR0), the JTAG port and I3C. High words of 64-bit pairs read from a latch per path (R6). -/
namespace Sys2Proof.Machine

/-! ## Words -/

/-- An offset as an index into an array of n registers that starts at `base`. -/
def regIdx (off base n : Nat) : Option Nat := if base ≤ off && off < base + 4 * n then some ((off - base) / 4) else none

/-- A field placed at a bit position. -/
def put (lo v : Nat) : Nat := v * 2 ^ lo

/-- 12-bit two's complement. -/
def t12 (i : Int) : Nat := trunc 12 i

/-- A 1.15 code of a ratio. -/
def q15 (q : Rat) : Nat := min 65535 (rne (q * 32768)).toNat

/-- Word n of a byte list. -/
def wordAt (bs : List Byte) (n : Nat) : Nat := leAt bs (4 * n) 4

/-! ## AON word (R475), GEN, HOST, SEC, DBG -/

/-- THERM_TRIP (R446). -/
def Thm.tripWord (m : Thm) : Nat := m.tripCount + put 8 m.tripDiode + put 9 m.tripCause + put 11 (b2n m.tripLatched)

/-- The AON_READ word (R475). -/
def Dev.aonWord (d : Dev) : Nat :=
  d.sys.st.code + put 4 d.sec.st.code + put 8 d.sec.level + put 12 (d.thm.tripWord) + put 24 (b2n d.dbg.deniedFlag)

def parkCode : ParkPhase → Nat
  | .none => 0 | .draining => 1 | .parked => 2 | .waking => 3

/-- GEN_PINS (R498). -/
def Dev.pins (d : Dev) : Nat :=
  let s := d.sys
  b2n s.freezeN + put 1 (b2n s.bypassN) + put 2 (b2n s.prsnt) + put 3 (b2n s.perst) + put 4 (b2n s.switches) + put 5 (b2n d.alert)
    + put 6 (b2n s.thermTripN) + put 8 s.pg.toNat

def Dev.genRead (d : Dev) (off : Nat) : Nat :=
  let s := d.sys
  if off = 0x00 then genId
  else if off = 0x08 then s.compat
  else if off = 0x10 then s.st.code
  else if off = 0x14 then put 2 (b2n s.autoWake)
  else if off = 0x18 then b2n s.parkScope + put 1 (parkCode s.parkPhase)
  else if off = 0x1C then s.parkCount
  else if off = 0x20 then d.pins
  else if off = 0x24 then s.glFreeze + put 8 s.glBypass + put 16 s.glPrsnt + put 24 s.glTickIn
  else 0

/-- A word of the MSI-X table (R392). -/
def MsixEnt.word (e : MsixEnt) (n : Nat) : Nat :=
  if n = 0 then e.addr.toNat % 2 ^ 32 else if n = 1 then e.addr.toNat / 2 ^ 32 else if n = 2 then e.data.toNat else b2n e.mask

def Dev.hostRead (d : Dev) (off : Nat) : Nat :=
  let h := d.host
  if off = 0x00 then
    b2n h.up + put 1 (if !h.up then 0 else if h.pcie then 2 else 1) + put 3 h.width.toNat + put 8 h.speed.toNat + put 11 (b2n h.memActive)
      + put 12 (b2n h.bme)
  else if off = 0x04 then h.linkLoss
  else if off = 0x08 then h.evtVector.toNat + put 16 (b2n h.evtOn)
  else if off = 0x0C then h.evtStatus.toNat
  else if off = 0x10 then h.evtEn.toNat
  else match regIdx off 0x20 6, regIdx off 0x8000 8192, regIdx off 0x10000 64 with
    | some n, _, _ => sgetD h.dma n 0
    | _, some n, _ => (sgetD h.msix (n / 4) {}).word (n % 4)
    | _, _, some n => ((List.range 32).map fun i => put i (b2n (h.msixPend.contains (32 * n + i)))).sum
    | _, _, _ => 0

def Dev.secRead (d : Dev) (off : Nat) : Nat :=
  let s := d.sec
  if off = 0x00 then
    s.st.code + put 4 s.level + put 6 s.max + put 8 (b2n (s.shown && s.owner.isSome)) + put 9 (b2n s.boSlot) + put 10 (b2n s.smSlot)
      + put 11 (b2n s.smRun) + put 12 s.dhCause
  else if off = 0x04 then s.level
  else if off = 0x08 then if s.shown then s.bootCount.toNat else 0
  else if off = 0x0C then s.boVer.toNat
  else if off = 0x10 then s.smVer.toNat
  else if off = 0x14 then if s.shown then s.floorBo.toNat + put 16 s.floorSm.toNat else 0
  else if off = 0x20 then put 3 (b2n s.fwKind) + put 8 s.fwUnits.toNat
  else if off = 0x24 then put 1 (b2n s.fwDone) + put 2 (b2n s.fwErr) + put 4 s.fwCause + put 8 (s.buffer.length / 4096)
  else match regIdx off 0x100000 262144 with
    | some n => (sgetD s.win n 0).toNat
    | none => 0

def Dev.dbgRead (d : Dev) (off : Nat) : Nat :=
  let b := d.dbg
  if off = 0x04 then
    b2n b.frozen + put 1 (b2n b.holdPin) + put 2 (b2n (b.holdCmd || b.holdJtag)) + put 3 (b2n b.holdHazard) + put 4 b.remote.length
      + put 13 (b.cause % 8) + put 16 b.origin.x.toNat + put 20 b.origin.y.toNat + put 24 b.seq.toNat
  else if off = 0x08 then b.frozenUs
  else if off = 0x0C then b.frozenCnt
  else if off = 0x10 then b.denied
  else 0

/-! ## CALL -/

/-- Admission slots of a class and kind in the current template (R250). -/
def Dev.classSlots (d : Dev) (c : Nat) (decode : Bool) : Nat :=
  match d.scr.script.bind fun sc => sc.admission[d.template]? with
  | some a => (a.slots.filter fun s => s.cls == c && s.decode == decode).length
  | none => 0

/-- CALL_ADP_SLOT[n] (R251). -/
def Call.slotWord (c : Call) (n : Nat) : Nat :=
  match sget c.adpSlots n with
  | some s => (if s.ready then 2 else 1) + put 2 (b2n s.retire) + put 4 s.tenant + put 8 s.refs
  | none => 0

/-- The share of this device, as entry device, on the selected device (R280). -/
def Dev.shareSize (d : Dev) (k : KvDev) : Nat := match d.kvIndex d.coord with | some i => k.shares.getD i 0 | none => 0

def Dev.selShare (d : Dev) (f : KvDev → Nat) : Nat :=
  match d.owners.find? fun k => k.key == 16 * d.kv.selY.toNat + d.kv.selX.toNat with
  | some k => f k
  | none => 0

def Dev.callRead (d : Dev) (off : Nat) : Nat :=
  let c := d.call
  let v := d.kv
  if off = 0x0000 then b2n c.hold
  else if off = 0x0004 then c.cache.length + put 16 c.steps.length
  else if off = 0x0100 then put 8 c.adpSlot.toNat + put 16 c.adpTenant.toNat
  else if off = 0x0104 then c.adpSrc.toNat
  else if off = 0x0108 then b2n c.adpJob.isSome + put 1 (b2n c.adpDone) + put 2 (b2n c.adpErr) + put 3 c.adpCause
  else if off = 0x2000 then v.low.toNat
  else if off = 0x2004 then v.high.toNat
  else if off = 0x2008 then v.leadRes.toNat
  else if off = 0x2010 then put 1 v.op.toNat + put 4 v.session.toNat
  else if off = 0x2014 then v.dst.toNat
  else if off = 0x2018 then v.len.toNat
  else if off = 0x201C then b2n v.job.isSome + put 1 (b2n v.done) + put 2 (b2n v.err) + put 3 v.cause
  else if off = 0x2020 then v.selX.toNat + put 4 v.selY.toNat
  else if off = 0x2024 then d.selShare d.freeOf
  else if off = 0x2028 then d.selShare d.shareSize
  else match regIdx off 0x10 16, regIdx off 0x60 4, regIdx off 0x400 512, regIdx off 0xF00 13, regIdx off 0x1000 256, regIdx off 0x2040 10 with
    | some n, _, _, _, _, _ => sgetD c.cnt n 0
    | _, some n, _, _, _, _ => d.classSlots n true + put 12 (d.classSlots n false)
    | _, _, some n, _, _, _ => if n % 2 = 0 then c.slotWord (n / 2) else (sgetD c.adpSlots (n / 2) {}).version.toNat
    | _, _, _, some n, _, _ => sgetD c.routeCnt n 0
    | _, _, _, _, some n, _ => let e := sgetD c.adpDir n (0, false); e.1 + put 8 (b2n e.2)
    | _, _, _, _, _, some n => sgetD v.cnt n 0
    | _, _, _, _, _, _ => 0

/-! ## SCRIPT -/

/-- Word n of the four hazard records (R330). -/
def Scr.hazWord (s : Scr) (n : Nat) : Nat :=
  match s.haz[n / 4]? with
  | some r =>
    if n % 4 = 0 then r.found + put 24 r.foundFrame
    else if n % 4 = 1 then r.slot + put 16 r.template + put 20 r.store + put 23 1
    else if n % 4 = 2 then r.reader
    else r.expect + put 24 r.distance
  | none => 0

/-- SCRIPT_POOL[n] (R186). -/
def Dev.poolWord (d : Dev) (n : Nat) : Nat :=
  match d.scr.script.bind fun sc => sc.pools[d.template]? with
  | some p => (p.member.filter fun m => m.2 == n).length + put 16 (d.eng.prevActive.filter fun t => sget p.member t == some n).length
  | none => 0

/-- SCRIPT_WT_STATUS (R311): REMAIN counts the TARGET manifest's sections not yet loaded or recorded, those of R290 among them. -/
def Dev.wtStatus (d : Dev) : Nat :=
  let w := d.wts
  let m := if w.target then w.next else w.cur
  let left := match m with
    | some m => (m.secs.filter fun e => !e.done || (!w.target && d.needsRestore e.layer)).length
    | none => 0
  b2n w.job.isSome + put 1 (b2n w.done) + put 2 (b2n w.err) + put 4 w.cause + put 8 (b2n d.curOk) + put 9 (b2n w.next.isSome)
    + put 10 (b2n w.mismatch) + put 12 left

/-- SCRIPT_WT_EPOCH.NEXT: the epoch that the raise will set (R289, R311). -/
def Wts.nextEpoch (w : Wts) : Nat :=
  match w.next with
  | some m => if m.digest != w.lastDigest then (if w.epoch = 65535 then 1 else w.epoch + 1) else 0
  | none => 0

def Dev.frameStatus (d : Dev) : Nat :=
  let f := d.frm
  b2n d.bellwether + put 1 (b2n f.tickLock) + put 2 (b2n f.tickInLost) + put 3 f.throttle + put 7 f.phaseBand + put 9 (b2n f.aborted)

/-- The header of the loaded script, all 0 with none. -/
def Scr.hdr (s : Scr) : ScriptHdr := match s.script with | some sc => sc.hdr | none => {}

def Dev.scriptRead (d : Dev) (off : Nat) : Nat :=
  let s := d.scr
  let h := s.hdr
  let f := d.frm
  let w := d.wts
  let on := s.script.isSome
  if off = 0x004 then s.src.toNat
  else if off = 0x008 then b2n s.job.isSome + put 1 (b2n s.done) + put 2 (b2n s.err) + put 3 (b2n on) + put 4 s.cause
  else if off = 0x00C then s.whereSlot + put 16 s.whereTemplate + put 20 s.whereSection
  else if off = 0x010 then s.unit + put 16 s.unitKind
  else if off = 0x014 then d.sys.abiMin.toNat + put 8 d.sys.abiLevel.toNat + put 16 h.abi
  else if off = 0x018 then h.xDim + put 4 h.yDim + put 8 h.depth + put 16 h.cmd
  else if off = 0x040 then h.version
  else if off = 0x080 then s.hazMode.toNat
  else if off = 0x084 then b2n d.hazActive + put 1 (b2n s.hazLost)
  else if off = 0x088 then s.hazCnt
  else if off = 0x100 then h.period + put 18 h.declBand + put 20 h.cycle
  else if off = 0x104 then h.tickBudget + put 16 h.workSlots
  else if off = 0x108 then b2n f.tickInEn
  else if off = 0x10C then d.frameStatus
  else if off = 0x110 then f.frame % 2 ^ 32
  else if off = 0x118 then f.lat + put 16 f.path
  else if off = 0x120 then f.stretchFrames
  else if off = 0x124 then f.stretchTotal % 2 ^ 32
  else if off = 0x12C then f.stretchMax
  else if off = 0x130 then f.overruns
  else if off = 0x134 then f.lastCauses + put 8 f.lastX + put 12 f.lastY
  else if off = 0x180 then f.stallSlots
  else if off = 0x204 then b2n d.tile.learn + put 1 d.tile.entry + put 4 d.tile.left
  else if off = 0x208 then d.tile.updates
  else if off = 0x20C then d.tile.replays
  else if off = 0x320 then d.eng.late
  else if off = 0x500 then w.manOff.toNat
  else if off = 0x504 then put 3 (b2n w.target) + put 4 (b2n w.mode)
  else if off = 0x508 then w.secOff.toNat
  else if off = 0x50C then w.index.toNat
  else if off = 0x510 then d.wtStatus
  else if off = 0x514 then w.epoch + put 16 w.nextEpoch
  else if off = 0x524 then w.phase + put 4 (if w.phase = 3 || w.phase = 5 then w.own.length + (w.toRewrite false).length else 0) + put 16 w.failX + put 20 w.failY
  else if off = 0x528 then w.timeUs
  else match regIdx off 0x20 8, regIdx off 0xC0 16, regIdx off 0x140 8, regIdx off 0x160 8, regIdx off 0x300 8, regIdx off 0x400 64 with
    | some n, _, _, _, _, _ => match s.script with | some sc => wordAt sc.id n | none => 0
    | _, some n, _, _, _, _ => s.hazWord n
    | _, _, some n, _, _, _ => sgetD f.stretchCause n 0
    | _, _, _, some n, _, _ => sgetD f.stallCause n 0
    | _, _, _, _, some n, _ => d.poolWord n
    | _, _, _, _, _, some n =>
      let o (i : Nat) : Nat := sgetD d.mem.owner (4 * n + i) 31
      o 0 + put 8 (o 1) + put 16 (o 2) + put 24 (o 3)
    | _, _, _, _, _, _ => 0

/-! ## TILE -/

/-- The array that TILE_WIN_SEL names. -/
def Dev.selArr (d : Dev) : Nat := 17 * d.tile.winTile.toNat + d.tile.winArray.toNat

/-- A precision counter of the selected flock, or of all (R133). -/
def Tile.precWord (t : Tile) (n : Nat) : Nat :=
  if t.precAll then min (2 ^ 32 - 1) ((List.range 64).map fun f => sgetD t.precCnt (16 * f + n) 0).sum
  else sgetD t.precCnt (16 * t.precFlock.toNat + n) 0

def Dev.winArrayWord (d : Dev) : Nat :=
  let x := d.arr d.selArr
  x.role + put 2 (if x.role = 0 then x.pslot else 0) + put 6 x.rowMap.length + put 10 (b2n x.stale) + put 11 (b2n x.due)
    + put 16 (min 65535 x.hours)

/-- Gains of the selected group; a free understudy holds no weights and reads 0x8000 (R101). -/
def Dev.winGroupWord (d : Dev) (lo hi : Grp → Nat) : Nat :=
  let x := d.arr d.selArr
  if x.role = 1 then 0x8000 + put 16 0x8000 else lo (x.grp d.tile.winGroup.toNat) + put 16 (hi (x.grp d.tile.winGroup.toNat))

def Exact.status (x : Exact) : Nat :=
  b2n x.job.isSome + put 1 (b2n x.done) + put 2 (b2n x.err) + put 4 x.phases.length + put 17 x.cause

/-- TILE_REFRESH_STATUS (R312). -/
def Tile.refreshWord (t : Tile) : Nat :=
  t.active.length + put 12 (b2n t.noVprog) + put 16 (t.arrs.filter fun a => a.2.suspended).length

def Dev.tileRead (d : Dev) (off : Nat) : Nat :=
  let t := d.tile
  let x := t.exact
  let w := d.wts
  let a := d.arr d.selArr
  if off = 0x000 then t.winTile.toNat + put 16 t.winArray.toNat + put 24 t.winGroup.toNat
  else if off = 0x004 then d.winArrayWord
  else if off = 0x008 then d.winGroupWord Grp.gain fun _ => q15 (d.gTarget d.selArr t.winGroup.toNat)
  else if off = 0x00C then d.winGroupWord (fun _ => (Config.factoryGain d.selArr t.winGroup.toNat).toNat) fun g => q15 g.ratio
  else if off = 0x010 then a.writes + put 20 (if a.pstate = 1 && d.dbg.frozen then 2 else a.pstate) + put 23 (b2n a.suspended) + put 24 (b2n a.overdue) + put 25 (b2n a.worn)
  else if off = 0x400 then t.precFlock.toNat + put 6 (b2n t.precAll)
  else if off = 0x800 then put 1 x.kind.toNat
  else if off = 0x804 then x.tile.toNat + put 16 x.slot.toNat
  else if off = 0x808 then x.layer.toNat
  else if off = 0x80C then x.session.toNat
  else if off = 0x810 then x.status
  else if off = 0x814 then x.rms
  else if off = 0x818 then x.max
  else if off = 0x81C then x.bound
  else if off = 0x820 then x.over_
  else if off = 0xC00 then put 16 w.hcSel.toNat
  else if off = 0xC04 then b2n w.hcBusy.isSome + put 1 (b2n w.hcDone) + put 2 (b2n w.hcMismatch) + put 3 (b2n w.hcCensusBad) + put 16 w.hcLayer
  else if off = 0xC60 then w.hcFound
  else if off = 0x1000 then b2n t.hold
  else if off = 0x1004 then t.refreshWord
  else if off = 0x1008 then (t.arrs.filter fun a => a.2.due).length
  else match regIdx off 0x100 64, regIdx off 0x410 12, regIdx off 0x840 8, regIdx off 0xC20 8, regIdx off 0xC40 8, regIdx off 0x1010 10 with
    | some n, _, _, _, _, _ => sgetD d.thm.band n 0 + put 4 (sgetD d.thm.bandChanges n 0)
    | _, some n, _, _, _, _ => t.precWord n
    | _, _, some n, _, _, _ => wordAt x.digest n
    | _, _, _, some n, _, _ => wordAt w.hcDigest n
    | _, _, _, _, some n, _ => wordAt w.hcExpect n
    | _, _, _, _, _, some n => sgetD t.progCnt n 0
    | _, _, _, _, _, _ => 0

/-! ## MESH -/

/-- MESH_LINK_STAT[n] (R380). -/
def Link.statWord (l : Link) : Nat :=
  l.st + put 3 l.lanes.toNat + put 7 l.disabled.toNat + put 11 l.partX.toNat + put 15 l.partY.toNat + put 19 l.partK.toNat + put 23 (b2n l.bypassed)

/-- Lanes in a mask. -/
def maskLanes (m : BitVec 4) : Nat := ((List.range 4).filter fun i => m.getLsbD i).length

/-- MESH_BUNDLE[b]: links up, active lanes, SHORT, and whether some link has a partner (R380). -/
def Dev.bundleWord (d : Dev) (b : Nat) : Nat :=
  let ls := (List.range 12).map fun i => d.link (12 * b + i)
  let up := ls.filter Link.working
  up.length + put 4 (up.map fun l => maskLanes l.lanes).sum + put 10 (b2n (d.mesh.short.contains b))
    + put 11 (b2n (ls.any fun l => decide (2 ≤ l.st) && l.st != 7))

/-- A MESH_CNT counter of the selected link, or of all. -/
def Mesh.cntWord (m : Mesh) (n : Nat) : Nat :=
  if m.cntAll then min (2 ^ 32 - 1) ((List.range 48).map fun l => sgetD m.cnt (16 * l + n) 0).sum else sgetD m.cnt (16 * m.cntLink.toNat + n) 0

def Dev.meshRead (d : Dev) (off : Nat) : Nat :=
  let m := d.mesh
  if off = 0x000 then m.herd.toNat + put 8 m.x.toNat + put 12 m.y.toNat + put 31 (b2n m.lock)
  else if off = 0x008 then m.disc + put 3 m.result + put 8 m.seenX.toNat + put 12 m.seenY.toNat + put 16 m.devices
  else if off = 0x00C then m.discCount
  else if off = 0x300 then m.cntLink.toNat + put 6 (b2n m.cntAll)
  else if off = 0x800 then b2n m.ethEn + put 4 m.ethVlan.toNat + put 16 m.ethPort.toNat
  else if off = 0x804 then m.ethSpeed.toNat
  else if off = 0x808 then m.ethInterval.toNat
  else match regIdx off 0x100 48, regIdx off 0x200 48, regIdx off 0x310 12, regIdx off 0x400 4, regIdx off 0x810 4 with
    | some n, _, _, _, _ => (d.link n).statWord
    | _, some n, _, _, _ => (d.link n).delay
    | _, _, some n, _, _ => m.cntWord n
    | _, _, _, some n, _ => d.bundleWord n
    | _, _, _, _, some n => (sgetD m.ethDest n 0).toNat
    | _, _, _, _, _ => 0

/-! ## THERM, HKC, ERR -/

/-- THERM_THM[m] (R446). -/
def Thermistor.word (h : Thermistor) : Nat :=
  t12 h.temp + put 12 (b2n h.valid) + put 13 (b2n h.isOpen) + put 14 (b2n h.short) + put 15 (b2n h.high)
def Thermistor.cfgWord (h : Thermistor) : Nat := h.beta.toNat + put 14 h.rnom.toNat + put 30 (b2n h.en)

def Dev.thermRead (d : Dev) (off : Nat) : Nat :=
  let m := d.thm
  if off = 0x000 then
    b2n m.warn + put 1 (b2n (m.level != 0)) + put 2 m.level + put 6 m.excl.toNat + put 14 (b2n (decide (2 ≤ m.excluded)))
  else if off = 0x004 then t12 m.hot + put 12 m.hotDiode + put 16 (t12 m.peak)
  else if off = 0x008 then m.vset + put 10 (b2n m.avsErr)
  else if off = 0x00C then m.pwrMv.toNat + put 12 m.pwrAmps.toNat
  else if off = 0x010 then m.avgW + put 16 m.maxW
  else if off = 0x014 then m.tripWord
  else if off = 0x018 then tripAge d.now m.trip1 + put 12 (tripAge d.now m.trip2)
  else if off = 0x200 then m.thmA.word
  else if off = 0x204 then m.thmB.word
  else if off = 0x208 then m.thmA.cfgWord
  else if off = 0x20C then m.thmB.cfgWord
  else if off = 0x210 then m.thmA.alarm.toNat
  else if off = 0x214 then m.thmB.alarm.toNat
  else match regIdx off 0x20 8, regIdx off 0x100 64, regIdx off 0x310 6 with
    | some n, _, _ => t12 (sgetD m.diode n 0) + put 12 (b2n (sget m.diode n).isSome) + put 13 (b2n (m.excl.getLsbD n))
    | _, some n, _ => t12 (sgetD m.ro n 0) + put 12 (b2n (m.roFault.contains n))
    | _, _, some n => sgetD m.cnt n 0
    | _, _, _ => 0

def Dev.hkcRead (d : Dev) (off : Nat) : Nat :=
  let h := d.hkc
  if off = 0x00 then h.chan.toNat
  else if off = 0x04 then put 4 h.n.toNat + put 8 h.urgChan.toNat
  else if off = 0x08 then h.ref.toNat
  else if off = 0x0C then h.extUv.toNat
  else if off = 0x10 then
    b2n h.burst.isSome + put 1 (b2n h.done) + put 2 (b2n h.err) + put 3 (b2n h.settled) + put 4 (b2n h.clipped) + put 5 (b2n h.urg.isSome)
      + put 6 (b2n h.urgDone) + put 7 (min 15 h.aborts) + put 11 h.curRef
  else if off = 0x14 then h.acc
  else if off = 0x18 then h.min + put 16 h.max
  else if off = 0x1C then h.urgAcc
  else if off = 0x20 then h.urgMin + put 16 h.urgMax
  else match regIdx off 0x100 32 with
    | some n => let e := sgetD h.mon n (0, 0); e.1 + put 16 e.2
    | none => 0

/-- The selected record (R421). -/
def Err.selected (e : Err) : Option ErrRec :=
  if e.selRing then sget e.ring e.selIndex.toNat else (sget e.stack e.selIndex.toNat).map Prod.fst

/-- The selected unit's history (R421). -/
def Err.selHist (e : Err) : Hist := sgetD e.hist (histKey e.histKind.toNat e.histUnit.toNat) {}

/-- Units of a store as ERR_MEM_SEL numbers them (R188, R215). -/
def storeUnits (store : Nat) : Nat :=
  if store = 2 then 256 else if store = 3 then 96 else if store = 5 then 128 else 8192
/-- Spares of one unit by the store's code (R188). -/
def sparesOf (store : Nat) : Nat :=
  if store = 0 then 2 else if store = 1 then 1 else if store = 2 then 16 else if store = 3 then 16 else 1

/-- A figure of the selected unit, or its sum over the store. -/
def Mem.selected (m : Mem) (f : Nat → Nat) : Nat :=
  let s := m.selStore.toNat
  if m.selAll then ((List.range (storeUnits s)).map fun u => f (8192 * s + u)).sum else f (8192 * s + m.selUnit.toNat)

/-- ERR_MEM_SPARE (R215), each field within its width. -/
def Mem.spareWord (m : Mem) : Nat :=
  let s := m.selStore.toNat
  let used := m.selected fun k => (sgetD m.spares k {}).used
  let pend := m.selected fun k => (sgetD m.spares k {}).pending
  let all := m.selected fun k => if s = 5 then Config.hbmResources (k % 8192) else sparesOf s
  min 255 used + put 8 (min 255 (all - used)) + put 16 (min 255 pend)

def Dev.errRead (d : Dev) (off : Nat) : Nat :=
  let e := d.err
  let m := d.mem
  if off = 0x000 then
    e.stack.length + put 5 (e.stack.filter fun r => decide (14 ≤ r.1)).length + put 7 (b2n e.logFull) + put 8 (b2n e.stackOvf) + put 9 e.worst
  else if off = 0x008 then e.tail.toNat
  else if off = 0x00C then e.head.toNat
  else if off = 0x010 then b2n e.selRing + put 1 e.selIndex.toNat
  else if off = 0x400 then m.selStore.toNat + put 8 (b2n m.selAll) + put 16 m.selUnit.toNat
  else if off = 0x408 then m.spareWord
  else if off = 0x40C then sgetD m.passes m.selStore.toNat 0
  else if off = 0x800 then e.histKind.toNat + put 8 e.histUnit.toNat
  else if off = 0x804 then e.selHist.score + put 8 e.selHist.events + put 16 e.selHist.verdict
  else if off = 0x808 then e.selHist.hours
  else if off = 0x810 then b2n e.struck + put 1 (b2n e.drained) + put 8 e.commits
  else match regIdx off 0x40 32, regIdx off 0x100 8, regIdx off 0x410 6 with
    | some n, _, _ => match e.selected with | some r => r.words.getD n 0 | none => 0
    | _, some n, _ => sgetD e.cnt n 0
    | _, _, some n => min (2 ^ 32 - 1) (m.selected fun k => sgetD m.cnt (8 * k + n) 0)
    | _, _, _ => 0

/-! ## A read over one path (R6, R384, R455) -/

/-- The block that an offset lies in, as R384 lists the blocks. -/
def regBlock (off : Nat) : Nat :=
  if off < 0x100000 then 0 else if off < 0x200000 then 1 else if off < 0x400000 then 2 else if off < 0x800000 then 3
  else if off < 0x1000000 then 4 else if off < 0x1400000 then 5 else if off < 0x1500000 then 6 else if off < 0x1600000 then 7
  else if off < 0x1800000 then 8 else if off < 0x1C00000 then 9 else 10

/-- A live register: every block in the states past BOOT, GEN, HOST and SEC alone in DARK_HOUSE. -/
def Dev.liveRead (d : Dev) (off : Nat) : Nat :=
  let b := regBlock off
  if off % 4 != 0 then 0
  else if b = 0 then d.genRead off
  else if b = 1 then d.hostRead (off - 0x100000)
  else if b = 9 then d.secRead (off - 0x1800000)
  else if !d.up then 0
  else if b = 2 then d.callRead (off - 0x200000)
  else if b = 3 then d.scriptRead (off - 0x400000)
  else if b = 4 then d.tileRead (off - 0x800000)
  else if b = 5 then d.meshRead (off - 0x1000000)
  else if b = 6 then d.thermRead (off - 0x1400000)
  else if b = 7 then d.hkcRead (off - 0x1500000)
  else if b = 8 then d.errRead (off - 0x1600000)
  else d.dbgRead (off - 0x1C00000)

/-- The 64-bit pairs: low word and live high word; SCRIPT_FRAME_COUNT and SCRIPT_STRETCH_TOTAL. -/
def Dev.pairHigh (d : Dev) (pair : Nat) : Nat := if pair = 0 then d.frm.frame / 2 ^ 32 else d.frm.stretchTotal / 2 ^ 32

def pairOfLow (off : Nat) : Option Nat := if off = 0x400110 then some 0 else if off = 0x400124 then some 1 else none
def pairOfHigh (off : Nat) : Option Nat := if off = 0x400114 then some 0 else if off = 0x400128 then some 1 else none

/-- A read over a path (0 BAR0, 1 JTAG, 2 I3C): a low word loads the latch of its pair, a high word is the latch. -/
def Dev.pathRead (d : Dev) (path off : Nat) : Dev × Word :=
  match pairOfLow off, pairOfHigh off with
  | some p, _ =>
    (if d.up then d.modSys fun s => { s with latch := sput s.latch (4 * p + path) (BitVec.ofNat 32 (d.pairHigh p)) } else d,
     BitVec.ofNat 32 (d.liveRead off))
  | none, some p => (d, if d.up then sgetD d.sys.latch (4 * p + path) 0 else 0)
  | none, none => (d, BitVec.ofNat 32 (d.liveRead off))

/-! ## Writes -/

/-- Bits of a written word. -/
def wbit (v : Word) (i : Nat) : Bool := v.getLsbD i
def wfld (v : Word) (lo w : Nat) : Nat := fld v.toNat lo w
/-- W1C: a written 1 clears the bit (R7). -/
def w1c (old : Bool) (v : Word) (i : Nat) : Bool := old && !wbit v i
/-- Run an action that a written 1 triggers (R7 WO). -/
def Dev.on (d : Dev) (c : Bool) (f : Dev → Dev) : Dev := if c then f d else d

def Dev.genWrite (d : Dev) (off : Nat) (v : Word) : Dev :=
  if off = 0x14 then (((d.modSys fun s => { s with autoWake := wbit v 2 }).on (wbit v 0) genPark).on (wbit v 1) genWake) else d

/-- HOST_CNT_CLR (R398). -/
def hostCntClr (d : Dev) : Dev := if d.barOk then d.modHost fun h => { h with linkLoss := 0, dma := [] } else d
/-- HOST_EVT_CLEAR (R393). -/
def hostEvtClear (bits : BitVec 10) (d : Dev) : Dev := if d.barOk then d.clearEvents bits else d

/-- A word of an MSI-X table entry; unmasking a vector with its pending bit set sends its message (R392). -/
def Dev.msixWrite (d : Dev) (n : Nat) (v : Word) : Dev :=
  let i := n / 4
  let e := sgetD d.host.msix i {}
  let e : MsixEnt :=
    if n % 4 = 0 then { e with addr := (e.addr &&& 0xFFFFFFFF00000000) ||| v.zeroExtend 64 }
    else if n % 4 = 1 then { e with addr := (e.addr &&& 0xFFFFFFFF) ||| (v.zeroExtend 64 <<< 32) }
    else if n % 4 = 2 then { e with data := v }
    else { e with mask := wbit v 0 }
  let d := d.modHost fun h => { h with msix := sput h.msix i e }
  if d.host.msixPend.contains i && d.host.msixSends && !e.mask then d.sendMsix i else d

def Dev.hostWrite (d : Dev) (off : Nat) (v : Word) : Dev :=
  if off = 0x08 then d.modHost fun h => { h with evtVector := BitVec.ofNat 11 v.toNat, evtOn := wbit v 16 }
  else if off = 0x0C then d.clearEvents (BitVec.ofNat 10 v.toNat)
  else if off = 0x10 then
    d.modHost fun h =>
      let en := BitVec.ofNat 10 v.toNat
      { h with evtEn := en, armed := h.armed || (h.evtStatus &&& en == 0) }
  else if off = 0x1C then d.on (wbit v 0) hostCntClr
  else match regIdx off 0x8000 8192 with
    | some n => d.msixWrite n v
    | none => d

/-- SEC_FW_CTRL: KIND and UNITS, then APPEND, COMMIT and CANCEL. -/
def Dev.fwCtrl (d : Dev) (v : Word) : Dev :=
  let kind := wbit v 3
  let units := BitVec.ofNat 9 (wfld v 8 9)
  let d := d.modSec fun s => s.fwFields kind units
  ((d.on (wbit v 0) (fwAppend kind units)).on (wbit v 1) (fwCommit kind (!d.tile.noVprog))).on (wbit v 2) fwCancel

def Dev.secWrite (d : Dev) (off : Nat) (v : Word) : Dev :=
  if off = 0x04 then (secDbgLevel (BitVec.ofNat 2 v.toNat) d).on (wbit v 2) secDbgExit
  else if off = 0x20 then d.fwCtrl v
  else if off = 0x24 then d.modSec fun s => { s with fwDone := w1c s.fwDone v 1, fwErr := w1c s.fwErr v 2 }
  else match regIdx off 0x100000 262144 with
    | some n => d.modSec fun s => { s with win := if v = 0 then sdel s.win n else sput s.win n v }
    | none => d

def Dev.dbgWrite (d : Dev) (off : Nat) (v : Word) : Dev :=
  if off = 0x00 then (d.on (wbit v 0) (dbgFreeze d.now)).on (wbit v 1) (dbgThaw d.now) else d

/-- CALL_KV_CMD: OP 3 is reserved and keeps its previous value (R10). -/
def Dev.kvCmdWrite (d : Dev) (v : Word) : Dev :=
  let op := if wfld v 1 2 = 3 then d.kv.op.toNat else wfld v 1 2
  if wbit v 0 then d.kvCommand op (wfld v 4 20)
  else d.modKv fun k => { k with op := BitVec.ofNat 2 op, session := BitVec.ofNat 20 (wfld v 4 20) }

def Dev.callWrite (d : Dev) (off : Nat) (v : Word) : Dev :=
  if off = 0x0000 then d.modCall fun c => { c with hold := wbit v 0 }
  else if off = 0x0050 then d.on (wbit v 0) fun d => d.modCall fun c => { c with cnt := [] }
  else if off = 0x0100 then
    if wbit v 0 then callAdpLoad (wfld v 8 8) (wfld v 16 4) d
    else d.modCall fun c => { c with adpSlot := BitVec.ofNat 8 (wfld v 8 8), adpTenant := BitVec.ofNat 4 (wfld v 16 4) }
  else if off = 0x0104 then d.modCall fun c => { c with adpSrc := BitVec.ofNat 19 v.toNat }
  else if off = 0x0108 then d.modCall fun c => { c with adpDone := w1c c.adpDone v 1, adpErr := w1c c.adpErr v 2 }
  else if off = 0x0F40 then d.on (wbit v 0) fun d => d.modCall fun c => { c with routeCnt := [] }
  else if off = 0x2000 then d.modKv fun k => { k with low := BitVec.ofNat 21 v.toNat }
  else if off = 0x2004 then d.modKv fun k => { k with high := BitVec.ofNat 21 v.toNat }
  else if off = 0x2008 then d.modKv fun k => { k with leadRes := BitVec.ofNat 21 v.toNat }
  else if off = 0x2010 then d.kvCmdWrite v
  else if off = 0x2014 then d.modKv fun k => { k with dst := BitVec.ofNat 20 v.toNat }
  else if off = 0x2018 then d.modKv fun k => { k with len := BitVec.ofNat 24 v.toNat }
  else if off = 0x201C then d.modKv fun k => { k with done := w1c k.done v 1, err := w1c k.err v 2 }
  else if off = 0x2020 then d.modKv fun k => { k with selX := BitVec.ofNat 4 v.toNat, selY := BitVec.ofNat 4 (wfld v 4 4) }
  else if off = 0x2070 then d.on (wbit v 0) callKvClr
  else match regIdx off 0x400 512, regIdx off 0x1000 256 with
    | some n, _ => if n % 2 = 0 && wbit v 3 then retireReq (n / 2) d else d
    | _, some n => callAdpDirWrite n (wfld v 0 8) (wbit v 8) d
    | none, none => d

/-- SCRIPT_WT_CTRL: TARGET and MODE, then VERIFY, LOAD and ABORT. -/
def Dev.wtCtrl (d : Dev) (v : Word) : Dev :=
  let n := wbit v 3
  let p := wbit v 4
  let d := d.modWts fun w => w.ctrl n p
  ((d.on (wbit v 0) (wtVerify n p)).on (wbit v 1) (wtLoad n p)).on (wbit v 2) (wtAbort n p)

/-- TICK_IN_EN (R40 to R42): once enabled the input paces frames, its first accepted edge included; written 1 again it leaves what the
input has shown. -/
def Frm.tickInCtrl (f : Frm) (en : Bool) : Frm :=
  if en && !f.tickInEn then { f with tickInEn := true, tickInUse := !f.tickInLost, tickInLast := none } else { f with tickInEn := en }

/-- The SCRIPT block. Where one write of SCRIPT_PREC_CTRL sets both bits, FORCE_SERVICE is taken as the later (R130; log 123, DESIGN
CHOICE). -/
def Dev.scriptWrite (d : Dev) (off : Nat) (v : Word) : Dev :=
  if off = 0x000 then ((d.on (wbit v 0) scriptLoad).on (wbit v 1) scriptUnload).on (wbit v 2) scriptLoadAbort
  else if off = 0x004 then d.modScr fun s => { s with src := BitVec.ofNat 22 v.toNat }
  else if off = 0x008 then d.modScr fun s => { s with done := w1c s.done v 1, err := w1c s.err v 2 }
  else if off = 0x080 then hazardModeWrite (BitVec.ofNat 2 v.toNat) d
  else if off = 0x084 then d.modScr fun s => { s with hazLost := w1c s.hazLost v 1 }
  else if off = 0x108 then d.modFrm fun f => f.tickInCtrl (wbit v 0)
  else if off = 0x10C then (d.on (wbit v 2) tickInLostClear).modFrm fun f => { f with aborted := w1c f.aborted v 9 }
  else if off = 0x13C then d.on (wbit v 0) scriptStretchClr
  else if off = 0x200 then (d.on (wbit v 0) (forceMode true)).on (wbit v 1) (forceMode false)
  else if off = 0x500 then d.modWts fun w => { w with manOff := BitVec.ofNat 22 v.toNat }
  else if off = 0x504 then d.wtCtrl v
  else if off = 0x508 then d.modWts fun w => { w with secOff := BitVec.ofNat 22 v.toNat }
  else if off = 0x50C then d.modWts fun w => { w with index := BitVec.ofNat 12 v.toNat }
  else if off = 0x510 then d.modWts fun w => { w with done := w1c w.done v 1, err := w1c w.err v 2 }
  else if off = 0x520 then (d.on (wbit v 0) (curtainLower d.now)).on (wbit v 1) curtainAbandon
  else d

/-- TILE_EXACT_CTRL: KIND 2 and 3 are reserved (R10); START, ABORT. -/
def Dev.exactCtrl (d : Dev) (v : Word) : Dev :=
  let kind := if wfld v 1 2 < 2 then BitVec.ofNat 2 (wfld v 1 2) else d.tile.exact.kind
  let d := d.modTile fun t => { t with exact := { t.exact with kind := kind } }
  (d.on (wbit v 0) (exactStart (kind == 1))).on (wbit v 3) exactAbort

def Dev.tileWrite (d : Dev) (off : Nat) (v : Word) : Dev :=
  if off = 0x000 then
    d.modTile fun t => { t with winTile := BitVec.ofNat 13 v.toNat, winGroup := BitVec.ofNat 4 (wfld v 24 4),
                                winArray := if wfld v 16 5 ≤ 16 then BitVec.ofNat 5 (wfld v 16 5) else t.winArray }
  else if off = 0x400 then d.modTile fun t => { t with precFlock := BitVec.ofNat 6 v.toNat, precAll := wbit v 6 }
  else if off = 0x408 then d.on (wbit v 0) tilePrecClr
  else if off = 0x800 then d.exactCtrl v
  else if off = 0x804 then
    d.modTile fun t => { t with exact := { t.exact with tile := BitVec.ofNat 13 v.toNat, slot := BitVec.ofNat 4 (wfld v 16 4) } }
  else if off = 0x808 then d.modTile fun t => { t with exact := { t.exact with layer := BitVec.ofNat 10 v.toNat } }
  else if off = 0x80C then d.modTile fun t => { t with exact := { t.exact with session := BitVec.ofNat 20 v.toNat } }
  else if off = 0x810 then
    d.modTile fun t => { t with exact := { t.exact with done := w1c t.exact.done v 1, err := w1c t.exact.err v 2 } }
  else if off = 0xC00 then
    if wbit v 0 then tileHcStart (BitVec.ofNat 10 (wfld v 16 10)) d else d.modWts fun w => { w with hcSel := BitVec.ofNat 10 (wfld v 16 10) }
  else if off = 0xC04 then
    d.modWts fun w => { w with hcDone := w1c w.hcDone v 1, hcMismatch := w1c w.hcMismatch v 2, hcCensusBad := w1c w.hcCensusBad v 3 }
  else if off = 0x1000 then d.modTile fun t => { t with hold := wbit v 0 }
  else if off = 0x100C then d.on (wbit v 0) tileProgClr
  else d

/-- The MESH block. MESH_CNT_SEL.LINK 48 to 63 names no link: it is taken as written and its counters read 0 (R10, R380; log 122, DESIGN
CHOICE). -/
def Dev.meshWrite (d : Dev) (off : Nat) (v : Word) : Dev :=
  if off = 0x000 then meshIdWrite (BitVec.ofNat 8 v.toNat) (BitVec.ofNat 4 (wfld v 8 4)) (BitVec.ofNat 4 (wfld v 12 4)) (wbit v 31) d
  else if off = 0x004 then (d.on (wbit v 0) meshRediscover).on (wbit v 1) meshLaneRetry
  else if off = 0x300 then d.modMesh fun m => { m with cntLink := BitVec.ofNat 6 v.toNat, cntAll := wbit v 6 }
  else if off = 0x304 then d.on (wbit v 0) meshCntClr
  else if off = 0x800 then
    d.modMesh fun m => { m with ethEn := wbit v 0, ethVlan := BitVec.ofNat 12 (wfld v 4 12), ethPort := BitVec.ofNat 16 (wfld v 16 16) }
  else if off = 0x808 then d.modMesh fun m => { m with ethInterval := if wfld v 0 14 = 0 then m.ethInterval else BitVec.ofNat 14 v.toNat }
  else match regIdx off 0x810 4 with
    | some n => d.modMesh fun m => { m with ethDest := sput m.ethDest n v }
    | none => d

/-- THERM_THM_CFG[m]. -/
def Thermistor.config (h : Thermistor) (v : Word) : Thermistor :=
  { h with beta := BitVec.ofNat 14 v.toNat, rnom := BitVec.ofNat 16 (wfld v 14 16), en := wbit v 30 }

def Dev.thermWrite (d : Dev) (off : Nat) (v : Word) : Dev :=
  if off = 0x008 then d.modThm fun m => { m with avsErr := w1c m.avsErr v 10 }
  else if off = 0x208 then d.modThm fun m => { m with thmA := m.thmA.config v }
  else if off = 0x20C then d.modThm fun m => { m with thmB := m.thmB.config v }
  else if off = 0x210 then d.modThm fun m => { m with thmA := { m.thmA with alarm := BitVec.ofNat 12 v.toNat } }
  else if off = 0x214 then d.modThm fun m => { m with thmB := { m.thmB with alarm := BitVec.ofNat 12 v.toNat } }
  else if off = 0x300 then d.on (wbit v 0) thermCntClr
  else d

def Dev.hkcWrite (d : Dev) (off : Nat) (v : Word) : Dev :=
  if off = 0x00 then d.modHkc fun h => { h with chan := BitVec.ofNat 5 v.toNat }
  else if off = 0x04 then
    let n := BitVec.ofNat 4 (wfld v 4 4)
    let u := BitVec.ofNat 5 (wfld v 8 5)
    ((d.modHkc fun h => h.ctrlFields n u).on (wbit v 0) (hkcStart n u)).on (wbit v 1) (hkcUrgent n u)
  else if off = 0x08 then hkcRefWrite (BitVec.ofNat 2 v.toNat) d
  else if off = 0x0C then
    d.modHkc fun h => { h with extUv := if 1000000 ≤ wfld v 0 21 && wfld v 0 21 ≤ 1500000 then BitVec.ofNat 21 v.toNat else h.extUv }
  else if off = 0x10 then
    d.modHkc fun h => { h with done := w1c h.done v 1, err := w1c h.err v 2, urgDone := w1c h.urgDone v 6 }
  else d

/-- The ERR block. An ERR_MEM_SEL.UNIT beyond its store's units and an ERR_REC_SEL.INDEX beyond the records name nothing: they are taken as
written, and what they select reads 0 (R10; log 122, DESIGN CHOICE). ERR_HIST_SEL.KIND 18 to 31 is reserved (R415). -/
def Dev.errWrite (d : Dev) (off : Nat) (v : Word) : Dev :=
  if off = 0x000 then d.modErr fun e => { e with stackOvf := w1c e.stackOvf v 8 }
  else if off = 0x00C then errRingHeadWrite v d
  else if off = 0x010 then d.modErr fun e => { e with selRing := wbit v 0, selIndex := BitVec.ofNat 16 (wfld v 1 16) }
  else if off = 0x014 then d.on (wbit v 0) errStackClrFatal
  else if off = 0x120 then d.on (wbit v 0) errCntClr
  else if off = 0x400 then
    d.modMem fun m => { m with selStore := if wfld v 0 3 < 6 then BitVec.ofNat 3 v.toNat else m.selStore, selAll := wbit v 8,
                               selUnit := BitVec.ofNat 13 (wfld v 16 13) }
  else if off = 0x404 then d.on (wbit v 0) errMemClr
  else if off = 0x800 then d.modErr fun e => { e with histKind := if wfld v 0 5 < 18 then BitVec.ofNat 5 v.toNat else e.histKind, histUnit := BitVec.ofNat 18 (wfld v 8 18) }
  else if off = 0x80C then (d.on (wbit v 0) errHistCommit).on (wbit v 1) clearStruck
  else d

/-- A write of a register by its access code (R7); offsets that no block defines drop it (R384). -/
def Dev.regWrite (d : Dev) (off : Nat) (v : Word) : Dev :=
  let b := regBlock off
  if off % 4 != 0 || !d.barOk then d
  else if b = 0 then d.genWrite off v
  else if b = 1 then d.hostWrite (off - 0x100000) v
  else if b = 9 then d.secWrite (off - 0x1800000) v
  else if !d.up then d
  else if b = 2 then d.callWrite (off - 0x200000) v
  else if b = 3 then d.scriptWrite (off - 0x400000) v
  else if b = 4 then d.tileWrite (off - 0x800000) v
  else if b = 5 then d.meshWrite (off - 0x1000000) v
  else if b = 6 then d.thermWrite (off - 0x1400000) v
  else if b = 7 then d.hkcWrite (off - 0x1500000) v
  else if b = 8 then d.errWrite (off - 0x1600000) v
  else d.dbgWrite (off - 0x1C00000) v

/-! ## BAR0 commands -/

/-- In BOOT a request that reaches the device nonetheless ends in Unsupported Request (R384). -/
def Dev.barBoot (d : Dev) : Bool := d.coreRuns && d.sys.st == .boot

/-- REGISTER_WRITE (R7, R384): one aligned word below 32 MiB, anything else as Unsupported Request. -/
def registerWrite (off value : Word) (d : Dev) : Dev :=
  if d.barBoot || (d.barOk && (off.toNat % 4 != 0 || 0x2000000 ≤ off.toNat)) then d.emit .unsupported
  else if d.barOk then d.regWrite off.toNat value
  else d
def execRegisterWrite (offset value : Word) (s : State) : Host.Outcome State Fault Refusal := s.onDev (registerWrite offset value)

/-- REGISTER_LOW_WORD_READ (R6): a read of one register over BAR0. -/
def registerLowWordRead (off : Word) (d : Dev) : Dev :=
  if d.barBoot || (d.barOk && (off.toNat % 4 != 0 || 0x2000000 ≤ off.toNat)) then d.emit .unsupported
  else if d.barOk then
    let r := d.pathRead 0 off.toNat
    r.1.emit (.bar0 r.2)
  else d
def execRegisterLowWordRead (offset : Word) (s : State) : Host.Outcome State Fault Refusal := s.onDev (registerLowWordRead offset)

/-- BAR0_UNSUPPORTED_ACCESS (R384). -/
def bar0UnsupportedAccess (d : Dev) : Dev := if d.barOk || d.barBoot then d.emit .unsupported else d
def execBar0UnsupportedAccess (_offset : Nat) (_write : Bool) (s : State) : Host.Outcome State Fault Refusal := s.onDev bar0UnsupportedAccess

def execHostCntClr (s : State) : Host.Outcome State Fault Refusal := s.onDev hostCntClr
def execHostEvtClear (bits : BitVec 10) (s : State) : Host.Outcome State Fault Refusal := s.onDev (hostEvtClear bits)

/-- MSIX_UNMASK (R392). -/
def msixUnmask (v : Nat) (d : Dev) : Dev := if d.barOk then d.msixWrite (4 * v + 3) 0 else d
def execMsixUnmask (vector : Fin 2048) (s : State) : Host.Outcome State Fault Refusal := s.onDev (msixUnmask vector.val)

end Sys2Proof.Machine
end

