-- ==== Sys2Proof/Machine/HostPort.lean ====
section
/-! DEFINITION. The host's port: CXL.mem accesses to the window (R213, R214, R218, R385, R386, R389), the host link (R382, R395, R396),
the HDM decoder (R385) and the return to self-refresh in PARKED (R389). -/
namespace Sys2Proof.Machine

/-! ## The window -/

/-- An access reaches device memory: clocked, the link up in CXL mode, the decoder committed (R382, R385, R466). -/
def Dev.memReached (d : Dev) : Bool := d.coreRuns && d.host.up && !d.host.pcie && d.host.hdm.isSome

/-- The window offsets addr to addr + n − 1 exist (R213). -/
def inWindow (addr n : Nat) : Bool := decide (addr + n ≤ windowEnd) && decide (addr < windowEnd)

/-- In PARKED the access takes its stack out of self-refresh (R389). -/
def Dev.wakeStack (d : Dev) (a : Nat) : Dev :=
  if d.sys.st = .parked then d.modSys fun s => { s with selfRefresh := s.selfRefresh &&& ~~~ BitVec.ofNat 4 (2 ^ (hbmChannel a / 32)) } else d

/-- The parts of an access, codeword by codeword: address and bytes. -/
def cwParts (a : Nat) (bs : List Byte) : List (Nat × List Byte) :=
  (cwRange a bs.length).map fun c =>
    let lo := max a (64 * c)
    (lo, (bs.drop (lo - a)).take (64 * c + 64 - lo))

/-- The bitmap's part of a write: bits are set, the summary bit too, and the device may wake (R225, R386, R389). -/
def Dev.setBits (d : Dev) (a : Nat) (bs : List Byte) : Dev :=
  let cw := a / 64
  let d := if d.mem.bad.contains cw then d.sessionMemBad cw { code := 0x0601, cls := 1 } else d
  let old := d.hbmRd a bs.length
  let d := d.hbmWr a (bs.zipIdx.map fun b => b.1 ||| old.getD b.2 0)
  let d := d.modCall fun c => { c with summary := setIns c.summary (cw - bitmapBase / 64) }
  if d.sys.autoWake then d.wakeEvent else d

/-- VALID of a session as a write changed it (R221): it rose, to be initialised at the next scan, or it fell. -/
def Dev.validMoved (before d : Dev) (s : Nat) : Dev :=
  let old := before.ses s 0 % 2
  let new := d.ses s 0 % 2
  if old = 0 && new = 1 then d.modCall fun c => { c with init := setIns c.init s }
  else if old = 1 && new = 0 then d.modCall fun c => { c with init := setDel c.init s, empty := setIns c.empty s }
  else d

/-- Data of a host-owned codeword: a whole one replaces it, a shorter one is merged, or dropped when the codeword is
uncorrectable, which is then handled as a read (R214, R386). -/
def Dev.writeOwned (d : Dev) (a : Nat) (bs : List Byte) : Dev :=
  let cw := a / 64
  if d.mem.bad.contains cw && bs.length < 64 then
    match regionOf a with
    | .sessionTable => (d.readCw .hbm 0 cw [] false 0 0 []).1
    | .inputRing => (d.readCw .hbm 0 cw [] false 0 0 []).1
    | _ => d.modMem fun m => m.count .hbm (hbmChannel a) 2
  else
    let was := d.mem.bad.contains cw
    let d' := d.hbmWr a bs
    let d' := if was then d'.modErr fun e => e.hostWrote cw else d'
    if regionOf a == .sessionTable then Dev.validMoved d d' (a / 2048) else d'

/-- One part of a host write, by R386's rows. -/
def Dev.hostWritePart (d : Dev) (p : Nat × List Byte) : Dev :=
  let d := d.wakeStack p.1
  match regionOf p.1 with
  | .reserved => d
  | .bitmap => d.setBits p.1 p.2
  | .sessionTable => if deviceOwned (p.1 % 2048) then d.callCount 14 else d.writeOwned p.1 p.2
  | _ => d.writeOwned p.1 p.2

/-- A host write (R385, R386). -/
def hostWriteMem (a : Nat) (bs : List Byte) (d : Dev) : Dev :=
  if d.memReached && d.host.memActive then (cwParts a bs).foldl Dev.hostWritePart d else d

/-- HOST_MEM_WRITE: an offset beyond the 24 GiB window does not exist (R213). -/
def execHostMemWrite (addr : Nat) (bytes : List Byte) (s : State) : Host.Outcome State Fault Refusal :=
  if inWindow addr bytes.length then s.onDev (hostWriteMem addr bytes) else .fault .noSuchAddress

/-- CALLBOARD_BIT_SET: a host write that sets callboard bits (R225, R386). -/
def execCallboardBitSet (addr : Nat) (bytes : List Byte) (s : State) : Host.Outcome State Fault Refusal :=
  if inWindow addr bytes.length then s.onDev (hostWriteMem addr bytes) else .fault .noSuchAddress

/-- One part of a host read: data and poison (R386). The symbol errors are those of the first codeword. -/
def Dev.hostReadPart (d : Dev) (a n : Nat) (found : SymErrs) : Dev × List Byte × Bool :=
  let d := d.wakeStack a
  match regionOf a with
  | .reserved => (d, List.replicate n 0, false)
  | r =>
    if r == .sessionTable && deviceOwned (a % 2048) then (d, d.hbmRd a n, false)
    else
      let z := d.readCw .hbm 0 (a / 64) found false 0 0 []
      if z.2 then (z.1.useFree n, (List.range n).map fun i => Config.poisonByte (z.1.freeCtr + i), true)
      else (z.1, z.1.hbmRd a n, false)

/-- A host read: all ones before Memory_Active (R385). -/
def hostReadMem (a n : Nat) (found : SymErrs) (d : Dev) : Dev :=
  if !d.memReached then d
  else if !d.host.memActive then d.emit (.hostData (List.replicate n 0xFF) false)
  else
    let r := (cwRange a n).zipIdx.foldl (fun (z : Dev × List Byte × Bool) c =>
      let lo := max a (64 * c.1)
      let hi := min (a + n) (64 * c.1 + 64)
      let x := z.1.hostReadPart lo (hi - lo) (if c.2 = 0 then found else [])
      (x.1, z.2.1 ++ x.2.1, z.2.2 || x.2.2)) (d, [], false)
    r.1.emit (.hostData r.2.1 r.2.2)

/-- HOST_MEM_READ. -/
def execHostMemRead (addr len : Nat) (found : SymErrs) (s : State) : Host.Outcome State Fault Refusal :=
  if inWindow addr len then s.onDev (hostReadMem addr len found) else .fault .noSuchAddress

/-- HBM_SELF_REFRESH_RETURN (R389): 1 ms without host access, in PARKED. -/
def hbmSelfRefreshReturn (stack : Nat) (d : Dev) : Dev :=
  if d.sys.st = .parked then d.modSys fun s => { s with selfRefresh := s.selfRefresh ||| BitVec.ofNat 4 (2 ^ stack) } else d
def execHbmSelfRefreshReturn (stack : Fin 4) (s : State) : Host.Outcome State Fault Refusal := s.onDev (hbmSelfRefreshReturn stack.val)

/-! ## The host link -/

/-- HOST_LINK_DOWN (R396). -/
def hostLinkDown (d : Dev) : Dev := if d.coreRuns then d.hostDown else d
def execHostLinkDown (s : State) : Host.Outcome State Fault Refusal := s.onDev hostLinkDown

/-- Width and rate of a trained link (R398). -/
def linkFormOk (u : LinkUp) : Bool := (u.width == 4 || u.width == 8 || u.width == 16) && u.speed != 0 && decide (u.speed.toNat ≤ 3)

/-- Pending vectors that are not masked go out (R392, R395). -/
def Dev.sendPending (d : Dev) : Dev :=
  if d.host.msixSends then
    d.host.msixPend.foldl (fun d v => if (sgetD d.host.msix v {}).mask then d else d.sendMsix v) d
  else d

/-- HOST_LINK_UP (R382, R395): after PERST_N is released, in a state in which the CXL controller is clocked, and past BOOT. -/
def hostLinkUp (u : LinkUp) (d : Dev) : Dev :=
  if !d.barOk || d.host.up || d.sys.perst || !linkFormOk u then d
  else
    (d.modHost fun h => { h with up := true, pcie := u.pcie, width := u.width, speed := u.speed, bme := u.bme, msixEnable := u.msix }).sendPending
def execHostLinkUp (u : LinkUp) (s : State) : Host.Outcome State Fault Refusal := s.onDev (hostLinkUp u)

/-- HDM_COMMIT (R385): interleave ways 1, a base aligned to 256 MiB, a size of 24 GiB. -/
def hdmCommit (base size : Word64) (ways : Nat) (d : Dev) : Dev :=
  if d.barOk && d.host.up && !d.host.pcie && ways == 1 && base.toNat % 0x10000000 == 0 && size.toNat == windowEnd then
    d.modHost fun h => { h with hdm := some (base, size) }
  else d
def execHdmCommit (base size : Word64) (ways : Nat) (s : State) : Host.Outcome State Fault Refusal := s.onDev (hdmCommit base size ways)

end Sys2Proof.Machine
end

