-- ==== Sys2Proof/Machine/Jtag.lean ====
section
/-! DEFINITION. The JTAG port (R466, R467, R475) and the I3C target (R497). An operation is performed only when its level and its
power state allow it; a refused JTAG operation acts as BYPASS and counts in DBG_DENIED. -/
namespace Sys2Proof.Machine

/-! ## The matrix (R465, R466) -/

/-- Power states. -/
inductive Power where
  | active | parked | tripped | bypass
  deriving DecidableEq, Repr

/-- R465. -/
def Dev.power (d : Dev) : Power :=
  if d.inReset then .bypass
  else match d.sys.st with
    | .off => .bypass
    | .blackout => .bypass
    | .tripped => .tripped
    | .parked => .parked
    | _ => .active

/-- ACTIVE or PARKED. -/
def Dev.powered (d : Dev) : Bool := d.power == .active || d.power == .parked

/-- An operation of the rows served in ACTIVE and PARKED, at a level. -/
def Dev.allows (d : Dev) (level : Nat) : Bool := d.powered && decide (level ≤ d.sec.level)

/-- The always-on and debug domains run. -/
def Dev.aonRuns (d : Dev) : Bool := d.sys.st != .off

/-- An operation was refused. -/
def Dev.deny (d : Dev) : Dev := d.modDbg fun b => { b with denied := bump b.denied, deniedFlag := true }

/-- Select an instruction. -/
def Dev.select (d : Dev) (i : JtagInstr) : Dev := d.modDbg fun b => { b with instr := i }

/-- Bits of a word, least significant first, as they leave TDO. -/
def bitsOf (n v : Nat) : List Bool := (List.range n).map fun i => bit v i

/-- BYPASS: one bit that captures 0. -/
def Dev.bypass (d : Dev) : Dev := (d.select .bypass).emit (.tdo [false])

/-- A JTAG instruction that is refused. -/
def Dev.refuse (d : Dev) : Dev := d.deny.bypass

/-! ## Instructions -/

def jtagBypass (d : Dev) : Dev := if d.aonRuns then d.bypass else d
def execJtagBypass (s : State) : Host.Outcome State Fault Refusal := s.onDev jtagBypass

/-- IDCODE (R475): the major stepping is the stepping byte's high half (R12). -/
def idcode : Nat := 1 + 2 * 0x0E9 + 2 ^ 12 * 0x1648 + 2 ^ 28 * (Config.stepping.toNat / 16)
def jtagIdcode (d : Dev) : Dev := if d.aonRuns then (d.select .idcode).emit (.tdo (bitsOf 32 idcode)) else d
def execJtagIdcode (s : State) : Host.Outcome State Fault Refusal := s.onDev jtagIdcode

/-- SAMPLE/PRELOAD: the boundary register's capture is shifted out and the value preloaded (log 61). -/
def Dev.boundaryScan (d : Dev) (i : JtagInstr) (value : List Bool) : Dev :=
  (((d.select i).useFree 1).modDbg fun b => { b with boundary := value }).emit (.tdo (Config.boundaryCapture d.freeCtr))
def jtagSamplePreload (value : List Bool) (d : Dev) : Dev := if d.aonRuns then d.boundaryScan .samplePreload value else d
def execJtagSamplePreload (value : List Bool) (s : State) : Host.Outcome State Fault Refusal := s.onDev (jtagSamplePreload value)

/-- EXTEST: only in MANUFACTURE and VENDOR_DEBUG with SYS_RST_N asserted (R466); the boundary register drives the pins. -/
def jtagExtest (d : Dev) : Dev :=
  if !d.aonRuns then d
  else if (d.sec.st == .manufacture || d.sec.st == .vendorDebug) && d.sys.sysRst then d.boundaryScan .extest d.dbg.boundary
  else d.refuse
def execJtagExtest (s : State) : Host.Outcome State Fault Refusal := s.onDev jtagExtest

/-- AON_READ. -/
def jtagAonRead (d : Dev) : Dev := if d.aonRuns then (d.select .aonRead).emit (.tdo (bitsOf 32 d.aonWord)) else d
def execJtagAonRead (s : State) : Host.Outcome State Fault Refusal := s.onDev jtagAonRead

/-! ## Reads of registers and memory -/

/-- The level that a read of a register needs (R466): GEN, THERM, HKC and ERR need D1. -/
def readLevel (off : Nat) : Nat := if regBlock off = 0 || regBlock off = 6 || regBlock off = 7 || regBlock off = 8 then 1 else 2

/-- No frames run: FROZEN, READY or STRUCK without frames (R467). -/
def Dev.memQuiet (d : Dev) : Bool :=
  d.dbg.frozen || d.sys.st == .ready || (d.sys.st == .struck && !d.frm.running)

/-- Non-tenant device memory (R467). -/
def nonTenant (a : Nat) : Bool :=
  match regionOf a with
  | .wtStaging => true | .firmware => true | .scriptImage => true | .census => true | .spill => Config.spillExact a | _ => false

/-- Four bytes of device memory as JTAG reads them, and whether they lie in an uncorrectable codeword. Where the spec gives no layout,
and in an uncorrectable codeword, the bytes are free (log 16, log 66). -/
def Dev.devWord (d : Dev) (a : Nat) : Nat × Bool :=
  if d.mem.isBad a 4 then (leNat ((List.range 4).map fun i => Config.poisonByte (d.freeCtr + i)), true)
  else match regionOf a with
    | .firmware => (leNat ((List.range 4).map fun i => Config.placedByte d.freeCtr (a + i)), false)
    | .census => (leNat ((List.range 4).map fun i => Config.placedByte d.freeCtr (a + i)), false)
    | _ => (leNat (d.hbmRd a 4), false)

/-- A word of an SRAM store: needed level and value; none outside the store (R475 space 2, R191, R195). -/
def Dev.sramWord (d : Dev) (store unit off : Nat) : Option (Nat × Nat) :=
  let tagByte (o : Nat) : Byte := BitVec.ofNat 8 ((sgetD d.mem.tags (d.mem.rowKey unit (o / 2)) 0).toNat / (if o % 2 = 0 then 1 else 256))
  match store with
  | 0 => if unit < 8192 && off + 4 ≤ 17408 then some (3, leNat ((List.range 4).map fun i => rd1 d.mem.apron (512 * d.mem.rowKey unit ((off + i) / 512) + (off + i) % 512)))
    else none
  | 1 => if unit < 8192 && off + 4 ≤ 68 then some (3, leNat ((List.range 4).map fun i => tagByte (off + i))) else none
  | 2 =>
    if unit < 256 && off + 4 ≤ 2 ^ 20 then
      some (if sgetD d.mem.owner unit 31 = 16 then 2 else 3, leNat (rdN d.mem.wings (unit * 2 ^ 20 + off) 4))
    else none
  | 3 => if unit < 96 && off + 4 ≤ 2 ^ 20 then some (3, leNat (rdN d.mem.localBuf (localKey unit off) 4)) else none
  | 4 => if unit < 8192 && off + 4 ≤ 4096 then some (2, leNat (rdN d.mem.prompter (prompterKey unit off) 4)) else none
  | _ => none

/-- What a DBG_ACCESS finds: data and status 0 done, 1 DENIED, 2 uncorrectable. Writes are to registers only, at D3. -/
def Dev.dbgAccess (d : Dev) (r : DbgReq) : Dev × Nat × Nat :=
  let a := r.addr.toNat
  match r.space.toNat with
  | 0 =>
    let off := a % 2 ^ 25
    if r.write then if d.allows 3 then (d.regWrite off r.data, r.data.toNat, 0) else (d.deny, 0, 1)
    else if d.allows (readLevel off) then
      let z := d.pathRead 1 off
      (z.1, z.2.toNat, 0)
    else (d.deny, 0, 1)
  | 1 =>
    if !r.write && d.allows (if nonTenant a then 2 else 3) && d.memQuiet && decide (a + 4 ≤ hbmEnd) then
      let z := d.devWord a
      (d.useFree 4, z.1, if z.2 then 2 else 0)
    else (d.deny, 0, 1)
  | 2 =>
    match d.sramWord (a / 2 ^ 35) (a / 2 ^ 22 % 2 ^ 13) (a % 2 ^ 22) with
    | some z => if !r.write && d.allows z.1 && d.memQuiet then (d, z.2, 0) else (d.deny, 0, 1)
    | none => (d.deny, 0, 1)
  | _ => (d.deny, 0, 1)

/-- DBG_ACCESS: the 77-bit register is shifted out with data and status. -/
def jtagDbgAccess (r : DbgReq) (d : Dev) : Dev :=
  if !d.aonRuns then d
  else
    let z := d.dbgAccess r
    (z.1.select .dbgAccess).emit
      (.tdo (bitsOf 77 (r.addr.toNat + 2 ^ 38 * r.space.toNat + 2 ^ 42 * z.2.1 + 2 ^ 74 * b2n r.write + 2 ^ 75 * z.2.2)))
def execJtagDbgAccess (r : DbgReq) (s : State) : Host.Outcome State Fault Refusal := s.onDev (jtagDbgAccess r)

/-! ## Freeze, kept state, clocks -/

/-- FREEZE at D2: 1 engages the JTAG hold, 0 is the JTAG thaw (R468, R475). -/
def jtagFreeze (engage : Bool) (t : Nat) (d : Dev) : Dev :=
  if !d.aonRuns then d
  else if !d.allows 2 then d.refuse
  else
    let d := (d.select .freeze).emit (.tdo [engage])
    if engage then d.engage 4 t fun b => { b with holdJtag := true } else d.thaw t
def execJtagFreeze (engage : Bool) (t : Nat) (s : State) : Host.Outcome State Fault Refusal := s.onDev (jtagFreeze engage t)

/-- The kept words: the 16 entries of the record stack, an empty one as zeros, then the snapshot. -/
def Err.keptWords (e : Err) : List Nat :=
  (List.range 16).flatMap (fun i => match sget e.stack i with | some r => r.1.words | none => List.replicate 32 0) ++ e.snapshot.map BitVec.toNat

/-- KEPT_READ: in BLACKOUT, when the level at its entry was D1 or above. -/
def jtagKeptRead (d : Dev) : Dev :=
  if !d.aonRuns then d
  else if d.inReset || d.sys.st != .blackout || d.dbg.keptLevel < 1 then d.refuse
  else
    let w := match d.err.keptWords[d.dbg.keptPos]? with | some n => n | none => (Config.freeWord d.freeCtr).toNat
    (((d.select .keptRead).useFree 1).modDbg fun b => { b with keptPos := b.keptPos + 1 }).emit (.tdo (bitsOf 32 w))
def execJtagKeptRead (s : State) : Host.Outcome State Fault Refusal := s.onDev jtagKeptRead

/-- STOP at D3: freezes, then stops the core clocks until a start-up. -/
def jtagStop (engage : Bool) (t : Nat) (d : Dev) : Dev :=
  if !d.aonRuns then d
  else if !d.allows 3 then d.refuse
  else
    let d := (d.select .stop).emit (.tdo [engage])
    if engage then (d.engage 4 t fun b => { b with holdJtag := true }).modSys fun s => { s with coreStopped := true } else d
def execJtagStop (engage : Bool) (t : Nat) (s : State) : Host.Outcome State Fault Refusal := s.onDev (jtagStop engage t)

/-- SCAN is performed: D3 in ACTIVE and PARKED with the core clocks stopped, or in BLACKOUT with D3 at its entry. -/
def Dev.scanOk (d : Dev) : Bool :=
  !d.inReset && d.sys.coreStopped && (if d.sys.st = .blackout then decide (3 ≤ d.dbg.keptLevel) else d.allows 3)

/-- SCAN: the chains' contents leave as the given bits enter (log 61). -/
def jtagScan (bits : List Bool) (d : Dev) : Dev :=
  if !d.aonRuns then d
  else if !d.scanOk then d.refuse
  else
    (((d.select .scan).useFree 1).modDbg fun b => { b with scanReg := bits }).emit
      (.tdo ((List.range bits.length).map fun i => Config.scanOut d.freeCtr i))
def execJtagScan (bits : List Bool) (s : State) : Host.Outcome State Fault Refusal := s.onDev (jtagScan bits)

/-! ## I3C (R497) -/

/-- The target is on the bus: the always-on domain runs and SYS_RST_N is not asserted (R481, R482). -/
def Dev.i3cOn (d : Dev) : Bool := d.aonRuns && !d.sys.sysRst

/-- I3C_ENTDAA: a device without a dynamic address sends its provisioned ID, from the first 48 bits of the identity digest, and takes one. -/
def i3cEntdaa (addr : BitVec 7) (d : Dev) : Dev :=
  if d.i3cOn && d.dbg.i3cAddr.isNone then
    (d.modDbg fun b => { b with i3cAddr := some addr }).emit (.i3cId (leBytes 6 identityDigest.toNat))
  else d
def execI3cEntdaa (addr : BitVec 7) (s : State) : Host.Outcome State Fault Refusal := s.onDev (i3cEntdaa addr)

/-- I3C_OFFSET_WRITE. -/
def i3cOffsetWrite (off : Word) (d : Dev) : Dev := if d.i3cOn && d.dbg.i3cAddr.isSome then d.modDbg fun b => { b with i3cOff := off } else d
def execI3cOffsetWrite (offset : Word) (s : State) : Host.Outcome State Fault Refusal := s.onDev (i3cOffsetWrite offset)

/-- I3C_PRIVATE_READ: the AON word, or a register under the row for its JTAG read; a refused read returns 0 and counts. -/
def i3cPrivateRead (d : Dev) : Dev :=
  let off := d.dbg.i3cOff.toNat
  if !d.i3cOn || d.dbg.i3cAddr.isNone then d
  else if off = 0xFFFFFFF0 then d.emit (.i3c (BitVec.ofNat 32 d.aonWord))
  else if d.allows (readLevel (off % 2 ^ 25)) then
    let z := if off < 2 ^ 25 then d.pathRead 2 off else (d, 0)
    z.1.emit (.i3c z.2)
  else d.deny.emit (.i3c 0)
def execI3cPrivateRead (s : State) : Host.Outcome State Fault Refusal := s.onDev i3cPrivateRead

end Sys2Proof.Machine
end

