-- ==== Sys2Proof/Machine/Routing.lean ====
section
/-! DEFINITION. Routing: ROUTE (R164, R165), expert slots and PLACE (R167 to R171, R339), COMBINE (R170, R172, R401). -/
namespace Sys2Proof.Machine

def Dev.experts (d : Dev) : Experts := match d.scr.script with | some sc => sc.experts | none => ⟨[], []⟩
def Dev.routeLayer (d : Dev) (layer : Nat) : RouteLayer := ((d.experts.layers.find? fun l => l.layer == layer).getD default)

/-! ## ROUTE -/

/-- A selected expert: index and a value. -/
structure Gate where
  e : Nat
  v : F32
  deriving DecidableEq, Repr

/-- Higher selection key first, then lower index (R164 order 5). -/
def insGate (l : List (Nat × F32 × F32)) (x : Nat × F32 × F32) : List (Nat × F32 × F32) :=
  match l with
  | [] => [x]
  | y :: t => if f32Lt y.2.2 x.2.2 then x :: y :: t else y :: insGate t x

/-- Scores over the enabled experts (R164 orders 1 to 3): index and s_e, ascending. -/
def routeScores (r : RouteLayer) (z : List F32) : Option (List (Nat × F32)) := do
  let inv ← f32Recip (ofBf16 r.tau)
  let ys ← (z.zipIdx.filter fun x => !r.masked.contains x.2).mapM fun x => do
    let y ← f32Mul x.1 inv
    some (x.2, y)
  match ys with
  | [] => some []
  | (_, y0) :: t =>
    let top := t.foldl (fun m y => f32Max m y.2) y0
    let ts ← ys.mapM fun y => (expDiff y.2 top).map fun w => (y.1, w)
    let sum ← f32Sum (ts.map Prod.snd)
    ts.mapM fun w => (f32Div w.2 sum).map fun s => (w.1, s)

/-- The selected experts in rank order with their scores (R164 orders 4 to 6). -/
def routeSelect (r : RouteLayer) (ss : List (Nat × F32)) : Option (List Gate) := do
  let vs ← ss.mapM fun s => (f32Mul s.2 (ofBf16 (r.omega.getD s.1 0))).map fun v => (s.1, s.2, v)
  let order := vs.foldl insGate []
  some (((order.filter fun x => f32Lt 0 x.2.2).take r.k).map fun x => ⟨x.1, x.2.1⟩)

/-- Gates before the floor (R165 order 1). -/
def routeGates (r : RouteLayer) (sel : List Gate) : Option (List Gate) := do
  let sum ← f32Sum (sel.map Gate.v)
  sel.mapM fun g => do
    let a ← f32Mul (ofBf16 r.sigma) g.v
    let v ← if r.norm then f32Div a sum else some a
    some ⟨g.e, v⟩

/-- Rescale gates so that they keep the sum `total` (R165 order 2, R170). -/
def rescale (total : F32) (gs : List Gate) : Option (List Gate) := do
  let sum ← f32Sum (gs.map Gate.v)
  gs.mapM fun g => do
    let a ← f32Mul g.v total
    let v ← f32Div a sum
    some ⟨g.e, v⟩

/-- The gate floor (R165 order 2). -/
def gateFloor (r : RouteLayer) (gs : List Gate) : Option (List Gate) :=
  if ofBf16 r.phi % 2 ^ 31 = 0 then some gs
  else do
    let total ← f32Sum (gs.map Gate.v)
    let lim ← f32Mul (ofBf16 r.phi) total
    let kept := (gs.zipIdx.filter fun g => g.2 == 0 || !f32Lt g.1.v lim).map Prod.fst
    if kept.length = gs.length then some gs else rescale total kept

/-- A token's dispatch: gates in rank order and the number of experts the floor dropped. -/
def routeRow (r : RouteLayer) (z : List F32) : Option (List Gate × Nat) := do
  let ss ← routeScores r z
  let sel ← routeSelect r ss
  let gs ← routeGates r sel
  let out ← gateFloor r gs
  some (out, gs.length - out.length)

/-- A routing row: K pairs of expert and FP32 gate, unused ones 0xFFFF_FFFF and 0 (log 48). -/
def gateBytes (k : Nat) (gs : List Gate) : List Byte :=
  (List.range k).flatMap fun i =>
    match gs[i]? with
    | some g => leBytes 4 g.e ++ leBytes 4 g.v
    | none => leBytes 4 0xFFFFFFFF ++ leBytes 4 0

/-- The gates of a routing row. -/
def gatesAt (k : Nat) (bs : List Byte) : List Gate :=
  (List.range k).filterMap fun i => if leAt bs (8 * i) 4 = 0xFFFFFFFF then none else some ⟨leAt bs (8 * i) 4, leAt bs (8 * i + 4) 4⟩

def routeRun (z : KRun) (d : Dev) : Dev :=
  let r := d.routeLayer z.k.layer.toNat
  let go := z.toks.zipIdx.foldl (fun (a : Dev × Option (List (Nat × List Gate × Nat))) (e : Option Tok × Nat) =>
    match e.1 with
    | none => (a.1, a.2.map fun l => l ++ [(e.2, [], 0)])
    | some _ =>
      let (d, bs) := a.1.opRow z z.k.op0 e.2
      (d, do
        let l ← a.2
        let zs ← rowF32 z.k.op0.fmt bs z.k.op0.elems.toNat
        let g ← routeRow r (zs.take r.e)
        some (l ++ [(e.2, g.1, g.2)]))) (d, some [])
  match go.2 with
  | none => go.1.engineError z 0x0402 z.steps
  | some l =>
    l.foldl (fun d e =>
      let bs := if (z.toks.getD e.1 none).isSome then gateBytes r.k e.2.1 else List.replicate (8 * r.k) 0
      (d.outRow z (8 * r.k) e.1 bs).routeCount 12 e.2.2) go.1

def execRoute (k : KernelCue) (s : State) : Host.Outcome State Fault Refusal := s.onCue (k.wf true) (Dev.kernel 6 k routeRun)

/-! ## Expert slots (R167) -/

/-- The key's order (R167): class, EFRAME modulo 2^16, entry y, entry x, ADMIT, SESSION, POS. -/
def Tok.before (a b : Tok) : Bool :=
  if a.cls != b.cls then decide (a.cls < b.cls)
  else if a.eframe != b.eframe then decide ((b.eframe + 65536 - a.eframe) % 65536 < 32768)
  else if a.ey != b.ey then decide (a.ey < b.ey)
  else if a.ex != b.ex then decide (a.ex < b.ex)
  else if a.admitted != b.admitted then decide (a.admitted < b.admitted)
  else if a.session != b.session then decide (a.session < b.session)
  else decide (a.pos < b.pos)

/-- Put an assignment (its lane, its token) in its place. -/
def insAssign (l : List (Nat × Tok)) (x : Nat × Tok) : List (Nat × Tok) :=
  match l with
  | [] => [x]
  | y :: t => if x.2.before y.2 then x :: y :: t else y :: insAssign t x

/-- Which arrivals, in key order, find a regular slot (R167): lead takes any free one, other classes those beyond lead's
reservation. Answers placed and left over. -/
def placeSlots (s l : Nat) (arrivals : List (Nat × Tok)) : List (Nat × Tok) × List (Nat × Tok) :=
  let r := arrivals.foldl (fun (a : List (Nat × Tok) × List (Nat × Tok) × Nat × Nat) x =>
    let (placed, left, nl, no) := a
    if x.2.cls = 0 then
      if nl + no < s then (placed ++ [x], left, nl + 1, no) else (placed, left ++ [x], nl, no)
    else if no < s - nl - (l - nl) then (placed ++ [x], left, nl, no + 1)
    else (placed, left ++ [x], nl, no)) ([], [], 0, 0)
  (r.1, r.2.1)

/-- Wings address of a lane's buffer in a template, and its length. -/
def Dev.laneBufIn (d : Dev) (template n tenant : Nat) : Nat × Nat :=
  let maps := match d.scr.script with
    | some sc => match sc.templates[template]? with | some t => t.lanes | none => []
    | none => []
  match maps.find? fun r => r.first ≤ n && n < r.first + r.count with
  | some r => (d.window tenant + r.offset + 128 * r.stride * (n - r.first), 128 * r.stride)
  | none => (d.window tenant, 0)

/-- Template of the frame that follows. -/
def Dev.nextTemplate (d : Dev) : Nat := match d.scr.script with | some sc => (d.frm.frame + 1) % (sc.hdr.cycle + 1) | none => 0

/-- Cue number of the copies that PLACE makes (R339). -/
def copyCue : Nat := 0xFFFF04

/-- Copy a lane's buffer to another lane's, of this frame or the next (R339). -/
def Dev.copyBuf (d : Dev) (t : Tok) (src dst slot : Nat) (next : Bool) : Dev :=
  let (a, n) := d.laneBufIn d.template src t.tenant
  let (b, _) := d.laneBufIn (if next then d.nextTemplate else d.template) dst t.tenant
  let (d, bs) := d.wingsRd t a n slot copyCue
  d.wingsWr t b bs slot copyCue

/-- A step's ENCORE_HELD mark is cleared in every descriptor here (R171). -/
def Frm.clearHeld (f : Frm) (st : Nat × Nat × Nat) : Frm :=
  let clr (l : Nat × Tok) : Nat × Tok := if l.2.step = st then (l.1, { l.2 with encHeld := false }) else l
  { f with lanes := f.lanes.map clr, nextLanes := f.nextLanes.map clr }

/-- An assignment may go to the encore queue: its step is ENCORE_HELD, or was until an assignment of the same layer in this
frame (R168, R171). -/
def Dev.mayEncore (d : Dev) (t : Tok) (layer : Nat) : Bool := t.encHeld || d.eng.delayed.contains (t.ex, t.ey, t.session, layer)

/-- A step is delayed by one frame from this layer's combine on (R171). -/
def Dev.delayStep (d : Dev) (t : Tok) (layer : Nat) : Dev :=
  let key := (t.ex, t.ey, t.session, layer)
  if d.eng.delayed.contains key then d
  else
    let own (x : Step) : Bool := x.session == t.session && t.ex == d.coord.x.toNat && t.ey == d.coord.y.toNat
    let hit := d.call.steps.any fun x => own x && !x.delayed
    let d := (d.modEng fun e => { e with delayed := e.delayed ++ [key] }).modFrm fun f => f.clearHeld t.step
    let d := d.modCall fun c => { c with steps := c.steps.map fun x => if own x then { x with delayed := true, encore := false } else x }
    if hit then d.routeCount 8 1 else d

/-- An arrival lane's assignment is skipped: the mark its return transfer carries (R339, R342). -/
def Dev.skipLane (d : Dev) (lane : Nat) : Dev := d.modFrm fun f => { f with skipped := setIns f.skipped lane }

/-- PLACE (R339). An assignment that found no encore slot is skipped when the encore slots serve its queue; its mark stands in its arrival
lane while that lane is empty (log 119, DESIGN CHOICE). -/
def place (c : PlaceCue) (d : Dev) : Dev :=
  if !d.cues then d
  else
    let layer := c.layer.toNat
    let key := 1024 * layer + c.expert.toNat
    let slot := c.slot.toNat
    let x := (d.experts.slots.find? fun e => e.layer == layer && e.expert == c.expert.toNat).getD default
    -- the encore queue of the previous frame
    let served := ((List.range x.encore).filter fun i => (d.lane (c.encLane.toNat + i)).isSome).length
    let late := sgetD d.eng.encoreOver key []
    let d := ((d.routeCount 4 served).routeCount 5 late.length).modEng fun e => { e with encoreOver := sdel e.encoreOver key }
    let d := late.foldl (fun d o => if (d.lane o.1).isSome then d else d.skipLane o.1) d
    -- this frame's arrivals
    let arr := (List.range c.arrN.toNat).filterMap fun i => (d.lane (c.arrLane.toNat + i)).map fun t => (c.arrLane.toNat + i, t)
    let leads := (arr.filter fun a => a.2.cls == 0).length
    let (placed, left) := placeSlots x.regular x.lead (arr.foldl insAssign [])
    let d := (((d.routeCount 0 arr.length).routeCount 1 placed.length).routeCount 2 ((placed.filter fun a => a.2.cls == 0).length)).routeCount
      7 (leads - x.lead)
    let d := placed.zipIdx.foldl (fun d e =>
      (d.copyBuf e.1.2 e.1.1 (c.regLane.toNat + e.2) slot false).modFrm fun f =>
        { f with lanes := sput f.lanes (c.regLane.toNat + e.2) e.1.2 }) d
    (left.foldl (fun (a : Dev × Nat) (e : Nat × Tok) =>
      let (d, n) := a
      if d.mayEncore e.2 layer then
        let d := (d.delayStep e.2 layer).routeCount 3 1
        let t := { e.2 with encHeld := false }
        if n < x.encore then
          ((d.copyBuf t e.1 (c.encLane.toNat + n) slot true).modFrm fun f =>
            { f with nextLanes := sput f.nextLanes (c.encLane.toNat + n) t }, n + 1)
        else (d.modEng fun g => { g with encoreOver := smod g.encoreOver key [] (· ++ [(e.1, t)]) }, n + 1)
      else ((d.routeCount 6 1).skipLane e.1, n)) (d, 0)).1

def execPlace (c : PlaceCue) (s : State) : Host.Outcome State Fault Refusal := s.onCue c.wf (place c)

/-! ## COMBINE -/

/-- What COMBINE finds in the return lane of a rank (R401). -/
inductive Ret where
  | served (lane : Nat)
  | skipped (lane : Nat)
  | empty
  deriving DecidableEq, Repr

/-- The return lane that the lane maps pair with token i and rank r. -/
def KRun.retLane (z : KRun) (i r : Nat) : Nat := z.kc.returns.getD r 0 + i

def Dev.retOf (d : Dev) (z : KRun) (i r : Nat) : Ret :=
  let n := z.retLane i r
  if d.frm.skipped.contains n then .skipped n else if (d.lane n).isSome then .served n else .empty

/-- A delayed step leaves this frame: its lanes and paired return lanes are copied into its delay lanes for the next (R339,
R171; log 49). `pos` counts its tokens in the cue. -/
def Dev.moveDelayed (d : Dev) (z : KRun) (i pos : Nat) (t : Tok) : Dev :=
  let r := z.kc.returns.length
  let base := (d.call.steps.find? fun x => x.session == t.session).bind fun x =>
    (d.admOf x.frame).slots[x.slot]?.map fun a => a.delayLane + pos * (r + 1)
  match base with
  | none => d
  | some b =>
    let go (d : Dev) (src dst : Nat) : Dev :=
      if d.frm.skipped.contains src then d.modFrm fun f => { f with nextSkipped := setIns f.nextSkipped dst }
      else match d.lane src with
        | some u => (d.copyBuf u src dst z.slot true).modFrm fun f => { f with lanes := sdel f.lanes src, nextLanes := sput f.nextLanes dst u }
        | none => d
    (List.range r).foldl (fun d j => go d (z.retLane i j) (b + 1 + j)) (go d (z.k.lane.toNat + i) b)

/-- The sum of a token's layer output (R172): λ × shared expert, then the served experts in rank order. -/
def combineSum (outs : List (F32 × List F32)) (shared : Option (F32 × List F32)) (n : Nat) : Option (List F32) :=
  (List.range n).mapM fun j => do
    let s0 ← match shared with | some (l, v) => f32Mul l (v.getD j 0) | none => some 0
    outs.foldlM (fun a o => do let p ← f32Mul o.1 (o.2.getD j 0); f32Add a p) s0

/-- One token's row: operand 0 the expert outputs in the return lanes' buffers, 1 the routing row, 2 the shared expert's output
(log 48). -/
def Dev.combineRow (d : Dev) (z : KRun) (i : Nat) : Dev × Option (List Res) :=
  let lay := d.routeLayer z.k.layer.toNat
  let n := z.k.op3.elems.toNat
  let t := z.tokAt i
  let (d, gb) := match d.opAt z z.k.op1 (8 * lay.k) i with | some p => d.kRead z p (8 * lay.k) i 1 | none => (d, [])
  let gs := gatesAt lay.k gb
  let got := gs.zipIdx.map fun g => (g.1, d.retOf z i g.2)
  let skips := (got.filter fun g => match g.2 with | .skipped _ => true | _ => false).length
  let (d, outs) := got.foldl (fun (a : Dev × List (Gate × List Byte)) g =>
    match g.2 with
    | .served lane =>
      let (d, bs) := a.1.wingsRd t (a.1.laneBuf lane t.tenant + z.k.op0.addr.toNat) (opSize z.k.op0) z.slot z.num
      (d, a.2 ++ [(g.1, bs)])
    | _ => a) (d, [])
  let (d, sh) := if lay.lambda.isSome then d.opRow z z.k.op2 i else (d, [])
  let d := d.modCall fun c => { c with steps := c.steps.map fun x =>
    if x.session == t.session && t.ex == d.coord.x.toNat && t.ey == d.coord.y.toNat then { x with skips := min 65535 (x.skips + skips) } else x }
  (d, do
    let total ← f32Sum (gs.map Gate.v)
    let kept ← if skips = 0 then some (outs.map Prod.fst) else rescale total (outs.map Prod.fst)
    let vs ← outs.mapM fun o => rowF32 z.k.op0.fmt o.2 n
    let shared ← match lay.lambda with
      | some l => (rowF32 z.k.op2.fmt sh n).map fun v => some (ofBf16 l, v)
      | none => some none
    let ys ← combineSum ((kept.map Gate.v).zip vs) shared n
    some (ys.map resF32))

/-- A present token of COMBINE whose return lane is EMPTY and not SKIPPED (R401 order 2). -/
def Dev.lostReturn (d : Dev) (z : KRun) (i : Nat) : Bool :=
  let lay := d.routeLayer z.k.layer.toNat
  match d.opAt z z.k.op1 (8 * lay.k) i with
  | some p =>
    let bs := if p.1 then rdN d.mem.wings p.2 (8 * lay.k) else rdN d.mem.localBuf p.2 (8 * lay.k)
    (gatesAt lay.k bs).zipIdx.any fun g => d.retOf z i g.2 == .empty
  | none => false

/-- Steps that miss a return (R401 order 2). An ENCORE_HELD one may have been delayed by the device that serves the return (R171): which of
the two it is stands in no message of the spec, and is a free value (log 120, DESIGN CHOICE). -/
def Dev.missedReturns (d : Dev) (layer : Nat) (toks : List Tok) : Dev × List (Nat × Nat × Nat) :=
  toks.foldl (fun a t =>
    if a.2.contains t.step || a.1.eng.delayed.contains (t.ex, t.ey, t.session, layer) then a
    else if !t.encHeld then (a.1, a.2 ++ [t.step])
    else
      let held := Config.remoteDelay a.1.freeCtr
      let d := a.1.useFree 1
      if held then (d.delayStep t layer, a.2) else (d, a.2 ++ [t.step])) (d, [])

/-- COMBINE: delayed steps move to their delay lanes, steps with a lost return are discarded, the others are summed. -/
def combineRun (z : KRun) (d : Dev) : Dev :=
  let miss := z.toks.zipIdx.filterMap fun e => e.1.bind fun t => if d.lostReturn z e.2 then some t else none
  let (d, lost) := d.missedReturns z.k.layer.toNat miss
  let late (t : Tok) : Bool := d.eng.delayed.contains (t.ex, t.ey, t.session, z.k.layer.toNat)
  let d' := lost.foldl (fun d s => d.discardTok s 1) d
  let d' := (z.toks.zipIdx.foldl (fun (a : Dev × List (Nat × Nat × Nat)) e =>
    match e.1 with
    | some t => if late t then (a.1.moveDelayed z e.2 ((a.2.filter fun s => decide (s = t.step)).length) t, a.2 ++ [t.step]) else a
    | none => a) (d', [])).1
  let rest := z.toks.map fun o => o.filter fun t => !late t && !lost.contains t.step
  if rest.all Option.isNone then d' else d'.rows { z with toks := rest } fun d i _ => d.combineRow { z with toks := rest } i

def execCombine (k : KernelCue) (s : State) : Host.Outcome State Fault Refusal := s.onCue (k.wf true) (Dev.kernel 7 k combineRun)

end Sys2Proof.Machine
end

