-- ==== Sys2Proof/Machine/Sampling.lean ====
section
/-! DEFINITION. SAMPLE (R173 to R175), VERIFY (R176), ADAPT (R179 to R181). -/
namespace Sys2Proof.Machine

/-! ## The sampled token (R173) -/

/-- Index of the largest value, ties to the lowest index. -/
def argmax (l : List F32) : Nat :=
  (l.zipIdx.foldl (fun (b : Option (F32 × Nat)) x =>
    match b with
    | some y => if f32Lt y.1 x.1 then some x else b
    | none => some x) none).elim 0 Prod.snd

/-- Insert by value descending, ties by id ascending. -/
def insLogit (l : List (F32 × Nat)) (x : F32 × Nat) : List (F32 × Nat) :=
  match l with
  | [] => [x]
  | y :: t => if f32Lt y.1 x.1 then x :: y :: t else y :: insLogit t x

/-- FP32 running sums of a list. -/
def runSums : Option F32 → List F32 → Option (List F32)
  | _, [] => some []
  | acc, w :: t => do
    let s ← match acc with | some a => f32Add a w | none => some w
    let r ← runSums (some s) t
    some (s :: r)

/-- The token of R173 from a position's logits, temperature, top-k, top-p and draw; none is R153. -/
def sampleToken (l : List F32) (temp topK topP r : Nat) : Option Nat :=
  if temp % 2 ^ 31 = 0 then some (argmax l)
  else do
    let z ← l.mapM fun x => f32Div x temp
    let order := z.zipIdx.foldl insLogit []
    let kept := if 0 < topK then order.take topK else order
    let z0 := (kept.head?.getD (0, 0)).1
    let w ← kept.mapM fun v => expDiff v.1 z0
    let sums ← runSums none w
    let pw ← f32Mul topP (sums.getLast?.getD 0)
    let cut := (sums.findIdx? fun s => !f32Lt s pw).getD (sums.length - 1)
    let kept := kept.take (cut + 1)
    let sums := sums.take (cut + 1)
    let c := f32Val (sums.getLast?.getD 0)
    let i := (sums.findIdx? fun s => decide ((r : Rat) * c < 2 ^ 32 * f32Val s)).getD (kept.length - 1)
    some (kept.getD i (0, 0)).2

/-- The sampling parameters in HELD, and the draw of the position that follows a token (R174). -/
def Dev.sampleAt (d : Dev) (t : Tok) (l : List F32) : Option Nat :=
  let s := t.session
  sampleToken l (d.held s 0x10) (fld (d.held s 0x14) 0 11) (d.held s 0x18) (drawSample (d.seedOf t) (t.pos + 1))

/-- The step of a token, on its entry device. -/
def Dev.stepOf (d : Dev) (t : Tok) : Option Step :=
  if t.ex == d.coord.x.toNat && t.ey == d.coord.y.toNat then d.call.steps.find? fun x => x.session == t.session && x.discard.isNone
  else none

def Dev.modStep (d : Dev) (s : Nat) (f : Step → Step) : Dev :=
  d.modCall fun c => { c with steps := c.steps.map fun x => if x.session == s then f x else x }

/-- The last position of a step that is no draft: the one whose logits give the first released token. -/
def Step.lastPos (x : Step) : Nat := x.pos + (x.tokens.length - x.kEff) - 1

/-- Logits of every present token. -/
def Dev.logits (d : Dev) (z : KRun) : Dev × Option (List (Nat × Tok × List F32)) :=
  z.toks.zipIdx.foldl (fun (a : Dev × Option (List (Nat × Tok × List F32))) e =>
    match e.1 with
    | none => a
    | some t =>
      let (d, bs) := a.1.opRow z z.k.op0 e.2
      (d, do let l ← a.2; let r ← rowF32 z.k.op0.fmt bs z.k.op0.elems.toNat; some (l ++ [(e.2, t, r)]))) (d, some [])

/-- Write token ids as INT32 rows; padding and positions without a token write 0. -/
def Dev.outTokens (d : Dev) (z : KRun) (ids : List (Nat × Nat)) : Dev :=
  (List.range z.toks.length).foldl (fun d i =>
    d.outRow z 4 i (leBytes 4 ((ids.find? fun e => e.1 == i).elim 0 Prod.snd))) d

/-! ## SAMPLE -/

/-- What one sampled position does to its step: it releases the token of the step's last position; once that is sampled, a
further SAMPLE is the draft head's greedy choice (R175). -/
def Dev.sampled (d : Dev) (t : Tok) (tok greedy : Nat) : Dev :=
  match d.stepOf t with
  | none => d
  | some x =>
    if x.sampled then
      d.modStep t.session fun x => if x.nextDrafts.length < 7 then { x with nextDrafts := x.nextDrafts ++ [greedy] } else x
    else if x.kEff = 0 && !x.prefillOnly && t.pos == x.lastPos then
      d.modStep t.session fun x => { x with sampled := true, released := [tok] }
    else d

def sampleRun (z : KRun) (d : Dev) : Dev :=
  let (d, l) := d.logits z
  let ids := l.bind fun l => l.mapM fun e =>
    match d.stepOf e.2.1 with
    | some x => if x.sampled then some (e.1, e.2.1, argmax e.2.2, argmax e.2.2)
                else (d.sampleAt e.2.1 e.2.2).map fun k => (e.1, e.2.1, k, argmax e.2.2)
    | none => some (e.1, e.2.1, 0, 0)
  match ids with
  | none => d.engineError z 0x0402 z.steps
  | some l =>
    let d := l.foldl (fun d e => d.sampled e.2.1 e.2.2.1 e.2.2.2) d
    d.outTokens z (l.map fun e => (e.1, e.2.2.1))

def execSample (k : KernelCue) (s : State) : Host.Outcome State Fault Refusal := s.onCue (k.wf true) (Dev.kernel 8 k sampleRun)

/-! ## VERIFY -/

/-- Released tokens of R176 from the sample of each position, the drafts and the stop tokens; a position after the loop's end is not
sampled, so its error counts for nothing. -/
def verifyTokens (stops : List Nat) : List (Option Nat) → List Nat → Option (List Nat)
  | [], _ => some []
  | none :: _, _ => none
  | some s :: t, ds =>
    match ds with
    | d :: ds' => if s != d || stops.contains s then some [s] else (verifyTokens stops t ds').map fun r => s :: r
    | [] => some [s]

/-- Verify one step: every position from its last known token on has its logits in the operand. -/
def Dev.verifyStep (d : Dev) (rows : List (Nat × Tok × List F32)) (x : Step) : Option Dev := do
  let mine := (List.range (x.kEff + 1)).filterMap fun j => rows.find? fun r => r.2.1.session == x.session && r.2.1.pos == x.lastPos + j
  if mine.length ≠ x.kEff + 1 || x.sampled || x.prefillOnly then some d
  else do
    let out ← verifyTokens (d.stopTokens x.session) (mine.map fun r => d.sampleAt r.2.1 r.2.2) (x.tokens.drop (x.tokens.length - x.kEff))
    let d := if x.kEff = 0 then d else (d.routeCount 9 (x.kEff + 1)).routeCount 10 (out.length - 1)
    some (d.modStep x.session fun y => { y with sampled := true, released := out })

def verifyRun (z : KRun) (d : Dev) : Dev :=
  let (d, l) := d.logits z
  let r := l.bind fun rows =>
    ((z.present.filterMap d.stepOf).dedup).foldlM (fun d x => d.verifyStep rows x) d
  match r with
  | none => d.engineError z 0x0402 z.steps
  | some d =>
    d.outTokens z (z.toks.zipIdx.filterMap fun e => e.1.bind fun t => (d.stepOf t).bind fun x =>
      if x.lastPos ≤ t.pos then x.released[t.pos - x.lastPos]?.map fun k => (e.2, k) else none)

def execVerify (k : KernelCue) (s : State) : Host.Outcome State Fault Refusal := s.onCue (k.wf true) (Dev.kernel 9 k verifyRun)

/-! ## ADAPT -/

/-- One target of an adapter slot (R247): rank, α, formats, scales and addresses of A and B. -/
structure AdpMat where
  r : Nat
  alpha : Nat
  fp8A : Bool
  fp8B : Bool
  scaleA : Nat
  scaleB : Nat
  a : Nat
  b : Nat

/-- The target entry of a point in a slot, when the slot covers it. -/
def Dev.adpMat (d : Dev) (slot point : Nat) : Option AdpMat :=
  let base := adpSlotBase slot
  let g (off n : Nat) : Nat := leNat (d.hbmRd (base + off) n)
  let n := fld (g 8 4) 8 7
  ((List.range n).map fun i => 0x40 + 32 * i).find? (fun t => fld (g t 4) 0 6 == point) |>.map fun t =>
    ⟨fld (g 8 4) 0 7, g (t + 4) 2, bit (g t 4) 8, bit (g t 4) 9, g (t + 6) 2, g (t + 8) 2, base + g (t + 12) 4, base + g (t + 16) 4⟩

/-- A matrix row's exact values: BF16, or E4M3 times the BF16 scale (R179). -/
def adpRow (fp8 : Bool) (scale : Nat) (bs : List Byte) (n : Nat) : Option (List Rat) := do
  let vs ← rowAt (if fp8 then .e4m3 else .bf16) bs n
  if fp8 then
    let s ← elemAt .bf16 (leBytes 2 scale) 0
    some (vs.map fun v => v * s)
  else some vs

/-- R180: h = round_bf16(A · x), d = α × (B · h), y + d. -/
def Dev.adaptRow (d : Dev) (m : AdpMat) (dIn dOut : Nat) (x : List Rat) (y : List F32) : Option (List Res) := do
  let wA := if m.fp8A then 1 else 2
  let wB := if m.fp8B then 1 else 2
  let h ← (List.range m.r).mapM fun i => do
    let row ← adpRow m.fp8A m.scaleA (d.hbmRd (m.a + i * dIn * wA) (dIn * wA)) dIn
    let s ← dot row x
    elemAt .bf16 (encodeRow .bf16 [resF32 s]) 0
  (List.range dOut).mapM fun o => do
    let row ← adpRow m.fp8B m.scaleB (d.hbmRd (m.b + o * m.r * wB) (m.r * wB)) m.r
    let s ← dot row h
    let t ← f32Mul (ofBf16 m.alpha) s
    let v ← f32Add (y.getD o 0) t
    some (resF32 v)

/-- The adapter of a token is usable: its slot READY and the matrices without an uncorrectable codeword (R181). -/
def Dev.adpOk (d : Dev) (t : Tok) (m : Option AdpMat) (dIn dOut : Nat) : Bool :=
  (match sget d.call.adpSlots t.adapter with | some x => x.ready | none => false) &&
    !d.mem.isBad (adpSlotBase t.adapter) 0x840 &&
    (match m with
     | some m => !d.mem.isBad m.a (m.r * dIn * if m.fp8A then 1 else 2) && !d.mem.isBad m.b (dOut * m.r * if m.fp8B then 1 else 2)
     | none => true)

/-- ADAPT (R180): operand 0 the chain's source vector, operand 1 the chain output, operand 3 where the merged output goes
(log 48). Only tokens with ADP set and a covered target are merged. -/
def adaptRun (z : KRun) (d : Dev) : Dev :=
  let dIn := z.k.op0.elems.toNat
  let dOut := z.k.op3.elems.toNat
  let mat (t : Tok) : Option AdpMat := d.adpMat t.adapter z.kc.point
  let bad := ((z.present.filter fun t => t.adp && !d.adpOk t (mat t) dIn dOut).map Tok.step).dedup
  let d := if bad.isEmpty then d else d.engineError z 0x0404 bad
  let go := z.toks.zipIdx.foldl (fun (a : Dev × Option (List (Nat × List Res))) e =>
    match e.1 with
    | some t =>
      if !t.adp || bad.contains t.step then a
      else match mat t with
        | none => a
        | some m =>
          let (d, x) := a.1.opRow z z.k.op0 e.2
          let (d, y) := d.opRow z z.k.op1 e.2
          (d, do
            let l ← a.2
            let xs ← rowAt z.k.op0.fmt x dIn
            let ys ← rowF32 z.k.op1.fmt y dOut
            let r ← d.adaptRow m dIn dOut xs ys
            some (l ++ [(e.2, r)]))
    | none => a) (d, some [])
  match go.2 with
  | none => go.1.engineError z 0x0402 z.steps
  | some l => l.foldl (fun d e => (d.outRes z e.1 e.2).routeCount 11 1) go.1

def execAdapt (k : KernelCue) (s : State) : Host.Outcome State Fault Refusal := s.onCue (k.wf true) (Dev.kernel 10 k adaptRun)

end Sys2Proof.Machine
end

