-- ==== Sys2Proof/Machine/Dispatch.lean ====
section
/-! DEFINITION. One arm per command: a direct call of its meaning. -/
namespace Sys2Proof.Machine

def exec (i : Instr) (s : State) : Host.Outcome State Fault Refusal :=
  match i with
  | .vddAonRise t boot => Sys2Proof.Machine.execVddAonRise t boot s
  | .vddAonLoss => Sys2Proof.Machine.execVddAonLoss s
  | .sysRstNAssert lowNs => Sys2Proof.Machine.execSysRstNAssert lowNs s
  | .sysRstNRelease t boot => Sys2Proof.Machine.execSysRstNRelease t boot s
  | .prsntNChange asserted stableNs t boot => Sys2Proof.Machine.execPrsntNChange asserted stableNs t boot s
  | .perstNAssert lowNs => Sys2Proof.Machine.execPerstNAssert lowNs s
  | .perstNRelease => Sys2Proof.Machine.execPerstNRelease s
  | .bypassNChange asserted stableNs => Sys2Proof.Machine.execBypassNChange asserted stableNs s
  | .powerGoodLost rail => Sys2Proof.Machine.execPowerGoodLost rail s
  | .powerGoodRestored t boot => Sys2Proof.Machine.execPowerGoodRestored t boot s
  | .thermalTrip diode diodeFault t => Sys2Proof.Machine.execThermalTrip diode diodeFault t s
  | .tripRelease t boot => Sys2Proof.Machine.execTripRelease t boot s
  | .coreClockLockLost d => Sys2Proof.Machine.execCoreClockLockLost d s
  | .smWatchdogExpiry d => Sys2Proof.Machine.execSmWatchdogExpiry d s
  | .boSelfCheckFail d => Sys2Proof.Machine.execBoSelfCheckFail d s
  | .containmentTimeout d => Sys2Proof.Machine.execContainmentTimeout d s
  | .freezeNAssert lowNs t => Sys2Proof.Machine.execFreezeNAssert lowNs t s
  | .freezeNRelease highNs t => Sys2Proof.Machine.execFreezeNRelease highNs t s
  | .tickInEdge t => Sys2Proof.Machine.execTickInEdge t s
  | .tickInLost t => Sys2Proof.Machine.execTickInLost t s
  | .tickLaunch t => Sys2Proof.Machine.execTickLaunch t s
  | .overrunAbort t => Sys2Proof.Machine.execOverrunAbort t s
  | .bellwetherLost t => Sys2Proof.Machine.execBellwetherLost t s
  | .doneSend t => Sys2Proof.Machine.execDoneSend t s
  | .echoMeasure => Sys2Proof.Machine.execEchoMeasure s
  | .stallResume slot => Sys2Proof.Machine.execStallResume slot s
  | .eval c => Sys2Proof.Machine.execEval c s
  | .requant c => Sys2Proof.Machine.execRequant c s
  | .out c => Sys2Proof.Machine.execOut c s
  | .hop c => Sys2Proof.Machine.execHop c s
  | .relay c => Sys2Proof.Machine.execRelay c s
  | .move c => Sys2Proof.Machine.execMove c s
  | .repeatWin c => Sys2Proof.Machine.execRepeatWin c s
  | .rehearseWin c => Sys2Proof.Machine.execRehearseWin c s
  | .place c => Sys2Proof.Machine.execPlace c s
  | .matmul k => Sys2Proof.Machine.execMatmul k s
  | .norm k => Sys2Proof.Machine.execNorm k s
  | .rotary k => Sys2Proof.Machine.execRotary k s
  | .attnGqa k => Sys2Proof.Machine.execAttnGqa k s
  | .attnLatent k => Sys2Proof.Machine.execAttnLatent k s
  | .kvwrite k => Sys2Proof.Machine.execKvwrite k s
  | .route k => Sys2Proof.Machine.execRoute k s
  | .combine k => Sys2Proof.Machine.execCombine k s
  | .sample k => Sys2Proof.Machine.execSample k s
  | .verify k => Sys2Proof.Machine.execVerify k s
  | .adapt k => Sys2Proof.Machine.execAdapt k s
  | .exact k => Sys2Proof.Machine.execExact k s
  | .kernelStop fam k => Sys2Proof.Machine.execKernelStop fam k s
  | .hbmRd c => Sys2Proof.Machine.execHbmRd c s
  | .hbmRdDeliver c found => Sys2Proof.Machine.execHbmRdDeliver c found s
  | .hbmWr c => Sys2Proof.Machine.execHbmWr c s
  | .linkSend r => Sys2Proof.Machine.execLinkSend r s
  | .linkReceive r late => Sys2Proof.Machine.execLinkReceive r late s
  | .linkForward r => Sys2Proof.Machine.execLinkForward r s
  | .stepComplete session t => Sys2Proof.Machine.execStepComplete session t s
  | .flitReceive link body crc corrected uncorrectable t => Sys2Proof.Machine.execFlitReceive link body crc corrected uncorrectable t s
  | .tick link u t => Sys2Proof.Machine.execTick link u t s
  | .done link u => Sys2Proof.Machine.execDone link u s
  | .echo link num => Sys2Proof.Machine.execEcho link num s
  | .echoReply link num turn roundTrip => Sys2Proof.Machine.execEchoReply link num turn roundTrip s
  | .ack link last => Sys2Proof.Machine.execAck link last s
  | .nak link failed => Sys2Proof.Machine.execNak link failed s
  | .replay link count => Sys2Proof.Machine.execReplay link count s
  | .spill link u => Sys2Proof.Machine.execSpill link u s
  | .lane link u => Sys2Proof.Machine.execLane link u s
  | .freeze link u t => Sys2Proof.Machine.execFreeze link u t s
  | .thaw link u t => Sys2Proof.Machine.execThaw link u t s
  | .curtain link g => Sys2Proof.Machine.execCurtain link g s
  | .drained link => Sys2Proof.Machine.execDrained link s
  | .drainedSend => Sys2Proof.Machine.execDrainedSend s
  | .rewrite link => Sys2Proof.Machine.execRewrite link s
  | .curtainReady link failure failedAt => Sys2Proof.Machine.execCurtainReady link failure failedAt s
  | .curtainReadySend => Sys2Proof.Machine.execCurtainReadySend s
  | .raise link h => Sys2Proof.Machine.execRaise link h s
  | .unload link g => Sys2Proof.Machine.execUnload link g s
  | .stop link frame => Sys2Proof.Machine.execStop link frame s
  | .park link g => Sys2Proof.Machine.execPark link g s
  | .wake link origin => Sys2Proof.Machine.execWake link origin s
  | .awake link => Sys2Proof.Machine.execAwake link s
  | .hello link u => Sys2Proof.Machine.execHello link u s
  | .discover link herd parentPath digest round => Sys2Proof.Machine.execDiscover link herd parentPath digest round s
  | .report link u => Sys2Proof.Machine.execReport link u s
  | .herd link u => Sys2Proof.Machine.execHerd link u s
  | .rediscover link u => Sys2Proof.Machine.execRediscover link u s
  | .controlUnitReserved link type => Sys2Proof.Machine.execControlUnitReserved link type s
  | .discoveryStart => Sys2Proof.Machine.execDiscoveryStart s
  | .discoverLaunch => Sys2Proof.Machine.execDiscoverLaunch s
  | .herdIssue => Sys2Proof.Machine.execHerdIssue s
  | .orphan => Sys2Proof.Machine.execOrphan s
  | .laneLockLost link lane t => Sys2Proof.Machine.execLaneLockLost link lane t s
  | .laneErrorDrop link lane corrected t => Sys2Proof.Machine.execLaneErrorDrop link lane corrected t s
  | .laneRetry link lane trained t => Sys2Proof.Machine.execLaneRetry link lane trained t s
  | .laneIdle link idle => Sys2Proof.Machine.execLaneIdle link idle s
  | .swapOut m => Sys2Proof.Machine.execSwapOut m s
  | .swapOutWritten session ok => Sys2Proof.Machine.execSwapOutWritten session ok s
  | .swapIn m => Sys2Proof.Machine.execSwapIn m s
  | .swapInLoaded session ok pages => Sys2Proof.Machine.execSwapInLoaded session ok pages s
  | .commit m => Sys2Proof.Machine.execCommit m s
  | .keep m => Sys2Proof.Machine.execKeep m s
  | .release m => Sys2Proof.Machine.execRelease m s
  | .fork m => Sys2Proof.Machine.execFork m s
  | .resume m => Sys2Proof.Machine.execResume m s
  | .written m => Sys2Proof.Machine.execWritten m s
  | .loaded m => Sys2Proof.Machine.execLoaded m s
  | .failed m => Sys2Proof.Machine.execFailed m s
  | .released m => Sys2Proof.Machine.execReleased m s
  | .forked m => Sys2Proof.Machine.execForked m s
  | .sessionFault m => Sys2Proof.Machine.execSessionFault m s
  | .mirrorLost m => Sys2Proof.Machine.execMirrorLost m s
  | .mirrored m => Sys2Proof.Machine.execMirrored m s
  | .free m => Sys2Proof.Machine.execFree m s
  | .kvMessageReserved code m => Sys2Proof.Machine.execKvMessageReserved code m s
  | .mirrorConfirm session upTo ok => Sys2Proof.Machine.execMirrorConfirm session upTo ok s
  | .pageZeroDone page => Sys2Proof.Machine.execPageZeroDone page s
  | .hostMemWrite addr bytes => Sys2Proof.Machine.execHostMemWrite addr bytes s
  | .callboardBitSet addr bytes => Sys2Proof.Machine.execCallboardBitSet addr bytes s
  | .hostMemRead addr len found => Sys2Proof.Machine.execHostMemRead addr len found s
  | .hostLinkDown => Sys2Proof.Machine.execHostLinkDown s
  | .hostLinkUp u => Sys2Proof.Machine.execHostLinkUp u s
  | .hdmCommit base size ways => Sys2Proof.Machine.execHdmCommit base size ways s
  | .msixUnmask vector => Sys2Proof.Machine.execMsixUnmask vector s
  | .bar0UnsupportedAccess offset write => Sys2Proof.Machine.execBar0UnsupportedAccess offset write s
  | .registerWrite offset value => Sys2Proof.Machine.execRegisterWrite offset value s
  | .registerLowWordRead offset => Sys2Proof.Machine.execRegisterLowWordRead offset s
  | .genPark => Sys2Proof.Machine.execGenPark s
  | .genWake => Sys2Proof.Machine.execGenWake s
  | .tickInLostClear => Sys2Proof.Machine.execTickInLostClear s
  | .scriptStretchClr => Sys2Proof.Machine.execScriptStretchClr s
  | .forceLearn => Sys2Proof.Machine.execForceLearn s
  | .forceService => Sys2Proof.Machine.execForceService s
  | .tilePrecClr => Sys2Proof.Machine.execTilePrecClr s
  | .exactArrayJob => Sys2Proof.Machine.execExactArrayJob s
  | .exactLayerJob => Sys2Proof.Machine.execExactLayerJob s
  | .exactAbort => Sys2Proof.Machine.execExactAbort s
  | .exactJobDone => Sys2Proof.Machine.execExactJobDone s
  | .exactJobTimeout => Sys2Proof.Machine.execExactJobTimeout s
  | .callRouteClr => Sys2Proof.Machine.execCallRouteClr s
  | .callCntClr => Sys2Proof.Machine.execCallCntClr s
  | .callAdpLoad slot tenant => Sys2Proof.Machine.execCallAdpLoad slot tenant s
  | .adapterLoadDone => Sys2Proof.Machine.execAdapterLoadDone s
  | .retireReq slot => Sys2Proof.Machine.execRetireReq slot s
  | .callAdpDirWrite entry slot valid => Sys2Proof.Machine.execCallAdpDirWrite entry slot valid s
  | .kvCmdPark session => Sys2Proof.Machine.execKvCmdPark session s
  | .kvCmdWake session => Sys2Proof.Machine.execKvCmdWake session s
  | .kvCmdFork session => Sys2Proof.Machine.execKvCmdFork session s
  | .callKvClr => Sys2Proof.Machine.execCallKvClr s
  | .errMemClr => Sys2Proof.Machine.execErrMemClr s
  | .wtVerify next program => Sys2Proof.Machine.execWtVerify next program s
  | .wtLoad next program => Sys2Proof.Machine.execWtLoad next program s
  | .wtAbort next program => Sys2Proof.Machine.execWtAbort next program s
  | .sectionLoadDone => Sys2Proof.Machine.execSectionLoadDone s
  | .curtainLower t => Sys2Proof.Machine.execCurtainLower t s
  | .curtainAbandon => Sys2Proof.Machine.execCurtainAbandon s
  | .tileHcStart layer => Sys2Proof.Machine.execTileHcStart layer s
  | .hcIntervalExpiry => Sys2Proof.Machine.execHcIntervalExpiry s
  | .headCountDone => Sys2Proof.Machine.execHeadCountDone s
  | .tileProgClr => Sys2Proof.Machine.execTileProgClr s
  | .refreshStart tile array vprogOk => Sys2Proof.Machine.execRefreshStart tile array vprogOk s
  | .replacementStart tile array vprogOk => Sys2Proof.Machine.execReplacementStart tile array vprogOk s
  | .arrayProgramDone tile array r => Sys2Proof.Machine.execArrayProgramDone tile array r s
  | .arrayResetDone tile array ok => Sys2Proof.Machine.execArrayResetDone tile array ok s
  | .trackStale tile array => Sys2Proof.Machine.execTrackStale tile array s
  | .overdue tile array => Sys2Proof.Machine.execOverdue tile array s
  | .scriptLoad => Sys2Proof.Machine.execScriptLoad s
  | .scriptLoadDone => Sys2Proof.Machine.execScriptLoadDone s
  | .scriptUnload => Sys2Proof.Machine.execScriptUnload s
  | .scriptLoadAbort => Sys2Proof.Machine.execScriptLoadAbort s
  | .hazardModeWrite mode => Sys2Proof.Machine.execHazardModeWrite mode s
  | .meshRediscover => Sys2Proof.Machine.execMeshRediscover s
  | .meshLaneRetry => Sys2Proof.Machine.execMeshLaneRetry s
  | .meshIdWrite herd x y lock => Sys2Proof.Machine.execMeshIdWrite herd x y lock s
  | .meshCntClr => Sys2Proof.Machine.execMeshCntClr s
  | .hostCntClr => Sys2Proof.Machine.execHostCntClr s
  | .hostEvtClear bits => Sys2Proof.Machine.execHostEvtClear bits s
  | .errRingHeadWrite count => Sys2Proof.Machine.execErrRingHeadWrite count s
  | .errStackClrFatal => Sys2Proof.Machine.execErrStackClrFatal s
  | .errCntClr => Sys2Proof.Machine.execErrCntClr s
  | .errHistCommit => Sys2Proof.Machine.execErrHistCommit s
  | .clearStruck => Sys2Proof.Machine.execClearStruck s
  | .historyHourlyCommit => Sys2Proof.Machine.execHistoryHourlyCommit s
  | .historyScoreDecay kind unit => Sys2Proof.Machine.execHistoryScoreDecay kind unit s
  | .locationReread store unit loc same => Sys2Proof.Machine.execLocationReread store unit loc same s
  | .scrubRead store unit loc found => Sys2Proof.Machine.execScrubRead store unit loc found s
  | .thermCntClr => Sys2Proof.Machine.execThermCntClr s
  | .bandReading temps => Sys2Proof.Machine.execBandReading temps s
  | .monitorCycle m t => Sys2Proof.Machine.execMonitorCycle m t s
  | .hkcStart n urgChan => Sys2Proof.Machine.execHkcStart n urgChan s
  | .hkcUrgent n urgChan => Sys2Proof.Machine.execHkcUrgent n urgChan s
  | .hkcRefWrite sel => Sys2Proof.Machine.execHkcRefWrite sel s
  | .hostBurstDone b => Sys2Proof.Machine.execHostBurstDone b s
  | .urgentDone b => Sys2Proof.Machine.execUrgentDone b s
  | .avsPoll mv amps t => Sys2Proof.Machine.execAvsPoll mv amps t s
  | .avsReadback mv => Sys2Proof.Machine.execAvsReadback mv s
  | .secDbgLevel level => Sys2Proof.Machine.execSecDbgLevel level s
  | .secDbgExit => Sys2Proof.Machine.execSecDbgExit s
  | .fwAppend kind units => Sys2Proof.Machine.execFwAppend kind units s
  | .fwCommit kind vprogOk => Sys2Proof.Machine.execFwCommit kind vprogOk s
  | .fwCancel => Sys2Proof.Machine.execFwCancel s
  | .dbgFreeze t => Sys2Proof.Machine.execDbgFreeze t s
  | .dbgThaw t => Sys2Proof.Machine.execDbgThaw t s
  | .getIdentity tag => Sys2Proof.Machine.execGetIdentity tag s
  | .getMeasure tag nonce => Sys2Proof.Machine.execGetMeasure tag nonce s
  | .lock a => Sys2Proof.Machine.execLock a s
  | .ownerClaim a keys => Sys2Proof.Machine.execOwnerClaim a keys s
  | .ownerTransfer a keys => Sys2Proof.Machine.execOwnerTransfer a keys s
  | .debugToken a vendor level => Sys2Proof.Machine.execDebugToken a vendor level s
  | .unlock a => Sys2Proof.Machine.execUnlock a s
  | .doeAbort => Sys2Proof.Machine.execDoeAbort s
  | .jtagBypass => Sys2Proof.Machine.execJtagBypass s
  | .jtagIdcode => Sys2Proof.Machine.execJtagIdcode s
  | .jtagSamplePreload value => Sys2Proof.Machine.execJtagSamplePreload value s
  | .jtagExtest => Sys2Proof.Machine.execJtagExtest s
  | .jtagAonRead => Sys2Proof.Machine.execJtagAonRead s
  | .jtagDbgAccess r => Sys2Proof.Machine.execJtagDbgAccess r s
  | .jtagFreeze engage t => Sys2Proof.Machine.execJtagFreeze engage t s
  | .jtagKeptRead => Sys2Proof.Machine.execJtagKeptRead s
  | .jtagStop engage t => Sys2Proof.Machine.execJtagStop engage t s
  | .jtagScan bits => Sys2Proof.Machine.execJtagScan bits s
  | .i3cEntdaa addr => Sys2Proof.Machine.execI3cEntdaa addr s
  | .i3cOffsetWrite offset => Sys2Proof.Machine.execI3cOffsetWrite offset s
  | .i3cPrivateRead => Sys2Proof.Machine.execI3cPrivateRead s
  | .ethFrameReceive frame => Sys2Proof.Machine.execEthFrameReceive frame s
  | .telemetrySend => Sys2Proof.Machine.execTelemetrySend s
  | .awakeSend => Sys2Proof.Machine.execAwakeSend s
  | .hbmSelfRefreshReturn stack => Sys2Proof.Machine.execHbmSelfRefreshReturn stack s
  | .ethLinkChange speed => Sys2Proof.Machine.execEthLinkChange speed s
  | .doeDiscovery index type length => Sys2Proof.Machine.execDoeDiscovery index type length s
  | .coreMemoryUncorrectable boxOffice d => Sys2Proof.Machine.execCoreMemoryUncorrectable boxOffice d s
  | .calibrationRereadFail d => Sys2Proof.Machine.execCalibrationRereadFail d s
  | .errorUnitSelfCheckFail d => Sys2Proof.Machine.execErrorUnitSelfCheckFail d s
  | .refSettled => Sys2Proof.Machine.execRefSettled s
  | .laneRealigned link => Sys2Proof.Machine.execLaneRealigned link s
  | .linkRetrainDone link lanes => Sys2Proof.Machine.execLinkRetrainDone link lanes s

end Sys2Proof.Machine
end

