-- ==== Sys2Proof/Safety.lean ====
section
/-! DEFINITION. What counts as a safe run: one that neither faults nor is refused. The outcomes that statements name, and the
invariants that every step keeps. -/
namespace Sys2Proof.Machine

/-! ## Outcomes -/

/-- The command completes, leaves the queue as it is, and takes the device to the one given. -/
def Gives (c : Instr) (s : State) (d : Dev) : Prop := exec c s = .next { s with dev := d }

/-- The command completes, leaves the queue as it is, and the device after it has a property. -/
def GivesWith (c : Instr) (s : State) (p : Dev → Prop) : Prop := ∃ d, exec c s = .next { s with dev := d } ∧ p d

/-- Every address the command names exists: device memory (R210) and the host window (R213). -/
def inMemory : Instr → Bool
  | .hbmRd c => hbmInside c
  | .hbmRdDeliver c _ => hbmInside c
  | .hbmWr c => hbmInside c
  | .hostMemWrite a bs => inWindow a bs.length
  | .callboardBitSet a bs => inWindow a bs.length
  | .hostMemRead a n _ => inWindow a n
  | _ => true

/-! ## The security block -/

/-- The commands that can change the security and firmware block: starts, resets and rails (R449, R484, R489), SEC_DBG (R463), the
firmware update (R476), the signed requests (R457), and register writes of the host and of JTAG. -/
def touchesSecurity : Instr → Bool
  | .vddAonRise .. | .vddAonLoss | .sysRstNAssert .. | .sysRstNRelease .. | .prsntNChange .. | .powerGoodLost ..
  | .powerGoodRestored .. | .tripRelease .. | .secDbgLevel .. | .secDbgExit | .fwAppend .. | .fwCommit .. | .fwCancel | .lock ..
  | .ownerClaim .. | .ownerTransfer .. | .debugToken .. | .unlock .. | .registerWrite .. | .jtagDbgAccess .. => true
  | _ => false

/-- Highest debug level that a security state permits (R461, R463): OWNER_DEBUG D2, MANUFACTURE and VENDOR_DEBUG D3. -/
def permitted : SecState → Nat
  | .manufacture => 3 | .locked => 1 | .ownerDebug => 2 | .vendorDebug => 3 | .dark => 0 | .notYet => 0

/-- The debug level in force never passes SEC_STATUS.MAX, and MAX never passes what the security state permits. -/
def SecInv (s : State) : Prop := s.dev.sec.level ≤ s.dev.sec.max ∧ s.dev.sec.max ≤ permitted s.dev.sec.st

/-! ## Memory -/

/-- Every byte store is in its canonical form: addresses strictly rising, no listed byte equal to 0. -/
def Mem.wf (m : Mem) : Bool := cellsWf m.hbm && cellsWf m.wings && cellsWf m.localBuf && cellsWf m.prompter && cellsWf m.apron

/-- The byte store that a memory store's codewords lie in; row tags are no bytes. -/
def Mem.bytesOf (m : Mem) : Store → List Host.Cell
  | .apron => m.apron | .rowTag => [] | .wings => m.wings | .localBuf => m.localBuf | .prompter => m.prompter | .hbm => m.hbm

/-! ## Tables -/

/-- The tables of records, sets, lanes and adapter slots are in their canonical form: keys strictly rising. -/
def Dev.tablesWf (d : Dev) : Bool :=
  sparseWf d.err.ring && sparseWf d.err.stack && sparseWf d.eng.encoreOver && sparseWf d.tile.acc && sparseWf d.tile.census &&
    sparseWf d.frm.lanes && sparseWf d.frm.nextLanes && sparseWf d.call.adpSlots && sparseWf d.call.adpDir

end Sys2Proof.Machine
end

