-- ==== Sys2Proof/Certificates/Slice0/Obligations.lean ====
section
/-! DEFINITION. The statements for the provers, in the order of OBLIGATIONS.json. Each says what commands do to the device:
`Gives c s d` is `exec c s = .next { s with dev := d }`, so it says that the command completes, leaves the queue, and what
every field holds after it. -/

open Sys2Proof Sys2Proof.Machine

/-- A step runs the command at the front of the queue. For every command c, every queue and every device: step at a state
whose queue is c followed by the rest is exec of c at the same device with the rest as its queue. On an empty queue
step answers the state unchanged (the model's choice, log 2), and no word of any length spells a command, so placing a
word leaves the state as it is. Rests on 00_scope, 01_architecture. -/
def Obligations.StepRunsTheFrontCommand : Prop :=
  (∀ (c : Instr) (rest : List Instr) (d : Dev), step { pending := c :: rest, dev := d } = exec c { pending := rest, dev := d }) ∧
  (∀ d : Dev, step { pending := [], dev := d } = .next { pending := [], dev := d }) ∧
  (∀ (s : State) (nbits w : Nat), decodeTableWord nbits w = none ∧ s.withFetchWord nbits w = s)

/-- Which commands complete, which are refused and which fault, for every command and state. For every command c and state
s. If c has the operands of an event this hardware can have and every address it names exists, exec answers a next
state with the same queue. If an operand form is one that a script load refuses (a reserved encoding), exec refuses it
as ill-formed. Otherwise, that is when a well-formed memory command names an address outside device memory or the host
window, exec faults with the one fault. The three cases exclude each other, so no command is ever refused as not
modelled and no ordinary data stops a run. Rests on R210, R213, R336, R341. -/
def Obligations.CommandsCompleteOrStopByName : Prop :=
  ∀ (c : Instr) (s : State),
    (c.wf = true → inMemory c = true → GivesWith c s fun _ => True) ∧
    (c.wf = false → exec c s = .refused .illFormed) ∧
    (c.wf = true → inMemory c = false → exec c s = .fault .noSuchAddress)

/-- No command but starts, resets, rails, SEC_DBG, firmware, signed requests and register writes changes the security
block. For every state and every command that is not one of the twenty of touchesSecurity, if exec answers a next
state then every register, key, counter, slot and buffer of the security and firmware block is as before. In
particular no cue, link unit, KV message, host memory access, sensor reading or error changes the security state, the
debug level, the owner keys or the firmware slots. Rests on R448, R457, R461, R463, R476. -/
def Obligations.SecurityBlockChangesOnlyByItsCommands : Prop :=
  ∀ (c : Instr) (s t : State), touchesSecurity c = false → exec c s = .next t → t.dev.sec = s.dev.sec

/-- Every step keeps the debug level within MAX and MAX within what the security state permits. An invariant of every
step, from every state: if the debug level is at most SEC_STATUS.MAX and MAX at most the highest level that the
security state permits (DARK and not yet established 0, LOCKED 1, OWNER_DEBUG 2, MANUFACTURE and VENDOR_DEBUG 3), then
the same holds after any step that answers a next state. It covers every command, at every firmware, key and
signature. Rests on R461, R463, R464, R455. -/
def Obligations.DebugLevelStaysPermitted : Prop :=
  ∀ s t : State, SecInv s → step s = .next t → SecInv t

/-- The state after reset meets the debug level invariant and the canonical form of memory. At State.reset the debug level
is within MAX and MAX within what the security state permits, every byte store and table is in its canonical form
(nothing is listed), and the queue is empty. Rests on R11, R449, R461. -/
def Obligations.ResetMeetsTheInvariants : Prop :=
  SecInv State.reset ∧ Mem.wf State.reset.dev.mem = true ∧ State.reset.dev.tablesWf = true ∧ State.reset.pending = []

/-- Every step keeps every byte store, and every table the statements read, in canonical form. An invariant of every step,
from every state: if the byte stores of HBM, wings, local buffers, Prompter and apron list their addresses strictly
rising and list no byte equal to 0 (what an unlisted address reads as), then so they do after any step that answers a
next state. Equal memories are therefore equal data. The same of the error ring and stack, the accumulator sets, the
census, the lanes of this frame and the next, the encore overflow, and the adapter slots and directory: keys strictly
rising. Rests on R188, R210, R449, 06_on_chip_memory. -/
def Obligations.MemoryStaysCanonical : Prop :=
  ∀ s t : State, step s = .next t →
    (Mem.wf s.dev.mem = true → Mem.wf t.dev.mem = true) ∧ (s.dev.tablesWf = true → t.dev.tablesWf = true)

/-- SYS_RST_N, PRSNT_N and lost rails: what reset clears and keeps, and what loss of VDD_AON ends. SYS_RST_N low for 100
ns or more while not asserted, PRSNT_N deasserted past its 10 ms filter in a state other than OFF, and power-good lost
on a rail other than VDD_AON in a state other than OFF and TRIPPED each hold the device in reset; a SYS_RST_N pulse
shorter than its filter, or one while it is asserted already, changes nothing. Holding reset, on every device:
sessions, frames, script, engines, KV, host attachment and converter registers take their reset values, every byte
store is empty, the debug level and MAX are 0; the security state, owner keys, boot count, firmware slots, record
stack, fatal snapshot, array cells, weight epoch and MESH_ID stay. In every state but OFF, VDD_AON_LOSS, and
POWER_GOOD_LOST of the VDD_AON rail, leave the device OFF with everything at its reset value: the record stack and
fatal snapshot, THERM_TRIP, and the debug and JTAG registers too. Arrays, owner keys, firmware slots and boot count
stay. In OFF nothing changes. Rests on R449, R483, R484, R489, R11, R446, R414. -/
def Obligations.ResetInputsHoldOrEndTheDevice : Prop :=
  (
  (∀ (s : State) (n : Nat), 100 ≤ n → s.dev.sys.sysRst = false →
    Gives (.sysRstNAssert n) s (s.dev.modSys fun x => { x with sysRst := true }).holdReset) ∧
  (∀ (s : State) (n : Nat), n < 100 ∨ s.dev.sys.sysRst = true → Gives (.sysRstNAssert n) s s.dev) ∧
  (∀ (s : State) (n t : Nat) (b : BootIn), 10000000 ≤ n → s.dev.sys.st ≠ .off → s.dev.sys.prsnt = true →
    Gives (.prsntNChange false n t b) s (s.dev.modSys fun x => { x with prsnt := false }).holdReset) ∧
  (∀ (s : State) (r : Rail), r ≠ .aon → s.dev.sys.st ≠ .off → s.dev.sys.st ≠ .tripped →
    Gives (.powerGoodLost r) s (s.dev.modSys fun x => { x with pg := x.pg &&& ~~~ BitVec.ofNat 7 (2 ^ Rail.bit r) }).holdReset) ∧
  ∀ d : Dev, let r := d.holdReset
    r.call = {} ∧ r.frm = {} ∧ r.scr = {} ∧ r.eng = {} ∧ r.kv = {} ∧ r.host = {} ∧ r.hkc = {} ∧ r.mem = { spares := d.mem.spares } ∧
    r.sec.level = 0 ∧ r.sec.max = 0 ∧ r.sec.st = d.sec.st ∧ r.sec.owner = d.sec.owner ∧ r.sec.bootCount = d.sec.bootCount ∧
    r.sec.boA = d.sec.boA ∧ r.sec.boB = d.sec.boB ∧ r.sec.smA = d.sec.smA ∧ r.sec.smB = d.sec.smB ∧
    r.err.stack = d.err.stack ∧ r.err.snapshot = d.err.snapshot ∧ r.tile.cells = d.tile.cells ∧ r.wts.epoch = d.wts.epoch ∧
    r.mesh.herd = d.mesh.herd ∧ r.mesh.x = d.mesh.x ∧ r.mesh.y = d.mesh.y
  ) ∧ (
  ∀ (s : State) (c : Instr), c = .vddAonLoss ∨ c = .powerGoodLost .aon →
    (s.dev.sys.st = .off → Gives c s s.dev) ∧
    (s.dev.sys.st ≠ .off → GivesWith c s fun d =>
      d.sys.st = .off ∧ d.sys.switches = true ∧ d.sys.thermTripN = false ∧ d.err.stack = [] ∧ d.err.snapshot = [] ∧ d.thm = {} ∧ d.dbg = {} ∧
      d.call = {} ∧ d.frm = {} ∧ d.scr = {} ∧ d.kv = {} ∧ d.host = {} ∧ d.mem = { spares := s.dev.mem.spares } ∧
      d.tile.cells = s.dev.tile.cells ∧ d.sec.owner = s.dev.sec.owner ∧ d.sec.boA = s.dev.sec.boA ∧ d.sec.smA = s.dev.sec.smA ∧
      d.sec.bootCount = s.dev.sec.bootCount)
  )

/-- The first rise of VDD_AON, the releases of SYS_RST_N, PRSNT_N and a trip, and restored rails begin one start-up
sequence. With every other reset input released, all rails good and no trip in force: VDD_AON_RISE from OFF,
SYS_RST_N_RELEASE (which also clears THERM_TRIP.LATCHED), PRSNT_N asserted past its filter, POWER_GOOD_RESTORED, and
TRIP_RELEASE of an unlatched trip each run the start-up on the device with that input changed. A latched trip stays in
force until SYS_RST_N is asserted. The start-up runs whole in the command that begins it (the model's choice, log 4).
Rests on R449, R439, R440, R484, R489, R487. -/
def Obligations.StartEventsBeginTheStartUp : Prop :=
  (∀ (s : State) (t : Nat) (b : BootIn), s.dev.sys.st = .off → s.dev.sys.sysRst = false → s.dev.sys.prsnt = true →
    s.dev.sys.pg = 0x5F → s.dev.sys.thermTripN = false → Gives (.vddAonRise t b) s (s.dev.aonUp.startUp t b)) ∧
  (∀ (s : State) (t : Nat) (b : BootIn), s.dev.sys.sysRst = true → s.dev.sys.st ≠ .off → s.dev.sys.st ≠ .blackout → s.dev.sys.prsnt = true →
    s.dev.sys.pg = 0x7F → s.dev.sys.thermTripN = false → Gives (.sysRstNRelease t b) s
      (((s.dev.modSys fun x => { x with sysRst := false }).modThm fun m => { m with tripLatched := false }).startUp t b)) ∧
  (∀ (s : State) (n t : Nat) (b : BootIn), 10000000 ≤ n → s.dev.sys.prsnt = false → s.dev.sys.st ≠ .off → s.dev.sys.st ≠ .blackout →
    s.dev.sys.sysRst = false → s.dev.sys.pg = 0x7F → s.dev.sys.thermTripN = false →
    Gives (.prsntNChange true n t b) s ((s.dev.modSys fun x => { x with prsnt := true }).startUp t b)) ∧
  (∀ (s : State) (t : Nat) (b : BootIn), s.dev.sys.pg ≠ 0x7F → s.dev.sys.st ≠ .off → s.dev.sys.st ≠ .blackout → s.dev.sys.sysRst = false →
    s.dev.sys.prsnt = true → s.dev.sys.thermTripN = false →
    Gives (.powerGoodRestored t b) s ((s.dev.modSys fun x => { x with pg := 0x7F }).startUp t b)) ∧
  (∀ (s : State) (t : Nat) (b : BootIn), s.dev.sys.thermTripN = true → s.dev.thm.tripLatched = false →
    s.dev.sys.st ≠ .off → s.dev.sys.st ≠ .blackout → s.dev.sys.sysRst = false → s.dev.sys.prsnt = true → s.dev.sys.pg = 0x7F →
    Gives (.tripRelease t b) s ((s.dev.modSys fun x => { x with thermTripN := false }).startUp t b)) ∧
  (∀ (s : State) (t : Nat) (b : BootIn), s.dev.thm.tripLatched = true → s.dev.sys.sysRst = false → s.dev.sys.prsnt = true →
    Gives (.tripRelease t b) s s.dev)

/-- Where a start-up ends, for every device, firmware and world. For every device and everything the world decides at
start-up: the sequence ends in READY, STRUCK or DARK_HOUSE, at debug level D0, with no script, no frame, and no
session activity. When the protected part fails its check word the device is in security state DARK and DARK_HOUSE
with cause 5 and the boot count does not move; otherwise the boot count rises by one. When the protected part passes
and no Box Office slot qualifies the device is in DARK and DARK_HOUSE with cause 6. Rests on R449, R450, R452, R455,
R456, R463. -/
def Obligations.StartUpEndsReadyStruckOrDark : Prop :=
  ∀ (d : Dev) (t : Nat) (b : BootIn), let r := d.startUp t b
    (r.sys.st = .ready ∨ r.sys.st = .struck ∨ r.sys.st = .darkHouse) ∧
    r.sec.level = 0 ∧ r.scr.script = none ∧ r.frm.running = false ∧ r.call.steps = [] ∧
    (d.sec.protectedOk = false → r.sys.st = .darkHouse ∧ r.sec.st = .dark ∧ r.sec.dhCause = 5 ∧ r.sec.bootCount = d.sec.bootCount) ∧
    (d.sec.protectedOk = true → r.sec.bootCount = d.sec.bootCount + 1) ∧
    (d.sec.protectedOk = true → qualifies 1 d.sec.floorBo.toNat d.sec.boA = none → qualifies 1 d.sec.floorBo.toNat d.sec.boB = none →
      r.sys.st = .darkHouse ∧ r.sec.st = .dark ∧ r.sec.dhCause = 6)

/-- Each fatal source is recorded and handled; a second one during handling takes the device to BLACKOUT. The seven fatal
sources (core clock lock lost, Stage Manager watchdog, Box Office self-check, containment timeout, core memory
uncorrectable, calibration re-read, error unit self-check), each while its unit runs: a first one leaves the device
STRUCK with every lane empty, cues stopped and none outstanding, the drain of its record begun and a snapshot written;
one during fatal handling (at the same model time, the model's choice, log 18) leaves it in BLACKOUT, core stopped,
HBM in self-refresh, no frame open. Each takes the next SEQ. No byte of any store changes. Rests on R411, R412, R413,
R414, R466. -/
def Obligations.FatalSourcesStrikeOrBlackOut : Prop :=
  ∀ (s : State) (c : Instr) (w : FatalDetail) (bo : Bool), s.dev.coreRuns = true → s.dev.sys.st ≠ .darkHouse →
    (c = .coreClockLockLost w ∨ c = .boSelfCheckFail w ∨ c = .errorUnitSelfCheckFail w ∨
     (c = .smWatchdogExpiry w ∧ s.dev.sec.smRun = true) ∨ (c = .coreMemoryUncorrectable bo w ∧ (bo = true ∨ s.dev.sec.smRun = true)) ∨
     (c = .containmentTimeout w ∧ s.dev.sys.st ≠ .boot) ∨ (c = .calibrationRereadFail w ∧ s.dev.sys.st ≠ .boot)) →
    (s.dev.inFatal = false → GivesWith c s fun d =>
      d.sys.st = .struck ∧ d.frm.lanes = [] ∧ d.frm.outst = [] ∧ d.frm.stall = none ∧ d.linkCues = false ∧ d.err.drain = some s.dev.err.nextSeq ∧ d.err.fatal = some (s.dev.err.nextSeq, s.dev.now) ∧
      d.err.snapshot.length = 4 ∧ 3 ≤ d.err.worst ∧ d.err.nextSeq = s.dev.err.nextSeq + 1 ∧ d.mem = s.dev.mem) ∧
    (s.dev.inFatal = true → GivesWith c s fun d =>
      d.sys.st = .blackout ∧ d.sys.coreStopped = true ∧ d.sys.selfRefresh = 0xF ∧ d.sys.switches = true ∧ d.frm.isOpen = false ∧
      d.err.nextSeq = s.dev.err.nextSeq + 1 ∧ d.dbg.keptLevel = s.dev.sec.level ∧ d.mem = s.dev.mem)

/-- A thermal trip stops the core, and is counted and latched. In every state but OFF, TRIPPED and BLACKOUT, THERMAL_TRIP
leaves the device TRIPPED with THERM_TRIP asserted, the core stopped, HBM in self-refresh, no frame open, no step in
flight and no hold engaged; THERM_TRIP counts it with its diode and cause, and latches it when the two trips before it
are both less than 3,600 s old. In TRIPPED, a diode fault changes only the cause and diode; otherwise, and in OFF,
nothing changes but the clock. Rests on R437, R438, R439, R440, R471. -/
def Obligations.ThermalTripStopsTheCore : Prop :=
  ∀ (s : State) (diode : Fin 2) (fault : Bool) (t : Nat),
    (s.dev.sys.st ≠ .off → s.dev.sys.st ≠ .tripped → s.dev.sys.st ≠ .blackout → GivesWith (.thermalTrip diode fault t) s fun d =>
      d.sys.st = .tripped ∧ d.sys.thermTripN = true ∧ d.sys.coreStopped = true ∧ d.sys.selfRefresh = 0xF ∧ d.frm = {} ∧
      d.call.steps = [] ∧ d.dbg.held = false ∧ d.thm.tripCount = bumpW 8 s.dev.thm.tripCount ∧ d.thm.tripDiode = diode.val ∧
      d.thm.tripCause = (if fault then 2 else 1) ∧
      d.thm.tripLatched = (s.dev.thm.tripLatched ||
        (decide (tripAge t s.dev.thm.trip1 < 3600) && decide (tripAge t s.dev.thm.trip2 < 3600))) ∧
      d.mem = s.dev.mem ∧ d.sec = s.dev.sec) ∧
    (s.dev.sys.st = .tripped → Gives (.thermalTrip diode fault t) s
      (if fault then { s.dev with now := max s.dev.now t, thm := { s.dev.thm with tripCause := 2, tripDiode := diode.val } }
       else { s.dev with now := max s.dev.now t })) ∧
    (s.dev.sys.st = .off → Gives (.thermalTrip diode fault t) s s.dev)

/-- The pins PERST_N, BYPASS_N and FREEZE_N past their filters, and what a glitch does. BYPASS_N asserted for 100 ns or
more, or released for 1 ms, takes its level and the bypass switches follow R376: closed while it is asserted, in
reset, OFF, BOOT, DARK_HOUSE, TRIPPED and BLACKOUT, else open; a shorter assertion is counted in GEN_PIN_GLITCH,
saturating at 255. PERST_N asserted resets the CXL controller alone: the link is down, decoder, MSI-X table and DOE
exchange gone, and every store, session, frame and script stays; its release changes only the pin. FREEZE_N low for
less than 1 µs is counted; one low longer takes the pin level, and on a running device engages the pin hold: a device
in READY, PLAYING, CURTAIN or STRUCK is then held still, and STATE becomes FROZEN in PLAYING and CURTAIN alone.
FREEZE_N high for 10 µs gives up the pin level and the pin hold and no other source's hold; the last hold to drop ends
the freeze and restores STATE. A release shorter than 10 µs changes nothing. Rests on R376, R377, R395, R468, R469,
R470, R483, R486, R498. -/
def Obligations.PinFiltersActAsTheTableGives : Prop :=
  (∀ (s : State) (a : Bool) (n : Nat), s.dev.sys.st ≠ .off → (if a then 100 ≤ n else 1000000 ≤ n) →
    GivesWith (.bypassNChange a n) s fun d => d.sys.bypassN = a ∧ d.sys.switches = d.switchesClosed ∧ d.mem = s.dev.mem ∧ d.sec = s.dev.sec ∧
      d.mesh = s.dev.mesh ∧ d.frm = s.dev.frm ∧ d.call = s.dev.call) ∧
  (∀ (s : State) (n : Nat), s.dev.sys.st ≠ .off → n < 100 →
    Gives (.bypassNChange true n) s { s.dev with sys := { s.dev.sys with glBypass := min 255 (s.dev.sys.glBypass + 1) } }) ∧
  (∀ (s : State) (n : Nat), 100 ≤ n → s.dev.sys.perst = false → s.dev.inReset = false → GivesWith (.perstNAssert n) s fun d =>
    d.sys.perst = true ∧ d.host.up = false ∧ d.host.hdm = none ∧ d.host.msix = [] ∧ d.host.msixPend = [] ∧ d.host.msixEnable = false ∧
    d.host.doeResp = [] ∧ d.host.bme = false ∧ d.mem = s.dev.mem ∧ d.frm = s.dev.frm ∧ d.scr = s.dev.scr ∧ d.kv = s.dev.kv ∧
    d.tile = s.dev.tile ∧ d.sec = s.dev.sec ∧ d.call.steps = s.dev.call.steps) ∧
  (∀ s : State, Gives .perstNRelease s { s.dev with sys := { s.dev.sys with perst := false } }) ∧
  (∀ (s : State) (n t : Nat), s.dev.sys.st ≠ .off → s.dev.inReset = false → n < 1000 →
    Gives (.freezeNAssert n t) s { s.dev with sys := { s.dev.sys with glFreeze := min 255 (s.dev.sys.glFreeze + 1) } }) ∧
  (∀ (s : State) (n t : Nat), 1000 ≤ n → s.dev.barOk = true → s.dev.sys.freezeN = false →
    GivesWith (.freezeNAssert n t) s fun d => d.sys.freezeN = true ∧ d.dbg.holdPin = true ∧ d.dbg.held = true ∧
      d.dbg.frozen = (s.dev.dbg.frozen || s.dev.stoppable) ∧
      (s.dev.sys.st = .playing ∨ s.dev.sys.st = .curtain → d.sys.st = .frozen ∧ d.sys.frozenFrom = s.dev.sys.st) ∧
      (s.dev.sys.st ≠ .playing → s.dev.sys.st ≠ .curtain → d.sys.st = s.dev.sys.st) ∧
      (s.dev.dbg.frozen = false → s.dev.stoppable = true → d.frm.tickLock = false) ∧ d.frm.lanes = s.dev.frm.lanes ∧ d.mem = s.dev.mem ∧ d.tile = s.dev.tile) ∧
  (∀ (s : State) (n t : Nat), 10000 ≤ n → s.dev.sys.st ≠ .off → s.dev.sys.freezeN = true →
    GivesWith (.freezeNRelease n t) s fun d => d.sys.freezeN = false ∧ d.dbg.holdPin = false ∧ d.dbg.holdCmd = s.dev.dbg.holdCmd ∧
      d.dbg.holdHazard = s.dev.dbg.holdHazard ∧ d.dbg.holdJtag = s.dev.dbg.holdJtag ∧ d.dbg.remote = s.dev.dbg.remote ∧
      (s.dev.dbg.holdPin = true → d.dbg.held = false → d.dbg.frozen = false ∧
        (s.dev.dbg.frozen = true → d.sys.st = (if s.dev.sys.st = .frozen then s.dev.sys.frozenFrom else s.dev.sys.st))) ∧
      d.mem = s.dev.mem ∧ d.frm.lanes = s.dev.frm.lanes) ∧
  (∀ (s : State) (n t : Nat), n < 10000 → Gives (.freezeNRelease n t) s s.dev)

/-- Temperature bands: when a flock moves, and that readings take effect at once only while frames do not run. For every
pending band A to D and every temperature: the band after a reading is again A to D; it rises to the hottest band
whose lower bound (60, 80 and 95 °C) is at most T_RO + 3 °C, and falls only when T_RO + 3 °C is more than 2 °C below
the lower bound of the current band. BAND_READING on a running housekeeping domain gives exactly the pending bands
that its oscillators in order give, and, while frames are not running, they are then the bands in effect of every
flock; while frames run the bands in effect stay. No other block changes, but for the 1,024 frames that begin for a
flock whose band in effect changes. Rests on R429, R430, R431, R47, R89, R94. -/
def Obligations.BandsFollowTheReadings : Prop :=
  (∀ (cur : Nat) (t : Int), cur ≤ 3 → nextBand cur t ≤ 3 ∧
    (cur < risingBand (t + 30) → nextBand cur t = risingBand (t + 30)) ∧
    (nextBand cur t < cur → t + 30 < bandLower cur - 20)) ∧
  ∀ (s : State) (temps : List Int), s.dev.hkRuns = true →
    (s.dev.frm.running = true → Gives (.bandReading temps) s (s.dev.modThm fun x =>
      (List.range 64).foldl (fun m f => match temps[f]? with | some v => m.oscRead f v | none => m) x)) ∧
    (s.dev.frm.running = false → GivesWith (.bandReading temps) s fun d =>
      d.thm.pendBand = ((List.range 64).foldl (fun m f => match temps[f]? with | some v => m.oscRead f v | none => m) s.dev.thm).pendBand ∧
      (∀ f < 64, sgetD d.thm.band f 0 = sgetD d.thm.pendBand f 0) ∧ { d with thm := s.dev.thm, tile := { d.tile with bandSince := s.dev.tile.bandSince } } = s.dev)

/-- A monitor cycle updates the readings, the warning, the throttle level and the fatal supply windows. MONITOR_CYCLE on a
running housekeeping domain counts the cycle and holds each channel's mean with that count; the diodes take their
readings; the peak never falls. After it, when no supply is outside its fatal window: at 95.0 °C or more the device
warns; below 90.0 °C it does not; at 105.0 °C or more a throttle level below 8 that is 0 or has stood for 1 ms rises
by one; below 100.0 °C a level that has stood for 10 ms falls by one; otherwise, with fewer than two diodes excluded,
the level stays. No store, frame, script, session or security register changes. Rests on R432, R434, R435, R436, R443,
R411. -/
def Obligations.MonitorCycleReadsAndProtects : Prop :=
  ∀ (s : State) (m : MonitorIn) (t : Nat), s.dev.hkRuns = true →
    railBroken 0 (railUv (monSum m 8) 8 1) ((s.dev.thm.vset : Rat) * 1000) 6 = none →
    railBroken 1 (railUv (monSum m 9) 8 1) 1100000 5 = none → railBroken 2 (railUv (monSum m 10) 8 1) 900000 6 = none →
    GivesWith (.monitorCycle m t) s fun d =>
      d.hkc.cycle = s.dev.hkc.cycle + 1 ∧
      (∀ ch < 29, sget d.hkc.mon ch = some (monSum m ch / 2 ^ (monN ch - 4) % 65536, (s.dev.hkc.cycle + 1) % 65536)) ∧
      (∀ n < 8, ∀ v, m.diodes[n]? = some v → sget d.thm.diode n = some v) ∧
      s.dev.thm.peak ≤ d.thm.peak ∧ d.thm.monitored = true ∧ d.now = max s.dev.now t ∧
      (∀ n v, d.thm.hottest = some (n, v) →
        d.thm.hot = v ∧ d.thm.hotDiode = n ∧ (950 ≤ v → d.thm.warn = true) ∧ (v < 900 → d.thm.warn = false) ∧
        (d.thm.excluded < 2 →
          (1050 ≤ v → s.dev.thm.level < 8 → (s.dev.thm.level = 0 ∨ ∀ c, s.dev.thm.lastChange = some c → c + 1000000 ≤ t) →
            d.thm.level = s.dev.thm.level + 1) ∧
          (v < 1000 → 0 < s.dev.thm.level → (∀ c, s.dev.thm.lastChange = some c → c + 10000000 ≤ t) → d.thm.level = s.dev.thm.level - 1) ∧
          (1000 ≤ v → v < 1050 → d.thm.level = s.dev.thm.level))) ∧
      d.mem = s.dev.mem ∧ d.frm = s.dev.frm ∧ d.scr = s.dev.scr ∧ d.sec = s.dev.sec ∧ d.kv = s.dev.kv ∧ d.call.steps = s.dev.call.steps

/-- Housekeeping converter requests and results, AVSBus polls and read-backs, and the thermal counters. HKC_START with
BUSY clear latches channel, N and reference and sets BUSY, or sets ERR when it names EXT_VREF out of its window; with
BUSY it is ignored but for the fields it carries, of which N outside 4 to 14 keeps its value. HKC_URGENT with URG_BUSY
clear waits for its channel and aborts a host burst at most twice. HKC_REF_WRITE takes SEL 0 to 2. A burst or urgent
request that is done while the reference is settled holds its sum, smallest and largest sample, all 0 for the reserved
channels 29 to 31, and clears its busy bit; nothing is sampled while REF_SETTLED is 0. REF_SETTLED sets the bit. Each
changes the converter's registers only. AVS_POLL shows the latest voltage and current; every tenth poll forms the 1 ms
average power, of which the largest is kept. A read-back within 15 mV of the set point clears the failure count; one
that is not repeats the write, and at the third the device sets AVS_ERR and writes no more. THERM_CNT_CLR clears the
counters, the peak temperature and the largest power. Each changes the THERM block, and a repeated write is sent; the
clock only with a poll. Rests on R442, R443, R444, R445, R447, R10, R424, R426, R427, R446. -/
def Obligations.ConverterAndSupplyCommandsRun : Prop :=
  (
  (∀ (s : State) (n : BitVec 4) (u : BitVec 5), s.dev.up = true → s.dev.hkc.burst = none → s.dev.hkc.ref ≠ 1 ∨ s.dev.hkc.extOk = true →
    GivesWith (.hkcStart n u) s fun d =>
      d.hkc.burst = some ⟨s.dev.hkc.chan.toNat, (if 4 ≤ n.toNat ∧ n.toNat ≤ 14 then n else s.dev.hkc.n).toNat, s.dev.hkc.ref.toNat⟩ ∧
      d.hkc.aborts = 0 ∧ d.hkc.urgChan = u ∧ d.hkc.acc = s.dev.hkc.acc ∧ { d with hkc := s.dev.hkc } = s.dev) ∧
  (∀ (s : State) (n : BitVec 4) (u : BitVec 5), s.dev.up = true → s.dev.hkc.burst = none → s.dev.hkc.ref = 1 → s.dev.hkc.extOk = false →
    GivesWith (.hkcStart n u) s fun d => d.hkc.err = true ∧ d.hkc.burst = none ∧ { d with hkc := s.dev.hkc } = s.dev) ∧
  (∀ (s : State) (n : BitVec 4) (u : BitVec 5), s.dev.up = true → s.dev.hkc.burst ≠ none →
    Gives (.hkcStart n u) s { s.dev with hkc := s.dev.hkc.ctrlFields n u }) ∧
  (∀ (s : State) (n : BitVec 4) (u : BitVec 5), s.dev.up = true → s.dev.hkc.urg = none →
    GivesWith (.hkcUrgent n u) s fun d => d.hkc.urg = some u.toNat ∧ d.hkc.burst = s.dev.hkc.burst ∧
      d.hkc.aborts = (if s.dev.hkc.burst ≠ none ∧ s.dev.hkc.aborts < 2 then s.dev.hkc.aborts + 1 else s.dev.hkc.aborts) ∧
      { d with hkc := s.dev.hkc } = s.dev) ∧
  (∀ (s : State) (sel : BitVec 2), s.dev.up = true →
    Gives (.hkcRefWrite sel) s (if sel = 3 then s.dev else { s.dev with hkc := { s.dev.hkc with ref := sel } })) ∧
  (∀ (s : State) (b : Burst) (q : BurstReq), s.dev.hkRuns = true → s.dev.hkc.settled = true → s.dev.hkc.burst = some q →
    let x : Burst := if 29 ≤ q.chan then ⟨0, 0, 0⟩ else b
    GivesWith (.hostBurstDone b) s fun d => d.hkc.acc = x.sum % 2 ^ 26 ∧ d.hkc.min = x.min ∧ d.hkc.max = x.max ∧ d.hkc.done = true ∧
      d.hkc.burst = none ∧ d.hkc.curRef = 0 ∧ d.hkc.clipped = (x.min == 0 || x.max == 4095) ∧ { d with hkc := s.dev.hkc } = s.dev) ∧
  (∀ (s : State) (b : Burst), s.dev.hkc.settled = false → Gives (.hostBurstDone b) s s.dev ∧ Gives (.urgentDone b) s s.dev) ∧
  (∀ (s : State) (b : Burst) (ch : Nat), s.dev.hkRuns = true → s.dev.hkc.settled = true → s.dev.hkc.urg = some ch →
    let x : Burst := if 29 ≤ ch then ⟨0, 0, 0⟩ else b
    Gives (.urgentDone b) s { s.dev with hkc := { s.dev.hkc with urgAcc := x.sum % 2 ^ 26, urgMin := x.min, urgMax := x.max, urgDone := true, urg := none } }) ∧
  (∀ s : State, s.dev.hkRuns = true → Gives .refSettled s { s.dev with hkc := { s.dev.hkc with settled := true } })
  ) ∧ (
  (∀ (s : State) (mv : BitVec 12) (a : BitVec 11) (t : Nat), s.dev.coreRuns = true → GivesWith (.avsPoll mv a t) s fun d =>
    d.thm.pwrMv = mv ∧ d.thm.pwrAmps = a ∧ s.dev.thm.maxW ≤ d.thm.maxW ∧
    (s.dev.thm.samples.length < 9 → d.thm.samples = s.dev.thm.samples ++ [mv.toNat * a.toNat] ∧ d.thm.avgW = s.dev.thm.avgW) ∧
    (9 ≤ s.dev.thm.samples.length → d.thm.samples = [] ∧ d.thm.avgW ≤ d.thm.maxW) ∧
    { d with now := s.dev.now, thm := s.dev.thm } = s.dev) ∧
  (∀ (s : State) (mv : Nat), s.dev.coreRuns = true → s.dev.thm.avsStopped = false →
    (mv ≤ s.dev.thm.vset + 15 → s.dev.thm.vset ≤ mv + 15 → Gives (.avsReadback mv) s { s.dev with thm := { s.dev.thm with avsFails := 0 } }) ∧
    (¬(mv ≤ s.dev.thm.vset + 15 ∧ s.dev.thm.vset ≤ mv + 15) → s.dev.thm.avsFails < 2 → Gives (.avsReadback mv) s
      { s.dev with thm := { s.dev.thm with avsFails := s.dev.thm.avsFails + 1 }, out := s.dev.out ++ [.avsWrite s.dev.thm.vset] }) ∧
    (¬(mv ≤ s.dev.thm.vset + 15 ∧ s.dev.thm.vset ≤ mv + 15) → 2 ≤ s.dev.thm.avsFails → GivesWith (.avsReadback mv) s fun d =>
      d.thm.avsErr = true ∧ d.thm.avsStopped = true ∧ d.thm.avsFails = 0 ∧ { d with thm := s.dev.thm } = s.dev)) ∧
  (∀ s : State, s.dev.up = true → Gives .thermCntClr s { s.dev with thm := { s.dev.thm with cnt := [], peak := 0, maxW := 0 } })
  )

/-- The freeze command and its release, and the release of the pin hold. DBG_FREEZE at level D2 or above engages the
command hold: a device in READY, PLAYING, CURTAIN or STRUCK is held still, STATE becomes FROZEN in PLAYING and CURTAIN
alone; below D2 it changes nothing. DBG_THAW drops the command, hazard and JTAG holds and no other: a frozen device
with no hold left resumes, STATE returns, and while frames run the frame starts later by the time frozen and LEARN
follows at the next boundary. FREEZE_N released for 10 µs drops the pin hold in the same way. No store changes. Rests
on R468, R469, R470, R466. -/
def Obligations.FreezeHoldsFollowTheirSources : Prop :=
  (∀ (s : State) (t : Nat), s.dev.up = true → 2 ≤ s.dev.sec.level →
    GivesWith (.dbgFreeze t) s fun d => d.dbg.holdCmd = true ∧ d.dbg.held = true ∧ d.dbg.frozen = (s.dev.dbg.frozen || s.dev.stoppable) ∧
      (s.dev.sys.st = .playing ∨ s.dev.sys.st = .curtain → d.sys.st = .frozen ∧ d.sys.frozenFrom = s.dev.sys.st) ∧
      (s.dev.sys.st ≠ .playing → s.dev.sys.st ≠ .curtain → d.sys.st = s.dev.sys.st) ∧
      d.mem = s.dev.mem ∧ d.tile = s.dev.tile ∧ d.frm.lanes = s.dev.frm.lanes) ∧
  (∀ (s : State) (t : Nat), s.dev.sec.level < 2 → Gives (.dbgFreeze t) s s.dev) ∧
  (∀ (s : State) (t : Nat), s.dev.up = true → GivesWith (.dbgThaw t) s fun d =>
    d.dbg.holdCmd = false ∧ d.dbg.holdHazard = false ∧ d.dbg.holdJtag = false ∧ d.dbg.holdPin = s.dev.dbg.holdPin ∧ d.dbg.remote = s.dev.dbg.remote ∧
    (d.dbg.held = false → d.dbg.frozen = false ∧
      (s.dev.dbg.frozen = true → d.sys.st = (if s.dev.sys.st = .frozen then s.dev.sys.frozenFrom else s.dev.sys.st) ∧
        (s.dev.frm.running = true → d.tile.modeReq = some 4 ∧ d.frm.start = s.dev.frm.start + (d.now - s.dev.dbg.frozenAt)) ∧
        (s.dev.frm.running = false → d.tile = s.dev.tile ∧ d.frm = s.dev.frm))) ∧
    d.mem = s.dev.mem ∧ d.frm.lanes = s.dev.frm.lanes) ∧
  (∀ (s : State) (n t : Nat), 10000 ≤ n → s.dev.sys.st = .frozen → s.dev.sys.freezeN = true → s.dev.dbg.holdPin = true → s.dev.dbg.frozen = true →
    s.dev.dbg.holdCmd = false → s.dev.dbg.holdHazard = false → s.dev.dbg.holdJtag = false → s.dev.dbg.remote = [] → s.dev.sys.frozenFrom ≠ .frozen →
    GivesWith (.freezeNRelease n t) s fun d => d.sys.freezeN = false ∧ d.dbg.held = false ∧ d.sys.st = s.dev.sys.frozenFrom ∧ d.mem = s.dev.mem)

/-- The host commands of the error unit; powered hours, the hourly commit, halved scores, and the re-read of a location.
ERR_CNT_CLR zeroes every ERR_CNT counter and WORST. ERR_STACK_CLR_FATAL frees stack entries 14 and 15 and no other,
and while fatal handling runs it changes nothing. ERR_HIST_COMMIT saves histories and locations and counts the commit.
ERR_RING_HEAD_WRITE moves the head; records held for want of ring space are copied while there is room, none is added
to them, and with none held LOG_FULL is clear and tail and ring stay as they are. CLEAR_STRUCK clears the struck
verdict in MANUFACTURE and VENDOR_DEBUG and sets the verdict of every unit without a spare to none; in every other
security state it changes nothing. Each changes the error block only, but for the pins that follow WORST (ALERT_N and
its in-band interrupt). HISTORY_HOURLY_COMMIT in any state but OFF counts one more powered hour of the device and of
every history and location, and commits them while the Stage Manager serves. HISTORY_SCORE_DECAY halves a unit score,
rounding down, exactly when its hours since the last event are a positive multiple of 168, and changes nothing
otherwise; for kind 17 it does the same to one entry of the recent-location table. LOCATION_REREAD of a location under
test ends its test; when the same symbols are not found it changes nothing else, and when they are, history is
committed, and an apron row, tag store or Prompter line with a spare left that does not wait already waits to be
mapped out. For a location that is not under test it changes nothing. Rests on R405, R410, R417, R418, R421, R486,
R406, R407, R207. -/
def Obligations.ErrorUnitAndHistoryCommands : Prop :=
  (
  (∀ s : State, s.dev.up = true → GivesWith .errCntClr s fun d => d.err = { s.dev.err with cnt := [], worst := 0 } ∧
    { d with err := s.dev.err, sys := s.dev.sys } = s.dev ∧ { d.sys with switches := s.dev.sys.switches, ibi := s.dev.sys.ibi } = s.dev.sys) ∧
  (∀ s : State, s.dev.up = true → s.dev.inFatal = false → sparseWf s.dev.err.stack = true → GivesWith .errStackClrFatal s fun d =>
    sget d.err.stack 14 = none ∧ sget d.err.stack 15 = none ∧ (∀ n < 14, sget d.err.stack n = sget s.dev.err.stack n) ∧
    { d with err := { d.err with stack := s.dev.err.stack } } = s.dev) ∧
  (∀ s : State, s.dev.inFatal = true → Gives .errStackClrFatal s s.dev) ∧
  (∀ s : State, s.dev.up = true → Gives .errHistCommit s { s.dev with err := { s.dev.err with
    commits := bumpW 24 s.dev.err.commits, histSaved := s.dev.err.hist, locsSaved := s.dev.err.locs } }) ∧
  (∀ (s : State) (n : Word), s.dev.up = true → GivesWith (.errRingHeadWrite n) s fun d =>
    d.err.head = n ∧ (∀ q ∈ d.err.held, q ∈ s.dev.err.held) ∧ d.err.nextSeq = s.dev.err.nextSeq ∧ d.err.cnt = s.dev.err.cnt ∧
    { d with err := s.dev.err } = s.dev ∧
    (s.dev.err.held = [] → d.err.logFull = false ∧
      { d with err := { d.err with head := s.dev.err.head, stack := s.dev.err.stack, logFull := s.dev.err.logFull } } = s.dev)) ∧
  (∀ s : State, s.dev.up = true → s.dev.sec.st = .manufacture ∨ s.dev.sec.st = .vendorDebug → GivesWith .clearStruck s fun d =>
    d.err.struck = false ∧ (∀ k h, sget d.err.hist k = some h → spareKind k = true ∨ h.verdict = 0) ∧
    d.err.hist.map Prod.fst = s.dev.err.hist.map Prod.fst ∧
    { d with err := { d.err with struck := s.dev.err.struck, hist := s.dev.err.hist, histSaved := s.dev.err.histSaved } } = s.dev) ∧
  (∀ s : State, s.dev.sec.st ≠ .manufacture → s.dev.sec.st ≠ .vendorDebug → Gives .clearStruck s s.dev)
  ) ∧ (
  (∀ s : State, s.dev.sys.st ≠ .off → GivesWith .historyHourlyCommit s fun d => d.err.hoursUp = s.dev.err.hoursUp + 1 ∧
    d.err.hist = s.dev.err.hist.map (fun h => (h.1, { h.2 with hours := bump h.2.hours })) ∧
    d.err.locs = s.dev.err.locs.map (fun l => { l with hours := bump l.hours }) ∧
    (s.dev.up = true → d.err.commits = bumpW 24 s.dev.err.commits ∧ d.err.histSaved = d.err.hist ∧ d.err.locsSaved = d.err.locs) ∧
    (s.dev.up = false → d.err.commits = s.dev.err.commits ∧ d.err.histSaved = s.dev.err.histSaved) ∧ { d with err := s.dev.err } = s.dev) ∧
  (∀ (s : State) (k : BitVec 5) (u : BitVec 18) (h : Hist), s.dev.sys.st ≠ .off → k ≠ 17 → sget s.dev.err.hist (histKey k.toNat u.toNat) = some h →
    (h.hours ≠ 0 → 168 ∣ h.hours → GivesWith (.historyScoreDecay k u) s fun d =>
      sget d.err.hist (histKey k.toNat u.toNat) = some { h with score := h.score / 2 } ∧
      (∀ j, j ≠ histKey k.toNat u.toNat → sget d.err.hist j = sget s.dev.err.hist j) ∧ { d with err := { d.err with hist := s.dev.err.hist } } = s.dev) ∧
    (h.hours = 0 ∨ ¬ 168 ∣ h.hours → Gives (.historyScoreDecay k u) s s.dev)) ∧
  (∀ (s : State) (st : Store) (u loc : Nat), s.dev.up = true → (s.dev.err.locs.any fun l => l.is st (locUnit st u loc) loc && l.testing) = true →
    GivesWith (.locationReread st u loc false) s fun d => (∀ l ∈ d.err.locs, l.is st (locUnit st u loc) loc = true → l.testing = false) ∧
      d.err.locs.length = s.dev.err.locs.length ∧ { d with err := { d.err with locs := s.dev.err.locs } } = s.dev) ∧
  (∀ (s : State) (u : BitVec 18), s.dev.sys.st ≠ .off → GivesWith (.historyScoreDecay 17 u) s fun d =>
    d.err.locs.length = s.dev.err.locs.length ∧ (∀ n, n ≠ u.toNat → d.err.locs[n]? = s.dev.err.locs[n]?) ∧
    (∀ l, s.dev.err.locs[u.toNat]? = some l → d.err.locs[u.toNat]? = some (if l.hours ≠ 0 ∧ 168 ∣ l.hours then { l with score := l.score / 2 } else l)) ∧
    { d with err := { d.err with locs := s.dev.err.locs } } = s.dev) ∧
  (∀ (s : State) (st : Store) (u loc : Nat), s.dev.up = true → (s.dev.err.locs.any fun l => l.is st (locUnit st u loc) loc && l.testing) = true →
    let e := (st, locUnit st u loc, mapLoc st loc)
    GivesWith (.locationReread st u loc true) s fun d => d.err.locs = (s.dev.err.endTest st (locUnit st u loc) loc).locs ∧
      (st = .apron ∨ st = .rowTag ∨ st = .prompter → e ∉ s.dev.mem.mapNext →
        (sgetD s.dev.mem.spares (unitKey st u) {}).used + (s.dev.mem.mapNext.filter fun x => x.1 == st && x.2.1 == u).length < storeSpares st →
        d.mem = { s.dev.mem with mapNext := s.dev.mem.mapNext ++ [e] } ∧ d.err.commits = bumpW 24 s.dev.err.commits ∧ d.err.nextSeq = s.dev.err.nextSeq)) ∧
  (∀ (s : State) (st : Store) (u loc : Nat) (same : Bool), (s.dev.err.locs.any fun l => l.is st (locUnit st u loc) loc && l.testing) = false →
    Gives (.locationReread st u loc same) s s.dev)
  )

/-- Writing a record never loses an unconsumed contained, unit-suspect or fatal record of the ring. For every device with
a ring in canonical form, every report, action and nesting. Recording takes the next SEQ, counts the class, raises
WORST to at least the class and sets HOST_EVT_STATUS.ERROR, and changes no memory, frame or lane. With fewer than
65,536 unconsumed records it goes to ring position TAIL mod 65,536 and TAIL advances by one. The ring position of
every record that is contained, unit-suspect or fatal and unconsumed keeps it. In the stack it goes to the lowest free
entry, of 0 to 13 when it is not fatal, 14 first when it is; entries 14 and 15 never take a record that is not fatal.
Rests on R417, R418, R400, R419. -/
def Obligations.RingKeepsUncorrectedRecords : Prop :=
  ∀ (d : Dev) (i : ErrIn) (action : Nat) (nested : Bool), i.cls ≤ 3 → sparseWf d.err.ring = true → let r := d.record i action nested
    r.err.nextSeq = d.err.nextSeq + 1 ∧ i.cls ≤ r.err.worst ∧ sgetD r.err.cnt i.cls 0 = bump (sgetD d.err.cnt i.cls 0) ∧
    r.host.evtStatus.getLsbD 1 = true ∧ r.mem = d.mem ∧ r.frm = d.frm ∧ r.tile = d.tile ∧
    ((d.err.tail - d.err.head).toNat < 65536 → r.err.tail = d.err.tail + 1 ∧
      ∃ x, sget r.err.ring (d.err.tail.toNat % 65536) = some x ∧ x.seq = d.err.nextSeq ∧ x.cls = i.cls ∧ x.code = i.code ∧ x.unit = i.unit ∧
        x.nested = nested ∧ x.action = action ∧ x.st = d.sys.st.code ∧ x.frame = d.frm.frame) ∧
    (∀ p x, p < 65536 → sget d.err.ring p = some x → x.cls ≠ 0 → d.err.live p = true → (d.err.tail - d.err.head).toNat ≤ 65536 →
      sget r.err.ring p = some x) ∧
    (∀ n < 14, sget d.err.stack n = none → (∀ m < n, sget d.err.stack m ≠ none) → i.cls ≠ 3 →
      ∃ x, sget r.err.stack n = some (x, false) ∧ x.seq = d.err.nextSeq ∧ x.code = i.code) ∧
    (sget d.err.stack 14 = none → i.cls = 3 → ∃ x, sget r.err.stack 14 = some (x, false) ∧ x.seq = d.err.nextSeq ∧ x.code = i.code) ∧
    (i.cls ≠ 3 → sget r.err.stack 14 = sget d.err.stack 14 ∧ sget r.err.stack 15 = sget d.err.stack 15)

/-- What a scrub of a codeword does: clean, corrected, uncorrectable. SCRUB_READ of an existing location while the
scrubber works. A clean codeword, not known bad and not the last of a pass, changes nothing. One that is the last of a
pass is counted as a pass. One whose errors the decoder corrects to the codeword that was written leaves every byte
store as it is, counts in ERR_MEM_CNT[1] and records a corrected error. One of apron, local buffer, Prompter, or a
wings bank that is not COMMON, that the decoder finds uncorrectable, counts in ERR_MEM_CNT[2], is recorded, and is
written back zeroed after its containment: its 128 data bytes read 0, every other byte of the store is as before. The
scrubber stops while the device is not up. ERR_MEM_CLR zeroes the memory counters alone. Rests on R203, R204, R205,
R206, R215. -/
def Obligations.ScrubberCorrectsAndContains : Prop :=
  (∀ (s : State) (st : Store) (u loc : Nat) (f : SymErrs), s.dev.scrubs st = true → locOk st u loc = true → lastLoc st u loc = false →
    (st = .hbm → loc ∉ s.dev.mem.bad) →
    (rsDecode (storeSyms st) f = .clean → Gives (.scrubRead st u loc f) s s.dev) ∧
    (∀ p, rsDecode (storeSyms st) f = .correct p → rsResidue (storeSyms st) f p = [] → GivesWith (.scrubRead st u loc f) s fun d =>
      { d.mem with cnt := s.dev.mem.cnt, spares := s.dev.mem.spares, mapNext := s.dev.mem.mapNext } = s.dev.mem ∧
      sgetD d.mem.cnt (8 * unitKey st (locUnit st u loc) + 1) 0 = bump (sgetD s.dev.mem.cnt (8 * unitKey st (locUnit st u loc) + 1) 0) ∧
      s.dev.err.nextSeq < d.err.nextSeq ∧ d.sec = s.dev.sec ∧ d.scr = s.dev.scr) ∧
    (st ≠ .hbm → st ≠ .rowTag → (st = .wings → s.dev.bankOwner (u * 2 ^ 20) ≠ 16) → rsDecode (storeSyms st) f = .uncorrectable →
      Mem.wf s.dev.mem = true → GivesWith (.scrubRead st u loc f) s fun d =>
      (∀ i < 128, rd1 (d.mem.bytesOf st) (s.dev.mem.symKey st u loc i) = 0) ∧
      (∀ a, (∀ i < 128, a ≠ s.dev.mem.symKey st u loc i) → rd1 (d.mem.bytesOf st) a = rd1 (s.dev.mem.bytesOf st) a) ∧ d.mem.hbm = s.dev.mem.hbm ∧
      sgetD d.mem.cnt (8 * unitKey st u + 2) 0 = bump (sgetD s.dev.mem.cnt (8 * unitKey st u + 2) 0) ∧
      s.dev.err.nextSeq < d.err.nextSeq ∧ d.sec = s.dev.sec)) ∧
  (∀ (s : State) (st : Store) (u loc : Nat) (f : SymErrs), s.dev.scrubs st = true → locOk st u loc = true → lastLoc st u loc = true →
    (st = .hbm → loc ∉ s.dev.mem.bad) → rsDecode (storeSyms st) f = .clean →
    Gives (.scrubRead st u loc f) s { s.dev with mem := { s.dev.mem with passes := smod s.dev.mem.passes (storeCode st) 0 bump } }) ∧
  (∀ (s : State) (st : Store) (u loc : Nat) (f : SymErrs), s.dev.up = false → Gives (.scrubRead st u loc f) s s.dev) ∧
  (∀ s : State, s.dev.up = true → Gives .errMemClr s { s.dev with mem := { s.dev.mem with cnt := [] } })

/-- The debug level: SEC_DBG.LEVEL, entry to and exit from OWNER_DEBUG. SEC_DBG_LEVEL at or below SEC_STATUS.MAX sets the
level and changes nothing else, so that lowering it clears nothing; above MAX it is ignored. An owner DEBUG_TOKEN of
level D1 or D2 that verifies and binds, in LOCKED with an owner, enters OWNER_DEBUG with MAX at the token level (in
DARK_HOUSE at most D1, R455). SEC_DBG_EXIT in OWNER_DEBUG returns to LOCKED with MAX D1 and in no other state does
anything. Every command, of every kind, after which a device is no longer in OWNER_DEBUG leaves its level at D1 or
below. Rests on R463. -/
def Obligations.DebugLevelFollowsItsRegister : Prop :=
  (∀ (s : State) (l : BitVec 2), s.dev.barOk = true → l.toNat ≤ s.dev.sec.max → Gives (.secDbgLevel l) s
    { s.dev with sec := { s.dev.sec with level := l.toNat } }) ∧
  (∀ (s : State) (l : BitVec 2), s.dev.sec.max < l.toNat → Gives (.secDbgLevel l) s s.dev) ∧
  (∀ (s : State) (a : DoeAuth) (l : BitVec 2), s.dev.doeOk = true → s.dev.sec.st = .locked → s.dev.sec.owner.isSome = true → l = 1 ∨ l = 2 →
    GivesWith (.debugToken a false l) s fun d =>
      (Config.mldsaVerify s.dev.sec.debugKey (DoeAuth.message a 0x06 [BitVec.ofNat 8 (2 * l.toNat)]) a.sig = true → s.dev.bound a = true →
        d.sec = { s.dev.sec with st := .ownerDebug, max := if s.dev.sys.st = .darkHouse then 1 else l.toNat })) ∧
  (∀ s : State, s.dev.barOk = true → s.dev.sec.st = .ownerDebug → Gives .secDbgExit s
    { s.dev with sec := { s.dev.sec with st := .locked, max := 1, level := min s.dev.sec.level 1 } }) ∧
  (∀ s : State, s.dev.sec.st ≠ .ownerDebug → Gives .secDbgExit s s.dev) ∧
  (∀ (c : Instr) (s t : State), exec c s = .next t → s.dev.sec.st = .ownerDebug → t.dev.sec.st ≠ .ownerDebug → t.dev.sec.level ≤ 1)

/-- Firmware updates: append, commit to the slot that did not boot, cancel. FW_APPEND of a kind the buffer takes, 1 to 256
units, with at most 4,095 units staged after it, appends the first 4,096 bytes per unit of SEC_FW_WIN; a kind it does
not take ends with cause 1, too many units with cause 6, and the buffer stays. FW_COMMIT programs the image that the
buffer begins with into the slot of its kind that did not boot, when no check refuses it, and sets DONE with cause 0;
otherwise it sets ERR with the cause of the check that failed and no slot changes. The slot that booted never changes.
In DARK a Stage Manager image is refused with cause 1. FW_CANCEL empties the buffer. No other block changes. Rests on
R453, R452, R451, R476, R456. -/
def Obligations.FirmwareUpdatesFillBufferAndProgram : Prop :=
  (∀ (s : State) (k : Bool) (u : BitVec 9), s.dev.barOk = true → s.dev.sec.kindOk k = true → 1 ≤ u.toNat → u.toNat ≤ 256 →
    s.dev.sec.buffer.length / 4096 + u.toNat ≤ 4095 → Gives (.fwAppend k u) s
      { s.dev with sec := { s.dev.sec with fwKind := k, fwUnits := u, buffer := s.dev.sec.buffer ++ s.dev.sec.winBytes u.toNat, bufKind := k } }) ∧
  (∀ (s : State) (k : Bool) (u : BitVec 9), s.dev.barOk = true → 1 ≤ u.toNat → u.toNat ≤ 256 →
    s.dev.sec.kindOk k = false ∨ 4095 < s.dev.sec.buffer.length / 4096 + u.toNat → Gives (.fwAppend k u) s
      { s.dev with sec := { s.dev.sec with fwKind := k, fwUnits := u, fwErr := true, fwCause := if s.dev.sec.kindOk k then 6 else 1 } }) ∧
  (∀ (s : State) (k v : Bool), s.dev.barOk = true → GivesWith (.fwCommit k v) s fun d =>
    (s.dev.sec.fwRefusal k v = 0 → d.sec.fwDone = true ∧ d.sec.fwCause = 0 ∧
      (if k then (if s.dev.sec.smSlot then d.sec.smA else d.sec.smB) else if s.dev.sec.boSlot then d.sec.boA else d.sec.boB) = s.dev.sec.fwImage) ∧
    (s.dev.sec.fwRefusal k v ≠ 0 → d.sec.fwErr = true ∧ d.sec.fwCause = s.dev.sec.fwRefusal k v ∧ d.sec.smA = s.dev.sec.smA ∧ d.sec.smB = s.dev.sec.smB ∧
      d.sec.boA = s.dev.sec.boA ∧ d.sec.boB = s.dev.sec.boB) ∧
    (if s.dev.sec.smSlot then d.sec.smB = s.dev.sec.smB else d.sec.smA = s.dev.sec.smA) ∧
    (if s.dev.sec.boSlot then d.sec.boB = s.dev.sec.boB else d.sec.boA = s.dev.sec.boA) ∧
    d.sec.buffer = s.dev.sec.buffer ∧ { d with sec := s.dev.sec } = s.dev) ∧
  (∀ (x : Sec) (v : Bool), x.st = .dark → x.fwRefusal true v = 1) ∧
  (∀ s : State, s.dev.barOk = true → Gives .fwCancel s { s.dev with sec := { s.dev.sec with buffer := [] } })

/-- The DOE mailbox: identity, measurement, discovery and abort. With the host link up past BOOT. GET_IDENTITY answers
code 0x81 with the identity key and certificate, and GET_MEASURE with a nonce of 32 bytes answers code 0x82 with the
measurement block and its signature; both answer ERROR 4 when the protected part failed, and a nonce of another length
ERROR 1. DOE_DISCOVERY of type 0 answers an entry; another type or more than 65,536 bytes sets DOE Error without an
answer. DOE_ABORT discards the exchange. The measurement block is 256 bytes, begins with the word 0x4D454153 and
carries the nonce at byte 216. Nothing but the mailbox changes. Rests on R457, R458, R394, R456. -/
def Obligations.UnsignedDoeRequestsAnswer : Prop :=
  (∀ (s : State) (tag : Byte), s.dev.doeOk = true → s.dev.sec.protectedOk = true → Gives (.getIdentity tag) s
    { s.dev with host := { s.dev.host with doeResp := doeObject 0x81 tag (Config.identityKey ++ Config.certificate) },
                 out := s.dev.out ++ [.doe (doeObject 0x81 tag (Config.identityKey ++ Config.certificate))] }) ∧
  (∀ (s : State) (tag : Byte) (nonce : List Byte), s.dev.doeOk = true → s.dev.sec.protectedOk = false → nonce.length = 32 →
    ∀ c, c = .getIdentity tag ∨ c = .getMeasure tag nonce → Gives c s
    { s.dev with host := { s.dev.host with doeResp := doeObject 0xFF tag [4] }, out := s.dev.out ++ [.doe (doeObject 0xFF tag [4])] }) ∧
  (∀ (s : State) (tag : Byte) (nonce : List Byte), s.dev.doeOk = true → s.dev.sec.protectedOk = true → nonce.length = 32 →
    GivesWith (.getMeasure tag nonce) s fun d => ∃ b, b = s.dev.measureBlock nonce ∧ b.length = 256 ∧ b.take 4 = [0x53, 0x41, 0x45, 0x4D] ∧ slice b 216 32 = nonce ∧
      d.host.doeResp = doeObject 0x82 tag (b ++ Config.identitySign b) ∧ d.out = s.dev.out ++ [.doe d.host.doeResp] ∧
      { d with host := { d.host with doeResp := s.dev.host.doeResp }, out := s.dev.out } = s.dev) ∧
  (∀ (s : State) (tag : Byte) (nonce : List Byte), s.dev.doeOk = true → nonce.length ≠ 32 → Gives (.getMeasure tag nonce) s
    { s.dev with host := { s.dev.host with doeResp := doeObject 0xFF tag [1] }, out := s.dev.out ++ [.doe (doeObject 0xFF tag [1])] }) ∧
  (∀ (s : State) (i : Byte) (n : Nat), s.dev.doeOk = true → n ≤ 65536 → Gives (.doeDiscovery i 0 n) s
    { s.dev with host := { s.dev.host with doeResp := discoveryEntry i }, out := s.dev.out ++ [.doe (discoveryEntry i)] }) ∧
  (∀ (s : State) (i t : Byte) (n : Nat), s.dev.doeOk = true → t ≠ 0 ∨ 65536 < n → Gives (.doeDiscovery i t n) s
    { s.dev with host := { s.dev.host with doeErr := true } }) ∧
  (∀ s : State, s.dev.doeOk = true → Gives .doeAbort s { s.dev with host := { s.dev.host with doeResp := [], doeErr := false } })

/-- LOCK, OWNER_CLAIM, OWNER_TRANSFER, DEBUG_TOKEN and UNLOCK: what they check, and what they clear. With the mailbox
answering and the device not in DARK. Each request in a state that R462 does not allow answers ERROR 2 and changes
nothing else. In an allowed state, when the signature it needs does not verify it answers ERROR 3, when it is not
bound to this start-up ERROR 5, and nothing else changes; otherwise it answers DONE: LOCK gives LOCKED, UNLOCK gives
MANUFACTURE without owner, OWNER_CLAIM and OWNER_TRANSFER write the keys, a vendor token gives VENDOR_DEBUG with MAX
D3; and after each of them every byte store is empty and no script is loaded. A re-lease also empties the record
stack, the cells and both manifests, sets the weight epoch to 0 and MESH_ID to unassigned. Verification is an opaque
function (log 10), so the outcome is stated for each of its values. Rests on R457, R459, R461, R462, R464. -/
def Obligations.SignedRequestsChangeOwnership : Prop :=
  ∀ s : State, s.dev.doeOk = true → s.dev.sec.st ≠ .dark →
  let fails (c : Instr) (tag : Byte) (cause : Nat) : Prop := Gives c s (s.dev.doeError tag cause)
  let wiped (d : Dev) : Prop := d.mem.hbm = [] ∧ d.mem.wings = [] ∧ d.mem.localBuf = [] ∧ d.mem.prompter = [] ∧ d.mem.apron = [] ∧ d.scr.script = none
  let leased (d : Dev) : Prop := wiped d ∧ d.err.stack = [] ∧ d.tile.cells = [] ∧ d.wts.cur = none ∧ d.wts.next = none ∧ d.wts.epoch = 0 ∧
    d.mesh.herd = 0xFF ∧ d.mesh.x = 0 ∧ d.mesh.y = 0
  let ok (c : Instr) (a : DoeAuth) (signed : Bool) (p : Dev → Prop) : Prop :=
    (signed = false → fails c a.tag 3) ∧ (signed = true → s.dev.bound a = false → fails c a.tag 5) ∧
    (signed = true → s.dev.bound a = true → GivesWith c s fun d => d.host.doeResp = doeObject 0x83 a.tag [] ∧ p d)
  ∀ a : DoeAuth,
    (if s.dev.sec.st = .manufacture ∧ s.dev.sys.st = .ready then
       ok (.lock a) a (Config.mldsaVerify Config.vendorKey (DoeAuth.message a 0x03 []) a.sig) fun d => leased d ∧
         d.sec = { s.dev.sec with st := .locked, max := 1, level := min s.dev.sec.level 1, persistMan := false }
     else fails (.lock a) a.tag 2) ∧
    (∀ k : OwnerKeys, if s.dev.sec.st = .locked ∧ s.dev.sec.owner = none ∧ s.dev.sys.st = .ready then
       ok (.ownerClaim a k) a (Config.mldsaVerify k.debug (DoeAuth.message a 0x04 (k.script ++ k.debug)) a.sig) fun d => leased d ∧
         d.sec = { s.dev.sec with owner := some k }
     else fails (.ownerClaim a k) a.tag 2) ∧
    (∀ k : Option OwnerKeys, (∀ o, s.dev.sec.owner = some o → s.dev.sec.st = .locked ∨ s.dev.sec.st = .ownerDebug → s.dev.sys.st = .ready →
       ok (.ownerTransfer a k) a (Config.mldsaVerify o.debug (DoeAuth.message a 0x05 (match k with | some k => k.script ++ k.debug | none => [])) a.sig)
         fun d => leased d ∧ d.sec = { s.dev.sec with st := .locked, max := 1, level := min s.dev.sec.level 1, owner := k }) ∧
       (s.dev.sec.owner = none ∨ s.dev.sys.st ≠ .ready ∨ (s.dev.sec.st ≠ .locked ∧ s.dev.sec.st ≠ .ownerDebug) → fails (.ownerTransfer a k) a.tag 2)) ∧
    (∀ l : BitVec 2, (∀ o, s.dev.sec.owner = some o → s.dev.sec.st = .locked ∨ s.dev.sec.st = .ownerDebug →
         s.dev.sys.st = .ready ∨ s.dev.sys.st = .struck →
       ok (.debugToken a true l) a (Config.mldsaVerify o.debug (DoeAuth.message a 0x06 [BitVec.ofNat 8 (1 + 2 * l.toNat)]) a.sig &&
           Config.mldsaVerify Config.vendorKey (DoeAuth.message a 0x06 [BitVec.ofNat 8 (1 + 2 * l.toNat)]) a.sig2)
         fun d => wiped d ∧ d.sec = { s.dev.sec with st := .vendorDebug, max := 3, level := min s.dev.sec.level 1 } ∧ d.tile.cells = s.dev.tile.cells) ∧
       (s.dev.sec.st ≠ .locked → fails (.debugToken a false l) a.tag 2) ∧
       (s.dev.sec.owner = none → fails (.debugToken a true l) a.tag 2 ∧ fails (.debugToken a false l) a.tag 2)) ∧
    (if s.dev.sec.st = .vendorDebug ∧ (s.dev.sys.st = .ready ∨ s.dev.sys.st = .struck) then
       ok (.unlock a) a (Config.mldsaVerify Config.vendorKey (DoeAuth.message a 0x07 []) a.sig) fun d => leased d ∧
         d.sec = { s.dev.sec with st := .manufacture, max := 3, persistMan := true, owner := none }
     else fails (.unlock a) a.tag 2)

/-- JTAG: what each instruction returns, and what level it needs. While VDD_AON is present. BYPASS, IDCODE, SAMPLE/PRELOAD
and AON_READ run in every state and change the JTAG registers alone. EXTEST runs in MANUFACTURE and VENDOR_DEBUG with
SYS_RST_N asserted. FREEZE needs D2, STOP and SCAN D3 in ACTIVE or PARKED, SCAN with the core clocks stopped;
KEPT_READ needs BLACKOUT entered at D1 or above and returns the next kept word. Each one refused acts as BYPASS and
adds 1 to DBG_DENIED. STOP stops the core clocks; FREEZE engages the JTAG hold, which holds a device in READY,
PLAYING, CURTAIN or STRUCK still, or releases it with the command and hazard holds. What a boundary or a scan chain
captures is a free value (log 61). Rests on R466, R467, R475, R468. -/
def Obligations.JtagInstructionsObeyTheMatrix : Prop :=
  ∀ s : State, s.dev.sys.st ≠ .off →
  let jt (i : JtagInstr) (bits : List Bool) : Dev := { s.dev with dbg := { s.dev.dbg with instr := i }, out := s.dev.out ++ [.tdo bits] }
  let refused (c : Instr) : Prop := Gives c s { s.dev with
    dbg := { s.dev.dbg with instr := .bypass, denied := bump s.dev.dbg.denied, deniedFlag := true }, out := s.dev.out ++ [.tdo [false]] }
  Gives .jtagBypass s (jt .bypass [false]) ∧
  Gives .jtagIdcode s (jt .idcode (bitsOf 32 idcode)) ∧
  Gives .jtagAonRead s (jt .aonRead (bitsOf 32 s.dev.aonWord)) ∧
  (∀ v, GivesWith (.jtagSamplePreload v) s fun d => d.dbg = { s.dev.dbg with instr := .samplePreload, boundary := v } ∧
    d.out = s.dev.out ++ [.tdo (Config.boundaryCapture s.dev.freeCtr)] ∧ { d with dbg := s.dev.dbg, out := s.dev.out, freeCtr := s.dev.freeCtr } = s.dev) ∧
  (if (s.dev.sec.st = .manufacture ∨ s.dev.sec.st = .vendorDebug) ∧ s.dev.sys.sysRst = true then
     GivesWith .jtagExtest s fun d => d.dbg = { s.dev.dbg with instr := .extest } ∧
       d.out = s.dev.out ++ [.tdo (Config.boundaryCapture s.dev.freeCtr)] ∧ { d with dbg := s.dev.dbg, out := s.dev.out, freeCtr := s.dev.freeCtr } = s.dev
   else refused .jtagExtest) ∧
  (∀ (e : Bool) (t : Nat), s.dev.allows 2 = false → refused (.jtagFreeze e t)) ∧
  (∀ t : Nat, s.dev.allows 2 = true → GivesWith (.jtagFreeze true t) s fun d =>
    d.dbg.instr = .freeze ∧ d.dbg.holdJtag = true ∧ d.dbg.held = true ∧ d.dbg.frozen = (s.dev.dbg.frozen || s.dev.stoppable) ∧
    (s.dev.sys.st = .playing ∨ s.dev.sys.st = .curtain → d.sys.st = .frozen ∧ d.sys.frozenFrom = s.dev.sys.st) ∧
    (s.dev.sys.st ≠ .playing → s.dev.sys.st ≠ .curtain → d.sys.st = s.dev.sys.st) ∧ d.mem = s.dev.mem ∧ d.tile = s.dev.tile) ∧
  (∀ t : Nat, s.dev.allows 2 = true → GivesWith (.jtagFreeze false t) s fun d =>
    d.dbg.holdJtag = false ∧ d.dbg.holdCmd = false ∧ d.dbg.holdHazard = false ∧ d.dbg.holdPin = s.dev.dbg.holdPin ∧ d.mem = s.dev.mem) ∧
  (if s.dev.inReset = false ∧ s.dev.sys.st = .blackout ∧ 1 ≤ s.dev.dbg.keptLevel then
     GivesWith .jtagKeptRead s fun d => d.dbg = { s.dev.dbg with instr := .keptRead, keptPos := s.dev.dbg.keptPos + 1 } ∧
       (∀ w, s.dev.err.keptWords[s.dev.dbg.keptPos]? = some w → d.out = s.dev.out ++ [.tdo (bitsOf 32 w)]) ∧
       { d with dbg := s.dev.dbg, out := s.dev.out, freeCtr := s.dev.freeCtr } = s.dev
   else refused .jtagKeptRead) ∧
  (∀ (e : Bool) (t : Nat), s.dev.allows 3 = false → refused (.jtagStop e t)) ∧
  (∀ t : Nat, s.dev.allows 3 = true → GivesWith (.jtagStop true t) s fun d => d.sys.coreStopped = true ∧ d.dbg.holdJtag = true ∧ d.mem = s.dev.mem) ∧
  (∀ t : Nat, s.dev.allows 3 = true → Gives (.jtagStop false t) s (jt .stop [false])) ∧
  (∀ bits, s.dev.scanOk = false → refused (.jtagScan bits)) ∧
  (∀ bits, s.dev.scanOk = true → GivesWith (.jtagScan bits) s fun d => d.dbg = { s.dev.dbg with instr := .scan, scanReg := bits } ∧
    (∃ o, d.out = s.dev.out ++ [.tdo o] ∧ o.length = bits.length) ∧ { d with dbg := s.dev.dbg, out := s.dev.out, freeCtr := s.dev.freeCtr } = s.dev) ∧
  (s.dev.scanOk = true → s.dev.sys.coreStopped = true ∧ (s.dev.sys.st = .blackout → 3 ≤ s.dev.dbg.keptLevel) ∧ (s.dev.sys.st ≠ .blackout → 3 ≤ s.dev.sec.level))

/-- DBG_ACCESS: registers, device memory and SRAM by level, and that no debug access writes memory. While VDD_AON is
present, every DBG_ACCESS completes, returns its 77-bit register, and changes no byte store, script, arrays or
sessions unless it is a register write at D3. A word of an SRAM store, and a word of device memory outside
uncorrectable codewords and the regions whose layout is open, returns its bytes with status 0 when the level reaches
D2 (Prompter store, COMMON wings banks, script image, weight staging) or D3 (the rest), in ACTIVE or PARKED, while no
frames run; otherwise it returns 0 with status 1 and DBG_DENIED rises. Writes to memory are denied. Rests on R466,
R467, R475, R477. -/
def Obligations.DebugAccessReadsWhatItsLevelAllows : Prop :=
  ∀ (s : State) (r : DbgReq), s.dev.sys.st ≠ .off →
  let back (data status : Nat) : Output :=
    .tdo (bitsOf 77 (r.addr.toNat + 2 ^ 38 * r.space.toNat + 2 ^ 42 * data + 2 ^ 74 * b2n r.write + 2 ^ 75 * status))
  let denied : Prop := Gives (.jtagDbgAccess r) s { s.dev with
    dbg := { s.dev.dbg with instr := .dbgAccess, denied := bump s.dev.dbg.denied, deniedFlag := true }, out := s.dev.out ++ [back 0 1] }
  (r.write = false ∨ r.space ≠ 0 ∨ s.dev.allows 3 = false → GivesWith (.jtagDbgAccess r) s fun d =>
    d.mem = s.dev.mem ∧ d.scr = s.dev.scr ∧ d.tile = s.dev.tile ∧ d.call = s.dev.call ∧ d.kv = s.dev.kv ∧ d.frm = s.dev.frm ∧ d.sec = s.dev.sec ∧ d.err = s.dev.err) ∧
  (2 < r.space.toNat → denied) ∧
  (r.write = true → r.space ≠ 0 → denied) ∧
  (r.space = 0 → r.write = true → s.dev.allows 3 = false → denied) ∧
  (r.space = 0 → r.write = true → s.dev.allows 3 = true → Gives (.jtagDbgAccess r) s
    (((s.dev.regWrite (r.addr.toNat % 2 ^ 25) r.data).select .dbgAccess).emit (back r.data.toNat 0))) ∧
  (r.space = 0 → r.write = false → s.dev.allows (readLevel (r.addr.toNat % 2 ^ 25)) = false → denied) ∧
  (r.space = 0 → r.write = false → s.dev.allows (readLevel (r.addr.toNat % 2 ^ 25)) = true → Gives (.jtagDbgAccess r) s
    (((s.dev.pathRead 1 (r.addr.toNat % 2 ^ 25)).1.select .dbgAccess).emit (back (s.dev.pathRead 1 (r.addr.toNat % 2 ^ 25)).2.toNat 0))) ∧
  (r.space = 1 → r.write = false → s.dev.allows (if nonTenant r.addr.toNat then 2 else 3) = true → s.dev.memQuiet = true → r.addr.toNat + 4 ≤ hbmEnd →
    regionOf r.addr.toNat ≠ .firmware → regionOf r.addr.toNat ≠ .census → s.dev.mem.isBad r.addr.toNat 4 = false →
    GivesWith (.jtagDbgAccess r) s fun d => d.out = s.dev.out ++ [back (leNat (s.dev.hbmRd r.addr.toNat 4)) 0] ∧ d.dbg = { s.dev.dbg with instr := .dbgAccess }) ∧
  (r.space = 1 → s.dev.memQuiet = false ∨ s.dev.allows (if nonTenant r.addr.toNat then 2 else 3) = false → denied) ∧
  (∀ l w, r.space = 2 → r.write = false → s.dev.sramWord (r.addr.toNat / 2 ^ 35) (r.addr.toNat / 2 ^ 22 % 2 ^ 13) (r.addr.toNat % 2 ^ 22) = some (l, w) →
    if s.dev.allows l = true ∧ s.dev.memQuiet = true then Gives (.jtagDbgAccess r) s
      { s.dev with dbg := { s.dev.dbg with instr := .dbgAccess }, out := s.dev.out ++ [back w 0] } else denied)

/-- The I3C target under the debug matrix, and management Ethernet: links, telemetry, answers, and when anything is sent.
With VDD_AON present and SYS_RST_N released. ENTDAA gives a target without an address its dynamic address after it has
sent its provisioned ID, the first 48 bits of the identity digest, and one that has one is not changed (the model
choice, NOTES). An offset write sets the offset of an addressed target. A private read returns the AON_READ word at
offset 0xFFFFFFF0 at every level; at another offset it returns the register when the level that its JTAG read needs is
met, and otherwise returns 0 and counts in DBG_DENIED. A target without an address does nothing. ETH_LINK_CHANGE of an
enabled port takes speed 0 to 2, the reserved code 3 changes nothing, and a port that is not enabled stays down.
TELEMETRY_SEND sends one datagram exactly when the port is enabled and up, a destination is set, the Stage Manager
runs, the debug level is D1 or above and the state serves it; its contents are a free value (log 62). A received frame
is answered exactly under the same conditions and only when it asks for it; every answer goes back to the sender
address, and frames beyond 9,216 bytes are dropped. Nothing but the port changes. Rests on R497, R466, R475, R378,
R379, R380. -/
def Obligations.I3cReadsAndEthernetSends : Prop :=
  (
  ∀ s : State, s.dev.i3cOn = true →
  (∀ a : BitVec 7, Gives (.i3cEntdaa a) s (match s.dev.dbg.i3cAddr with
    | none => { s.dev with dbg := { s.dev.dbg with i3cAddr := some a }, out := s.dev.out ++ [.i3cId (leBytes 6 identityDigest.toNat)] } | some _ => s.dev)) ∧
  (∀ o : Word, Gives (.i3cOffsetWrite o) s (match s.dev.dbg.i3cAddr with
    | some _ => { s.dev with dbg := { s.dev.dbg with i3cOff := o } } | none => s.dev)) ∧
  (s.dev.dbg.i3cAddr = none → Gives .i3cPrivateRead s s.dev) ∧
  (s.dev.dbg.i3cAddr.isSome = true →
    (s.dev.dbg.i3cOff = 0xFFFFFFF0 → Gives .i3cPrivateRead s { s.dev with out := s.dev.out ++ [.i3c (BitVec.ofNat 32 s.dev.aonWord)] }) ∧
    (s.dev.dbg.i3cOff ≠ 0xFFFFFFF0 → s.dev.allows (readLevel (s.dev.dbg.i3cOff.toNat % 2 ^ 25)) = false → Gives .i3cPrivateRead s
      { s.dev with dbg := { s.dev.dbg with denied := bump s.dev.dbg.denied, deniedFlag := true }, out := s.dev.out ++ [.i3c 0] }) ∧
    (s.dev.dbg.i3cOff.toNat < 2 ^ 25 → s.dev.allows (readLevel s.dev.dbg.i3cOff.toNat) = true → Gives .i3cPrivateRead s
      ((s.dev.pathRead 2 s.dev.dbg.i3cOff.toNat).1.emit (.i3c (s.dev.pathRead 2 s.dev.dbg.i3cOff.toNat).2))))
  ) ∧ (
  (∀ (s : State) (v : BitVec 2), s.dev.coreRuns = true → v ≠ 3 → s.dev.mesh.ethEn = true → Gives (.ethLinkChange v) s
    { s.dev with mesh := { s.dev.mesh with ethSpeed := v } }) ∧
  (∀ s : State, Gives (.ethLinkChange 3) s s.dev) ∧
  (∀ (s : State) (v : BitVec 2), v ≠ 0 → s.dev.mesh.ethEn = false → Gives (.ethLinkChange v) s s.dev) ∧
  (∀ s : State, (s.dev.ethMaySend = true → Gives .telemetrySend s
      { s.dev with freeCtr := s.dev.freeCtr + 1, out := s.dev.out ++ [.eth (Config.telemetry s.dev.freeCtr)] }) ∧
    (s.dev.ethMaySend = false → Gives .telemetrySend s s.dev)) ∧
  (∀ s : State, s.dev.ethMaySend = true → s.dev.mesh.ethEn = true ∧ s.dev.mesh.ethSpeed ≠ 0 ∧ s.dev.sec.smRun = true ∧ 1 ≤ s.dev.sec.level ∧
    s.dev.sys.st ≠ .boot ∧ s.dev.sys.st ≠ .darkHouse ∧ s.dev.sys.st ≠ .tripped ∧ s.dev.sys.st ≠ .blackout ∧ s.dev.inReset = false) ∧
  (∀ (s : State) (f : List Byte), Gives (.ethFrameReceive f) s (match icmpAnswer s.dev.mesh.ethVlan.toNat f with
    | some r => if s.dev.ethMaySend then { s.dev with out := s.dev.out ++ [.eth r] } else s.dev
    | none => s.dev)) ∧
  (∀ (v : Nat) (f r : List Byte), icmpAnswer v f = some r → r.take 6 = slice f 6 6 ∧ slice r 6 6 = macOf ∧ f.length ≤ 9216)
  )

/-- Tile cues of an empty lane, and all cues while none is performed, change nothing. EVAL, REQUANT, OUT, HOP, RELAY and
MOVE whose lane is empty leave the device as it is, and so do they and the flock windows, PLACE and HBM_WR while cues
are not performed: no frame open, a stall, or a state that is neither PLAYING nor CURTAIN (HBM_WR: nor STRUCK). One
whose lane is emptied by what came due before its slot does nothing more. A performed one on a tile whose Prompter
store waits to be restored has one effect: its step is discarded. Reaching a slot with no low row of an earlier slot
still to be read lands the contributions of earlier slots and does nothing else; and naming the rows and tiles a step
uses, of which none was lost in this frame, notes the step with them and does nothing else. Rests on R335, R39, R49,
R74, R114, R204, R345, R346, R347, R348, R349. -/
def Obligations.TileCuesWaitForAFilledLane : Prop :=
  (∀ (s : State) (n : BitVec 12), s.dev.lane n.toNat = none →
    (∀ c : EvalCue, c.lane = n → Gives (.eval c) s s.dev) ∧ (∀ c : RequantCue, c.wf = true → c.lane = n → Gives (.requant c) s s.dev) ∧
    (∀ c : OutCue, c.wf = true → c.lane = n → Gives (.out c) s s.dev) ∧ (∀ c : HopCue, c.lane = n → Gives (.hop c) s s.dev) ∧
    (∀ c : RelayCue, c.wf = true → c.lane = n → Gives (.relay c) s s.dev) ∧ (∀ c : MoveCue, c.wf = true → c.lane = n → Gives (.move c) s s.dev)) ∧
  (∀ s : State, s.dev.cues = false →
    (∀ c : EvalCue, Gives (.eval c) s s.dev) ∧ (∀ c : RequantCue, c.wf = true → Gives (.requant c) s s.dev) ∧
    (∀ c : OutCue, c.wf = true → Gives (.out c) s s.dev) ∧ (∀ c : HopCue, Gives (.hop c) s s.dev) ∧
    (∀ c : RelayCue, c.wf = true → Gives (.relay c) s s.dev) ∧ (∀ c : MoveCue, c.wf = true → Gives (.move c) s s.dev) ∧
    (∀ c : WinCue, c.wf = true → Gives (.repeatWin c) s s.dev ∧ Gives (.rehearseWin c) s s.dev) ∧
    (∀ c : PlaceCue, c.wf = true → Gives (.place c) s s.dev)) ∧
  (∀ (s : State) (tok : Tok), s.dev.cues = true →
    let lost (c : Instr) (tile lane slot : Nat) (keys : List Nat) : Prop := s.dev.lane lane = some tok →
      let d := (s.dev.advance slot).useKeys keys tok.step
      (d.cues = false ∨ d.lane lane = none → Gives c s d) ∧
      (d.cues = true → d.lane lane ≠ none → tile ∈ d.tile.prBad → Gives c s (d.discardTok tok.step 1))
    (∀ c : EvalCue, lost (.eval c) c.tile.toNat c.lane.toNat c.slot.toNat [2 ^ 19 + c.tile.toNat]) ∧
    (∀ c : RequantCue, c.wf = true → lost (.requant c) c.tile.toNat c.lane.toNat c.slot.toNat [2 ^ 19 + c.tile.toNat]) ∧
    (∀ c : OutCue, c.wf = true → lost (.out c) c.tile.toNat c.lane.toNat c.slot.toNat [2 ^ 19 + c.tile.toNat]) ∧
    (∀ c : MoveCue, c.wf = true → lost (.move c) c.tile.toNat c.lane.toNat c.slot.toNat [2 ^ 19 + c.tile.toNat]) ∧
    (∀ c : HopCue, let dst := c.tile.toNat / 128 * 128 + c.dst.toNat
      ∀ t, t = c.tile.toNat ∨ t = dst → lost (.hop c) t c.lane.toNat c.slot.toNat [2 ^ 19 + c.tile.toNat, 2 ^ 19 + dst]) ∧
    (∀ c : RelayCue, c.wf = true → ∀ t, t = c.tile.toNat ∨ t = c.dst.toNat →
      lost (.relay c) t c.lane.toNat c.slot.toNat [2 ^ 19 + c.tile.toNat, 2 ^ 19 + c.dst.toNat])) ∧
  (∀ s : State, s.dev.cues = true → s.dev.frm.isOpen = true ∧ s.dev.frm.stall = none ∧ (s.dev.sys.st = .playing ∨ s.dev.sys.st = .curtain)) ∧
  (∀ (s : State) (c : HbmCue), c.wf = true → hbmInside c = true → s.dev.linkCues = false → Gives (.hbmWr c) s s.dev) ∧
  (∀ (d : Dev) (slot : Nat), (∀ c ∈ d.tile.late, slot ≤ c.slot.toNat) → d.advance slot = { d with tile := d.tile.land slot }) ∧
  (∀ (d : Dev) (keys : List Nat) (step : Nat × Nat × Nat), (∀ k ∈ keys, k ∉ d.tile.lost) → let r := d.useKeys keys step
    { r with tile := { r.tile with users := d.tile.users } } = d ∧ (∀ k ∈ keys, (k, step) ∈ r.tile.users) ∧ (∀ u ∈ d.tile.users, u ∈ r.tile.users))

/-- EVAL: when it is performed, what an evaluation contributes, and what it leaves unchanged. A performed EVAL of a filled
lane on a tile that no other evaluation drives in its slots drives the tile there: an AN4 evaluation is done, an AW8
one waits for the slot in which its low row is read and is done when a later slot is reached. On a tile driven already
nothing more happens (the model's choice, log 98). What an evaluation does, when the slot has a principal that is not
suspended and the tags of its rows are as the cue and the slot ask: if every element is zero, nothing is converted,
nothing is contributed, no drift tracking and no free value is used. Otherwise the pending contributions gain, for
each driven phase in turn, 512 values of R75 from the code of R72 (rounded exact column sum plus a free analogue
error, within ten bits) at the end of the phase slot, then the Prompter contribution in the last; the exponent is that
of the row tag. Either way no byte or tag of any memory changes, and the accumulators are untouched. Rows are read as
they stood before their own slot. Rests on R17, R346, R72, R74, R75, R112, R68, R66, R345. -/
def Obligations.EvalAddsItsContribution : Prop :=
  (∀ (s : State) (c : EvalCue) (tok : Tok), s.dev.cues = true → s.dev.lane c.lane.toNat = some tok →
    let tile := c.tile.toNat
    let slot := c.slot.toNat
    let d₁ := (s.dev.advance slot).useKeys [2 ^ 19 + tile] tok.step
    d₁.cues = true → d₁.lane c.lane.toNat ≠ none → tile ∉ d₁.tile.prBad →
    ((∃ i < evalSlots c, (tile, slot + i) ∈ d₁.tile.driven) → Gives (.eval c) s d₁) ∧
    ((∀ i < evalSlots c, (tile, slot + i) ∉ d₁.tile.driven) →
      (c.fmt = .an4 → Gives (.eval c) s ((d₁.drives tile slot 1).evalTok c tok)) ∧
      (c.fmt = .aw8 → Gives (.eval c) s { d₁ with tile := { (d₁.drives tile slot 2).tile with late := d₁.tile.late ++ [c] } }))) ∧
  (∀ (d : Dev) (c : EvalCue) (tok : Tok) (slot : Nat), d.tile.late = [c] → c.slot.toNat < slot → d.lane c.lane.toNat = some tok →
    d.advance slot = ({ d with tile := { d.tile with late := [] } }.evalTok c tok).modTile fun t => t.land slot) ∧
  (∀ (d : Dev) (c : EvalCue) (tok : Tok) (a : Nat), let tile := c.tile.toNat
    let pslot := c.pslot.toNat
    let slot := c.slot.toNat
    d.tile.holder tile pslot = some a → (d.arr a).suspended = false →
    (∀ r ∈ evalRows c, tagFmt (d.rowTag tile r.1 r.2.2) = r.2.1 ∧ tagOset (d.rowTag tile r.1 r.2.2) = (d.slotDesc tile pslot).oset) →
    let sd := d.slotDesc tile pslot
    let x := rowCodes c.fmt (d.rowBytes (32 * tile + c.row.toNat) slot)
      (if c.fmt = .aw8 then d.rowBytes (32 * tile + c.rowLo.toNat) (slot + 1) else []) (d.outliers tile sd.oset)
    let range := c.range.toNat - qWiden (d.qEntry c.qpoint.toNat)
    let e := tagExp (d.rowTag tile c.row.toNat slot)
    let r := d.evalTok c tok
    r.mem = d.mem ∧ r.tile.acc = d.tile.acc ∧ r.tile.served = (16 * tile + pslot, c.lane.toNat) :: d.tile.served ∧
    r.tile.cells = d.tile.cells ∧ r.sec = d.sec ∧
    ((∀ v ∈ x.1, v = 0) → r.tile.pend = d.tile.pend ∧ r.freeCtr = d.freeCtr ∧ r.tile.arrs = d.tile.arrs) ∧
    ((∃ v ∈ x.1, v ≠ 0) → r.freeCtr = d.freeCtr + x.2.length ∧ ∃ ps : List Phase, ps.length = x.2.length ∧
      (∀ i codes p, x.2[i]? = some codes → ps[i]? = some p → p.codes = codes ∧ p.gains = (List.range 16).map (fun k => ((d.arr a).grp k).gain) ∧ p.conv = (List.range 512).map fun j =>
        convCode ((colSums (d.tile.cellsOf a) codes).getD j 0) range (Config.colError (d.freeCtr + i) j)) ∧
      r.tile.pend = ((ps.zipIdx.map fun p => (⟨slot + p.2 + 1, 0, tile, c.chain.toNat, e,
          phaseVals p.1 range (phaseMul sd.kind c.fmt p.2), []⟩ : Contrib)) ++
        (match d.prompter tile pslot x.1 with
          | some v => [⟨slot + ps.length, 1, tile, c.chain.toNat, e, v, []⟩] | none => [])).foldl insContrib d.tile.pend))

/-- EVAL of a wrong row or a suspended slot is a contained error without a contribution. An evaluation that is done while
cues are performed, when the tag of a row it reads has another format or outlier set than the cue and the slot ask, or
the slot has no principal or a suspended one: the error is recorded and the step is discarded, its lanes are empty,
nothing is contributed, no free value is used and no memory changes. A performed AN4 EVAL of a filled lane on a tile
that is cued and free completes so. Rests on R346, R192, R104, R300. -/
def Obligations.EvalRefusesWrongRows : Prop :=
  ∀ (c : EvalCue) (tok : Tok), let tile := c.tile.toNat
  let pslot := c.pslot.toNat
  let wrong (d : Dev) : Prop := d.tile.holder tile pslot = none ∨ (∃ a, d.tile.holder tile pslot = some a ∧ (d.arr a).suspended = true) ∨
    (∃ r ∈ evalRows c, tagFmt (d.rowTag tile r.1 r.2.2) ≠ r.2.1 ∨ tagOset (d.rowTag tile r.1 r.2.2) ≠ (d.slotDesc tile pslot).oset)
  let out (d r : Dev) : Prop := r.mem = d.mem ∧ r.tile.acc = d.tile.acc ∧ r.tile.pend = d.tile.pend ∧ r.frm.lanesOf tok.ex tok.ey tok.session = [] ∧
    r.freeCtr = d.freeCtr ∧ r.sec = d.sec ∧ r.err.nextSeq = d.err.nextSeq + 1
  (∀ d : Dev, d.cues = true → wrong d → out d (d.evalTok c tok)) ∧
  (∀ s : State, c.fmt = .an4 → s.dev.cues = true → s.dev.lane c.lane.toNat = some tok →
    let d₁ := (s.dev.advance c.slot.toNat).useKeys [2 ^ 19 + tile] tok.step
    d₁.cues = true → d₁.lane c.lane.toNat ≠ none → tile ∉ d₁.tile.prBad → (tile, c.slot.toNat) ∉ d₁.tile.driven → wrong d₁ → GivesWith (.eval c) s (out d₁))

/-- Accumulator additions saturate and their flags stay set; converter codes, requantised codes and stochastic rounding
stay in range. For every set (or none) and every contribution: after the addition every accumulator is within ±(2^31 −
1); a column whose aligned sum lies outside is saturated and its overflow flag is set; every flag that the set or the
contribution carried stays set; the exponent is the larger of the two, or that of the first contribution. Over all
contributions that land before a slot, a flag once set in a tile stays set. For every exact column sum, range code and
analogue error, the converter code lies in −512 to 511, and it is counted as clipped exactly at the two ends. For
every block, exponent, outlier set and draw, each quantised element lies within ±15 (AN4) or ±255 (AW8), within ±127
or ±32,767 when it is an outlier channel, and an element that did not fit is marked. Stochastic rounding with any
16-bit draw gives one of the two neighbours of a value, the value itself when it is an integer, and the upper one
exactly when the fraction in 65,536ths, rounded down, plus the draw reaches 65,536. Each range code halves the full
scale of the one below it. Rests on R77, R72, R73, R116, R117, R134, R103. -/
def Obligations.AdditionsAndCodesStayInRange : Prop :=
  (
  (∀ (o : Option AccSet) (c : Contrib), let r := AccSet.add o c
    r.vals.length = 512 ∧ (∀ v ∈ r.vals, -(2 ^ 31 - 1) ≤ v ∧ v ≤ 2 ^ 31 - 1) ∧
    (∀ j, (∃ a, o = some a ∧ j ∈ a.ovf) ∨ j ∈ c.ovf → j ∈ r.ovf) ∧
    (∀ a, o = some a → r.exp = max a.exp c.exp ∧ r.chain = a.chain ∧
      ∀ j < 512, let y := shrRne (a.vals.getD j 0) (r.exp - a.exp).toNat + shrRne (c.vals.getD j 0) (r.exp - c.exp).toNat
        (y < -(2 ^ 31 - 1) → r.vals.getD j 0 = -(2 ^ 31 - 1) ∧ j ∈ r.ovf) ∧ (2 ^ 31 - 1 < y → r.vals.getD j 0 = 2 ^ 31 - 1 ∧ j ∈ r.ovf) ∧
        (-(2 ^ 31 - 1) ≤ y → y ≤ 2 ^ 31 - 1 → r.vals.getD j 0 = y)) ∧
    (o = none → r.exp = c.exp ∧ r.chain = c.chain ∧ ∀ j < 512, -(2 ^ 31 - 1) ≤ c.vals.getD j 0 → c.vals.getD j 0 ≤ 2 ^ 31 - 1 →
      r.vals.getD j 0 = c.vals.getD j 0)) ∧
  (∀ (t : Tile) (slot tile j : Nat) (a : AccSet), sget t.acc tile = some a → j ∈ a.ovf →
    ∃ b, sget (t.land slot).acc tile = some b ∧ j ∈ b.ovf)
  ) ∧ (
  (∀ (y : Int) (r : Nat) (e : Int), -512 ≤ convCode y r e ∧ convCode y r e ≤ 511 ∧ (isClip (convCode y r e) = true ↔
    rne ((y : Rat) * 512 / rangeFs r) + e ≤ -512 ∨ 511 ≤ rne ((y : Rat) * 512 / rangeFs r) + e)) ∧
  (∀ (es : List FpVal) (f : ArrFmt) (e : Int) (ch : List Nat) (g : Option (Nat → Nat)), (quantise es f e ch g).length = es.length ∧
    ∀ (j : Nat) (p : Int × Bool), (quantise es f e ch g)[j]? = some p →
    let lim : Int := (match f with | .an4 => if j ∈ ch then 127 else 15 | .aw8 => if j ∈ ch then 32767 else 255)
    p.1 ≤ lim ∧ -lim ≤ p.1 ∧ (p.2 = true → p.1 = lim ∨ p.1 = -lim)) ∧
  (∀ (q : Rat) (r : Nat), r < 65536 → (stochRound q r = q.floor ∨ stochRound q r = q.floor + 1) ∧
    (∀ z : Int, stochRound z r = z) ∧ (stochRound q r = q.floor + 1 ↔ 65536 ≤ ((q - q.floor) * 65536).floor + r)) ∧
  (∀ r : Nat, rangeFs (r + 1) * 2 = rangeFs r)
  )

/-- REQUANT: the rows, tag and block it writes, and the row of a NaN. For a performed REQUANT of a filled lane on a tile
that is cued, with the hazard detector off; what earlier slots started has landed and the step is noted with the tile
and the rows it reads. When its source is valid (row tags of its format, or wings bytes that nothing outstanding
covers and the crossbar allows): without a NaN in the source, the destination row (and low row for AW8) takes the
codes of R117 with a tag of the vector exponent of R116, the format and the outlier set; the block of the row is
remembered with its counts; precision counters count it; and nothing else changes but what is kept of the rows as they
were. With a NaN, zeros are written, the error is recorded and the step discarded (the exponent of their tag is the
model's choice, log 99, and is not stated). A row with the tag of another format is a contained error that writes
nothing, and a wings source that something outstanding covers stalls the device. Every other row, byte and tag stays.
Rests on R347, R116, R117, R118, R191, R192, R343. -/
def Obligations.RequantWritesItsRows : Prop :=
  ∀ (s : State) (c : RequantCue) (tok : Tok), let tile := c.tile.toNat
  let slot := c.slot.toNat
  c.wf = true → s.dev.cues = true → s.dev.lane c.lane.toNat = some tok →
  let d₁ := (s.dev.advance slot).useKeys [2 ^ 19 + tile] tok.step
  d₁.cues = true → d₁.lane c.lane.toNat ≠ none → tile ∉ d₁.tile.prBad → d₁.hazActive = false →
  let l := d₁.vecLoc c.srcKind c.src.toNat tile c.lane.toNat tok.tenant
  let n := vecBytes c.srcFmt
  let keys := (List.range (n / 512)).map (l.addr + ·)
  let d₂ := if l.apron then d₁.useKeys keys tok.step else d₁
  let es := vecElems c.srcFmt (if l.apron then keys.flatMap fun k => d₁.rowBytes k slot else rdN d₁.mem.wings l.addr n)
  let ch := d₁.outliers tile c.oset.toNat
  let base := qBase (d₁.qEntry c.qpoint.toNat)
  let e := vecExp (maxMag es ch) c.fmt base
  let codes := quantise es c.fmt e ch (if c.stoch then some (d₁.reqDraw tok 1 c.qpoint.toNat) else none)
  let wrote (m : Mem) (tag : Nat → BitVec 16) (rows : List Byte × List Byte) : Mem :=
    let one (m : Mem) (r : BitVec 5) (bs : List Byte) (f : Nat) : Mem :=
      { m with apron := wrN m.apron (apronKey tile r.toNat 0) bs, tags := sput m.tags (32 * tile + r.toNat) (tag f) }
    match c.fmt with | .an4 => one m c.dst rows.1 1 | .aw8 => one (one m c.dst rows.1 2) c.dstLo rows.2 3
  (l.apron = true → (∃ p ∈ (dataTags c.srcFmt).zipIdx, tagFmt (d₁.rowTag tile (l.addr % 32 + p.2) slot) ≠ p.1) → GivesWith (.requant c) s fun d =>
    d.mem = d₁.mem ∧ d.tile.blocks = d₁.tile.blocks ∧ d.tile.acc = d₁.tile.acc ∧ d.frm.lanesOf tok.ex tok.ey tok.session = []) ∧
  (∀ o, l.apron = false → d₁.outstanding true l.addr n = some o → Gives (.requant c) s (d₁.stallOn o slot)) ∧
  ((if l.apron then ∀ p ∈ (dataTags c.srcFmt).zipIdx, tagFmt (d₁.rowTag tile (l.addr % 32 + p.2) slot) = p.1
    else d₁.outstanding true l.addr n = none ∧ d₁.refusedBank tok.tenant false l.addr n = none) →
    (.nan ∉ es → GivesWith (.requant c) s fun d => d.mem = wrote d₁.mem (fun f => mkTag e f c.oset.toNat) (codeRows c.fmt ch (codes.map Prod.fst)) ∧
      (∃ b, sget d.tile.blocks (32 * tile + c.dst.toNat) = some b ∧ b.exp = e ∧ b.fmt = c.fmt ∧ b.addr = l.addr ∧
        (b.n, b.z, b.s) = blockCounts es codes ch) ∧
      sgetD d.tile.precCnt (16 * (tile / 128)) 0 = bump (sgetD d₁.tile.precCnt (16 * (tile / 128)) 0) ∧
      { d with mem := d₂.mem, tile := { d.tile with blocks := d₂.tile.blocks, precCnt := d₂.tile.precCnt, rowOld := d₂.tile.rowOld } } = d₂) ∧
    (.nan ∈ es → d₁.sys.st ≠ .blackout → GivesWith (.requant c) s fun d =>
      (∃ x : Int, d.mem = wrote d₁.mem (fun f => mkTag x f c.oset.toNat) (List.replicate 512 0, List.replicate 512 0)) ∧
      d.err.nextSeq = d₁.err.nextSeq + 1 ∧ d.frm.lanesOf tok.ex tok.ey tok.session = [] ∧ d.tile.acc = d₁.tile.acc))

/-- OUT: the bytes a chain output writes, and the release of the set. For a performed OUT of a filled lane on a tile that
is cued, with canonical memory and the hazard detector off; what earlier slots started has landed and the step is
noted with the tile. The 512 columns of the set are scaled, rounded once and clamped (zeros where the tile holds no
set), the bytes in the output format stand at the destination: wings bytes that the crossbar lets the tenant write, or
apron rows with the tags of the format; the set of the tile is released with its flags, and every other set, every
other byte and every other tag stays. A wings write that the crossbar refuses writes nothing and is recorded; a
destination that something outstanding covers stalls the device before anything else. Rests on R348, R83, R78, R198,
R191, R343. -/
def Obligations.OutReleasesItsSet : Prop :=
  ∀ (s : State) (c : OutCue) (tok : Tok), let tile := c.tile.toNat
  let slot := c.slot.toNat
  c.wf = true → s.dev.cues = true → s.dev.lane c.lane.toNat = some tok →
  let d₁ := (s.dev.advance slot).useKeys [2 ^ 19 + tile] tok.step
  d₁.cues = true → d₁.lane c.lane.toNat ≠ none → tile ∉ d₁.tile.prBad → d₁.hazActive = false → Mem.wf d₁.mem = true → sparseWf d₁.tile.acc = true →
  let l := d₁.vecLoc c.dstKind c.dst.toNat tile c.lane.toNat tok.tenant
  let n := vecBytes c.ofmt
  let cols := match sget d₁.tile.acc tile with
    | some a => d₁.outCols c.ofmt c.chain.toNat a (if c.stoch then some (draw16 (d₁.seedOf tok) tok.pos 3 c.chain.toNat) else none)
    | none => List.replicate 512 0
  let bs := colBytes c.ofmt cols
  let released (d : Dev) : Prop := sget d.tile.acc tile = none ∧ (∀ k, k ≠ tile → sget d.tile.acc k = sget d₁.tile.acc k) ∧ d.tile.pend = d₁.tile.pend ∧
    sget d.tile.outs (4096 * c.chain.toNat + c.lane.toNat) = some ⟨tile, l.apron, l.addr, c.ofmt, tok⟩
  bs.length = n ∧
  (l.apron = true → GivesWith (.out c) s fun d => released d ∧ (∀ i < n, rd1 d.mem.apron (l.addr * 512 + i) = bs.getD i 0) ∧
    (∀ k, k < l.addr * 512 ∨ l.addr * 512 + n ≤ k → rd1 d.mem.apron k = rd1 d₁.mem.apron k) ∧
    (∀ p ∈ (dataTags c.ofmt).zipIdx, sget d.mem.tags (l.addr + p.2) = some (mkTag 0 p.1 0)) ∧ d.mem.wings = d₁.mem.wings ∧ d.mem.hbm = d₁.mem.hbm) ∧
  (∀ o, l.apron = false → d₁.outstanding true l.addr n = some o → Gives (.out c) s (d₁.stallOn o slot)) ∧
  (l.apron = false → d₁.outstanding true l.addr n = none → d₁.refusedBank tok.tenant true l.addr n = none → GivesWith (.out c) s fun d => released d ∧
    (∀ i < n, rd1 d.mem.wings (l.addr + i) = bs.getD i 0) ∧ (∀ k, k < l.addr ∨ l.addr + n ≤ k → rd1 d.mem.wings k = rd1 d₁.mem.wings k) ∧
    { d.mem with wings := d₁.mem.wings } = d₁.mem ∧ d.err = d₁.err) ∧
  (l.apron = false → d₁.outstanding true l.addr n = none → d₁.refusedBank tok.tenant true l.addr n ≠ none → d₁.sys.st ≠ .blackout → GivesWith (.out c) s fun d => released d ∧
    { d.mem with cnt := d₁.mem.cnt } = d₁.mem ∧ d.err.nextSeq = d₁.err.nextSeq + 1)

/-- HOP and RELAY forward a set; MOVE copies one row between apron and wings. A performed HOP or RELAY of a filled lane
between tiles that are cued lands what earlier slots started, notes the step with both tiles, releases the set of its
tile and adds it, flags included, as a forwarded contribution to the receiver: the tile of the same flock named by DST
at the end of the HOP slot, or the relay receiver 2 × hops − 1 slots later; a tile without a set forwards nothing.
MOVE into the apron writes 512 wings bytes to the row with the tag format of the cue, exponent and outlier set 0; MOVE
out of it writes the 512 bytes of the row, as it stood before the slot, to the wings, and of a row whose tag says it
is empty is a contained error that moves nothing. A wings range that something outstanding covers stalls the device.
With the hazard detector off and the bank allowed, nothing else changes but what is kept of the row. Rests on R349,
R80, R79, R336, R192, R343. -/
def Obligations.HopsRelaysAndMovesAct : Prop :=
  (∀ (s : State) (lane : BitVec 12) (tok : Tok), s.dev.cues = true → s.dev.lane lane.toNat = some tok →
    let fwd (i : Instr) (slot tile dst landSlot : Nat) : Prop :=
      let d₁ := (s.dev.advance slot).useKeys [2 ^ 19 + tile, 2 ^ 19 + dst] tok.step
      d₁.cues = true → d₁.lane lane.toNat ≠ none → tile ∉ d₁.tile.prBad → dst ∉ d₁.tile.prBad → Gives i s (d₁.modTile fun t =>
        match sget t.acc tile with
        | none => t
        | some a => { t with acc := sdel t.acc tile, pend := insContrib t.pend ⟨landSlot, 2, dst, a.chain, a.exp, a.vals, a.ovf⟩ })
    (∀ c : HopCue, c.lane = lane → fwd (.hop c) c.slot.toNat c.tile.toNat (c.tile.toNat / 128 * 128 + c.dst.toNat) c.slot.toNat) ∧
    (∀ c : RelayCue, c.wf = true → c.lane = lane → fwd (.relay c) c.slot.toNat c.tile.toNat c.dst.toNat (c.slot.toNat + 2 * c.hops.toNat - 1))) ∧
  (∀ (s : State) (c : MoveCue) (tok : Tok), c.wf = true → s.dev.cues = true → s.dev.lane c.lane.toNat = some tok →
    let tile := c.tile.toNat
    let slot := c.slot.toNat
    let d₁ := (s.dev.advance slot).useKeys [2 ^ 19 + tile] tok.step
    d₁.cues = true → d₁.lane c.lane.toNat ≠ none → tile ∉ d₁.tile.prBad → d₁.hazActive = false →
    let a := (if c.laneBuf then d₁.laneBuf c.lane.toNat tok.tenant + c.waddr.toNat else c.waddr.toNat) / 8 * 8
    let key := 32 * tile + c.row.toNat
    (∀ o, d₁.outstanding true a 512 = some o → Gives (.move c) s (d₁.stallOn o slot)) ∧
    (d₁.outstanding true a 512 = none → d₁.refusedBank tok.tenant (!c.toApron) a 512 = none →
      (c.toApron = true → GivesWith (.move c) s fun d => d.mem = { d₁.mem with
          apron := wrN d₁.mem.apron (512 * key) (rdN d₁.mem.wings a 512), tags := sput d₁.mem.tags key (mkTag 0 c.fmt.toNat 0) } ∧
        { d with mem := d₁.mem, tile := { d.tile with rowOld := d₁.tile.rowOld, blocks := d₁.tile.blocks } } = d₁) ∧
      (c.toApron = false → tagFmt (d₁.rowTag tile c.row.toNat slot) ≠ 0 →
        (d₁.rowBytes key slot).length = 512 →
        let d₂ := d₁.useKeys [key] tok.step
        Gives (.move c) s { d₂ with mem := { d₁.mem with wings := wrN d₁.mem.wings a (d₁.rowBytes key slot) } })) ∧
    (c.toApron = false → d₁.outstanding true a 512 = none → tagFmt (d₁.rowTag tile c.row.toNat slot) = 0 → d₁.sys.st ≠ .blackout → GivesWith (.move c) s fun d =>
      d.mem = d₁.mem ∧ d.err.nextSeq = d₁.err.nextSeq + 1 ∧ d.frm.lanesOf tok.ex tok.ey tok.session = []))

/-- REPEAT_WIN and REHEARSE_WIN: which work a window does. A performed REPEAT_WIN lands what earlier slots started; after
it no request of its flock whose result has landed and whose lane still holds its step is queued, whatever the window
holds; on an empty queue it does nothing else. With one such request for which the window has tile-phases, and whose
repeat asks for nothing more, the window drives its tile and serves it: served on a slot with a principal that is not
suspended, on a tile that is cued, a repeat is counted, and without an output yet of its chain it writes no memory. A
performed REHEARSE_WIN lands what earlier slots started and leaves the accumulators, contributions, memory and
security registers otherwise alone; with no measurement and no probe in hand in the flock, and no principal in any of
its slots whose tile may drive its rows, it does nothing else; a window of one tile-phase makes one tracking
evaluation of an array that is being measured, or else steps a probe in hand, or else probes the next array of the
rotation once and steps the rotation behind it, on a tile that the cue sheet leaves free and that is cued. Rests on
R54, R120, R124, R126, R133, R338, R352, R354, R294, R17. -/
def Obligations.WindowsServeTheirFlock : Prop :=
  (∀ (s : State) (c : WinCue), c.wf = true → s.dev.cues = true → let f := c.flock.toNat
    let slot := c.slot.toNat
    let d₁ := s.dev.advance slot
    (GivesWith (.repeatWin c) s fun d => ∀ r ∈ sgetD d.tile.queue f [], ¬ (r.landed slot = true ∧ d.reqLive r = true)) ∧
    (sgetD d₁.tile.queue f [] = [] → Gives (.repeatWin c) s d₁) ∧
    (∀ r p, sgetD d₁.tile.queue f [] = [r] → r.landed slot = true → d₁.reqLive r = true →
      d₁.winPlace [] (min c.tiles.toNat flockLimit) slot (slot + c.slots.toNat) r = some p →
      let d₂ := (((d₁.dropReq f r).drives r.tile p r.cost).serve r p false)
      sgetD d₂.tile.queue f [] = [] → Gives (.repeatWin c) s d₂) ∧
    (GivesWith (.rehearseWin c) s fun d => d.tile.acc = d₁.tile.acc ∧ d.tile.pend = d₁.tile.pend ∧ d.mem = d₁.mem ∧ d.sec = d₁.sec)) ∧
  (∀ (d : Dev) (r : RepReq) (a slot : Nat) (ins : Bool), d.tile.holder r.tile r.pslot = some a → (d.arr a).suspended = false → r.tile ∉ d.tile.prBad →
    let x := d.serve r slot ins
    let n := 16 * (r.tile / 128) + (if ins then 8 else 7)
    sgetD x.tile.precCnt n 0 = bump (sgetD d.tile.precCnt n 0) ∧ x.tile.acc = d.tile.acc ∧ x.tile.pend = d.tile.pend ∧
    (sget d.tile.outs (4096 * r.chain + r.lane) = none → x.mem = d.mem)) ∧
  (∀ (s : State) (c : WinCue), c.wf = true → s.dev.cues = true → let f := c.flock.toNat
    let slot := c.slot.toNat
    let d₁ := s.dev.advance slot
    let freeAt (n a : Nat) : Bool := !d₁.sheetEval (a / 17) n && d₁.tile.idleIn (a / 17) n 1 && !d₁.tile.prBad.contains (a / 17)
    let free := freeAt slot
    let meas (a : Nat × Arr) : Bool := a.1 / 17 / 128 == f && a.2.pstate == 3 && a.2.toMeasure != 0
    let hand (p : Probe) : Bool := p.arr / 17 / 128 == f
    ((d₁.tile.arrs.find? meas) = none → (d₁.tile.probes.find? hand) = none → (∀ i < c.slots.toNat, d₁.rotation f (freeAt (slot + i)) = none) →
      Gives (.rehearseWin c) s d₁) ∧
    (c.slots = 1 → c.tiles = 1 →
      (∀ a x, (d₁.tile.arrs.find? fun e => meas e && free e.1) = some (a, x) →
        GivesWith (.rehearseWin c) s fun d => d.freeCtr = d₁.freeCtr + 1 ∧ d.tile.probes = d₁.tile.probes ∧ d.tile.rot = d₁.tile.rot ∧
          (d.arr a).toMeasure = (d₁.arr a).toMeasure - 1 ∧ (a / 17, slot) ∈ d.tile.driven) ∧
      (∀ p, (d₁.tile.arrs.find? fun e => meas e && free e.1) = none → (d₁.tile.probes.find? fun q => hand q && free q.arr) = some p →
        GivesWith (.rehearseWin c) s fun d => d₁.freeCtr < d.freeCtr ∧ d.tile.rot = d₁.tile.rot ∧ (p.arr / 17, slot) ∈ d.tile.driven ∧
          (∀ q ∈ d.tile.probes, q.arr = p.arr → q.next = p.next + 1)) ∧
      (∀ a, (d₁.tile.arrs.find? fun e => meas e && free e.1) = none → (d₁.tile.probes.find? fun q => hand q && free q.arr) = none → d₁.rotation f free = some a →
        GivesWith (.rehearseWin c) s fun d => d.freeCtr = d₁.freeCtr + 1 ∧ sgetD d.tile.rot f 0 = a % 2176 + 1 ∧ d.err = d₁.err ∧
          d.frm = d₁.frm ∧ (a / 17, slot) ∈ d.tile.driven ∧ ∀ p ∈ d.tile.probes, p ∉ d₁.tile.probes → p.arr = a)))

/-- PLACE: who finds a regular slot, and what it does with one arrival, with none, and with late encores. Placement of any
arrivals over s regular slots, of which l are reserved for lead: every arrival is placed or left over; at most s are
placed; at most s − l of other classes; a lead arrival is left over only when all s slots are taken. A performed PLACE
of one arrival that finds a slot copies its lane buffer to the first regular lane and puts its token there, and moves
no other lane; with no arrival no lane changes. The previous frame assignments beyond the encore lanes are marked as
skipped where their arrival lane is empty (the model's choice, log 119) and forgotten. Counters count them. The hazard
detector is off, and the crossbar allows the copy. Rests on R167, R168, R339, R170. -/
def Obligations.PlaceFillsExpertSlots : Prop :=
  (∀ (n l : Nat) (as : List (Nat × Tok)), l ≤ n → let r := placeSlots n l as
    (r.1 ++ r.2).Perm as ∧ r.1.length ≤ n ∧ (r.1.filter fun a => a.2.cls != 0).length ≤ n - l ∧
    (∀ a ∈ r.2, a.2.cls = 0 → r.1.length = n)) ∧
  (∀ (s : State) (c : PlaceCue), let d₀ := s.dev
    c.wf = true → d₀.cues = true → d₀.hazActive = false →
    let x := (d₀.experts.slots.find? fun e => e.layer == c.layer.toNat && e.expert == c.expert.toNat).getD default
    let late := sgetD d₀.eng.encoreOver (1024 * c.layer.toNat + c.expert.toNat) []
    sparseWf d₀.eng.encoreOver = true →
    ((∀ i < c.arrN.toNat, d₀.lane (c.arrLane.toNat + i) = none) → GivesWith (.place c) s fun d => d.frm.lanes = d₀.frm.lanes ∧
      d.frm.nextLanes = d₀.frm.nextLanes ∧ (∀ n, n ∈ d.frm.skipped ↔ n ∈ d₀.frm.skipped ∨ ((∃ t, (n, t) ∈ late) ∧ d₀.lane n = none)) ∧
      sget d.eng.encoreOver (1024 * c.layer.toNat + c.expert.toNat) = none ∧ d.mem = d₀.mem ∧ d.tile = d₀.tile ∧ d.err = d₀.err) ∧
    (∀ t : Tok, c.arrN = 1 → d₀.lane c.arrLane.toNat = some t → (if t.cls = 0 then 0 < x.regular else x.lead < x.regular) →
      let a := d₀.laneBufIn d₀.template c.arrLane.toNat t.tenant
      let b := d₀.laneBufIn d₀.template c.regLane.toNat t.tenant
      d₀.refusedBank t.tenant false a.1 a.2 = none → d₀.refusedBank t.tenant true b.1 a.2 = none →
      GivesWith (.place c) s fun d => d.lane c.regLane.toNat = some t ∧ (∀ n, n ≠ c.regLane.toNat → d.lane n = d₀.lane n) ∧
        d.mem = { d₀.mem with wings := wrN d₀.mem.wings b.1 (rdN d₀.mem.wings a.1 a.2) } ∧ d.tile = d₀.tile ∧ d.err = d₀.err))

/-- MATMUL, NORM, ROTARY, ATTN_GQA, ATTN_LATENT: the row a kernel of one lane writes, and zeros for a query without keys.
For a performed kernel with one filled lane (not padding), wings or lane buffer operands that nothing outstanding
covers and the crossbar allows, nearest rounding, no CLEAR, and the hazard detector off. The row of its family is
computed from the operand bytes: product of the vector with the matrix, normalised vector, rotated heads at the token
position, or attention over the KV entries of the visible positions on the device that owns the layer, none of them
uncorrectable. When it exists, exactly its encoded bytes are written at the output; when an operation overflows, gives
an infinity or meets a NaN, nothing is written, the error is recorded and the step discarded. The thread counts as
active for the token's step, which goes where a thread lost in this frame was used (R204); nothing else changes. For
both attention kernels, every head count and width, and every query row without a NaN or an infinity: with no visible
key every head gives zeros, so the row is heads × width zeros; a single head with no key gives its width of zeros.
Rests on R340, R350, R151, R155, R159, R161, R162, R153, R158, R160. -/
def Obligations.KernelsComputeTheirRow : Prop :=
  (
  ∀ (s : State) (k : KernelCue) (t : Tok) (p₀ p₃ : Nat), let d₀ := s.dev; let z := d₀.krun 0 k; let d₁ := d₀.runThread z
  k.wf true = true → d₀.cues = true → d₁.hazActive = false → k.nlanes = 1 → k.clear = false → k.stoch = false →
  d₀.lane k.lane.toNat = some t → t.seg ≠ 65535 → d₀.opsOutstanding z = none →
  d₁.opAt z k.op0 (opSize k.op0) 0 = some (true, p₀) → d₁.opAt z k.op3 (opSize k.op3) 0 = some (true, p₃) →
  d₁.refusedBank t.tenant false p₀ (opSize k.op0) = none →
  let x := rdN d₁.mem.wings p₀ (opSize k.op0)
  let writes (c : Instr) (r : Option (List Res)) : Prop := GivesWith c s fun d =>
    (∀ vs, r = some vs → d₁.refusedBank t.tenant true p₃ (encodeRow k.op3.fmt vs).length = none →
      d = { d₁ with mem := { d₁.mem with wings := wrN d₁.mem.wings p₃ (encodeRow k.op3.fmt vs) } }) ∧
    (r = none → d.mem = d₁.mem ∧ d.err.nextSeq = d₁.err.nextSeq + 1 ∧ d.frm.lanesOf t.ex t.ey t.session = []) ∧
    d.eng = { d₀.eng with active := setIns d₀.eng.active (64 * k.engine.toNat + k.thread.toNat) }
  (∀ p₁, d₁.opAt z k.op1 0 0 = some (true, p₁) →
    d₁.refusedBank t.tenant false p₁ (numBytes k.op1.fmt (k.op0.elems.toNat * k.op3.elems.toNat)) = none →
    writes (.matmul k) (matRow k.op0.fmt k.op1.fmt x (rdN d₁.mem.wings p₁ (numBytes k.op1.fmt (k.op0.elems.toNat * k.op3.elems.toNat)))
      k.op0.elems.toNat k.op3.elems.toNat)) ∧
  writes (.norm k) ((rowF32 k.op0.fmt x k.op0.elems.toNat).bind fun xs => (normRow xs z.kc.gains z.kc.eps).map fun ys => ys.map resF32) ∧
  writes (.rotary k) ((rowF32 k.op0.fmt x k.op0.elems.toNat).bind fun xs =>
    ((List.range (ceilDiv xs.length (max 1 z.kc.dim))).mapM fun h =>
      rotaryHead z.kc.base (max 1 z.kc.dim) t.pos (slice xs (h * max 1 z.kc.dim) (max 1 z.kc.dim))).map fun hs => hs.flatten.map resF32) ∧
  (∀ kv, d₁.ownKv = some kv → (∀ n ∈ d₁.visible z kv t, d₁.badPage kv t.session k.layer.toNat n false = none) →
    let es := d₁.kvEntries kv t.session k.layer.toNat (d₁.visible z kv t)
    writes (.attnGqa k) (attRow false z.kc k.op0.fmt x es) ∧ writes (.attnLatent k) (attRow true z.kc k.op0.fmt x es))
  ) ∧ (
  (∀ w : Nat, attHead w [] = some (List.replicate w 0)) ∧
  (∀ (latent : Bool) (kc : KConst) (f : NumFmt) (x : List Byte) (qs : List Rat),
    rowAt f x (kc.heads * if latent then 320 else kc.dim) = some qs →
    ∃ r, attRow latent kc f x [] = some r ∧ r.length = kc.heads * (if latent then 256 else kc.dim) ∧ ∀ v ∈ r, v.mag = 0 ∧ v.neg = false)
  )

/-- ROUTE, COMBINE, SAMPLE, VERIFY, ADAPT on one lane, and which experts and tokens they can choose. Pure rules: routed
experts are at most k, each enabled and among the e scored; the floor never drops rank 0; a sampled token at
temperature 0 is the lowest index of the largest logit; VERIFY, where every position it reaches has a sample, releases
at least one and at most as many tokens as positions, and all but the last are the drafts. For one filled lane with
wings operands that are allowed: ROUTE writes the routing row or records the error; COMBINE of a token that is not
ENCORE_HELD and whose return lane is lost discards its step and writes nothing; SAMPLE and VERIFY release the sampled
token to a step on its entry device at its last position and write it; ADAPT without an adapter only runs its thread,
and with a slot that is not READY discards the step. Rests on R164, R165, R172, R173, R176, R180, R181, R401. -/
def Obligations.RoutingChoosesEnabledExperts : Prop :=
  (∀ (r : RouteLayer) (z : List F32) (ss : List (Nat × F32)) (sel gs out : List Gate), routeScores r z = some ss → routeSelect r ss = some sel →
    routeGates r sel = some gs → gateFloor r gs = some out →
    sel.length ≤ r.k ∧ (∀ g ∈ out, g.e < z.length ∧ g.e ∉ r.masked) ∧ out.length ≤ sel.length ∧ (∀ g, gs.head? = some g → ∃ v, out.head? = some ⟨g.e, v⟩)) ∧
  (∀ (l : List F32) (temp k p r : Nat), temp % 2 ^ 31 = 0 → l ≠ [] → ∃ i, sampleToken l temp k p r = some i ∧ i < l.length ∧
    (∀ j v w, l[i]? = some v → l[j]? = some w → ¬ f32Val v < f32Val w ∧ (j < i → f32Val w < f32Val v))) ∧
  (∀ (stops ds r : List Nat) (ss : List (Option Nat)), ss ≠ [] → verifyTokens stops ss ds = some r →
    1 ≤ r.length ∧ r.length ≤ ss.length ∧ r.map some <+: ss ∧ r.dropLast <+: ds ∧ (∀ t ∈ r.dropLast, t ∉ stops)) ∧
  (∀ (s : State) (k : KernelCue) (t : Tok) (p₀ : Nat), let d₀ := s.dev; let z := d₀.krun 0 k; let d₁ := d₀.runThread z
    k.wf true = true → d₀.cues = true → d₁.hazActive = false → k.nlanes = 1 → k.clear = false → d₀.lane k.lane.toNat = some t → t.seg ≠ 65535 →
    d₀.opsOutstanding z = none → d₁.opAt z k.op0 (opSize k.op0) 0 = some (true, p₀) → d₁.refusedBank t.tenant false p₀ (opSize k.op0) = none →
    let fails (d : Dev) : Prop := d.mem = d₁.mem ∧ d.err.nextSeq = d₁.err.nextSeq + 1 ∧ d.frm.lanesOf t.ex t.ey t.session = []
    let row := rowF32 k.op0.fmt (rdN d₁.mem.wings p₀ (opSize k.op0)) k.op0.elems.toNat
    let wrote (d : Dev) (p : Nat) (bs : List Byte) : Prop := d.mem = { d₁.mem with wings := wrN d₁.mem.wings p bs } ∧ d.err = d₁.err ∧ d.frm = d₁.frm
    (∀ p₃, let r := d₁.routeLayer k.layer.toNat
      d₁.opAt z k.op3 (8 * r.k) 0 = some (true, p₃) → d₁.refusedBank t.tenant true p₃ (8 * r.k) = none → GivesWith (.route k) s fun d =>
        (∀ g, (row.bind fun zs => routeRow r (zs.take r.e)) = some g → wrote d p₃ (gateBytes r.k g.1)) ∧
        ((row.bind fun zs => routeRow r (zs.take r.e)) = none → fails d)) ∧
    (t.encHeld = false → d₁.eng.delayed.contains (t.ex, t.ey, t.session, k.layer.toNat) = false → d₁.lostReturn z 0 = true → GivesWith (.combine k) s fun d =>
      d.mem = d₁.mem ∧ d.frm.lanesOf t.ex t.ey t.session = [] ∧ d.tile.acc = d₁.tile.acc) ∧
    (∀ p₃, k.stoch = false → d₁.eng.delayed.contains (t.ex, t.ey, t.session, k.layer.toNat) = false → d₁.lostReturn z 0 = false →
      (d₁.combineRow (d₀.krun 7 k) 0).1.mem = d₁.mem → (d₁.combineRow (d₀.krun 7 k) 0).1.err = d₁.err → (d₁.combineRow (d₀.krun 7 k) 0).1.frm = d₁.frm →
       d₁.opAt z k.op3 (opSize k.op3) 0 = some (true, p₃) → GivesWith (.combine k) s fun d =>
      (∀ vs, (d₁.combineRow (d₀.krun 7 k) 0).2 = some vs → d₁.refusedBank t.tenant true p₃ (encodeRow k.op3.fmt vs).length = none → wrote d p₃ (encodeRow k.op3.fmt vs)) ∧
      ((d₁.combineRow (d₀.krun 7 k) 0).2 = none → fails d)) ∧
    (∀ p₃ x, d₁.stepOf t = some x → x.sampled = false → x.kEff = 0 → x.prefillOnly = false → t.pos = x.lastPos →
      d₁.opAt z k.op3 4 0 = some (true, p₃) → d₁.refusedBank t.tenant true p₃ 4 = none →
      ∀ c, c = .sample k ∨ c = .verify k → GivesWith c s fun d =>
        (∀ tok, (row.bind fun l => d₁.sampleAt t l) = some tok → wrote d p₃ (leBytes 4 tok) ∧
          ∃ y, d.stepOf t = some y ∧ y.sampled = true ∧ y.released = [tok]) ∧
        ((row.bind fun l => d₁.sampleAt t l) = none → fails d)) ∧
    (t.adp = false → Gives (.adapt k) s d₁) ∧
    (t.adp = true → (∀ x, sget d₁.call.adpSlots t.adapter = some x → x.ready = false) → GivesWith (.adapt k) s fails) ∧
    (∀ m p₁ p₃, k.stoch = false → t.adp = true → d₁.adpMat t.adapter z.kc.point = some m → d₁.adpOk t (some m) k.op0.elems.toNat k.op3.elems.toNat = true →
      d₁.opAt z k.op1 (opSize k.op1) 0 = some (true, p₁) → d₁.refusedBank t.tenant false p₁ (opSize k.op1) = none →
      d₁.opAt z k.op3 (opSize k.op3) 0 = some (true, p₃) → GivesWith (.adapt k) s fun d =>
      let r := (rowAt k.op0.fmt (rdN d₁.mem.wings p₀ (opSize k.op0)) k.op0.elems.toNat).bind fun xs =>
        (rowF32 k.op1.fmt (rdN d₁.mem.wings p₁ (opSize k.op1)) k.op3.elems.toNat).bind fun ys =>
          d₁.adaptRow m k.op0.elems.toNat k.op3.elems.toNat xs ys
      (∀ vs, r = some vs → d₁.refusedBank t.tenant true p₃ (encodeRow k.op3.fmt vs).length = none → wrote d p₃ (encodeRow k.op3.fmt vs)) ∧
      (r = none → fails d)))

/-- KVWRITE, EXACT and KERNEL_STOP, and what every kernel leaves alone. KVWRITE of one lane of a session that holds the
page already, under the same epoch, without a mirror and without an uncorrectable codeword there, writes the E4M3
bytes of the token to the entry of its position and layer, or records the error and writes nothing. An EXACT kernel
marks its thread active and with CLEAR zeroes its private partition, which then belongs to its own partition.
KERNEL_STOP counts, records a contained error, empties the lanes of its steps and adds a history event to the engine.
An empty or padding lane leaves a kernel without effect. No kernel changes apron, tags, Prompter store, accumulators,
contributions, array cells or the security block. Rests on R257, R258, R200, R148, R350, R406, R138. -/
def Obligations.KvWritesExactAndStoppedKernels : Prop :=
  (∀ (s : State) (k : KernelCue) (t : Tok) (kv : KvDev) (i : Nat) (p a : Nat), let d₀ := s.dev; let z := d₀.krun 5 k; let d₁ := d₀.runThread z
    k.wf true = true → d₀.cues = true → k.nlanes = 1 → k.clear = false → d₀.lane k.lane.toNat = some t → t.seg ≠ 65535 → d₀.opsOutstanding z = none →
    d₁.ownKv = some kv → (d₁.kvIndex ⟨BitVec.ofNat 4 t.ex, BitVec.ofNat 4 t.ey⟩).isSome = true → t.pos / kv.tpg + 1 ≤ d₁.blocks t.session →
    d₁.kstate t.session ≠ 0 → d₁.kstate t.session ≠ 5 → d₁.badPage kv t.session k.layer.toNat t.pos true = none → d₁.mirrorOf ⟨BitVec.ofNat 4 t.ex, BitVec.ofNat 4 t.ey⟩ t.session = false →
    d₁.kvEntry kv t.session k.layer.toNat t.pos = some (i, p, a) → leNat (d₁.hbmRd (kvPage p + 0x10) 2) = d₁.stepEpoch t % 65536 →
    (d₁.kvBytes z 0 t).1 = d₁ → GivesWith (.kvwrite k) s fun d =>
      (∀ bs, (d₁.kvBytes z 0 t).2 = some bs → d = { d₁ with mem := d₁.mem.wrHbm a (bs.take kv.e) }) ∧
      ((d₁.kvBytes z 0 t).2 = none → d.mem = d₁.mem ∧ d.err.nextSeq = d₁.err.nextSeq + 1)) ∧
  (∀ (s : State) (k : KernelCue), let z := s.dev.krun 11 k; let d₁ := s.dev.runThread z
    k.wf false = true → s.dev.cues = true → s.dev.opsOutstanding z = none →
    (k.clear = false → Gives (.exact k) s d₁) ∧
    (∀ sc g n, k.clear = true → d₁.scr.script = some sc → d₁.hazActive = false →
      (((sc.pools[d₁.template]?).getD default).priv.find? fun e => e.1 == 64 * k.engine.toNat + k.thread.toNat) =
        some (64 * k.engine.toNat + k.thread.toNat, g, n) →
      let lo := localKey k.engine.toNat (4096 * g)
      GivesWith (.exact k) s fun d => (∀ b, lo ≤ b → b < lo + 4096 * n → rd1 d.mem.localBuf b = 0 ∧
          sget d.mem.granule (b / 4096) = some z.tenant) ∧
        (∀ b, b < lo ∨ lo + 4096 * n ≤ b → rd1 d.mem.localBuf b = rd1 d₁.mem.localBuf b) ∧
        { d with mem := { d.mem with localBuf := d₁.mem.localBuf, granule := d₁.mem.granule } } = d₁)) ∧
  (∀ (s : State) (f : BitVec 4) (k : KernelCue), k.wf false = true → f.toNat < 12 → s.dev.cues = true → GivesWith (.kernelStop f k) s fun d =>
    d.eng.late = bump s.dev.eng.late ∧ s.dev.err.nextSeq < d.err.nextSeq ∧ d.mem = s.dev.mem ∧
    (∀ st ∈ (s.dev.krun f.toNat k).steps, d.frm.lanesOf st.1 st.2.1 st.2.2 = []) ∧
    ∃ h, sget d.err.hist (histKey 4 k.engine.toNat) = some h ∧ h.events = bumpW 8 (sgetD s.dev.err.hist (histKey 4 k.engine.toNat) {}).events) ∧
  (∀ (s : State) (k : KernelCue) (c : Instr), k.wf true = true → (c = .matmul k ∨ c = .norm k ∨ c = .rotary k ∨ c = .attnGqa k ∨ c = .attnLatent k ∨
      c = .kvwrite k ∨ c = .route k ∨ c = .combine k ∨ c = .sample k ∨ c = .verify k ∨ c = .adapt k) →
    (s.dev.cues = false ∨ (∀ t ∈ s.dev.packed k, t = none) → Gives c s s.dev) ∧
    (GivesWith c s fun d => d.mem.apron = s.dev.mem.apron ∧ d.mem.tags = s.dev.mem.tags ∧ d.mem.prompter = s.dev.mem.prompter ∧
      d.tile.acc = s.dev.tile.acc ∧ d.tile.pend = s.dev.tile.pend ∧ d.tile.cells = s.dev.tile.cells ∧ d.sec = s.dev.sec))

/-- HBM_RD, its delivery and HBM_WR: outstanding ranges and the bytes moved. For memory cues within device memory,
performed in PLAYING, CURTAIN or STRUCK. HBM_RD makes its target range outstanding and reads nothing yet, unless that
overlaps an outstanding range. When it is delivered without an error in its codewords, the target (wings the crossbar
allows, or a local buffer) holds the bytes of device memory, that range is outstanding no more, every other one stays,
and device memory is unchanged; a read that was not issued delivers nothing. HBM_WR of a source, or HBM_RD of a
target, that is outstanding stalls the device on it and does nothing else; HBM_WR otherwise writes the bytes of the
source, codeword by codeword, and notes its step there. A stall stops every cue. The hazard detector is off. Rests on
R341, R343, R351, R214, R204, R49. -/
def Obligations.MemoryCuesMoveTheirBytes : Prop :=
  (∀ (s : State) (c : HbmCue) (t : Tok), c.wf = true → hbmInside c = true → s.dev.hbmTok c = some t → let p := s.dev.hbmPlace c t; let n := hbmBytes c
    let o : Outst := ⟨p.1, p.2, p.2 + n, 0, hbmChannel c.addr.toNat, c.num.toNat⟩
    let allowed (w : Bool) : Prop := p.1 = true → s.dev.refusedBank t.tenant w p.2 n = none
    let src := if p.1 then rdN s.dev.mem.wings p.2 n else rdN s.dev.mem.localBuf p.2 n
    (s.dev.linkCues = true → s.dev.outstanding p.1 p.2 n = none →
      Gives (.hbmRd c) s { s.dev with frm := { s.dev.frm with outst := s.dev.frm.outst ++ [o] } }) ∧
    (s.dev.coreRuns = true → s.dev.hazActive = false → o ∈ s.dev.frm.outst → (∀ cw ∈ cwRange c.addr.toNat n, cw ∉ s.dev.mem.bad) → allowed true →
      GivesWith (.hbmRdDeliver c []) s fun d => d.mem = (if p.1 then { s.dev.mem with wings := wrN s.dev.mem.wings p.2 (rdN s.dev.mem.hbm c.addr.toNat n) }
          else { s.dev.mem with localBuf := wrN s.dev.mem.localBuf p.2 (rdN s.dev.mem.hbm c.addr.toNat n) }) ∧
        d.frm.outst = s.dev.frm.outst.filter (fun x => !(x.num == c.num.toNat && x.wings == p.1 && x.lo == p.2)) ∧ o ∉ d.frm.outst ∧
        { d with mem := s.dev.mem, frm := { d.frm with outst := s.dev.frm.outst } } = s.dev) ∧
    ((∀ x ∈ s.dev.frm.outst, x.num ≠ c.num.toNat) → ∀ f, Gives (.hbmRdDeliver c f) s s.dev) ∧
    (s.dev.linkCues = true → s.dev.hazActive = false → s.dev.outstanding p.1 p.2 n = none → allowed false → Gives (.hbmWr c) s
      { s.dev with mem :=
          { s.dev.mem.wrHbm c.addr.toNat src with
              missed := (s.dev.mem.missedBy c.addr.toNat n).foldl setIns s.dev.mem.missed,
              spill := if t.seg = 65535 then s.dev.mem.spill else (cwRange c.addr.toNat n).foldl (fun x k => sput x k t.step) s.dev.mem.spill } }) ∧
    (∀ w i, s.dev.linkCues = true → s.dev.outstanding p.1 p.2 n = some w → i = .hbmWr c ∨ i = .hbmRd c → GivesWith i s fun d => d.frm.stall = some ⟨w, c.slot.toNat⟩ ∧
      { d with frm := { d.frm with stall := s.dev.frm.stall } } = s.dev ∧ d.cues = false ∧ d.linkCues = false)) ∧
  (∀ (m : Mem) (a : Nat) (bs : List Byte), Mem.wf m = true → (∀ c ∈ cwRange a bs.length, c ∉ m.bad) →
    rdN (m.wrHbm a bs).hbm a bs.length = bs ∧ ∀ k, k < a ∨ a + bs.length ≤ k → rd1 (m.wrHbm a bs).hbm k = rd1 m.hbm k)

/-- Exact mode: starting, aborting, timing out and completing a job; mode requests and counters. Past BOOT and not in
DARK_HOUSE. An ARRAY or LAYER job starts with the latched target and no capture when no job runs and the script has an
exact pool; without one it ends with cause 1; while a job runs START changes only KIND. ABORT ends a running job with
cause 2, a timeout after 1,048,576 frames without a phase or step with cause 4, each with the EXACT event. An ARRAY
job of 4,096 phases completes with DONE and a zero digest, and a LAYER job whose chains all have their output
completes with DONE and a 32-byte digest. FORCE_LEARN and FORCE_SERVICE set the request for the next boundary, the
later one prevailing. TILE_PREC_CLR zeroes the precision counters alone. Rests on R140, R141, R142, R143, R127, R130,
R133. -/
def Obligations.ExactModeJobsRunAndEnd : Prop :=
  ∀ s : State, s.dev.up = true → let x := s.dev.tile.exact
  (∀ (layer : Bool) (c : Instr), c = (if layer then .exactLayerJob else .exactArrayJob) →
    let y : Exact := { x with kind := if layer then 1 else 0 }
    (x.job.isSome = true → Gives c s { s.dev with tile := { s.dev.tile with exact := y } }) ∧
    (x.job = none → s.dev.exactPool = true → Gives c s { s.dev with tile := { s.dev.tile with exact :=
      { y with job := some (layer, if layer then x.layer.toNat else 16 * x.tile.toNat + x.slot.toNat, if layer then x.session.toNat else 0),
               startFrame := s.dev.frm.frame, phases := [], chains := [], step := false } } }) ∧
    (x.job = none → s.dev.exactPool = false → GivesWith c s fun d => d.tile.exact.job = none ∧ d.tile.exact.err = true ∧ d.tile.exact.cause = 1 ∧
      d.host.evtStatus.getLsbD 6 = true)) ∧
  (∀ (c : Instr) (cause : Nat), (c = .exactAbort ∧ cause = 2) ∨
      (c = .exactJobTimeout ∧ cause = 4 ∧ x.startFrame + 1048576 ≤ s.dev.frm.frame ∧ x.phases = [] ∧ x.step = false) →
    (x.job = none → Gives c s s.dev) ∧
    (x.job.isSome = true → GivesWith c s fun d => d.tile = { s.dev.tile with exact := { x with job := none, err := true, cause := cause } } ∧
      d.host.evtStatus.getLsbD 6 = true ∧ d.mem = s.dev.mem)) ∧
  (s.dev.frm.frame < x.startFrame + 1048576 ∨ x.phases ≠ [] ∨ x.step = true → Gives .exactJobTimeout s s.dev) ∧
  (∀ k n, x.job = some (false, k, n) → (x.phases.length < 4096 → Gives .exactJobDone s s.dev) ∧
    (4096 ≤ x.phases.length → GivesWith .exactJobDone s fun d => d.tile.exact.job = none ∧ d.tile.exact.done = true ∧
      d.tile.exact.digest = List.replicate 32 0 ∧ d.tile.exact.over_ ≤ 512 * x.phases.length ∧ d.host.evtStatus.getLsbD 6 = true ∧
      { d.tile with exact := x } = s.dev.tile ∧ d.mem = s.dev.mem)) ∧
  (∀ k n, x.job = some (true, k, n) → x.step = true → (∀ c ∈ x.chains, c.out ≠ []) → GivesWith .exactJobDone s fun d =>
    d.tile.exact.job = none ∧ d.tile.exact.done = true ∧ d.tile.exact.digest.length = 32 ∧ d.tile.exact.bound = 0 ∧ d.host.evtStatus.getLsbD 6 = true ∧
      { d.tile with exact := x } = s.dev.tile ∧ d.mem = s.dev.mem) ∧
  Gives .forceLearn s { s.dev with tile := { s.dev.tile with hostMode := some true } } ∧
  Gives .forceService s { s.dev with tile := { s.dev.tile with hostMode := some false } } ∧
  Gives .tilePrecClr s { s.dev with tile := { s.dev.tile with precCnt := [] } }

/-- TICK_LAUNCH and OVERRUN_ABORT on the bellwether, and TICK from the parent, open the next frame; when they wait. On a
bellwether that may launch: its core runs, its herd runs frames, no hold stops it, and if it is PARKED every AWAKE is
held. Where no lane mask that applies at the boundary takes the last link of a bundle, which begins a discovery:
TICK_LAUNCH with no frame open, or with every DONE held, the nominal time come and no STOP at this boundary, opens the
next frame where TICK_IN does not pace it: its number, its start L after the launch, the planned period at the
throttle level, its own DONE not yet made; where TICK_IN paces, it waits for the edge. At the boundary that STOP names
no frame is open afterwards. TICK_LAUNCH before that changes nothing. OVERRUN_ABORT, with a DONE missing L before
twice the planned period has passed, opens the next frame too and counts one overrun; before that it changes nothing.
The throttle level is the largest of the children and of the device, at most 8 (four bits in DONE). On a device below
the bellwether whose core runs and whose herd runs frames, with no hold that stops it. A TICK from its parent, where
no lane mask that applies takes a bundle's last link, opens a frame L less its own path delay after the nominal
arrival (the arrival less LATE), at the level the TICK carries. The first frame after a discovery has the number HERD
gave. Every other has the number the TICK gives in its low 16 bits: the number that follows where it was expected,
otherwise that number (its upper 48 bits are the model's choice, log 110). A TICK from a link that is not toward the
parent changes nothing. Rests on R36, R37, R38, R41, R46, R56, R57, R58, R32, R34, R35. -/
def Obligations.TicksOpenTheNextFrame : Prop :=
  (
  ∀ (s : State) (t : Nat), s.dev.mayLaunch = true →
    let f := s.dev.frm; let all := f.ownDone = true ∧ s.dev.childrenDone = true
    let keeps := ∀ b ∈ [Dir.west, .east, .north, .south], s.dev.working b ≠ [] → (s.dev.switchMasks f.next).working b ≠ []
    let level := min 8 (if f.isOpen then (f.children.map DoneHeld.throttle).foldl max s.dev.thm.level % 16 else s.dev.thm.level)
    let opens (d : Dev) : Prop := d.frm.frame = f.next % 2 ^ 64 ∧ d.frm.start = t + f.lat ∧ d.frm.throttle = level ∧
      d.frm.planned = s.dev.plannedAt level ∧ d.frm.played = f.played + 1 ∧ d.frm.isOpen = true ∧ d.frm.ownDone = false ∧ d.frm.doneSent = false
    (s.dev.tickInPaces = false → keeps → (f.isOpen = false ∨ (all ∧ f.start + f.planned ≤ t + f.lat ∧ s.dev.atStop = false)) → GivesWith (.tickLaunch t) s opens) ∧
    (s.dev.tickInPaces = true → f.isOpen = false ∨ s.dev.atStop = false → Gives (.tickLaunch t) s s.dev) ∧
    (f.isOpen = true → all → f.start + f.planned ≤ t + f.lat → s.dev.atStop = true → GivesWith (.tickLaunch t) s fun d => d.frm.isOpen = false) ∧
    (f.isOpen = true → (¬ all ∨ t + f.lat < f.start + f.planned) → Gives (.tickLaunch t) s s.dev) ∧
    (f.isOpen = true → ¬ all → keeps → f.start + 2 * f.planned ≤ t + f.lat →
      GivesWith (.overrunAbort t) s fun d => opens d ∧ d.frm.aborted = true ∧ d.frm.overruns = bump f.overruns) ∧
    (f.isOpen = false ∨ all ∨ t + f.lat < f.start + 2 * f.planned → Gives (.overrunAbort t) s s.dev)
  ) ∧ (
  ∀ (s : State) (link : Fin 48) (u : TickInfo) (t : Nat), let f := s.dev.frm
    let num := if f.played = 0 then f.next else u.num.toNat
    (s.dev.coreRuns = true → s.dev.bellwether = false → s.dev.fromParent link.val = true → f.running = true → s.dev.dbg.frozen = false →
      (∀ b ∈ [Dir.west, .east, .north, .south], s.dev.working b ≠ [] → (s.dev.switchMasks num).working b ≠ []) →
      GivesWith (.tick link u t) s fun d => (f.played ≠ 0 → d.frm.frame % 65536 = u.num.toNat) ∧
        (f.played = 0 ∨ u.num.toNat = f.next % 65536 → d.frm.frame = f.next % 2 ^ 64) ∧ d.frm.start = t - u.late.toNat / 100 + (f.lat - f.path) ∧
        d.frm.throttle = u.level.toNat ∧ d.frm.played = f.played + 1 ∧ d.frm.isOpen = true ∧ d.frm.ownDone = false) ∧
    (s.dev.fromParent link.val = false ∨ s.dev.bellwether = true ∨ f.running = false → Gives (.tick link u t) s s.dev)
  )

/-- DONE_SEND and DONE: own work ends, children are held, and the aggregate goes up once. While a frame is open on a
device whose core runs. DONE_SEND, with no stall, no input outstanding, no hold that stops the device and own DONE not
yet made: the apron and its tags are empty, the accumulators and the repeat queues are empty, own DONE stands, and the
aggregate is sent if every child is done; with STOP at the next boundary, a device below the bellwether whose children
are done then has no frame open. A child's DONE of the open frame is held once, and completes the aggregate when it
was the last. A DONE of another frame changes nothing, and DONE_SEND during a stall or with an input outstanding
changes nothing. Rests on R37, R39, R46, R81, R191, R194. -/
def Obligations.DoneFollowsTheWorkOfTheFrame : Prop :=
  ∀ (s : State), s.dev.coreRuns = true → s.dev.frm.isOpen = true →
    (∀ t, s.dev.frm.stall = none → s.dev.frm.outst = [] → s.dev.dbg.frozen = false → s.dev.frm.ownDone = false → s.dev.frm.doneSent = false →
      (s.dev.atStop = false ∨ s.dev.bellwether = true ∨ s.dev.childrenDone = false → GivesWith (.doneSend t) s fun d =>
        d.mem.apron = [] ∧ d.mem.tags = [] ∧ d.tile.acc = [] ∧ d.tile.pend = [] ∧ d.tile.queue = [] ∧ d.frm.outst = [] ∧ d.frm.ownDone = true ∧
        d.frm.ownLast = s.dev.childrenDone ∧ d.frm.doneSent = s.dev.childrenDone) ∧
      (s.dev.atStop = true → s.dev.bellwether = false → s.dev.childrenDone = true → GivesWith (.doneSend t) s fun d => d.frm.isOpen = false)) ∧
    (∀ t, s.dev.frm.stall.isSome = true ∨ s.dev.frm.outst ≠ [] → Gives (.doneSend t) s s.dev) ∧
    (∀ (link : Fin 48) (u : DoneInfo), s.dev.atStop = false ∨ s.dev.bellwether = true → s.dev.fromChild link.val = true →
      u.num.toNat = s.dev.frm.frame % 65536 → GivesWith (.done link u) s fun d =>
      let cs := s.dev.frm.children.filter (fun x => linkDir x.link != linkDir link.val) ++
        [⟨link.val, u.causes.toNat, u.throttle.toNat, u.last.x.toNat, u.last.y.toNat⟩]
      d.frm.children = cs ∧ d.frm.ownDone = s.dev.frm.ownDone ∧
      d.frm.doneSent = (s.dev.frm.doneSent || (s.dev.frm.ownDone && s.dev.children.all fun c => cs.any fun x => linkDir x.link == linkDir c)) ∧
      d.mem = s.dev.mem ∧ d.tile = s.dev.tile ∧ d.call = s.dev.call) ∧
    (∀ (link : Fin 48) (u : DoneInfo), s.dev.fromChild link.val = false ∨ u.num.toNat ≠ s.dev.frm.frame % 65536 → Gives (.done link u) s s.dev)

/-- TICK_IN, the bellwether lost, echoes toward the parent, stalls resumed, and the frame counters cleared. An edge of
TICK_IN closer than 0.9 periods to the accepted one counts as a glitch; another is the accepted edge, in use unless
TICK_IN is lost; with every DONE held and the nominal time come, or as the first, it opens the next frame at the edge
where every bundle keeps a link. Two periods without an edge lose it (TICK_IN_LOST), until it is cleared. A device
below the bellwether that sees no tick for twice the planned period and 1 us leaves its frames and begins a discovery.
ECHO_MEASURE sends the next ECHO toward the parent, and does nothing without one. A stall resumed frees the cue, adds
its slots beyond those the frame was late already and its cause, and for a link its lateness. SCRIPT_STRETCH_CLR
zeroes its counters. Rests on R34, R40, R41, R42, R49, R52, R59, R60, R61, R483. -/
def Obligations.FramePacingAndStallCommands : Prop :=
  ∀ s : State, let f := s.dev.frm
  (∀ t e, s.dev.coreRuns = true → s.dev.bellwether = true → f.tickInEn = true → f.tickInLast = some e →
    10 * (t - e) < 9 * s.dev.period → Gives (.tickInEdge t) s { s.dev with sys := { s.dev.sys with glTickIn := min 255 (s.dev.sys.glTickIn + 1) } }) ∧
  (∀ t, s.dev.coreRuns = true → s.dev.bellwether = true → f.tickInEn = true → (∀ e, f.tickInLast = some e → 9 * s.dev.period ≤ 10 * (t - e)) →
    (f.tickInLost = true ∨ s.dev.mayLaunch = false ∨ (f.isOpen = true ∧ (f.ownDone = false ∨ s.dev.childrenDone = false ∨ s.dev.atStop = true ∨ t + f.lat < f.start + f.planned)) → Gives (.tickInEdge t) s
      { s.dev with now := max s.dev.now t, frm := { f with tickInLast := some t, tickInUse := !f.tickInLost } }) ∧
    (f.tickInLost = false → s.dev.mayLaunch = true → (∀ b ∈ [Dir.west, .east, .north, .south], s.dev.working b ≠ [] →
        (s.dev.switchMasks f.next).working b ≠ []) → f.lat ≤ t → f.isOpen = false ∨ (f.ownDone = true ∧ s.dev.childrenDone = true ∧
      f.start + f.planned ≤ t + f.lat ∧ s.dev.atStop = false) → GivesWith (.tickInEdge t) s fun d => d.frm.start = t ∧ d.frm.frame = f.next % 2 ^ 64 ∧
        d.frm.played = f.played + 1 ∧ d.frm.isOpen = true ∧ d.frm.ownDone = false ∧ d.frm.tickInLast = some t)) ∧
  (∀ t e, s.dev.coreRuns = true → s.dev.tickInPaces = true → f.running = true → f.tickInLast = some e →
    (e + 2 * s.dev.period ≤ t → GivesWith (.tickInLost t) s fun d => d.frm = { f with tickInLost := true, tickInUse := false } ∧
      d.err.nextSeq = s.dev.err.nextSeq + 1 ∧ d.err.worst = s.dev.err.worst ∧ d.tile = s.dev.tile ∧ d.mem = s.dev.mem) ∧
    (t < e + 2 * s.dev.period → Gives (.tickInLost t) s s.dev)) ∧
  (s.dev.up = true → Gives .tickInLostClear s { s.dev with frm := { f with tickInLost := false } }) ∧
  (∀ t, s.dev.coreRuns = true → f.running = true → f.isOpen = true → s.dev.bellwether = false → s.dev.dbg.frozen = false →
    (s.dev.sys.st = .playing ∨ s.dev.sys.st = .curtain ∨ s.dev.sys.st = .struck) → f.start + 2 * f.planned + 1000 ≤ t →
    GivesWith (.bellwetherLost t) s fun d => d.frm.running = false ∧ d.frm.isOpen = false ∧ d.frm.lanes = [] ∧ d.mesh.disc = 1 ∧
      d.mesh.ownRedisc = s.dev.mesh.ownRedisc + 1 ∧ (d.sys.st = .struck ∨ (s.dev.sys.st ≠ .struck ∧ d.sys.st = .ready))) ∧
  (∀ l, s.dev.coreRuns = true → s.dev.parent = some l → let n := (f.echoNum + 1) % 65536
    GivesWith .echoMeasure s fun d => d.frm = { f with echoNum := n } ∧ d.out = s.dev.out ++ [.unit l (.echo (BitVec.ofNat 16 n))] ∧
      (d.link l).echoAt = s.dev.now ∧ (d.link l).txCount = ((s.dev.link l).txCount + 1) % 65536 ∧ ∀ k, k ≠ l → d.link k = s.dev.link k) ∧
  (s.dev.parent = none → Gives .echoMeasure s s.dev) ∧
  (∀ (slot : BitVec 16) (st : StallInfo), s.dev.coreRuns = true → s.dev.dbg.frozen = false → f.stall = some st → st.on ∉ f.outst →
    let n := slot.toNat - (st.slot + f.stallShift); let m := s.dev.mesh
    let m' : Mesh := if st.on.cause = 2 then { m with cnt := smod m.cnt (16 * st.on.unit + 9) 0 fun c => bumpBy c n, short := setIns m.short (st.on.unit / 12) } else m
    let f' : Machine.Frm := { f with stall := none, stallShift := f.stallShift + n, stallSlots := bumpBy f.stallSlots n, causes := f.causes ||| 2 ^ st.on.cause,
                                     stalledFor := setIns f.stalledFor st.on.cause, units := f.units ++ [(st.on.cause, st.on.unit)] }
    Gives (.stallResume slot) s { s.dev with mesh := m', frm := f' }) ∧
  (∀ (slot : BitVec 16) (st : StallInfo), f.stall = some st → st.on ∈ f.outst → Gives (.stallResume slot) s s.dev) ∧
  let z : Machine.Frm := { f with stretchFrames := 0, stretchTotal := 0, stretchMax := 0, overruns := 0, lastCauses := 0, lastX := 0, lastY := 0,
                                  stretchCause := [], stallCause := [], stallSlots := 0 }
  (s.dev.up = true → Gives .scriptStretchClr s { s.dev with frm := z })

/-- Lanes of a link: lost, dropped for errors, retried, rejoined; the peer's mask; a link retrained; counters.
LANE_LOCK_LOST on a working link with another lane left takes the lane off at once: the link is degraded and out, the
peer is told with NOW 1, the drop is counted and recorded; the fourth drop within 24 hours disables the lane. Without
another working link in the bundle, losing its last lane starts a rediscovery; a device whose BYPASS_N is asserted
stops its frames and keeps its state. With another working link, the loss of the one that faced the tree parent sends
an ECHO on the new one, and so does a retrained link that now faces it. LANE_ERROR_DROP names the mask for the frame
two ahead, NOW 0. LANE_RETRY of a dropped lane that is not disabled rejoins it the same way when it trained, else ends
the retry. LANE sets the mask this device sends on, at once or from its frame, and wakes its bundle's idle lanes where
that leaves the bundle short of lanes, but in PARKED. LANE_IDLE acts on its link alone, and does nothing where it
would idle lanes of a bundle short of lanes; LANE_REALIGNED acts on its link alone. LINK_RETRAIN_DONE brings a link
that is down up on its trained lanes with its flit counts and buffers new. LANE_RETRY of the host asks a retry of
every dropped lane, and MESH_CNT_CLR zeroes the counters. Rests on R359, R364, R370, R371, R373, R374, R380, R423,
R473, R494. -/
def Obligations.LanesDropSwitchAndRejoin : Prop :=
  ∀ (s : State) (link : Fin 48) (lane : Fin 4), let l := s.dev.link link.val; let key := 16 * link.val
    let others (d : Dev) : Prop := ∀ k, k ≠ link.val → d.link k = s.dev.link k
    let only (l' : Link) (d : Dev) : Prop := d.link link.val = l' ∧ others d ∧ { d with mesh := { d.mesh with links := s.dev.mesh.links } } = s.dev
    let had := l.working = true ∧ hasLane l.lanes lane.val = true; let down := l.lanes &&& ~~~ laneBit lane.val
    let base := (l.nextMask.map Prod.fst).getD l.lanes
    let two := (s.dev.frm.frame + 2) % 65536
    let tells (d : Dev) (m : BitVec 4) (now : Bool) : Prop := d.out.getLast? = some (.unit link.val (.lane ⟨m, now, if now then 0 else BitVec.ofNat 16 two⟩))
    let dropped (t : Nat) (d : Dev) : Prop := let n := (l.drops.filter fun x => decide (t < x.2 + dayNs) && x.1 == lane.val).length + 1
      (d.link link.val).disabled = (if n < 4 then l.disabled else l.disabled ||| laneBit lane.val) ∧ d.err.nextSeq = s.dev.err.nextSeq + 1 ∧
      sgetD d.mesh.cnt (key + 5) 0 = bump (sgetD s.dev.mesh.cnt (key + 5) 0) ∧ others d
    s.dev.coreRuns = true →
    (had → (∀ t, down ≠ 0 → l.lanes &&& l.disabled = 0 → GivesWith (.laneLockLost link lane t) s fun d => (d.link link.val).lanes = down ∧
        (d.link link.val).st = 3 ∧ (d.link link.val).outage = true ∧ tells d down true ∧ dropped t d ∧
        sgetD d.mesh.cnt (key + 11) 0 = bump (sgetD s.dev.mesh.cnt (key + 11) 0)) ∧
      (∀ t, down = 0 → s.dev.working (linkDir link.val) = [link.val] → s.dev.sys.bypassN = false → GivesWith (.laneLockLost link lane t) s fun d =>
        d.mesh.disc = 1 ∧ d.mesh.ownRedisc = s.dev.mesh.ownRedisc + 1) ∧
      (∀ t, down = 0 → s.dev.working (linkDir link.val) = [link.val] → s.dev.sys.bypassN = true →
        GivesWith (.laneLockLost link lane t) s fun d =>
          d.frm.running = false ∧ d.frm.isOpen = false ∧ (d.sys.st = s.dev.sys.st ∨ d.sys.st = .struck) ∧ d.mesh.ownRedisc = s.dev.mesh.ownRedisc) ∧
      (∀ t p rest, down = 0 → s.dev.working (linkDir link.val) = link.val :: p :: rest → s.dev.parent = some link.val → s.dev.mesh.disc = 4 →
        GivesWith (.laneLockLost link lane t) s fun d => d.parent = some p ∧ d.frm.echoNum = (s.dev.frm.echoNum + 1) % 65536 ∧
          d.out.getLast? = some (.unit p (.echo (BitVec.ofNat 16 d.frm.echoNum)))) ∧
      (∀ c t, GivesWith (.laneErrorDrop link lane c t) s fun d => (d.link link.val).lanes = l.lanes ∧
        (d.link link.val).nextMask = some (base &&& ~~~ laneBit lane.val, two) ∧ tells d (base &&& ~~~ laneBit lane.val) false ∧ dropped t d)) ∧
    (¬ had → (∀ t, Gives (.laneLockLost link lane t) s s.dev) ∧ ∀ c t, Gives (.laneErrorDrop link lane c t) s s.dev) ∧
    ((l.working = true ∨ l.st = 4) → hasLane l.lanes lane.val = false → hasLane l.disabled lane.val = false → ∀ t,
      (GivesWith (.laneRetry link lane true t) s fun d => let x : Link := { l with retry := l.retry &&& ~~~ laneBit lane.val, nextMask := some (base ||| laneBit lane.val, two) }
        d.link link.val = { x with txCount := (l.txCount + 1) % 65536, replayBuf := (d.link link.val).replayBuf } ∧
        tells d (base ||| laneBit lane.val) false ∧ others d ∧ d.err.nextSeq = s.dev.err.nextSeq + 1 ∧
        sgetD d.mesh.cnt (key + 6) 0 = bump (sgetD s.dev.mesh.cnt (key + 6) 0)) ∧
      GivesWith (.laneRetry link lane false t) s fun d => only { l with retry := l.retry &&& ~~~ laneBit lane.val } { d with now := s.dev.now } ∧ d.now = max s.dev.now t) ∧
    (∀ u, let l' : Link := if u.now then { l with txLanes := u.mask } else { l with nextTx := some (u.mask, u.frame.toNat) }
      let short := s.dev.sys.st != .parked && (s.dev.modLink link.val fun _ => l').bundleShort (linkDir link.val)
      GivesWith (.lane link u) s fun d => { d with mesh := { d.mesh with links := s.dev.mesh.links } } = s.dev ∧
        ∀ k : Fin 48, let x := if k = link then l' else s.dev.link k.val
          d.link k.val = if short = true ∧ linkDir k.val = linkDir link.val then { x with idle := false } else x) ∧
    (∀ b, (b = false ∨ s.dev.bundleShort (linkDir link.val) = false → GivesWith (.laneIdle link b) s (only (if l.working then { l with idle := b } else l))) ∧
      (b = true → s.dev.bundleShort (linkDir link.val) = true → Gives (.laneIdle link b) s s.dev)) ∧
    GivesWith (.laneRealigned link) s (only { l with outage := false }) ∧
    (∀ m, let m' := m &&& ~~~ l.disabled
      (l.st ≠ 4 ∨ m' = 0 → Gives (.linkRetrainDone link m) s s.dev) ∧
      (l.st = 4 → m' ≠ 0 → GivesWith (.linkRetrainDone link m) s fun d => let x := d.link link.val
        x.lanes = m' ∧ x.txLanes = m' ∧ x.st = (if m' = 0xF then 2 else 3) ∧ x.rxCount = 0 ∧ x.held = [] ∧ x.rx = [] ∧ x.disabled = l.disabled ∧
        (d.parent = s.dev.parent ∨ s.dev.mesh.disc ≠ 4 → x.txCount = 0 ∧ x.replayBuf = [] ∧ others d ∧
          { d with mesh := { d.mesh with links := s.dev.mesh.links } } = s.dev) ∧
        (∀ p, d.parent = some p → s.dev.parent ≠ some p → s.dev.mesh.disc = 4 → d.frm.echoNum = (s.dev.frm.echoNum + 1) % 65536 ∧
          d.out = s.dev.out ++ [.unit p (.echo (BitVec.ofNat 16 d.frm.echoNum))] ∧ d.mem = s.dev.mem))) ∧
    (s.dev.up = true → GivesWith .meshLaneRetry s (fun d => { d with mesh := { d.mesh with links := s.dev.mesh.links } } = s.dev ∧
        ∀ n, let x := s.dev.link n; d.link n = if x.working || x.st == 4 then { x with retry := ~~~ x.lanes &&& ~~~ x.disabled } else x) ∧
      Gives .meshCntClr s { s.dev with mesh := { s.dev.mesh with cnt := [] } })

/-- A control unit's 16 bytes give the unit back, for every unit type and every field value. For every control unit of a
type the table of R360 lists, with every field at every value its width admits, and for every unit of a reserved type
code, the unit takes 16 bytes and reading them gives the unit back. Rests on R360. -/
def Obligations.ControlUnitsKeepEveryField : Prop :=
  ∀ u : CtlUnit, (∀ t, u = .reserved t → t.toNat ∉ [1, 2, 3, 4, 5, 6, 7, 8, 9, 10, 11, 16, 17, 18, 19, 20, 21, 22, 23, 24, 25, 32, 33, 34, 35, 36]) →
    u.bytes.length = 16 ∧ parseUnit u.bytes = u

/-- ACK, NAK, REPLAY, SPILL, ECHO, ECHO_REPLY, FREEZE, THAW and reserved units. With the core running. ACK takes the flits
it covers out of the replay buffer and lets waiting ones go; NAK of a kept flit sends REPLAY and that flit again,
counted; REPLAY names the next flit; SPILL adds its run. ECHO is answered. An ECHO_REPLY is summed and the next ECHO
goes out; the sixteenth gives the delay, and a delay above 90 ns turns the link off with a record. The first FREEZE of
an origin and sequence is recorded as a remote hold and freezes a device in PLAYING or CURTAIN; THAW drops the hold,
and the last hold gone returns the device to the state it left, the open frame later by the time it stood, and LEARN
to begin at the next boundary, while frames run; a unit seen before changes nothing. A reserved unit is counted. Rests
on R34, R359, R360, R365, R368, R372, R375, R468, R469, R470. -/
def Obligations.LinkUnitsActOnTheirLink : Prop :=
  ∀ (s : State) (link : Fin 48), let l := s.dev.link link.val; let key := 16 * link.val
    let others (d : Dev) : Prop := ∀ k, k ≠ link.val → d.link k = s.dev.link k
    let only (l' : Link) (d : Dev) : Prop := d.link link.val = l' ∧ others d ∧ { d with mesh := { d.mesh with links := s.dev.mesh.links } } = s.dev
    s.dev.coreRuns = true →
    (∀ n : BitVec 16, (∀ i, l.replayBuf.findIdx? (fun f => f.1 == n.toNat) = some i →
        (l.txWait = [] → GivesWith (.ack link n) s (only { l with replayBuf := l.replayBuf.drop (i + 1) })) ∧
        GivesWith (.ack link n) s fun d => (d.link link.val).txWait = l.txWait.drop (64 - (l.replayBuf.drop (i + 1)).length) ∧ others d ∧ d.mem = s.dev.mem) ∧
      ((∀ f ∈ l.replayBuf, f.1 ≠ n.toNat) → Gives (.ack link n) s s.dev ∧ Gives (.nak link n) s s.dev) ∧
      (∀ f, l.replayBuf.find? (fun f => f.1 == n.toNat) = some f → Gives (.nak link n) s
        { s.dev with mesh := { s.dev.mesh with cnt := smod s.dev.mesh.cnt (key + 3) 0 bump },
                     out := s.dev.out ++ [.unit link.val (.replay n), .resend link.val f.2] }) ∧
      GivesWith (.replay link n) s (only { l with replayNext := some n.toNat })) ∧
    (∀ u, GivesWith (.spill link u) s (only { l with runs := l.runs ++ [u] })) ∧
    (∀ n, (l.working = true → GivesWith (.echo link n) s fun d => d.out = s.dev.out ++ [.unit link.val (.echoReply n 0)] ∧ others d ∧
        (d.link link.val).txCount = (l.txCount + 1) % 65536) ∧ (l.working = false → Gives (.echo link n) s s.dev)) ∧
    (∀ (n turn : BitVec 16) (rt : Nat), let sum := l.echoSum + (rt - turn.toNat); let one := min 65535 (sum / 32); let now := min 65535 ((rt - turn.toNat) / 2)
      (l.working = false → Gives (.echoReply link n turn rt) s s.dev) ∧
      (l.working = true → l.echoN < 15 → GivesWith (.echoReply link n turn rt) s fun d => (d.link link.val).echoSum = sum ∧ (d.link link.val).echoN = l.echoN + 1 ∧
        others d ∧ d.frm.echoNum = (s.dev.frm.echoNum + 1) % 65536 ∧ d.out = s.dev.out ++ [.unit link.val (.echo (BitVec.ofNat 16 d.frm.echoNum))]) ∧
      (l.working = true → l.echoN = 15 → (one ≤ 9000 → GivesWith (.echoReply link n turn rt) s (only { l with echoSum := sum, echoN := 16, delay := one })) ∧
        (9000 < one → GivesWith (.echoReply link n turn rt) s fun d => (d.link link.val).st = 6 ∧ (d.link link.val).lanes = 0 ∧ others d ∧
          (d.link link.val).delay = one ∧ d.err.nextSeq = s.dev.err.nextSeq + 1)) ∧
      (l.working = true → 16 ≤ l.echoN → GivesWith (.echoReply link n turn rt) s fun d => (d.link link.val).delay = now ∧ others d ∧
        d.frm.pathTarget = (if s.dev.fromParent link.val then s.dev.mesh.parentPath + (now + 50) / 100 else s.dev.frm.pathTarget))) ∧
    (∀ (u : FloodInfo) (t : Nat), let b := s.dev.dbg; let rest := b.remote.filter fun r => r != (u.origin, u.seq)
      (l.working = false ∨ (false, u.origin, u.seq) ∈ b.seen → Gives (.freeze link u t) s s.dev) ∧
      (l.working = false ∨ (true, u.origin, u.seq) ∈ b.seen → Gives (.thaw link u t) s s.dev) ∧
      (l.working = true → (false, u.origin, u.seq) ∉ b.seen → GivesWith (.freeze link u t) s fun d => d.dbg.remote = b.remote ++ [(u.origin, u.seq)] ∧
        (false, u.origin, u.seq) ∈ d.dbg.seen ∧ d.dbg.cause = u.cause.toNat ∧ d.now = max s.dev.now t ∧
        (b.frozen = false → s.dev.sys.st = .playing ∨ s.dev.sys.st = .curtain → d.sys.st = .frozen ∧ d.sys.frozenFrom = s.dev.sys.st ∧ d.dbg.frozen = true) ∧
        (s.dev.sys.st ≠ .playing → s.dev.sys.st ≠ .curtain → d.sys.st = s.dev.sys.st)) ∧
      (l.working = true → (true, u.origin, u.seq) ∉ b.seen → GivesWith (.thaw link u t) s fun d => d.dbg.remote = rest ∧ (true, u.origin, u.seq) ∈ d.dbg.seen ∧
        (b.ownHeld = false → rest = [] → b.frozen = true → d.dbg.frozen = false ∧
          (s.dev.frm.running = true → d.tile.modeReq = some 4 ∧ d.frm.start = s.dev.frm.start + (max s.dev.now t - b.frozenAt)) ∧
          d.sys.st = (if s.dev.sys.st = .frozen then s.dev.sys.frozenFrom else s.dev.sys.st)))) ∧
    (∀ c, Gives (.controlUnitReserved link c) s { s.dev with mesh := { s.dev.mesh with cnt := smod s.dev.mesh.cnt (key + 10) 0 bump } })

/-- FLIT_RECEIVE: kinds, a flit in order, a failed flit, flits held behind it; and the two CRC values never agree. For no
body do the data and the control CRC agree. On a link that carries traffic or trains, with no resent flit expected: a
data flit in order without a failed flit before it adds its 32 units to the link's own stream, advances the count, and
every sixteenth is acknowledged. A flit that is uncorrectable, matches neither CRC or is not 512 bytes long advances
the count, is held as failed and answered by NAK with its count. A good flit behind a failed one is held. A control
flit whose one control unit is REPLAY does not advance the count, and names the flit that comes next. Corrected
symbols are counted. Rests on R356, R357, R358, R359. -/
def Obligations.FlitsArriveInOrderOrAreHeld : Prop :=
  (∀ body : List Byte, flitCrc true body ≠ flitCrc false body) ∧
  ∀ (s : State) (link : Fin 48) (body : List Byte) (crc : BitVec 16) (n t : Nat), let l := s.dev.link link.val; let key := 16 * link.val
    let others (d : Dev) : Prop := ∀ k, k ≠ link.val → d.link k = s.dev.link k
    let count (d : Dev) : Prop := (d.link link.val).rxCount = (l.rxCount + 1) % 65536 ∧ others d ∧ sgetD d.mesh.cnt key 0 = bumpBy (sgetD s.dev.mesh.cnt key 0) n
    let good := body.length = 512 ∧ (crc = flitCrc true body ∨ crc = flitCrc false body)
    s.dev.coreRuns = true → l.working = true ∨ l.st = 1 → l.replayNext = none →
    (body.length = 512 → crc = flitCrc false body → l.held = [] → l.runs = [] → GivesWith (.flitReceive link body crc n false t) s fun d => count d ∧
      (d.link link.val).rx = l.rx ++ flitUnits ⟨body, crc⟩ ∧ (d.link link.val).sinceAck = (if l.sinceAck + 1 < 16 then l.sinceAck + 1 else 0) ∧
      d.out = s.dev.out ++ (if l.sinceAck + 1 < 16 then [] else [.unit link.val (.ack (BitVec.ofNat 16 l.rxCount))]) ∧ d.mem = s.dev.mem) ∧
    (body.length = 512 → crc = flitCrc false body → l.held ≠ [] → GivesWith (.flitReceive link body crc n false t) s fun d => count d ∧
      (d.link link.val).held = l.held ++ [(l.rxCount, some ⟨body, crc⟩, 0)] ∧ (d.link link.val).rx = l.rx ∧ d.out = s.dev.out) ∧
    (∀ u, u = true ∨ ¬ good → GivesWith (.flitReceive link body crc n u t) s fun d => count d ∧
      (d.link link.val).held = l.held ++ [(l.rxCount, none, 1)] ∧ d.out = s.dev.out ++ [.unit link.val (.nak (BitVec.ofNat 16 l.rxCount))] ∧
      sgetD d.mesh.cnt (key + (if u then 1 else 2)) 0 = bump (sgetD s.dev.mesh.cnt (key + (if u then 1 else 2)) 0)) ∧
    (∀ r : BitVec 16, body.length = 512 → (⟨body, crc⟩ : Flit).control = [.replay r] → l.runs = [] → GivesWith (.flitReceive link body crc n false t) s fun d =>
      (d.link link.val).rxCount = l.rxCount ∧ (d.link link.val).replayNext = some r.toNat ∧ others d ∧ d.out = s.dev.out ∧ d.mem = s.dev.mem)

/-- LINK_SEND, LINK_RECEIVE and LINK_FORWARD: what is sent, what arrives in the lanes, and what waits. After a fatal error
none of them does anything. Otherwise, for a well-formed link record, LINK_SEND and LINK_FORWARD while link cues are
performed, LINK_RECEIVE in an open frame also during a stall, the detector off. LINK_SEND without a present or skipped
lane, and from a STRUCK device, sends one EMPTY header unit. With present lanes whose buffers may be read and are not
outstanding it sends header, lane status, descriptors and payload; one that is outstanding stalls. Up to 32 units on a
working link with room and no spill leave as one data flit. LINK_RECEIVE of a transfer that is not there or not on
time makes its range outstanding; a broken one is dropped with a record and the steps of its lanes are discarded; a
whole one on time is taken from the link, every lane of the record is emptied, and in a device that is not STRUCK each
present lane whose step lives and whose bank may be written gets its token and its bytes. LINK_FORWARD sends a whole
transfer on and writes nothing. Rests on R342, R343, R334, R367, R369, R372, R401, R409, R412. -/
def Obligations.TransfersCrossTheirLinks : Prop :=
  ∀ (s : State) (r : LinkRec), r.wf false = true → s.dev.hazActive = false → let link := r.link.toNat; let num := r.transfer.toNat
    let map := (s.dev.recLanes r false).getD ⟨0, 0, 0, 0, 0⟩; let lanes := (List.range map.count).map (map.first + ·)
    let per := payloadUnits r.bytes.toNat map.count
    let toks := (lanes.filter fun n => !s.dev.frm.skipped.contains n).filterMap fun n => (s.dev.lane n).map fun t => (n, t)
    let buf (p : Nat × Tok) : Nat := s.dev.laneBuf p.1 p.2.tenant; let none_ := toks = [] ∧ ∀ n ∈ lanes, n ∉ s.dev.frm.skipped
    let receives := s.dev.err.fatal = none ∧ s.dev.coreRuns = true ∧ s.dev.frm.isOpen = true ∧ s.dev.dbg.frozen = false ∧
      (s.dev.sys.st = .playing ∨ s.dev.sys.st = .curtain ∨ s.dev.sys.st = .struck)
    (s.dev.linkCues = true → s.dev.sys.st = .struck ∨ none_ →
      Gives (.linkSend r) s (s.dev.sendTransfer link num [headerUnit num map.count true 1])) ∧
    (s.dev.linkCues = true → s.dev.sys.st ≠ .struck → ¬ none_ → (∀ p ∈ toks, s.dev.outstanding true (buf p) (16 * per) = none ∧ s.dev.refusedBank p.2.tenant false (buf p) (16 * per) = none) →
      let us := statusUnits (lanes.map fun n => if s.dev.frm.skipped.contains n then 2 else if (s.dev.lane n).isSome then 0 else 1) ++
        toks.map (fun p => leBytes 16 p.2.desc) ++ toks.flatMap fun p => groups 16 per (rdN s.dev.mem.wings (buf p) (16 * per))
      Gives (.linkSend r) s (s.dev.sendTransfer link num (headerUnit num map.count false (us.length + 1) :: us))) ∧
    (∀ p o, s.dev.linkCues = true → s.dev.sys.st ≠ .struck → toks.head? = some p → s.dev.outstanding true (buf p) (16 * per) = some o →
      GivesWith (.linkSend r) s fun d => d.frm.stall = some ⟨o, r.first.toNat⟩ ∧ { d with frm := { d.frm with stall := s.dev.frm.stall } } = s.dev) ∧
    (∀ us : List (List Byte), us ≠ [] → us.length ≤ 32 → (s.dev.link link).working = true → (s.dev.link link).txWait = [] →
      (s.dev.link link).replayBuf.length < 64 → s.dev.spillRuns (linkDir link) num = [] → let d := s.dev.sendTransfer link num us
      d.out = s.dev.out ++ [.flit link (unitFlit false us)] ∧ (d.link link).replayBuf.getLast? = some ((s.dev.link link).txCount, unitFlit false us) ∧
      (d.link link).txCount = ((s.dev.link link).txCount + 1) % 65536 ∧ d.mem = s.dev.mem ∧ d.frm = s.dev.frm ∧ ∀ k, k ≠ link → d.link k = s.dev.link k) ∧
    (∀ late, receives → s.dev.collect r = .incomplete ∨ (late ≠ .onTime ∧ ∃ us rest, s.dev.collect r = .whole us rest) → GivesWith (.linkReceive r late) s fun d => let rest := s.dev.frm.outst.filter fun o => o.num != r.num.toNat
      d.frm.outst = rest ++ [⟨true, r.wings.toNat, r.wings.toNat + r.bytes.toNat, s.dev.lateCause link late, link, r.num.toNat⟩] ∧ d.mem = s.dev.mem ∧
      d.frm.lanes = s.dev.frm.lanes ∧ d.mesh.links = s.dev.mesh.links) ∧
    (∀ us rest, receives → s.dev.collect r = .broken us rest → ∀ late, GivesWith (.linkReceive r late) s fun d => (d.link link).rx = rest ∧
      d.err.nextSeq = s.dev.err.nextSeq + 1 ∧ d.mem = s.dev.mem ∧ (∀ t ∈ s.dev.streamToks us, d.frm.lanesOf t.2.2.ex t.2.2.ey t.2.2.session = []) ∧
      ∀ o ∈ d.frm.outst, o.num ≠ r.num.toNat) ∧
    (∀ us rest, s.dev.collect r = .whole us rest → let first := ((s.dev.recLanes r true).getD ⟨0, 0, 1, 0, 0⟩).first; let h := us.getD 0 []
      let n := min 4096 (leAt h 3 2); let got := s.dev.streamToks us; let size := (us.length - 1 - ceilDiv n 64 - got.length) / max 1 got.length
      let data (t : Nat × Nat × Tok) : List Byte := (slice us (1 + ceilDiv n 64 + got.length + t.2.1 * size) size).flatten
      sparseWf s.dev.frm.lanes = true →
      (receives → (s.dev.sys.st = .struck ∨ bit (leAt h 5 1) 0 = true) → GivesWith (.linkReceive r .onTime) s fun d => (∀ i < n, d.lane (first + i) = none) ∧
        (∀ k, k < first ∨ first + n ≤ k → d.lane k = s.dev.lane k) ∧ (d.link link).rx = rest ∧ d.mem = s.dev.mem) ∧
      (receives → s.dev.sys.st ≠ .struck → bit (leAt h 5 1) 0 = false →
        (∀ t ∈ got, s.dev.discarding t.2.2.step = false ∧ s.dev.refusedBank t.2.2.tenant true (s.dev.laneBuf (first + t.1) t.2.2.tenant) (data t).length = none) →
        GivesWith (.linkReceive r .onTime) s fun d => (∀ i < n, d.lane (first + i) = (got.find? fun t => t.1 == i).map fun t => t.2.2) ∧
          (∀ k, k < first ∨ first + n ≤ k → d.lane k = s.dev.lane k) ∧ (d.link link).rx = rest ∧
          d.mem = { s.dev.mem with wings := got.foldl (fun w t => wrN w (s.dev.laneBuf (first + t.1) t.2.2.tenant) (data t)) s.dev.mem.wings } ∧
          ∀ o ∈ d.frm.outst, o.num ≠ r.num.toNat) ∧
      (r.wf true = true → s.dev.linkCues = true → GivesWith (.linkForward r) s fun d => d = (s.dev.takeXfer r rest).sendTransfer r.outLink.toNat num us ∧
        d.mem = s.dev.mem ∧ d.frm = s.dev.frm)) ∧
    (r.wf true = true → s.dev.collect r = .incomplete → Gives (.linkForward r) s s.dev) ∧
    (s.dev.err.fatal.isSome = true → Gives (.linkSend r) s s.dev ∧ (∀ late, Gives (.linkReceive r late) s s.dev) ∧ (r.wf true = true → Gives (.linkForward r) s s.dev))

/-- Discovery: how it begins, HELLO, DISCOVER, REPORT and HERD, an ORPHAN, and MESH_ID. For a device that is up.
MESH_CTRL.REDISCOVER begins a discovery: frames end, PLAYING, CURTAIN and PARKED become READY (STRUCK where a drain
begins then), every remote hold is dropped, MESH_ID takes effect, the links train; script, weights and KV pages are
kept. A REDISCOVER unit of an origin and sequence not seen before begins one too, otherwise it changes nothing. HELLO
goes out on every training link. A HELLO of the herd that the discovery set, the same link index and a partner 1 or 2
away in the bundle's direction brings the link up on its good lanes; any other leaves it MISWIRED with a record.
DISCOVER_LAUNCH starts the collection on the bellwether with path 0. The first DISCOVER from the parent sets the path
delay and sends REPORT up; others are remembered. REPORTs are collected or forwarded. HERD sets L, the result and the
devices; result 0 starts frames where a script with its weights waits, and results 2 to 5 unload the script. ORPHAN
and MESH_ID writes act as written. Rests on R30, R31, R36, R316, R363, R364, R365, R368. -/
def Obligations.DiscoveryFormsTheHerd : Prop :=
  ∀ s : State, s.dev.up = true → let m := s.dev.mesh
    let others (link : Nat) (d : Dev) : Prop := ∀ k, k ≠ link → d.link k = s.dev.link k
    let begins (d : Dev) : Prop := d.mesh.disc = 1 ∧ d.frm.running = false ∧ d.frm.isOpen = false ∧ d.mesh.at_ = (if m.herd = 0xFF then none else some ⟨m.x, m.y⟩) ∧ d.mesh.herdAt = m.herd ∧
      (∀ n < 48, (d.link n).st = if (s.dev.link n).st = 7 then 7 else 1) ∧ d.scr = s.dev.scr ∧ d.wts.cur = s.dev.wts.cur ∧ d.kv.refs = s.dev.kv.refs ∧
      d.dbg.remote = [] ∧ (s.dev.inPlay = true ∨ s.dev.sys.st = .parked → d.sys.st = .ready ∨ d.sys.st = .struck)
    let formed (lat result devices first : Nat) (d : Dev) : Prop :=
      d.frm.lat = lat ∧ d.mesh.result = result ∧ d.mesh.devices = devices ∧ d.mesh.discCount = bump m.discCount ∧
      d.mesh.disc = (if result = 0 ∨ result = 6 ∨ result = 7 then 4 else 6) ∧ d.wts.mismatch = (result == 6) ∧
      (2 ≤ result → result ≤ 5 → d.scr.script = none) ∧
      (result = 0 → s.dev.scr.script.isSome = true → s.dev.curOk = true → s.dev.sys.st = .ready ∨ s.dev.sys.st = .struck →
        d.frm.running = true ∧ d.frm.frame = first ∧ d.frm.played = 0 ∧ d.frm.planned = s.dev.period ∧ d.scr = s.dev.scr)
    GivesWith .meshRediscover s begins ∧
    (∀ (link : Fin 48) (u : FloodInfo), let ok := (s.dev.link link.val).working = true ∧ (u.origin, u.seq) ∉ m.seenRedisc
      (ok → GivesWith (.rediscover link u) s fun d => begins d ∧ (u.origin, u.seq) ∈ d.mesh.seenRedisc) ∧ (¬ ok → Gives (.rediscover link u) s s.dev)) ∧
    (s.dev.sys.switches = false → (m.disc = 1 → GivesWith .discoveryStart s fun d => d.mesh.disc = 2 ∧ d.sys = s.dev.sys ∧
        ∀ n < 48, ((s.dev.link n).st = 1 → (d.link n).txCount = ((s.dev.link n).txCount + 1) % 65536) ∧ ((s.dev.link n).st ≠ 1 → d.link n = s.dev.link n)) ∧
      (m.disc = 0 ∨ m.disc = 5 → GivesWith .discoveryStart s fun d => d.mesh.disc = 2 ∧ d.frm.running = false)) ∧
    (m.disc ∉ [0, 1, 5] → Gives .discoveryStart s s.dev) ∧
    (∀ (link : Fin 48) (u : HelloInfo), let l := s.dev.link link.val; let dist := helloDist (linkDir link.val) s.dev.coord u.at_
      let good := u.herd = m.herdAt ∧ u.index.toNat = link.val % 12 ∧ dist.isSome = true
      (s.dev.sys.switches = true ∨ l.st = 7 → Gives (.hello link u) s s.dev) ∧
      (s.dev.sys.switches = false → l.st ≠ 7 → good → (m.disc ≠ 4 ∨ l.bypassed = false ∨ dist ≠ some 1) → GivesWith (.hello link u) s fun d =>
        let x := d.link link.val
        x.st = (if l.disabled = 0xF then 7 else if l.disabled = 0 then 2 else 3) ∧ x.lanes = ~~~ l.disabled ∧ x.partX = u.at_.x ∧ x.partY = u.at_.y ∧ x.partK = u.index ∧
        x.bypassed = (dist == some 2) ∧ x.echoN = 0 ∧ others link.val d ∧ d.mesh.disc = m.disc) ∧
      (s.dev.sys.switches = false → l.st ≠ 7 → good → m.disc = 4 → l.bypassed = true → dist = some 1 → GivesWith (.hello link u) s fun d => d.mesh.disc = 1 ∧
        d.frm.running = false) ∧
      (s.dev.sys.switches = false → l.st ≠ 7 → ¬ good → GivesWith (.hello link u) s fun d => (d.link link.val).st = 5 ∧ (d.link link.val).lanes = 0 ∧
        others link.val d ∧ d.err.nextSeq = s.dev.err.nextSeq + 1)) ∧
    (s.dev.bellwether = true → m.disc = 2 → GivesWith .discoverLaunch s fun d => d.mesh.disc = 3 ∧ d.frm.path = 0 ∧ d.frm.pathTarget = 0 ∧ d.mesh.parentPath = 0 ∧
      d.mesh.round = m.round + 1 ∧ d.mesh.discovers = [identityDigest] ∧ d.mesh.reports.map (fun r => (r.at_, r.path)) = [(s.dev.coord, 0)]) ∧
    (s.dev.bellwether = false ∨ m.disc ≠ 2 → Gives .discoverLaunch s s.dev) ∧
    (∀ (link : Fin 48) (pp : BitVec 16) (g : BitVec 64) (rd : BitVec 8), m.at_.isSome = true → (s.dev.link link.val).working = true →
      let gs := if g ∈ m.discovers then m.discovers else m.discovers ++ [g]; let path := pp.toNat + tenPsNs (s.dev.link link.val).delay
      (m.disc ≠ 2 ∨ s.dev.fromParent link.val = false → Gives (.discover link m.herdAt pp g rd) s { s.dev with mesh := { m with discovers := gs } }) ∧
      (m.disc = 2 → ∀ p, s.dev.parent = some p → linkDir p = linkDir link.val → GivesWith (.discover link m.herdAt pp g rd) s fun d => d.mesh.disc = 3 ∧
        d.frm.path = path ∧ d.frm.pathTarget = path ∧ d.mesh.parentPath = pp.toNat ∧ d.mesh.round = rd ∧ d.mesh.discovers = gs ∧
        ∃ r : ReportInfo, d.out.getLast? = some (.unit p (.report r)) ∧ r.at_ = s.dev.coord ∧ r.path = BitVec.ofNat 16 path ∧ r.loaded = s.dev.scr.script.isSome)) ∧
    (∀ (link : Fin 48) (u : ReportInfo), m.disc = 3 → s.dev.fromChild link.val = true →
      (s.dev.bellwether = true → Gives (.report link u) s { s.dev with mesh := { m with reports := m.reports ++ [u] } }) ∧
      (s.dev.bellwether = false → ∀ p, s.dev.parent = some p → GivesWith (.report link u) s fun d => d.out = s.dev.out ++ [.unit p (.report u)] ∧ d.mesh.reports = m.reports)) ∧
    (s.dev.bellwether = true → m.disc = 3 → GivesWith .herdIssue s (formed (herdLat m.reports % 65536) s.dev.herdResult (min 256 m.reports.length) (s.dev.frm.next % 2 ^ 64))) ∧
    (∀ (link : Fin 48) (u : HerdInfo), m.disc = 3 → s.dev.fromParent link.val = true → u.result.toNat < 8 →
      GivesWith (.herd link u) s (formed u.lat.toNat u.result.toNat u.devices.toNat u.first.toNat)) ∧
    (s.dev.bellwether = false → m.at_.isSome = true → m.disc = 2 → Gives .orphan s { s.dev with mesh := { m with disc := 5 } }) ∧
    (∀ (herd : BitVec 8) (x y : BitVec 4) (lock : Bool), let free := s.dev.sys.st = .ready ∧ s.dev.scr.script = none ∧ m.lock = false
      (free → Gives (.meshIdWrite herd x y lock) s { s.dev with mesh := { m with herd := herd, x := x, y := y, lock := lock } }) ∧
      (¬ free → Gives (.meshIdWrite herd x y lock) s { s.dev with mesh := { m with lock := m.lock || lock } }))

/-- Curtain, unload and park: asked for, named down the tree, drained, rewritten, raised. For a device that is up. On the
bellwether in PLAYING with no drain wanted, named or begun, CURTAIN_LOWER, SCRIPT_UNLOAD and GEN_PARK ask for their
drain; elsewhere in PLAYING they do nothing. CURTAIN, UNLOAD and PARK from the parent note the frame from which the
device drains, RAISE and STOP their boundary, each sent on to every child; from any other link they do nothing.
DRAINED of a child is held. DRAINED_SEND, once the drain is complete here, sends DRAINED up; on the bellwether it
sends REWRITE under a curtain that is not abandoned, else STOP naming the second boundary ahead; before that it does
nothing. REWRITE from the parent goes on, and the device rewrites the sections that differ, or awaits a manifest.
CURTAIN_READY of a child is held, and a failure reaches the bellwether's PHASE. CURTAIN_READY_SEND says at once that
this device failed, or that all is done once every section, in-place refresh and child is, or that a child failed.
CURTAIN_ABANDON before REWRITE withdraws a curtain not yet named, and sends RAISE naming the next frame for one that
is lowered. Rests on R304, R305, R306, R317, R472. -/
def Obligations.HerdSequencesFollowTheTree : Prop :=
  ∀ s : State, s.dev.up = true → let f := s.dev.frm; let w := s.dev.wts
    let free := f.want = none ∧ f.drain = none ∧ f.draining = none
    let sent (u : CtlUnit) (d : Dev) : Prop := d.out = s.dev.out ++ s.dev.children.map fun c => .unit c u
    let up (u : CtlUnit) (d : Dev) : Prop := ∀ p, s.dev.parent = some p → d.out = s.dev.out ++ [.unit p u]
    let want (k : DrainKind) : Machine.Frm := { f with want := some k }
    (s.dev.sys.st = .playing → s.dev.bellwether = true → free → (∀ t, Gives (.curtainLower t) s { s.dev with now := max s.dev.now t, frm := want .curtain }) ∧
      (s.dev.scr.script.isSome = true → Gives .scriptUnload s { s.dev with frm := want .unload }) ∧ Gives .genPark s { s.dev with frm := want .park }) ∧
    (s.dev.sys.st = .playing → s.dev.bellwether = false → (∀ t, Gives (.curtainLower t) s s.dev) ∧ Gives .scriptUnload s s.dev ∧ Gives .genPark s s.dev) ∧
    (∀ (link : Fin 48) (g : BitVec 16), f.running = true → s.dev.fromParent link.val = true →
      (GivesWith (.curtain link g) s fun d => sent (.curtain g) d ∧ d.frm = { f with drain := some (.curtain, g.toNat) } ∧ d.wts = { w with loweredAt := s.dev.now }) ∧
      (GivesWith (.unload link g) s fun d => sent (.unload g) d ∧ d.frm = { f with drain := some (.unload, g.toNat) } ∧ d.wts = w) ∧
      (GivesWith (.park link g) s fun d => sent (.park g) d ∧ d.frm = { f with drain := some (.park, g.toNat) } ∧ d.wts = w) ∧
      (GivesWith (.raise link g) s fun d => sent (.raise g) d ∧ d.frm = f ∧ d.wts = { w with raiseAt := some g.toNat }) ∧
      (GivesWith (.stop link g) s fun d => sent (.stop g) d ∧ d.frm = { f with stopAt := some g.toNat } ∧ d.wts = w)) ∧
    (∀ (link : Fin 48) (g : BitVec 16), s.dev.fromParent link.val = false → ∀ c ∈ [Instr.curtain link g, .unload link g, .park link g, .raise link g, .stop link g, .rewrite link],
      Gives c s s.dev) ∧
    (∀ link : Fin 48, s.dev.fromChild link.val = true → Gives (.drained link) s { s.dev with frm := { f with drainedHeld := setIns f.drainedHeld link.val } }) ∧
    (∀ k, f.draining = some k → (s.dev.drainedHere k = false → Gives .drainedSend s s.dev) ∧
      (s.dev.drainedHere k = true → f.drainedSent = false → s.dev.dbg.frozen = false →
        (s.dev.bellwether = false → GivesWith .drainedSend s fun d => up .drained d ∧ d.frm = { f with drainedSent := true } ∧ d.wts = w) ∧
        (s.dev.bellwether = true → k ≠ .curtain → let n := (f.frame + 2) % 65536
          GivesWith .drainedSend s fun d => sent (.stop (BitVec.ofNat 16 n)) d ∧ d.frm = { f with drainedSent := true, stopAt := some n }) ∧
        (s.dev.bellwether = true → k = .curtain → w.raiseAt = none → GivesWith .drainedSend s fun d => sent .rewrite d ∧
          d.frm = { f with drainedSent := true } ∧ d.wts.rewriteSent = true ∧ d.wts.phase = (if w.next.isSome then 3 else 2)))) ∧
    (f.draining = none → Gives .drainedSend s s.dev) ∧
    (∀ link : Fin 48, s.dev.fromParent link.val = true → f.running = true → f.draining = some .curtain → GivesWith (.rewrite link) s fun d => sent .rewrite d ∧ d.frm = f ∧
      d.wts = { w with rewriteSent := true, phase := if w.next.isSome then 3 else 2, own := if w.next.isSome then w.toRewrite true else [], ownBegun := [] }) ∧
    (∀ (link : Fin 48) (failure : Bool) (c : Coord), s.dev.fromChild link.val = true → GivesWith (.curtainReady link failure c) s fun d =>
      d.wts.ready = w.ready.filter (fun r => linkDir r.1 != linkDir link.val) ++ [(link.val, failure, c.x.toNat, c.y.toNat)] ∧
      (failure = true → s.dev.bellwether = true → d.wts.phase = 5 ∧ d.wts.failX = c.x.toNat ∧ d.wts.failY = c.y.toNat) ∧
      (failure = false ∨ s.dev.bellwether = false → d.wts.phase = w.phase) ∧ { d with wts := w } = s.dev) ∧
    (w.readySent = false → w.rewriteSent = true → s.dev.dbg.frozen = false →
      (w.failed = true ∨ s.dev.sys.st = .struck → GivesWith .curtainReadySend s fun d => d.wts.readySent = true ∧ d.tile = s.dev.tile ∧
        (s.dev.bellwether = true → d.wts.phase = 5 ∧ d.wts.failX = s.dev.coord.x.toNat ∧ d.wts.failY = s.dev.coord.y.toNat) ∧
        (s.dev.bellwether = false → up (.curtainReady true s.dev.coord) d)) ∧
      (w.failed = false → s.dev.sys.st ≠ .struck → w.phase = 3 → w.own = [] → w.job = none → w.toRewrite false = [] → s.dev.allChildren (w.ready.map Prod.fst) = true →
        s.dev.curtainDue = [] → s.dev.tile.loads = false → w.toCount = [] →
        ((∀ r ∈ w.ready, r.2.1 = false) → GivesWith .curtainReadySend s fun d => d.wts = { w with readySent := true, phase := 4 } ∧
          (s.dev.bellwether = false → up (.curtainReady false ⟨0, 0⟩) d)) ∧
        (∀ r, w.ready.find? (fun r => r.2.1) = some r → GivesWith .curtainReadySend s fun d => d.wts = { w with readySent := true } ∧
          (s.dev.bellwether = false → up (.curtainReady true ⟨BitVec.ofNat 4 r.2.2.1, BitVec.ofNat 4 r.2.2.2⟩) d))) ∧
      (w.failed = false → s.dev.sys.st ≠ .struck → w.phase ≠ 3 ∨ w.own ≠ [] ∨ w.job.isSome = true ∨ w.toRewrite false ≠ [] ∨ s.dev.allChildren (w.ready.map Prod.fst) = false → Gives .curtainReadySend s s.dev)) ∧
    (s.dev.bellwether = true → w.rewriteSent = false → (f.want = some .curtain → Gives .curtainAbandon s { s.dev with frm := { f with want := none } }) ∧
      (f.want = none → f.draining = some .curtain ∨ (∃ g, f.drain = some (.curtain, g)) → w.raiseAt = none → let h := BitVec.ofNat 16 (f.frame + 1)
        GivesWith .curtainAbandon s fun d => sent (.raise h) d ∧ d.frm = f ∧ d.wts = { w with raiseAt := some h.toNat })) ∧
    (s.dev.bellwether = false ∨ w.rewriteSent = true → Gives .curtainAbandon s s.dev)

/-- PARKED: entered from READY, left by a wake alone or over the herd; AWAKE; self-refresh; unload in READY. For a device
that is up. GEN_PARK in READY parks the device alone: history is committed, every HBM stack is in self-refresh, links
idle; memory, script, sessions and weights are kept. GEN_WAKE of a device parked alone returns it to READY (STRUCK
where paused work that goes on makes a unit suspect); in a parked herd the bellwether sends WAKE down and begins to
leave the power state, another device sends WAKE up; a wake during the park sequence, the host's or a child's, is
remembered. WAKE from the parent is sent down and leaves the power state; from a child it goes up. AWAKE of a child is
held, and AWAKE_SEND goes up once, when the device is waking and holds every child's. A stack returns to self-refresh
in PARKED only. SCRIPT_UNLOAD in READY unloads at once: no script, frame 0, apron, wings, local buffers and Prompter
stores empty, adapters gone, no KV page referenced, and READY kept (STRUCK as above); elsewhere than in READY and
PLAYING it is ignored. Rests on R211, R315, R317, R389, R472, R473. -/
def Obligations.ParkAndWakeMoveTheHerd : Prop :=
  ∀ s : State, s.dev.up = true → let y := s.dev.sys
    let sent (u : CtlUnit) (d : Dev) : Prop := d.out = s.dev.out ++ s.dev.children.map fun c => .unit c u
    let leaves (d : Dev) : Prop := d.sys.selfRefresh = 0 ∧ d.sys.parkPhase = .waking ∧ d.sys.st = .parked ∧ d.frm.running = true ∧ d.frm.frame = s.dev.frm.frame
    (y.st = .ready → GivesWith .genPark s fun d => d.sys.st = .parked ∧ d.sys.parkScope = false ∧ d.sys.parkPhase = .parked ∧ d.sys.selfRefresh = 0xF ∧
      d.sys.parkCount = bump y.parkCount ∧ d.err.histSaved = s.dev.err.hist ∧ d.mem = s.dev.mem ∧ d.scr = s.dev.scr ∧ d.call = s.dev.call ∧ d.wts = s.dev.wts ∧
      d.frm = s.dev.frm ∧ d.kv = s.dev.kv) ∧
    (y.st ≠ .ready → y.st ≠ .playing → Gives .genPark s s.dev) ∧
    (y.st = .parked → y.parkScope = false → GivesWith .genWake s fun d => (d.sys.st = .ready ∨ d.sys.st = .struck) ∧ d.sys.selfRefresh = 0 ∧ d.sys.parkPhase = .none ∧ d.mem = s.dev.mem ∧ d.scr = s.dev.scr ∧
      d.frm.frame = s.dev.frm.frame) ∧
    (y.st = .parked → y.parkScope = true → y.parkPhase = .parked → (s.dev.bellwether = true → GivesWith .genWake s fun d => leaves d ∧ sent (.wake s.dev.coord) d) ∧
      (s.dev.bellwether = false → ∀ p, s.dev.parent = some p → GivesWith .genWake s fun d => d.out = s.dev.out ++ [.unit p (.wake s.dev.coord)] ∧ d.sys = y) ∧
      ∀ (link : Fin 48) (o : Coord), (s.dev.fromParent link.val = true → GivesWith (.wake link o) s fun d => leaves d ∧ sent (.wake o) d) ∧
        (s.dev.fromParent link.val = false → s.dev.fromChild link.val = true → (s.dev.bellwether = true → GivesWith (.wake link o) s fun d => leaves d ∧ sent (.wake o) d) ∧
          (s.dev.bellwether = false → ∀ p, s.dev.parent = some p → GivesWith (.wake link o) s fun d => d.out = s.dev.out ++ [.unit p (.wake o)] ∧ d.sys = y)) ∧
        (s.dev.fromParent link.val = false → s.dev.fromChild link.val = false → Gives (.wake link o) s s.dev)) ∧
    (y.st = .playing → s.dev.frm.draining = some .park → Gives .genWake s { s.dev with sys := { y with wakeWanted := true } }) ∧
    (y.st ≠ .playing → y.st ≠ .parked → Gives .genWake s s.dev) ∧
    (∀ (link : Fin 48) (o : Coord), y.st = .playing → s.dev.frm.draining = some .park → s.dev.fromChild link.val = true →
      Gives (.wake link o) s { s.dev with sys := { y with wakeWanted := true } }) ∧
    (∀ link : Fin 48, s.dev.fromChild link.val = true → (y.st = .parked → Gives (.awake link) s { s.dev with sys := { y with awakeHeld := setIns y.awakeHeld link.val } }) ∧
      (y.st ≠ .parked → Gives (.awake link) s s.dev)) ∧
    (y.st = .parked → y.parkPhase = .waking → y.awakeSent = false → s.dev.allChildren y.awakeHeld = true → GivesWith .awakeSend s fun d => d.sys = { y with awakeSent := true } ∧
      (s.dev.bellwether = true → d.out = s.dev.out) ∧ (s.dev.bellwether = false → ∀ p, s.dev.parent = some p → d.out = s.dev.out ++ [.unit p .awake])) ∧
    (y.awakeSent = true ∨ s.dev.allChildren y.awakeHeld = false → Gives .awakeSend s s.dev) ∧
    (∀ k : Fin 4, (y.st = .parked → Gives (.hbmSelfRefreshReturn k) s { s.dev with sys := { y with selfRefresh := y.selfRefresh ||| BitVec.ofNat 4 (2 ^ k.val) } }) ∧
      (y.st ≠ .parked → Gives (.hbmSelfRefreshReturn k) s s.dev)) ∧
    (s.dev.scr.script.isSome = true → (y.st = .ready → GivesWith .scriptUnload s fun d => d.scr.script = none ∧ d.frm.frame = 0 ∧ d.frm.running = false ∧
        d.mem.apron = [] ∧ d.mem.tags = [] ∧ d.mem.wings = [] ∧ d.mem.localBuf = [] ∧ d.mem.prompter = [] ∧ d.call.adpSlots = [] ∧ d.call.adpDir = [] ∧ d.call.steps = [] ∧
        d.kv.refs = [] ∧ d.kv.free = [] ∧ (d.sys.st = .ready ∨ d.sys.st = .struck)) ∧
      (y.st ≠ .ready → y.st ≠ .playing → Gives .scriptUnload s s.dev))

/-- WT_VERIFY, WT_LOAD, WT_ABORT, SECTION_LOAD_DONE: what they check and change; head counts. For a device that is up;
every weight command sets TARGET and MODE. A manifest passes only when its signature verifies under the script's
weight key and its PLACEMENT and position are the script's and the device's. WT_VERIFY with no command running and a
script: a manifest that passes becomes CURRENT in READY, or NEXT also in PLAYING and CURTAIN; a failed check gives its
cause and changes no manifest; outside these states, cause 1. WT_LOAD of an entry of a verified manifest starts the
command where R287 allows; without a manifest cause 8; CURRENT in PROGRAM mode in PLAYING is cause 1. WT_ABORT ends a
running command with cause 11, and arrays it was writing are incomplete. SECTION_LOAD_DONE records a NEXT section that
passes its checks, and gives the cause of one that fails and writes nothing. A CURRENT section that passes is taken
into census and Prompter stores, in PLAYING without programming an array; it is digested and complete once no array of
its layer is being written, waits while one is, and ends with cause 9 where one waits for VDD_PROG. TILE_HC_START and
HC_INTERVAL frames pick the next layer; HEAD_COUNT_DONE compares its digest, and one that matches fails no array.
Rests on R282, R283, R286, R287, R289, R290, R304, R308, R309, R310, R311. -/
def Obligations.WeightCommandsCheckAndLoad : Prop :=
  (∀ (d : Dev) (sc : Script) (u : Nat) (m : Manifest), d.checkManifest sc u = .inr m → let n := leAt (d.staged u 12 4) 0 4; let len := 64 + 128 * n
    Config.mldsaVerify sc.hdr.weightKey (d.staged u 0 len) (d.staged u len 3309) = true ∧ m.digest = shake256 (d.staged u 0 len ++ d.staged u len 3309) ∧
    leAt (d.staged u 0 len) 4 4 = sc.hdr.placement ∧ leAt (d.staged u 0 len) 8 4 = d.coord.x.toNat + 16 * d.coord.y.toNat ∧ m.secs.length = n) ∧
  ∀ (s : State) (next program : Bool), s.dev.up = true → let w := s.dev.wts.ctrl next program; let st := s.dev.sys.st
    let fails (c : Instr) (cause : Nat) : Prop := GivesWith c s fun d => d.wts = { w with job := none, err := true, cause := cause } ∧ d.mem = s.dev.mem ∧ d.tile = s.dev.tile ∧
      d.host.evtStatus.getLsbD 3 = true
    (w.job.isSome = true → ∀ c ∈ [Instr.wtVerify next program, .wtLoad next program], Gives c s { s.dev with wts := w }) ∧
    (w.job = none → (s.dev.scr.script = none → fails (.wtVerify next program) 1) ∧ (∀ sc, s.dev.scr.script = some sc →
      let at_ := st = .ready ∨ (next = true ∧ (st = .playing ∨ st = .curtain)); let promotes := next = true ∧ st = .ready ∧ w.next.isSome = true
      (¬ at_ → fails (.wtVerify next program) 1) ∧
      (∀ c, at_ → ¬ promotes → s.dev.checkManifest sc w.manOff.toNat = .inl c → fails (.wtVerify next program) c) ∧
      (∀ m, at_ → ¬ promotes → w.phase ≠ 2 → s.dev.checkManifest sc w.manOff.toNat = .inr m → GivesWith (.wtVerify next program) s fun d =>
        d.wts = (if next then { w with next := some m, done := true } else { w with cur := some m, own := [], ownBegun := [], done := true }) ∧ d.mem = s.dev.mem ∧ d.tile = s.dev.tile) ∧
      (∀ m, promotes → w.next = some m → GivesWith (.wtVerify next program) s fun d => d.wts.next = none ∧ d.wts.done = true ∧ d.wts.epoch = w.epoch ∧
        d.wts.cur = some { m with secs := m.secs.map fun e => { e with done := false } } ∧ d.mem = s.dev.mem))) ∧
    (w.job = none → let m := if next then w.next else w.cur; let e := m.bind fun m => m.secs[w.index.toNat]?
      let allowed := s.dev.scr.script.isSome = true ∧ s.dev.loadAllowed next program e = true
      (¬ allowed → fails (.wtLoad next program) 1) ∧ (allowed → m = none → fails (.wtLoad next program) 8) ∧
      (allowed → m.isSome = true → e = none → fails (.wtLoad next program) 1) ∧
      (allowed → e.isSome = true → Gives (.wtLoad next program) s { s.dev with wts := { w with job := some ⟨next, w.index.toNat, w.secOff.toNat, program, false⟩ } })) ∧
    (st = .playing → next = false → program = true → w.job = none → fails (.wtLoad next program) 1) ∧
    (w.job = none → Gives (.wtAbort next program) s { s.dev with wts := w }) ∧ (∀ j, w.job = some j → GivesWith (.wtAbort next program) s fun d =>
      d.wts = { w with job := none, err := true, cause := 11 } ∧ d.mem = s.dev.mem ∧ d.tile = (if j.begun then s.dev.tile.dropLoads else s.dev.tile) ∧
      d.host.evtStatus.getLsbD 3 = true) ∧
    (∀ (sc : Script) (j : WtJob) (m : Manifest) (e : SecEnt), let w := s.dev.wts; s.dev.scr.script = some sc → w.job = some j → s.dev.dbg.frozen = false →
      (if j.next then w.next else w.cur) = some m → m.secs[j.index]? = some e →
      let complete (d : Dev) : Prop := d.wts.cur = some (m.mark j.index true j.off) ∧ d.wts.job = none ∧ d.wts.done = true ∧ d.wts.hcDone = true ∧
        d.wts.hcLayer = e.layer ∧ d.mem.hbm = s.dev.mem.hbm ∧ d.mem.wings = s.dev.mem.wings ∧
        (d.wts.hcDigest = d.wts.hcExpect → d.tile.arrs = s.dev.tile.arrs ∧ d.tile.cells = s.dev.tile.cells)
      (j.begun = false → (∀ c, s.dev.checkSection sc e j.off = .inl c → GivesWith .sectionLoadDone s fun d =>
          d.wts = { w with job := none, err := true, cause := c } ∧ d.mem = s.dev.mem ∧ d.tile = s.dev.tile) ∧
        (∀ xs, s.dev.checkSection sc e j.off = .inr xs → shake256 (s.dev.staged j.off 0 e.len) = e.digest ∧
          (j.next = true → GivesWith .sectionLoadDone s fun d => d.wts.next = some (m.mark j.index true j.off) ∧ d.wts.job = none ∧ d.wts.done = true ∧
            d.mem = s.dev.mem ∧ d.tile = s.dev.tile) ∧
          (j.next = false → GivesWith .sectionLoadDone s fun d => (∀ x ∈ xs, sget d.tile.kinds (16 * x.tile + x.slot) ≠ none) ∧ d.mem.hbm = s.dev.mem.hbm ∧
            d.mem.wings = s.dev.mem.wings ∧ (st = .playing → s.dev.loading e.layer = [] → complete d)))) ∧
      (j.begun = true → j.next = false → (∀ a ∈ s.dev.waiting, s.dev.placeFree (a / 17 / 128) = false) →
        (s.dev.loading e.layer = [] → GivesWith .sectionLoadDone s complete) ∧
        (s.dev.loading e.layer ≠ [] → s.dev.loadStarved e.layer = false → Gives .sectionLoadDone s s.dev) ∧
        (s.dev.loadStarved e.layer = true → GivesWith .sectionLoadDone s fun d => d.wts = { w with job := none, err := true, cause := 9 } ∧
          d.tile = s.dev.tile.dropLoads ∧ d.mem = s.dev.mem))) ∧
    (∀ layer : BitVec 10, let w := s.dev.wts; let go := s.dev.hcRuns = true ∧ w.hcBusy = none ∧ s.dev.scr.script.isSome = true
      (go → Gives (.tileHcStart layer) s { s.dev with wts := { w with hcSel := layer, hcBusy := some layer.toNat, hcNext := none } }) ∧
      (¬ go → Gives (.tileHcStart layer) s { s.dev with wts := { w with hcSel := layer, hcNext := some layer.toNat } })) ∧
    (s.dev.hcRuns = true → s.dev.frm.running = true → s.dev.wts.hcBusy = none → s.dev.hcDue = true → ∀ l, s.dev.hcPick = some l →
      Gives .hcIntervalExpiry s { s.dev with wts := { s.dev.wts with hcBusy := some l, hcNext := none, hcAt := s.dev.tile.frames } }) ∧
    (s.dev.wts.hcBusy.isSome = true ∨ s.dev.hcDue = false → Gives .hcIntervalExpiry s s.dev) ∧ (s.dev.wts.hcBusy = none → Gives .headCountDone s s.dev) ∧
    (∀ l, s.dev.wts.hcBusy = some l → s.dev.hcRuns = true → let dig := s.dev.layerDigest l; GivesWith .headCountDone s fun d => d.wts.hcDigest = dig ∧ d.wts.hcLayer = l ∧
      d.wts.hcExpect = s.dev.expected l ∧ d.wts.hcDone = true ∧ d.wts.hcLast = some l ∧ d.wts.hcBusy = s.dev.wts.hcNext ∧
      (dig = s.dev.expected l → d.tile = s.dev.tile ∧ d.mem = s.dev.mem ∧ d.wts.hcMismatch = s.dev.wts.hcMismatch) ∧ (dig ≠ s.dev.expected l → d.wts.hcMismatch = true))

/-- REFRESH_START, REPLACEMENT_START, ARRAY_PROGRAM_DONE, ARRAY_RESET_DONE, TRACK_STALE, OVERDUE, TILE_PROG_CLR. Where
array work runs. REFRESH_START of a due principal with a free understudy, a free place, readable census and no HOLD,
in PLAYING the first of R299's order, programs the understudy with the slot: busy, counted and recorded before the
first pulse; without VDD_PROG nothing is programmed and a corrected error is recorded. REPLACEMENT_START does so for a
failed principal; an understudy refreshing that very slot goes on as the replacement. At 50,000 an understudy is
retired instead. Verify reads of a refresh or replacement with no cell outside its window leave the array in PLAYING
with the census weights in its physical rows, its record cleared, measuring; a row still open is where the programming
stands, and after 16 iterations it takes the next spare, where the calibration write passes its check. A reset that
completes leaves the free understudy at level 0; one that fails, a retired array. TRACK_STALE and OVERDUE mark the
array once and record it. TILE_PROG_CLR zeroes the counters and TILE_HC_FOUND. Rests on R87, R98, R292, R293, R294,
R296, R297, R298, R299, R300, R302, R312. -/
def Obligations.ArraysRefreshReplaceAndReset : Prop :=
  ∀ s : State, let t := s.dev.tile; let arr (a : Nat) : Arr := t.arr a; let others (a : Nat) (d : Dev) : Prop := ∀ b, b ≠ a → d.tile.arr b = arr b
    let count (n : Nat) (d : Dev) : Prop := sgetD d.tile.progCnt n 0 = bump (sgetD t.progCnt n 0)
    let starts (u : Nat) (j : ProgJob) (d : Dev) : Prop := let y := d.tile.arr u
      others u d ∧ count 9 d ∧ d.mem = s.dev.mem ∧ y.writes = min ((arr u).writes + 1) (2 ^ 20 - 1) ∧
      (y.writes < 50000 → y.job = some j ∧ y.pstate = 1 ∧ y.role = 2 ∧ y.record = true ∧ y.row = 0) ∧ (50000 ≤ y.writes → y.role = 3 ∧ y.job = none)
    (∀ (tile : BitVec 13) (array : Fin 17), let a := 17 * tile.toNat + array.val; let x := arr a; let free := s.dev.placeFree (tile.toNat / 128) = true
      (s.dev.progRuns = true → ∀ u, t.understudy tile.toNat = some u → x.role = 0 →
        (let ok := s.dev.sys.st ≠ .curtain ∧ t.hold = false ∧ x.due = true ∧ x.failed = false ∧ (arr u).role = 1 ∧ free ∧
          s.dev.censusUsable tile.toNat x.pslot = true ∧
          (s.dev.sys.st = .playing → ∀ e ∈ t.arrs, s.dev.refreshable e.1 = true → s.dev.refreshBefore e.1 a = false)
         (ok → GivesWith (.refreshStart tile array true) s (fun d => starts u (.refresh x.pslot) d ∧ d.tile.noVprog = false) ∧
           GivesWith (.refreshStart tile array false) s fun d => d.tile = { t with noVprog := true } ∧ d.err.nextSeq = s.dev.err.nextSeq + 1) ∧
         (¬ ok → ∀ v, Gives (.refreshStart tile array v) s s.dev)) ∧
        (x.failed = true → (∀ k, (arr u).job ≠ some (.replacement k)) → (arr u).job ≠ some (.refresh x.pslot) →
          (s.dev.censusUsable tile.toNat x.pslot = true →
            ((arr u).pstate = 1 ∨ free → GivesWith (.replacementStart tile array true) s (starts u (.replacement x.pslot))) ∧
            GivesWith (.replacementStart tile array false) s fun d => d.tile = { t with noVprog := true } ∧ d.err.nextSeq = s.dev.err.nextSeq + 1) ∧
          (s.dev.censusUsable tile.toNat x.pslot = false → ∀ v, Gives (.replacementStart tile array v) s s.dev)) ∧
        (x.failed = true → (arr u).job = some (.refresh x.pslot) → (arr u).pstate ≠ 2 ∨ free → ∀ v, GivesWith (.replacementStart tile array v) s fun d =>
          d.tile.arr u = { (arr u) with job := some (.replacement x.pslot), pstate := if (arr u).pstate = 2 then 1 else (arr u).pstate } ∧ others u d ∧
          { d with tile := t } = s.dev) ∧
        (x.failed = false → ∀ v, Gives (.replacementStart tile array v) s s.dev)) ∧
      (t.understudy tile.toNat = none → ∀ v, Gives (.refreshStart tile array v) s s.dev ∧ Gives (.replacementStart tile array v) s s.dev) ∧
      (∀ (j : ProgJob) (rows : List RowVerify), s.dev.progRuns = true → x.pstate = 1 → x.job = some j →
        (s.dev.openRow a j rows = none → s.dev.sys.st = .playing → ∀ k, j = .refresh k ∨ j = .replacement k → sparseWf t.census = true →
          (∀ r q, r < 512 → q < 512 → x.phys r = x.phys q → r = q) → (∀ r < 512, x.phys r < 1024) →
          GivesWith (.arrayProgramDone tile array rows) s fun d => let y := d.tile.arr a
            y.pstate = 3 ∧ y.record = false ∧ y.toMeasure = 16 ∧ y.role = x.role ∧ y.refs = true ∧ d.mem = s.dev.mem ∧
            ∀ r c, r < 512 → c < 512 → rd1 d.tile.cells (cellKey a (x.phys r) c) = rd1 t.census ((16 * tile.toNat + k) * 2 ^ 18 + (512 * r + c))) ∧
        (∀ r, s.dev.openRow a j rows = some r →
          (r.iters < 16 → GivesWith (.arrayProgramDone tile array rows) s fun d => d.tile.arr a = { x with row := r.row.toNat } ∧ others a d ∧
            { d with tile := t } = s.dev) ∧
          (16 ≤ r.iters → x.rowMap.length < 8 → GivesWith (.arrayProgramDone tile array rows) s fun d => let y := d.tile.arr a
            (y.rowMap = x.rowMap ++ [(r.row.toNat, 512 + x.rowMap.length)] ∨ (y.rowMap = x.rowMap ∧ y.row = r.row.toNat)) ∧
            s.dev.err.nextSeq < d.err.nextSeq ∧ d.mem = s.dev.mem))) ∧
      (x.pstate ≠ 1 ∨ x.job = none → ∀ rows, Gives (.arrayProgramDone tile array rows) s s.dev) ∧
      (s.dev.progRuns = true → x.pstate = 1 → x.job = some .reset →
        (GivesWith (.arrayResetDone tile array true) s fun d => let y := d.tile.arr a
          y.role = 1 ∧ y.job = none ∧ y.pstate = 0 ∧ y.refs = false ∧ y.failed = false ∧ y.rowMap = x.rowMap ∧ count 8 d ∧
          ∀ r c, r < 1024 → c < 512 → rd1 d.tile.cells (cellKey a r c) = 0) ∧
        GivesWith (.arrayResetDone tile array false) s fun d => (d.tile.arr a).role = 3 ∧ (d.tile.arr a).job = none) ∧
      (x.pstate ≠ 1 ∨ x.job ≠ some .reset → ∀ ok, Gives (.arrayResetDone tile array ok) s s.dev) ∧
      (s.dev.up = true → (1048576 ≤ s.dev.idle a → x.stale = false → x.role ≠ 3 → s.dev.exactOn (16 * tile.toNat + x.pslot) = false →
          GivesWith (.trackStale tile array) s fun d => d.tile.arr a = { (t.arr a) with stale := true } ∧ others a d ∧
            d.err.nextSeq = s.dev.err.nextSeq + 1 ∧ d.mem = s.dev.mem) ∧
        (s.dev.idle a < 1048576 ∨ x.stale = true → Gives (.trackStale tile array) s s.dev) ∧
        (let ripe := x.dueAge + 24 * 7 * 3600 * 1000000000 ≤ x.age
         (x.due = true → x.overdue = false → ripe → GivesWith (.overdue tile array) s fun d => d.tile.arr a = { (t.arr a) with overdue := true } ∧ others a d ∧
           count 6 d ∧ d.err.nextSeq = s.dev.err.nextSeq + 1 ∧ d.mem = s.dev.mem) ∧
         (x.due = false ∨ x.overdue = true ∨ ¬ ripe → Gives (.overdue tile array) s s.dev)))) ∧
    (s.dev.up = true → Gives .tileProgClr s { s.dev with tile := { t with progCnt := [] }, wts := { s.dev.wts with hcFound := 0 } })

/-- KV messages and transfers on a KV-owning device: swap-out, swap-in, commit, keep, release, fork, resume, mirror,
zeroing. For a KV-owning device that is up and has a share for the sender, device memory canonical and without
uncorrectable codewords. SWAP_OUT without a large enough green room is answered FAILED 1, with the link down FAILED 2;
with nothing to write KSTATE is WRITTEN and WRITTEN goes back; otherwise KSTATE is OUT and each page not yet mirrored
is written whole to its place. The read-back makes it WRITTEN, and a stopped mirror may run again; an error is
recorded and answered FAILED. SWAP_IN without a green room or link fails, without pages fails with cause 6, else
KSTATE is IN and every page is read; a page that fails its check is answered FAILED 4. COMMIT and RELEASE leave no
block and no root; KEEP and RESUME set KSTATE alone. FORK past 65,535 references fails with cause 5, without pages
with cause 6, else the target holds the blocks below N, shared up to the last whole one. A zeroed page reads 0 and is
free again. A confirmed mirror position never falls back and passes nothing that is not confirmed; a failed one stops
the mirror. Rests on R258, R259, R262, R263, R264, R265, R269, R270, R271, R274, R275, R277. -/
def Obligations.KvOwnersActOnMessages : Prop :=
  ∀ (s : State) (m : KvMsg) (k : KvDev) (i : Nat), s.dev.up = true → s.dev.ownKv = some k → s.dev.kvIndex m.src = some i → cellsWf s.dev.mem.hbm = true → s.dev.mem.bad = [] →
    let n := m.session.toNat; let v := s.dev.kv; let dst := coordKey m.src
    let replied (op : Byte) (cause : Nat) (d : Dev) : Prop := ∃ r : KvMsg, r.session = m.session ∧ r.cause = BitVec.ofNat 8 cause ∧
      (Output.kv (keyCoord dst) op r ∈ d.out ∨ (dst, op, r) ∈ d.kv.lane)
    let kstate (d : Dev) (x : Nat) : Nat := d.sesF x 0x500 0 3
    let small := s.dev.grOn n = false ∨ s.dev.grSize n < s.dev.blocks n * k.lk
    let ps := (s.dev.dataPages k n).filter fun p => !(s.dev.mirrorOk n && decide ((p.1 / k.lk + 1) * k.tpg ≤ s.dev.mirroredTo n))
    (small → GivesWith (.swapOut m) s fun d => replied 0x83 1 d ∧ d.mem = s.dev.mem ∧ d.kv.own = v.own) ∧
    (¬ small → s.dev.muleUp = false → GivesWith (.swapOut m) s fun d => replied 0x83 2 d ∧ d.mem = s.dev.mem ∧ d.kv.own = v.own) ∧
    (¬ small → s.dev.muleUp = true → ps = [] → GivesWith (.swapOut m) s fun d => replied 0x81 0 d ∧ kstate d n = 3 ∧ d.kv.own = v.own) ∧
    (¬ small → s.dev.muleUp = true → ps ≠ [] → GivesWith (.swapOut m) s fun d => kstate d n = 2 ∧ d.kv.own = v.own ++ [(true, m)] ∧
      ∀ p ∈ ps, .hostWrite (s.dev.grBase n + 65536 * p.1) (rdN s.dev.mem.hbm (kvPage p.2) 65536) true ∈ d.out) ∧
    (v.ownOf true n = some m → s.dev.dbg.frozen = false →
      (GivesWith (.swapOutWritten m.session true) s fun d => kstate d n = 3 ∧ replied 0x81 0 d ∧ d.kv.ownOf true n = none ∧ n ∉ d.kv.mirrorOff ∧
        (s.dev.mirrorOf m.src n = true → d.mirrorOk n = true ∧ d.mirroredTo n = m.pos.toNat)) ∧
      GivesWith (.swapOutWritten m.session false) s fun d => replied 0x83 (if s.dev.muleUp then 3 else 2) d ∧ d.kv.ownOf true n = none ∧ d.err.nextSeq = s.dev.err.nextSeq + 1 ∧
        d.mem = s.dev.mem) ∧
    (v.ownOf true n = none → ∀ ok, Gives (.swapOutWritten m.session ok) s s.dev) ∧
    (s.dev.grOn n = false → GivesWith (.swapIn m) s fun d => replied 0x83 1 d ∧ d.mem = s.dev.mem) ∧
    (s.dev.grOn n = true → s.dev.muleUp = false → GivesWith (.swapIn m) s fun d => replied 0x83 2 d ∧ d.mem = s.dev.mem) ∧
    (s.dev.grOn n = true → s.dev.muleUp = true → let b := ceilDiv m.pos.toNat k.tpg
      (s.dev.blocks n < b → s.dev.freePages k i < k.need (s.dev.blocks n) b → GivesWith (.swapIn m) s fun d => replied 0x83 6 d ∧ d.mem = s.dev.mem) ∧
      (0 < b → (s.dev.blocks n < b → k.need (s.dev.blocks n) b ≤ s.dev.freePages k i) → GivesWith (.swapIn m) s fun d => kstate d n = 4 ∧ d.kv.own = v.own ++ [(false, m)] ∧
        ∀ j < b * k.lk, .hostRead (s.dev.grBase n + 65536 * j) 65536 ∈ d.out) ∧
      (b = 0 → GivesWith (.swapIn m) s fun d => kstate d n = 1 ∧ replied 0x82 0 d ∧ d.kv.own = v.own)) ∧
    (v.ownOf false n = some m → s.dev.dbg.frozen = false → let b := ceilDiv m.pos.toNat k.tpg * k.lk
      (∀ pages, GivesWith (.swapInLoaded m.session false pages) s fun d => replied 0x83 (if s.dev.muleUp then 3 else 2) d ∧ d.kv.ownOf false n = none) ∧
      (∀ pages : List PageIn, (∃ j < b, ∀ p, pages.find? (fun p => p.index == j) = some p → s.dev.pageOk k m p = false) → GivesWith (.swapInLoaded m.session true pages) s fun d =>
        replied 0x83 4 d ∧ d.mem = s.dev.mem ∧ d.kv.ownOf false n = none) ∧
      (∀ pages : List PageIn, (∀ j < b, ∃ p, pages.find? (fun p => p.index == j) = some p ∧ s.dev.pageOk k m p = true) → GivesWith (.swapInLoaded m.session true pages) s fun d =>
        kstate d n = 1 ∧ replied 0x82 0 d)) ∧
    (GivesWith (.commit m) s fun d => kstate d n = 5 ∧ d.blocks n = 0 ∧ d.rootPages n = [] ∧ d.out = s.dev.out) ∧
    (GivesWith (.release m) s fun d => kstate d n = 0 ∧ d.blocks n = 0 ∧ d.rootPages n = [] ∧ replied 0x84 0 d ∧ ∀ p ∈ d.kv.mirrors, p.session ≠ n) ∧
    (GivesWith (.keep m) s fun d => kstate d n = 1 ∧ d.kv = v ∧ d.out = s.dev.out ∧ ∀ a, a ≠ sesAddr n 0x500 → rd1 d.mem.hbm a = rd1 s.dev.mem.hbm a) ∧
    (GivesWith (.resume m) s fun d => kstate d n = 5 ∧ d.kv = v ∧ d.out = s.dev.out ∧ ∀ a, a ≠ sesAddr n 0x500 → rd1 d.mem.hbm a = rd1 s.dev.mem.hbm a) ∧
    (let t := m.target.toNat; let len := m.pos.toNat; let whole := len / k.tpg * k.lk; let all := ceilDiv len k.tpg * k.lk
      let full := ∃ e < whole, ∃ p, s.dev.tableEntry n e = some p ∧ 65535 ≤ sgetD v.refs p 0
      (full → GivesWith (.fork m) s fun d => replied 0x83 5 d ∧ d.mem = s.dev.mem ∧ d.kv.refs = v.refs) ∧
      (¬ full → s.dev.freePages k i < (all - whole) + tablesFor all → GivesWith (.fork m) s fun d => replied 0x83 6 d ∧ d.mem = s.dev.mem ∧ d.kv.refs = v.refs) ∧
      (¬ full → (all - whole) + tablesFor all ≤ s.dev.freePages k i → GivesWith (.fork m) s fun d => replied 0x85 0 d ∧ kstate d t = 1 ∧
        d.blocks t = ceilDiv len k.tpg % 2 ^ 18)) ∧
    (∀ p : BitVec 21, (p.toNat ∈ v.zeroing → GivesWith (.pageZeroDone p) s fun d => (∀ j < 65536, rd1 d.mem.hbm (kvPage p.toNat + j) = 0) ∧ p.toNat ∉ d.kv.zeroing ∧
        ∀ a, a < kvPage p.toNat ∨ kvPage p.toNat + 65536 ≤ a → rd1 d.mem.hbm a = rd1 s.dev.mem.hbm a) ∧ (p.toNat ∉ v.zeroing → Gives (.pageZeroDone p) s s.dev)) ∧
    (∀ (u : BitVec 24) (p : MirrorPend), v.mirrors.find? (fun p => p.session == n) = some p → s.dev.dbg.frozen = false →
      (s.dev.muleUp = true → let c := s.dev.confirmedTo n u.toNat; GivesWith (.mirrorConfirm m.session u true) s fun d => d.mirroredTo n = c % 2 ^ 24 ∧
        s.dev.mirroredTo n ≤ c ∧ c ≤ max (s.dev.mirroredTo n) u.toNat ∧ ∀ q ∈ d.kv.mirrors, q.session ≠ n ∨ c < q.upTo) ∧
      (s.dev.mirrorOk n = true → GivesWith (.mirrorConfirm m.session u false) s fun d => d.mirrorOk n = false ∧ (∀ q ∈ d.kv.mirrors, q.session ≠ n) ∧
        d.err.nextSeq = s.dev.err.nextSeq + 2))

/-- Replies and commands on the entry device; STEP_COMPLETE; clears of the call, routing and KV counters. For a device
that is up. Every reply brings FREE of its sender up to date, less what this scan claimed, and drops what committed
swap-outs of earlier frames were to free there (the model's reading, log 95); FREE, which was sent at the boundary
before, drops those of frames before the last one and does nothing else. WRITTEN, LOADED and FAILED of a session that
swaps take the sender off the awaited ones, FAILED marking the swap; RELEASED and FORKED take it off those of the
release and of the fork; MIRRORED gives the confirmed position, MIRROR_LOST is counted and ends the waiting. A
reserved message code is a contained error. PARK, WAKE and FORK set their fields, are ignored while BUSY, fail with
cause 1 on a session that is not valid and with their causes where they cannot start, else wait for the scan.
STEP_COMPLETE without such a step changes nothing; a step marked for replay, here or elsewhere in the herd, returns to
the candidates; one that waits for its mirror waits; otherwise the step leaves, its tokens are committed, one 64 B
record goes to the output ring and OUT_TAIL advances. The clears zero their counters. Rests on R129, R236, R239, R240,
R250, R255, R262, R264, R269, R270, R275, R280. -/
def Obligations.EntryDevicesFollowTheirSessions : Prop :=
  ∀ s : State, s.dev.up = true → let v := s.dev.kv
    (∀ m : KvMsg, let dev := coordKey m.src; let n := m.session.toNat; let free := sput v.free dev (m.free.toNat - sgetD v.claims dev 0)
      let w (f : Bool) : List Swap := v.swaps.map fun x => if x.session = n then { x with wait := x.wait.filter fun y => y != dev, failed := x.failed || f } else x
      let coming := v.coming.filter fun c => c.1 != dev || decide (s.dev.frm.frame ≤ c.2.1)
      let late := v.coming.filter fun c => c.1 != dev || decide (s.dev.frm.frame ≤ c.2.1 + 1)
      let took (v' : Kv) (c : Instr) : Prop := Gives c s { s.dev with kv := { v' with free := free, coming := coming } }
      Gives (.free m) s { s.dev with kv := { v with free := free, coming := late } } ∧
      (v.swapping n = true → (GivesWith (.written m) s fun d => d.kv.swaps = w false ∧ d.kv.free = free ∧ d.mem = s.dev.mem) ∧
        (GivesWith (.loaded m) s fun d => d.kv.swaps = w false ∧ d.kv.free = free ∧ d.mem = s.dev.mem) ∧ took { v with swaps := w true } (.failed m)) ∧
      (v.swapping n = false → took v (.written m) ∧ took v (.loaded m) ∧ ∀ j, v.job = some j → j.op = 2 → j.session = n →
        took { v with job := some { j with wait := j.wait.filter fun x => x != dev, failed := j.failed <|> some m.cause.toNat } } (.failed m)) ∧
      (∀ l, sget v.releases n = some l → let l' := l.filter fun x => x != dev
        took { v with releases := if l'.isEmpty then sdel v.releases n else sput v.releases n l' } (.released m)) ∧
      (∀ j, v.job = some j → j.op = 2 → j.session = n → took { v with job := some { j with wait := j.wait.filter fun x => x != dev } } (.forked m)) ∧
      (cellsWf s.dev.mem.hbm = true → s.dev.mem.bad = [] → GivesWith (.sessionFault m) s fun d => d.sstate n = 5 ∧ d.kv.free = free) ∧
      took { v with mirrored := smod v.mirrored (256 * n + dev) 0 fun x => if x = 2 ^ 24 then x else m.pos.toNat } (.mirrored m) ∧
      took { v with mirrored := sput v.mirrored (256 * n + dev) (2 ^ 24), cnt := smod v.cnt 9 0 fun c => bumpBy c 1 } (.mirrorLost m) ∧
      (∀ code, kvCodeKnown code = false → GivesWith (.kvMessageReserved code m) s fun d => d.err.nextSeq = s.dev.err.nextSeq + 1 ∧ d.kv = v ∧ d.mem = s.dev.mem)) ∧
    (∀ (n : BitVec 20) (op : Nat) (c : Instr), (c = .kvCmdPark n ∧ op = 0) ∨ (c = .kvCmdWake n ∧ op = 1) ∨ (c = .kvCmdFork n ∧ op = 2) →
      let v' : Kv := { v with op := BitVec.ofNat 2 op, session := n }; let go : Kv := { v' with job := some ⟨op, n.toNat, v.dst.toNat, v.len.toNat, [], none⟩, jobNew := true }
      let valid := s.dev.ses n.toNat 0 % 2 = 1
      let fails (k : Nat) : Prop := GivesWith c s fun d =>
        d.kv = { v' with job := none, jobNew := false, err := true, cause := k } ∧ d.host.evtStatus.getLsbD 5 = true ∧ d.mem = s.dev.mem
      (v.job.isSome = true → Gives c s { s.dev with kv := v' }) ∧ (v.job = none → ¬ valid → fails 1) ∧
      (v.job = none → valid → (op = 0 → (s.dev.evictable n.toNat true false = true → Gives c s { s.dev with kv := go }) ∧ (s.dev.evictable n.toNat true false = false → fails 2)) ∧
        (op = 1 → let ok := s.dev.sstate n.toNat = 3 ∧ v.swapping n.toNat = false; (ok → Gives c s { s.dev with kv := go }) ∧ (¬ ok → fails 2)) ∧
        (op = 2 → let k := s.dev.forkCause n.toNat v.dst.toNat v.len.toNat; (k = 0 → Gives c s { s.dev with kv := go }) ∧ (k ≠ 0 → fails k)))) ∧
    (∀ (n : BitVec 20) (t : Nat), (∀ x ∈ s.dev.call.steps, x.session ≠ n.toNat) → Gives (.stepComplete n t) s { s.dev with now := max s.dev.now t }) ∧
    (∀ (n : BitVec 20) (t : Nat) (x : Step), let q := n.toNat; let y := s.dev.withRemote x; let d₀ := if s.dev.hasPeers then s.dev.useFree 1 else s.dev
      s.dev.call.steps.find? (fun x => x.session == q) = some x → x.discard = none → q ∉ v.waitMirror → s.dev.faulted q = false →
      s.dev.cancelledSeq q x.callSeq = false → s.dev.muleUp = true → x.chunks ≤ x.entered → (x.sampled = true ∨ x.prefillOnly = true) → cellsWf s.dev.mem.hbm = true → s.dev.mem.bad = [] →
      (y.replay = true → x.nReplay < 4 → GivesWith (.stepComplete n t) s fun d => (∀ y ∈ d.call.steps, y.session ≠ q) ∧ sget d.call.ready q = some (s.dev.frm.frame + 1) ∧
        (∃ y ∈ d.call.replays, y.session = q ∧ y.tokens = x.tokens ∧ y.nReplay = x.nReplay + 1 ∧ y.released = []) ∧ d.out = s.dev.out) ∧
      (y.replay = false ∨ 4 ≤ x.nReplay → bit (s.dev.held q 0) 1 = true → s.dev.mirrorReady q x.pos = false →
        Gives (.stepComplete n t) s { d₀ with now := max s.dev.now t, kv := { v with waitMirror := setIns v.waitMirror q } }) ∧
      (y.replay = false ∨ 4 ≤ x.nReplay → bit (s.dev.held q 0) 1 = false ∨ s.dev.mirrorReady q x.pos = true → GivesWith (.stepComplete n t) s fun d =>
        let tail := s.dev.ses q 0x214; let size := fld (s.dev.held q 0x40) 0 5
        (∀ y ∈ d.call.steps, y.session ≠ q) ∧ d.sesF q 0x204 0 24 = (x.pos + (x.tokens.length - x.kEff) + (x.released.length - 1)) % 2 ^ 24 ∧ d.sesF q 0x200 5 1 = 0 ∧
        d.ses q 0x214 = (tail + 1) % 2 ^ 32 ∧
        ∃ bs, bs.length = 64 ∧ .hostWrite (s.dev.held q 0x38 + 2 ^ 32 * s.dev.held q 0x3C + 64 * (tail % 2 ^ size)) bs false ∈ d.out)) ∧
    Gives .callKvClr s { s.dev with kv := { v with cnt := [] } } ∧ Gives .callRouteClr s { s.dev with call := { s.dev.call with routeCnt := [] } } ∧
    Gives .callCntClr s { s.dev with call := { s.dev.call with cnt := [] } }

/-- HOST_MEM_WRITE, CALLBOARD_BIT_SET and HOST_MEM_READ: what an access of one codeword does in each region. For a host
write inside the window that lies in one codeword. Before Memory_Active, or while the window is not reached, it
changes nothing. Outside PARKED: in a reserved region it is dropped; on a device-owned codeword of a session entry it
is dropped and counted in CALL_CNT[14]; in staging and the ring area its bytes are stored at their addresses and no
other byte changes; a full 64 bytes replace an uncorrectable codeword, and a shorter write to one in staging is
dropped, counted, and leaves it uncorrectable; in the session table the bytes are stored, a VALID that rises marks the
session for initialisation and one that falls marks it EMPTY; in the bitmap every bit written as 1 is set and no other
changes. The two commands do the same. The premise of canonical memory is kept by every step (MemoryStaysCanonical).
For a host read inside the window of bytes of one codeword. It answers all ones before Memory_Active and nothing where
the window is not reached. Outside PARKED: a reserved region reads zeros; every other address whose codeword holds no
error reads its bytes, without poison, and changes nothing; an uncorrectable codeword of staging reads as that many
bytes with poison, is counted and recorded, and is written back zeroed, no other byte changed. In PARKED the stack of
the address leaves self-refresh and the rest is as outside it. What poisoned bytes hold is free. Rests on R213, R214,
R218, R221, R385, R386, R389, R204, R406. -/
def Obligations.HostAccessesReachTheWindow : Prop :=
  (
  ∀ (s : State) (a : Nat) (bs : List Byte) (c : Instr), c = .hostMemWrite a bs ∨ c = .callboardBitSet a bs →
    0 < bs.length → a % 64 + bs.length ≤ 64 → inWindow a bs.length = true → Mem.wf s.dev.mem = true →
    (s.dev.memReached = false ∨ s.dev.host.memActive = false → Gives c s s.dev) ∧
    (s.dev.memReached = true → s.dev.host.memActive = true → s.dev.sys.st ≠ .parked →
      let m := s.dev.mem
      let stored (d : Dev) : Prop := (∀ i < bs.length, rd1 d.mem.hbm (a + i) = bs.getD i 0) ∧ ∀ x, x < a ∨ a + bs.length ≤ x → rd1 d.mem.hbm x = rd1 m.hbm x
      (regionOf a = .reserved → Gives c s s.dev) ∧
      (regionOf a = .sessionTable → deviceOwned (a % 2048) = true →
        Gives c s { s.dev with call := { s.dev.call with cnt := smod s.dev.call.cnt 14 0 bump } }) ∧
      (regionOf a = .inputRing ∨ regionOf a = .adpStaging ∨ regionOf a = .wtStaging → (a / 64 ∉ m.bad → GivesWith c s fun d => stored d ∧
          { d with mem := { d.mem with hbm := m.hbm } } = s.dev) ∧
        (a / 64 ∈ m.bad → bs.length = 64 → GivesWith c s fun d => stored d ∧ d.mem.bad = setDel m.bad (a / 64) ∧
          { d with mem := { d.mem with hbm := m.hbm, bad := m.bad }, err := { d.err with locs := s.dev.err.locs } } = s.dev)) ∧
      (regionOf a = .adpStaging ∨ regionOf a = .wtStaging → a / 64 ∈ m.bad → bs.length < 64 →
        Gives c s { s.dev with mem := m.count .hbm (hbmChannel a) 2 }) ∧
      (regionOf a = .sessionTable → deviceOwned (a % 2048) = false → a / 64 ∉ m.bad → GivesWith c s fun d => let n := a / 2048
        let v := s.dev.ses n 0 % 2
        let w := d.ses n 0 % 2
        stored d ∧ { d with mem := { d.mem with hbm := m.hbm }, call := s.dev.call } = s.dev ∧
        (v = w → d.call = s.dev.call) ∧ (v = 0 → w = 1 → d.call = { s.dev.call with init := setIns s.dev.call.init n }) ∧
        (v = 1 → w = 0 → d.call = { s.dev.call with init := setDel s.dev.call.init n, empty := setIns s.dev.call.empty n })) ∧
      (regionOf a = .bitmap → a / 64 ∉ m.bad → s.dev.sys.autoWake = false → GivesWith c s fun d =>
        (∀ i < bs.length, rd1 d.mem.hbm (a + i) = rd1 m.hbm (a + i) ||| bs.getD i 0) ∧ (∀ x, x < a ∨ a + bs.length ≤ x → rd1 d.mem.hbm x = rd1 m.hbm x) ∧
        d.call = { s.dev.call with summary := setIns s.dev.call.summary ((a - bitmapBase) / 64) } ∧
        { d with mem := { d.mem with hbm := m.hbm }, call := s.dev.call } = s.dev))
  ) ∧ (
  ∀ (s : State) (a n : Nat), 0 < n → a % 64 + n ≤ 64 → inWindow a n = true →
    (s.dev.memReached = false → Gives (.hostMemRead a n []) s s.dev) ∧
    (s.dev.memReached = true → s.dev.host.memActive = false → Gives (.hostMemRead a n []) s (s.dev.emit (.hostData (List.replicate n 0xFF) false))) ∧
    (s.dev.memReached = true → s.dev.host.memActive = true →
      (s.dev.sys.st ≠ .parked → regionOf a = .reserved → Gives (.hostMemRead a n []) s (s.dev.emit (.hostData (List.replicate n 0) false))) ∧
      (s.dev.sys.st ≠ .parked → regionOf a ≠ .reserved → a / 64 ∉ s.dev.mem.bad → Gives (.hostMemRead a n []) s (s.dev.emit (.hostData (s.dev.hbmRd a n) false))) ∧
      (s.dev.sys.st ≠ .parked → regionOf a = .adpStaging ∨ regionOf a = .wtStaging → a / 64 ∈ s.dev.mem.bad → GivesWith (.hostMemRead a n []) s fun d =>
        (∃ bs, bs.length = n ∧ d.out.getLast? = some (.hostData bs true)) ∧ s.dev.err.nextSeq < d.err.nextSeq ∧
        (∀ x, rd1 d.mem.hbm x = if x / 64 = a / 64 then 0 else rd1 s.dev.mem.hbm x) ∧ a / 64 ∉ d.mem.bad ∧ d.mem.cnt = (s.dev.mem.count .hbm (hbmChannel a) 2).cnt) ∧
      (s.dev.sys.st = .parked → regionOf a ≠ .reserved → a / 64 ∉ s.dev.mem.bad → Gives (.hostMemRead a n []) s (({ s.dev with sys :=
        { s.dev.sys with selfRefresh := s.dev.sys.selfRefresh &&& ~~~ BitVec.ofNat 4 (2 ^ (hbmChannel a / 32)) } } : Dev).emit (.hostData (s.dev.hbmRd a n) false))))
  )

/-- HOST_LINK_DOWN, HOST_LINK_UP, HDM_COMMIT, MSIX_UNMASK, HOST_CNT_CLR, HOST_EVT_CLEAR. HOST_LINK_DOWN of a link that is
up counts HOST_LINK_LOSS, records the loss, discards a DOE response, and leaves decoder, MSI-X table, sessions, frames
and memory; it changes nothing when the link is down. HOST_LINK_UP, with PERST_N released, past BOOT and with a width
and rate that exist, brings it up with what the host configured; with MSI-X and bus mastering enabled every unmasked
pending vector's message goes out and the masked ones stay pending; otherwise it changes nothing. HDM_COMMIT commits a
decoder of one way, a base aligned to 256 MiB and 24 GiB, and nothing else. MSIX_UNMASK clears the vector's mask
alone, sends its message once if it was pending with both enabled and the link up, and then clears the pending bit.
HOST_CNT_CLR zeroes HOST_LINK_LOSS and HOST_DMA_CNT. HOST_EVT_CLEAR clears the bits written and arms the vector once
no set bit is enabled. Rests on R382, R385, R391, R392, R393, R395, R396, R398. -/
def Obligations.HostLinkAndVectorCommands : Prop :=
  ∀ s : State, let h := s.dev.host
    (s.dev.coreRuns = true → h.up = true → GivesWith .hostLinkDown s fun d => d.host.up = false ∧ d.host.width = 0 ∧ d.host.speed = 0 ∧
      d.host.doeResp = [] ∧ d.host.linkLoss = bump h.linkLoss ∧ d.host.hdm = h.hdm ∧ d.host.msix = h.msix ∧ d.host.memActive = h.memActive ∧
      d.err.nextSeq = s.dev.err.nextSeq + 1 ∧ d.mem = s.dev.mem ∧ d.frm = s.dev.frm ∧ d.scr = s.dev.scr ∧ d.sec = s.dev.sec ∧ d.sys.st = s.dev.sys.st) ∧
    (s.dev.coreRuns = false ∨ h.up = false → Gives .hostLinkDown s s.dev) ∧
    (∀ u : LinkUp, s.dev.barOk = true → h.up = false → s.dev.sys.perst = false → linkFormOk u = true →
      (u.msix = false ∨ u.bme = false → Gives (.hostLinkUp u) s { s.dev with host :=
        { h with up := true, pcie := u.pcie, width := u.width, speed := u.speed, bme := u.bme, msixEnable := u.msix } }) ∧
      (u.msix = true → u.bme = true → GivesWith (.hostLinkUp u) s fun d => d.host.up = true ∧ d.host.pcie = u.pcie ∧ d.host.width = u.width ∧ d.host.speed = u.speed ∧
        d.host.bme = true ∧ d.host.msixEnable = true ∧ d.host.msix = h.msix ∧ d.host.msixPend = h.msixPend.filter (fun v => (sgetD h.msix v {}).mask) ∧
        d.out = s.dev.out ++ (h.msixPend.filter fun v => !(sgetD h.msix v {}).mask).map (fun v => .msix (sgetD h.msix v {}).addr (sgetD h.msix v {}).data) ∧
        { d with host := h, out := s.dev.out } = s.dev)) ∧
    (∀ u : LinkUp, s.dev.barOk = false ∨ h.up = true ∨ s.dev.sys.perst = true ∨ linkFormOk u = false → Gives (.hostLinkUp u) s s.dev) ∧
    (∀ (base size : Word64) (ways : Nat), s.dev.barOk = true → h.up = true → h.pcie = false →
      (ways = 1 → 2 ^ 28 ∣ base.toNat → size.toNat = 24 * 2 ^ 30 → Gives (.hdmCommit base size ways) s { s.dev with host := { h with hdm := some (base, size) } }) ∧
      (ways ≠ 1 ∨ ¬ 2 ^ 28 ∣ base.toNat ∨ size.toNat ≠ 24 * 2 ^ 30 → Gives (.hdmCommit base size ways) s s.dev)) ∧
    (∀ v : Fin 2048, s.dev.barOk = true → let e := sgetD h.msix v.val {}
      (v.val ∈ h.msixPend → h.up = true → h.bme = true → h.msixEnable = true → GivesWith (.msixUnmask v) s fun d => d.out = s.dev.out ++ [.msix e.addr e.data] ∧
        sgetD d.host.msix v.val {} = { e with mask := false } ∧ (∀ w, w ≠ v.val → sget d.host.msix w = sget h.msix w) ∧
        d.host = { h with msix := d.host.msix, msixPend := setDel h.msixPend v.val, dma := smod h.dma 1 0 bump }) ∧
      (v.val ∉ h.msixPend ∨ h.up = false ∨ h.bme = false ∨ h.msixEnable = false →
        Gives (.msixUnmask v) s { s.dev with host := { h with msix := sput h.msix v.val { e with mask := false } } })) ∧
    (s.dev.barOk = true → Gives .hostCntClr s { s.dev with host := { h with linkLoss := 0, dma := [] } }) ∧
    (∀ b : BitVec 10, s.dev.barOk = true → Gives (.hostEvtClear b) s { s.dev with host :=
      { h with evtStatus := h.evtStatus &&& ~~~ b, armed := h.armed || (h.evtStatus &&& ~~~ b &&& h.evtEn == 0) } }) ∧
    (s.dev.barOk = false → ∀ c ∈ [Instr.hostCntClr, .hostEvtClear 1, .msixUnmask 0], Gives c s s.dev)

/-- REGISTER_WRITE, REGISTER_LOW_WORD_READ, BAR0_UNSUPPORTED_ACCESS: one aligned word of BAR0, and the latches of 64-bit
pairs. Past BOOT. An access that is not an aligned word below 32 MiB completes with Unsupported Request and has no
effect. A write to a register of GEN but GEN_CTRL, and to a block that is not served in the present state, changes
nothing; HOST_EVT_EN takes its ten bits, and arms the vector when no set bit is enabled; ERR_SEL takes its fields. A
read of the low word of SCRIPT_FRAME_COUNT or SCRIPT_STRETCH_TOTAL returns the live low word and loads BAR0's latch of
that pair, and no other latch, with the live high word; a read of the high word returns the latch, 0 if nothing loaded
it, and changes nothing; a read of any other register returns its value and changes nothing. In BOOT each access ends
in Unsupported Request; where the core does not run, none reaches the device. Rests on R6, R7, R384, R393, R421. -/
def Obligations.RegisterAccessesObeyTheirAddress : Prop :=
  ∀ s : State, let h := s.dev.host
    (∀ off v : Word, s.dev.barOk = true → off.toNat % 4 ≠ 0 ∨ 2 ^ 25 ≤ off.toNat → ∀ c ∈ [Instr.registerWrite off v, .registerLowWordRead off],
      Gives c s (s.dev.emit .unsupported)) ∧
    (∀ (off : Nat) (w : Bool), s.dev.barOk = true → Gives (.bar0UnsupportedAccess off w) s (s.dev.emit .unsupported)) ∧
    (∀ off v : Word, s.dev.coreRuns = true → s.dev.sys.st = .boot →
      ∀ c ∈ [Instr.registerWrite off v, .registerLowWordRead off, .bar0UnsupportedAccess off.toNat true], Gives c s (s.dev.emit .unsupported)) ∧
    (∀ off v : Word, s.dev.coreRuns = false →
      ∀ c ∈ [Instr.registerWrite off v, .registerLowWordRead off, .bar0UnsupportedAccess off.toNat true], Gives c s s.dev) ∧
    (∀ off v : Word, s.dev.barOk = true → off.toNat % 4 = 0 → off.toNat < 2 ^ 25 →
      (off.toNat < 2 ^ 20 → off ≠ 0x14 → Gives (.registerWrite off v) s s.dev) ∧
      (s.dev.up = false → 2 ^ 21 ≤ off.toNat → off.toNat < 0x1800000 ∨ 0x1C00000 ≤ off.toNat → Gives (.registerWrite off v) s s.dev) ∧
      (off = 0x100010 → Gives (.registerWrite off v) s
        { s.dev with host := { h with evtEn := v.truncate 10, armed := h.armed || (h.evtStatus &&& v.truncate 10 == 0) } }) ∧
      (s.dev.up = true → off = 0x1600010 → Gives (.registerWrite off v) s
        { s.dev with err := { s.dev.err with selRing := v.getLsbD 0, selIndex := (v >>> 1).truncate 16 } })) ∧
    (s.dev.up = true →
      (GivesWith (.registerLowWordRead 0x400110) s fun d => d.out = s.dev.out ++ [.bar0 (BitVec.ofNat 32 s.dev.frm.frame)] ∧
        sget d.sys.latch 0 = some (BitVec.ofNat 32 (s.dev.frm.frame / 2 ^ 32)) ∧ (∀ k ≠ 0, sget d.sys.latch k = sget s.dev.sys.latch k) ∧
        { d with out := s.dev.out, sys := { d.sys with latch := s.dev.sys.latch } } = s.dev) ∧
      (GivesWith (.registerLowWordRead 0x400124) s fun d => d.out = s.dev.out ++ [.bar0 (BitVec.ofNat 32 s.dev.frm.stretchTotal)] ∧
        sget d.sys.latch 4 = some (BitVec.ofNat 32 (s.dev.frm.stretchTotal / 2 ^ 32)) ∧ (∀ k ≠ 4, sget d.sys.latch k = sget s.dev.sys.latch k) ∧
        { d with out := s.dev.out, sys := { d.sys with latch := s.dev.sys.latch } } = s.dev) ∧
      Gives (.registerLowWordRead 0x400114) s (s.dev.emit (.bar0 (sgetD s.dev.sys.latch 0 0))) ∧
      Gives (.registerLowWordRead 0x400128) s (s.dev.emit (.bar0 (sgetD s.dev.sys.latch 4 0))) ∧
      ∀ off : Word, off.toNat % 4 = 0 → off.toNat < 2 ^ 25 → off ∉ [(0x400110 : Word), 0x400114, 0x400124, 0x400128] →
        Gives (.registerLowWordRead off) s (s.dev.emit (.bar0 (BitVec.ofNat 32 (s.dev.liveRead off.toNat)))))

/-- SCRIPT_LOAD, SCRIPT_LOAD_DONE, SCRIPT_LOAD_ABORT, HAZARD_MODE_WRITE. For a device that is up. SCRIPT_LOAD is ignored
while a load runs; in READY without a script, with coordinates, it begins a load at SCRIPT_LOAD_SRC; otherwise it ends
at once with ERR and cause STATE. SCRIPT_LOAD_DONE of a running load ends it: with ERR, the cause, and no script,
memory, weight, KV or adapter changed; or with DONE, a script loaded, the apron, row tags, local buffers and Prompter
stores empty, every granule without a partition, no KV page held, every adapter slot FREE and directory entry invalid,
every section of CURRENT not loaded, no code other than 0 in CAUSE, and the device still in READY. A file whose
signature does not verify is refused with cause FORMAT or SIGNATURE. SCRIPT_LOAD_ABORT ends a running load with cause
ABORTED. HAZARD_MODE_WRITE takes a MODE that the debug level permits and ignores one that it does not. Rests on R249,
R313, R314, R315, R318, R329. -/
def Obligations.ScriptsLoadWholeOrNotAtAll : Prop :=
  ∀ s : State, s.dev.up = true → let c := s.dev.scr
    let idle (d : Dev) : Prop := d.mem = s.dev.mem ∧ d.tile = s.dev.tile ∧ d.wts = s.dev.wts ∧ d.kv = s.dev.kv ∧ d.call = s.dev.call ∧ d.frm = s.dev.frm ∧
      d.eng = s.dev.eng ∧ d.sys = s.dev.sys ∧ d.err = s.dev.err ∧ d.sec = s.dev.sec ∧ d.mesh = s.dev.mesh ∧ d.scr.script = c.script ∧ d.host.evtStatus.getLsbD 2 = true
    (c.job.isSome = true → Gives .scriptLoad s s.dev) ∧
    (c.job = none → s.dev.sys.st = .ready → c.script = none → s.dev.mesh.at_.isSome = true →
      Gives .scriptLoad s { s.dev with scr := { c with job := some (0x1_C000_0000 + 4096 * c.src.toNat) } }) ∧
    (c.job = none → s.dev.sys.st ≠ .ready ∨ c.script.isSome = true ∨ s.dev.mesh.at_ = none → GivesWith .scriptLoad s fun d =>
      d.scr.err = true ∧ d.scr.cause = 1 ∧ d.scr.job = none ∧ idle d) ∧
    (c.job = none → Gives .scriptLoadDone s s.dev ∧ Gives .scriptLoadAbort s s.dev) ∧
    (c.job.isSome = true → (GivesWith .scriptLoadAbort s fun d => d.scr.err = true ∧ d.scr.cause = 0x17 ∧ d.scr.job = none ∧ idle d) ∧
      (GivesWith .scriptLoadDone s fun d => d.scr.job = none ∧
        ((d.scr.err = true ∧ d.scr.cause ≠ 0 ∧ idle d) ∨
         (d.scr.done = true ∧ d.scr.cause = 0 ∧ d.scr.script.isSome = true ∧ d.mem.apron = [] ∧ d.mem.tags = [] ∧ d.mem.localBuf = [] ∧ d.mem.prompter = [] ∧
          d.mem.granule = [] ∧ d.kv.refs = [] ∧ d.kv.free = [] ∧ d.call.adpSlots = [] ∧ d.call.adpDir = [] ∧ d.frm.frame = 0 ∧ d.sys.st = s.dev.sys.st ∧
          (∀ m, d.wts.cur = some m → ∀ x ∈ m.secs, x.done = false) ∧ (∀ x, kvPoolBase ≤ x → rd1 d.mem.hbm x = 0) ∧
          d.sec = s.dev.sec ∧ d.tile.cells = s.dev.tile.cells ∧ d.host.evtStatus.getLsbD 2 = true)))) ∧
    (∀ a : Nat, c.job = some a → let n := min (0x5_C000_0000 - a) (leNat (s.dev.hbmRd (a + 0x40) 8))
      let f := s.dev.hbmRd a (max n 0x48)
      let e := leAt f 0x40 8 - 3309
      (∀ k, s.dev.sec.scriptKey = some k → Config.mldsaVerify k (f.take e) (slice f e 3309) = false) →
      GivesWith .scriptLoadDone s fun d => d.scr.err = true ∧ (d.scr.cause = 2 ∨ d.scr.cause = 3) ∧ idle d) ∧
    (∀ m : BitVec 2, (s.dev.sec.level < (if m = 3 then 2 else if m = 0 then 0 else 1) → Gives (.hazardModeWrite m) s s.dev) ∧
      ((if m = 3 then 2 else if m = 0 then 0 else 1) ≤ s.dev.sec.level → Gives (.hazardModeWrite m) s
        { s.dev with scr := { c with hazMode := m }, mem :=
          { s.dev.mem with writer := if m = 0 then [] else s.dev.mem.writer, apronTag := if m = 0 then (0, 0) else s.dev.mem.apronTag } }))

/-- CALL_ADP_LOAD, ADAPTER_LOAD_DONE, RETIRE_REQ, CALL_ADP_DIR_WRITE: the states of an adapter slot. For a device that is
up. CALL_ADP_LOAD is ignored but for its fields while a load runs; a FREE slot passes to LOADING for the tenant; a
slot that is not FREE fails with cause 1. ADAPTER_LOAD_DONE makes the slot READY with the image's version, its bytes
copied into the slot, or FREE with the first cause that fails. A directory write naming a slot that is not READY, or
carries a mark, is ignored; another takes effect, and a READY slot that it leaves named by no entry is marked, FREE at
once if no call holds it. RETIRE_REQ does the same to a READY slot that no entry names, and is ignored for a FREE or
LOADING slot, a named one and a marked one. No other slot and no other entry changes. Rests on R246, R247, R249. -/
def Obligations.AdaptersLoadServeAndRetire : Prop :=
  ∀ s : State, s.dev.up = true → sparseWf s.dev.call.adpSlots = true → sparseWf s.dev.call.adpDir = true → let c := s.dev.call
    let others (d : Dev) (n : Nat) : Prop := (∀ k, k ≠ n → sget d.call.adpSlots k = sget c.adpSlots k) ∧ { d with call := c } = s.dev
    (∀ (n : BitVec 8) (t : BitVec 4), let x := s.dev.call.adpJob
      (x.isSome = true → Gives (.callAdpLoad n t) s { s.dev with call := { c with adpSlot := n, adpTenant := t } }) ∧
      (x = none → sget c.adpSlots n.toNat = none → GivesWith (.callAdpLoad n t) s fun d => sget d.call.adpSlots n.toNat = some { tenant := t.toNat } ∧
        d.call.adpJob = some (n.toNat, t.toNat, c.adpSrc.toNat) ∧ d.call.adpDir = c.adpDir ∧ others d n.toNat) ∧
      (x = none → (sget c.adpSlots n.toNat).isSome = true → GivesWith (.callAdpLoad n t) s fun d => d.call.adpErr = true ∧ d.call.adpCause = 1 ∧
        d.call.adpSlots = c.adpSlots ∧ d.call.adpJob = none ∧ d.call.adpDir = c.adpDir ∧ d.mem = s.dev.mem)) ∧
    (c.adpJob = none → Gives .adapterLoadDone s s.dev) ∧
    (∀ n t src, c.adpJob = some (n, t, src) → let b := 0x1_4000_0000 + 4096 * src
      (s.dev.imageCause b ≠ 0 → GivesWith .adapterLoadDone s fun d => d.call.adpErr = true ∧ d.call.adpCause = s.dev.imageCause b ∧ d.call.adpJob = none ∧
        sget d.call.adpSlots n = none ∧ (∀ k, k ≠ n → sget d.call.adpSlots k = sget c.adpSlots k) ∧ d.call.adpDir = c.adpDir ∧ d.mem = s.dev.mem) ∧
      (s.dev.imageCause b = 0 → n < 256 → src < 2 ^ 19 → Mem.wf s.dev.mem = true → GivesWith .adapterLoadDone s fun d => d.call.adpDone = true ∧ d.call.adpCause = 0 ∧ d.call.adpJob = none ∧
        sget d.call.adpSlots n = some { ready := true, tenant := t, version := BitVec.ofNat 32 (s.dev.img b 4 4) } ∧
        (∀ k, k ≠ n → sget d.call.adpSlots k = sget c.adpSlots k) ∧
        (∀ i < s.dev.img b 0xC 4, rd1 d.mem.hbm (adpSlotBase n + i) = rd1 s.dev.mem.hbm (b + i)) ∧
        (∀ x, x < adpSlotBase n ∨ adpSlotBase n + s.dev.img b 0xC 4 ≤ x → rd1 d.mem.hbm x = rd1 s.dev.mem.hbm x))) ∧
    (∀ n : BitVec 8, let k := n.toNat
      (c.named k = true → Gives (.retireReq n) s s.dev) ∧ (sget c.adpSlots k = none → Gives (.retireReq n) s s.dev) ∧
      (∀ x, sget c.adpSlots k = some x → c.named k = false → (x.ready = false → Gives (.retireReq n) s s.dev) ∧
        (x.ready = true → GivesWith (.retireReq n) s fun d => others d k ∧ d.call.adpDir = c.adpDir ∧
          sget d.call.adpSlots k = (if x.refs = 0 then none else some { x with retire := true })))) ∧
    (∀ (e n : BitVec 8), let k := n.toNat
      ((∀ x, sget c.adpSlots k = some x → x.ready = false ∨ x.retire = true) → Gives (.callAdpDirWrite e n true) s s.dev) ∧
      (∀ x, sget c.adpSlots k = some x → x.ready = true → x.retire = false → GivesWith (.callAdpDirWrite e n true) s fun d =>
        sget d.call.adpDir e.toNat = some (k, true) ∧ (∀ j, j ≠ e.toNat → sget d.call.adpDir j = sget c.adpDir j) ∧ sget d.call.adpSlots k = some x) ∧
      (∀ old x, sget c.adpDir e.toNat = some (old, true) → (∀ j, j ≠ e.toNat → sget c.adpDir j ≠ some (old, true)) → sget c.adpSlots old = some x → x.ready = true →
        GivesWith (.callAdpDirWrite e n false) s fun d => sget d.call.adpDir e.toNat = some (k, false) ∧ others d old ∧
          sget d.call.adpSlots old = (if x.refs = 0 then none else some { x with retire := true })))
end

