-- ==== Sys2Proof/Laws/Sparse.lean ====
section
/-! SUPPORT. What reading gives after a write of a table or a byte store, and that every write keeps the canonical form. -/
namespace Sys2Proof.Machine

variable {α : Type}

/-! ## Reading after a write -/

@[simp] theorem sget_nil (k : Nat) : sget ([] : Sparse α) k = none := rfl

@[simp] theorem sget_sput_self (m : Sparse α) (k : Nat) (v : α) : sget (sput m k v) k = some v := by
  induction m with
  | nil => simp [sput, sget]
  | cons e t ih =>
    obtain ⟨k', v'⟩ := e
    simp only [sput]
    split
    · simp [sget]
    · split
      · simp [sget]
      · rename_i h; simp [sget, h, ih]

theorem sget_sput_ne (m : Sparse α) {k j : Nat} (v : α) (h : j ≠ k) : sget (sput m k v) j = sget m j := by
  induction m with
  | nil => simp [sput, sget, h]
  | cons e t ih =>
    obtain ⟨k', v'⟩ := e
    simp only [sput]
    split
    · simp [sget, h]
    · split
      · rename_i hk; subst hk; simp [sget, h]
      · simp [sget, ih]

theorem sget_sput (m : Sparse α) (k j : Nat) (v : α) : sget (sput m k v) j = if j = k then some v else sget m j := by
  split
  · rename_i h; rw [h, sget_sput_self]
  · rename_i h; exact sget_sput_ne m v h

theorem sget_sdel_ne (m : Sparse α) {k j : Nat} (h : j ≠ k) : sget (sdel m k) j = sget m j := by
  induction m with
  | nil => rfl
  | cons e t ih =>
    obtain ⟨k', v'⟩ := e
    simp only [sdel]
    split
    · rename_i hk; subst hk; simp [sget, h]
    · simp [sget, ih]

/-- Nothing is listed below the first key of the canonical form. -/
theorem sget_below (m : Sparse α) {lo k : Nat} (w : sparseFrom lo m = true) (h : k < lo) : sget m k = none := by
  induction m generalizing lo with
  | nil => rfl
  | cons e t ih =>
    obtain ⟨k', v'⟩ := e
    simp only [sparseFrom, Bool.and_eq_true, decide_eq_true_eq] at w
    have : k ≠ k' := by omega
    simp only [sget, this, if_false]
    exact ih w.2 (by omega)

theorem sget_sdel_from (m : Sparse α) {lo : Nat} (k : Nat) (w : sparseFrom lo m = true) : sget (sdel m k) k = none := by
  induction m generalizing lo with
  | nil => rfl
  | cons e t ih =>
    obtain ⟨k', v'⟩ := e
    simp only [sparseFrom, Bool.and_eq_true, decide_eq_true_eq] at w
    simp only [sdel]
    split
    · rename_i hk; subst hk; exact sget_below t w.2 (by omega)
    · rename_i hk; simp only [sget, hk, if_false]; exact ih w.2

theorem sget_sdel_self (m : Sparse α) (k : Nat) (w : sparseWf m = true) : sget (sdel m k) k = none := sget_sdel_from m k w

theorem sget_sclear (m : Sparse α) (lo hi k : Nat) : sget (sclear m lo hi) k = if lo ≤ k ∧ k < hi then none else sget m k := by
  induction m with
  | nil => simp [sclear]
  | cons e t ih =>
    obtain ⟨k', v'⟩ := e
    simp only [sclear] at ih ⊢
    by_cases hk : k = k'
    · subst hk
      by_cases h : lo ≤ k ∧ k < hi
      · have : ¬ (k < lo ∨ hi ≤ k) := by omega
        simp_all
      · have : k < lo ∨ hi ≤ k := by omega
        simp_all [sget]
    · by_cases h : k' < lo ∨ hi ≤ k'
      · simp_all [sget]
      · simp_all [sget]

/-! ## The canonical form is kept -/

theorem sparseFrom_mono (m : Sparse α) {lo lo' : Nat} (h : lo' ≤ lo) (w : sparseFrom lo m = true) : sparseFrom lo' m = true := by
  cases m with
  | nil => rfl
  | cons e t =>
    obtain ⟨k', v'⟩ := e
    simp only [sparseFrom, Bool.and_eq_true, decide_eq_true_eq] at w ⊢
    exact ⟨by omega, w.2⟩

theorem sparseFrom_sput (m : Sparse α) {lo k : Nat} (v : α) (h : lo ≤ k) (w : sparseFrom lo m = true) : sparseFrom lo (sput m k v) = true := by
  induction m generalizing lo with
  | nil => simp [sput, sparseFrom, h]
  | cons e t ih =>
    obtain ⟨k', v'⟩ := e
    simp only [sparseFrom, Bool.and_eq_true, decide_eq_true_eq] at w
    simp only [sput]
    split
    · simp only [sparseFrom, Bool.and_eq_true, decide_eq_true_eq]; exact ⟨h, by omega, w.2⟩
    · split
      · rename_i hk; subst hk; simp only [sparseFrom, Bool.and_eq_true, decide_eq_true_eq]; exact ⟨h, w.2⟩
      · simp only [sparseFrom, Bool.and_eq_true, decide_eq_true_eq]; exact ⟨w.1, ih (by omega) w.2⟩

theorem sparseWf_sput (m : Sparse α) (k : Nat) (v : α) (w : sparseWf m = true) : sparseWf (sput m k v) = true :=
  sparseFrom_sput m v (Nat.zero_le k) w

theorem sparseFrom_filter (m : Sparse α) (p : Nat × α → Bool) {lo : Nat} (w : sparseFrom lo m = true) : sparseFrom lo (m.filter p) = true := by
  induction m generalizing lo with
  | nil => rfl
  | cons e t ih =>
    obtain ⟨k', v'⟩ := e
    simp only [sparseFrom, Bool.and_eq_true, decide_eq_true_eq] at w
    simp only [List.filter_cons]
    split
    · simp only [sparseFrom, Bool.and_eq_true, decide_eq_true_eq]; exact ⟨w.1, ih w.2⟩
    · exact ih (sparseFrom_mono t (by omega) w.2)

theorem sparseWf_filter (m : Sparse α) (p : Nat × α → Bool) (w : sparseWf m = true) : sparseWf (m.filter p) = true := sparseFrom_filter m p w

theorem sparseWf_sclear (m : Sparse α) (lo hi : Nat) (w : sparseWf m = true) : sparseWf (sclear m lo hi) = true := sparseWf_filter m _ w

theorem sparseFrom_sdel (m : Sparse α) (k : Nat) {lo : Nat} (w : sparseFrom lo m = true) : sparseFrom lo (sdel m k) = true := by
  induction m generalizing lo with
  | nil => rfl
  | cons e t ih =>
    obtain ⟨k', v'⟩ := e
    simp only [sparseFrom, Bool.and_eq_true, decide_eq_true_eq] at w
    simp only [sdel]
    split
    · exact sparseFrom_mono t (by omega) w.2
    · simp only [sparseFrom, Bool.and_eq_true, decide_eq_true_eq]; exact ⟨w.1, ih w.2⟩

theorem sparseWf_sdel (m : Sparse α) (k : Nat) (w : sparseWf m = true) : sparseWf (sdel m k) = true := sparseFrom_sdel m k w

theorem sparseWf_smod (m : Sparse α) (k : Nat) (d : α) (f : α → α) (w : sparseWf m = true) : sparseWf (smod m k d f) = true :=
  sparseWf_sput m k _ w

/-- A change of the values alone keeps the keys. -/
theorem sparseFrom_map {β : Type} (m : Sparse α) (f : Nat × α → Nat × β) (hf : ∀ e, (f e).1 = e.1) {lo : Nat} (w : sparseFrom lo m = true) :
    sparseFrom lo (m.map f) = true := by
  induction m generalizing lo with
  | nil => rfl
  | cons e t ih =>
    have he := hf e
    obtain ⟨k', v'⟩ := e
    simp only [sparseFrom, Bool.and_eq_true, decide_eq_true_eq] at w
    rcases h : f (k', v') with ⟨a, b⟩
    rw [h] at he
    simp only at he
    subst he
    simp only [List.map_cons, h, sparseFrom, Bool.and_eq_true, decide_eq_true_eq]
    exact ⟨w.1, ih w.2⟩

/-! ## Byte stores -/

/-- Writing a byte that is not 0 keeps every listed byte from being 0. -/
theorem all_sput (m : Sparse Byte) (k : Nat) {v : Byte} (hv : (v != 0) = true) (h : (m.all fun c => c.2 != 0) = true) :
    ((sput m k v).all fun c => c.2 != 0) = true := by
  induction m with
  | nil => simp only [sput, List.all_cons, List.all_nil, hv, Bool.and_self]
  | cons e t ih =>
    obtain ⟨k', v'⟩ := e
    simp only [List.all_cons, Bool.and_eq_true] at h
    simp only [sput]
    split
    · simp only [List.all_cons, Bool.and_eq_true]; exact ⟨hv, h.1, h.2⟩
    · split
      · simp only [List.all_cons, Bool.and_eq_true]; exact ⟨hv, h.2⟩
      · simp only [List.all_cons, Bool.and_eq_true]; exact ⟨h.1, ih h.2⟩

theorem all_sdel (m : Sparse Byte) (k : Nat) (h : (m.all fun c => c.2 != 0) = true) : ((sdel m k).all fun c => c.2 != 0) = true := by
  induction m with
  | nil => rfl
  | cons e t ih =>
    obtain ⟨k', v'⟩ := e
    simp only [List.all_cons, Bool.and_eq_true] at h
    simp only [sdel]
    split
    · exact h.2
    · simp only [List.all_cons, Bool.and_eq_true]; exact ⟨h.1, ih h.2⟩

@[simp] theorem cellsWf_nil : cellsWf [] = true := rfl

theorem cellsWf_wr1 (m : Sparse Byte) (a : Nat) (b : Byte) (w : cellsWf m = true) : cellsWf (wr1 m a b) = true := by
  simp only [cellsWf, Bool.and_eq_true] at w ⊢
  unfold wr1
  split
  · exact ⟨sparseWf_sdel m a w.1, all_sdel m a w.2⟩
  · rename_i h; exact ⟨sparseWf_sput m a b w.1, all_sput m a (by simpa using h) w.2⟩

theorem cellsWf_wrN (m : Sparse Byte) (a : Nat) (bs : List Byte) (w : cellsWf m = true) : cellsWf (wrN m a bs) = true := by
  induction bs generalizing m a with
  | nil => exact w
  | cons b t ih => exact ih (wr1 m a b) (a + 1) (cellsWf_wr1 m a b w)

theorem cellsWf_filter (m : Sparse Byte) (p : Nat × Byte → Bool) (w : cellsWf m = true) : cellsWf (m.filter p) = true := by
  simp only [cellsWf, Bool.and_eq_true] at w ⊢
  refine ⟨sparseWf_filter m p w.1, ?_⟩
  rw [List.all_eq_true] at *
  intro x hx
  exact w.2 x (List.mem_filter.mp hx).1

theorem cellsWf_zeroRange (m : Sparse Byte) (lo hi : Nat) (w : cellsWf m = true) : cellsWf (zeroRange m lo hi) = true := cellsWf_filter m _ w

/-- A byte written reads back; 0 removes the entry, and an unlisted address reads 0. -/
theorem rd1_wr1_self (m : Sparse Byte) (a : Nat) (b : Byte) (w : sparseWf m = true) : rd1 (wr1 m a b) a = b := by
  unfold rd1 sgetD wr1
  split
  · rename_i h; simp [sget_sdel_self m a w, h]
  · simp

theorem rd1_wr1_ne (m : Sparse Byte) {a x : Nat} (b : Byte) (h : x ≠ a) : rd1 (wr1 m a b) x = rd1 m x := by
  unfold rd1 sgetD wr1
  split
  · rw [sget_sdel_ne m h]
  · rw [sget_sput_ne m b h]

theorem sparseWf_wr1 (m : Sparse Byte) (a : Nat) (b : Byte) (w : sparseWf m = true) : sparseWf (wr1 m a b) = true := by
  unfold wr1
  split
  · exact sparseWf_sdel m a w
  · exact sparseWf_sput m a b w

theorem sparseWf_wrN (m : Sparse Byte) (a : Nat) (bs : List Byte) (w : sparseWf m = true) : sparseWf (wrN m a bs) = true := by
  induction bs generalizing m a with
  | nil => exact w
  | cons b t ih => exact ih (wr1 m a b) (a + 1) (sparseWf_wr1 m a b w)

/-- Bytes outside what is written keep their values. -/
theorem rd1_wrN_outside (m : Sparse Byte) (a x : Nat) (bs : List Byte) (h : x < a ∨ a + bs.length ≤ x) : rd1 (wrN m a bs) x = rd1 m x := by
  induction bs generalizing m a with
  | nil => rfl
  | cons b t ih =>
    simp only [List.length_cons] at h
    simp only [wrN]
    rw [ih (wr1 m a b) (a + 1) (by omega), rd1_wr1_ne m b (by omega)]

/-- What is written reads back. -/
theorem rd1_wrN_inside (m : Sparse Byte) (a i : Nat) (bs : List Byte) (w : sparseWf m = true) (h : i < bs.length) :
    rd1 (wrN m a bs) (a + i) = bs.getD i 0 := by
  induction bs generalizing m a i with
  | nil => simp at h
  | cons b t ih =>
    simp only [wrN]
    cases i with
    | zero =>
      rw [rd1_wrN_outside _ _ _ _ (Or.inl (by omega))]
      simpa using rd1_wr1_self m a b w
    | succ n =>
      have := ih (wr1 m a b) (a + 1) n (sparseWf_wr1 m a b w) (by simpa using h)
      rw [show a + (n + 1) = a + 1 + n by omega, this]
      simp

theorem rd1_zeroRange (m : Sparse Byte) (lo hi x : Nat) : rd1 (zeroRange m lo hi) x = if lo ≤ x ∧ x < hi then 0 else rd1 m x := by
  unfold rd1 sgetD zeroRange
  rw [sget_sclear]
  split <;> simp

end Sys2Proof.Machine
end

