-- ==== Sys2Proof/Laws/State.lean ====
section
/-! SUPPORT. What each setter of Ops.lean does to each field of a device, true by definition, and what a command's outcome is:
no later proof unfolds a record update. -/
namespace Sys2Proof.Machine

variable (d : Dev)

/-! ## modSys -/
@[simp] theorem Dev.modSys_now (f : Sys → Sys) : (d.modSys f).now = d.now := rfl
@[simp] theorem Dev.modSys_freeCtr (f : Sys → Sys) : (d.modSys f).freeCtr = d.freeCtr := rfl
@[simp] theorem Dev.modSys_sys (f : Sys → Sys) : (d.modSys f).sys = f d.sys := rfl
@[simp] theorem Dev.modSys_err (f : Sys → Sys) : (d.modSys f).err = d.err := rfl
@[simp] theorem Dev.modSys_mem (f : Sys → Sys) : (d.modSys f).mem = d.mem := rfl
@[simp] theorem Dev.modSys_host (f : Sys → Sys) : (d.modSys f).host = d.host := rfl
@[simp] theorem Dev.modSys_thm (f : Sys → Sys) : (d.modSys f).thm = d.thm := rfl
@[simp] theorem Dev.modSys_hkc (f : Sys → Sys) : (d.modSys f).hkc = d.hkc := rfl
@[simp] theorem Dev.modSys_sec (f : Sys → Sys) : (d.modSys f).sec = d.sec := rfl
@[simp] theorem Dev.modSys_dbg (f : Sys → Sys) : (d.modSys f).dbg = d.dbg := rfl
@[simp] theorem Dev.modSys_call (f : Sys → Sys) : (d.modSys f).call = d.call := rfl
@[simp] theorem Dev.modSys_frm (f : Sys → Sys) : (d.modSys f).frm = d.frm := rfl
@[simp] theorem Dev.modSys_mesh (f : Sys → Sys) : (d.modSys f).mesh = d.mesh := rfl
@[simp] theorem Dev.modSys_scr (f : Sys → Sys) : (d.modSys f).scr = d.scr := rfl
@[simp] theorem Dev.modSys_eng (f : Sys → Sys) : (d.modSys f).eng = d.eng := rfl
@[simp] theorem Dev.modSys_tile (f : Sys → Sys) : (d.modSys f).tile = d.tile := rfl
@[simp] theorem Dev.modSys_wts (f : Sys → Sys) : (d.modSys f).wts = d.wts := rfl
@[simp] theorem Dev.modSys_kv (f : Sys → Sys) : (d.modSys f).kv = d.kv := rfl
@[simp] theorem Dev.modSys_out (f : Sys → Sys) : (d.modSys f).out = d.out := rfl
/-- Two changes of one block are one. -/
theorem Dev.modSys_modSys (f g : Sys → Sys) : (d.modSys f).modSys g = d.modSys fun x => g (f x) := rfl

/-! ## modErr -/
@[simp] theorem Dev.modErr_now (f : Err → Err) : (d.modErr f).now = d.now := rfl
@[simp] theorem Dev.modErr_freeCtr (f : Err → Err) : (d.modErr f).freeCtr = d.freeCtr := rfl
@[simp] theorem Dev.modErr_sys (f : Err → Err) : (d.modErr f).sys = d.sys := rfl
@[simp] theorem Dev.modErr_err (f : Err → Err) : (d.modErr f).err = f d.err := rfl
@[simp] theorem Dev.modErr_mem (f : Err → Err) : (d.modErr f).mem = d.mem := rfl
@[simp] theorem Dev.modErr_host (f : Err → Err) : (d.modErr f).host = d.host := rfl
@[simp] theorem Dev.modErr_thm (f : Err → Err) : (d.modErr f).thm = d.thm := rfl
@[simp] theorem Dev.modErr_hkc (f : Err → Err) : (d.modErr f).hkc = d.hkc := rfl
@[simp] theorem Dev.modErr_sec (f : Err → Err) : (d.modErr f).sec = d.sec := rfl
@[simp] theorem Dev.modErr_dbg (f : Err → Err) : (d.modErr f).dbg = d.dbg := rfl
@[simp] theorem Dev.modErr_call (f : Err → Err) : (d.modErr f).call = d.call := rfl
@[simp] theorem Dev.modErr_frm (f : Err → Err) : (d.modErr f).frm = d.frm := rfl
@[simp] theorem Dev.modErr_mesh (f : Err → Err) : (d.modErr f).mesh = d.mesh := rfl
@[simp] theorem Dev.modErr_scr (f : Err → Err) : (d.modErr f).scr = d.scr := rfl
@[simp] theorem Dev.modErr_eng (f : Err → Err) : (d.modErr f).eng = d.eng := rfl
@[simp] theorem Dev.modErr_tile (f : Err → Err) : (d.modErr f).tile = d.tile := rfl
@[simp] theorem Dev.modErr_wts (f : Err → Err) : (d.modErr f).wts = d.wts := rfl
@[simp] theorem Dev.modErr_kv (f : Err → Err) : (d.modErr f).kv = d.kv := rfl
@[simp] theorem Dev.modErr_out (f : Err → Err) : (d.modErr f).out = d.out := rfl
/-- Two changes of one block are one. -/
theorem Dev.modErr_modErr (f g : Err → Err) : (d.modErr f).modErr g = d.modErr fun x => g (f x) := rfl

/-! ## modMem -/
@[simp] theorem Dev.modMem_now (f : Mem → Mem) : (d.modMem f).now = d.now := rfl
@[simp] theorem Dev.modMem_freeCtr (f : Mem → Mem) : (d.modMem f).freeCtr = d.freeCtr := rfl
@[simp] theorem Dev.modMem_sys (f : Mem → Mem) : (d.modMem f).sys = d.sys := rfl
@[simp] theorem Dev.modMem_err (f : Mem → Mem) : (d.modMem f).err = d.err := rfl
@[simp] theorem Dev.modMem_mem (f : Mem → Mem) : (d.modMem f).mem = f d.mem := rfl
@[simp] theorem Dev.modMem_host (f : Mem → Mem) : (d.modMem f).host = d.host := rfl
@[simp] theorem Dev.modMem_thm (f : Mem → Mem) : (d.modMem f).thm = d.thm := rfl
@[simp] theorem Dev.modMem_hkc (f : Mem → Mem) : (d.modMem f).hkc = d.hkc := rfl
@[simp] theorem Dev.modMem_sec (f : Mem → Mem) : (d.modMem f).sec = d.sec := rfl
@[simp] theorem Dev.modMem_dbg (f : Mem → Mem) : (d.modMem f).dbg = d.dbg := rfl
@[simp] theorem Dev.modMem_call (f : Mem → Mem) : (d.modMem f).call = d.call := rfl
@[simp] theorem Dev.modMem_frm (f : Mem → Mem) : (d.modMem f).frm = d.frm := rfl
@[simp] theorem Dev.modMem_mesh (f : Mem → Mem) : (d.modMem f).mesh = d.mesh := rfl
@[simp] theorem Dev.modMem_scr (f : Mem → Mem) : (d.modMem f).scr = d.scr := rfl
@[simp] theorem Dev.modMem_eng (f : Mem → Mem) : (d.modMem f).eng = d.eng := rfl
@[simp] theorem Dev.modMem_tile (f : Mem → Mem) : (d.modMem f).tile = d.tile := rfl
@[simp] theorem Dev.modMem_wts (f : Mem → Mem) : (d.modMem f).wts = d.wts := rfl
@[simp] theorem Dev.modMem_kv (f : Mem → Mem) : (d.modMem f).kv = d.kv := rfl
@[simp] theorem Dev.modMem_out (f : Mem → Mem) : (d.modMem f).out = d.out := rfl
/-- Two changes of one block are one. -/
theorem Dev.modMem_modMem (f g : Mem → Mem) : (d.modMem f).modMem g = d.modMem fun x => g (f x) := rfl

/-! ## modHost -/
@[simp] theorem Dev.modHost_now (f : HostIf → HostIf) : (d.modHost f).now = d.now := rfl
@[simp] theorem Dev.modHost_freeCtr (f : HostIf → HostIf) : (d.modHost f).freeCtr = d.freeCtr := rfl
@[simp] theorem Dev.modHost_sys (f : HostIf → HostIf) : (d.modHost f).sys = d.sys := rfl
@[simp] theorem Dev.modHost_err (f : HostIf → HostIf) : (d.modHost f).err = d.err := rfl
@[simp] theorem Dev.modHost_mem (f : HostIf → HostIf) : (d.modHost f).mem = d.mem := rfl
@[simp] theorem Dev.modHost_host (f : HostIf → HostIf) : (d.modHost f).host = f d.host := rfl
@[simp] theorem Dev.modHost_thm (f : HostIf → HostIf) : (d.modHost f).thm = d.thm := rfl
@[simp] theorem Dev.modHost_hkc (f : HostIf → HostIf) : (d.modHost f).hkc = d.hkc := rfl
@[simp] theorem Dev.modHost_sec (f : HostIf → HostIf) : (d.modHost f).sec = d.sec := rfl
@[simp] theorem Dev.modHost_dbg (f : HostIf → HostIf) : (d.modHost f).dbg = d.dbg := rfl
@[simp] theorem Dev.modHost_call (f : HostIf → HostIf) : (d.modHost f).call = d.call := rfl
@[simp] theorem Dev.modHost_frm (f : HostIf → HostIf) : (d.modHost f).frm = d.frm := rfl
@[simp] theorem Dev.modHost_mesh (f : HostIf → HostIf) : (d.modHost f).mesh = d.mesh := rfl
@[simp] theorem Dev.modHost_scr (f : HostIf → HostIf) : (d.modHost f).scr = d.scr := rfl
@[simp] theorem Dev.modHost_eng (f : HostIf → HostIf) : (d.modHost f).eng = d.eng := rfl
@[simp] theorem Dev.modHost_tile (f : HostIf → HostIf) : (d.modHost f).tile = d.tile := rfl
@[simp] theorem Dev.modHost_wts (f : HostIf → HostIf) : (d.modHost f).wts = d.wts := rfl
@[simp] theorem Dev.modHost_kv (f : HostIf → HostIf) : (d.modHost f).kv = d.kv := rfl
@[simp] theorem Dev.modHost_out (f : HostIf → HostIf) : (d.modHost f).out = d.out := rfl
/-- Two changes of one block are one. -/
theorem Dev.modHost_modHost (f g : HostIf → HostIf) : (d.modHost f).modHost g = d.modHost fun x => g (f x) := rfl

/-! ## modThm -/
@[simp] theorem Dev.modThm_now (f : Thm → Thm) : (d.modThm f).now = d.now := rfl
@[simp] theorem Dev.modThm_freeCtr (f : Thm → Thm) : (d.modThm f).freeCtr = d.freeCtr := rfl
@[simp] theorem Dev.modThm_sys (f : Thm → Thm) : (d.modThm f).sys = d.sys := rfl
@[simp] theorem Dev.modThm_err (f : Thm → Thm) : (d.modThm f).err = d.err := rfl
@[simp] theorem Dev.modThm_mem (f : Thm → Thm) : (d.modThm f).mem = d.mem := rfl
@[simp] theorem Dev.modThm_host (f : Thm → Thm) : (d.modThm f).host = d.host := rfl
@[simp] theorem Dev.modThm_thm (f : Thm → Thm) : (d.modThm f).thm = f d.thm := rfl
@[simp] theorem Dev.modThm_hkc (f : Thm → Thm) : (d.modThm f).hkc = d.hkc := rfl
@[simp] theorem Dev.modThm_sec (f : Thm → Thm) : (d.modThm f).sec = d.sec := rfl
@[simp] theorem Dev.modThm_dbg (f : Thm → Thm) : (d.modThm f).dbg = d.dbg := rfl
@[simp] theorem Dev.modThm_call (f : Thm → Thm) : (d.modThm f).call = d.call := rfl
@[simp] theorem Dev.modThm_frm (f : Thm → Thm) : (d.modThm f).frm = d.frm := rfl
@[simp] theorem Dev.modThm_mesh (f : Thm → Thm) : (d.modThm f).mesh = d.mesh := rfl
@[simp] theorem Dev.modThm_scr (f : Thm → Thm) : (d.modThm f).scr = d.scr := rfl
@[simp] theorem Dev.modThm_eng (f : Thm → Thm) : (d.modThm f).eng = d.eng := rfl
@[simp] theorem Dev.modThm_tile (f : Thm → Thm) : (d.modThm f).tile = d.tile := rfl
@[simp] theorem Dev.modThm_wts (f : Thm → Thm) : (d.modThm f).wts = d.wts := rfl
@[simp] theorem Dev.modThm_kv (f : Thm → Thm) : (d.modThm f).kv = d.kv := rfl
@[simp] theorem Dev.modThm_out (f : Thm → Thm) : (d.modThm f).out = d.out := rfl
/-- Two changes of one block are one. -/
theorem Dev.modThm_modThm (f g : Thm → Thm) : (d.modThm f).modThm g = d.modThm fun x => g (f x) := rfl

/-! ## modHkc -/
@[simp] theorem Dev.modHkc_now (f : Hkc → Hkc) : (d.modHkc f).now = d.now := rfl
@[simp] theorem Dev.modHkc_freeCtr (f : Hkc → Hkc) : (d.modHkc f).freeCtr = d.freeCtr := rfl
@[simp] theorem Dev.modHkc_sys (f : Hkc → Hkc) : (d.modHkc f).sys = d.sys := rfl
@[simp] theorem Dev.modHkc_err (f : Hkc → Hkc) : (d.modHkc f).err = d.err := rfl
@[simp] theorem Dev.modHkc_mem (f : Hkc → Hkc) : (d.modHkc f).mem = d.mem := rfl
@[simp] theorem Dev.modHkc_host (f : Hkc → Hkc) : (d.modHkc f).host = d.host := rfl
@[simp] theorem Dev.modHkc_thm (f : Hkc → Hkc) : (d.modHkc f).thm = d.thm := rfl
@[simp] theorem Dev.modHkc_hkc (f : Hkc → Hkc) : (d.modHkc f).hkc = f d.hkc := rfl
@[simp] theorem Dev.modHkc_sec (f : Hkc → Hkc) : (d.modHkc f).sec = d.sec := rfl
@[simp] theorem Dev.modHkc_dbg (f : Hkc → Hkc) : (d.modHkc f).dbg = d.dbg := rfl
@[simp] theorem Dev.modHkc_call (f : Hkc → Hkc) : (d.modHkc f).call = d.call := rfl
@[simp] theorem Dev.modHkc_frm (f : Hkc → Hkc) : (d.modHkc f).frm = d.frm := rfl
@[simp] theorem Dev.modHkc_mesh (f : Hkc → Hkc) : (d.modHkc f).mesh = d.mesh := rfl
@[simp] theorem Dev.modHkc_scr (f : Hkc → Hkc) : (d.modHkc f).scr = d.scr := rfl
@[simp] theorem Dev.modHkc_eng (f : Hkc → Hkc) : (d.modHkc f).eng = d.eng := rfl
@[simp] theorem Dev.modHkc_tile (f : Hkc → Hkc) : (d.modHkc f).tile = d.tile := rfl
@[simp] theorem Dev.modHkc_wts (f : Hkc → Hkc) : (d.modHkc f).wts = d.wts := rfl
@[simp] theorem Dev.modHkc_kv (f : Hkc → Hkc) : (d.modHkc f).kv = d.kv := rfl
@[simp] theorem Dev.modHkc_out (f : Hkc → Hkc) : (d.modHkc f).out = d.out := rfl
/-- Two changes of one block are one. -/
theorem Dev.modHkc_modHkc (f g : Hkc → Hkc) : (d.modHkc f).modHkc g = d.modHkc fun x => g (f x) := rfl

/-! ## modSec -/
@[simp] theorem Dev.modSec_now (f : Sec → Sec) : (d.modSec f).now = d.now := rfl
@[simp] theorem Dev.modSec_freeCtr (f : Sec → Sec) : (d.modSec f).freeCtr = d.freeCtr := rfl
@[simp] theorem Dev.modSec_sys (f : Sec → Sec) : (d.modSec f).sys = d.sys := rfl
@[simp] theorem Dev.modSec_err (f : Sec → Sec) : (d.modSec f).err = d.err := rfl
@[simp] theorem Dev.modSec_mem (f : Sec → Sec) : (d.modSec f).mem = d.mem := rfl
@[simp] theorem Dev.modSec_host (f : Sec → Sec) : (d.modSec f).host = d.host := rfl
@[simp] theorem Dev.modSec_thm (f : Sec → Sec) : (d.modSec f).thm = d.thm := rfl
@[simp] theorem Dev.modSec_hkc (f : Sec → Sec) : (d.modSec f).hkc = d.hkc := rfl
@[simp] theorem Dev.modSec_sec (f : Sec → Sec) : (d.modSec f).sec = f d.sec := rfl
@[simp] theorem Dev.modSec_dbg (f : Sec → Sec) : (d.modSec f).dbg = d.dbg := rfl
@[simp] theorem Dev.modSec_call (f : Sec → Sec) : (d.modSec f).call = d.call := rfl
@[simp] theorem Dev.modSec_frm (f : Sec → Sec) : (d.modSec f).frm = d.frm := rfl
@[simp] theorem Dev.modSec_mesh (f : Sec → Sec) : (d.modSec f).mesh = d.mesh := rfl
@[simp] theorem Dev.modSec_scr (f : Sec → Sec) : (d.modSec f).scr = d.scr := rfl
@[simp] theorem Dev.modSec_eng (f : Sec → Sec) : (d.modSec f).eng = d.eng := rfl
@[simp] theorem Dev.modSec_tile (f : Sec → Sec) : (d.modSec f).tile = d.tile := rfl
@[simp] theorem Dev.modSec_wts (f : Sec → Sec) : (d.modSec f).wts = d.wts := rfl
@[simp] theorem Dev.modSec_kv (f : Sec → Sec) : (d.modSec f).kv = d.kv := rfl
@[simp] theorem Dev.modSec_out (f : Sec → Sec) : (d.modSec f).out = d.out := rfl
/-- Two changes of one block are one. -/
theorem Dev.modSec_modSec (f g : Sec → Sec) : (d.modSec f).modSec g = d.modSec fun x => g (f x) := rfl

/-! ## modDbg -/
@[simp] theorem Dev.modDbg_now (f : Dbg → Dbg) : (d.modDbg f).now = d.now := rfl
@[simp] theorem Dev.modDbg_freeCtr (f : Dbg → Dbg) : (d.modDbg f).freeCtr = d.freeCtr := rfl
@[simp] theorem Dev.modDbg_sys (f : Dbg → Dbg) : (d.modDbg f).sys = d.sys := rfl
@[simp] theorem Dev.modDbg_err (f : Dbg → Dbg) : (d.modDbg f).err = d.err := rfl
@[simp] theorem Dev.modDbg_mem (f : Dbg → Dbg) : (d.modDbg f).mem = d.mem := rfl
@[simp] theorem Dev.modDbg_host (f : Dbg → Dbg) : (d.modDbg f).host = d.host := rfl
@[simp] theorem Dev.modDbg_thm (f : Dbg → Dbg) : (d.modDbg f).thm = d.thm := rfl
@[simp] theorem Dev.modDbg_hkc (f : Dbg → Dbg) : (d.modDbg f).hkc = d.hkc := rfl
@[simp] theorem Dev.modDbg_sec (f : Dbg → Dbg) : (d.modDbg f).sec = d.sec := rfl
@[simp] theorem Dev.modDbg_dbg (f : Dbg → Dbg) : (d.modDbg f).dbg = f d.dbg := rfl
@[simp] theorem Dev.modDbg_call (f : Dbg → Dbg) : (d.modDbg f).call = d.call := rfl
@[simp] theorem Dev.modDbg_frm (f : Dbg → Dbg) : (d.modDbg f).frm = d.frm := rfl
@[simp] theorem Dev.modDbg_mesh (f : Dbg → Dbg) : (d.modDbg f).mesh = d.mesh := rfl
@[simp] theorem Dev.modDbg_scr (f : Dbg → Dbg) : (d.modDbg f).scr = d.scr := rfl
@[simp] theorem Dev.modDbg_eng (f : Dbg → Dbg) : (d.modDbg f).eng = d.eng := rfl
@[simp] theorem Dev.modDbg_tile (f : Dbg → Dbg) : (d.modDbg f).tile = d.tile := rfl
@[simp] theorem Dev.modDbg_wts (f : Dbg → Dbg) : (d.modDbg f).wts = d.wts := rfl
@[simp] theorem Dev.modDbg_kv (f : Dbg → Dbg) : (d.modDbg f).kv = d.kv := rfl
@[simp] theorem Dev.modDbg_out (f : Dbg → Dbg) : (d.modDbg f).out = d.out := rfl
/-- Two changes of one block are one. -/
theorem Dev.modDbg_modDbg (f g : Dbg → Dbg) : (d.modDbg f).modDbg g = d.modDbg fun x => g (f x) := rfl

/-! ## modCall -/
@[simp] theorem Dev.modCall_now (f : Call → Call) : (d.modCall f).now = d.now := rfl
@[simp] theorem Dev.modCall_freeCtr (f : Call → Call) : (d.modCall f).freeCtr = d.freeCtr := rfl
@[simp] theorem Dev.modCall_sys (f : Call → Call) : (d.modCall f).sys = d.sys := rfl
@[simp] theorem Dev.modCall_err (f : Call → Call) : (d.modCall f).err = d.err := rfl
@[simp] theorem Dev.modCall_mem (f : Call → Call) : (d.modCall f).mem = d.mem := rfl
@[simp] theorem Dev.modCall_host (f : Call → Call) : (d.modCall f).host = d.host := rfl
@[simp] theorem Dev.modCall_thm (f : Call → Call) : (d.modCall f).thm = d.thm := rfl
@[simp] theorem Dev.modCall_hkc (f : Call → Call) : (d.modCall f).hkc = d.hkc := rfl
@[simp] theorem Dev.modCall_sec (f : Call → Call) : (d.modCall f).sec = d.sec := rfl
@[simp] theorem Dev.modCall_dbg (f : Call → Call) : (d.modCall f).dbg = d.dbg := rfl
@[simp] theorem Dev.modCall_call (f : Call → Call) : (d.modCall f).call = f d.call := rfl
@[simp] theorem Dev.modCall_frm (f : Call → Call) : (d.modCall f).frm = d.frm := rfl
@[simp] theorem Dev.modCall_mesh (f : Call → Call) : (d.modCall f).mesh = d.mesh := rfl
@[simp] theorem Dev.modCall_scr (f : Call → Call) : (d.modCall f).scr = d.scr := rfl
@[simp] theorem Dev.modCall_eng (f : Call → Call) : (d.modCall f).eng = d.eng := rfl
@[simp] theorem Dev.modCall_tile (f : Call → Call) : (d.modCall f).tile = d.tile := rfl
@[simp] theorem Dev.modCall_wts (f : Call → Call) : (d.modCall f).wts = d.wts := rfl
@[simp] theorem Dev.modCall_kv (f : Call → Call) : (d.modCall f).kv = d.kv := rfl
@[simp] theorem Dev.modCall_out (f : Call → Call) : (d.modCall f).out = d.out := rfl
/-- Two changes of one block are one. -/
theorem Dev.modCall_modCall (f g : Call → Call) : (d.modCall f).modCall g = d.modCall fun x => g (f x) := rfl

/-! ## modFrm -/
@[simp] theorem Dev.modFrm_now (f : Frm → Frm) : (d.modFrm f).now = d.now := rfl
@[simp] theorem Dev.modFrm_freeCtr (f : Frm → Frm) : (d.modFrm f).freeCtr = d.freeCtr := rfl
@[simp] theorem Dev.modFrm_sys (f : Frm → Frm) : (d.modFrm f).sys = d.sys := rfl
@[simp] theorem Dev.modFrm_err (f : Frm → Frm) : (d.modFrm f).err = d.err := rfl
@[simp] theorem Dev.modFrm_mem (f : Frm → Frm) : (d.modFrm f).mem = d.mem := rfl
@[simp] theorem Dev.modFrm_host (f : Frm → Frm) : (d.modFrm f).host = d.host := rfl
@[simp] theorem Dev.modFrm_thm (f : Frm → Frm) : (d.modFrm f).thm = d.thm := rfl
@[simp] theorem Dev.modFrm_hkc (f : Frm → Frm) : (d.modFrm f).hkc = d.hkc := rfl
@[simp] theorem Dev.modFrm_sec (f : Frm → Frm) : (d.modFrm f).sec = d.sec := rfl
@[simp] theorem Dev.modFrm_dbg (f : Frm → Frm) : (d.modFrm f).dbg = d.dbg := rfl
@[simp] theorem Dev.modFrm_call (f : Frm → Frm) : (d.modFrm f).call = d.call := rfl
@[simp] theorem Dev.modFrm_frm (f : Frm → Frm) : (d.modFrm f).frm = f d.frm := rfl
@[simp] theorem Dev.modFrm_mesh (f : Frm → Frm) : (d.modFrm f).mesh = d.mesh := rfl
@[simp] theorem Dev.modFrm_scr (f : Frm → Frm) : (d.modFrm f).scr = d.scr := rfl
@[simp] theorem Dev.modFrm_eng (f : Frm → Frm) : (d.modFrm f).eng = d.eng := rfl
@[simp] theorem Dev.modFrm_tile (f : Frm → Frm) : (d.modFrm f).tile = d.tile := rfl
@[simp] theorem Dev.modFrm_wts (f : Frm → Frm) : (d.modFrm f).wts = d.wts := rfl
@[simp] theorem Dev.modFrm_kv (f : Frm → Frm) : (d.modFrm f).kv = d.kv := rfl
@[simp] theorem Dev.modFrm_out (f : Frm → Frm) : (d.modFrm f).out = d.out := rfl
/-- Two changes of one block are one. -/
theorem Dev.modFrm_modFrm (f g : Frm → Frm) : (d.modFrm f).modFrm g = d.modFrm fun x => g (f x) := rfl

/-! ## modMesh -/
@[simp] theorem Dev.modMesh_now (f : Mesh → Mesh) : (d.modMesh f).now = d.now := rfl
@[simp] theorem Dev.modMesh_freeCtr (f : Mesh → Mesh) : (d.modMesh f).freeCtr = d.freeCtr := rfl
@[simp] theorem Dev.modMesh_sys (f : Mesh → Mesh) : (d.modMesh f).sys = d.sys := rfl
@[simp] theorem Dev.modMesh_err (f : Mesh → Mesh) : (d.modMesh f).err = d.err := rfl
@[simp] theorem Dev.modMesh_mem (f : Mesh → Mesh) : (d.modMesh f).mem = d.mem := rfl
@[simp] theorem Dev.modMesh_host (f : Mesh → Mesh) : (d.modMesh f).host = d.host := rfl
@[simp] theorem Dev.modMesh_thm (f : Mesh → Mesh) : (d.modMesh f).thm = d.thm := rfl
@[simp] theorem Dev.modMesh_hkc (f : Mesh → Mesh) : (d.modMesh f).hkc = d.hkc := rfl
@[simp] theorem Dev.modMesh_sec (f : Mesh → Mesh) : (d.modMesh f).sec = d.sec := rfl
@[simp] theorem Dev.modMesh_dbg (f : Mesh → Mesh) : (d.modMesh f).dbg = d.dbg := rfl
@[simp] theorem Dev.modMesh_call (f : Mesh → Mesh) : (d.modMesh f).call = d.call := rfl
@[simp] theorem Dev.modMesh_frm (f : Mesh → Mesh) : (d.modMesh f).frm = d.frm := rfl
@[simp] theorem Dev.modMesh_mesh (f : Mesh → Mesh) : (d.modMesh f).mesh = f d.mesh := rfl
@[simp] theorem Dev.modMesh_scr (f : Mesh → Mesh) : (d.modMesh f).scr = d.scr := rfl
@[simp] theorem Dev.modMesh_eng (f : Mesh → Mesh) : (d.modMesh f).eng = d.eng := rfl
@[simp] theorem Dev.modMesh_tile (f : Mesh → Mesh) : (d.modMesh f).tile = d.tile := rfl
@[simp] theorem Dev.modMesh_wts (f : Mesh → Mesh) : (d.modMesh f).wts = d.wts := rfl
@[simp] theorem Dev.modMesh_kv (f : Mesh → Mesh) : (d.modMesh f).kv = d.kv := rfl
@[simp] theorem Dev.modMesh_out (f : Mesh → Mesh) : (d.modMesh f).out = d.out := rfl
/-- Two changes of one block are one. -/
theorem Dev.modMesh_modMesh (f g : Mesh → Mesh) : (d.modMesh f).modMesh g = d.modMesh fun x => g (f x) := rfl

/-! ## modScr -/
@[simp] theorem Dev.modScr_now (f : Scr → Scr) : (d.modScr f).now = d.now := rfl
@[simp] theorem Dev.modScr_freeCtr (f : Scr → Scr) : (d.modScr f).freeCtr = d.freeCtr := rfl
@[simp] theorem Dev.modScr_sys (f : Scr → Scr) : (d.modScr f).sys = d.sys := rfl
@[simp] theorem Dev.modScr_err (f : Scr → Scr) : (d.modScr f).err = d.err := rfl
@[simp] theorem Dev.modScr_mem (f : Scr → Scr) : (d.modScr f).mem = d.mem := rfl
@[simp] theorem Dev.modScr_host (f : Scr → Scr) : (d.modScr f).host = d.host := rfl
@[simp] theorem Dev.modScr_thm (f : Scr → Scr) : (d.modScr f).thm = d.thm := rfl
@[simp] theorem Dev.modScr_hkc (f : Scr → Scr) : (d.modScr f).hkc = d.hkc := rfl
@[simp] theorem Dev.modScr_sec (f : Scr → Scr) : (d.modScr f).sec = d.sec := rfl
@[simp] theorem Dev.modScr_dbg (f : Scr → Scr) : (d.modScr f).dbg = d.dbg := rfl
@[simp] theorem Dev.modScr_call (f : Scr → Scr) : (d.modScr f).call = d.call := rfl
@[simp] theorem Dev.modScr_frm (f : Scr → Scr) : (d.modScr f).frm = d.frm := rfl
@[simp] theorem Dev.modScr_mesh (f : Scr → Scr) : (d.modScr f).mesh = d.mesh := rfl
@[simp] theorem Dev.modScr_scr (f : Scr → Scr) : (d.modScr f).scr = f d.scr := rfl
@[simp] theorem Dev.modScr_eng (f : Scr → Scr) : (d.modScr f).eng = d.eng := rfl
@[simp] theorem Dev.modScr_tile (f : Scr → Scr) : (d.modScr f).tile = d.tile := rfl
@[simp] theorem Dev.modScr_wts (f : Scr → Scr) : (d.modScr f).wts = d.wts := rfl
@[simp] theorem Dev.modScr_kv (f : Scr → Scr) : (d.modScr f).kv = d.kv := rfl
@[simp] theorem Dev.modScr_out (f : Scr → Scr) : (d.modScr f).out = d.out := rfl
/-- Two changes of one block are one. -/
theorem Dev.modScr_modScr (f g : Scr → Scr) : (d.modScr f).modScr g = d.modScr fun x => g (f x) := rfl

/-! ## modEng -/
@[simp] theorem Dev.modEng_now (f : Eng → Eng) : (d.modEng f).now = d.now := rfl
@[simp] theorem Dev.modEng_freeCtr (f : Eng → Eng) : (d.modEng f).freeCtr = d.freeCtr := rfl
@[simp] theorem Dev.modEng_sys (f : Eng → Eng) : (d.modEng f).sys = d.sys := rfl
@[simp] theorem Dev.modEng_err (f : Eng → Eng) : (d.modEng f).err = d.err := rfl
@[simp] theorem Dev.modEng_mem (f : Eng → Eng) : (d.modEng f).mem = d.mem := rfl
@[simp] theorem Dev.modEng_host (f : Eng → Eng) : (d.modEng f).host = d.host := rfl
@[simp] theorem Dev.modEng_thm (f : Eng → Eng) : (d.modEng f).thm = d.thm := rfl
@[simp] theorem Dev.modEng_hkc (f : Eng → Eng) : (d.modEng f).hkc = d.hkc := rfl
@[simp] theorem Dev.modEng_sec (f : Eng → Eng) : (d.modEng f).sec = d.sec := rfl
@[simp] theorem Dev.modEng_dbg (f : Eng → Eng) : (d.modEng f).dbg = d.dbg := rfl
@[simp] theorem Dev.modEng_call (f : Eng → Eng) : (d.modEng f).call = d.call := rfl
@[simp] theorem Dev.modEng_frm (f : Eng → Eng) : (d.modEng f).frm = d.frm := rfl
@[simp] theorem Dev.modEng_mesh (f : Eng → Eng) : (d.modEng f).mesh = d.mesh := rfl
@[simp] theorem Dev.modEng_scr (f : Eng → Eng) : (d.modEng f).scr = d.scr := rfl
@[simp] theorem Dev.modEng_eng (f : Eng → Eng) : (d.modEng f).eng = f d.eng := rfl
@[simp] theorem Dev.modEng_tile (f : Eng → Eng) : (d.modEng f).tile = d.tile := rfl
@[simp] theorem Dev.modEng_wts (f : Eng → Eng) : (d.modEng f).wts = d.wts := rfl
@[simp] theorem Dev.modEng_kv (f : Eng → Eng) : (d.modEng f).kv = d.kv := rfl
@[simp] theorem Dev.modEng_out (f : Eng → Eng) : (d.modEng f).out = d.out := rfl
/-- Two changes of one block are one. -/
theorem Dev.modEng_modEng (f g : Eng → Eng) : (d.modEng f).modEng g = d.modEng fun x => g (f x) := rfl

/-! ## modTile -/
@[simp] theorem Dev.modTile_now (f : Tile → Tile) : (d.modTile f).now = d.now := rfl
@[simp] theorem Dev.modTile_freeCtr (f : Tile → Tile) : (d.modTile f).freeCtr = d.freeCtr := rfl
@[simp] theorem Dev.modTile_sys (f : Tile → Tile) : (d.modTile f).sys = d.sys := rfl
@[simp] theorem Dev.modTile_err (f : Tile → Tile) : (d.modTile f).err = d.err := rfl
@[simp] theorem Dev.modTile_mem (f : Tile → Tile) : (d.modTile f).mem = d.mem := rfl
@[simp] theorem Dev.modTile_host (f : Tile → Tile) : (d.modTile f).host = d.host := rfl
@[simp] theorem Dev.modTile_thm (f : Tile → Tile) : (d.modTile f).thm = d.thm := rfl
@[simp] theorem Dev.modTile_hkc (f : Tile → Tile) : (d.modTile f).hkc = d.hkc := rfl
@[simp] theorem Dev.modTile_sec (f : Tile → Tile) : (d.modTile f).sec = d.sec := rfl
@[simp] theorem Dev.modTile_dbg (f : Tile → Tile) : (d.modTile f).dbg = d.dbg := rfl
@[simp] theorem Dev.modTile_call (f : Tile → Tile) : (d.modTile f).call = d.call := rfl
@[simp] theorem Dev.modTile_frm (f : Tile → Tile) : (d.modTile f).frm = d.frm := rfl
@[simp] theorem Dev.modTile_mesh (f : Tile → Tile) : (d.modTile f).mesh = d.mesh := rfl
@[simp] theorem Dev.modTile_scr (f : Tile → Tile) : (d.modTile f).scr = d.scr := rfl
@[simp] theorem Dev.modTile_eng (f : Tile → Tile) : (d.modTile f).eng = d.eng := rfl
@[simp] theorem Dev.modTile_tile (f : Tile → Tile) : (d.modTile f).tile = f d.tile := rfl
@[simp] theorem Dev.modTile_wts (f : Tile → Tile) : (d.modTile f).wts = d.wts := rfl
@[simp] theorem Dev.modTile_kv (f : Tile → Tile) : (d.modTile f).kv = d.kv := rfl
@[simp] theorem Dev.modTile_out (f : Tile → Tile) : (d.modTile f).out = d.out := rfl
/-- Two changes of one block are one. -/
theorem Dev.modTile_modTile (f g : Tile → Tile) : (d.modTile f).modTile g = d.modTile fun x => g (f x) := rfl

/-! ## modWts -/
@[simp] theorem Dev.modWts_now (f : Wts → Wts) : (d.modWts f).now = d.now := rfl
@[simp] theorem Dev.modWts_freeCtr (f : Wts → Wts) : (d.modWts f).freeCtr = d.freeCtr := rfl
@[simp] theorem Dev.modWts_sys (f : Wts → Wts) : (d.modWts f).sys = d.sys := rfl
@[simp] theorem Dev.modWts_err (f : Wts → Wts) : (d.modWts f).err = d.err := rfl
@[simp] theorem Dev.modWts_mem (f : Wts → Wts) : (d.modWts f).mem = d.mem := rfl
@[simp] theorem Dev.modWts_host (f : Wts → Wts) : (d.modWts f).host = d.host := rfl
@[simp] theorem Dev.modWts_thm (f : Wts → Wts) : (d.modWts f).thm = d.thm := rfl
@[simp] theorem Dev.modWts_hkc (f : Wts → Wts) : (d.modWts f).hkc = d.hkc := rfl
@[simp] theorem Dev.modWts_sec (f : Wts → Wts) : (d.modWts f).sec = d.sec := rfl
@[simp] theorem Dev.modWts_dbg (f : Wts → Wts) : (d.modWts f).dbg = d.dbg := rfl
@[simp] theorem Dev.modWts_call (f : Wts → Wts) : (d.modWts f).call = d.call := rfl
@[simp] theorem Dev.modWts_frm (f : Wts → Wts) : (d.modWts f).frm = d.frm := rfl
@[simp] theorem Dev.modWts_mesh (f : Wts → Wts) : (d.modWts f).mesh = d.mesh := rfl
@[simp] theorem Dev.modWts_scr (f : Wts → Wts) : (d.modWts f).scr = d.scr := rfl
@[simp] theorem Dev.modWts_eng (f : Wts → Wts) : (d.modWts f).eng = d.eng := rfl
@[simp] theorem Dev.modWts_tile (f : Wts → Wts) : (d.modWts f).tile = d.tile := rfl
@[simp] theorem Dev.modWts_wts (f : Wts → Wts) : (d.modWts f).wts = f d.wts := rfl
@[simp] theorem Dev.modWts_kv (f : Wts → Wts) : (d.modWts f).kv = d.kv := rfl
@[simp] theorem Dev.modWts_out (f : Wts → Wts) : (d.modWts f).out = d.out := rfl
/-- Two changes of one block are one. -/
theorem Dev.modWts_modWts (f g : Wts → Wts) : (d.modWts f).modWts g = d.modWts fun x => g (f x) := rfl

/-! ## modKv -/
@[simp] theorem Dev.modKv_now (f : Kv → Kv) : (d.modKv f).now = d.now := rfl
@[simp] theorem Dev.modKv_freeCtr (f : Kv → Kv) : (d.modKv f).freeCtr = d.freeCtr := rfl
@[simp] theorem Dev.modKv_sys (f : Kv → Kv) : (d.modKv f).sys = d.sys := rfl
@[simp] theorem Dev.modKv_err (f : Kv → Kv) : (d.modKv f).err = d.err := rfl
@[simp] theorem Dev.modKv_mem (f : Kv → Kv) : (d.modKv f).mem = d.mem := rfl
@[simp] theorem Dev.modKv_host (f : Kv → Kv) : (d.modKv f).host = d.host := rfl
@[simp] theorem Dev.modKv_thm (f : Kv → Kv) : (d.modKv f).thm = d.thm := rfl
@[simp] theorem Dev.modKv_hkc (f : Kv → Kv) : (d.modKv f).hkc = d.hkc := rfl
@[simp] theorem Dev.modKv_sec (f : Kv → Kv) : (d.modKv f).sec = d.sec := rfl
@[simp] theorem Dev.modKv_dbg (f : Kv → Kv) : (d.modKv f).dbg = d.dbg := rfl
@[simp] theorem Dev.modKv_call (f : Kv → Kv) : (d.modKv f).call = d.call := rfl
@[simp] theorem Dev.modKv_frm (f : Kv → Kv) : (d.modKv f).frm = d.frm := rfl
@[simp] theorem Dev.modKv_mesh (f : Kv → Kv) : (d.modKv f).mesh = d.mesh := rfl
@[simp] theorem Dev.modKv_scr (f : Kv → Kv) : (d.modKv f).scr = d.scr := rfl
@[simp] theorem Dev.modKv_eng (f : Kv → Kv) : (d.modKv f).eng = d.eng := rfl
@[simp] theorem Dev.modKv_tile (f : Kv → Kv) : (d.modKv f).tile = d.tile := rfl
@[simp] theorem Dev.modKv_wts (f : Kv → Kv) : (d.modKv f).wts = d.wts := rfl
@[simp] theorem Dev.modKv_kv (f : Kv → Kv) : (d.modKv f).kv = f d.kv := rfl
@[simp] theorem Dev.modKv_out (f : Kv → Kv) : (d.modKv f).out = d.out := rfl
/-- Two changes of one block are one. -/
theorem Dev.modKv_modKv (f g : Kv → Kv) : (d.modKv f).modKv g = d.modKv fun x => g (f x) := rfl

/-! ## emit -/
@[simp] theorem Dev.emit_now (x : Output) : (d.emit x).now = d.now := rfl
@[simp] theorem Dev.emit_freeCtr (x : Output) : (d.emit x).freeCtr = d.freeCtr := rfl
@[simp] theorem Dev.emit_sys (x : Output) : (d.emit x).sys = d.sys := rfl
@[simp] theorem Dev.emit_err (x : Output) : (d.emit x).err = d.err := rfl
@[simp] theorem Dev.emit_mem (x : Output) : (d.emit x).mem = d.mem := rfl
@[simp] theorem Dev.emit_host (x : Output) : (d.emit x).host = d.host := rfl
@[simp] theorem Dev.emit_thm (x : Output) : (d.emit x).thm = d.thm := rfl
@[simp] theorem Dev.emit_hkc (x : Output) : (d.emit x).hkc = d.hkc := rfl
@[simp] theorem Dev.emit_sec (x : Output) : (d.emit x).sec = d.sec := rfl
@[simp] theorem Dev.emit_dbg (x : Output) : (d.emit x).dbg = d.dbg := rfl
@[simp] theorem Dev.emit_call (x : Output) : (d.emit x).call = d.call := rfl
@[simp] theorem Dev.emit_frm (x : Output) : (d.emit x).frm = d.frm := rfl
@[simp] theorem Dev.emit_mesh (x : Output) : (d.emit x).mesh = d.mesh := rfl
@[simp] theorem Dev.emit_scr (x : Output) : (d.emit x).scr = d.scr := rfl
@[simp] theorem Dev.emit_eng (x : Output) : (d.emit x).eng = d.eng := rfl
@[simp] theorem Dev.emit_tile (x : Output) : (d.emit x).tile = d.tile := rfl
@[simp] theorem Dev.emit_wts (x : Output) : (d.emit x).wts = d.wts := rfl
@[simp] theorem Dev.emit_kv (x : Output) : (d.emit x).kv = d.kv := rfl
@[simp] theorem Dev.emit_out (x : Output) : (d.emit x).out = d.out ++ [x] := rfl

/-! ## at_ (the clock) -/
@[simp] theorem Dev.clock_now (t : Nat) : (d.at_ t).now = max d.now t := rfl
@[simp] theorem Dev.clock_freeCtr (t : Nat) : (d.at_ t).freeCtr = d.freeCtr := rfl
@[simp] theorem Dev.clock_sys (t : Nat) : (d.at_ t).sys = d.sys := rfl
@[simp] theorem Dev.clock_err (t : Nat) : (d.at_ t).err = d.err := rfl
@[simp] theorem Dev.clock_mem (t : Nat) : (d.at_ t).mem = d.mem := rfl
@[simp] theorem Dev.clock_host (t : Nat) : (d.at_ t).host = d.host := rfl
@[simp] theorem Dev.clock_thm (t : Nat) : (d.at_ t).thm = d.thm := rfl
@[simp] theorem Dev.clock_hkc (t : Nat) : (d.at_ t).hkc = d.hkc := rfl
@[simp] theorem Dev.clock_sec (t : Nat) : (d.at_ t).sec = d.sec := rfl
@[simp] theorem Dev.clock_dbg (t : Nat) : (d.at_ t).dbg = d.dbg := rfl
@[simp] theorem Dev.clock_call (t : Nat) : (d.at_ t).call = d.call := rfl
@[simp] theorem Dev.clock_frm (t : Nat) : (d.at_ t).frm = d.frm := rfl
@[simp] theorem Dev.clock_mesh (t : Nat) : (d.at_ t).mesh = d.mesh := rfl
@[simp] theorem Dev.clock_scr (t : Nat) : (d.at_ t).scr = d.scr := rfl
@[simp] theorem Dev.clock_eng (t : Nat) : (d.at_ t).eng = d.eng := rfl
@[simp] theorem Dev.clock_tile (t : Nat) : (d.at_ t).tile = d.tile := rfl
@[simp] theorem Dev.clock_wts (t : Nat) : (d.at_ t).wts = d.wts := rfl
@[simp] theorem Dev.clock_kv (t : Nat) : (d.at_ t).kv = d.kv := rfl
@[simp] theorem Dev.clock_out (t : Nat) : (d.at_ t).out = d.out := rfl

/-! ## useFree -/
@[simp] theorem Dev.useFree_now (k : Nat) : (d.useFree k).now = d.now := rfl
@[simp] theorem Dev.useFree_freeCtr (k : Nat) : (d.useFree k).freeCtr = d.freeCtr + k := rfl
@[simp] theorem Dev.useFree_sys (k : Nat) : (d.useFree k).sys = d.sys := rfl
@[simp] theorem Dev.useFree_err (k : Nat) : (d.useFree k).err = d.err := rfl
@[simp] theorem Dev.useFree_mem (k : Nat) : (d.useFree k).mem = d.mem := rfl
@[simp] theorem Dev.useFree_host (k : Nat) : (d.useFree k).host = d.host := rfl
@[simp] theorem Dev.useFree_thm (k : Nat) : (d.useFree k).thm = d.thm := rfl
@[simp] theorem Dev.useFree_hkc (k : Nat) : (d.useFree k).hkc = d.hkc := rfl
@[simp] theorem Dev.useFree_sec (k : Nat) : (d.useFree k).sec = d.sec := rfl
@[simp] theorem Dev.useFree_dbg (k : Nat) : (d.useFree k).dbg = d.dbg := rfl
@[simp] theorem Dev.useFree_call (k : Nat) : (d.useFree k).call = d.call := rfl
@[simp] theorem Dev.useFree_frm (k : Nat) : (d.useFree k).frm = d.frm := rfl
@[simp] theorem Dev.useFree_mesh (k : Nat) : (d.useFree k).mesh = d.mesh := rfl
@[simp] theorem Dev.useFree_scr (k : Nat) : (d.useFree k).scr = d.scr := rfl
@[simp] theorem Dev.useFree_eng (k : Nat) : (d.useFree k).eng = d.eng := rfl
@[simp] theorem Dev.useFree_tile (k : Nat) : (d.useFree k).tile = d.tile := rfl
@[simp] theorem Dev.useFree_wts (k : Nat) : (d.useFree k).wts = d.wts := rfl
@[simp] theorem Dev.useFree_kv (k : Nat) : (d.useFree k).kv = d.kv := rfl
@[simp] theorem Dev.useFree_out (k : Nat) : (d.useFree k).out = d.out := rfl

/-! ## Commands -/

/-- A command whose meaning is an effect on the device completes. -/
@[simp] theorem State.onDev_eq (s : State) (f : Dev → Dev) : s.onDev f = .next { s with dev := f s.dev } := rfl
/-- The device after such a command. -/
theorem State.onDev_dev {s t : State} {f : Dev → Dev} (h : s.onDev f = .next t) : t.dev = f s.dev ∧ t.pending = s.pending := by
  cases h; exact ⟨rfl, rfl⟩

end Sys2Proof.Machine
end

