-- ==== Sys2Proof/Laws/Memory.lean ====
section
/-! SUPPORT. Every operation on the byte stores keeps their canonical form, and what the basic ones read and leave alone. -/
namespace Sys2Proof.Machine

/-! ## The form, store by store -/

theorem Mem.wf_iff (m : Mem) : m.wf = true ↔ cellsWf m.hbm = true ∧ cellsWf m.wings = true ∧ cellsWf m.localBuf = true ∧
    cellsWf m.prompter = true ∧ cellsWf m.apron = true := by
  simp [Mem.wf, Bool.and_eq_true, and_assoc]

theorem Mem.wf_reset : State.reset.dev.mem.wf = true := rfl

theorem Mem.wf_setHbm (m : Mem) (x : List Host.Cell) (h : m.wf = true) (w : cellsWf x = true) : Mem.wf { m with hbm := x } = true := by
  rw [Mem.wf_iff] at *; exact ⟨w, h.2⟩
theorem Mem.wf_setWings (m : Mem) (x : List Host.Cell) (h : m.wf = true) (w : cellsWf x = true) : Mem.wf { m with wings := x } = true := by
  rw [Mem.wf_iff] at *; exact ⟨h.1, w, h.2.2⟩
theorem Mem.wf_setLocalBuf (m : Mem) (x : List Host.Cell) (h : m.wf = true) (w : cellsWf x = true) : Mem.wf { m with localBuf := x } = true := by
  rw [Mem.wf_iff] at *; exact ⟨h.1, h.2.1, w, h.2.2.2⟩
theorem Mem.wf_setPrompter (m : Mem) (x : List Host.Cell) (h : m.wf = true) (w : cellsWf x = true) : Mem.wf { m with prompter := x } = true := by
  rw [Mem.wf_iff] at *; exact ⟨h.1, h.2.1, h.2.2.1, w, h.2.2.2.2⟩
theorem Mem.wf_setApron (m : Mem) (x : List Host.Cell) (h : m.wf = true) (w : cellsWf x = true) : Mem.wf { m with apron := x } = true := by
  rw [Mem.wf_iff] at *; exact ⟨h.1, h.2.1, h.2.2.1, h.2.2.2.1, w⟩

/-- A fold of steps that keep a property keeps it. -/
theorem foldl_keeps {σ τ : Type} (p : σ → Prop) (f : σ → τ → σ) (hf : ∀ s t, p s → p (f s t)) (l : List τ) (s : σ) (h : p s) : p (l.foldl f s) := by
  induction l generalizing s with
  | nil => exact h
  | cons t l ih => exact ih (f s t) (hf s t h)

theorem cellsWf_foldl_wr1 (l : List (Nat × Byte)) (m : List Host.Cell) (w : cellsWf m = true) :
    cellsWf (l.foldl (fun p c => wr1 p c.1 c.2) m) = true :=
  foldl_keeps (fun m => cellsWf m = true) _ (fun m c h => cellsWf_wr1 m c.1 c.2 h) l m w

theorem cellsWf_foldl_wrN (l : List (Nat × List Byte)) (m : List Host.Cell) (w : cellsWf m = true) :
    cellsWf (l.foldl (fun p c => wrN p c.1 c.2) m) = true :=
  foldl_keeps (fun m => cellsWf m = true) _ (fun m c h => cellsWf_wrN m c.1 c.2 h) l m w

/-! ## Every operation keeps it -/

theorem Mem.wf_wrCw (m : Mem) (a : Nat) (bs : List Byte) (c : Nat) (h : m.wf = true) : (m.wrCw a bs c).wf = true := by
  have w := ((Mem.wf_iff m).mp h).1
  unfold Mem.wrCw
  simp only
  split
  · split
    · rw [Mem.wf_iff] at *; exact ⟨cellsWf_wrN _ _ _ w, h.2⟩
    · exact h
  · exact Mem.wf_setHbm m _ h (cellsWf_wrN _ _ _ w)

theorem Mem.wf_wrHbm (m : Mem) (a : Nat) (bs : List Byte) (h : m.wf = true) : (m.wrHbm a bs).wf = true :=
  foldl_keeps (fun m : Mem => m.wf = true) _ (fun m c h => Mem.wf_wrCw m a bs c h) _ m h

theorem Mem.wf_zeroHbm (m : Mem) (lo hi : Nat) (h : m.wf = true) : (m.zeroHbm lo hi).wf = true := by
  have w := ((Mem.wf_iff m).mp h).1
  unfold Mem.zeroHbm
  rw [Mem.wf_iff] at *
  exact ⟨cellsWf_zeroRange _ _ _ w, h.2⟩

theorem Mem.wf_zeroAll (m : Mem) : m.zeroAll.wf = true := rfl

theorem Mem.wf_zeroApron (m : Mem) (h : m.wf = true) : m.zeroApron.wf = true := by
  unfold Mem.zeroApron
  rw [Mem.wf_iff] at *; exact ⟨h.1, h.2.1, h.2.2.1, h.2.2.2.1, rfl⟩

theorem Mem.wf_count (m : Mem) (st : Store) (u n : Nat) (h : m.wf = true) : (m.count st u n).wf = true := h

theorem Mem.wf_applyRepairs (m : Mem) (h : m.wf = true) : m.applyRepairs.wf = true := h

theorem Mem.wf_flip (m : Mem) (st : Store) (u loc : Nat) (e : Nat × Nat) (h : m.wf = true) : (m.flip st u loc e).wf = true := by
  have w := (Mem.wf_iff m).mp h
  simp only [Mem.flip]
  split
  · exact h
  · cases st
    · exact Mem.wf_setApron m _ h (cellsWf_wr1 _ _ _ w.2.2.2.2)
    · exact h
    · exact Mem.wf_setWings m _ h (cellsWf_wr1 _ _ _ w.2.1)
    · exact Mem.wf_setLocalBuf m _ h (cellsWf_wr1 _ _ _ w.2.2.1)
    · exact Mem.wf_setPrompter m _ h (cellsWf_wr1 _ _ _ w.2.2.2.1)
    · exact Mem.wf_setHbm m _ h (cellsWf_wr1 _ _ _ w.1)

theorem Mem.wf_zeroCw (m : Mem) (st : Store) (u loc : Nat) (h : m.wf = true) : (m.zeroCw st u loc).wf = true := by
  have w := (Mem.wf_iff m).mp h
  cases st
  · simp only [Mem.zeroCw]
    exact Mem.wf_setApron m _ h (foldl_keeps (fun a => cellsWf a = true) _ (fun a _ ha => cellsWf_wr1 a _ _ ha) (List.range 128) m.apron w.2.2.2.2)
  · simp only [Mem.zeroCw]
    rw [Mem.wf_iff] at *
    exact h
  · exact Mem.wf_setWings m _ h (cellsWf_zeroRange _ _ _ w.2.1)
  · exact Mem.wf_setLocalBuf m _ h (cellsWf_zeroRange _ _ _ w.2.2.1)
  · exact Mem.wf_setPrompter m _ h (cellsWf_zeroRange _ _ _ w.2.2.2.1)
  · exact Mem.wf_zeroHbm m _ _ h

theorem Mem.wf_copyHbm (m : Mem) (src dst n : Nat) (h : m.wf = true) : (m.copyHbm src dst n).wf = true := by
  unfold Mem.copyHbm
  exact Mem.wf_setHbm _ _ (Mem.wf_zeroHbm m _ _ h)
    (cellsWf_foldl_wr1 _ _ ((Mem.wf_iff _).mp (Mem.wf_zeroHbm m _ _ h)).1)

@[simp] theorem Dev.tagWrite_wf (d : Dev) (st : Nat) (ks : List Nat) (cue : Nat) : (d.tagWrite st ks cue).mem.wf = d.mem.wf := by
  unfold Dev.tagWrite
  split <;> rfl

theorem Dev.hbmWr_wf (d : Dev) (a : Nat) (bs : List Byte) (h : d.mem.wf = true) : (d.hbmWr a bs).mem.wf = true := Mem.wf_wrHbm d.mem a bs h

/-- Keeping a row's earlier contents changes no store. -/
@[simp] theorem Dev.keepRow_mem (d : Dev) (k slot : Nat) : (d.keepRow k slot).mem = d.mem := by
  unfold Dev.keepRow
  split <;> rfl

theorem Dev.rowWr_wf (d : Dev) (tile row : Nat) (bs : List Byte) (tag : BitVec 16) (slot cue : Nat) (h : d.mem.wf = true) :
    (d.rowWr tile row bs tag slot cue).mem.wf = true := by
  unfold Dev.rowWr
  rw [Dev.tagWrite_wf, Dev.modMem_mem, Dev.modTile_mem, Dev.keepRow_mem]
  have w := (Mem.wf_iff d.mem).mp h
  rw [Mem.wf_iff]
  exact ⟨w.1, w.2.1, w.2.2.1, w.2.2.2.1, cellsWf_wrN _ _ _ w.2.2.2.2⟩

theorem Dev.loadPrompter_wf (d : Dev) (tile : Nat) (h : d.mem.wf = true) : (d.loadPrompter tile).mem.wf = true := by
  unfold Dev.loadPrompter
  rw [Dev.modMem_mem]
  exact Mem.wf_setPrompter d.mem _ h (cellsWf_foldl_wr1 _ _ (cellsWf_zeroRange _ _ _ ((Mem.wf_iff d.mem).mp h).2.2.2.1))

/-! ## What an HBM write reads back as -/

theorem Mem.wrCw_outside (m : Mem) (a : Nat) (bs : List Byte) (c x : Nat) (h : x < a ∨ a + bs.length ≤ x) :
    rd1 (m.wrCw a bs c).hbm x = rd1 m.hbm x := by
  have hx : x < max a (64 * c) ∨ max a (64 * c) + ((bs.drop (max a (64 * c) - a)).take (64 * c + 64 - max a (64 * c))).length ≤ x := by
    simp only [List.length_take, List.length_drop]; omega
  unfold Mem.wrCw
  simp only
  split
  · split
    · exact rd1_wrN_outside _ _ _ _ hx
    · rfl
  · exact rd1_wrN_outside _ _ _ _ hx

/-- A write of HBM leaves every byte outside it as it was. -/
theorem Mem.wrHbm_outside (m : Mem) (a : Nat) (bs : List Byte) (x : Nat) (h : x < a ∨ a + bs.length ≤ x) :
    rd1 (m.wrHbm a bs).hbm x = rd1 m.hbm x :=
  foldl_keeps (fun z : Mem => rd1 z.hbm x = rd1 m.hbm x) _ (fun z c hz => (Mem.wrCw_outside z a bs c x h).trans hz) _ m rfl

theorem Mem.zeroHbm_rd1 (m : Mem) (lo hi x : Nat) : rd1 (m.zeroHbm lo hi).hbm x = if lo ≤ x ∧ x < hi then 0 else rd1 m.hbm x :=
  rd1_zeroRange m.hbm lo hi x

/-- A write within one codeword that is not known bad stores exactly its bytes. -/
theorem Mem.wrHbm_one (m : Mem) (a : Nat) (bs : List Byte) (h0 : 0 < bs.length) (h : a % 64 + bs.length ≤ 64) (hb : a / 64 ∉ m.bad) :
    m.wrHbm a bs = { m with hbm := wrN m.hbm a bs } := by
  have hn : bs.length ≠ 0 := by omega
  have hc : (a + bs.length - 1) / 64 - a / 64 + 1 = 1 := by omega
  have hl : max a (64 * (a / 64 + 0)) = a := by omega
  have ht : bs.length ≤ 64 * (a / 64 + 0) + 64 - a := by omega
  have hb' : m.bad.contains (a / 64 + 0) = false := by simpa using hb
  simp only [Mem.wrHbm, cwRange, hn, if_false, hc, List.range_one, List.map_cons, List.map_nil, List.foldl_cons, List.foldl_nil, Mem.wrCw, hl,
    Nat.sub_self, List.drop_zero, List.take_of_length_le ht, hb', Bool.false_eq_true]

end Sys2Proof.Machine
end

