-- ==== Sys2Proof/Laws/Ops.lean ====
section
/-! SUPPORT. Everything that each shared operation of Ops.lean and Errors.lean can change, said once: after it, the device is the
old one with the named blocks replaced. -/
namespace Sys2Proof.Machine

variable (d : Dev)

theorem Dev.sendMsix_frame (v : Nat) : d.sendMsix v = { d with host := (d.sendMsix v).host, out := (d.sendMsix v).out } := rfl

theorem Dev.fireVector_frame (v : Nat) : d.fireVector v = { d with host := (d.fireVector v).host, out := (d.fireVector v).out } := by
  unfold Dev.fireVector; split <;> rfl

theorem Dev.event_frame (e : Evt) : d.event e = { d with host := (d.event e).host, out := (d.event e).out } := by
  unfold Dev.event
  simp only
  split
  · rw [Dev.fireVector_frame]; rfl
  · rfl

/-- The status bit of an event is set after it (R393). -/
theorem Dev.event_status (e : Evt) : (d.event e).host.evtStatus = d.host.evtStatus ||| BitVec.ofNat 10 (2 ^ e.bit) := by
  unfold Dev.event
  simp only
  split
  · unfold Dev.fireVector; split <;> rfl
  · rfl

/-- The host's settings of events and vectors stand. -/
theorem Dev.event_settings (e : Evt) : (d.event e).host.evtEn = d.host.evtEn ∧ (d.event e).host.evtOn = d.host.evtOn ∧
    (d.event e).host.up = d.host.up ∧ (d.event e).host.hdm = d.host.hdm ∧ (d.event e).host.msix = d.host.msix := by
  unfold Dev.event
  simp only
  split
  · unfold Dev.fireVector; split <;> exact ⟨rfl, rfl, rfl, rfl, rfl⟩
  · exact ⟨rfl, rfl, rfl, rfl, rfl⟩

theorem Dev.clearEvents_frame (b : BitVec 10) : d.clearEvents b = { d with host := (d.clearEvents b).host } := rfl

theorem Dev.settle_frame (b : Dev) : Dev.settle b d = { d with sys := { d.sys with switches := (Dev.settle b d).sys.switches, ibi := (Dev.settle b d).sys.ibi } } := rfl

theorem Dev.setSt_frame (st : DevState) : d.setSt st = { d with sys := (d.setSt st).sys, host := (d.setSt st).host, out := (d.setSt st).out } := by
  unfold Dev.setSt
  split
  · rfl
  · rw [Dev.settle_frame, Dev.event_frame]; rfl

/-- STATE is what it was set to. -/
@[simp] theorem Dev.setSt_st (st : DevState) : (d.setSt st).sys.st = st := by
  unfold Dev.setSt
  split
  · assumption
  · rw [Dev.settle_frame, Dev.event_frame]; rfl

theorem Dev.ethSend_frame (bs : List Byte) : d.ethSend bs = { d with out := (d.ethSend bs).out } := by
  unfold Dev.ethSend; split <;> rfl

theorem Dev.ite_modCall_frame (c : Prop) [Decidable c] (f : Call → Call) : (if c then d.modCall f else d) = { d with call := (if c then d.modCall f else d).call } := by
  split <;> rfl

/-- A record touches the error unit, the event and its vector, the pins that follow WORST, the Ethernet output, and the hold of
CALL_CTRL when the ring has become full (R418). -/
theorem Dev.record_frame (i : ErrIn) (a : Nat) (n : Bool) : let r := d.record i a n
    r = { d with err := r.err, sys := r.sys, host := r.host, call := r.call, out := r.out } := by
  unfold Dev.record
  simp only
  rw [Dev.ethSend_frame, Dev.settle_frame, Dev.event_frame, Dev.ite_modCall_frame]
  rfl

theorem Dev.tagWrite_frame (st : Nat) (ks : List Nat) (cue : Nat) : d.tagWrite st ks cue = { d with mem := (d.tagWrite st ks cue).mem } := by
  unfold Dev.tagWrite; split <;> rfl

theorem Dev.hbmWr_frame (a : Nat) (bs : List Byte) : d.hbmWr a bs = { d with mem := (d.hbmWr a bs).mem } := rfl

theorem Dev.callCount_frame (n : Nat) : d.callCount n = { d with call := (d.callCount n).call } := rfl

/-- A script error touches the script registers and the event. -/
theorem Dev.scriptErr_frame (c : Nat) (w : LoadFail) : let r := d.scriptErr c w
    r = { d with scr := r.scr, host := r.host, out := r.out } := by
  unfold Dev.scriptErr; rw [Dev.event_frame]; rfl

end Sys2Proof.Machine
end

