-- ==== Sys2Proof/Tests/Slice0.lean ====
section
/-! SUPPORT. The model's own tests. First, operand forms that the hardware cannot have, each refused by the check that names it; then,
for each statement of Certificates/Slice0/Obligations.lean with hypotheses, concrete devices and operands that meet them, clause by
clause; then a few effects written out by hand from the rules. -/
namespace Sys2Proof.Tests

open Sys2Proof Sys2Proof.Machine

set_option Elab.async false

/-! ## Devices -/

def st (d : Dev) : State := ⟨[], d⟩
def boot : BootIn := ⟨true, true, true⟩
/-- In READY, and in PLAYING with a frame open. -/
def rdy : Dev := { sys := { st := .ready, sysRst := false } }
def ply : Dev := { sys := { st := .playing, sysRst := false }, frm := { running := true, isOpen := true } }
def off : Dev := { sys := { st := .off, sysRst := false, pg := 0x5F } }
def dwell : Dev := { sys := { st := .boot, sysRst := false } }
def frozenCmd : Dev := { rdy with sys := { rdy.sys with st := .frozen, frozenFrom := .playing }, dbg := { holdCmd := true, frozen := true } }
def frozen : Dev := { sys := { st := .frozen, sysRst := false, frozenFrom := .playing, freezeN := true }, dbg := { holdPin := true, frozen := true } }

def fd : FatalDetail := ⟨0, 0, 0⟩
/-- A device handling a fatal error at this moment. -/
def fatalNow : Dev := { rdy with err := { fatal := some (1, 0) } }

/-- Monitor bursts in which every supply is nominal: the core at 0.750 V, the arrays at 1.1 V, the links at 0.9 V. -/
def nominal : MonitorIn := ⟨(List.range 29).map fun ch => if ch = 8 then ⟨655360, 0, 0⟩ else if ch = 9 then ⟨961196, 0, 0⟩ else if ch = 10 then ⟨786432, 0, 0⟩ else ⟨0, 0, 0⟩,
  [950, 0, 0, 0, 0, 0, 0, 0]⟩
def hkB : Dev := { rdy with hkc := { settled := true, burst := some ⟨3, 8, 0⟩, urg := some 4, aborts := 1 } }
/-- Every SEC level permitted. -/
def sec3 : Dev := { rdy with sec := { st := .manufacture, level := 3, max := 3, smRun := true } }
def play2 : Dev := { ply with sec := { st := .ownerDebug, level := 2, max := 2 } }

def oneRec : ErrRec := { seq := 7, cls := 3, nested := false, verdict := 0, action := 0, code := 0x0F01, kind := 16, unit := 0, frame := 0, slot := 0, template := 0, st := 3,
                         cue := 0, x := 0, y := 0, herd := 0, boots := 0, related := 0, session := none, dcause := 0, lanes := 0, exposure := 0, detail := [], timeUs := 0 }
def errs : Dev := { rdy with err := { stack := [(0, oneRec, false), (14, oneRec, false), (15, oneRec, false)], hist := [(histKey 5 3, { score := 9, events := 2, verdict := 2, hours := 168 })],
                                      locs := [{ store := .wings, unit := 0, loc := 4, syms := [1], testing := true }], struck := true, worst := 2, cnt := [(1, 4)] } }

def keys : OwnerKeys := ⟨[1], [2]⟩
def auth : DoeAuth := ⟨9, [], 0, [], []⟩
def lockedDoe : Dev := { rdy with host := { up := true }, sec := { st := .locked, max := 1, owner := some keys, protectedOk := true } }

def req (space : BitVec 4) (addr : BitVec 38) (write : Bool) : DbgReq := { addr := addr, space := space, data := 5, write := write }

/-- One tile is within the flock's limit, whatever the grade. -/
theorem one_flockLimit : min 1 flockLimit = 1 := by unfold flockLimit; split <;> rfl

/-- PLAYING with an open frame, one token in lane 5, wings bank 0 of tenant 0, and code 5 in row 0, column 0 of tile 0. -/
def tok5 : Tok := { pos := 7, seg := 1, session := 3 }
def lan : Dev := { ply with frm := { running := true, isOpen := true, lanes := [(5, tok5)] }, mem := { owner := [(0, 0)], apron := [(0, 5)], tags := [(0, mkTag 2 1 0)], wings := [(0, 0x38), (3, 0xB8)] } }
def ev : EvalCue := { (default : EvalCue) with lane := 5, slot := 4, chain := 9 }
def rq : RequantCue := { (default : RequantCue) with lane := 5, srcFmt := .e4m3, dst := 3 }
def ou : OutCue := { (default : OutCue) with lane := 5, tile := 1, slot := 4, ofmt := .e4m3, chain := 9, dst := 1024 }
def ho : HopCue := { (default : HopCue) with lane := 5, tile := 1, slot := 4, dst := 2 }
def re : RelayCue := { (default : RelayCue) with lane := 5, tile := 1, slot := 4, dst := 130, hops := 1, dirs := 1 }
def mo : MoveCue := { (default : MoveCue) with lane := 5, row := 2, toApron := true, fmt := 4, waddr := 0 }
def wi : WinCue := { (default : WinCue) with slot := 4, slots := 1, tiles := 1 }
def pc : PlaceCue := { (default : PlaceCue) with slot := 4, expert := 2, layer := 1, arrLane := 5, arrN := 1, regLane := 8, encLane := 9 }
def hc : HbmCue := { (default : HbmCue) with lane := 5, len := 1, num := 33 }
/-- Cells of array 0: weight 2 at row 0, column 3. -/
def cel : Dev := { lan with tile := { cells := [(3, 2)], pend := [⟨3, 0, 1, 9, 0, List.replicate 512 8, []⟩] } }

/-- A read of HBM into wings 0 to 511 and beyond is outstanding. -/
def busyW : Dev := { lan with frm := { lan.frm with outst := [⟨true, 0, 4096, 0, 0, 77⟩] } }

/-- A script with one routed expert (layer 1, expert 2), lane buffers of 256 B, pool 0 threads with a private granule, and KV
layer 1 of this device. -/
def scr1 : Script := { templates := [⟨[], [], [⟨0, 16, 0, 0, 2⟩]⟩], experts := ⟨[], [⟨1, 2, 2, 1, 0⟩]⟩, pools := [⟨[], [(0, (1, 2))], [], []⟩], consts := [⟨2, 2, 1, 1, 2, 0, 0, [0x3F80, 0x3F80], 0, 0, []⟩], kvLayers := [⟨1, 0, 0, false, 0⟩], kvDevs := [⟨0, 0, 64, 1, [64]⟩] }
def scd : Dev := { lan with scr := { script := some scr1 }, mesh := { at_ := some ⟨0, 0⟩ } }

def fb (k : OpKind) (n a : Nat) : KOperand := ⟨k, .bf16, BitVec.ofNat 32 n, BitVec.ofNat 32 a⟩
/-- A kernel of one lane: two BF16 elements at 0, operand 1 at 512, its row of two at 1024. -/
def ke : KernelCue := { (default : KernelCue) with lane := 5, nlanes := 1, slot := 4, last := 9, op0 := fb .wings 2 0, op1 := fb .wings 2 512, op3 := fb .wings 2 1024, engine := 3, thread := 2, layer := 1 }
def knd : Dev := { scd with mem := { scd.mem with wings := [(0, 0x80), (1, 0x3F), (3, 0x40), (512, 0x80), (513, 0x3F)] } }

/-- HBM of session 3 with one block of one layer's pages. -/
def kvd : Dev := ((knd.growTo ⟨0, 0, 64, 1, [64]⟩ 0 1 ⟨3, 0, 0⟩).getD knd).setKstate 3 1

def rl : RouteLayer := ⟨1, 2, 1, [], 0x3F80, [0x3F80, 0x3F80], false, 0x3F80, 0, none, none⟩
def rtd : Dev := { knd with scr := { script := some { scr1 with experts := ⟨[rl], []⟩ } }, call := { steps := [{ session := 3, pos := 7, tokens := [1] }] } }

/-- A READY adapter slot 2 with one target (point 0) of rank 1, its matrices A and B at 0x80 and 0x90. -/
def adh : List Host.Cell := [(8, 1), (9, 1), (0x44, 0x80), (0x45, 0x3F), (0x4C, 0x80), (0x50, 0x90), (0x80, 0x80), (0x81, 0x3F), (0x91, 0x40)]
def adt : Tok := { tok5 with adp := true, adapter := 2 }
def add1 : Dev := { rtd with frm := { rtd.frm with lanes := [(5, adt)] }, call := { rtd.call with adpSlots := [(2, { ready := true })] },
                             mem := { rtd.mem with hbm := adh.map fun c => (adpSlotBase 2 + c.1, c.2) } }

/-- A protected area with nothing in it. -/
def secNil : Sec := { persistMan := true, protectedOk := true, owner := none, bootCount := 0, floorBo := 0, floorSm := 0, boA := [], boB := [], smA := [], smB := [] }

/-- The bellwether alone, between two frames and in a frame whose work is done; and a device of the herd below it. -/
def scrP : Script := { hdr := { period := 1000, cycle := 0 } }
def bel : Dev := { ply with mesh := { at_ := some ⟨0, 0⟩ }, scr := { script := some scrP }, frm := { running := true, isOpen := true, frame := 6, start := 1000, planned := 1000, lat := 100, played := 3, ownDone := true } }
def upL : Link := { st := 2, lanes := 0xF }
def sub : Dev := { bel with mesh := { at_ := some ⟨1, 0⟩, links := [(0, upL), (13, upL)] }, frm := { bel.frm with lat := 100, path := 40, pathTarget := 40, ownDone := false } }

def fl (n : Byte) : Flit := ⟨List.replicate 512 n, 0⟩
def onL (l : Link) : Dev := { sub with mesh := { sub.mesh with links := [(0, l), (13, upL)] } }

/-- A control flit of one REPLAY unit, for count 5. -/
def rpl : List Byte := [1] ++ List.replicate 15 0 ++ (CtlUnit.replay 5).bytes ++ List.replicate 480 0

/-- Lanes 4 and 5 at wings address 0, 128 B each: an arrival range. -/
def scrL : Script := { hdr := { period := 1000 }, templates := [⟨[], [], [⟨4, 2, 1, 0, 1⟩]⟩] }
def lk : LinkRec := { (default : LinkRec) with link := 13, outLink := 0, slots := 1, bytes := 80, transfer := 7, num := 21, first := 3 }
def trf : Dev := { sub with scr := { script := some scrL }, mem := { owner := [(0, 0)], wings := [(128, 9), (143, 8)] }, frm := { sub.frm with lanes := [(5, tok5)] } }
def strm : List (List Byte) := [headerUnit 7 2 false 4] ++ statusUnits [0, 1] ++ [leBytes 16 tok5.desc, List.replicate 16 6]

/-- A device with its bypass switches open: hearing HELLO, waiting for DISCOVER, and the bellwether collecting reports. -/
def dsc (n : Nat) : Dev := { rdy with sys := { rdy.sys with switches := false }, mesh := { herd := 3, herdAt := 3, x := 1, y := 0, at_ := some ⟨1, 0⟩, disc := n, links := [(0, upL), (13, upL), (14, { st := 1 })] } }
def bw (n : Nat) : Dev := { dsc n with mesh := { (dsc n).mesh with x := 0, at_ := some ⟨0, 0⟩ } }
def hi : HelloInfo := ⟨3, ⟨0, 0⟩, 0, 1, 9⟩
def rp : ReportInfo := ⟨⟨1, 0⟩, 1, 3, 0, 130, 0, false, false, true⟩

/-- The bellwether with a child east; a device with a parent west and a child east. -/
def top : Dev := { bel with mesh := { at_ := some ⟨0, 0⟩, links := [(13, upL)] } }

/-- A staged section of layer 3 without arrays, at unit 2. -/
def sec0 : List Byte := leBytes 4 0x57545331 ++ leBytes 4 3 ++ List.replicate 56 0
def ent0 : SecEnt := ⟨3, 64, 0, shake256 sec0, [], false, 0⟩
def man0 : Manifest := ⟨1, [], [ent0]⟩
def wtd : Dev := { rdy with mem := { hbm := wrN [] (wtStagingBase + 8192) sec0 }, scr := { script := some scrP } }

/-- The script with slot 5 of tile 0 placed for layer 3, and 48 tiles of flock 0 that reset arrays. -/
def scrLd : Script := { scrP with placement := [{ (default : PlaceEnt) with layer := 3, tile := 0, slot := 5 }] }
def full48 : List (Nat × Arr) := (List.range 48).map fun i => (17 * (i + 1), { role := 2, pstate := 1, job := some .reset })

/-- A tile whose slot 3 wants weight 5 at row 9, column 7; its understudy is programmed with the slot. -/
def prog5 : Dev := { top with tile := { arrs := [(16, { role := 2, pstate := 1, job := some (.refresh 3) })], census := [(3 * 2 ^ 18 + 512 * 9 + 7, 5)] } }

def kdv : KvDev := ⟨0, 0, 64, 1, [64]⟩
def km : KvMsg := { (default : KvMsg) with session := 3, pos := 8, target := 4, src := ⟨0, 0⟩ }
def hup : HostIf := { up := true, bme := true }
/-- Session 3 with its pages, without and with a green room of 100 pages; with the host link up. -/
def kvg : Dev := { (kvd.setSes 3 0x40C 1).setSes 3 0x408 100 with host := hup }

def pgIn : PageIn := ⟨0, [(0, 0x56), (1, 0x4B), (12, 0x10), (24, 64), (26, 0xF0), (27, 3), (1030, 7)]⟩

def er : KvMsg := { (default : KvMsg) with session := 3, src := ⟨2, 0⟩, free := 50, pos := 77, cause := 5 }
def edv : Dev := { rdy with kv := { claims := [(2, 8)], swaps := [{ session := 3, out := true, host := false, wait := [1, 2] }], releases := [(3, [2, 4])] } }
def edj : Dev := { edv with kv := { edv.kv with swaps := [], job := some ⟨2, 3, 5, 6, [1, 2], none⟩ } }

def stp : Step := { session := 3, callSeq := 1, pos := 10, tokens := [5, 6], sampled := true, released := [9] }
/-- Session 3, valid and CALLING, with one step in flight. -/
def scp : Dev := { (rdy.setSes 3 0 1).setSes 3 0x200 2 with call := { steps := [stp] }, host := hup }

/-- CXL memory on: the decoder committed, Memory_Active set. -/
def hos : Dev := { rdy with host := { up := true, memActive := true, hdm := some (0, 0) }, mem := { hbm := [(0x80000003, 1), (0x140000043, 2), (0x140000100, 6)], bad := [0x5000001] } }

def lu (msix : Bool) : LinkUp := ⟨false, 16, 3, true, msix⟩

/-- An adapter image of rank 1 for a 2 × 2 target at point 0, at staging unit 7, with its digest. -/
def imgTail : List Byte := leBytes 4 0 ++ leBytes 2 0x3F80 ++ leBytes 2 0 ++ leBytes 2 0 ++ leBytes 2 0 ++ leBytes 4 0x60 ++ leBytes 4 0x64 ++ List.replicate 12 0 ++ [0, 0x40, 0, 0x40, 0x80, 0x3F, 0x80, 0x3F]
def img1 : List Byte := leBytes 4 0x41445031 ++ leBytes 4 6 ++ leBytes 4 0x101 ++ leBytes 4 0x68 ++ shake256 imgTail ++ List.replicate 16 0 ++ imgTail
def adi : Dev := { rdy with call := { adpJob := some (2, 1, 7), adpSlots := [(2, { tenant := 1 })] }, scr := { script := some { targets := [⟨0, 2, 2⟩] } }, mem := { hbm := wrN [] (0x140000000 + 4096 * 7) img1 } }

/-- Devices and operands that meet the hypotheses of ResetInputsHoldOrEndTheDevice, clause by clause. -/
theorem wit_ResetInputsHoldOrEndTheDevice :
    (100 ≤ 100 ∧ rdy.sys.sysRst = false) ∧
    (99 < 100) ∧
    (({} : Dev).sys.sysRst = true) ∧
    (10000000 ≤ 10000000 ∧ ply.sys.st ≠ .off ∧ ply.sys.prsnt = true) ∧
    (Rail.core ≠ .aon ∧ rdy.sys.st ≠ .off ∧ rdy.sys.st ≠ .tripped) ∧
    (off.sys.st = .off) ∧
    (rdy.sys.st ≠ .off) :=
  ⟨by decide +kernel, by decide +kernel, by decide +kernel, by decide +kernel, by decide +kernel, by decide +kernel, by decide +kernel⟩

/-- Devices and operands that meet the hypotheses of StartEventsBeginTheStartUp, clause by clause. -/
theorem wit_StartEventsBeginTheStartUp :
    (off.sys.st = .off ∧ off.sys.sysRst = false ∧ off.sys.prsnt = true ∧ off.sys.pg = 0x5F ∧ off.sys.thermTripN = false) ∧
    (let x : Dev := {}; x.sys.sysRst = true ∧ x.sys.st ≠ .off ∧ x.sys.st ≠ .blackout ∧ x.sys.prsnt = true ∧ x.sys.pg = 0x7F ∧ x.sys.thermTripN = false) ∧
    (let x : Dev := { sys := { sysRst := false, prsnt := false } }; 10000000 ≤ 10000000 ∧ x.sys.prsnt = false ∧ x.sys.st ≠ .off ∧ x.sys.st ≠ .blackout ∧ x.sys.sysRst = false ∧ x.sys.pg = 0x7F ∧ x.sys.thermTripN = false) ∧
    (let x : Dev := { sys := { sysRst := false, pg := 0x7E } }; x.sys.pg ≠ 0x7F ∧ x.sys.st ≠ .off ∧ x.sys.st ≠ .blackout ∧ x.sys.sysRst = false ∧ x.sys.prsnt = true ∧ x.sys.thermTripN = false) ∧
    (let x : Dev := { sys := { st := .tripped, sysRst := false, thermTripN := true, coreStopped := true }, thm := { tripCause := 1 } }; x.sys.thermTripN = true ∧ x.thm.tripLatched = false ∧ x.sys.st ≠ .off ∧ x.sys.st ≠ .blackout ∧ x.sys.sysRst = false ∧ x.sys.prsnt = true ∧ x.sys.pg = 0x7F) ∧
    (let x : Dev := { sys := { st := .tripped, sysRst := false, thermTripN := true }, thm := { tripCause := 1, tripLatched := true } }; x.thm.tripLatched = true ∧ x.sys.sysRst = false ∧ x.sys.prsnt = true) :=
  ⟨by decide +kernel, by decide +kernel, by decide +kernel, by decide +kernel, by decide +kernel, by decide +kernel⟩

/-- Devices and operands that meet the hypotheses of StartUpEndsReadyStruckOrDark, clause by clause. -/
theorem wit_StartUpEndsReadyStruckOrDark :
    (let x : Dev := { sec := { protectedOk := false } }; x.sec.protectedOk = false) ∧
    (let x : Dev := { sec := { protectedOk := true, boA := [], boB := [] } }; x.sec.protectedOk = true ∧ qualifies 1 x.sec.floorBo.toNat x.sec.boA = none ∧ qualifies 1 x.sec.floorBo.toNat x.sec.boB = none) :=
  ⟨by decide +kernel, by decide +kernel⟩

/-- Devices and operands that meet the hypotheses of FatalSourcesStrikeOrBlackOut, clause by clause. -/
theorem wit_FatalSourcesStrikeOrBlackOut :
    (rdy.coreRuns = true ∧ rdy.sys.st ≠ .darkHouse ∧ rdy.inFatal = false ∧ rdy.sys.st ≠ .boot) ∧
    (let x : Dev := { ply with sec := { smRun := true } }; x.coreRuns = true ∧ x.sys.st ≠ .darkHouse ∧ x.sec.smRun = true ∧ x.inFatal = false) ∧
    (fatalNow.coreRuns = true ∧ fatalNow.sys.st ≠ .darkHouse ∧ fatalNow.inFatal = true) :=
  ⟨by decide +kernel, by decide +kernel, by decide +kernel⟩

/-- Devices and operands that meet the hypotheses of ThermalTripStopsTheCore, clause by clause. -/
theorem wit_ThermalTripStopsTheCore :
    (ply.sys.st ≠ .off ∧ ply.sys.st ≠ .tripped ∧ ply.sys.st ≠ .blackout) ∧
    (let x : Dev := { sys := { st := .tripped, sysRst := false } }; x.sys.st = .tripped) ∧
    (off.sys.st = .off) :=
  ⟨by decide +kernel, by decide +kernel, by decide +kernel⟩

/-- Devices and operands that meet the hypotheses of PinFiltersActAsTheTableGives, clause by clause. -/
theorem wit_PinFiltersActAsTheTableGives :
    (rdy.sys.st ≠ .off ∧ (if true then 100 ≤ 100 else 1000000 ≤ 100)) ∧
    (rdy.sys.st ≠ .off ∧ 99 < 100) ∧
    (let x : Dev := { rdy with host := { up := true } }; 100 ≤ 100 ∧ x.sys.perst = false ∧ x.inReset = false) ∧
    (rdy.sys.st ≠ .off ∧ rdy.inReset = false ∧ 999 < 1000) ∧
    (1000 ≤ 1000 ∧ ply.sys.st = .playing ∧ ply.coreRuns = true ∧ ply.sys.freezeN = false ∧ ply.dbg.frozen = false) ∧
    (9999 < 10000) :=
  ⟨by decide +kernel, by decide +kernel, by decide +kernel, by decide +kernel, by decide +kernel, by decide +kernel⟩

/-- Devices and operands that meet the hypotheses of BandsFollowTheReadings, clause by clause. -/
theorem wit_BandsFollowTheReadings :
    (3 ≤ 3 ∧ 0 < risingBand (900 + 30) ∧ nextBand 3 0 < 3) ∧
    (ply.coreRuns = true ∧ ply.frm.running = true) ∧
    (rdy.coreRuns = true ∧ rdy.frm.running = false) ∧
    (let x : Dev := { rdy with sys := { rdy.sys with bypassN := true } }; x.sys.st ≠ .off ∧ (if false then 100 ≤ 1000000 else 1000000 ≤ 1000000)) ∧
    (1000 ≤ 1000 ∧ rdy.barOk = true ∧ rdy.sys.freezeN = false ∧ rdy.sys.st ≠ .playing ∧ rdy.sys.st ≠ .curtain ∧ rdy.stoppable = true) ∧
    (let x : Dev := { frozenCmd with sys := { frozenCmd.sys with freezeN := true }, dbg := { frozenCmd.dbg with holdPin := true } }; 10000 ≤ 10000 ∧ x.sys.st ≠ .off ∧ x.sys.freezeN = true ∧ x.dbg.holdPin = true ∧ x.dbg.frozen = true) ∧
    (10000 ≤ 10000 ∧ frozen.sys.st ≠ .off ∧ frozen.sys.freezeN = true ∧ frozen.dbg.holdPin = true ∧ frozen.dbg.frozen = true) :=
  ⟨by decide +kernel, by decide +kernel, by decide +kernel, by decide +kernel, by decide +kernel, by decide +kernel, by decide +kernel⟩

/-- Devices and operands that meet the hypotheses of MonitorCycleReadsAndProtects, clause by clause. -/
theorem wit_MonitorCycleReadsAndProtects :
    (let x : Dev := { ply with thm := { vset := 750 } }; x.coreRuns = true ∧ railBroken 0 (railUv (monSum nominal 8) 8 1) ((x.thm.vset : Rat) * 1000) 6 = none ∧ railBroken 1 (railUv (monSum nominal 9) 8 1) 1100000 5 = none ∧ railBroken 2 (railUv (monSum nominal 10) 8 1) 900000 6 = none) := by decide +kernel

/-- Devices and operands that meet the hypotheses of ConverterAndSupplyCommandsRun, clause by clause. -/
theorem wit_ConverterAndSupplyCommandsRun :
    (rdy.up = true ∧ rdy.hkc.burst = none ∧ rdy.hkc.ref ≠ 1 ∧ rdy.hkc.urg = none) ∧
    (let x : Dev := { rdy with hkc := { ref := 1 } }; x.up = true ∧ x.hkc.burst = none ∧ x.hkc.ref = 1 ∧ x.hkc.extOk = false) ∧
    (hkB.up = true ∧ hkB.hkc.burst ≠ none ∧ hkB.coreRuns = true ∧ hkB.hkc.settled = true ∧ hkB.hkc.urg ≠ none) ∧
    (rdy.hkc.settled = false) ∧
    (let x : Dev := { rdy with thm := { vset := 750, avsFails := 1 } }; x.coreRuns = true ∧ x.thm.avsStopped = false ∧ x.thm.samples.length < 9 ∧ x.up = true ∧ 765 ≤ x.thm.vset + 15 ∧ x.thm.vset ≤ 765 + 15) ∧
    (let x : Dev := { rdy with thm := { vset := 750, avsFails := 1, samples := List.replicate 9 7 } }; 9 ≤ x.thm.samples.length ∧ ¬ (766 ≤ x.thm.vset + 15 ∧ x.thm.vset ≤ 766 + 15) ∧ x.thm.avsFails < 2 ∧ x.thm.avsStopped = false) ∧
    (let x : Dev := { rdy with thm := { vset := 750, avsFails := 2 } }; ¬ (734 ≤ x.thm.vset + 15 ∧ x.thm.vset ≤ 734 + 15) ∧ 2 ≤ x.thm.avsFails ∧ x.coreRuns = true ∧ x.thm.avsStopped = false) :=
  ⟨by decide +kernel, by decide +kernel, by decide +kernel, by decide +kernel, by decide +kernel, by decide +kernel, by decide +kernel⟩

/-- Devices and operands that meet the hypotheses of FreezeHoldsFollowTheirSources, clause by clause. -/
theorem wit_FreezeHoldsFollowTheirSources :
    (play2.up = true ∧ play2.sys.st = .playing ∧ play2.dbg.frozen = false ∧ 2 ≤ play2.sec.level) ∧
    (ply.sec.level < 2) ∧
    (frozenCmd.up = true ∧ frozenCmd.sys.st = .frozen ∧ frozenCmd.dbg.frozen = true ∧ frozenCmd.dbg.holdPin = false ∧ frozenCmd.dbg.remote = [] ∧ frozenCmd.sys.frozenFrom ≠ .frozen) ∧
    (let x : Dev := { frozenCmd with frm := { running := true, start := 100 } }; x.up = true ∧ x.sys.st = .frozen ∧ x.dbg.frozen = true ∧ x.frm.running = true) ∧
    (let x : Dev := { rdy with sec := { st := .ownerDebug, level := 2, max := 2 } }; x.up = true ∧ 2 ≤ x.sec.level ∧ x.sys.st ≠ .playing ∧ x.sys.st ≠ .curtain) ∧
    (10000 ≤ 10000 ∧ frozen.sys.st = .frozen ∧ frozen.sys.freezeN = true ∧ frozen.dbg.holdPin = true ∧ frozen.dbg.frozen = true ∧ frozen.dbg.holdCmd = false ∧ frozen.dbg.holdHazard = false ∧ frozen.dbg.holdJtag = false ∧ frozen.dbg.remote = [] ∧ frozen.sys.frozenFrom ≠ .frozen) :=
  ⟨by decide +kernel, by decide +kernel, by decide +kernel, by decide +kernel, by decide +kernel, by decide +kernel⟩

/-- Devices and operands that meet the hypotheses of ErrorUnitAndHistoryCommands, clause by clause. -/
theorem wit_ErrorUnitAndHistoryCommands :
    (errs.up = true ∧ errs.inFatal = false ∧ sparseWf errs.err.stack = true ∧ errs.err.held = []) ∧
    (fatalNow.inFatal = true) ∧
    (let x : Dev := { errs with sec := { st := .manufacture } }; x.up = true ∧ x.sec.st = .manufacture) ∧
    (errs.sec.st ≠ .manufacture ∧ errs.sec.st ≠ .vendorDebug) ∧
    (errs.sys.st ≠ .off ∧ (5 : BitVec 5) ≠ 17 ∧ (sget errs.err.hist (histKey 5 3)).map Hist.hours = some 168 ∧ 168 ∣ 168) ∧
    (let x : Dev := { errs with err := { hist := [(histKey 5 3, { score := 9, hours := 169 })] } }; (sget x.err.hist (histKey 5 3)).map Hist.hours = some 169 ∧ ¬ 168 ∣ 169) ∧
    (errs.up = true ∧ (errs.err.locs.any fun l => l.is .wings (locUnit .wings 0 4) 4 && l.testing) = true) ∧
    ((errs.err.locs.any fun l => l.is .wings (locUnit .wings 0 5) 5 && l.testing) = false) :=
  ⟨by decide +kernel, by decide +kernel, by decide +kernel, by decide +kernel, by decide +kernel, by decide +kernel, by decide +kernel, by decide +kernel⟩

/-- Devices and operands that meet the hypotheses of RingKeepsUncorrectedRecords, clause by clause. -/
theorem wit_RingKeepsUncorrectedRecords :
    (let x : Dev := { rdy with err := { ring := [(0, oneRec)], tail := 1, stack := [(0, oneRec, false)] } }; 3 ≤ 3 ∧ sparseWf x.err.ring = true ∧ (x.err.tail - x.err.head).toNat < 65536 ∧ (sget x.err.ring 0).map ErrRec.cls = some 3 ∧ x.err.live 0 = true ∧ sget x.err.stack 14 = none ∧ sget x.err.stack 1 = none ∧ sget x.err.stack 0 ≠ none) := by decide +kernel

/-- Devices and operands that meet the hypotheses of ScrubberCorrectsAndContains, clause by clause. -/
theorem wit_ScrubberCorrectsAndContains :
    (rdy.scrubs .wings = true ∧ locOk .wings 255 8190 = true ∧ lastLoc .wings 255 8190 = false ∧ rsDecode (storeSyms .wings) [] = .clean) ∧
    (rdy.scrubs .prompter = true ∧ locOk .prompter 8191 30 = true ∧ lastLoc .prompter 8191 30 = false ∧ rsDecode (storeSyms .prompter) [(3, 5)] = .correct [(3, 5)] ∧ rsResidue (storeSyms .prompter) [(3, 5)] [(3, 5)] = []) ∧
    (let x : Dev := { rdy with mem := { wings := [(511, 3), (512, 9), (640, 4)] } }; x.scrubs .wings = true ∧ locOk .wings 0 4 = true ∧ lastLoc .wings 0 4 = false ∧ x.bankOwner (0 * 2 ^ 20) ≠ 16 ∧ rsDecode (storeSyms .wings) [(0, 1), (1, 1), (2, 1)] = .uncorrectable ∧ Mem.wf x.mem = true) ∧
    (let x : Dev := { rdy with mem := { cnt := [(0, 3)] } }; x.scrubs .hbm = true ∧ locOk .hbm 0 4 = true ∧ lastLoc .hbm 0 4 = false ∧ 4 ∉ x.mem.bad ∧ rsDecode (storeSyms .hbm) [] = .clean) ∧
    (off.up = false) :=
  ⟨by decide +kernel, by decide +kernel, by decide +kernel, by decide +kernel, by decide +kernel⟩

/-- Devices and operands that meet the hypotheses of DebugLevelFollowsItsRegister, clause by clause. -/
theorem wit_DebugLevelFollowsItsRegister :
    (play2.barOk = true ∧ (2 : BitVec 2).toNat ≤ play2.sec.max ∧ play2.sec.max < (3 : BitVec 2).toNat) ∧
    (lockedDoe.doeOk = true ∧ lockedDoe.sec.st = .locked ∧ lockedDoe.sec.owner.isSome = true ∧ lockedDoe.sec.st ≠ .ownerDebug) ∧
    (play2.barOk = true ∧ play2.sec.st = .ownerDebug) :=
  ⟨by decide +kernel, by decide +kernel, by decide +kernel⟩

/-- Devices and operands that meet the hypotheses of FirmwareUpdatesFillBufferAndProgram, clause by clause. -/
theorem wit_FirmwareUpdatesFillBufferAndProgram :
    (rdy.barOk = true ∧ rdy.sec.kindOk true = true ∧ 1 ≤ (256 : BitVec 9).toNat ∧ (256 : BitVec 9).toNat ≤ 256 ∧ rdy.sec.buffer.length / 4096 + (256 : BitVec 9).toNat ≤ 4095) ∧
    (let x : Dev := { rdy with sec := { st := .dark } }; x.barOk = true ∧ x.sec.kindOk true = false) :=
  ⟨by decide +kernel, by decide +kernel⟩

/-- Devices and operands that meet the hypotheses of UnsignedDoeRequestsAnswer, clause by clause. -/
theorem wit_UnsignedDoeRequestsAnswer :
    (lockedDoe.doeOk = true ∧ lockedDoe.sec.protectedOk = true ∧ (List.replicate 32 (7 : Byte)).length = 32 ∧ ([] : List Byte).length ≠ 32 ∧ 65536 ≤ 65536) ∧
    (let x : Dev := { lockedDoe with sec := { st := .dark, protectedOk := false } }; x.doeOk = true ∧ x.sec.protectedOk = false) :=
  ⟨by decide +kernel, by decide +kernel⟩

/-- Devices and operands that meet the hypotheses of SignedRequestsChangeOwnership, clause by clause. -/
theorem wit_SignedRequestsChangeOwnership :
    (let x : Dev := { lockedDoe with sec := { st := .manufacture, owner := none } }; x.doeOk = true ∧ x.sec.st ≠ .dark ∧ x.sec.st = .manufacture ∧ x.sys.st = .ready ∧ ¬ (x.sec.st = .vendorDebug)) ∧
    (let x : Dev := { lockedDoe with sec := { st := .locked, owner := none } }; x.doeOk = true ∧ x.sec.st = .locked ∧ x.sec.owner = none ∧ x.sys.st = .ready) ∧
    (lockedDoe.doeOk = true ∧ lockedDoe.sec.owner = some keys ∧ lockedDoe.sec.st = .locked ∧ lockedDoe.sys.st = .ready) ∧
    (let x : Dev := { lockedDoe with sys := { rdy.sys with st := .struck }, sec := { st := .vendorDebug } }; x.doeOk = true ∧ x.sec.st = .vendorDebug ∧ x.sys.st = .struck) :=
  ⟨by decide +kernel, by decide +kernel, by decide +kernel, by decide +kernel⟩

/-- Devices and operands that meet the hypotheses of JtagInstructionsObeyTheMatrix, clause by clause. -/
theorem wit_JtagInstructionsObeyTheMatrix :
    (rdy.sys.st ≠ .off ∧ rdy.allows 2 = false ∧ rdy.allows 3 = false ∧ rdy.scanOk = false ∧ ¬ (rdy.sec.st = .manufacture ∨ rdy.sec.st = .vendorDebug)) ∧
    (let x : Dev := { sec := { st := .manufacture } }; (x.sec.st = .manufacture ∨ x.sec.st = .vendorDebug) ∧ x.sys.sysRst = true) ∧
    (play2.sys.st ≠ .off ∧ play2.allows 2 = true ∧ play2.sys.st = .playing ∧ play2.dbg.frozen = false) ∧
    (let x : Dev := { sys := { st := .blackout, sysRst := false, coreStopped := true }, dbg := { keptLevel := 3 } }; x.inReset = false ∧ x.sys.st = .blackout ∧ 1 ≤ x.dbg.keptLevel ∧ x.scanOk = true) ∧
    (sec3.sys.st ≠ .off ∧ sec3.allows 3 = true) :=
  ⟨by decide +kernel, by decide +kernel, by decide +kernel, by decide +kernel, by decide +kernel⟩

/-- Devices and operands that meet the hypotheses of DebugAccessReadsWhatItsLevelAllows, clause by clause. -/
theorem wit_DebugAccessReadsWhatItsLevelAllows :
    (rdy.sys.st ≠ .off ∧ rdy.allows 3 = false ∧ rdy.allows (readLevel 0) = false ∧ 2 < (3 : BitVec 4).toNat ∧ rdy.allows 2 = false) ∧
    (sec3.sys.st ≠ .off ∧ sec3.allows 3 = true ∧ sec3.allows (readLevel 0) = true ∧ sec3.memQuiet = true ∧ sec3.allows (if nonTenant 0x2F_FFFF_FFFC then 2 else 3) = true ∧ 0x2F_FFFF_FFFC + 4 ≤ hbmEnd ∧ regionOf 0x2F_FFFF_FFFC ≠ .firmware ∧ regionOf 0x2F_FFFF_FFFC ≠ .census ∧ sec3.mem.isBad 0x2F_FFFF_FFFC 4 = false ∧ sec3.sramWord 0 0 0 = some (3, 0)) ∧
    (let x : Dev := { sec3 with sys := ply.sys }; x.allows 3 = true ∧ x.memQuiet = false) :=
  ⟨by decide +kernel, by decide +kernel, by decide +kernel⟩

/-- Devices and operands that meet the hypotheses of I3cReadsAndEthernetSends, clause by clause. -/
theorem wit_I3cReadsAndEthernetSends :
    (rdy.i3cOn = true ∧ rdy.dbg.i3cAddr = none ∧ rdy.coreRuns = true ∧ rdy.mesh.ethEn = false ∧ rdy.ethMaySend = false) ∧
    (let x : Dev := { rdy with dbg := { i3cAddr := some 5, i3cOff := 0xFFFFFFF0 } }; x.i3cOn = true ∧ x.dbg.i3cAddr.isSome = true ∧ x.dbg.i3cOff = 0xFFFFFFF0) ∧
    (let x : Dev := { rdy with dbg := { i3cAddr := some 5, i3cOff := 0 } }; x.i3cOn = true ∧ x.dbg.i3cAddr.isSome = true ∧ x.dbg.i3cOff ≠ 0xFFFFFFF0 ∧ x.allows (readLevel (x.dbg.i3cOff.toNat % 2 ^ 25)) = false) ∧
    (let x : Dev := { sec3 with dbg := { i3cAddr := some 5, i3cOff := 0x400110 } }; x.i3cOn = true ∧ x.dbg.i3cAddr.isSome = true ∧ x.dbg.i3cOff.toNat < 2 ^ 25 ∧ x.allows (readLevel x.dbg.i3cOff.toNat) = true) ∧
    (let x : Dev := { sec3 with mesh := { ethEn := true, ethSpeed := 1, ethDest := [(0, 1)] } }; x.coreRuns = true ∧ (2 : BitVec 2) ≠ 3 ∧ x.mesh.ethEn = true ∧ x.ethMaySend = true) :=
  ⟨by decide +kernel, by decide +kernel, by decide +kernel, by decide +kernel, by decide +kernel⟩

/-- Devices and operands that meet the hypotheses of TileCuesWaitForAFilledLane, clause by clause. -/
theorem wit_TileCuesWaitForAFilledLane :
    (ply.lane ev.lane.toNat = none ∧ rq.wf = true ∧ ou.wf = true ∧ re.wf = true ∧ mo.wf = true) ∧
    (rdy.cues = false ∧ wi.wf = true ∧ pc.wf = true ∧ hc.wf = true ∧ hbmInside hc = true ∧ rdy.linkCues = false) ∧
    (lan.cues = true) ∧
    (let x : Dev := { cel with tile := { cel.tile with prBad := [0, 1, 2, 130] } }; x.cues = true ∧ x.lane ev.lane.toNat = some tok5 ∧ 0 ∈ x.tile.prBad) ∧
    (let x : Dev := { cel with tile := { cel.tile with late := [{ ev with fmt := .aw8 }] } }; (∀ c ∈ x.tile.late, 4 ≤ c.slot.toNat) ∧ (∀ k ∈ [1, 2 ^ 19], k ∉ x.tile.lost)) :=
  ⟨by decide +kernel, by decide +kernel, by decide +kernel, by decide +kernel, by decide +kernel⟩

/-- Devices and operands that meet the hypotheses of EvalAddsItsContribution, clause by clause. -/
theorem wit_EvalAddsItsContribution :
    (cel.cues = true ∧ cel.lane ev.lane.toNat = some tok5 ∧ 0 ∉ cel.tile.prBad ∧ cel.tile.holder 0 0 = some 0 ∧ (cel.arr 0).suspended = false ∧ (∀ r ∈ evalRows ev, tagFmt (cel.rowTag 0 r.1 r.2.2) = r.2.1 ∧ tagOset (cel.rowTag 0 r.1 r.2.2) = (cel.slotDesc 0 0).oset) ∧ (∀ i < evalSlots ev, (0, 4 + i) ∉ cel.tile.driven) ∧ (rowCodes .an4 (rdN cel.mem.apron 0 512) [] []).1.any (fun v => v != 0) = true) ∧
    (let x : Dev := { cel with mem := { cel.mem with apron := [] } }; x.cues = true ∧ x.lane ev.lane.toNat = some tok5 ∧ 0 ∉ x.tile.prBad ∧ x.tile.holder 0 0 = some 0 ∧ (x.arr 0).suspended = false ∧ (∀ r ∈ evalRows ev, tagFmt (x.rowTag 0 r.1 r.2.2) = r.2.1 ∧ tagOset (x.rowTag 0 r.1 r.2.2) = (x.slotDesc 0 0).oset) ∧ (∀ i < evalSlots ev, (0, 4 + i) ∉ x.tile.driven) ∧ (rowCodes .an4 (rdN x.mem.apron 0 512) [] []).1.all (fun v => v == 0) = true) ∧
    (let x : Dev := { cel with mem := { cel.mem with tags := [(0, mkTag 2 2 0), (1, mkTag 2 3 0)] } }; x.cues = true ∧ x.lane ev.lane.toNat = some tok5 ∧ (let d := (x.advance 4).useKeys [2 ^ 19 + 0] tok5.step; 0 ∉ d.tile.prBad ∧ (∀ i < evalSlots { ev with fmt := .aw8, rowLo := 1 }, (0, 4 + i) ∉ d.tile.driven))) ∧
    (let x : Dev := { cel with mem := { cel.mem with tags := [(0, mkTag 2 2 0), (1, mkTag 2 3 0)] }, tile := { cel.tile with late := [{ ev with fmt := .aw8, rowLo := 1 }], driven := [(0, 4), (0, 5)] } }; x.cues = true ∧ x.tile.late = [{ ev with fmt := .aw8, rowLo := 1 }] ∧ ev.slot.toNat < 6 ∧ x.lane ev.lane.toNat = some tok5 ∧ (let d := (x.advance 4).useKeys [2 ^ 19 + 0] tok5.step; (∃ i < evalSlots ev, (0, 4 + i) ∈ d.tile.driven))) :=
  ⟨by decide +kernel, by decide +kernel, by decide +kernel, by decide +kernel⟩

/-- Devices and operands that meet the hypotheses of EvalRefusesWrongRows, clause by clause. -/
theorem wit_EvalRefusesWrongRows :
    (let x : Dev := { cel with tile := { cel.tile with arrs := [(0, { role := 3 })] } }; x.cues = true ∧ x.lane ev.lane.toNat = some tok5 ∧ 0 ∉ x.tile.prBad ∧ (x.tile.holder 0 0).isNone = true) ∧
    (let x : Dev := { cel with tile := { cel.tile with arrs := [(0, { suspended := true })] } }; x.cues = true ∧ x.lane ev.lane.toNat = some tok5 ∧ 0 ∉ x.tile.prBad ∧ x.tile.holder 0 0 = some 0 ∧ (x.arr 0).suspended = true) ∧
    (let x : Dev := { cel with mem := { cel.mem with tags := [(0, mkTag 2 1 1)] } }; x.cues = true ∧ x.lane ev.lane.toNat = some tok5 ∧ 0 ∉ x.tile.prBad ∧ (∃ r ∈ evalRows ev, tagFmt (x.rowTag 0 r.1 r.2.2) ≠ r.2.1 ∨ tagOset (x.rowTag 0 r.1 r.2.2) ≠ (x.slotDesc 0 0).oset) ∧ (0, 4) ∉ x.tile.driven) :=
  ⟨by decide +kernel, by decide +kernel, by decide +kernel⟩

/-- Devices and operands that meet the hypotheses of AdditionsAndCodesStayInRange, clause by clause. -/
theorem wit_AdditionsAndCodesStayInRange :
    (sget (Tile.acc { acc := [(1, ⟨9, 0, [5], [3]⟩)] }) 1 = some ⟨9, 0, [5], [3]⟩ ∧ 3 ∈ (⟨9, 0, [5], [3]⟩ : AccSet).ovf) ∧
    (-(2 ^ 31 - 1) ≤ shrRne 5 0 + shrRne 6 0 ∧ shrRne 5 0 + shrRne 6 0 ≤ 2 ^ 31 - 1 ∧ 2 ^ 31 - 1 < shrRne (2 ^ 31 - 1) 0 + shrRne 1 0 ∧ shrRne (-(2 ^ 31)) 0 + shrRne 0 0 < -(2 ^ 31 - 1)) ∧
    ((quantise [.inf true] .an4 0 [] none)[0]? = some (-15, true) ∧ 65535 < 65536 ∧ isClip (convCode 0 0 511) = true) :=
  ⟨by decide +kernel, by decide +kernel, by decide +kernel⟩

/-- Devices and operands that meet the hypotheses of RequantWritesItsRows, clause by clause. -/
theorem wit_RequantWritesItsRows :
    (rq.wf = true ∧ lan.cues = true ∧ lan.lane rq.lane.toNat = some tok5 ∧ lan.hazActive = false ∧ (lan.vecLoc rq.srcKind rq.src.toNat 0 5 0).apron = false ∧ lan.outstanding true 0 512 = none ∧ lan.refusedBank 0 false 0 512 = none ∧ (vecElems .e4m3 (rdN lan.mem.wings 0 512)).contains .nan = false) ∧
    (let x : Dev := { lan with mem := { lan.mem with wings := [(2, 0x7F)] } }; rq.wf = true ∧ x.cues = true ∧ x.lane rq.lane.toNat = some tok5 ∧ x.hazActive = false ∧ (x.vecLoc rq.srcKind rq.src.toNat 0 5 0).apron = false ∧ x.outstanding true 0 512 = none ∧ x.refusedBank 0 false 0 512 = none ∧ (vecElems .e4m3 (rdN x.mem.wings 0 512)).contains .nan = true) ∧
    (let x : Dev := { lan with mem := { lan.mem with tags := [(4, mkTag 0 6 0), (5, mkTag 0 7 0)] } }; x.cues = true ∧ x.hazActive = false ∧ (x.vecLoc .apron 4 0 5 0).apron = true ∧ (∀ p ∈ (dataTags .bf16).zipIdx, tagFmt (x.rowTag 0 (4 + p.2) 0) = p.1)) ∧
    (rq.wf = true ∧ lan.cues = true ∧ lan.hazActive = false ∧ lan.lane rq.lane.toNat = some tok5 ∧ (lan.vecLoc .apron 4 0 5 0).apron = true ∧ (∃ p ∈ (dataTags .bf16).zipIdx, tagFmt (lan.rowTag 0 (4 + p.2) 0) ≠ p.1)) ∧
    (busyW.cues = true ∧ busyW.hazActive = false ∧ (busyW.vecLoc rq.srcKind rq.src.toNat 0 5 0).apron = false ∧ (busyW.outstanding true 0 512).isSome = true) :=
  ⟨by decide +kernel, by decide +kernel, by decide +kernel, by decide +kernel, by decide +kernel⟩

/-- Devices and operands that meet the hypotheses of OutReleasesItsSet, clause by clause. -/
theorem wit_OutReleasesItsSet :
    (ou.wf = true ∧ busyW.cues = true ∧ busyW.lane 5 = some tok5 ∧ busyW.hazActive = false ∧ Mem.wf busyW.mem = true ∧ sparseWf busyW.tile.acc = true ∧ (busyW.outstanding true 1024 512).isSome = true) ∧
    (cel.cues = true ∧ cel.lane 5 = some tok5 ∧ cel.hazActive = false ∧ Mem.wf cel.mem = true ∧ sparseWf cel.tile.acc = true ∧ (cel.vecLoc ou.dstKind ou.dst.toNat 1 5 0).apron = false ∧ cel.outstanding true 1024 512 = none ∧ cel.refusedBank 0 true 1024 512 = none) ∧
    (cel.cues = true ∧ cel.lane 5 = some tok5 ∧ cel.hazActive = false ∧ Mem.wf cel.mem = true ∧ sparseWf cel.tile.acc = true ∧ (cel.vecLoc .apron 2 1 5 0).apron = true) ∧
    (let x : Dev := { cel with mem := { cel.mem with owner := [(0, 16)] } }; x.cues = true ∧ x.lane 5 = some tok5 ∧ x.hazActive = false ∧ Mem.wf x.mem = true ∧ sparseWf x.tile.acc = true ∧ x.outstanding true 1024 512 = none ∧ x.refusedBank 0 true 1024 512 = some 0) :=
  ⟨by decide +kernel, by decide +kernel, by decide +kernel, by decide +kernel⟩

/-- Devices and operands that meet the hypotheses of HopsRelaysAndMovesAct, clause by clause. -/
theorem wit_HopsRelaysAndMovesAct :
    (cel.cues = true ∧ cel.lane ho.lane.toNat = some tok5 ∧ re.wf = true ∧ sget (cel.tile.land 4).acc 1 ≠ none) ∧
    (mo.wf = true ∧ lan.cues = true ∧ lan.lane mo.lane.toNat = some tok5 ∧ lan.hazActive = false ∧ lan.outstanding true 0 512 = none ∧ lan.refusedBank 0 false 0 512 = none) ∧
    (({ mo with toApron := false, fmt := 0, row := 0 } : MoveCue).wf = true ∧ lan.outstanding true 0 512 = none ∧ lan.refusedBank 0 true 0 512 = none ∧ tagFmt (lan.rowTag 0 0 0) ≠ 0 ∧ (lan.rowBytes 0 0).length = 512) ∧
    (lan.refusedBank 0 true 0 512 = none ∧ tagFmt (lan.rowTag 0 2 0) = 0) :=
  ⟨by decide +kernel, by decide +kernel, by decide +kernel, by decide +kernel⟩

/-- Devices and operands that meet the hypotheses of WindowsServeTheirFlock, clause by clause. -/
theorem wit_WindowsServeTheirFlock :
    (wi.wf = true ∧ cel.cues = true ∧ sgetD cel.tile.queue 0 [] = []) ∧
    (let x : Dev := { cel with tile := { cel.tile with queue := [(0, [(⟨4, 1, 0, 9, 5, tok5, true, 0, [], 0, [], default⟩ : RepReq)])] } }; wi.wf = true ∧ x.cues = true) ∧
    (let x : Dev := { cel with tile := { cel.tile with queue := [(0, [(⟨3, 1, 0, 9, 5, tok5, true, 0, [], 0, [], default⟩ : RepReq)])], prBad := [1] } }; wi.wf = true ∧ x.cues = true ∧ (let d := x.advance 4; sgetD d.tile.queue 0 [] = [(⟨3, 1, 0, 9, 5, tok5, true, 0, [], 0, [], default⟩ : RepReq)] ∧ (⟨3, 1, 0, 9, 5, tok5, true, 0, [], 0, [], default⟩ : RepReq).landed 4 = true ∧ d.reqLive (⟨3, 1, 0, 9, 5, tok5, true, 0, [], 0, [], default⟩ : RepReq) = true ∧ d.winPlace [] (min 1 flockLimit) 4 (4 + (2 : BitVec 16).toNat) (⟨3, 1, 0, 9, 5, tok5, true, 0, [], 0, [], default⟩ : RepReq) = some 4 ∧ sgetD (((d.dropReq 0 (⟨3, 1, 0, 9, 5, tok5, true, 0, [], 0, [], default⟩ : RepReq)).drives 1 4 (⟨3, 1, 0, 9, 5, tok5, true, 0, [], 0, [], default⟩ : RepReq).cost).serve (⟨3, 1, 0, 9, 5, tok5, true, 0, [], 0, [], default⟩ : RepReq) 4 false).tile.queue 0 [] = [])) ∧
    (let x : Dev := { cel with tile := { cel.tile with arrs := [(0, { refs := true }), (1, { pslot := 1, refs := true })], kinds := [(0, 0), (1, 0)] } }; wi.wf = true ∧ x.cues = true ∧ wi.slots = 1 ∧ wi.tiles = 1 ∧ (x.tile.arrs.find? fun a => a.1 / 17 / 128 == 0 && a.2.pstate == 3 && a.2.toMeasure != 0 && (fun a => !(x.advance 4).sheetEval (a / 17) 4 && (x.advance 4).tile.idleIn (a / 17) 4 1 && !(x.advance 4).tile.prBad.contains (a / 17)) a.1) = none ∧ (x.tile.probes.find? fun p => p.arr / 17 / 128 == 0 && (fun a => !(x.advance 4).sheetEval (a / 17) 4 && (x.advance 4).tile.idleIn (a / 17) 4 1 && !(x.advance 4).tile.prBad.contains (a / 17)) p.arr) = none ∧ (x.advance 4).rotation 0 (fun a => !(x.advance 4).sheetEval (a / 17) 4 && (x.advance 4).tile.idleIn (a / 17) 4 1 && !(x.advance 4).tile.prBad.contains (a / 17)) = some 0) ∧
    (let x : Dev := { cel with tile := { cel.tile with arrs := [(1, { pstate := 3, toMeasure := 5, role := 1 })] } }; wi.wf = true ∧ x.cues = true ∧ wi.slots = 1 ∧ wi.tiles = 1 ∧ (x.tile.arrs.find? fun a => a.1 / 17 / 128 == 0 && a.2.pstate == 3 && a.2.toMeasure != 0 && (fun a => !(x.advance 4).sheetEval (a / 17) 4 && (x.advance 4).tile.idleIn (a / 17) 4 1 && !(x.advance 4).tile.prBad.contains (a / 17)) a.1) = some (1, { pstate := 3, toMeasure := 5, role := 1 })) ∧
    (let x : Dev := { cel with tile := { cel.tile with probes := [{ arr := 3, next := 2, flagged := [4] }] } }; wi.wf = true ∧ x.cues = true ∧ wi.slots = 1 ∧ wi.tiles = 1 ∧ (x.tile.arrs.find? fun a => a.1 / 17 / 128 == 0 && a.2.pstate == 3 && a.2.toMeasure != 0 && (fun a => !(x.advance 4).sheetEval (a / 17) 4 && (x.advance 4).tile.idleIn (a / 17) 4 1 && !(x.advance 4).tile.prBad.contains (a / 17)) a.1) = none ∧ (x.tile.probes.find? fun p => p.arr / 17 / 128 == 0 && (fun a => !(x.advance 4).sheetEval (a / 17) 4 && (x.advance 4).tile.idleIn (a / 17) 4 1 && !(x.advance 4).tile.prBad.contains (a / 17)) p.arr) = some { arr := 3, next := 2, flagged := [4] }) :=
  ⟨by decide +kernel, by decide +kernel, by rw [one_flockLimit]; decide +kernel, by decide +kernel, by decide +kernel, by decide +kernel⟩

/-- Devices and operands that meet the hypotheses of PlaceFillsExpertSlots, clause by clause. -/
theorem wit_PlaceFillsExpertSlots :
    (1 ≤ 2 ∧ (5, tok5) ∈ (placeSlots 2 1 [(5, tok5)]).1) ∧
    (let x : Dev := { ply with eng := { encoreOver := [(1026, [(7, tok5)])] } }; pc.wf = true ∧ x.cues = true ∧ x.hazActive = false ∧ sparseWf x.eng.encoreOver = true ∧ (∀ i < pc.arrN.toNat, x.lane (pc.arrLane.toNat + i) = none)) ∧
    (pc.wf = true ∧ scd.cues = true ∧ scd.hazActive = false ∧ sparseWf scd.eng.encoreOver = true ∧ pc.arrN = 1 ∧ scd.lane pc.arrLane.toNat = some tok5 ∧ tok5.cls = 0 ∧ 0 < ((scd.experts.slots.find? fun e => e.layer == 1 && e.expert == 2).getD default).regular ∧ (let a := scd.laneBufIn scd.template 5 0; let b := scd.laneBufIn scd.template 8 0; scd.refusedBank 0 false a.1 a.2 = none ∧ scd.refusedBank 0 true b.1 a.2 = none)) :=
  ⟨by decide +kernel, by decide +kernel, by decide +kernel⟩

/-- Devices and operands that meet the hypotheses of KernelsComputeTheirRow, clause by clause. -/
theorem wit_KernelsComputeTheirRow :
    (ke.wf true = true ∧ knd.cues = true ∧ knd.hazActive = false ∧ ke.nlanes = 1 ∧ ke.clear = false ∧ ke.stoch = false ∧ knd.lane ke.lane.toNat = some tok5 ∧ tok5.seg ≠ 65535 ∧ knd.opsOutstanding (knd.krun 0 ke) = none ∧ knd.opAt (knd.krun 0 ke) ke.op0 (opSize ke.op0) 0 = some (true, 0) ∧ knd.refusedBank 0 false 0 4 = none ∧ knd.opAt (knd.krun 0 ke) ke.op3 (opSize ke.op3) 0 = some (true, 1024) ∧ knd.opAt (knd.krun 0 ke) ke.op1 0 0 = some (true, 512) ∧ knd.refusedBank 0 false 512 (numBytes ke.op1.fmt 4) = none ∧ knd.refusedBank 0 true 1024 4 = none) ∧
    (ke.wf true = true ∧ knd.cues = true ∧ knd.hazActive = false ∧ ke.nlanes = 1 ∧ ke.clear = false ∧ ke.stoch = false ∧ knd.lane ke.lane.toNat = some tok5 ∧ tok5.seg ≠ 65535 ∧ knd.opsOutstanding (knd.krun 0 ke) = none ∧ knd.opAt (knd.krun 0 ke) ke.op0 (opSize ke.op0) 0 = some (true, 0) ∧ knd.refusedBank 0 false 0 4 = none ∧ (∃ kv, kv ∈ knd.ownKv.toList ∧ ∀ n ∈ knd.visible (knd.krun 0 ke) kv tok5, knd.badPage kv 3 1 n false = none)) ∧
    (rowAt .bf16 [0x80, 0x3F] (1 * 1) = some [1]) :=
  ⟨by decide +kernel, by decide +kernel, by decide +kernel⟩

/-- Devices and operands that meet the hypotheses of RoutingChoosesEnabledExperts, clause by clause. -/
theorem wit_RoutingChoosesEnabledExperts :
    (routeScores rl [0, 0x3F800000] = some [] ∨ (routeRow rl [0, 0x3F800000]).isSome = true) ∧
    (f32Val 0 = 0 ∧ ([0x3F800000] : List F32) ≠ [] ∧ ([5] : List Nat) ≠ []) ∧
    (ke.wf true = true ∧ rtd.cues = true ∧ rtd.hazActive = false ∧ ke.nlanes = 1 ∧ ke.clear = false ∧ ke.stoch = false ∧ rtd.lane ke.lane.toNat = some tok5 ∧ tok5.seg ≠ 65535 ∧ rtd.opsOutstanding (rtd.krun 0 ke) = none ∧ rtd.opAt (rtd.krun 0 ke) ke.op0 (opSize ke.op0) 0 = some (true, 0) ∧ rtd.refusedBank 0 false 0 4 = none ∧ rtd.opAt (rtd.krun 0 ke) ke.op3 (8 * (rtd.routeLayer ke.layer.toNat).k) 0 = some (true, 1024) ∧ rtd.refusedBank 0 true 1024 8 = none) ∧
    (let x : Dev := { rtd with scr := { script := some { scr1 with experts := ⟨[rl], []⟩, consts := [⟨2, 2, 1, 1, 2, 0, 0, [], 0, 0, [9]⟩] } } }; ke.wf true = true ∧ x.cues = true ∧ x.hazActive = false ∧ ke.nlanes = 1 ∧ ke.clear = false ∧ ke.stoch = false ∧ x.lane ke.lane.toNat = some tok5 ∧ tok5.seg ≠ 65535 ∧ x.opsOutstanding (x.krun 0 ke) = none ∧ x.opAt (x.krun 0 ke) ke.op0 (opSize ke.op0) 0 = some (true, 0) ∧ x.refusedBank 0 false 0 4 = none ∧ tok5.encHeld = false ∧ x.eng.delayed.contains (tok5.ex, tok5.ey, tok5.session, 1) = false ∧ x.lostReturn (x.krun 0 ke) 0 = true) ∧
    (let x : Dev := { rtd with scr := { script := some { scr1 with experts := ⟨[rl], []⟩, consts := [⟨2, 2, 1, 1, 2, 0, 0, [], 0, 0, [5]⟩] } }, mem := { rtd.mem with wings := [(0, 0x80), (1, 0x3F), (3, 0x40), (518, 0x80), (519, 0x3F)] } }; ke.wf true = true ∧ x.cues = true ∧ x.hazActive = false ∧ ke.nlanes = 1 ∧ ke.clear = false ∧ ke.stoch = false ∧ x.lane ke.lane.toNat = some tok5 ∧ tok5.seg ≠ 65535 ∧ x.opsOutstanding (x.krun 0 ke) = none ∧ x.opAt (x.krun 0 ke) ke.op0 (opSize ke.op0) 0 = some (true, 0) ∧ x.refusedBank 0 false 0 4 = none ∧ tok5.encHeld = false ∧ x.eng.delayed.contains (tok5.ex, tok5.ey, tok5.session, 1) = false ∧ x.lostReturn (x.krun 0 ke) 0 = false ∧ (x.combineRow (x.krun 7 ke) 0).1.mem = x.mem ∧ (x.combineRow (x.krun 7 ke) 0).1.err = x.err ∧ (x.combineRow (x.krun 7 ke) 0).1.frm = x.frm ∧ x.opAt (x.krun 0 ke) ke.op3 (opSize ke.op3) 0 = some (true, 1024)) ∧
    (ke.wf true = true ∧ rtd.cues = true ∧ rtd.hazActive = false ∧ ke.nlanes = 1 ∧ ke.clear = false ∧ ke.stoch = false ∧ rtd.lane ke.lane.toNat = some tok5 ∧ tok5.seg ≠ 65535 ∧ rtd.opsOutstanding (rtd.krun 0 ke) = none ∧ rtd.opAt (rtd.krun 0 ke) ke.op0 (opSize ke.op0) 0 = some (true, 0) ∧ rtd.refusedBank 0 false 0 4 = none ∧ (∃ x, x ∈ (rtd.stepOf tok5).toList ∧ x.sampled = false ∧ x.kEff = 0 ∧ x.prefillOnly = false ∧ tok5.pos = x.lastPos) ∧ rtd.opAt (rtd.krun 0 ke) ke.op3 4 0 = some (true, 1024) ∧ rtd.refusedBank 0 true 1024 4 = none) ∧
    (ke.wf true = true ∧ rtd.cues = true ∧ rtd.hazActive = false ∧ ke.nlanes = 1 ∧ ke.clear = false ∧ ke.stoch = false ∧ rtd.lane ke.lane.toNat = some tok5 ∧ tok5.seg ≠ 65535 ∧ rtd.opsOutstanding (rtd.krun 0 ke) = none ∧ rtd.opAt (rtd.krun 0 ke) ke.op0 (opSize ke.op0) 0 = some (true, 0) ∧ rtd.refusedBank 0 false 0 4 = none ∧ tok5.adp = false) ∧
    (let x : Dev := { rtd with frm := { rtd.frm with lanes := [(5, { tok5 with adp := true, adapter := 2 })] } }; x.cues = true ∧ x.lane ke.lane.toNat = some { tok5 with adp := true, adapter := 2 } ∧ sget x.call.adpSlots 2 = none) ∧
    ((∃ m, m ∈ (add1.adpMat adt.adapter (add1.krun 0 ke).kc.point).toList ∧ m.r = 1 ∧ add1.adpOk adt (some m) 2 2 = true) ∧ add1.lane 5 = some adt ∧ adt.adp = true ∧ add1.opAt (add1.krun 0 ke) ke.op1 (opSize ke.op1) 0 = some (true, 512) ∧ add1.refusedBank 0 false 512 4 = none ∧ add1.opAt (add1.krun 0 ke) ke.op3 (opSize ke.op3) 0 = some (true, 1024)) :=
  ⟨by decide +kernel, by decide +kernel, by decide +kernel, by decide +kernel, by decide +kernel, by decide +kernel, by decide +kernel, by decide +kernel, by decide +kernel⟩

/-- Devices and operands that meet the hypotheses of KvWritesExactAndStoppedKernels, clause by clause. -/
theorem wit_KvWritesExactAndStoppedKernels :
    (let x : Dev := { kvd with sec := secNil }; ke.wf true = true ∧ x.cues = true ∧ x.lane ke.lane.toNat = some tok5 ∧ x.opsOutstanding (x.krun 5 ke) = none ∧ x.ownKv = some ⟨0, 0, 64, 1, [64]⟩ ∧ (x.kvIndex ⟨BitVec.ofNat 4 tok5.ex, BitVec.ofNat 4 tok5.ey⟩).isSome = true ∧ tok5.pos / KvDev.tpg ⟨0, 0, 64, 1, [64]⟩ + 1 ≤ x.blocks tok5.session ∧ x.kstate tok5.session ≠ 0 ∧ x.kstate tok5.session ≠ 5 ∧ x.badPage ⟨0, 0, 64, 1, [64]⟩ tok5.session 1 tok5.pos true = none ∧ (x.kvBytes (x.krun 5 ke) 0 tok5).1 = x ∧ x.mirrorOf ⟨0, 0⟩ tok5.session = false ∧ (∃ e ∈ (x.kvEntry ⟨0, 0, 64, 1, [64]⟩ 3 1 7).toList, leNat (x.hbmRd (kvPage e.2.1 + 0x10) 2) = x.stepEpoch tok5 % 65536)) ∧
    (ke.wf false = true ∧ knd.cues = true ∧ knd.opsOutstanding (knd.krun 11 ke) = none ∧ ke.clear = false) ∧
    (let x : Dev := { knd with mem := { knd.mem with localBuf := [(5, 1), (4100, 7), (12287, 3), (12288, 4)] } }; ({ ke with clear := true, engine := 0, thread := 0 } : KernelCue).wf false = true ∧ x.cues = true ∧ x.hazActive = false ∧ x.scr.script = some scr1 ∧ x.opsOutstanding (x.krun 11 { ke with clear := true, engine := 0, thread := 0 }) = none ∧ (((scr1.pools[x.template]?).getD default).priv.find? fun e => e.1 == 0) = some (0, 1, 2)) ∧
    (ke.wf true = true ∧ rdy.cues = false) ∧
    (let x : Dev := { knd with frm := { knd.frm with lanes := [] } }; ke.wf true = true ∧ (∀ t ∈ x.packed ke, t = none)) :=
  ⟨by decide +kernel, by decide +kernel, by decide +kernel, by decide +kernel, by decide +kernel⟩

/-- Devices and operands that meet the hypotheses of MemoryCuesMoveTheirBytes, clause by clause. -/
theorem wit_MemoryCuesMoveTheirBytes :
    (({ hc with target := 512, addr := 64 } : HbmCue).wf = true ∧ hbmInside { hc with target := 512, addr := 64 } = true ∧ lan.hbmTok { hc with target := 512, addr := 64 } = some tok5 ∧ lan.linkCues = true ∧ lan.hazActive = false ∧ lan.outstanding true 512 64 = none ∧ lan.refusedBank 0 false 512 64 = none ∧ (∀ x ∈ lan.frm.outst, x.num ≠ 33)) ∧
    (let x : Dev := { lan with frm := { lan.frm with outst := [(⟨true, 512, 576, 0, hbmChannel 64, 33⟩ : Outst)] }, mem := { lan.mem with hbm := [(64, 9), (127, 8), (128, 7)] } }; x.coreRuns = true ∧ x.hazActive = false ∧ (⟨true, 512, 576, 0, hbmChannel 64, 33⟩ : Outst) ∈ x.frm.outst ∧ (∀ cw ∈ cwRange 64 64, cw ∉ x.mem.bad) ∧ x.refusedBank 0 true 512 64 = none) ∧
    (let x : Dev := { lan with frm := { lan.frm with outst := [(⟨true, 512, 576, 0, hbmChannel 64, 33⟩ : Outst)] }, mem := { lan.mem with hbm := [(64, 9), (127, 8), (128, 7)] } }; x.linkCues = true ∧ x.outstanding true 512 64 = some (⟨true, 512, 576, 0, hbmChannel 64, 33⟩ : Outst)) ∧
    (Mem.wf lan.mem = true ∧ (∀ c ∈ cwRange 60 8, c ∉ lan.mem.bad)) :=
  ⟨by decide +kernel, by decide +kernel, by decide +kernel, by decide +kernel⟩

/-- Devices and operands that meet the hypotheses of ExactModeJobsRunAndEnd, clause by clause. -/
theorem wit_ExactModeJobsRunAndEnd :
    (let x : Dev := { rdy with tile := { exact := { job := some (false, 5, 0) } } }; x.up = true ∧ x.tile.exact.job.isSome = true) ∧
    (rdy.up = true ∧ rdy.tile.exact.job = none ∧ rdy.exactPool = false) ∧
    (let x : Dev := { scd with sys := rdy.sys, scr := { script := some { scr1 with templates := [⟨[0x7], [], []⟩], pools := [⟨[(5, 6)], [], [], []⟩] } }, tile := { exact := { tile := 2, slot := 1, layer := 9, session := 4 } } }; x.up = true ∧ x.tile.exact.job = none ∧ x.exactPool = true) ∧
    (let x : Dev := { rdy with frm := { frame := 1048576 }, tile := { exact := { job := some (false, 5, 0) } } }; x.up = true ∧ x.tile.exact.job.isSome = true ∧ x.tile.exact.startFrame + 1048576 ≤ x.frm.frame ∧ x.tile.exact.phases = [] ∧ x.tile.exact.step = false) ∧
    (let x : Dev := { rdy with tile := { exact := { job := some (false, 5, 0), phases := List.replicate 4096 default } } }; x.tile.exact.job = some (false, 5, 0) ∧ 4096 ≤ x.tile.exact.phases.length) ∧
    (let x : Dev := { rdy with tile := { exact := { job := some (true, 9, 4), step := true, chains := [⟨3, 0, [], [7], .e4m3, false, tok5⟩] } } }; x.up = true ∧ x.tile.exact.job = some (true, 9, 4) ∧ x.tile.exact.step = true ∧ (∀ c ∈ x.tile.exact.chains, c.out ≠ [])) :=
  ⟨by decide +kernel, by decide +kernel, by decide +kernel, by decide +kernel, by decide +kernel, by decide +kernel⟩

/-- Devices and operands that meet the hypotheses of TicksOpenTheNextFrame, clause by clause. -/
theorem wit_TicksOpenTheNextFrame :
    (bel.mayLaunch = true ∧ (∀ b ∈ [Dir.west, .east, .north, .south], bel.working b ≠ [] → (bel.switchMasks bel.frm.next).working b ≠ []) ∧ bel.frm.isOpen = true ∧ bel.frm.ownDone = true ∧ bel.childrenDone = true ∧ bel.frm.start + bel.frm.planned ≤ 1900 + bel.frm.lat ∧ bel.atStop = false ∧ bel.tickInPaces = false) ∧
    (let x : Dev := { bel with frm := { bel.frm with tickInEn := true, tickInUse := true } }; x.mayLaunch = true ∧ x.tickInPaces = true ∧ x.atStop = false) ∧
    (let x : Dev := { bel with frm := { bel.frm with stopAt := some 7, draining := some .park } }; x.mayLaunch = true ∧ x.frm.isOpen = true ∧ x.frm.ownDone = true ∧ x.childrenDone = true ∧ x.frm.start + x.frm.planned ≤ 1900 + x.frm.lat ∧ x.atStop = true) ∧
    (let x : Dev := { bel with sys := rdy.sys, frm := { bel.frm with isOpen := false, played := 0 } }; x.mayLaunch = true ∧ (∀ b ∈ [Dir.west, .east, .north, .south], x.working b ≠ [] → (x.switchMasks x.frm.next).working b ≠ []) ∧ x.tickInPaces = false ∧ x.frm.isOpen = false) ∧
    (let x : Dev := { bel with frm := { bel.frm with ownDone := false } }; x.mayLaunch = true ∧ (∀ b ∈ [Dir.west, .east, .north, .south], x.working b ≠ [] → (x.switchMasks x.frm.next).working b ≠ []) ∧ x.frm.isOpen = true ∧ x.frm.ownDone = false ∧ x.frm.start + 2 * x.frm.planned ≤ 2900 + x.frm.lat) ∧
    (sub.coreRuns = true ∧ sub.bellwether = false ∧ sub.fromParent 0 = true ∧ sub.frm.running = true ∧ sub.dbg.frozen = false ∧ (∀ b ∈ [Dir.west, .east, .north, .south], sub.working b ≠ [] → (sub.switchMasks 7).working b ≠ []) ∧ sub.frm.played ≠ 0 ∧ (7 : Nat) = sub.frm.next % 65536) ∧
    (let x : Dev := { sub with frm := { sub.frm with played := 0, isOpen := false, frame := 70 } }; x.coreRuns = true ∧ x.bellwether = false ∧ x.fromParent 0 = true ∧ x.frm.running = true ∧ x.dbg.frozen = false ∧ (∀ b ∈ [Dir.west, .east, .north, .south], x.working b ≠ [] → (x.switchMasks x.frm.next).working b ≠ []) ∧ x.frm.played = 0) ∧
    (sub.fromParent 13 = false) :=
  ⟨by decide +kernel, by decide +kernel, by decide +kernel, by decide +kernel, by decide +kernel, by decide +kernel, by decide +kernel, by decide +kernel⟩

/-- Devices and operands that meet the hypotheses of DoneFollowsTheWorkOfTheFrame, clause by clause. -/
theorem wit_DoneFollowsTheWorkOfTheFrame :
    (let x : Dev := { sub with mem := { apron := [(3, 1)], tags := [(0, 64)] }, frm := { sub.frm with children := [] } }; x.coreRuns = true ∧ x.frm.isOpen = true ∧ x.atStop = false ∧ x.frm.stall = none ∧ x.frm.outst = [] ∧ x.dbg.frozen = false ∧ x.frm.ownDone = false ∧ x.frm.doneSent = false ∧ x.fromChild 13 = true ∧ (6 : BitVec 16).toNat = x.frm.frame % 65536) ∧
    (let x : Dev := { sub with frm := { sub.frm with stall := some ⟨⟨true, 0, 64, 0, 0, 1⟩, 4⟩ } }; x.coreRuns = true ∧ x.frm.isOpen = true ∧ x.atStop = false ∧ x.frm.stall.isSome = true) ∧
    (let x : Dev := { sub with frm := { sub.frm with outst := [⟨true, 0, 64, 0, 0, 1⟩] } }; x.coreRuns = true ∧ x.frm.isOpen = true ∧ x.frm.outst ≠ []) ∧
    (let x : Dev := { sub with mesh := { sub.mesh with links := [(0, upL)] }, frm := { sub.frm with stopAt := some 7, draining := some .park } }; x.coreRuns = true ∧ x.frm.isOpen = true ∧ x.frm.stall = none ∧ x.frm.outst = [] ∧ x.dbg.frozen = false ∧ x.frm.ownDone = false ∧ x.frm.doneSent = false ∧ x.atStop = true ∧ x.bellwether = false ∧ x.childrenDone = true) :=
  ⟨by decide +kernel, by decide +kernel, by decide +kernel, by decide +kernel⟩

/-- Devices and operands that meet the hypotheses of FramePacingAndStallCommands, clause by clause. -/
theorem wit_FramePacingAndStallCommands :
    (let x : Dev := { bel with frm := { bel.frm with tickInEn := true, tickInUse := true, tickInLast := some 500, ownDone := false } }; x.coreRuns = true ∧ x.bellwether = true ∧ x.frm.tickInEn = true ∧ x.frm.tickInLast = some 500 ∧ x.period = 1000 ∧ x.tickInPaces = true ∧ x.frm.running = true ∧ x.up = true) ∧
    (let x : Dev := { bel with frm := { bel.frm with tickInEn := true, tickInUse := true, tickInLast := some 500 } }; x.coreRuns = true ∧ x.bellwether = true ∧ x.frm.tickInEn = true ∧ x.frm.tickInLast = some 500 ∧ 9 * x.period ≤ 10 * (1900 - 500) ∧ x.frm.tickInLost = false ∧ x.mayLaunch = true ∧ (∀ b ∈ [Dir.west, .east, .north, .south], x.working b ≠ [] → (x.switchMasks x.frm.next).working b ≠ []) ∧ x.frm.lat ≤ 1900 ∧ x.frm.ownDone = true ∧ x.childrenDone = true ∧ x.frm.start + x.frm.planned ≤ 1900 + x.frm.lat ∧ x.atStop = false) ∧
    (sub.coreRuns = true ∧ sub.frm.running = true ∧ sub.frm.isOpen = true ∧ sub.dbg.frozen = false ∧ sub.bellwether = false ∧ sub.sys.st = .playing ∧ sub.frm.start + 2 * sub.frm.planned + 1000 ≤ 4000 ∧ sub.parent = some 0) ∧
    (let x : Dev := { sub with frm := { sub.frm with stall := some ⟨⟨true, 0, 64, 2, 7, 1⟩, 4⟩ } }; x.coreRuns = true ∧ x.dbg.frozen = false ∧ x.frm.stall = some ⟨⟨true, 0, 64, 2, 7, 1⟩, 4⟩ ∧ (⟨true, 0, 64, 2, 7, 1⟩ : Outst) ∉ x.frm.outst) ∧
    (let x : Dev := { sub with frm := { sub.frm with stall := some ⟨⟨true, 0, 64, 2, 7, 1⟩, 4⟩, outst := [⟨true, 0, 64, 2, 7, 1⟩] } }; x.frm.stall = some ⟨⟨true, 0, 64, 2, 7, 1⟩, 4⟩ ∧ (⟨true, 0, 64, 2, 7, 1⟩ : Outst) ∈ x.frm.outst) :=
  ⟨by decide +kernel, by decide +kernel, by decide +kernel, by decide +kernel, by decide +kernel⟩

/-- Devices and operands that meet the hypotheses of LanesDropSwitchAndRejoin, clause by clause. -/
theorem wit_LanesDropSwitchAndRejoin :
    (sub.coreRuns = true ∧ (sub.link 0).working = true ∧ hasLane (sub.link 0).lanes 1 = true ∧ (sub.link 0).lanes &&& ~~~ laneBit 1 ≠ 0 ∧ (sub.link 0).lanes &&& (sub.link 0).disabled = 0) ∧
    (let x : Dev := { sub with mesh := { sub.mesh with links := [(0, { upL with lanes := 2, st := 3 })] } }; x.coreRuns = true ∧ (x.link 0).working = true ∧ hasLane (x.link 0).lanes 1 = true ∧ (x.link 0).lanes &&& ~~~ laneBit 1 = 0 ∧ x.working (linkDir 0) = [0] ∧ x.sys.bypassN = false) ∧
    (let x : Dev := { sub with sys := { sub.sys with bypassN := true, switches := true }, mesh := { sub.mesh with links := [(0, { upL with lanes := 2, st := 3 })] } }; x.coreRuns = true ∧ (x.link 0).working = true ∧ hasLane (x.link 0).lanes 1 = true ∧ (x.link 0).lanes &&& ~~~ laneBit 1 = 0 ∧ x.working (linkDir 0) = [0] ∧ x.sys.bypassN = true) ∧
    (let x : Dev := { sub with mesh := { sub.mesh with disc := 4, links := [(0, { upL with lanes := 2, st := 3 }), (3, upL), (5, upL)] } }; x.coreRuns = true ∧ (x.link 0).working = true ∧ hasLane (x.link 0).lanes 1 = true ∧ (x.link 0).lanes &&& ~~~ laneBit 1 = 0 ∧ x.working (linkDir 0) = [0, 3, 5] ∧ x.parent = some 0 ∧ x.mesh.disc = 4) ∧
    (let x : Dev := { sub with mesh := { sub.mesh with disc := 4, links := [(0, { upL with lanes := 0, st := 4 }), (3, upL)] } }; x.coreRuns = true ∧ (x.link 0).st = 4 ∧ x.mesh.disc = 4 ∧ x.parent = some 3) ∧
    (let x : Dev := { sub with mesh := { sub.mesh with links := [(0, { upL with drops := [(1, 0), (1, 1), (1, 2)] })] } }; x.coreRuns = true ∧ (x.link 0).working = true ∧ hasLane (x.link 0).lanes 1 = true ∧ (((x.link 0).drops.filter fun x => decide (9 < x.2 + dayNs) && x.1 == 1).length + 1) = 4) ∧
    (let x : Dev := { sub with mesh := { sub.mesh with links := [(0, { st := 4, retry := 0xF, disabled := 4, txCount := 5, rx := [[1]] })] } }; x.coreRuns = true ∧ (x.link 0).st = 4 ∧ hasLane (x.link 0).lanes 1 = false ∧ hasLane (x.link 0).disabled 1 = false ∧ (0x6 : BitVec 4) &&& ~~~ (x.link 0).disabled ≠ 0) :=
  ⟨by decide +kernel, by decide +kernel, by decide +kernel, by decide +kernel, by decide +kernel, by decide +kernel, by decide +kernel⟩

/-- Devices and operands that meet the hypotheses of ControlUnitsKeepEveryField, clause by clause. -/
theorem wit_ControlUnitsKeepEveryField :
    ((0xFE : Byte).toNat ∉ [1, 2, 3, 4, 5, 6, 7, 8, 9, 10, 11, 16, 17, 18, 19, 20, 21, 22, 23, 24, 25, 32, 33, 34, 35, 36]) := by decide +kernel

/-- Devices and operands that meet the hypotheses of LinkUnitsActOnTheirLink, clause by clause. -/
theorem wit_LinkUnitsActOnTheirLink :
    (let x : Dev := onL { upL with replayBuf := [(4, fl 1), (5, fl 2), (6, fl 3)] }; x.coreRuns = true ∧ (x.link 0).replayBuf.findIdx? (fun f => f.1 == 5) = some 1 ∧ (x.link 0).txWait = [] ∧ (∀ f ∈ (x.link 0).replayBuf, f.1 ≠ 9) ∧ (x.link 0).replayBuf.find? (fun f => f.1 == 4) = some (4, fl 1)) ∧
    (let x : Dev := onL { upL with echoN := 3, echoSum := 10 }; x.coreRuns = true ∧ (x.link 0).working = true ∧ (x.link 0).echoN < 15) ∧
    (let x : Dev := onL { upL with echoN := 15, echoSum := 64000 }; x.coreRuns = true ∧ (x.link 0).working = true ∧ (x.link 0).echoN = 15) ∧
    (let x : Dev := onL { upL with echoN := 16 }; x.coreRuns = true ∧ (x.link 0).working = true ∧ 16 ≤ (x.link 0).echoN ∧ x.fromParent 0 = true) ∧
    (let x : Dev := onL {}; x.coreRuns = true ∧ (x.link 0).working = false) ∧
    (let x : Dev := onL upL; x.coreRuns = true ∧ (x.link 0).working = true ∧ (false, (⟨2, 0⟩ : Coord), (1 : Byte)) ∉ x.dbg.seen ∧ x.dbg.frozen = false ∧ x.sys.st = .playing) ∧
    (let x : Dev := { onL upL with sys := { sub.sys with st := .frozen, frozenFrom := .playing }, dbg := { frozen := true, remote := [(⟨2, 0⟩, 1)], seen := [(false, ⟨2, 0⟩, 1)] } }; x.coreRuns = true ∧ (x.link 0).working = true ∧ (true, (⟨2, 0⟩ : Coord), (1 : Byte)) ∉ x.dbg.seen ∧ x.dbg.ownHeld = false ∧ (x.dbg.remote.filter fun r => r != ((⟨2, 0⟩ : Coord), (1 : Byte))) = [] ∧ x.dbg.frozen = true ∧ (false, (⟨2, 0⟩ : Coord), (1 : Byte)) ∈ x.dbg.seen) :=
  ⟨by decide +kernel, by decide +kernel, by decide +kernel, by decide +kernel, by decide +kernel, by decide +kernel, by decide +kernel⟩

/-- Devices and operands that meet the hypotheses of FlitsArriveInOrderOrAreHeld, clause by clause. -/
theorem wit_FlitsArriveInOrderOrAreHeld :
    ((List.replicate 511 (0 : Byte)).length ≠ 512 ∧ (List.replicate 512 (1 : Byte)).length = 512) ∧
    (let x : Dev := onL { upL with rxCount := 5, sinceAck := 14 }; x.coreRuns = true ∧ (x.link 0).working = true ∧ (x.link 0).replayNext = none ∧ (x.link 0).held = [] ∧ (x.link 0).runs = []) ∧
    (let x : Dev := onL { upL with rxCount := 6, held := [(5, none, 1)] }; x.coreRuns = true ∧ (x.link 0).working = true ∧ (x.link 0).replayNext = none ∧ (x.link 0).held ≠ []) :=
  ⟨by decide +kernel, by decide +kernel, by decide +kernel⟩

/-- Devices and operands that meet the hypotheses of TransfersCrossTheirLinks, clause by clause. -/
theorem wit_TransfersCrossTheirLinks :
    (lk.wf false = true ∧ trf.linkCues = true ∧ trf.hazActive = false ∧ trf.sys.st ≠ .struck ∧ ((trf.recLanes lk false).getD ⟨0, 0, 0, 0, 0⟩).count = 2 ∧ trf.lane 4 = none ∧ trf.lane 5 = some tok5 ∧ payloadUnits 80 2 = 0) ∧
    (lk.wf false = true ∧ trf.linkCues = true ∧ trf.hazActive = false ∧ trf.sys.st ≠ .struck ∧ trf.lane 5 = some tok5 ∧ trf.outstanding true (trf.laneBuf 5 0) (16 * 1) = none ∧ trf.refusedBank 0 false (trf.laneBuf 5 0) (16 * 1) = none ∧ (trf.link 13).working = true ∧ (trf.link 13).txWait = [] ∧ (trf.link 13).replayBuf.length < 64 ∧ trf.spillRuns (linkDir 13) 7 = []) ∧
    (let x : Dev := { trf with frm := { trf.frm with lanes := [] } }; x.linkCues = true ∧ x.hazActive = false ∧ (∀ n ∈ [4, 5], x.lane n = none ∧ n ∉ x.frm.skipped)) ∧
    (let x : Dev := { trf with sys := { trf.sys with st := .struck } }; x.linkCues = true ∧ x.sys.st = .struck) ∧
    (let x : Dev := { trf with frm := { trf.frm with outst := [⟨true, 128, 256, 2, 3, 4⟩] } }; x.linkCues = true ∧ x.hazActive = false ∧ x.sys.st ≠ .struck ∧ x.outstanding true (x.laneBuf 5 0) (16 * 1) = some ⟨true, 128, 256, 2, 3, 4⟩) ∧
    (trf.linkCues = true ∧ (match trf.collect lk with | .incomplete => true | _ => false) = true) ∧
    (let x : Dev := { trf with mesh := { trf.mesh with links := [(0, upL), (13, { upL with rx := strm ++ [[5]] })] }, frm := { trf.frm with outst := [⟨true, 0, 80, 0, 13, 21⟩] } }; (match x.collect lk with | .whole us rest => us == strm && rest == [[5]] | _ => false) = true ∧ sparseWf x.frm.lanes = true ∧ x.sys.st ≠ .struck ∧ bit (leAt (strm.getD 0 []) 5 1) 0 = false ∧ (∀ t ∈ x.streamToks strm, x.discarding t.2.2.step = false)) ∧
    (let x : Dev := { trf with mesh := { trf.mesh with links := [(13, { upL with rx := [headerUnit 7 2 true 1] })] } }; (match x.collect lk with | .whole us rest => bit (leAt (us.getD 0 []) 5 1) 0 && rest == [] | _ => false) = true ∧ sparseWf x.frm.lanes = true) ∧
    (let x : Dev := { trf with err := { fatal := some (3, 0) } }; lk.wf false = true ∧ x.hazActive = false ∧ x.err.fatal.isSome = true ∧ lk.wf true = true) :=
  ⟨by decide +kernel, by decide +kernel, by decide +kernel, by decide +kernel, by decide +kernel, by decide +kernel, by decide +kernel, by decide +kernel, by decide +kernel⟩

/-- Devices and operands that meet the hypotheses of DiscoveryFormsTheHerd, clause by clause. -/
theorem wit_DiscoveryFormsTheHerd :
    (let x : Dev := { dsc 4 with sys := { ply.sys with switches := false }, frm := ply.frm }; x.up = true ∧ (x.link 0).working = true ∧ ((⟨2, 0⟩ : Coord), (1 : Byte)) ∉ x.mesh.seenRedisc ∧ x.sys.st = .playing) ∧
    (let x : Dev := { dsc 4 with mesh := { (dsc 4).mesh with seenRedisc := [(⟨2, 0⟩, 1)] } }; x.up = true ∧ (x.link 13).working = true ∧ ((⟨2, 0⟩ : Coord), (1 : Byte)) ∈ x.mesh.seenRedisc) ∧
    (let x : Dev := dsc 1; x.up = true ∧ x.sys.switches = false ∧ x.mesh.disc = 1) ∧
    (let x : Dev := dsc 5; x.up = true ∧ x.sys.switches = false ∧ x.mesh.disc = 5) ∧
    (let x : Dev := dsc 2; x.up = true ∧ x.sys.switches = false ∧ (x.link 1).st ≠ 7 ∧ (x.link 1).disabled ≠ 0xF ∧ hi.herd = x.mesh.herdAt ∧ (1 : BitVec 4).toNat = 1 % 12 ∧ helloDist (linkDir 1) x.coord hi.at_ = some 1 ∧ x.mesh.disc ≠ 4) ∧
    (let x : Dev := { dsc 4 with mesh := { (dsc 4).mesh with links := [(0, { upL with bypassed := true })] } }; x.up = true ∧ x.sys.switches = false ∧ (x.link 0).st ≠ 7 ∧ x.mesh.disc = 4 ∧ (x.link 0).bypassed = true ∧ hi.herd = x.mesh.herdAt ∧ helloDist (linkDir 0) x.coord hi.at_ = some 1 ∧ hi.index.toNat = 0 % 12) ∧
    (let x : Dev := { dsc 2 with sys := rdy.sys }; x.up = true ∧ x.sys.switches = true) ∧
    (let x : Dev := bw 2; x.up = true ∧ x.bellwether = true ∧ x.mesh.disc = 2) ∧
    (let x : Dev := { dsc 2 with mesh := { (dsc 2).mesh with links := [(0, { upL with delay := 1250 }), (13, upL)] } }; x.up = true ∧ x.mesh.at_.isSome = true ∧ (x.link 0).working = true ∧ x.mesh.disc = 2 ∧ x.parent = some 0 ∧ x.fromParent 13 = false ∧ linkDir 0 = linkDir 0) ∧
    (let x : Dev := dsc 3; x.up = true ∧ x.mesh.disc = 3 ∧ x.fromChild 13 = true ∧ x.bellwether = false ∧ x.parent = some 0 ∧ x.fromParent 0 = true) ∧
    (let x : Dev := { dsc 3 with scr := { script := some scrP }, wts := { cur := some ⟨1, [], []⟩ } }; x.up = true ∧ x.mesh.disc = 3 ∧ x.fromParent 0 = true ∧ x.scr.script.isSome = true ∧ x.curOk = true ∧ x.sys.st = .ready) ∧
    (let x : Dev := bw 3; x.up = true ∧ x.bellwether = true ∧ x.mesh.disc = 3 ∧ x.fromChild 13 = true) ∧
    (rdy.up = true ∧ rdy.sys.st = .ready ∧ rdy.scr.script = none ∧ rdy.mesh.lock = false) ∧
    (let x : Dev := { rdy with mesh := { lock := true } }; x.up = true ∧ x.mesh.lock = true) :=
  ⟨by decide +kernel, by decide +kernel, by decide +kernel, by decide +kernel, by decide +kernel, by decide +kernel, by decide +kernel, by decide +kernel, by decide +kernel, by decide +kernel, by decide +kernel, by decide +kernel, by decide +kernel, by decide +kernel⟩

/-- Devices and operands that meet the hypotheses of HerdSequencesFollowTheTree, clause by clause. -/
theorem wit_HerdSequencesFollowTheTree :
    (top.up = true ∧ top.sys.st = .playing ∧ top.bellwether = true ∧ top.frm.want = none ∧ top.frm.drain = none ∧ top.frm.draining = none ∧ top.scr.script.isSome = true) ∧
    (sub.up = true ∧ sub.sys.st = .playing ∧ sub.bellwether = false ∧ sub.frm.running = true ∧ sub.fromParent 0 = true ∧ sub.fromParent 13 = false ∧ sub.fromChild 13 = true) ∧
    (let x : Dev := { sub with frm := { sub.frm with draining := some .curtain, drainedHeld := [13] }, wts := { next := some ⟨1, [], []⟩ } }; x.up = true ∧ x.frm.draining = some .curtain ∧ x.drainedHere .curtain = true ∧ x.frm.drainedSent = false ∧ x.dbg.frozen = false ∧ x.bellwether = false ∧ x.fromParent 0 = true ∧ x.frm.running = true ∧ x.parent = some 0 ∧ x.wts.next.isSome = true) ∧
    (let x : Dev := { top with frm := { top.frm with draining := some .park, drainedHeld := [13] } }; x.up = true ∧ x.frm.draining = some .park ∧ x.drainedHere .park = true ∧ x.bellwether = true) ∧
    (let x : Dev := { top with frm := { top.frm with draining := some .curtain, drainedHeld := [13] } }; x.up = true ∧ x.frm.draining = some .curtain ∧ x.drainedHere .curtain = true ∧ x.bellwether = true ∧ x.wts.raiseAt = none ∧ x.wts.rewriteSent = false ∧ x.frm.want = none) ∧
    (let x : Dev := { top with frm := { top.frm with draining := some .park } }; x.up = true ∧ x.frm.draining = some .park ∧ x.drainedHere .park = false) ∧
    (let x : Dev := { top with frm := { top.frm with want := some .curtain } }; x.up = true ∧ x.bellwether = true ∧ x.frm.want = some .curtain) ∧
    (let x : Dev := { sub with wts := { rewriteSent := true, failed := true } }; x.up = true ∧ x.wts.readySent = false ∧ x.wts.rewriteSent = true ∧ x.dbg.frozen = false ∧ x.wts.failed = true) ∧
    (let x : Dev := { sub with wts := { rewriteSent := true, phase := 3, ready := [(13, false, 0, 0)] } }; x.up = true ∧ x.wts.rewriteSent = true ∧ x.wts.failed = false ∧ x.sys.st ≠ .struck ∧ x.wts.phase = 3 ∧ x.wts.own = [] ∧ x.wts.job = none ∧ x.wts.toRewrite false = [] ∧ x.allChildren (x.wts.ready.map Prod.fst) = true ∧ (∀ r ∈ x.wts.ready, r.2.1 = false) ∧ x.curtainDue = [] ∧ x.tile.loads = false ∧ x.wts.toCount = [] ∧ x.wts.readySent = false ∧ x.dbg.frozen = false) ∧
    (let x : Dev := { sub with wts := { rewriteSent := true, phase := 3, ready := [(13, true, 2, 0)] } }; x.up = true ∧ x.wts.readySent = false ∧ x.dbg.frozen = false ∧ x.wts.rewriteSent = true ∧ x.wts.failed = false ∧ x.sys.st ≠ .struck ∧ x.wts.phase = 3 ∧ x.wts.own = [] ∧ x.wts.job = none ∧ x.wts.toRewrite false = [] ∧ x.allChildren (x.wts.ready.map Prod.fst) = true ∧ x.curtainDue = [] ∧ x.tile.loads = false ∧ x.wts.toCount = [] ∧ x.wts.ready.find? (fun r => r.2.1) = some (13, true, 2, 0)) ∧
    (let x : Dev := { top with sys := { top.sys with st := .struck }, wts := { rewriteSent := true } }; x.up = true ∧ x.wts.readySent = false ∧ x.wts.rewriteSent = true ∧ x.sys.st = .struck ∧ x.dbg.frozen = false ∧ x.bellwether = true) ∧
    (let x : Dev := { sub with wts := { rewriteSent := true, phase := 2 } }; x.up = true ∧ x.wts.readySent = false ∧ x.dbg.frozen = false ∧ x.wts.rewriteSent = true ∧ x.wts.failed = false ∧ x.sys.st ≠ .struck ∧ x.wts.phase ≠ 3) :=
  ⟨by decide +kernel, by decide +kernel, by decide +kernel, by decide +kernel, by decide +kernel, by decide +kernel, by decide +kernel, by decide +kernel, by decide +kernel, by decide +kernel, by decide +kernel, by decide +kernel⟩

/-- Devices and operands that meet the hypotheses of ParkAndWakeMoveTheHerd, clause by clause. -/
theorem wit_ParkAndWakeMoveTheHerd :
    (rdy.up = true ∧ rdy.sys.st = .ready) ∧
    (let x : Dev := { top with sys := { rdy.sys with st := .struck } }; x.up = true ∧ x.sys.st = .struck ∧ x.scr.script.isSome = true) ∧
    (let x : Dev := { rdy with sys := { rdy.sys with st := .parked, parkScope := false, parkPhase := .parked, selfRefresh := 0xF }, frm := { frame := 6, lat := 100 } }; x.up = true ∧ x.sys.st = .parked ∧ x.sys.parkScope = false) ∧
    (let x : Dev := { top with sys := { rdy.sys with st := .parked, parkScope := true, parkPhase := .parked, selfRefresh := 0xF }, frm := { frame := 6, lat := 100 } }; x.up = true ∧ x.sys.st = .parked ∧ x.sys.parkScope = true ∧ x.sys.parkPhase = .parked ∧ x.bellwether = true ∧ x.fromChild 13 = true ∧ x.fromParent 13 = false) ∧
    (let x : Dev := { sub with sys := { rdy.sys with st := .parked, parkScope := true, parkPhase := .parked, selfRefresh := 0xF }, frm := { frame := 6, lat := 100 } }; x.up = true ∧ x.sys.st = .parked ∧ x.sys.parkScope = true ∧ x.sys.parkPhase = .parked ∧ x.bellwether = false ∧ x.parent = some 0 ∧ x.fromParent 0 = true ∧ x.fromChild 13 = true ∧ x.fromParent 30 = false ∧ x.fromChild 30 = false) ∧
    (let x : Dev := { top with frm := { top.frm with draining := some .park } }; x.up = true ∧ x.sys.st = .playing ∧ x.frm.draining = some .park) ∧
    (let x : Dev := { top with frm := { top.frm with draining := some .park } }; x.up = true ∧ x.sys.st = .playing ∧ x.frm.draining = some .park ∧ x.fromChild 13 = true) ∧
    (let x : Dev := { sub with sys := { rdy.sys with st := .parked, parkScope := true, parkPhase := .waking, awakeHeld := [13] } }; x.up = true ∧ x.sys.st = .parked ∧ x.sys.parkPhase = .waking ∧ x.sys.awakeSent = false ∧ x.allChildren x.sys.awakeHeld = true) ∧
    (let x : Dev := { top with sys := rdy.sys, frm := { frame := 9 }, mem := { wings := [(5, 1)], apron := [(1, 1)], hbm := [(5, 2)] }, call := { adpDir := [(3, (1, true))] } }; x.up = true ∧ x.scr.script.isSome = true ∧ x.sys.st = .ready) :=
  ⟨by decide +kernel, by decide +kernel, by decide +kernel, by decide +kernel, by decide +kernel, by decide +kernel, by decide +kernel, by decide +kernel, by decide +kernel⟩

/-- Devices and operands that meet the hypotheses of WeightCommandsCheckAndLoad, clause by clause. -/
theorem wit_WeightCommandsCheckAndLoad :
    (rdy.up = true ∧ rdy.scr.script = none ∧ rdy.wts.job = none) ∧
    (let x : Dev := { rdy with wts := { job := some ⟨false, 0, 0, false, false⟩ } }; x.up = true ∧ x.wts.job.isSome = true) ∧
    (wtd.up = true ∧ wtd.wts.job = none ∧ wtd.scr.script = some scrP ∧ wtd.sys.st = .ready ∧ (wtd.wts.ctrl true true).next = none ∧ (match wtd.checkManifest scrP 0 with | .inl c => c == 2 | _ => false) = true ∧ wtd.loadAllowed true true none = true) ∧
    (let x : Dev := { wtd with wts := { next := some man0, epoch := 4 } }; x.up = true ∧ x.wts.job = none ∧ x.scr.script = some scrP ∧ x.sys.st = .ready ∧ x.wts.next = some man0) ∧
    (let x : Dev := { wtd with wts := { cur := some man0, secOff := 2 } }; x.up = true ∧ x.wts.job = none ∧ x.scr.script.isSome = true ∧ ((some man0).bind fun m => m.secs[x.wts.index.toNat]?) = some ent0 ∧ x.loadAllowed false true (some ent0) = true) ∧
    (top.up = true ∧ top.sys.st = .playing ∧ top.wts.job = none) ∧
    (let x : Dev := { wtd with sys := { rdy.sys with st := .ready }, wts := { next := some man0, job := some ⟨true, 0, 0, true, false⟩ } }; x.up = true ∧ x.scr.script = some scrP ∧ x.wts.job.isSome = true ∧ x.dbg.frozen = false ∧ man0.secs[0]? = some ent0 ∧ (match x.checkSection scrP ent0 0 with | .inl c => c == 2 | _ => false) = true) ∧
    (let x : Dev := { wtd with sys := { rdy.sys with st := .ready }, wts := { next := some man0, job := some ⟨true, 0, 2, true, false⟩ } }; x.up = true ∧ x.scr.script = some scrP ∧ x.wts.job.isSome = true ∧ x.dbg.frozen = false ∧ man0.secs[0]? = some ent0 ∧ (match x.checkSection scrP ent0 2 with | .inr _ => true | _ => false) = true) ∧
    (let x : Dev := { wtd with sys := { rdy.sys with st := .ready }, wts := { cur := some man0, job := some ⟨false, 0, 2, true, true⟩ } }; x.up = true ∧ x.scr.script.isSome = true ∧ x.wts.job = some ⟨false, 0, 2, true, true⟩ ∧ x.dbg.frozen = false ∧ x.wts.cur = some man0 ∧ man0.secs[0]? = some ent0 ∧ (∀ a ∈ x.waiting, x.placeFree (a / 17 / 128) = false) ∧ x.loading ent0.layer = []) ∧
    (let x : Dev := { wtd with sys := { rdy.sys with st := .ready }, wts := { cur := some man0, job := some ⟨false, 0, 2, true, true⟩ }, scr := { script := some scrLd }, tile := { arrs := (5, { pslot := 5, pstate := 1, job := some (.load 5), record := true }) :: [], noVprog := true } }; x.up = true ∧ x.scr.script.isSome = true ∧ x.wts.job = some ⟨false, 0, 2, true, true⟩ ∧ x.dbg.frozen = false ∧ x.wts.cur = some man0 ∧ man0.secs[0]? = some ent0 ∧ (∀ a ∈ x.waiting, x.placeFree (a / 17 / 128) = false) ∧ x.loading ent0.layer ≠ [] ∧ x.loadStarved ent0.layer = false) ∧
    (let x : Dev := { wtd with sys := { rdy.sys with st := .ready }, wts := { cur := some man0, job := some ⟨false, 0, 2, true, true⟩ }, scr := { script := some scrLd }, tile := { arrs := (5, { pslot := 5, pstate := 0, job := some (.load 5), record := true }) :: full48, noVprog := true } }; x.up = true ∧ x.scr.script.isSome = true ∧ x.wts.job = some ⟨false, 0, 2, true, true⟩ ∧ x.dbg.frozen = false ∧ x.wts.cur = some man0 ∧ man0.secs[0]? = some ent0 ∧ (∀ a ∈ x.waiting, x.placeFree (a / 17 / 128) = false) ∧ x.loadStarved ent0.layer = true) ∧
    (let x : Dev := { top with wts := { hcNext := some 4 } }; x.up = true ∧ x.hcRuns = true ∧ x.wts.hcBusy = none ∧ x.scr.script.isSome = true ∧ x.frm.running = true ∧ x.hcDue = true ∧ x.hcPick = some 4) ∧
    (let x : Dev := { top with wts := { hcBusy := some 3, cur := some man0, hcNext := some 5 } }; x.up = true ∧ x.hcRuns = true ∧ x.wts.hcBusy = some 3) :=
  ⟨by decide +kernel, by decide +kernel, by decide +kernel, by decide +kernel, by decide +kernel, by decide +kernel, by decide +kernel, by decide +kernel, by decide +kernel, by decide +kernel, by decide +kernel, by decide +kernel, by decide +kernel⟩

/-- Devices and operands that meet the hypotheses of ArraysRefreshReplaceAndReset, clause by clause. -/
theorem wit_ArraysRefreshReplaceAndReset :
    (let x : Dev := { top with tile := { arrs := [(3, { pslot := 3, due := true, age := 604800000000000 })] } }; x.progRuns = true ∧ x.tile.understudy 0 = some 16 ∧ (x.tile.arr 3).role = 0 ∧ x.sys.st ≠ .curtain ∧ x.tile.hold = false ∧ (x.tile.arr 3).due = true ∧ (x.tile.arr 3).failed = false ∧ (x.tile.arr 16).role = 1 ∧ x.placeFree 0 = true ∧ x.censusUsable 0 3 = true ∧ (x.tile.arr 3).overdue = false ∧ (x.tile.arr 3).dueAge + 24 * 7 * 3600 * 1000000000 ≤ (x.tile.arr 3).age ∧ (∀ e ∈ x.tile.arrs, x.refreshable e.1 = true → x.refreshBefore e.1 3 = false) ∧ (x.tile.arr 16).writes + 1 < 50000 ∧ x.up = true) ∧
    (let x : Dev := { top with tile := { arrs := [(3, { pslot := 3 })] } }; x.progRuns = true ∧ x.tile.understudy 0 = some 16 ∧ (x.tile.arr 3).role = 0 ∧ (x.tile.arr 3).failed = false ∧ (x.tile.arr 3).due = false) ∧
    (let x : Dev := { top with tile := { arrs := [(3, { pslot := 3, failed := true }), (16, { role := 1, writes := 49999 })] } }; x.progRuns = true ∧ x.tile.understudy 0 = some 16 ∧ (x.tile.arr 3).role = 0 ∧ (x.tile.arr 3).failed = true ∧ (x.tile.arr 16).job = none ∧ x.placeFree 0 = true ∧ x.censusUsable 0 3 = true ∧ 50000 ≤ (x.tile.arr 16).writes + 1) ∧
    (let x : Dev := { top with tile := { arrs := [(3, { pslot := 3, failed := true })], censusBad := [3] } }; x.progRuns = true ∧ x.tile.understudy 0 = some 16 ∧ (x.tile.arr 3).role = 0 ∧ (x.tile.arr 3).failed = true ∧ (x.tile.arr 16).job = none ∧ x.censusUsable 0 3 = false) ∧
    (let x : Dev := { top with tile := { arrs := [(3, { pslot := 3, failed := true }), (16, { role := 2, pstate := 2, row := 7, job := some (.refresh 3) })] } }; x.progRuns = true ∧ x.tile.understudy 0 = some 16 ∧ (x.tile.arr 3).role = 0 ∧ (x.tile.arr 3).failed = true ∧ (x.tile.arr 16).job = some (.refresh 3) ∧ (x.tile.arr 16).pstate = 2 ∧ x.placeFree 0 = true) ∧
    (let x : Dev := { top with tile := { arrs := [(3, { pslot := 3, failed := true })] } }; x.progRuns = true ∧ x.tile.understudy 0 = some 16 ∧ (x.tile.arr 3).role = 0 ∧ (x.tile.arr 3).failed = true ∧ (x.tile.arr 16).job = none ∧ x.placeFree 0 = true ∧ x.censusUsable 0 3 = true) ∧
    (let x : Dev := { top with tile := { arrs := [(3, { pslot := 3, failed := true }), (16, { role := 2, pstate := 1, job := some (.refresh 3) })] } }; x.progRuns = true ∧ x.tile.understudy 0 = some 16 ∧ (x.tile.arr 3).role = 0 ∧ (x.tile.arr 3).failed = true ∧ (x.tile.arr 16).job = some (.refresh 3) ∧ (x.tile.arr 16).pstate ≠ 2) ∧
    (let x : Dev := { top with tile := { arrs := (List.range 17).map fun i => (i, { role := 3 }) } }; (List.range 17).all (fun i => (x.tile.arr i).role == 3) = true ∧ x.tile.understudy 0 = none) ∧
    (let x : Dev := { top with tile := { arrs := [(16, { role := 2, pstate := 1, job := some (.refresh 3), record := true })], census := [(3 * 2 ^ 18 + 7, 5)] } }; x.progRuns = true ∧ x.sys.st = .playing ∧ (x.tile.arr 16).pstate = 1 ∧ (x.tile.arr 16).job = some (.refresh 3) ∧ (x.tile.arr 16).rowMap = [] ∧ x.openRow 16 (.refresh 3) [] = none ∧ sparseWf x.tile.census = true) ∧
    (prog5.progRuns = true ∧ (prog5.tile.arr 16).pstate = 1 ∧ (prog5.tile.arr 16).job = some (.refresh 3) ∧ (prog5.tile.arr 16).rowMap.length < 8) ∧
    (let x : Dev := { top with tile := { arrs := [(16, { role := 2, pstate := 1, job := some .reset, refs := true })], cells := [(16 * 2 ^ 19 + 7, 5), (17 * 2 ^ 19 + 7, 6)] } }; x.progRuns = true ∧ (x.tile.arr 16).pstate = 1 ∧ (x.tile.arr 16).job = some .reset) ∧
    (let x : Dev := { top with tile := { arrs := [(3, { pslot := 3 })], frames := 1048576 } }; x.up = true ∧ 1048576 ≤ x.idle 3 ∧ (x.tile.arr 3).stale = false ∧ (x.tile.arr 3).role ≠ 3 ∧ x.exactOn (16 * 0 + 3) = false) :=
  ⟨by decide +kernel, by decide +kernel, by decide +kernel, by decide +kernel, by decide +kernel, by decide +kernel, by decide +kernel, by decide +kernel, by decide +kernel, by decide +kernel, by decide +kernel, by decide +kernel⟩

/-- Devices and operands that meet the hypotheses of KvOwnersActOnMessages, clause by clause. -/
theorem wit_KvOwnersActOnMessages :
    (kvd.up = true ∧ kvd.ownKv = some kdv ∧ kvd.kvIndex km.src = some 0 ∧ cellsWf kvd.mem.hbm = true ∧ kvd.mem.bad = [] ∧ kvd.grOn 3 = false) ∧
    (let x : Dev := { kvg with host := {} }; x.up = true ∧ x.ownKv = some kdv ∧ x.kvIndex km.src = some 0 ∧ cellsWf x.mem.hbm = true ∧ x.mem.bad = [] ∧ ¬ (x.grOn 3 = false ∨ x.grSize 3 < x.blocks 3 * kdv.lk) ∧ x.muleUp = false ∧ x.grOn 3 = true) ∧
    (kvg.up = true ∧ kvg.ownKv = some kdv ∧ kvg.kvIndex km.src = some 0 ∧ cellsWf kvg.mem.hbm = true ∧ kvg.mem.bad = [] ∧ ¬ (kvg.grOn 3 = false ∨ kvg.grSize 3 < kvg.blocks 3 * kdv.lk) ∧ kvg.muleUp = true ∧ (kvg.dataPages kdv 3).filter (fun p => !(kvg.mirrorOk 3 && decide ((p.1 / kdv.lk + 1) * kdv.tpg ≤ kvg.mirroredTo 3))) ≠ [] ∧ kvg.kv.ownOf true 3 = none ∧ 0 < ceilDiv km.pos.toNat kdv.tpg ∧ ceilDiv km.pos.toNat kdv.tpg ≤ kvg.blocks 3) ∧
    (let x : Dev := { (kvg.setSesF 3 0x510 0 24 2000).setSesF 3 0x500 3 1 1 with host := hup }; x.up = true ∧ x.ownKv = some kdv ∧ x.kvIndex km.src = some 0 ∧ cellsWf x.mem.hbm = true ∧ x.mem.bad = [] ∧ ¬ (x.grOn 3 = false ∨ x.grSize 3 < x.blocks 3 * kdv.lk) ∧ x.muleUp = true ∧ (x.dataPages kdv 3).filter (fun p => !(x.mirrorOk 3 && decide ((p.1 / kdv.lk + 1) * kdv.tpg ≤ x.mirroredTo 3))) = []) ∧
    (let x : Dev := { kvg with kv := { kvg.kv with own := [(true, km)] } }; x.up = true ∧ x.ownKv = some kdv ∧ x.kvIndex km.src = some 0 ∧ cellsWf x.mem.hbm = true ∧ x.mem.bad = [] ∧ x.kv.ownOf true 3 = some km ∧ x.dbg.frozen = false) ∧
    (let x : Dev := { kvg.setSes 3 0 2 with kv := { kvg.kv with own := [(true, km)], mirrorOff := [3, 4] } }; x.up = true ∧ x.ownKv = some kdv ∧ x.kvIndex km.src = some 0 ∧ cellsWf x.mem.hbm = true ∧ x.mem.bad = [] ∧ x.kv.ownOf true 3 = some km ∧ x.dbg.frozen = false ∧ x.mirrorOf km.src 3 = true) ∧
    (kvg.up = true ∧ kvg.ownKv = some kdv ∧ kvg.kvIndex km.src = some 0 ∧ cellsWf kvg.mem.hbm = true ∧ kvg.mem.bad = [] ∧ kvg.grOn 3 = true ∧ kvg.muleUp = true ∧ kvg.blocks 3 < ceilDiv (({ km with pos := 200000 } : KvMsg)).pos.toNat kdv.tpg ∧ kvg.freePages kdv 0 < kdv.need (kvg.blocks 3) (ceilDiv (({ km with pos := 200000 } : KvMsg)).pos.toNat kdv.tpg)) ∧
    (let x : Dev := { kvg with kv := { kvg.kv with own := [(false, km)] } }; x.up = true ∧ x.ownKv = some kdv ∧ x.kvIndex km.src = some 0 ∧ cellsWf x.mem.hbm = true ∧ x.mem.bad = [] ∧ x.kv.ownOf false 3 = some km ∧ x.dbg.frozen = false ∧ ceilDiv km.pos.toNat kdv.tpg * kdv.lk = 1 ∧ x.pageOk kdv km pgIn = true ∧ x.pageOk kdv km ⟨0, []⟩ = false) ∧
    (let x : Dev := { kvg with kv := { kvg.kv with refs := [(0, 65535), (1, 1)] } }; x.up = true ∧ x.ownKv = some kdv ∧ x.kvIndex km.src = some 0 ∧ cellsWf x.mem.hbm = true ∧ x.mem.bad = [] ∧ (∃ p, p ∈ (x.tableEntry 3 0).toList ∧ 65535 ≤ sgetD x.kv.refs p 0)) ∧
    (kvg.up = true ∧ kvg.ownKv = some kdv ∧ kvg.kvIndex km.src = some 0 ∧ cellsWf kvg.mem.hbm = true ∧ kvg.mem.bad = [] ∧ 8 / kdv.tpg * kdv.lk = 0 ∧ ceilDiv 8 kdv.tpg * kdv.lk + tablesFor (ceilDiv 8 kdv.tpg * kdv.lk) ≤ kvg.freePages kdv 0) ∧
    (let x : Dev := { kvg with kv := { kvg.kv with withdrawn := List.range 64 } }; x.up = true ∧ x.ownKv = some kdv ∧ x.kvIndex km.src = some 0 ∧ cellsWf x.mem.hbm = true ∧ x.mem.bad = [] ∧ x.freePages kdv 0 < 1008 / kdv.tpg * kdv.lk + tablesFor 1 ∨ x.freePages kdv 0 < 2) ∧
    (let x : Dev := { kvg with kv := { kvg.kv with zeroing := [5] }, mem := { kvg.mem with hbm := wr1 (wr1 kvg.mem.hbm (kvPage 5) 1) (kvPage 6) 2 } }; x.up = true ∧ x.ownKv = some kdv ∧ x.kvIndex km.src = some 0 ∧ cellsWf x.mem.hbm = true ∧ x.mem.bad = [] ∧ (5 : Nat) ∈ x.kv.zeroing) ∧
    (let x : Dev := { kvg.setSesF 3 0x500 3 1 1 with kv := { kvg.kv with mirrors := [⟨3, 1, 0, 9⟩] } }; x.up = true ∧ x.ownKv = some kdv ∧ x.kvIndex km.src = some 0 ∧ cellsWf x.mem.hbm = true ∧ x.mem.bad = [] ∧ x.kv.mirrors.find? (fun p => p.session == 3) = some ⟨3, 1, 0, 9⟩ ∧ x.dbg.frozen = false ∧ x.muleUp = true ∧ x.mirrorOk 3 = true) ∧
    (let x : Dev := { kvg.setSesF 3 0x500 3 1 1 with kv := { kvg.kv with mirrors := [⟨3, 1, 4, 9⟩] } }; x.up = true ∧ x.ownKv = some kdv ∧ x.kvIndex km.src = some 0 ∧ cellsWf x.mem.hbm = true ∧ x.mem.bad = [] ∧ x.kv.mirrors.find? (fun p => p.session == 3) = some ⟨3, 1, 4, 9⟩ ∧ x.dbg.frozen = false ∧ x.muleUp = true) :=
  ⟨by decide +kernel, by decide +kernel, by decide +kernel, by decide +kernel, by decide +kernel, by decide +kernel, by decide +kernel, by decide +kernel, by decide +kernel, by decide +kernel, by decide +kernel, by decide +kernel, by decide +kernel, by decide +kernel⟩

/-- Devices and operands that meet the hypotheses of EntryDevicesFollowTheirSessions, clause by clause. -/
theorem wit_EntryDevicesFollowTheirSessions :
    (edv.up = true ∧ edv.kv.swapping 3 = true ∧ sget edv.kv.releases 3 = some [2, 4] ∧ edv.sstate 3 ≠ 5 ∧ cellsWf edv.mem.hbm = true ∧ edv.mem.bad = [] ∧ kvCodeKnown 0x44 = false) ∧
    (edj.up = true ∧ edj.kv.swapping 3 = false ∧ edj.kv.job = some ⟨2, 3, 5, 6, [1, 2], none⟩) ∧
    (rdy.up = true ∧ rdy.kv.job = none ∧ ¬ (rdy.ses 3 0 % 2 = 1)) ∧
    (let x : Dev := { (((rdy.setSes 3 0 1).setSes 4 0 1).setSes 3 0x200 1).setSes 4 0x200 1 with kv := { dst := 4, len := 5 }, mem := ((((rdy.setSes 3 0 1).setSes 4 0 1).setSes 3 0x200 1).setSes 4 0x200 1 |>.setSes 3 0x204 9).mem }; x.up = true ∧ x.kv.job = none ∧ x.ses 3 0 % 2 = 1 ∧ x.evictable 3 true false = true ∧ x.sstate 3 ≠ 3 ∧ x.forkCause 3 4 5 = 0) ∧
    (let x : Dev := (rdy.setSes 3 0 1).setSes 3 0x200 3; x.up = true ∧ x.kv.job = none ∧ x.ses 3 0 % 2 = 1 ∧ x.evictable 3 true false = false ∧ x.sstate 3 = 3 ∧ x.kv.swapping 3 = false ∧ x.forkCause 3 0 0 ≠ 0) ∧
    (rdy.up = true ∧ (∀ x ∈ rdy.call.steps, x.session ≠ 3)) ∧
    (scp.up = true ∧ scp.call.steps.find? (fun x => x.session == 3) = some stp ∧ (3 : Nat) ∉ scp.kv.waitMirror ∧ scp.faulted 3 = false ∧ scp.cancelledSeq 3 1 = false ∧ scp.muleUp = true ∧ stp.discard = none ∧ stp.chunks ≤ stp.entered ∧ stp.sampled = true ∧ cellsWf scp.mem.hbm = true ∧ scp.mem.bad = [] ∧ scp.hasPeers = false ∧ (scp.withRemote stp).replay = false ∧ bit (scp.held 3 0) 1 = false) ∧
    (let x : Dev := { scp with call := { steps := [{ stp with replay := true }] } }; x.up = true ∧ x.call.steps.find? (fun x => x.session == 3) = some { stp with replay := true } ∧ (3 : Nat) ∉ x.kv.waitMirror ∧ x.faulted 3 = false ∧ x.cancelledSeq 3 1 = false ∧ x.muleUp = true ∧ stp.discard = none ∧ stp.chunks ≤ stp.entered ∧ stp.sampled = true ∧ cellsWf x.mem.hbm = true ∧ x.mem.bad = [] ∧ (x.withRemote { stp with replay := true }).replay = true ∧ (({ stp with replay := true } : Step)).nReplay < 4) ∧
    (let x : Dev := { (scp.setSes 3 0x240 2) with scr := { script := some scr1 } }; x.up = true ∧ x.call.steps.find? (fun x => x.session == 3) = some stp ∧ (3 : Nat) ∉ x.kv.waitMirror ∧ x.faulted 3 = false ∧ x.cancelledSeq 3 1 = false ∧ x.muleUp = true ∧ stp.discard = none ∧ stp.chunks ≤ stp.entered ∧ stp.sampled = true ∧ cellsWf x.mem.hbm = true ∧ x.mem.bad = [] ∧ x.hasPeers = false ∧ (x.withRemote stp).replay = false ∧ bit (x.held 3 0) 1 = true ∧ x.mirrorReady 3 stp.pos = false) :=
  ⟨by decide +kernel, by decide +kernel, by decide +kernel, by decide +kernel, by decide +kernel, by decide +kernel, by decide +kernel, by decide +kernel, by decide +kernel⟩

/-- Devices and operands that meet the hypotheses of HostAccessesReachTheWindow, clause by clause. -/
theorem wit_HostAccessesReachTheWindow :
    (0 < ([7, 8] : List Byte).length ∧ 64 % 64 + ([7, 8] : List Byte).length ≤ 64 ∧ inWindow 64 2 = true ∧ Mem.wf rdy.mem = true ∧ rdy.memReached = false ∧ 64 % 64 + 2 ≤ 64) ∧
    (let x : Dev := { hos with host := { hos.host with memActive := false } }; 0 < ([7, 8] : List Byte).length ∧ 64 % 64 + ([7, 8] : List Byte).length ≤ 64 ∧ inWindow 64 2 = true ∧ Mem.wf x.mem = true ∧ x.memReached = true ∧ x.host.memActive = false) ∧
    (0 < ([7, 8] : List Byte).length ∧ 0x100020000 % 64 + ([7, 8] : List Byte).length ≤ 64 ∧ inWindow 0x100020000 2 = true ∧ Mem.wf hos.mem = true ∧ hos.memReached = true ∧ hos.host.memActive = true ∧ hos.sys.st ≠ .parked ∧ regionOf 0x100020000 = .reserved) ∧
    (0 < ([7, 8] : List Byte).length ∧ 6656 % 64 + ([7, 8] : List Byte).length ≤ 64 ∧ inWindow 6656 2 = true ∧ Mem.wf hos.mem = true ∧ hos.memReached = true ∧ hos.host.memActive = true ∧ hos.sys.st ≠ .parked ∧ regionOf 6656 = .sessionTable ∧ deviceOwned (6656 % 2048) = true) ∧
    (0 < ([7, 8] : List Byte).length ∧ 0x80000002 % 64 + ([7, 8] : List Byte).length ≤ 64 ∧ inWindow 0x80000002 2 = true ∧ Mem.wf hos.mem = true ∧ hos.memReached = true ∧ hos.host.memActive = true ∧ hos.sys.st ≠ .parked ∧ regionOf 0x80000002 = .inputRing ∧ 0x80000002 / 64 ∉ hos.mem.bad) ∧
    (0x140000040 % 64 + 64 ≤ 64 ∧ inWindow 0x140000040 64 = true ∧ hos.memReached = true ∧ hos.host.memActive = true ∧ hos.sys.st ≠ .parked ∧ regionOf 0x140000040 = .adpStaging ∧ 0x140000040 / 64 ∈ hos.mem.bad ∧ Mem.wf hos.mem = true ∧ (List.replicate 64 (9 : Byte)).length = 64 ∧ ([7, 8] : List Byte).length < 64) ∧
    (0 < ([7, 8] : List Byte).length ∧ 6144 % 64 + ([7, 8] : List Byte).length ≤ 64 ∧ inWindow 6144 2 = true ∧ Mem.wf hos.mem = true ∧ hos.memReached = true ∧ hos.host.memActive = true ∧ hos.sys.st ≠ .parked ∧ regionOf 6144 = .sessionTable ∧ deviceOwned (6144 % 2048) = false ∧ 6144 / 64 ∉ hos.mem.bad ∧ hos.ses 3 0 % 2 = 0) ∧
    (let x : Dev := { hos with mem := { hbm := [(0x100000005, 0x10)] } }; 0 < ([7, 8] : List Byte).length ∧ 0x100000005 % 64 + ([7, 8] : List Byte).length ≤ 64 ∧ inWindow 0x100000005 2 = true ∧ Mem.wf x.mem = true ∧ x.memReached = true ∧ x.host.memActive = true ∧ x.sys.st ≠ .parked ∧ regionOf 0x100000005 = .bitmap ∧ 0x100000005 / 64 ∉ x.mem.bad ∧ x.sys.autoWake = false) ∧
    (let x : Dev := { hos with sys := { rdy.sys with st := .parked, selfRefresh := 0xF } }; x.memReached = true ∧ x.host.memActive = true ∧ x.sys.st = .parked ∧ regionOf 0x80000002 ≠ .reserved ∧ 0x80000002 / 64 ∉ x.mem.bad) :=
  ⟨by decide +kernel, by decide +kernel, by decide +kernel, by decide +kernel, by decide +kernel, by decide +kernel, by decide +kernel, by decide +kernel, by decide +kernel⟩

/-- Devices and operands that meet the hypotheses of HostLinkAndVectorCommands, clause by clause. -/
theorem wit_HostLinkAndVectorCommands :
    (let x : Dev := { rdy with host := { up := true, width := 16, speed := 3, memActive := true, hdm := some (1, 2), doeResp := [4], linkLoss := 2 } }; x.coreRuns = true ∧ x.host.up = true ∧ x.barOk = true) ∧
    (let x : Dev := { rdy with host := { msixPend := [2, 5], msix := [(2, ⟨64, 7, false⟩)] } }; x.barOk = true ∧ x.host.up = false ∧ x.sys.perst = false ∧ linkFormOk (lu true) = true ∧ linkFormOk (lu false) = true ∧ linkFormOk { lu false with width := 3 } = false ∧ (lu true).bme = true) ∧
    (let x : Dev := { rdy with host := { up := true } }; x.barOk = true ∧ x.host.up = true ∧ x.host.pcie = false ∧ 2 ^ 28 ∣ (0x20000000 : Word64).toNat ∧ (0x600000000 : Word64).toNat = 24 * 2 ^ 30 ∧ ¬ 2 ^ 28 ∣ (0x20000001 : Word64).toNat) ∧
    (let x : Dev := { rdy with host := { up := true, bme := true, msixEnable := true, msixPend := [5], msix := [(5, ⟨64, 7, true⟩)], evtStatus := 6, evtEn := 2, armed := false, linkLoss := 3, dma := [(0, 1)] } }; x.barOk = true ∧ 5 ∈ x.host.msixPend ∧ x.host.up = true ∧ x.host.bme = true ∧ x.host.msixEnable = true ∧ 6 ∉ x.host.msixPend) ∧
    (let x : Dev := { rdy with host := { up := true, msixEnable := true, msixPend := [5], msix := [(5, ⟨64, 7, true⟩)] } }; x.barOk = true ∧ 5 ∈ x.host.msixPend ∧ x.host.up = true ∧ x.host.bme = false) ∧
    (dwell.barOk = false) :=
  ⟨by decide +kernel, by decide +kernel, by decide +kernel, by decide +kernel, by decide +kernel, by decide +kernel⟩

/-- Devices and operands that meet the hypotheses of RegisterAccessesObeyTheirAddress, clause by clause. -/
theorem wit_RegisterAccessesObeyTheirAddress :
    (let x : Dev := { rdy with frm := { frame := 2 ^ 33 + 5, stretchTotal := 2 ^ 34 + 9 }, host := { armed := false, evtStatus := 1 }, sys := { rdy.sys with latch := [(0, 8), (4, 9)] } }; x.barOk = true ∧ x.up = true ∧ (0x100010 : Word).toNat % 4 = 0 ∧ (0x100010 : Word).toNat < 2 ^ 25 ∧ (0x101 : Word).toNat % 4 ≠ 0 ∧ 2 ^ 25 ≤ (0x2000000 : Word).toNat ∧ (0x100000 : Word) ∉ [(0x400110 : Word), 0x400114, 0x400124, 0x400128]) ∧
    (dwell.coreRuns = true ∧ dwell.sys.st = .boot) ∧
    (off.coreRuns = false) ∧
    (let x : Dev := { rdy with sys := { rdy.sys with st := .darkHouse } }; x.barOk = true ∧ x.up = false ∧ 2 ^ 21 ≤ (0x1600010 : Word).toNat ∧ (0x1600010 : Word).toNat < 0x1800000) :=
  ⟨by decide +kernel, by decide +kernel, by decide +kernel, by decide +kernel⟩

/-- Devices and operands that meet the hypotheses of ScriptsLoadWholeOrNotAtAll, clause by clause. -/
theorem wit_ScriptsLoadWholeOrNotAtAll :
    (let x : Dev := { rdy with scr := { job := some 0x1C0002000 } }; x.up = true ∧ x.scr.job.isSome = true ∧ x.scr.job = some 0x1C0002000) ∧
    (let x : Dev := { rdy with mesh := { at_ := some ⟨0, 0⟩ }, scr := { src := 2 } }; x.up = true ∧ x.scr.job = none ∧ x.sys.st = .ready ∧ x.scr.script = none ∧ x.mesh.at_.isSome = true) ∧
    (rdy.up = true ∧ rdy.scr.job = none ∧ rdy.mesh.at_ = none) ∧
    (let x : Dev := { rdy with sec := { st := .dark }, scr := { job := some 0x1C0002000 } }; x.up = true ∧ x.scr.job = some 0x1C0002000 ∧ x.sec.scriptKey = none) ∧
    (rdy.up = true ∧ rdy.sec.level < 1 ∧ 0 ≤ rdy.sec.level) ∧
    (let x : Dev := { rdy with sec := { st := .locked, level := 2, max := 3 } }; x.up = true ∧ 2 ≤ x.sec.level) :=
  ⟨by decide +kernel, by decide +kernel, by decide +kernel, by decide +kernel, by decide +kernel, by decide +kernel⟩

/-- Devices and operands that meet the hypotheses of AdaptersLoadServeAndRetire, clause by clause. -/
theorem wit_AdaptersLoadServeAndRetire :
    (let x : Dev := { rdy with call := { adpSlots := [(3, { ready := true, refs := 2 }), (4, { ready := true }), (5, {}), (6, { ready := true })], adpDir := [(9, (6, true))], adpSrc := 7 } }; x.up = true ∧ sparseWf x.call.adpSlots = true ∧ sparseWf x.call.adpDir = true ∧ x.call.adpJob = none ∧ sget x.call.adpSlots 2 = none ∧ (sget x.call.adpSlots 3).isSome = true) ∧
    (let x : Dev := { rdy with call := { adpJob := some (2, 1, 7), adpSlots := [(2, { tenant := 1 })] } }; x.up = true ∧ sparseWf x.call.adpSlots = true ∧ sparseWf x.call.adpDir = true ∧ x.call.adpJob = some (2, 1, 7) ∧ x.imageCause (0x140000000 + 4096 * 7) = 2) ∧
    (adi.up = true ∧ sparseWf adi.call.adpSlots = true ∧ sparseWf adi.call.adpDir = true ∧ adi.call.adpJob = some (2, 1, 7) ∧ adi.imageCause (0x140000000 + 4096 * 7) = 0 ∧ Mem.wf adi.mem = true) :=
  ⟨by decide +kernel, by decide +kernel, by decide +kernel⟩

/-- Devices and operands that meet the hypotheses of CommandsCompleteOrStopByName, clause by clause. -/
theorem wit_CommandsCompleteOrStopByName :
    (Instr.wf (.hostMemWrite 0 [1]) = true ∧ inMemory (.hostMemWrite 0 [1]) = true ∧ inMemory (.hostMemWrite 0x600000000 [1]) = false ∧ Instr.wf (.kernelStop 12 ke) = false ∧ rdy.now = 0) := by decide +kernel

/-- Devices and operands that meet the hypotheses of SecurityBlockChangesOnlyByItsCommands, clause by clause. -/
theorem wit_SecurityBlockChangesOnlyByItsCommands :
    (touchesSecurity .genPark = false ∧ (match exec .genPark (st rdy) with | .next _ => true | _ => false) = true) := by decide +kernel

/-- Devices and operands that meet the hypotheses of DebugLevelStaysPermitted, clause by clause. -/
theorem wit_DebugLevelStaysPermitted :
    (lockedDoe.sec.level ≤ lockedDoe.sec.max ∧ lockedDoe.sec.max ≤ permitted lockedDoe.sec.st ∧ (match step ⟨[.secDbgLevel 1], lockedDoe⟩ with | .next _ => true | _ => false) = true) := by decide +kernel

/-- Devices and operands that meet the hypotheses of MemoryStaysCanonical, clause by clause. -/
theorem wit_MemoryStaysCanonical :
    (Mem.wf edv.mem = true ∧ edv.tablesWf = true ∧ (match step ⟨[.scrubRead .hbm 0 4 []], edv⟩ with | .next _ => true | _ => false) = true) := by decide +kernel

/-- The REPLAY clause of FlitsArriveInOrderOrAreHeld: a flit whose one control unit is REPLAY (R358, R360), on a link that waits for it. -/
theorem wit_replay_flit :
    rpl.length = 512 ∧ (⟨rpl, flitCrc true rpl⟩ : Flit).control = [.replay 5] ∧
      (let x := onL upL; x.coreRuns = true ∧ (x.link 0).working = true ∧ (x.link 0).replayNext = none ∧ (x.link 0).runs = []) := by
  have h : (⟨rpl, flitCrc true rpl⟩ : Flit).isControl = true := by simp [Flit.isControl]
  refine ⟨by decide +kernel, ?_, by decide +kernel⟩
  rw [Flit.control, if_pos h]
  have : ∀ c, (((flitUnits ⟨rpl, c⟩).drop 1).take (min 31 (leAt rpl 0 1))).map parseUnit = [.replay 5] := by
    intro c
    change (((flitUnits ⟨rpl, 0⟩).drop 1).take (min 31 (leAt rpl 0 1))).map parseUnit = [.replay 5]
    decide +kernel
  exact this _

/-! ## Operands that no event of the hardware has -/

/-- The command is refused for its operands, on the device after reset. -/
def badForm (c : Instr) : Bool := match exec c State.reset with | .refused .illFormed => true | _ => false
/-- The command ends in the fault. -/
def noAddr (c : Instr) : Bool := match exec c State.reset with | .fault .noSuchAddress => true | _ => false

/-- R336: OSET to 4; apron rows even for BF16. -/
theorem test_illFormed_requant :
    badForm (.requant { (default : RequantCue) with oset := 5 }) ∧
    badForm (.requant { (default : RequantCue) with srcKind := .apron, srcFmt := .bf16, src := 3 }) := by decide +kernel
/-- R336: no stochastic BF16; apron destinations as sources. -/
theorem test_illFormed_out :
    badForm (.out { (default : OutCue) with stoch := true, ofmt := .bf16 }) ∧
    badForm (.out { (default : OutCue) with ofmt := .bf16, dstKind := .apron, dst := 31 }) := by decide +kernel
/-- R336: a relay has hops, stays on the grid and ends at the receiver's flock. -/
theorem test_illFormed_relay :
    badForm (.relay { (default : RelayCue) with hops := 0 }) ∧
    badForm (.relay { (default : RelayCue) with hops := 1, dirs := 0 }) ∧
    badForm (.relay { (default : RelayCue) with hops := 1, dirs := 1, dst := 256 }) := by decide +kernel
/-- R336: the tag format of a move. -/
theorem test_illFormed_move :
    badForm (.move { (default : MoveCue) with toApron := true, fmt := 3 }) := by decide +kernel
/-- R338: a window has slots, and 1 to 64 tiles. -/
theorem test_illFormed_window :
    badForm (.repeatWin { (default : WinCue) with slots := 0, tiles := 1 }) ∧
    badForm (.repeatWin { (default : WinCue) with slots := 1, tiles := 0 }) ∧
    badForm (.rehearseWin { (default : WinCue) with slots := 1, tiles := 65 }) := by decide +kernel
/-- R339: experts are 0 to 511. -/
theorem test_illFormed_place : badForm (.place { (default : PlaceCue) with expert := 512 }) := by decide +kernel
/-- R340: engines 0 to 95, at least one lane but for EXACT. -/
theorem test_illFormed_kernel :
    badForm (.matmul { (default : KernelCue) with engine := 96, nlanes := 1 }) ∧
    badForm (.sample { (default : KernelCue) with nlanes := 0 }) ∧
    badForm (.kernelStop 12 default) := by decide +kernel
/-- R341: whole codewords, at least one, engines 0 to 95. -/
theorem test_illFormed_hbm :
    badForm (.hbmRd { (default : HbmCue) with addr := 63, len := 1 }) ∧
    badForm (.hbmWr { (default : HbmCue) with len := 0 }) ∧
    badForm (.hbmRdDeliver { (default : HbmCue) with len := 1, tkind := .localBuf, engine := 96 } []) := by decide +kernel
/-- R324: links 0 to 47. -/
theorem test_illFormed_link :
    badForm (.linkSend { (default : LinkRec) with link := 48, slots := 1 }) ∧
    badForm (.linkReceive { (default : LinkRec) with link := 48, slots := 1 } .onTime) ∧
    badForm (.linkForward { (default : LinkRec) with outLink := 48, slots := 1 }) := by decide +kernel
/-- R210, R213: beyond device memory and beyond the host's window nothing answers. -/
theorem test_noSuchAddress :
    noAddr (.hbmRd { (default : HbmCue) with addr := 0x3000000000, len := 1 }) ∧
    noAddr (.hbmWr { (default : HbmCue) with addr := 0x2FFFFFFFC0, len := 2 }) ∧
    noAddr (.hostMemWrite 0x600000000 [1]) ∧
    noAddr (.hostMemRead 0x5FFFFFFFF 2 []) := by decide +kernel

/-! ## Two clauses with free values or long rotations -/

/-- cel with no tile of flock 0 cued. -/
def idle0 : Dev := { cel with tile := { cel.tile with prBad := List.range 128 } }
/-- The clause of WindowsServe for a rehearsal with nothing to do: no tile of flock 0 may drive its rows. -/
theorem wit_rehearseIdle :
    wi.wf = true ∧ idle0.cues = true ∧ ((idle0.advance 4).tile.arrs.find? fun a => a.1 / 17 / 128 == 0 && a.2.pstate == 3 && a.2.toMeasure != 0) = none ∧
    ((idle0.advance 4).tile.probes.find? fun p => p.arr / 17 / 128 == 0) = none ∧
    ∀ i, (idle0.advance 4).rotation 0 (fun a => !(idle0.advance 4).sheetEval (a / 17) (4 + i) && (idle0.advance 4).tile.idleIn (a / 17) (4 + i) 1 && !(idle0.advance 4).tile.prBad.contains (a / 17)) = none := by
  refine ⟨by decide +kernel, by decide +kernel, by decide +kernel, by decide +kernel, fun i => ?_⟩
  have h : (idle0.advance 4).tile.prBad = List.range 128 := by decide +kernel
  refine List.find?_eq_none.2 fun a ha => ?_
  obtain ⟨k, -, rfl⟩ := List.mem_map.1 ha
  have hk : (2176 * 0 + (sgetD (idle0.advance 4).tile.rot 0 0 % 2176 + k) % 2176) / 17 < 128 := by omega
  simp only [h, List.contains_eq_mem, List.mem_range, hk, decide_true, Bool.not_true, Bool.and_false, Bool.false_eq_true, not_false_eq_true]

/-- A reading of 0 lies below the window of level 5, whatever the drift correction: the row of prog5's operand is open, and with no
reading listed none is. -/
theorem wit_openRow (n : Nat) :
    prog5.openRow 16 (.refresh 3) [⟨9, n, [(7, false, 0)]⟩] = some ⟨9, n, [(7, false, 0)]⟩ := by
  have l : prog5.targetLevel (.refresh 3) 0 9 7 false = 5 := by decide +kernel
  have h : prog5.outOfWindow 16 (.refresh 3) 9 (7, false, 0) = true := by
    have w : (0 : Rat) < (verifyWindow 5).1 := by decide +kernel
    simp [Dev.outOfWindow, l, w]
  simp [Dev.openRow, h]

/-! ## Worked examples of the spec, and published test values -/

/-- R65's examples: 100 is 15 × 7 − 5, and −8 is 15 × (−1) + 7. -/
theorem test_w8s_high_part : highPart 100 = 7 ∧ highPart (-8) = -1 := by decide +kernel
/-- R210's worked example: the byte at 0x12_0001_2345 lies in stack 1, channel 3. -/
theorem test_hbm_channel : hbmChannel 0x1200012345 = 32 * 1 + 3 := by decide
/-- The CRC that R357 describes, on the digits 1 to 9: published check value 0x29B1. -/
theorem test_crc16 : flitCrc false [0x31, 0x32, 0x33, 0x34, 0x35, 0x36, 0x37, 0x38, 0x39] = 0x29B1 := by decide +kernel
/-- Philox-4×32-10 of counter and key 0 (R135): published answer. -/
theorem test_philox : philox 0 ⟨0, 0, 0, 0⟩ = ⟨0x6627E8D5, 0xE169C58D, 0xBC57AC4C, 0x9B00DBD8⟩ := by decide +kernel
/-- SHAKE256 of the empty message (R319): the first bytes of the published digest. -/
theorem test_shake256 : (shake256 []).take 8 = [0x46, 0xB9, 0xDD, 0x2B, 0x0B, 0xA8, 0x8D, 0x13] := by decide +kernel
/-- R203: the decoder finds a single symbol error; the same error twice is none. -/
theorem test_rs_one_symbol : rsDecode 72 [(5, 0x81)] = .correct [(5, 0x81)] ∧ rsNorm 72 [(5, 0x81), (5, 0x81)] = [] := by decide +kernel

/-- The command answers a next state whose device meets p. -/
def chk (c : Instr) (x : Dev) (p : Dev → Bool) : Bool := match exec c (st x) with | .next t => p t.dev | _ => false
/-- Section 4's example of a zero-heavy block: the BF16 elements 5.25, 0.1875 and −0.30078125, window base −6. -/
def heavy : Dev := { ply with frm := { running := true, isOpen := true, lanes := [(5, tok5)] }, tile := { qtab := [0x1000000 + 64 * 64 + 0x3A] },
                              mem := { owner := [(0, 0)], wings := [(0, 0xA8), (1, 0x40), (2, 0x40), (3, 0x3E), (4, 0x9A), (5, 0xBE)] } }
/-- AN4: exponent −1, codes 10, 0 and −1 (sign in bit 7). -/
theorem test_requant_an4 :
    chk (.requant { (default : RequantCue) with lane := 5, srcFmt := .bf16, dst := 3 }) heavy (fun d => d.mem.apron == [(512 * 3, 10), (512 * 3 + 2, 0x81)] && d.mem.tags == [(3, mkTag (-1) 1 0)]) = true := by decide +kernel
/-- AW8: 255 × 2^−5 is the first to cover 5.25, so the codes are 168, 6 and −10. -/
theorem test_requant_aw8 :
    vecExp (some (21 / 4)) .aw8 (-6) = -5 ∧
    (quantise [fpDec (outFmtF .bf16) 0x40A8, fpDec (outFmtF .bf16) 0x3E40, fpDec (outFmtF .bf16) 0xBE9A] .aw8 (-5) [] none).map Prod.fst = [168, 6, -10] := by decide +kernel

end Sys2Proof.Tests
end

section
/-! PROOF. The arithmetic of the arrays: clamping and rounding, the saturating addition of accumulator sets (R76, R77), the
converter's code (R72, R73), the requantiser's codes (R103, R117) and the stochastic rounding (R134). -/
namespace Sys2Proof.Machine

/-! ## Clamping -/

theorem le_clampI {lo hi : Int} (h : lo ≤ hi) (i : Int) : lo ≤ clampI lo hi i := by
  unfold clampI; split_ifs <;> omega
theorem clampI_le {lo hi : Int} (h : lo ≤ hi) (i : Int) : clampI lo hi i ≤ hi := by
  unfold clampI; split_ifs <;> omega
theorem clampI_of_mem {lo hi i : Int} (h : lo ≤ i) (h' : i ≤ hi) : clampI lo hi i = i := by
  unfold clampI; split_ifs <;> omega
theorem clampI_eq_lo_iff {lo hi : Int} (h : lo < hi) (i : Int) : clampI lo hi i = lo ↔ i ≤ lo := by
  unfold clampI; split_ifs <;> omega
theorem clampI_eq_hi_iff {lo hi : Int} (h : lo < hi) (i : Int) : clampI lo hi i = hi ↔ hi ≤ i := by
  unfold clampI; split_ifs <;> omega

/-! ## Rounding -/

@[simp] theorem rne_intCast (z : Int) : rne z = z := by simp [rne]

/-- A shift by 0 aligns nothing. -/
@[simp] theorem shrRne_zero (v : Int) : shrRne v 0 = v := by simp [shrRne]

@[simp] theorem zero_shrRne (k : Nat) : shrRne 0 k = 0 := by
  unfold shrRne
  split
  · rfl
  · simpa using rne_intCast 0

theorem stochRound_eq_floor_or (q : Rat) (r : Nat) : stochRound q r = q.floor ∨ stochRound q r = q.floor + 1 := by
  simp only [stochRound]
  split
  · exact .inr rfl
  · exact .inl rfl

theorem stochRound_eq_floor_succ_iff (q : Rat) (r : Nat) :
    stochRound q r = q.floor + 1 ↔ 65536 ≤ ((q - q.floor) * 65536).floor + r := by
  simp only [stochRound]
  split
  · exact iff_of_true rfl ‹_›
  · exact iff_of_false (by omega) ‹_›

/-- A value on the grid has no fraction, and a 16-bit draw alone does not reach 65,536. -/
theorem stochRound_intCast {r : Nat} (hr : r < 65536) (z : Int) : stochRound z r = z := by
  have h0 : Rat.floor 0 = 0 := Rat.floor_intCast 0
  have h : ¬ (65536 : Int) ≤ r := by omega
  simp [stochRound, h0, h]

/-! ## The saturating addition of two column lists (R77) -/

theorem mem_satAddAll_fst {a b : List Int} {v : Int} (h : v ∈ (satAddAll a b).1) : -accMax ≤ v ∧ v ≤ accMax := by
  simp only [satAddAll, List.map_map, List.mem_map] at h
  obtain ⟨j, -, rfl⟩ := h
  exact ⟨le_clampI (by decide) _, clampI_le (by decide) _⟩

@[simp] theorem length_satAddAll_fst (a b : List Int) : (satAddAll a b).1.length = 512 := by simp [satAddAll]

theorem getD_satAddAll_fst (a b : List Int) {j : Nat} (h : j < 512) :
    (satAddAll a b).1.getD j 0 = clampI (-accMax) accMax (a.getD j 0 + b.getD j 0) := by
  simp [satAddAll, satAdd, h]

/-- The places of the marked entries of a list. -/
theorem mem_filterMap_zipIdx_marked (l : List (Int × Bool)) (j : Nat) :
    j ∈ l.zipIdx.filterMap (fun p => if p.1.2 then some p.2 else none) ↔ ∃ v, l[j]? = some (v, true) := by
  simp only [List.mem_filterMap, List.mem_zipIdx_iff_getElem?, Option.ite_none_right_eq_some, Option.some.injEq]
  constructor
  · rintro ⟨⟨⟨v, o⟩, i⟩, hl, rfl, rfl⟩
    exact ⟨v, hl⟩
  · rintro ⟨v, hl⟩
    exact ⟨((v, true), j), hl, rfl, rfl⟩

/-- The columns that saturate are those whose exact sum lies outside. -/
theorem mem_satAddAll_snd (a b : List Int) (j : Nat) :
    j ∈ (satAddAll a b).2 ↔ j < 512 ∧ accMax < |a.getD j 0 + b.getD j 0| := by
  rw [satAddAll, mem_filterMap_zipIdx_marked]
  by_cases hj : j < 512 <;> simp [satAdd, hj]

/-! ## Adding a contribution to a set (R76 to R78) -/

theorem mem_setIns (s : List Nat) (k j : Nat) : j ∈ setIns s k ↔ j = k ∨ j ∈ s := by
  induction s with
  | nil => simp [setIns]
  | cons x t ih => simp only [setIns]; grind

theorem mem_foldl_setIns (l s : List Nat) (j : Nat) : j ∈ l.foldl setIns s ↔ j ∈ l ∨ j ∈ s := by
  induction l generalizing s with
  | nil => simp
  | cons k l ih => simp only [List.foldl_cons, ih, mem_setIns, List.mem_cons]; grind

/-- Every column of a list aligned to an exponent larger by k (R76). -/
def alignVals (k : Nat) (vs : List Int) : List Int := vs.map fun v => shrRne v k

@[simp] theorem alignVals_zero (vs : List Int) : alignVals 0 vs = vs := by simp [alignVals]

@[simp] theorem getD_alignVals (k : Nat) (vs : List Int) (j : Nat) : (alignVals k vs).getD j 0 = shrRne (vs.getD j 0) k := by
  cases h : vs[j]? <;> simp [alignVals, h]

/-- A set's chain and flags with the saturated sum of two aligned column lists. -/
def AccSet.sum (chain : Nat) (exp : Int) (flags flags' : List Nat) (a b : List Int) : AccSet :=
  ⟨chain, exp, (satAddAll a b).1, ((satAddAll a b).2 ++ flags').foldl setIns flags⟩

theorem AccSet.add_none (c : Contrib) :
    AccSet.add none c = AccSet.sum c.chain c.exp [] c.ovf (List.replicate 512 0) c.vals := by
  simp only [AccSet.add, AccSet.sum]

/-- Both cases of R76 in one: each side is aligned to the larger exponent, and one of the two shifts is by 0. -/
theorem AccSet.add_some (a : AccSet) (c : Contrib) : let e := max a.exp c.exp
    AccSet.add (some a) c = AccSet.sum a.chain e a.ovf c.ovf (alignVals (e - a.exp).toNat a.vals) (alignVals (e - c.exp).toNat c.vals) := by
  by_cases h : c.exp ≤ a.exp
  · simp [AccSet.add, h, AccSet.sum, alignVals]
  · have h' : a.exp ≤ c.exp := by omega
    simp [AccSet.add, h, h', AccSet.sum, alignVals]

@[simp] theorem AccSet.sum_exp (chain : Nat) (e : Int) (f f' : List Nat) (a b : List Int) : (AccSet.sum chain e f f' a b).exp = e := rfl
@[simp] theorem AccSet.sum_chain (chain : Nat) (e : Int) (f f' : List Nat) (a b : List Int) : (AccSet.sum chain e f f' a b).chain = chain := rfl
@[simp] theorem AccSet.sum_vals (chain : Nat) (e : Int) (f f' : List Nat) (a b : List Int) :
    (AccSet.sum chain e f f' a b).vals = (satAddAll a b).1 := by rw [AccSet.sum]

/-- The flags of a sum: those of both sides and of the columns that saturate. -/
theorem AccSet.mem_sum_ovf (chain : Nat) (e : Int) (f f' : List Nat) (a b : List Int) (j : Nat) :
    j ∈ (AccSet.sum chain e f f' a b).ovf ↔ (j ∈ (satAddAll a b).2 ∨ j ∈ f') ∨ j ∈ f := by
  rw [AccSet.sum, mem_foldl_setIns, List.mem_append]

/-- One column of a sum: saturated with its flag set where the exact value lies outside, and exact elsewhere. -/
theorem AccSet.sum_column (chain : Nat) (e : Int) (flags flags' : List Nat) (a b : List Int) {j : Nat} (hj : j < 512) :
    let r := AccSet.sum chain e flags flags' a b
    let y := a.getD j 0 + b.getD j 0
    (y < -accMax → r.vals.getD j 0 = -accMax ∧ j ∈ r.ovf) ∧ (accMax < y → r.vals.getD j 0 = accMax ∧ j ∈ r.ovf) ∧
    (-accMax ≤ y → y ≤ accMax → r.vals.getD j 0 = y) := by
  intro r y
  have hv : r.vals.getD j 0 = clampI (-accMax) accMax y := by rw [AccSet.sum_vals, getD_satAddAll_fst a b hj]
  have hf (h : accMax < |y|) : j ∈ r.ovf := (AccSet.mem_sum_ovf ..).2 (.inl (.inl ((mem_satAddAll_snd a b j).2 ⟨hj, h⟩)))
  have hm : -accMax < accMax := by decide
  rw [hv]
  exact ⟨fun h => ⟨(clampI_eq_lo_iff hm y).2 h.le, hf (lt_abs.2 (.inr (by omega)))⟩,
    fun h => ⟨(clampI_eq_hi_iff hm y).2 h.le, hf (lt_abs.2 (.inl h))⟩, clampI_of_mem⟩

/-- Whatever the set was, an addition makes a sum that starts from its flags. -/
theorem AccSet.add_eq_sum (o : Option AccSet) (c : Contrib) :
    ∃ chain e flags a b, AccSet.add o c = AccSet.sum chain e flags c.ovf a b ∧ ∀ s, o = some s → flags = s.ovf := by
  cases o with
  | none => exact ⟨_, _, _, _, _, AccSet.add_none c, nofun⟩
  | some s => exact ⟨_, _, _, _, _, AccSet.add_some s c, fun _ h => by cases h; rfl⟩

theorem AccSet.add_length (o : Option AccSet) (c : Contrib) : (AccSet.add o c).vals.length = 512 := by
  obtain ⟨_, _, _, a, b, h, -⟩ := AccSet.add_eq_sum o c
  rw [h, AccSet.sum_vals, length_satAddAll_fst]

theorem AccSet.add_bounded (o : Option AccSet) (c : Contrib) {v : Int} (hv : v ∈ (AccSet.add o c).vals) : -accMax ≤ v ∧ v ≤ accMax := by
  obtain ⟨_, _, _, a, b, h, -⟩ := AccSet.add_eq_sum o c
  rw [h, AccSet.sum_vals] at hv
  exact mem_satAddAll_fst hv

/-- An addition clears no flag. -/
theorem AccSet.add_keeps_ovf (o : Option AccSet) (c : Contrib) {j : Nat} (hj : (∃ a, o = some a ∧ j ∈ a.ovf) ∨ j ∈ c.ovf) :
    j ∈ (AccSet.add o c).ovf := by
  obtain ⟨_, _, flags, a, b, h, hf⟩ := AccSet.add_eq_sum o c
  rw [h, AccSet.mem_sum_ovf]
  obtain ⟨s, ho, hs⟩ | hc := hj
  · exact .inr (hf s ho ▸ hs)
  · exact .inl (.inr hc)

/-- The first contribution of a set is taken as it is where it lies within the accumulators (R76). -/
theorem AccSet.add_none_column (c : Contrib) {j : Nat} (hj : j < 512) (lo : -accMax ≤ c.vals.getD j 0) (hi : c.vals.getD j 0 ≤ accMax) :
    (AccSet.add none c).vals.getD j 0 = c.vals.getD j 0 := by
  have h := (AccSet.sum_column c.chain c.exp [] c.ovf (List.replicate 512 0) c.vals hj).2.2
  have h0 : (List.replicate 512 (0 : Int)).getD j 0 = 0 := List.getD_replicate 0 hj
  rw [h0, zero_add, ← AccSet.add_none] at h
  exact h lo hi

@[simp] theorem AccSet.add_some_exp (a : AccSet) (c : Contrib) : (AccSet.add (some a) c).exp = max a.exp c.exp := by
  rw [AccSet.add_some, AccSet.sum_exp]

@[simp] theorem AccSet.add_some_chain (a : AccSet) (c : Contrib) : (AccSet.add (some a) c).chain = a.chain := by
  rw [AccSet.add_some, AccSet.sum_chain]

/-- A column of a later contribution: the sum of the two aligned values, saturated with its flag set (R76, R77). -/
theorem AccSet.add_some_column (a : AccSet) (c : Contrib) {j : Nat} (hj : j < 512) :
    let r := AccSet.add (some a) c
    let y := shrRne (a.vals.getD j 0) (r.exp - a.exp).toNat + shrRne (c.vals.getD j 0) (r.exp - c.exp).toNat
    (y < -accMax → r.vals.getD j 0 = -accMax ∧ j ∈ r.ovf) ∧ (accMax < y → r.vals.getD j 0 = accMax ∧ j ∈ r.ovf) ∧
    (-accMax ≤ y → y ≤ accMax → r.vals.getD j 0 = y) := by
  intro r y
  have h := AccSet.sum_column a.chain (max a.exp c.exp) a.ovf c.ovf (alignVals (max a.exp c.exp - a.exp).toNat a.vals)
    (alignVals (max a.exp c.exp - c.exp).toNat c.vals) hj
  rw [← AccSet.add_some, getD_alignVals, getD_alignVals, ← AccSet.add_some_exp] at h
  exact h

/-- No contribution that lands clears a flag of a tile's set (R77). -/
theorem Tile.land_keeps_ovf (t : Tile) (slot tile j : Nat) (h : ∃ a, sget t.acc tile = some a ∧ j ∈ a.ovf) :
    ∃ b, sget (t.land slot).acc tile = some b ∧ j ∈ b.ovf := by
  refine foldl_keeps (fun t : Tile => ∃ a, sget t.acc tile = some a ∧ j ∈ a.ovf) _ (fun t c h => ?_) t.pend t h
  split
  · by_cases ht : tile = c.tile
    · subst ht
      exact ⟨_, sget_sput_self _ _ _, AccSet.add_keeps_ovf _ c (.inl h)⟩
    · rwa [sget_sput_ne _ _ ht]
  · exact h

/-! ## Converter codes (R72, R73) -/

theorem convCode_range (y : Int) (r : Nat) (e : Int) : -512 ≤ convCode y r e ∧ convCode y r e ≤ 511 :=
  ⟨le_clampI (by decide) _, clampI_le (by decide) _⟩

theorem isClip_convCode (y : Int) (r : Nat) (e : Int) : isClip (convCode y r e) = true ↔
    rne ((y : Rat) * 512 / rangeFs r) + e ≤ -512 ∨ 511 ≤ rne ((y : Rat) * 512 / rangeFs r) + e := by
  rw [isClip, Bool.or_eq_true, beq_iff_eq, beq_iff_eq, convCode, clampI_eq_lo_iff (by decide), clampI_eq_hi_iff (by decide)]

theorem rangeFs_succ (r : Nat) : rangeFs (r + 1) * 2 = rangeFs r := by
  unfold rangeFs; rw [pow_succ]; field_simp

/-! ## Requantised codes (R103, R117) -/

/-- The largest code of a format, for an outlier channel or another one (R103). -/
def codeLim (f : ArrFmt) (outlier : Bool) : Int :=
  match f, outlier with
  | .an4, false => 15 | .an4, true => 127 | .aw8, false => 255 | .aw8, true => 32767

/-- Rounding with the draw of an element, or to nearest. -/
def roundBy (draw : Option (Nat → Nat)) (i : Nat) (x : Rat) : Int :=
  match draw with
  | some g => stochRound x (g i)
  | none => rne x

/-- The code of one element within ±lim, and whether it did not fit. -/
def quantElem (lim e : Int) (rnd : Rat → Int) : FpVal → Int × Bool
  | .inf neg => (if neg then -lim else lim, true)
  | .nan => (0, false)
  | .fin neg q => let r := rnd ((if neg then -q else q) / (2 : Rat) ^ e); (clampI (-lim) lim r, decide (lim < |r|))

theorem quantise_eq (es : List FpVal) (f : ArrFmt) (e : Int) (ch : List Nat) (g : Option (Nat → Nat)) :
    quantise es f e ch g = es.zipIdx.map fun p => quantElem (codeLim f (ch.contains p.2)) e (roundBy g p.2) p.1 := by
  refine List.map_congr_left fun ⟨x, i⟩ _ => ?_
  cases x <;> rfl

theorem codeLim_pos (f : ArrFmt) (o : Bool) : 0 < codeLim f o := by cases f <;> cases o <;> decide

/-- A code lies within ±lim, and that of an element that did not fit is at an end. -/
theorem quantElem_range {lim : Int} (h : 0 < lim) (e : Int) (rnd : Rat → Int) (x : FpVal) : let p := quantElem lim e rnd x
    p.1 ≤ lim ∧ -lim ≤ p.1 ∧ (p.2 = true → p.1 = lim ∨ p.1 = -lim) := by
  cases x with
  | nan => exact ⟨h.le, by simp only [quantElem]; omega, nofun⟩
  | inf neg => cases neg <;> simp [quantElem] <;> omega
  | fin neg q =>
    refine ⟨clampI_le (by omega) _, le_clampI (by omega) _, fun ho => ?_⟩
    have hl : -lim < lim := by omega
    rcases lt_abs.1 (of_decide_eq_true ho) with hr | hr
    · exact .inl ((clampI_eq_hi_iff hl _).2 hr.le)
    · exact .inr ((clampI_eq_lo_iff hl _).2 (by omega))

theorem quantise_length (es : List FpVal) (f : ArrFmt) (e : Int) (ch : List Nat) (g : Option (Nat → Nat)) :
    (quantise es f e ch g).length = es.length := by
  simp [quantise_eq]

theorem quantise_getElem?_range {es : List FpVal} {f : ArrFmt} {e : Int} {ch : List Nat} {g : Option (Nat → Nat)} {j : Nat} {p : Int × Bool}
    (h : (quantise es f e ch g)[j]? = some p) : let lim := codeLim f (ch.contains j)
    p.1 ≤ lim ∧ -lim ≤ p.1 ∧ (p.2 = true → p.1 = lim ∨ p.1 = -lim) := by
  rw [quantise_eq, List.getElem?_map, Option.map_eq_some_iff] at h
  obtain ⟨⟨x, i⟩, hx, rfl⟩ := h
  obtain rfl : j = i := by
    rw [List.getElem?_zipIdx, Option.map_eq_some_iff] at hx
    obtain ⟨_, -, hx⟩ := hx
    simpa using congrArg Prod.snd hx
  exact quantElem_range (codeLim_pos f _) e _ x

/-! ## The statement -/

/-- Settles O30: the column lemmas of the saturating addition, and the clamping of each code. -/
theorem additionsAndCodesStayInRange : Obligations.AdditionsAndCodesStayInRange := by
  refine ⟨⟨fun o c => ⟨AccSet.add_length o c, fun v => AccSet.add_bounded o c, fun j => AccSet.add_keeps_ovf o c, ?_, ?_⟩,
      fun t slot tile j a ha hj => Tile.land_keeps_ovf t slot tile j ⟨a, ha, hj⟩⟩,
    fun y r e => ⟨(convCode_range y r e).1, (convCode_range y r e).2, isClip_convCode y r e⟩,
    fun es f e ch g => ⟨quantise_length es f e ch g, fun j p hp => ?_⟩,
    fun q r hr => ⟨stochRound_eq_floor_or q r, stochRound_intCast hr, stochRound_eq_floor_succ_iff q r⟩, rangeFs_succ⟩
  case refine_1 =>
    rintro a rfl
    exact ⟨AccSet.add_some_exp a c, AccSet.add_some_chain a c, fun j => AccSet.add_some_column a c⟩
  case refine_2 =>
    rintro rfl
    exact ⟨rfl, rfl, fun j hj => AccSet.add_none_column c hj⟩
  case refine_3 =>
    have h := quantise_getElem?_range hp
    cases f <;> by_cases hj : j ∈ ch <;> simpa [codeLim, hj] using h

end Sys2Proof.Machine
end

section
/-! PROOF. Kernels of one lane (R340, R350): what a contained error changes (R399, R401), what a thread's run changes (R204), where
operands are read and results written, and the row that each family writes; attention without keys (R160). -/
namespace Sys2Proof.Machine

/-! ## The sequence number of error records (R415) -/

@[simp] theorem Err.count_nextSeq (e : Err) (n : Nat) : (e.count n).nextSeq = e.nextSeq := rfl

@[simp] theorem Err.pushStack_nextSeq (e : Err) (r : ErrRec) : (e.pushStack r).nextSeq = e.nextSeq := by
  unfold Err.pushStack
  split
  · rfl
  · dsimp only
    split
    · split <;> rfl
    · rfl

@[simp] theorem Err.pushRing_nextSeq (e : Err) (r : ErrRec) : (e.pushRing r).nextSeq = e.nextSeq := by
  have lost (e : Err) (seq : Nat) : (if e.inStack seq then e else e.count 7).nextSeq = e.nextSeq := by split <;> rfl
  unfold Err.pushRing
  split
  · rfl
  · dsimp only
    split
    · exact lost _ _
    · split <;> exact lost _ _

variable (d : Dev)

@[simp] theorem Dev.event_err (e : Evt) : (d.event e).err = d.err := by rw [Dev.event_frame]
@[simp] theorem Dev.settle_err (b : Dev) : (Dev.settle b d).err = d.err := rfl
@[simp] theorem Dev.ethSend_err (bs : List Byte) : (d.ethSend bs).err = d.err := by rw [Dev.ethSend_frame]
@[simp] theorem Dev.record_mem (i : ErrIn) (a : Nat) (n : Bool) : (d.record i a n).mem = d.mem := by rw [Dev.record_frame]
@[simp] theorem Dev.record_eng (i : ErrIn) (a : Nat) (n : Bool) : (d.record i a n).eng = d.eng := by rw [Dev.record_frame]

@[simp] theorem Dev.record_nextSeq (i : ErrIn) (a : Nat) (n : Bool) : (d.record i a n).err.nextSeq = d.err.nextSeq + 1 := by
  have hold (c : Prop) [Decidable c] (x : Dev) (f : Call → Call) : (if c then x.modCall f else x).err = x.err := by split <;> rfl
  simp [Dev.record, hold]

/-! ## A contained error (R399, R401, R413) -/

/-- A contained error changes the error unit and what a record touches; engines and memory stand. -/
theorem Dev.raise_contained {i : ErrIn} (hi : i.cls = 1) : (d.raise i).mem = d.mem ∧ (d.raise i).eng = d.eng ∧
    (d.sys.st ≠ .blackout → (d.raise i).err.nextSeq = d.err.nextSeq + 1) := by
  unfold Dev.raise
  split
  · exact ⟨rfl, rfl, fun h => absurd ‹_› h⟩
  · simp only [hi]
    split <;> simp

/-! ## A discarded step (R401) -/

theorem Dev.exactFail_frame (c : Nat) : let r := d.exactFail c
    r = { d with host := r.host, tile := r.tile, out := r.out } := by
  unfold Dev.exactFail
  split
  · rw [Dev.event_frame]; rfl
  · rfl

theorem Dev.exactDiscard_frame (t : Nat × Nat × Nat) : let r := d.exactDiscard t
    r = { d with host := r.host, tile := r.tile, out := r.out } := by
  unfold Dev.exactDiscard
  split
  · split
    · exact d.exactFail_frame 3
    · rfl
  · rfl

@[simp] theorem Dev.exactDiscard_err (t : Nat × Nat × Nat) : (d.exactDiscard t).err = d.err := by rw [Dev.exactDiscard_frame]
@[simp] theorem Dev.exactDiscard_frm (t : Nat × Nat × Nat) : (d.exactDiscard t).frm = d.frm := by rw [Dev.exactDiscard_frame]

/-- After its lanes are emptied no lane holds a token of a step. -/
@[simp] theorem Frm.lanesOf_emptyLanes (f : Frm) (ex ey s : Nat) : (f.emptyLanes ex ey s).lanesOf ex ey s = [] := by
  simp only [Frm.lanesOf, Frm.emptyLanes, List.filterMap_eq_nil_iff, List.mem_filter]
  rintro l ⟨-, hl⟩
  simpa [or_iff_not_imp_left] using hl

/-- Discarding an own step: what it touches, no new record, and no lane left. -/
theorem Dev.discardStep_spec (s cause : Nat) : let r := d.discardStep s cause
    r = { d with err := r.err, call := r.call, frm := r.frm, tile := r.tile, host := r.host, out := r.out } ∧
    r.err.nextSeq = d.err.nextSeq ∧ r.frm.lanesOf d.coord.x.toNat d.coord.y.toNat s = [] := by
  unfold Dev.discardStep
  dsimp only
  split
  all_goals
    refine ⟨?_, by simp, ?_⟩
    · rw [Dev.exactDiscard_frame]; rfl
    · rw [Dev.exactDiscard_frame]; exact Frm.lanesOf_emptyLanes ..

/-- Discarding any step: what it touches, no new record, and no lane left. -/
theorem Dev.discardTok_spec (t : Nat × Nat × Nat) (cause : Nat) : let r := d.discardTok t cause
    r = { d with err := r.err, call := r.call, frm := r.frm, tile := r.tile, host := r.host, out := r.out } ∧
    r.err.nextSeq = d.err.nextSeq ∧ r.frm.lanesOf t.1 t.2.1 t.2.2 = [] := by
  unfold Dev.discardTok
  dsimp only
  split
  case isTrue own =>
    simp only [Bool.and_eq_true, beq_iff_eq] at own
    rw [own.1, own.2]
    exact d.discardStep_spec ..
  case isFalse =>
    refine ⟨?_, by simp, by simp⟩
    rw [Dev.exactDiscard_frame]; rfl

@[simp] theorem Dev.discardTok_mem (t : Nat × Nat × Nat) (c : Nat) : (d.discardTok t c).mem = d.mem := by rw [(d.discardTok_spec t c).1]
@[simp] theorem Dev.discardTok_eng (t : Nat × Nat × Nat) (c : Nat) : (d.discardTok t c).eng = d.eng := by rw [(d.discardTok_spec t c).1]
@[simp] theorem Dev.discardTok_sys (t : Nat × Nat × Nat) (c : Nat) : (d.discardTok t c).sys = d.sys := by rw [(d.discardTok_spec t c).1]

/-- A contained error is recorded as one, and the steps it touches are discarded. -/
theorem Dev.contain_eq (i : ErrIn) (ts : List (Nat × Nat × Nat)) (cause : Nat) :
    ∃ j : ErrIn, j.cls = 1 ∧ d.contain i ts cause = ts.dedup.foldl (fun d t => d.discardTok t cause) (d.raise j) := ⟨_, rfl, rfl⟩

/-- After a contained error memory and engines stand, and one record more is written. -/
theorem Dev.contain_spec (i : ErrIn) (ts : List (Nat × Nat × Nat)) (cause : Nat) : let r := d.contain i ts cause
    r.mem = d.mem ∧ r.eng = d.eng ∧ (d.sys.st ≠ .blackout → r.err.nextSeq = d.err.nextSeq + 1) := by
  obtain ⟨j, hj, hc⟩ := d.contain_eq i ts cause
  dsimp only
  rw [hc]
  refine foldl_keeps (fun x : Dev => x.mem = d.mem ∧ x.eng = d.eng ∧ (d.sys.st ≠ .blackout → x.err.nextSeq = d.err.nextSeq + 1)) _
    (fun x t hx => ?_) _ _ (d.raise_contained hj)
  simpa only [Dev.discardTok_mem, Dev.discardTok_eng, (x.discardTok_spec t cause).2.1] using hx

/-- The step it touches has no lane left. -/
theorem Dev.contain_lanesOf (i : ErrIn) (t : Nat × Nat × Nat) (cause : Nat) :
    (d.contain i [t] cause).frm.lanesOf t.1 t.2.1 t.2.2 = [] := by
  obtain ⟨j, -, hc⟩ := d.contain_eq i [t] cause
  rw [hc]
  exact ((d.raise j).discardTok_spec t cause).2.2

/-! ## The crossbar and the hazard detector (R198, R329) -/

@[simp] theorem Dev.modMem_hazActive (f : Mem → Mem) : (d.modMem f).hazActive = d.hazActive := rfl

variable {d}

theorem Dev.tagWrite_off (h : d.hazActive = false) (store : Nat) (keys : List Nat) (cue : Nat) : d.tagWrite store keys cue = d := by
  simp [Dev.tagWrite, h]

theorem Dev.hazRead_off (h : d.hazActive = false) (store : Nat) (keys : List Nat) (reader slot : Nat) (toks : List (Nat × Nat × Nat)) (operand : Nat) :
    d.hazRead store keys reader slot toks operand = d := by
  simp [Dev.hazRead, h]

/-- An allowed read takes the bytes and leaves the device as it is. -/
theorem Dev.wingsRd_allowed {t : Tok} {a n : Nat} (haz : d.hazActive = false) (ha : d.refusedBank t.tenant false a n = none)
    (slot cue operand : Nat) : d.wingsRd t a n slot cue operand = (d, rdN d.mem.wings a n) := by
  simp only [Dev.wingsRd, ha, Dev.hazRead_off haz]

/-- An allowed write changes the bytes and nothing else. -/
theorem Dev.wingsWr_allowed {t : Tok} {a : Nat} {bs : List Byte} (haz : d.hazActive = false)
    (ha : d.refusedBank t.tenant true a bs.length = none) (slot cue : Nat) :
    d.wingsWr t a bs slot cue = { d with mem := { d.mem with wings := wrN d.mem.wings a bs } } := by
  simp only [Dev.wingsWr, ha]
  exact Dev.tagWrite_off ((d.modMem_hazActive _).trans haz) ..

/-- A write of the wings, allowed or refused, leaves the engines alone. -/
@[simp] theorem Dev.wingsWr_eng (t : Tok) (a : Nat) (bs : List Byte) (slot cue : Nat) : (d.wingsWr t a bs slot cue).eng = d.eng := by
  unfold Dev.wingsWr
  split
  · exact (Dev.contain_spec _ _ _ _).2.1
  · rw [Dev.tagWrite_frame]; rfl

/-! ## The thread of a kernel (R186, R204) -/

@[simp] theorem Dev.useKeys_eng (keys : List Nat) (st : Nat × Nat × Nat) : (d.useKeys keys st).eng = d.eng := by
  simp only [Dev.useKeys]; split <;> simp

@[simp] theorem Dev.useKeys_sys (keys : List Nat) (st : Nat × Nat × Nat) : (d.useKeys keys st).sys = d.sys := by
  simp only [Dev.useKeys]; split <;> simp

/-- A thread that runs is active, and the state of the device stands. -/
theorem Dev.runThread_spec (z : KRun) : let r := d.runThread z
    r.eng = { d.eng with active := setIns d.eng.active (64 * z.k.engine.toNat + z.k.thread.toNat) } ∧ r.sys = d.sys :=
  foldl_keeps (fun x : Dev => x.eng = { d.eng with active := setIns d.eng.active (64 * z.k.engine.toNat + z.k.thread.toNat) } ∧ x.sys = d.sys) _
    (fun x st hx => by simpa using hx) _ _ ⟨rfl, rfl⟩

/-! ## One packed lane (R350) -/

@[simp] theorem Dev.krun_k (fam : Nat) (k : KernelCue) : (d.krun fam k).k = k := rfl
@[simp] theorem Dev.krun_kc (fam : Nat) (k : KernelCue) : (d.krun fam k).kc = d.kconst k.const.toNat := rfl

/-- One lane that holds a token, not padding, packs that token alone. -/
theorem Dev.krun_toks {k : KernelCue} {t : Tok} (hn : k.nlanes = 1) (hl : d.lane k.lane.toNat = some t) (hs : t.seg ≠ 65535) (fam : Nat) :
    (d.krun fam k).toks = [some t] := by
  simp [Dev.krun, Dev.packed, hn, hl, hs]

section
variable {z : KRun} {t : Tok} (hz : z.toks = [some t])
include hz

theorem KRun.present_of_toks : z.present = [t] := by simp [KRun.present, hz]
theorem KRun.steps_of_toks : z.steps = [t.step] := by simp [KRun.steps, KRun.present_of_toks hz]
theorem KRun.tokAt_of_toks : z.tokAt 0 = t := by simp [KRun.tokAt, hz]

/-- The only row has a result: it is written. -/
theorem Dev.rows_some {row : Dev → Nat → Tok → Dev × Option (List Res)} {d' : Dev} {vs : List Res} (h : row d 0 t = (d', some vs)) :
    d.rows z row = d'.outRes z 0 vs := by
  simp [Dev.rows, hz, h]

/-- The only row has none: that is the error of R153. -/
theorem Dev.rows_none {row : Dev → Nat → Tok → Dev × Option (List Res)} {d' : Dev} (h : row d 0 t = (d', none)) :
    d.rows z row = d'.engineError z 0x0402 [t.step] := by
  simp [Dev.rows, hz, h, KRun.steps_of_toks hz]

/-- The row of an operand in wings that the token's tenant may read. -/
theorem Dev.opRow_wings {o : KOperand} {p : Nat} (haz : d.hazActive = false) (hp : d.opAt z o (opSize o) 0 = some (true, p))
    (ha : d.refusedBank t.tenant false p (opSize o) = none) : d.opRow z o 0 = (d, rdN d.mem.wings p (opSize o)) := by
  rw [← KRun.tokAt_of_toks hz] at ha
  simp [Dev.opRow, hp, Dev.kRead, Dev.wingsRd_allowed haz ha]

/-- A matrix in wings that the token's tenant may read. -/
theorem Dev.opMatrix_wings {o : KOperand} {n p : Nat} (haz : d.hazActive = false) (hp : d.opAt z o 0 0 = some (true, p))
    (ha : d.refusedBank t.tenant false p (numBytes o.fmt n) = none) : d.opMatrix z o n = (d, rdN d.mem.wings p (numBytes o.fmt n)) := by
  rw [← KRun.tokAt_of_toks hz] at ha
  simp [Dev.opMatrix, hp, Dev.kRead, Dev.wingsRd_allowed haz ha]

/-- A row rounded to nearest goes to the wings as its encoded bytes. -/
theorem Dev.outRes_wings {p : Nat} (hs : z.k.stoch = false) (hp : d.opAt z z.k.op3 (opSize z.k.op3) 0 = some (true, p)) (vs : List Res) :
    d.outRes z 0 vs = d.wingsWr t p (encodeRow z.k.op3.fmt vs) z.slot z.num := by
  simp [Dev.outRes, hs, Dev.outRow, hp, Dev.kWrite, KRun.tokAt_of_toks hz]

end

/-! ## A kernel of one lane on wings operands -/

/-- The device once the kernel's thread runs; the family makes no difference to it. -/
abbrev Dev.threadRuns (d : Dev) (k : KernelCue) : Dev := d.runThread (d.krun 0 k)

/-- A kernel that is performed on one lane, with its vector and its output in wings, rounding to nearest, and without the detector. -/
structure OneLane (d : Dev) (k : KernelCue) (t : Tok) (p₀ p₃ : Nat) : Prop where
  cues : d.cues = true
  haz : (d.threadRuns k).hazActive = false
  noClear : k.clear = false
  nearest : k.stoch = false
  toks : ∀ fam, (d.krun fam k).toks = [some t]
  ready : d.opsOutstanding (d.krun 0 k) = none
  vec : (d.threadRuns k).opAt (d.krun 0 k) k.op0 (opSize k.op0) 0 = some (true, p₀)
  out : (d.threadRuns k).opAt (d.krun 0 k) k.op3 (opSize k.op3) 0 = some (true, p₃)
  vecAllowed : (d.threadRuns k).refusedBank t.tenant false p₀ (opSize k.op0) = none

/-- What a kernel whose row is r does: the row's bytes at p₃, or an error and the step discarded (R153); its thread is active. -/
def WritesRow (d₀ : Dev) (k : KernelCue) (t : Tok) (p₃ : Nat) (r : Option (List Res)) (d : Dev) : Prop :=
  let d₁ := d₀.threadRuns k
  (∀ vs, r = some vs → d₁.refusedBank t.tenant true p₃ (encodeRow k.op3.fmt vs).length = none →
    d = { d₁ with mem := { d₁.mem with wings := wrN d₁.mem.wings p₃ (encodeRow k.op3.fmt vs) } }) ∧
  (r = none → d.mem = d₁.mem ∧ d.err.nextSeq = d₁.err.nextSeq + 1 ∧ d.frm.lanesOf t.ex t.ey t.session = []) ∧
  d.eng = { d₀.eng with active := setIns d₀.eng.active (64 * k.engine.toNat + k.thread.toNat) }

/-- A device that performs cues is not in BLACKOUT. -/
theorem Dev.st_ne_blackout_of_cues (h : d.cues = true) : d.sys.st ≠ .blackout := by
  intro hb
  simp [Dev.cues, hb] at h

theorem Dev.threadRuns_eng (d : Dev) (k : KernelCue) :
    (d.threadRuns k).eng = { d.eng with active := setIns d.eng.active (64 * k.engine.toNat + k.thread.toNat) } :=
  (Dev.runThread_spec _).1

namespace OneLane
variable {k : KernelCue} {t : Tok} {p₀ p₃ : Nat} (h : OneLane d k t p₀ p₃)
include h

/-- The kernel comes to its family's run. -/
theorem kernel_eq (fam : Nat) (run : KRun → Dev → Dev) : d.kernel fam k run = run (d.krun fam k) (d.threadRuns k) := by
  have ready : d.opsOutstanding (d.krun fam k) = none := h.ready
  have thread : d.runThread (d.krun fam k) = d.threadRuns k := rfl
  simp [Dev.kernel, h.cues, KRun.present_of_toks (h.toks fam), ready, thread, h.noClear, orderBroken]

theorem st_threadRuns : (d.threadRuns k).sys.st ≠ .blackout := by
  rw [(Dev.runThread_spec _).2]
  exact Dev.st_ne_blackout_of_cues h.cues

/-- The vector's bytes as the run of any family reads them. -/
theorem opRow_vec (fam : Nat) : (d.threadRuns k).opRow (d.krun fam k) k.op0 0 =
    (d.threadRuns k, rdN (d.threadRuns k).mem.wings p₀ (opSize k.op0)) :=
  Dev.opRow_wings (h.toks fam) h.haz h.vec h.vecAllowed

/-- A family whose row function answers r, and changes nothing by itself, writes r. -/
theorem writesRow_rows (fam : Nat) {row : Dev → Nat → Tok → Dev × Option (List Res)} {r : Option (List Res)}
    (hr : row (d.threadRuns k) 0 t = (d.threadRuns k, r)) : WritesRow d k t p₃ r ((d.threadRuns k).rows (d.krun fam k) row) := by
  cases r with
  | none =>
    rw [Dev.rows_none (h.toks fam) hr]
    obtain ⟨hmem, heng, hseq⟩ := Dev.contain_spec (d.threadRuns k) _ [t.step] 1
    exact ⟨nofun, fun _ => ⟨hmem, hseq h.st_threadRuns, Dev.contain_lanesOf _ _ _ _⟩, heng.trans (d.threadRuns_eng k)⟩
  | some vs =>
    rw [Dev.rows_some (h.toks fam) hr, Dev.outRes_wings (h.toks fam) h.nearest h.out]
    refine ⟨?_, nofun, (Dev.wingsWr_eng ..).trans (d.threadRuns_eng k)⟩
    rintro _ ⟨⟩ allowed
    exact Dev.wingsWr_allowed h.haz allowed ..

/-! ## The families -/

/-- MATMUL: the product of the vector with the matrix at p₁. -/
theorem matmul_writes {p₁ : Nat} (hp : (d.threadRuns k).opAt (d.krun 0 k) k.op1 0 0 = some (true, p₁))
    (ha : (d.threadRuns k).refusedBank t.tenant false p₁ (numBytes k.op1.fmt (k.op0.elems.toNat * k.op3.elems.toNat)) = none) :
    WritesRow d k t p₃ (matRow k.op0.fmt k.op1.fmt (rdN (d.threadRuns k).mem.wings p₀ (opSize k.op0))
      (rdN (d.threadRuns k).mem.wings p₁ (numBytes k.op1.fmt (k.op0.elems.toNat * k.op3.elems.toNat))) k.op0.elems.toNat k.op3.elems.toNat)
      (d.kernel 0 k matmulRun) := by
  have matrix := Dev.opMatrix_wings (h.toks 0) h.haz hp ha
  rw [h.kernel_eq]
  simp only [matmulRun, Dev.krun_k, matrix]
  exact h.writesRow_rows 0 (by rw [h.opRow_vec])

/-- NORM: the normalised vector. -/
theorem norm_writes : WritesRow d k t p₃
    ((rowF32 k.op0.fmt (rdN (d.threadRuns k).mem.wings p₀ (opSize k.op0)) k.op0.elems.toNat).bind fun xs =>
      (normRow xs (d.krun 0 k).kc.gains (d.krun 0 k).kc.eps).map fun ys => ys.map resF32) (d.kernel 1 k normRun) := by
  rw [h.kernel_eq]
  simp only [normRun, Dev.krun_k]
  exact h.writesRow_rows 1 (by rw [h.opRow_vec]; simp [Option.map_eq_bind])

/-- ROTARY: the heads rotated by the token's position. -/
theorem rotary_writes : WritesRow d k t p₃
    ((rowF32 k.op0.fmt (rdN (d.threadRuns k).mem.wings p₀ (opSize k.op0)) k.op0.elems.toNat).bind fun xs =>
      ((List.range (ceilDiv xs.length (max 1 (d.krun 0 k).kc.dim))).mapM fun n =>
        rotaryHead (d.krun 0 k).kc.base (max 1 (d.krun 0 k).kc.dim) t.pos
          (slice xs (n * max 1 (d.krun 0 k).kc.dim) (max 1 (d.krun 0 k).kc.dim))).map fun hs => hs.flatten.map resF32)
    (d.kernel 2 k rotaryRun) := by
  rw [h.kernel_eq]
  simp only [rotaryRun, Dev.krun_k]
  exact h.writesRow_rows 2 (by rw [h.opRow_vec]; simp [Option.map_eq_bind])

/-- The attention kernels: attention over the entries of the visible positions. -/
theorem attn_writes (latent : Bool) (fam : Nat) {kv : KvDev} (hkv : (d.threadRuns k).ownKv = some kv)
    (hgood : ∀ n ∈ (d.threadRuns k).visible (d.krun 0 k) kv t, (d.threadRuns k).badPage kv t.session k.layer.toNat n false = none) :
    WritesRow d k t p₃ (attRow latent (d.krun 0 k).kc k.op0.fmt (rdN (d.threadRuns k).mem.wings p₀ (opSize k.op0))
      ((d.threadRuns k).kvEntries kv t.session k.layer.toNat ((d.threadRuns k).visible (d.krun 0 k) kv t)))
      (d.kernel fam k (attnRun latent)) := by
  have good : (((d.threadRuns k).visible (d.krun fam k) kv t).findSome? fun n =>
      (d.threadRuns k).badPage kv t.session k.layer.toNat n false) = none := List.findSome?_eq_none_iff.2 hgood
  rw [h.kernel_eq]
  simp only [attnRun, hkv, KRun.present_of_toks (h.toks fam), List.findSome?_cons, List.findSome?_nil, Dev.krun_k, good]
  exact h.writesRow_rows fam (by rw [h.opRow_vec]; rfl)

end OneLane

/-! ## Attention without keys (R160) -/

/-- A head without a visible key gives zeros. -/
theorem attHead_nil (w : Nat) : attHead w [] = some (List.replicate w 0) := rfl

@[simp] theorem f32Val_zero : f32Val 0 = 0 := by simp [f32Val, fpDec, fmtFp32, fld, bit]

/-- The result of +0 has magnitude 0 and no sign. -/
theorem resF32_zero : resF32 0 = ⟨false, 0⟩ := by simp [resF32, f32Neg, bit]

/-- Without visible keys every head's row is zeros. -/
theorem attRow_nil {latent : Bool} {kc : KConst} {f : NumFmt} {x : List Byte} {qs : List Rat}
    (h : rowAt f x (kc.heads * if latent then 320 else kc.dim) = some qs) :
    attRow latent kc f x [] = some (List.replicate (kc.heads * if latent then 256 else kc.dim) ⟨false, 0⟩) := by
  have heads (w : Nat) : (List.range kc.heads).mapM (fun _ => some (List.replicate w (0 : F32))) =
      some ((List.range kc.heads).map fun _ => List.replicate w 0) := List.mapM_pure
  simp only [attRow, h, List.mapM_nil, Option.pure_def, Option.bind_eq_bind, Option.bind_some, attHead_nil, heads,
    List.map_const', List.length_range, List.flatten_replicate_replicate, List.map_replicate, resF32_zero]

/-! ## The statement -/

/-- A well-formed cue whose effect gives a device with a property completes with it. -/
theorem State.givesWith_onCue {c : Instr} {s : State} {ok : Bool} {f : Dev → Dev} {p : Dev → Prop} (hok : ok = true)
    (hc : exec c s = s.onCue ok f) (hp : p (f s.dev)) : GivesWith c s p := ⟨f s.dev, by rw [hc, hok]; rfl, hp⟩

/-- Settles O36: each family's row function on the operand bytes, and the zeros of a head without keys. -/
theorem kernelsComputeTheirRow : Obligations.KernelsComputeTheirRow := by
  refine ⟨?_, attHead_nil, fun latent kc f x qs hq => ⟨_, attRow_nil hq, by simp, fun v hv => ?_⟩⟩
  case refine_2 =>
    obtain ⟨-, rfl⟩ := List.mem_replicate.1 hv
    exact ⟨rfl, rfl⟩
  intro s k t p₀ p₃ d₀ z d₁ wf cues haz one noClear nearest lane seg ready vec out vecAllowed x writes
  have h : OneLane d₀ k t p₀ p₃ :=
    ⟨cues, haz, noClear, nearest, Dev.krun_toks one lane seg, ready, vec, out, vecAllowed⟩
  refine ⟨fun p₁ hp ha => ?_, ?_, ?_, fun kv hkv hgood => ⟨?_, ?_⟩⟩
  · exact State.givesWith_onCue wf rfl (h.matmul_writes hp ha)
  · exact State.givesWith_onCue wf rfl h.norm_writes
  · exact State.givesWith_onCue wf rfl h.rotary_writes
  · exact State.givesWith_onCue wf rfl (h.attn_writes false 3 hkv hgood)
  · exact State.givesWith_onCue wf rfl (h.attn_writes true 4 hkv hgood)

end Sys2Proof.Machine
end

section
/-! PROOF. What keeps the security and firmware block. Only start-up, resets and rails (R449, R484, R489), the SEC registers (R463,
R476) and the signed requests (R457) write it; every other operation of the model keeps it. One rule per operation, after the file of
the model that defines it, callees first; then the same for commands, by the form of their arm. `simp -implicitDefEqProofs` stands where
many updates nest: the kernel then follows the rules instead of computing the device. -/
namespace Sys2Proof.Machine

@[simp] theorem Dev.ite_sec (c : Prop) [Decidable c] (a b : Dev) : (if c then a else b).sec = if c then a.sec else b.sec :=
  apply_ite Dev.sec c a b

@[simp] theorem Dev.fst_ite_sec {α : Type} (c : Prop) [Decidable c] (a b : Dev × α) :
    (if c then a else b).1.sec = if c then a.1.sec else b.1.sec := apply_ite (fun z : Dev × α => z.1.sec) c a b

@[simp] theorem Dev.foldl_sec {α : Type} {f : Dev → α → Dev} (h : ∀ d x, (f d x).sec = d.sec) (l : List α) (d : Dev) :
    (l.foldl f d).sec = d.sec := foldl_keeps (fun e => e.sec = d.sec) f (fun e x he => (h e x).trans he) l d rfl

@[simp] theorem Dev.foldl_fst_sec {α β : Type} {f : Dev × β → α → Dev × β} (h : ∀ z x, (f z x).1.sec = z.1.sec) (l : List α)
    (z : Dev × β) : (l.foldl f z).1.sec = z.1.sec := foldl_keeps (fun y => y.1.sec = z.1.sec) f (fun y x hy => (h y x).trans hy) l z rfl

section
variable (d : Dev)

/-! ## Vectors and device events -/

@[simp] theorem Dev.sendMsix_sec (v) : (d.sendMsix v).sec = d.sec := by simp [Dev.sendMsix]
@[simp] theorem Dev.fireVector_sec (v) : (d.fireVector v).sec = d.sec := by simp [Dev.fireVector]
@[simp] theorem Dev.event_sec (e) : (d.event e).sec = d.sec := by simp [Dev.event]
@[simp] theorem Dev.clearEvents_sec (bits) : (d.clearEvents bits).sec = d.sec := by simp [Dev.clearEvents]
@[simp] theorem Dev.settle_sec (before) : (Dev.settle before d).sec = d.sec := by simp [Dev.settle]
@[simp] theorem Dev.setSt_sec (st) : (d.setSt st).sec = d.sec := by simp [Dev.setSt]

/-! ## Device memory and session records -/

@[simp] theorem Dev.hbmWr_sec (a bs) : (d.hbmWr a bs).sec = d.sec := by simp [Dev.hbmWr]
@[simp] theorem Dev.setSes_sec (s off v) : (d.setSes s off v).sec = d.sec := by simp [Dev.setSes]
@[simp] theorem Dev.setSesF_sec (s off lo w x) : (d.setSesF s off lo w x).sec = d.sec := by simp [Dev.setSesF]
@[simp] theorem Dev.setSstate_sec (s v) : (d.setSstate s v).sec = d.sec := by simp [Dev.setSstate]
@[simp] theorem Dev.setKstate_sec (s v) : (d.setKstate s v).sec = d.sec := by simp [Dev.setKstate]
@[simp] theorem Dev.clearCalling_sec (s) : (d.clearCalling s).sec = d.sec := by simp [Dev.clearCalling]

/-! ## The error unit -/

@[simp] theorem Dev.ethSend_sec (bs) : (d.ethSend bs).sec = d.sec := by simp [Dev.ethSend]
@[simp] theorem Dev.record_sec (i action nested) : (d.record i action nested).sec = d.sec := by simp [Dev.record]
@[simp] theorem Dev.exactFail_sec (cause) : (d.exactFail cause).sec = d.sec := by unfold Dev.exactFail; split <;> simp
@[simp] theorem Dev.exactDiscard_sec (t) : (d.exactDiscard t).sec = d.sec := by unfold Dev.exactDiscard; split <;> simp
@[simp] theorem Dev.discardStep_sec (s cause) : (d.discardStep s cause).sec = d.sec := by simp [Dev.discardStep]
@[simp] theorem Dev.discardAll_sec (cause) : (d.discardAll cause).sec = d.sec := by simp [Dev.discardAll]
@[simp] theorem Dev.commitHistory_sec : d.commitHistory.sec = d.sec := by simp [Dev.commitHistory]
@[simp] theorem Dev.finishDrain_sec : d.finishDrain.sec = d.sec := by simp [Dev.finishDrain]
@[simp] theorem Dev.enterStruck_sec : d.enterStruck.sec = d.sec := by simp [Dev.enterStruck]
@[simp] theorem Dev.linkLoss_sec : d.linkLoss.sec = d.sec := by simp [Dev.linkLoss]
@[simp] theorem Dev.blackout_sec : d.blackout.sec = d.sec := by simp [Dev.blackout]
@[simp] theorem Dev.raise_sec (i) : (d.raise i).sec = d.sec := by unfold Dev.raise; (repeat' split) <;> simp [Dev.beginDrain, Dev.fatalHandling]
@[simp] theorem Dev.discardTok_sec (t cause) : (d.discardTok t cause).sec = d.sec := by simp [Dev.discardTok]
@[simp] theorem Dev.contain_sec (i touched cause) : (d.contain i touched cause).sec = d.sec := by simp [Dev.contain]
@[simp] theorem Dev.histEvent_sec (kind unit score threshold) : (d.histEvent kind unit score threshold).1.sec = d.sec := by simp [Dev.histEvent]
@[simp] theorem Dev.histPermanent_sec (kind unit) : (d.histPermanent kind unit).sec = d.sec := by simp [Dev.histPermanent]
@[simp] theorem Dev.calError_sec (cls) : (d.calError cls).sec = d.sec := by simp [Dev.calError]
@[simp] theorem Dev.calWrite_sec {f : Dev → Dev} (h : ∀ d, (f d).sec = d.sec) : (d.calWrite f).1.sec = d.sec := by simp [Dev.calWrite, h]

/-! ## Calls and their records -/

@[simp] theorem Dev.dmaCount_sec (n k) : (d.dmaCount n k).sec = d.sec := by simp [Dev.dmaCount]
@[simp] theorem Dev.callCount_sec (n) : (d.callCount n).sec = d.sec := by simp [Dev.callCount]
@[simp] theorem Dev.kvCount_sec (n k) : (d.kvCount n k).sec = d.sec := by simp [Dev.kvCount]
@[simp] theorem Dev.routeCount_sec (n k) : (d.routeCount n k).sec = d.sec := by simp [Dev.routeCount]
@[simp] theorem Dev.pinAdapter_sec (s n) : (d.pinAdapter s n).sec = d.sec := by simp [Dev.pinAdapter]
@[simp] theorem Dev.unpinAdapter_sec (s) : (d.unpinAdapter s).sec = d.sec := by simp [Dev.unpinAdapter]
@[simp] theorem Dev.writeRecord_sec (s accepted r) : (d.writeRecord s accepted r).sec = d.sec := by unfold Dev.writeRecord; (repeat' split) <;> simp
@[simp] theorem Dev.dropPairs_sec (x) : (d.dropPairs x).sec = d.sec := by simp [Dev.dropPairs]
@[simp] theorem Dev.closeCall_sec (s) : (d.closeCall s).sec = d.sec := by simp [Dev.closeCall]
@[simp] theorem Dev.moveHead_sec (s m) : (d.moveHead s m).sec = d.sec := by unfold Dev.moveHead; (repeat' split) <;> simp
@[simp] theorem Dev.endCall_sec (s st cause m) : (d.endCall s st cause m).sec = d.sec := by simp [Dev.endCall]
@[simp] theorem Dev.sessionFault_sec (s) : (d.sessionFault s).sec = d.sec := by simp [Dev.sessionFault]

/-! ## Adapter slots -/

@[simp] theorem callAdpLoad_sec (slot tenant) : (callAdpLoad slot tenant d).sec = d.sec := by simp -implicitDefEqProofs [callAdpLoad]
@[simp] theorem adapterLoadDone_sec : (adapterLoadDone d).sec = d.sec := by unfold adapterLoadDone; split <;> simp
@[simp] theorem retireReq_sec (slot) : (retireReq slot d).sec = d.sec := by simp [retireReq]
@[simp] theorem callAdpDirWrite_sec (entry slot valid) : (callAdpDirWrite entry slot valid d).sec = d.sec := by simp [callAdpDirWrite]

/-! ## Kafel links and control units -/

@[simp] theorem Dev.modLink_sec (n f) : (d.modLink n f).sec = d.sec := by simp [Dev.modLink]
@[simp] theorem Dev.meshCount_sec (link n) : (d.meshCount link n).sec = d.sec := by simp [Dev.meshCount]
@[simp] theorem Dev.sendUnit_sec (link u) : (d.sendUnit link u).sec = d.sec := by simp [Dev.sendUnit]
@[simp] theorem Dev.flood_sec (u) : (d.flood u).sec = d.sec := by simp [Dev.flood]
@[simp] theorem Dev.sendUp_sec (u) : (d.sendUp u).sec = d.sec := by unfold Dev.sendUp; split <;> simp
@[simp] theorem Dev.sendDown_sec (u) : (d.sendDown u).sec = d.sec := by simp [Dev.sendDown]

/-! ## Freeze and the hazard detector -/

@[simp] theorem Dev.applyHolds_sec : d.applyHolds.sec = d.sec := by simp [Dev.applyHolds]
@[simp] theorem Dev.engage_sec (cause t set) : (d.engage cause t set).sec = d.sec := by simp [Dev.engage]
@[simp] theorem Dev.release_sec (t clr) : (d.release t clr).sec = d.sec := by simp [Dev.release]
@[simp] theorem Dev.remoteFreeze_sec (u t) : (d.remoteFreeze u t).sec = d.sec := by simp [Dev.remoteFreeze]
@[simp] theorem Dev.remoteThaw_sec (u t) : (d.remoteThaw u t).sec = d.sec := by simp [Dev.remoteThaw]
@[simp] theorem Dev.tagWrite_sec (store keys cue) : (d.tagWrite store keys cue).sec = d.sec := by simp [Dev.tagWrite]
@[simp] theorem Dev.tagZeroing_sec : d.tagZeroing.sec = d.sec := by simp [Dev.tagZeroing]
@[simp] theorem Dev.hazard_sec (store reader slot found n toks) : (d.hazard store reader slot found n toks).sec = d.sec := by
  simp only [Dev.hazard]; split <;> simp
@[simp] theorem Dev.hazRead_sec (store keys reader slot toks operand) : (d.hazRead store keys reader slot toks operand).sec = d.sec := by
  unfold Dev.hazRead
  split
  · exact Dev.foldl_sec (fun d n => by split <;> simp) _ d
  · rfl

/-! ## Operands of cues -/

@[simp] theorem Dev.stallOn_sec (o slot) : (d.stallOn o slot).sec = d.sec := by simp [Dev.stallOn]
@[simp] theorem Dev.refuseWings_sec (bank slot cue t) : (d.refuseWings bank slot cue t).sec = d.sec := by simp [Dev.refuseWings]
@[simp] theorem Dev.wingsRd_sec (t a n slot cue operand) : (d.wingsRd t a n slot cue operand).1.sec = d.sec := by unfold Dev.wingsRd; split <;> simp
@[simp] theorem Dev.wingsWr_sec (t a bs slot cue) : (d.wingsWr t a bs slot cue).sec = d.sec := by unfold Dev.wingsWr; split <;> simp
@[simp] theorem Dev.useKeys_sec (keys step) : (d.useKeys keys step).sec = d.sec := by simp [Dev.useKeys]
@[simp] theorem Dev.rowsRd_sec (t keys slot cue operand) : (d.rowsRd t keys slot cue operand).1.sec = d.sec := by simp [Dev.rowsRd]
@[simp] theorem Dev.rowRd_sec (t tile row slot cue operand) : (d.rowRd t tile row slot cue operand).1.sec = d.sec := by simp [Dev.rowRd]
@[simp] theorem Dev.rowWr_sec (tile row bs tag slot cue) : (d.rowWr tile row bs tag slot cue).sec = d.sec := by simp [Dev.rowWr, Dev.keepRow]
@[simp] theorem Dev.vecRd_sec (t l f slot cue) : (d.vecRd t l f slot cue).1.sec = d.sec := by simp [Dev.vecRd]
@[simp] theorem Dev.vecWr_sec (t l f bs slot cue) : (d.vecWr t l f bs slot cue).sec = d.sec := by simp [Dev.vecWr]
@[simp] theorem Dev.tileError_sec (code tile pslot slot cue t) : (d.tileError code tile pslot slot cue t).sec = d.sec := by simp [Dev.tileError]
@[simp] theorem Dev.precFlag_sec (t bit) : (d.precFlag t bit).sec = d.sec := by simp [Dev.precFlag]
@[simp] theorem Dev.precCount_sec (tile n) : (d.precCount tile n).sec = d.sec := by simp [Dev.precCount]

/-! ## Accumulators and the precision modes -/

@[simp] theorem Dev.contribute_sec (c) : (d.contribute c).sec = d.sec := by simp [Dev.contribute]
@[simp] theorem Dev.unserved_sec (r) : (d.unserved r).sec = d.sec := by simp [Dev.unserved]
@[simp] theorem Dev.request_sec (r) : (d.request r).sec = d.sec := by simp only [Dev.request]; (repeat' split) <;> simp
@[simp] theorem Dev.clamped_sec (tile t) : (d.clamped tile t).sec = d.sec := by simp [Dev.clamped]

/-! ## Tile cues -/

@[simp] theorem Dev.modArr_sec (a f) : (d.modArr a f).sec = d.sec := by simp [Dev.modArr]
@[simp] theorem Dev.phase_sec (a range codes) : (d.phase a range codes).1.sec = d.sec := by simp [Dev.phase]
@[simp] theorem Dev.convert_sec (a range ps) : (d.convert a range ps).1.sec = d.sec := by
  induction ps generalizing d with
  | nil => rfl
  | cons p ps ih => simp [Dev.convert, ih]
@[simp] theorem Dev.capture_sec (a key range ps) : (d.capture a key range ps).sec = d.sec := by simp [Dev.capture]
@[simp] theorem Dev.evalTrouble_sec (tok i b ps slot lane again) : (d.evalTrouble tok i b ps slot lane again).sec = d.sec := by
  simp [Dev.evalTrouble, Dev.markReplay, Dev.learnTrouble]
@[simp] theorem Dev.evalContrib_sec (i kind slot ps) : (d.evalContrib i kind slot ps).sec = d.sec := by simp only [Dev.evalContrib]; split <;> simp
@[simp] theorem Dev.evalTok_sec (c tok) : (d.evalTok c tok).sec = d.sec := by simp only [Dev.evalTok]; split <;> simp [Dev.serveLane]
@[simp] theorem Dev.evalRun_sec (c) : (d.evalRun c).sec = d.sec := by unfold Dev.evalRun; split <;> simp
@[simp] theorem Dev.advance_sec (slot) : (d.advance slot).sec = d.sec := by simp [Dev.advance]
@[simp] theorem Dev.onTile_sec (tiles lane slot) {f : Tok → Dev → Dev} (h : ∀ t d, (f t d).sec = d.sec) :
    (d.onTile tiles lane slot f).sec = d.sec := by
  unfold Dev.onTile; (repeat' split) <;> simp [h]
@[simp] theorem Dev.drives_sec (tile slot n) : (d.drives tile slot n).sec = d.sec := by simp [Dev.drives]
@[simp] theorem eval_sec (c) : (eval c d).sec = d.sec := by unfold eval; split <;> simp
@[simp] theorem Dev.writeBlock_sec (tile dst dstLo f e oset rows slot cue) : (d.writeBlock tile dst dstLo f e oset rows slot cue).sec = d.sec := by
  unfold Dev.writeBlock; split <;> simp
@[simp] theorem Dev.countBlock_sec (tile b) : (d.countBlock tile b).sec = d.sec := by simp [Dev.countBlock]
@[simp] theorem Dev.requantise_sec (c tok l src) : (d.requantise c tok l src).sec = d.sec := by
  simp only [Dev.requantise]
  split <;> simp only [Dev.contain_sec, Dev.countBlock_sec, Dev.modTile_sec, Dev.writeBlock_sec]
@[simp] theorem requant_sec (c) : (requant c d).sec = d.sec := Dev.onTile_sec d _ _ _ fun t d => by dsimp only; (repeat' split) <;> simp
@[simp] theorem out_sec (c) : (out c d).sec = d.sec := Dev.onTile_sec d _ _ _ fun t d => by
  dsimp only
  split <;> simp only [Dev.stallOn_sec, Dev.vecWr_sec, Dev.modTile_sec]
@[simp] theorem forward_sec (slot lane tile dst landSlot) : (forward slot lane tile dst landSlot d).sec = d.sec :=
  Dev.onTile_sec d _ _ _ fun t d => by split <;> simp
@[simp] theorem hop_sec (c) : (hop c d).sec = d.sec := by simp [hop]
@[simp] theorem relay_sec (c) : (relay c d).sec = d.sec := by simp [relay]
@[simp] theorem move_sec (c) : (move c d).sec = d.sec := Dev.onTile_sec d _ _ _ fun t d => by dsimp only; split <;> simp

/-! ## Array work -/

@[simp] theorem Dev.progCount_sec (n) : (d.progCount n).sec = d.sec := by simp [Dev.progCount]
@[simp] theorem Dev.arrayError_sec (code cls a flagged row pattern spare verdict) :
    (d.arrayError code cls a flagged row pattern spare verdict).sec = d.sec := by
  simp [Dev.arrayError]
@[simp] theorem Dev.tileSuspect_sec (code tile slot) : (d.tileSuspect code tile slot).sec = d.sec := by simp [Dev.tileSuspect]
@[simp] theorem Dev.emptyServed_sec (key) : (d.emptyServed key).sec = d.sec := Dev.foldl_sec (fun d s => by split <;> simp) _ d
@[simp] theorem Dev.failPrincipal_sec (code a flagged row pattern) : (d.failPrincipal code a flagged row pattern).sec = d.sec := by
  simp [Dev.failPrincipal]
@[simp] theorem Dev.sampleVprog_sec (ok) : (d.sampleVprog ok).sec = d.sec := by simp [Dev.sampleVprog]
@[simp] theorem Dev.retire_sec (a) : (d.retire a).sec = d.sec := by simp [Dev.retire]
@[simp] theorem Dev.startProg_sec (a j) : (d.startProg a j).sec = d.sec := by simp [Dev.startProg]
@[simp] theorem Dev.measureOne_sec (a) : (d.measureOne a).sec = d.sec := by simp only [Dev.measureOne, Dev.modArr_sec, Dev.phase_sec]
@[simp] theorem Dev.startGains_sec (a) : (d.startGains a).sec = d.sec := by simp [Dev.startGains]
@[simp] theorem Dev.takeRole_sec (a slot) : (d.takeRole a slot).sec = d.sec := by simp [Dev.takeRole]
@[simp] theorem Dev.leaveRole_sec (a) : (d.leaveRole a).sec = d.sec := by simp [Dev.leaveRole]
@[simp] theorem Dev.swapRole_sec (a slot n) : (d.swapRole a slot n).sec = d.sec := Dev.calWrite_sec d fun d => by
  rw [Dev.commitHistory_sec]
  split <;> simp <;> split <;> simp
@[simp] theorem Dev.roleSwaps_sec : d.roleSwaps.sec = d.sec := Dev.foldl_sec (fun d e => by dsimp only; (repeat' split) <;> simp) _ d
@[simp] theorem Dev.ageFrame_sec (a len) : (d.ageFrame a len).sec = d.sec := by simp [Dev.ageFrame]
@[simp] theorem Dev.arraysBoundary_sec (len) : (d.arraysBoundary len).sec = d.sec := by simp [Dev.arraysBoundary, Dev.arrayBoundary]
@[simp] theorem Dev.agesEnd_sec (len) : (d.agesEnd len).sec = d.sec := by simp [Dev.agesEnd]
@[simp] theorem Dev.dropWeights_sec : d.dropWeights.sec = d.sec := by simp -implicitDefEqProofs [Dev.dropWeights]
@[simp] theorem Dev.wtFail_sec (cause) : (d.wtFail cause).sec = d.sec := by simp [Dev.wtFail]
@[simp] theorem Dev.wornOut_sec (a j) : (d.wornOut a j).sec = d.sec := by unfold Dev.wornOut; (repeat' split) <;> simp
@[simp] theorem refreshStart_sec (tile array vprogOk) : (refreshStart tile array vprogOk d).sec = d.sec := by unfold refreshStart; split <;> simp
@[simp] theorem Dev.pauseProg_sec (a) : (d.pauseProg a).sec = d.sec := by simp [Dev.pauseProg]
@[simp] theorem Dev.pauseOne_sec (flock) : (d.pauseOne flock).sec = d.sec := by simp only [Dev.pauseOne]; split <;> simp
@[simp] theorem Dev.makePlace_sec (flock) : (d.makePlace flock).sec = d.sec := by simp [Dev.makePlace]
@[simp] theorem replacementStart_sec (tile array vprogOk) : (replacementStart tile array vprogOk d).sec = d.sec := by
  unfold replacementStart; (repeat' split) <;> simp [Dev.refreshReplaces]
@[simp] theorem Dev.startWaiting_sec (a j) : (d.startWaiting a j).sec = d.sec := by simp only [Dev.startWaiting]; (repeat' split) <;> simp
@[simp] theorem Dev.resumePaused_sec : d.resumePaused.sec = d.sec := Dev.foldl_sec (fun d a => by dsimp only; (repeat' split) <;> simp) _ d
@[simp] theorem Dev.progVerified_sec (a key) : (d.progVerified a key).sec = d.sec := by simp [Dev.progVerified, Dev.measureAll]
@[simp] theorem Dev.progDone_sec (a j) : (d.progDone a j).sec = d.sec := by unfold Dev.progDone; split <;> simp [Dev.loadVerified]
@[simp] theorem Dev.noSpare_sec (a row j) : (d.noSpare a row j).sec = d.sec := by simp only [Dev.noSpare]; (repeat' split) <;> simp
@[simp] theorem arrayProgramDone_sec (tile array rows) : (arrayProgramDone tile array rows d).sec = d.sec := by
  simp only [arrayProgramDone]; (repeat' split) <;> simp [Dev.rowFailed]
@[simp] theorem arrayResetDone_sec (tile array ok) : (arrayResetDone tile array ok d).sec = d.sec := by simp [arrayResetDone]
@[simp] theorem trackStale_sec (tile array) : (trackStale tile array d).sec = d.sec := by simp [trackStale]
@[simp] theorem overdue_sec (tile array) : (overdue tile array d).sec = d.sec := by simp [overdue]
@[simp] theorem tileProgClr_sec : (tileProgClr d).sec = d.sec := by simp [tileProgClr]

/-! ## KV pages -/

theorem Dev.allocPage_sec {k i} {r : Nat × Dev} (h : d.allocPage k i = some r) : r.2.sec = d.sec := by
  simp only [Dev.allocPage] at h
  split at h
  · obtain rfl := Option.some.inj h; rfl
  · cases h
@[simp] theorem Dev.setEntry_sec (k idx s i p) : (d.setEntry k idx s i p).sec = d.sec := by
  unfold Dev.setEntry
  dsimp only
  split
  · simp
  · split
    case h_1 ha => simpa using Dev.allocPage_sec d ha
    case h_2 => rfl
theorem Dev.growTo_sec {k i n c e} (h : d.growTo k i n c = some e) : e.sec = d.sec := by
  simp only [Dev.growTo] at h
  split at h
  · obtain rfl := Option.some.inj h; rfl
  · split at h
    · cases h
    · obtain rfl := Option.some.inj h
      simp only [Dev.setSes_sec]
      refine Dev.foldl_sec (fun d j => ?_) _ d
      split
      case h_1 ha => simpa using Dev.allocPage_sec d ha
      case h_2 => rfl
@[simp] theorem Dev.releaseKv_sec (k s) : (d.releaseKv k s).sec = d.sec := by simp [Dev.releaseKv, Dev.dropPage]
@[simp] theorem Dev.debit_sec (s n anew) : (d.debit s n anew).sec = d.sec := by simp -implicitDefEqProofs [Dev.debit]
@[simp] theorem Dev.takeFree_sec (late m) : (d.takeFree late m).sec = d.sec := by simp [Dev.takeFree]
@[simp] theorem Dev.kvEmit_sec (dst op m) : (d.kvEmit dst op m).sec = d.sec := by simp [Dev.kvEmit]
@[simp] theorem Dev.kvSend_sec (dst op m) : (d.kvSend dst op m).sec = d.sec := by simp [Dev.kvSend]
@[simp] theorem Dev.laneOpen_sec : d.laneOpen.sec = d.sec := by simp [Dev.laneOpen]
@[simp] theorem Dev.laneFree_sec : d.laneFree.sec = d.sec := by unfold Dev.laneFree; split <;> simp
@[simp] theorem Dev.toOwners_sec (op m) : (d.toOwners op m).sec = d.sec := by simp [Dev.toOwners]
@[simp] theorem Dev.kvReply_sec (m op cause) : (d.kvReply m op cause).sec = d.sec := by simp [Dev.kvReply]
@[simp] theorem Dev.releaseSession_sec (s) : (d.releaseSession s).sec = d.sec := by simp [Dev.releaseSession]

/-! ## KV messages and commands -/

@[simp] theorem Dev.onOwner_sec (m) {f : KvDev → Nat → Dev → Dev} (h : ∀ k i d, (f k i d).sec = d.sec) : (d.onOwner m f).sec = d.sec := by
  unfold Dev.onOwner; (repeat' split) <;> simp [h]
@[simp] theorem Dev.kvNotice_sec (k s op pos) : (d.kvNotice k s op pos).sec = d.sec := by unfold Dev.kvNotice; split <;> simp
@[simp] theorem Dev.kvPageBad_sec (p e) : (d.kvPageBad p e).sec = d.sec := by unfold Dev.kvPageBad; split <;> simp
@[simp] theorem Dev.readPages_sec (ps) : (d.readPages ps).1.sec = d.sec := by simp [Dev.readPages]
@[simp] theorem Dev.muleFailed_sec : d.muleFailed.sec = d.sec := by simp [Dev.muleFailed]
@[simp] theorem Dev.mirrorBack_sec (m) : (d.mirrorBack m).sec = d.sec := by simp [Dev.mirrorBack]
@[simp] theorem swapOut_sec (m) : (swapOut m d).sec = d.sec := by
  refine Dev.onOwner_sec d m fun k i d => ?_
  dsimp only
  split
  · simp
  · split
    · simp
    · split
      · simp
      · split
        · simp
        · rw [Dev.modKv_sec, Dev.emit_sec, Dev.dmaCount_sec, Dev.foldl_sec (fun d p => by rfl)]
          simp
@[simp] theorem swapOutWritten_sec (s ok) : (swapOutWritten s ok d).sec = d.sec := by unfold swapOutWritten; split <;> simp
@[simp] theorem swapIn_sec (m) : (swapIn m d).sec = d.sec := by
  refine Dev.onOwner_sec d m fun k i d => ?_
  dsimp only
  split
  · simp
  · split
    · simp
    · split
      case h_1 => simp
      case h_2 hg =>
        split
        · simpa using Dev.growTo_sec d hg
        · rw [Dev.modKv_sec, Dev.foldl_sec (fun d j => by rfl), Dev.setKstate_sec]
          exact Dev.growTo_sec d hg
@[simp] theorem Dev.loadPage_sec (s p) : (d.loadPage s p).sec = d.sec := by unfold Dev.loadPage; split <;> simp
@[simp] theorem swapInLoaded_sec (s ok pages) : (swapInLoaded s ok pages d).sec = d.sec := by unfold swapInLoaded; split <;> simp
@[simp] theorem kvCommit_sec (m) : (kvCommit m d).sec = d.sec := by simp [kvCommit]
@[simp] theorem kvKeep_sec (m) : (kvKeep m d).sec = d.sec := by simp [kvKeep]
@[simp] theorem kvRelease_sec (m) : (kvRelease m d).sec = d.sec := by simp [kvRelease]
@[simp] theorem kvResume_sec (m) : (kvResume m d).sec = d.sec := by simp [kvResume]
@[simp] theorem kvFork_sec (m) : (kvFork m d).sec = d.sec := by
  refine Dev.onOwner_sec d m fun k i d => ?_
  dsimp only
  split
  · simp
  · split
    · simp
    · split
      · simp
      · simp only [Dev.kvReply_sec, Dev.setKstate_sec, Dev.setSes_sec]
        refine (Dev.foldl_sec (fun d j => ?_) _ _).trans ((Dev.foldl_sec (fun d e => by simp) _ _).trans (Dev.readPages_sec ..))
        split
        case h_1 ha => simpa using Dev.allocPage_sec d ha
        case h_2 => rfl
@[simp] theorem pageZeroDone_sec (p) : (pageZeroDone p d).sec = d.sec := by simp [pageZeroDone]
@[simp] theorem Dev.mirrorStop_sec (k s) : (d.mirrorStop k s).sec = d.sec := by simp [Dev.mirrorStop]
@[simp] theorem mirrorConfirm_sec (s upTo ok) : (mirrorConfirm s upTo ok d).sec = d.sec := by unfold mirrorConfirm; split <;> simp
@[simp] theorem Dev.onReply_sec (m) {f : Nat → Dev → Dev} (h : ∀ i d, (f i d).sec = d.sec) : (d.onReply m f).sec = d.sec := by
  simp [Dev.onReply, h]
@[simp] theorem kvWritten_sec (m) : (kvWritten m d).sec = d.sec := by simp [kvWritten]
@[simp] theorem kvLoaded_sec (m) : (kvLoaded m d).sec = d.sec := by simp [kvLoaded]
@[simp] theorem kvFailed_sec (m) : (kvFailed m d).sec = d.sec := by simp -implicitDefEqProofs [kvFailed]
@[simp] theorem kvReleased_sec (m) : (kvReleased m d).sec = d.sec := by simp -implicitDefEqProofs [kvReleased]
@[simp] theorem kvForked_sec (m) : (kvForked m d).sec = d.sec := by simp -implicitDefEqProofs [kvForked]
@[simp] theorem kvSessionFault_sec (m) : (kvSessionFault m d).sec = d.sec := by simp [kvSessionFault]
@[simp] theorem kvMirrorLost_sec (m) : (kvMirrorLost m d).sec = d.sec := by simp [kvMirrorLost]
@[simp] theorem kvMirrored_sec (m) : (kvMirrored m d).sec = d.sec := by simp -implicitDefEqProofs [kvMirrored]
@[simp] theorem kvFree_sec (m) : (kvFree m d).sec = d.sec := by simp [kvFree]
@[simp] theorem kvReserved_sec : (kvReserved d).sec = d.sec := by simp [kvReserved]
@[simp] theorem Dev.kvDone_sec (cause) : (d.kvDone cause).sec = d.sec := by simp [Dev.kvDone]
@[simp] theorem Dev.swapOutStart_sec (s host) : (d.swapOutStart s host).sec = d.sec := by simp -implicitDefEqProofs [Dev.swapOutStart]
@[simp] theorem Dev.swapInTry_sec (s) : (d.swapInTry s).sec = d.sec := by simp [Dev.swapInTry]
@[simp] theorem Dev.wantSwapIn_sec (s host) : (d.wantSwapIn s host).sec = d.sec := by simp [Dev.wantSwapIn]
@[simp] theorem Dev.forkDone_sec (j) : (d.forkDone j).sec = d.sec := by unfold Dev.forkDone; split <;> simp
@[simp] theorem Dev.jobStart_sec (j) : (d.jobStart j).sec = d.sec := by
  simp only [Dev.jobStart]
  split <;> simp -implicitDefEqProofs
@[simp] theorem Dev.swapsEnd_sec : d.swapsEnd.sec = d.sec := by simp [Dev.swapsEnd, Dev.greenRoomError, Dev.swapDone]
@[simp] theorem Dev.kvScan_sec : d.kvScan.sec = d.sec := by unfold Dev.kvScan; split <;> simp
@[simp] theorem Dev.preempt_sec : d.preempt.sec = d.sec := by simp [Dev.preempt]
@[simp] theorem Dev.drainScan_sec : d.drainScan.sec = d.sec := by simp [Dev.drainScan]
@[simp] theorem Dev.kvCommand_sec (op session) : (d.kvCommand op session).sec = d.sec := by simp only [Dev.kvCommand]; (repeat' split) <;> simp
@[simp] theorem callKvClr_sec : (callKvClr d).sec = d.sec := by simp [callKvClr]

/-! ## The callboard's scan -/

@[simp] theorem Dev.ringLost_sec (s cw) : (d.ringLost s cw).sec = d.sec := by unfold Dev.ringLost; split <;> simp
@[simp] theorem Dev.sessionMemBad_sec (cw e) : (d.sessionMemBad cw e).sec = d.sec := by
  simp only [Dev.sessionMemBad]; (repeat' split) <;> simp [Dev.rebuildBitmap]
@[simp] theorem Dev.emptySession_sec (s) : (d.emptySession s).sec = d.sec := by
  simp only [Dev.emptySession, Dev.ite_sec, Dev.modCall_sec, Dev.modKv_sec, Dev.kvDone_sec, Dev.hbmWr_sec, Dev.releaseSession_sec, Dev.endCall_sec,
    ite_self]
@[simp] theorem Dev.initSession_sec (s) : (d.initSession s).sec = d.sec := by
  unfold Dev.initSession
  extract_lets k e1 e2 e3 e4 e5
  have h3 : e3.sec = d.sec := by rw [Dev.modCall_sec, Dev.setSes_sec, Dev.setSes_sec, Dev.setSstate_sec, Dev.hbmWr_sec]
  clear_value e3
  (repeat' split) <;> simp [e5, e4, h3]
@[simp] theorem Dev.readBitmap_sec (f) : (d.readBitmap f).sec = d.sec := by simp [Dev.readBitmap, Dev.examine]
@[simp] theorem Dev.accept_sec (s) : (d.accept s).sec = d.sec := by simp -implicitDefEqProofs [Dev.accept]
@[simp] theorem Dev.tryAccept_sec (s vocab) : (d.tryAccept s vocab).1.sec = d.sec := by
  unfold Dev.tryAccept
  extract_lets e stop
  have he : e.sec = d.sec := by simp [e]
  have hs (x : Dev) : (stop x).1.sec = x.sec := by rfl
  clear_value e stop
  (repeat' split) <;> simp [hs, he]
@[simp] theorem Dev.cacheSlot_sec (s) : (d.cacheSlot s).1.sec = d.sec := by
  simp -implicitDefEqProofs only [Dev.cacheSlot]
  (repeat' split) <;> simp -implicitDefEqProofs
@[simp] theorem Dev.enterChunk_sec (x j) : (d.enterChunk x j).sec = d.sec := by simp only [Dev.enterChunk]; split <;> simp
@[simp] theorem Dev.chunksEnter_sec : d.chunksEnter.sec = d.sec := by simp [Dev.chunksEnter]
@[simp] theorem Dev.admitted_sec (x cl admitted) : (d.admitted x cl admitted).sec = d.sec := by simp [Dev.admitted]
@[simp] theorem ScanSt.ite_sec (c : Prop) [Decidable c] (a b : ScanSt) : (if c then a else b).dev.sec = if c then a.dev.sec else b.dev.sec :=
  apply_ite (fun z : ScanSt => z.dev.sec) c a b
@[simp] theorem ScanSt.tryAdmit_sec (z : ScanSt) (c) : (z.tryAdmit c).dev.sec = z.dev.sec := by
  simp only [ScanSt.tryAdmit]; (repeat' split) <;> simp
/-- A candidate's check accepts its session first where no call holds it, then picks a slot. -/
@[simp] theorem ScanSt.check_sec (v) (z : ScanSt) (c) : (z.check v c).dev.sec = z.dev.sec := by
  have accepted : (if (sget z.dev.call.calls c.session).isSome then (z.dev, true) else z.dev.tryAccept c.session v).1.sec = z.dev.sec := by simp
  revert accepted
  simp only [ScanSt.check]
  generalize (if (sget z.dev.call.calls c.session).isSome then (z.dev, true) else z.dev.tryAccept c.session v) = p
  generalize (if !(sget z.dev.call.calls c.session).isSome && bit (p.1.held c.session 0) 14 then
    p.1.adapterFor (fld (p.1.held c.session 0) 24 8) (fld (p.1.held c.session 0) 4 4) else some 0) = slot
  intro accepted
  cases slot <;> simp [accepted]
@[simp] theorem Dev.admission_sec : d.admission.sec = d.sec := by
  unfold Dev.admission
  (repeat' split) <;> simp
  exact foldl_keeps (fun z : ScanSt => z.dev.sec = d.sec) _ (fun z c h => (ScanSt.check_sec _ z c).trans h) _ _ rfl

/-! ## Step completion -/

@[simp] theorem Dev.learnStep_sec (marked) : (d.learnStep marked).sec = d.sec := by simp [Dev.learnStep]
@[simp] theorem Dev.sessionAfter_sec (x) : (d.sessionAfter x).sec = d.sec := by unfold Dev.sessionAfter; split <;> simp
@[simp] theorem Dev.replayStep_sec (x) : (d.replayStep x).sec = d.sec := by simp [Dev.replayStep]
@[simp] theorem Dev.endStep_sec (x st cause) : (d.endStep x st cause).sec = d.sec := by simp [Dev.endStep, Dev.claimBack]
@[simp] theorem stepComplete_sec (s t) : (stepComplete s t d).sec = d.sec := by
  simp only [stepComplete]; split <;> simp [Dev.setWindow, Dev.adaptK, Dev.completeOk]
@[simp] theorem Dev.mirrorRetry_sec : d.mirrorRetry.sec = d.sec := by simp [Dev.mirrorRetry]
@[simp] theorem Dev.flushDiscards_sec : d.flushDiscards.sec = d.sec := Dev.foldl_sec (fun d x => by split <;> simp) _ _
@[simp] theorem Dev.scan_sec : d.scan.sec = d.sec := by simp [Dev.scan]

/-! ## Frames that stop, unload, park and drain -/

@[simp] theorem Dev.aggregate_sec : d.aggregate.sec = d.sec := by simp [Dev.aggregate]
@[simp] theorem Dev.endStall_sec (st slot) : (d.endStall st slot).sec = d.sec := by simp [Dev.endStall, Dev.lateSlots]
@[simp] theorem Dev.cutStall_sec (len) : (d.cutStall len).sec = d.sec := by unfold Dev.cutStall; split <;> simp
@[simp] theorem Dev.workEnd_sec : d.workEnd.sec = d.sec := by simp [Dev.workEnd]
@[simp] theorem Dev.frameOver_sec (len) : (d.frameOver len).sec = d.sec := by simp [Dev.frameOver]
@[simp] theorem Dev.endFrames_sec (len) : (d.endFrames len).sec = d.sec := by simp [Dev.endFrames]
@[simp] theorem Dev.clearScript_sec : d.clearScript.sec = d.sec := by simp -implicitDefEqProofs [Dev.clearScript]
@[simp] theorem Dev.unloadScript_sec : d.unloadScript.sec = d.sec := by simp [Dev.unloadScript, Dev.resetSessions]
@[simp] theorem Dev.pauseSoft_sec (all) : (d.pauseSoft all).sec = d.sec := by simp [Dev.pauseSoft]
@[simp] theorem Dev.idleLanes_sec (idle) : (d.idleLanes idle).sec = d.sec := by simp [Dev.idleLanes]
@[simp] theorem Dev.enterParked_sec (herd) : (d.enterParked herd).sec = d.sec := by simp [Dev.enterParked]
@[simp] theorem Dev.unpark_sec : d.unpark.sec = d.sec := by simp [Dev.unpark]
@[simp] theorem Dev.leavePower_sec : d.leavePower.sec = d.sec := by simp [Dev.leavePower]
@[simp] theorem Dev.wakeEvent_sec : d.wakeEvent.sec = d.sec := by simp [Dev.wakeEvent]
@[simp] theorem Dev.beginCurtain_sec : d.beginCurtain.sec = d.sec := by simp -implicitDefEqProofs [Dev.beginCurtain]
@[simp] theorem Dev.beginDrainKind_sec (k) : (d.beginDrainKind k).sec = d.sec := by unfold Dev.beginDrainKind; split <;> simp
@[simp] theorem Dev.drainEnd_sec (k) : (d.drainEnd k).sec = d.sec := by unfold Dev.drainEnd; split <;> simp
@[simp] theorem Dev.beginDiscovery_sec : d.beginDiscovery.sec = d.sec := by
  simp [Dev.beginDiscovery, Dev.dropRemote, Dev.leaveFrames, Dev.trainLinks]
@[simp] theorem Dev.floodRediscover_sec : d.floodRediscover.sec = d.sec := by simp [Dev.floodRediscover]

/-! ## Temperature, supply and housekeeping -/

@[simp] theorem Dev.applyBands_sec : d.applyBands.sec = d.sec := by simp [Dev.applyBands]
@[simp] theorem bandReading_sec (temps) : (bandReading temps d).sec = d.sec := by simp [bandReading]
@[simp] theorem Dev.thermalRecord_sec (threshold) : (d.thermalRecord threshold).sec = d.sec := by simp [Dev.thermalRecord]
@[simp] theorem Dev.warnUpdate_sec : d.warnUpdate.sec = d.sec := by unfold Dev.warnUpdate; split <;> simp
@[simp] theorem Dev.throttleUpdate_sec (t) : (d.throttleUpdate t).sec = d.sec := by unfold Dev.throttleUpdate; (repeat' split) <;> simp
@[simp] theorem monitorCycle_sec (m t) : (monitorCycle m t d).sec = d.sec := by
  simp only [monitorCycle]
  split
  · rfl
  · rw [Dev.foldl_sec]
    · simp only [Dev.throttleUpdate_sec, Dev.warnUpdate_sec, Dev.useFree_sec, Dev.modThm_sec, Dev.modHkc_sec, Dev.clock_sec]
    · intro d r
      split <;> simp
@[simp] theorem hkcStart_sec (n urg) : (hkcStart n urg d).sec = d.sec := by simp [hkcStart]
@[simp] theorem hkcUrgent_sec (n urg) : (hkcUrgent n urg d).sec = d.sec := by simp [hkcUrgent]
@[simp] theorem hkcRefWrite_sec (sel) : (hkcRefWrite sel d).sec = d.sec := by simp [hkcRefWrite]
@[simp] theorem hostBurstDone_sec (b) : (hostBurstDone b d).sec = d.sec := by simp [hostBurstDone]
@[simp] theorem urgentDone_sec (b) : (urgentDone b d).sec = d.sec := by simp [urgentDone]
@[simp] theorem refSettled_sec : (refSettled d).sec = d.sec := by simp [refSettled]
@[simp] theorem avsPoll_sec (mv amps t) : (avsPoll mv amps t d).sec = d.sec := by simp [avsPoll]
@[simp] theorem avsReadback_sec (mv) : (avsReadback mv d).sec = d.sec := by simp [avsReadback]
@[simp] theorem thermCntClr_sec : (thermCntClr d).sec = d.sec := by simp [thermCntClr]
@[simp] theorem Dev.stopCore_sec : d.stopCore.sec = d.sec := by simp [Dev.stopCore]
@[simp] theorem thermalTrip_sec (diode fault t) : (thermalTrip diode fault t d).sec = d.sec := by simp -implicitDefEqProofs [thermalTrip]

/-! ## Set point, pins and fatal sources -/

@[simp] theorem Dev.avsStep_sec (goal n cur) : (d.avsStep goal n cur).1.sec = d.sec := by
  induction n generalizing d cur with
  | zero => rfl
  | succ n ih => simp -implicitDefEqProofs [Dev.avsStep, ih]
@[simp] theorem Dev.setPoint_sec (ok) : (d.setPoint ok).sec = d.sec := by
  unfold Dev.setPoint
  dsimp only
  (repeat' split) <;> simp only [Dev.modThm_sec, Dev.avsStep_sec]
@[simp] theorem Dev.aonUp_sec : d.aonUp.sec = d.sec := by simp [Dev.aonUp]
@[simp] theorem Dev.hostDown_sec : d.hostDown.sec = d.sec := by simp [Dev.hostDown]
@[simp] theorem perstNAssert_sec (lowNs) : (perstNAssert lowNs d).sec = d.sec := by simp [perstNAssert, Dev.cxlReset]
@[simp] theorem perstNRelease_sec : (perstNRelease d).sec = d.sec := by simp [perstNRelease]
@[simp] theorem bypassNChange_sec (asserted stableNs) : (bypassNChange asserted stableNs d).sec = d.sec := by simp [bypassNChange]
@[simp] theorem Dev.fatalSource_sec (on code kind w) : (d.fatalSource on code kind w).sec = d.sec := by simp [Dev.fatalSource]
@[simp] theorem coreClockLockLost_sec (w) : (coreClockLockLost w d).sec = d.sec := by simp [coreClockLockLost]
@[simp] theorem smWatchdogExpiry_sec (w) : (smWatchdogExpiry w d).sec = d.sec := by simp [smWatchdogExpiry]
@[simp] theorem boSelfCheckFail_sec (w) : (boSelfCheckFail w d).sec = d.sec := by simp [boSelfCheckFail]
@[simp] theorem containmentTimeout_sec (w) : (containmentTimeout w d).sec = d.sec := by simp [containmentTimeout]
@[simp] theorem coreMemoryUncorrectable_sec (boxOffice w) : (coreMemoryUncorrectable boxOffice w d).sec = d.sec := by simp [coreMemoryUncorrectable]
@[simp] theorem calibrationRereadFail_sec (w) : (calibrationRereadFail w d).sec = d.sec := by simp [calibrationRereadFail]
@[simp] theorem errorUnitSelfCheckFail_sec (w) : (errorUnitSelfCheckFail w d).sec = d.sec := by simp [errorUnitSelfCheckFail]

/-! ## Lanes and links -/

@[simp] theorem Dev.sendEcho_sec (link) : (d.sendEcho link).sec = d.sec := by simp [Dev.sendEcho]
@[simp] theorem Dev.parentCheck_sec (before) : (Dev.parentCheck before d).sec = d.sec := by unfold Dev.parentCheck; split <;> simp
@[simp] theorem Dev.bundlesCheck_sec (before bundles) : (Dev.bundlesCheck before d bundles).sec = d.sec := by simp [Dev.bundlesCheck]
@[simp] theorem Dev.bundleCheck_sec (before link) : (Dev.bundleCheck before d link).sec = d.sec := by simp [Dev.bundleCheck]
@[simp] theorem Dev.laneDrop_sec (link lane t mask corrected) : (d.laneDrop link lane t mask corrected).sec = d.sec := by simp [Dev.laneDrop]
@[simp] theorem laneLockLost_sec (link lane t) : (laneLockLost link lane t d).sec = d.sec := by simp [laneLockLost]
@[simp] theorem laneErrorDrop_sec (link lane corrected t) : (laneErrorDrop link lane corrected t d).sec = d.sec := by simp [laneErrorDrop]
@[simp] theorem laneRetry_sec (link lane trained t) : (laneRetry link lane trained t d).sec = d.sec := by simp [laneRetry]
@[simp] theorem meshLaneRetry_sec : (meshLaneRetry d).sec = d.sec := by simp [meshLaneRetry]
@[simp] theorem laneUnit_sec (link u) : (laneUnit link u d).sec = d.sec := by simp [laneUnit, Dev.wakeShort]
@[simp] theorem laneIdle_sec (link idle) : (laneIdle link idle d).sec = d.sec := by simp [laneIdle]
@[simp] theorem laneRealigned_sec (link) : (laneRealigned link d).sec = d.sec := by simp [laneRealigned]
@[simp] theorem Dev.linkOff_sec (link st) : (d.linkOff link st).sec = d.sec := by simp [Dev.linkOff]
@[simp] theorem linkRetrainDone_sec (link lanes) : (linkRetrainDone link lanes d).sec = d.sec := by simp [linkRetrainDone]
@[simp] theorem Dev.switchMasks_sec (num) : (d.switchMasks num).sec = d.sec := by simp [Dev.switchMasks]
@[simp] theorem Dev.newStreams_sec : d.newStreams.sec = d.sec := by simp [Dev.newStreams]
@[simp] theorem meshCntClr_sec : (meshCntClr d).sec = d.sec := by simp [meshCntClr]

/-! ## Memory errors -/

@[simp] theorem Dev.commonLine_sec (bank loc) : (d.commonLine bank loc).sec = d.sec := by simp -implicitDefEqProofs [Dev.commonLine]
@[simp] theorem Dev.mapOne_sec (e) : (d.mapOne e).1.sec = d.sec := by simp -implicitDefEqProofs [Dev.mapOne]
@[simp] theorem Dev.mapOuts_sec (now) : (d.mapOuts now).sec = d.sec := by simp [Dev.mapOuts]
@[simp] theorem Dev.mapOut_sec (store unit loc) : (d.mapOut store unit loc).sec = d.sec := by simp [Dev.mapOut, Dev.hbmRowOut]
@[simp] theorem Dev.sramBad_sec (store unit loc syms verdict) : (d.sramBad store unit loc syms verdict).sec = d.sec := by
  unfold Dev.sramBad; split <;> simp [Dev.loseKey]
@[simp] theorem Dev.hbmBad_sec (cw syms slot cue toks verdict) : (d.hbmBad cw syms slot cue toks verdict).1.sec = d.sec := by
  simp only [Dev.hbmBad]; (repeat' split) <;> simp
@[simp] theorem Dev.readCw_sec (store unit loc found scrub slot cue toks) : (d.readCw store unit loc found scrub slot cue toks).1.sec = d.sec := by
  simp only [Dev.readCw]; split <;> simp [Dev.locEvent]
@[simp] theorem scrubRead_sec (store unit loc found) : (scrubRead store unit loc found d).sec = d.sec := by simp [scrubRead]
@[simp] theorem locationReread_sec (store unit loc same) : (locationReread store unit loc same d).sec = d.sec := by simp [locationReread]
@[simp] theorem errMemClr_sec : (errMemClr d).sec = d.sec := by simp [errMemClr]
@[simp] theorem Dev.reloadImage_sec : d.reloadImage.sec = d.sec := by unfold Dev.reloadImage; split <;> simp
@[simp] theorem Dev.memBoundary_sec : d.memBoundary.sec = d.sec := by simp [Dev.memBoundary, Dev.restorePrompters, Dev.missedMerges]

/-! ## Frames -/

@[simp] theorem Dev.overrun_sec (len) : (d.overrun len).sec = d.sec := by simp only [Dev.overrun]; (repeat' split) <;> simp
@[simp] theorem Dev.closeFrame_sec (start abort) : (d.closeFrame start abort).sec = d.sec := by simp [Dev.closeFrame]
@[simp] theorem Dev.bandsBoundary_sec : d.bandsBoundary.sec = d.sec := by simp [Dev.bandsBoundary]
@[simp] theorem Dev.modeBoundary_sec : d.modeBoundary.sec = d.sec := by simp [Dev.modeBoundary]
@[simp] theorem Dev.raiseCurtain_sec : d.raiseCurtain.sec = d.sec := by simp only [Dev.raiseCurtain]; (repeat' split) <;> simp
@[simp] theorem Dev.nameDrain_sec (num) : (d.nameDrain num).sec = d.sec := by unfold Dev.nameDrain; (repeat' split) <;> simp
@[simp] theorem Dev.nameRaise_sec (num) : (d.nameRaise num).sec = d.sec := by simp [Dev.nameRaise]
@[simp] theorem Dev.openFrame_sec (num level abort start) : (d.openFrame num level abort start).sec = d.sec := by
  unfold Dev.openFrame
  extract_lets len e1 e2 e3 hot e4 e5 links e6 e7 e8 e9 e10 e11 e12 e13
  have h4 : e4.sec = d.sec := by simp [e4, e3, e2, e1]
  have h7 : e7.sec = d.sec := by simp [e7, e6, e5, h4]
  have h8 : e8.sec = d.sec := by simp [e8, h7]
  have h9 : e9.sec = d.sec := by
    simp only [e9]
    split <;> simp [h8]
  have h11 : e11.sec = d.sec := by simp [e11, e10, h9]
  simp [e13, e12, h11]
@[simp] theorem Dev.launch_sec (t abort) : (d.launch t abort).sec = d.sec := by simp [Dev.launch]
@[simp] theorem Dev.stopNow_sec : d.stopNow.sec = d.sec := by unfold Dev.stopNow; split <;> simp
@[simp] theorem tickLaunch_sec (t) : (tickLaunch t d).sec = d.sec := by simp [tickLaunch]
@[simp] theorem overrunAbort_sec (t) : (overrunAbort t d).sec = d.sec := by simp [overrunAbort]
@[simp] theorem tickInEdge_sec (t) : (tickInEdge t d).sec = d.sec := by simp -implicitDefEqProofs [tickInEdge]
@[simp] theorem tickInLost_sec (t) : (tickInLost t d).sec = d.sec := by simp [tickInLost]
@[simp] theorem tickInLostClear_sec : (tickInLostClear d).sec = d.sec := by simp [tickInLostClear]
@[simp] theorem tick_sec (link u t) : (tick link u t d).sec = d.sec := by simp [tick]
@[simp] theorem Dev.tryDone_sec : d.tryDone.sec = d.sec := by simp [Dev.tryDone]
@[simp] theorem doneSend_sec (t) : (doneSend t d).sec = d.sec := by simp -implicitDefEqProofs [doneSend]
@[simp] theorem done_sec (link u) : (done link u d).sec = d.sec := by simp [done]
@[simp] theorem bellwetherLost_sec (t) : (bellwetherLost t d).sec = d.sec := by simp [bellwetherLost]
@[simp] theorem echoMeasure_sec : (echoMeasure d).sec = d.sec := by unfold echoMeasure; (repeat' split) <;> simp
@[simp] theorem stallResume_sec (slot) : (stallResume slot d).sec = d.sec := by unfold stallResume; split <;> simp
@[simp] theorem scriptStretchClr_sec : (scriptStretchClr d).sec = d.sec := by simp [scriptStretchClr]

/-! ## Discovery -/

@[simp] theorem discoveryStart_sec : (discoveryStart d).sec = d.sec := by simp [discoveryStart, Dev.sendHello]
@[simp] theorem meshRediscover_sec : (meshRediscover d).sec = d.sec := by simp [meshRediscover]
@[simp] theorem rediscover_sec (link u) : (rediscover link u d).sec = d.sec := by simp [rediscover]
@[simp] theorem hello_sec (link u) : (hello link u d).sec = d.sec := by simp [hello]
@[simp] theorem echo_sec (link num) : (echo link num d).sec = d.sec := by simp [echo]
@[simp] theorem echoReply_sec (link turn roundTrip) : (echoReply link turn roundTrip d).sec = d.sec := by simp [echoReply]
@[simp] theorem Dev.noPartner_sec : d.noPartner.sec = d.sec := by simp [Dev.noPartner]
@[simp] theorem discoverLaunch_sec : (discoverLaunch d).sec = d.sec := by simp [discoverLaunch]
@[simp] theorem discover_sec (link herd pp digest round) : (discover link herd pp digest round d).sec = d.sec := by simp [discover]
@[simp] theorem reportUnit_sec (link u) : (reportUnit link u d).sec = d.sec := by simp [reportUnit]
@[simp] theorem Dev.applyHerd_sec (u) : (d.applyHerd u).sec = d.sec := by simp [Dev.applyHerd, Dev.refreeze, Dev.unloadFor]
@[simp] theorem herdIssue_sec : (herdIssue d).sec = d.sec := by simp [herdIssue]
@[simp] theorem herd_sec (link u) : (herd link u d).sec = d.sec := by simp [herd]
@[simp] theorem orphan_sec : (orphan d).sec = d.sec := by simp [orphan]
@[simp] theorem meshIdWrite_sec (herd x y lock) : (meshIdWrite herd x y lock d).sec = d.sec := by simp [meshIdWrite]

/-! ## Weights -/

@[simp] theorem Dev.wtDone_sec : d.wtDone.sec = d.sec := by simp [Dev.wtDone]
@[simp] theorem Dev.wtErr_sec (cause) : (d.wtErr cause).sec = d.sec := by simp [Dev.wtErr]
@[simp] theorem Dev.startRewrite_sec : d.startRewrite.sec = d.sec := by simp [Dev.startRewrite]
@[simp] theorem wtVerify_sec (next program) : (wtVerify next program d).sec = d.sec := by simp only [wtVerify]; (repeat' split) <;> simp
@[simp] theorem wtLoad_sec (next program) : (wtLoad next program d).sec = d.sec := by simp [wtLoad]
@[simp] theorem wtAbort_sec (next program) : (wtAbort next program d).sec = d.sec := by simp only [wtAbort]; (repeat' split) <;> simp
@[simp] theorem Dev.loadPrompter_sec (tile) : (d.loadPrompter tile).sec = d.sec := by simp [Dev.loadPrompter]
@[simp] theorem Dev.headCount_sec (layer) : (d.headCount layer).sec = d.sec := by simp [Dev.headCount]
@[simp] theorem tileHcStart_sec (layer) : (tileHcStart layer d).sec = d.sec := by simp [tileHcStart]
@[simp] theorem hcIntervalExpiry_sec : (hcIntervalExpiry d).sec = d.sec := by unfold hcIntervalExpiry; (repeat' split) <;> simp
@[simp] theorem headCountDone_sec : (headCountDone d).sec = d.sec := by simp only [headCountDone]; (repeat' split) <;> simp
@[simp] theorem Dev.epochCheck_sec : d.epochCheck.sec = d.sec := by unfold Dev.epochCheck; split <;> simp
@[simp] theorem Dev.loadSlot_sec (n tile slot always) : (d.loadSlot n tile slot always).1.sec = d.sec := by
  unfold Dev.loadSlot; (repeat' split) <;> simp
@[simp] theorem Dev.writeSection_sec (sc layer xs program) : (d.writeSection sc layer xs program).1.sec = d.sec := by simp [Dev.writeSection]
@[simp] theorem Dev.finishJob_sec (sc j) : (d.finishJob sc j).sec = d.sec := by simp only [Dev.finishJob]; (repeat' split) <;> simp [Dev.endJob]
@[simp] theorem Dev.markOwn_sec (curtain i done off) : (d.markOwn curtain i done off).sec = d.sec := by simp [Dev.markOwn]
@[simp] theorem Dev.beginOwn_sec (sc curtain i e) : (d.beginOwn sc curtain i e).sec = d.sec := by unfold Dev.beginOwn; split <;> simp
@[simp] theorem Dev.finishOwn_sec (sc) : (d.finishOwn sc).sec = d.sec := by simp only [Dev.finishOwn]; (repeat' split) <;> simp [Dev.endOwn]
@[simp] theorem sectionLoadDone_sec : (sectionLoadDone d).sec = d.sec := by unfold sectionLoadDone; (repeat' split) <;> simp
@[simp] theorem Dev.curtainRefresh_sec : d.curtainRefresh.sec = d.sec := by
  refine (Dev.resumePaused_sec _).trans (Dev.foldl_sec (fun d a => ?_) _ d)
  dsimp only
  split <;> simp

/-! ## Curtain, unload, park and wake -/

@[simp] theorem curtainLower_sec (t) : (curtainLower t d).sec = d.sec := by simp [curtainLower]
@[simp] theorem curtainAbandon_sec : (curtainAbandon d).sec = d.sec := by simp [curtainAbandon]
@[simp] theorem scriptUnload_sec : (scriptUnload d).sec = d.sec := by simp [scriptUnload]
@[simp] theorem curtainUnit_sec (link g) : (curtainUnit link g d).sec = d.sec := by simp [curtainUnit]
@[simp] theorem unloadUnit_sec (link g) : (unloadUnit link g d).sec = d.sec := by simp [unloadUnit]
@[simp] theorem parkUnit_sec (link g) : (parkUnit link g d).sec = d.sec := by simp [parkUnit]
@[simp] theorem raiseUnit_sec (link h) : (raiseUnit link h d).sec = d.sec := by simp [raiseUnit]
@[simp] theorem stopUnit_sec (link f) : (stopUnit link f d).sec = d.sec := by simp [stopUnit]
@[simp] theorem drainedUnit_sec (link) : (drainedUnit link d).sec = d.sec := by simp [drainedUnit]
@[simp] theorem drainedSend_sec : (drainedSend d).sec = d.sec := by simp only [drainedSend]; (repeat' split) <;> simp
@[simp] theorem rewrite_sec (link) : (rewrite link d).sec = d.sec := by simp [rewrite]
@[simp] theorem curtainReady_sec (link failure c) : (curtainReady link failure c d).sec = d.sec := by simp [curtainReady]
@[simp] theorem curtainReadySend_sec : (curtainReadySend d).sec = d.sec := by
  simp only [curtainReadySend]; (repeat' split) <;> simp [Dev.curtainCounts]
@[simp] theorem genPark_sec : (genPark d).sec = d.sec := by simp [genPark]
@[simp] theorem genWake_sec : (genWake d).sec = d.sec := by simp [genWake]
@[simp] theorem wake_sec (link origin) : (wake link origin d).sec = d.sec := by simp [wake]
@[simp] theorem awake_sec (link) : (awake link d).sec = d.sec := by simp [awake]
@[simp] theorem awakeSend_sec : (awakeSend d).sec = d.sec := by simp [awakeSend]
@[simp] theorem reservedUnit_sec (link) : (reservedUnit link d).sec = d.sec := by simp [reservedUnit]

/-! ## The management Ethernet port -/

@[simp] theorem ethLinkChange_sec (speed) : (ethLinkChange speed d).sec = d.sec := by simp [ethLinkChange]
@[simp] theorem telemetrySend_sec : (telemetrySend d).sec = d.sec := by simp [telemetrySend]
@[simp] theorem ethFrameReceive_sec (frame) : (ethFrameReceive frame d).sec = d.sec := by unfold ethFrameReceive; split <;> simp

/-! ## Repeats and rehearsal -/

@[simp] theorem Dev.serve_sec (r slot inserted) : (d.serve r slot inserted).sec = d.sec := by
  simp only [Dev.serve]; (repeat' split) <;> simp [Dev.runFormat, Dev.runRange, Dev.mergeOut]
@[simp] theorem Dev.dropReq_sec (flock r) : (d.dropReq flock r).sec = d.sec := by simp [Dev.dropReq]
@[simp] theorem Dev.serveAll_sec (flock tiles lo hi fuel use ins) : (Dev.serveAll flock tiles lo hi fuel use ins d).1.sec = d.sec := by
  induction fuel generalizing d use ins with
  | zero => rfl
  | succ fuel ih =>
    unfold Dev.serveAll
    split
    · rfl
    · extract_lets e
      have he : e.sec = d.sec := by simp [e]
      clear_value e
      (repeat' split) <;> simp [ih, he]
@[simp] theorem repeatWin_sec (c) : (repeatWin c d).sec = d.sec := by simp -implicitDefEqProofs [repeatWin]
@[simp] theorem Dev.probeRun_sec (a b) : (d.probeRun a b).1.sec = d.sec := by simp [Dev.probeRun]
@[simp] theorem Dev.probeVerdict_sec (p) : (d.probeVerdict p).sec = d.sec := by simp only [Dev.probeVerdict]; split <;> simp
@[simp] theorem Dev.probeStep_sec (p) : (d.probeStep p).sec = d.sec := by simp [Dev.probeStep]
@[simp] theorem Dev.rehearse_sec (f slot) : (d.rehearse f slot).sec = d.sec := by simp only [Dev.rehearse]; (repeat' split) <;> simp [Dev.probeNext]
@[simp] theorem rehearseWin_sec (c) : (rehearseWin c d).sec = d.sec := by simp [rehearseWin]

/-! ## Exact mode -/

@[simp] theorem forceMode_sec (learn) : (forceMode learn d).sec = d.sec := by simp [forceMode]
@[simp] theorem tilePrecClr_sec : (tilePrecClr d).sec = d.sec := by simp [tilePrecClr]
@[simp] theorem exactStart_sec (layer) : (exactStart layer d).sec = d.sec := by simp [exactStart]
@[simp] theorem exactAbort_sec : (exactAbort d).sec = d.sec := by simp [exactAbort]
@[simp] theorem exactJobTimeout_sec : (exactJobTimeout d).sec = d.sec := by simp [exactJobTimeout]
@[simp] theorem exactJobDone_sec : (exactJobDone d).sec = d.sec := by simp only [exactJobDone]; (repeat' split) <;> simp

/-! ## Kernels -/

@[simp] theorem Dev.engineError_sec (z code steps verdict) : (d.engineError z code steps verdict).sec = d.sec := by simp [Dev.engineError]
@[simp] theorem Dev.kRead_sec (z p n i operand) : (d.kRead z p n i operand).1.sec = d.sec := by simp [Dev.kRead]
@[simp] theorem Dev.opRow_sec (z o i) : (d.opRow z o i).1.sec = d.sec := by unfold Dev.opRow; split <;> simp
@[simp] theorem Dev.opMatrix_sec (z o n) : (d.opMatrix z o n).1.sec = d.sec := by unfold Dev.opMatrix; split <;> simp
@[simp] theorem Dev.outRow_sec (z size i bs) : (d.outRow z size i bs).sec = d.sec := by unfold Dev.outRow; split <;> simp [Dev.kWrite]
@[simp] theorem Dev.outRes_sec (z i vs) : (d.outRes z i vs).sec = d.sec := by simp [Dev.outRes]
@[simp] theorem Dev.rows_sec (z) {f : Dev → Nat → Tok → Dev × Option (List Res)} (h : ∀ d i t, (f d i t).1.sec = d.sec) :
    (d.rows z f).sec = d.sec := by
  unfold Dev.rows
  dsimp only
  split <;> simp <;> exact Dev.foldl_fst_sec (fun a e => by split <;> simp [h]) _ _
@[simp] theorem Dev.clearPartition_sec (z) : (d.clearPartition z).sec = d.sec := by simp only [Dev.clearPartition]; (repeat' split) <;> simp
@[simp] theorem Dev.runThread_sec (z) : (d.runThread z).sec = d.sec := by simp [Dev.runThread]
@[simp] theorem Dev.kernel_sec (fam k) {f : KRun → Dev → Dev} (h : ∀ z d, (f z d).sec = d.sec) : (d.kernel fam k f).sec = d.sec := by
  unfold Dev.kernel; dsimp only; (repeat' split) <;> simp [h]
@[simp] theorem matmulRun_sec (z) : (matmulRun z d).sec = d.sec := by simp [matmulRun]
@[simp] theorem normRun_sec (z) : (normRun z d).sec = d.sec := by simp [normRun]
@[simp] theorem rotaryRun_sec (z) : (rotaryRun z d).sec = d.sec := by simp [rotaryRun]
@[simp] theorem Dev.kernelPageBad_sec (z p) : (d.kernelPageBad z p).sec = d.sec := by simp [Dev.kernelPageBad]
@[simp] theorem attnRun_sec (latent z) : (attnRun latent z d).sec = d.sec := by unfold attnRun; (repeat' split) <;> simp
@[simp] theorem Dev.mirrorWrite_sec (k t i off bs) : (d.mirrorWrite k t i off bs).1.sec = d.sec := by simp [Dev.mirrorWrite]
theorem Dev.kvReach_sec {k t e} (h : d.kvReach k t = some e) : e.sec = d.sec := by
  simp only [Dev.kvReach] at h
  split at h
  · cases h
  · split at h
    · cases h
    case h_2 e he =>
      obtain rfl := Option.some.inj h
      rw [Dev.foldl_sec]
      · simpa using Dev.growTo_sec d he
      · intro d j
        split <;> simp
@[simp] theorem Dev.kvPut_sec (z k t bs) : (d.kvPut z k t bs).sec = d.sec := by simp only [Dev.kvPut]; (repeat' split) <;> simp [Dev.mirrorPend]
@[simp] theorem Dev.kvBytes_sec (z i t) : (d.kvBytes z i t).1.sec = d.sec := by simp [Dev.kvBytes]
@[simp] theorem kvwriteRun_sec (z) : (kvwriteRun z d).sec = d.sec := by
  unfold kvwriteRun
  split
  case h_1 => rfl
  case h_2 k hk =>
    dsimp only
    split
    · rw [Dev.engineError_sec]
      exact Dev.foldl_fst_sec (fun a e => by split <;> simp) _ _
    · refine (Dev.foldl_sec (fun d e => ?_) _ _).trans (Dev.foldl_fst_sec (fun a e => by split <;> simp) _ _)
      split
      case h_1 hr => rw [Dev.kvPut_sec, Dev.kvReach_sec d hr]
      case h_2 => split <;> simp
@[simp] theorem exactKernel_sec (k) : (exactKernel k d).sec = d.sec := by simp only [exactKernel]; (repeat' split) <;> simp
@[simp] theorem kernelStop_sec (fam k) : (kernelStop fam k d).sec = d.sec := by simp [kernelStop]

/-! ## Transfers over Kafel links -/

@[simp] theorem Dev.sendFlit_sec (link f) : (d.sendFlit link f).sec = d.sec := by simp [Dev.sendFlit]
@[simp] theorem Dev.sendTransfer_sec (link num us) : (d.sendTransfer link num us).sec = d.sec := by simp [Dev.sendTransfer, Dev.sendRun]
@[simp] theorem linkSend_sec (r) : (linkSend r d).sec = d.sec := by simp only [linkSend]; (repeat' split) <;> simp
@[simp] theorem Dev.takeXfer_sec (r rest) : (d.takeXfer r rest).sec = d.sec := by simp [Dev.takeXfer]
@[simp] theorem Dev.dropXfer_sec (r us rest) : (d.dropXfer r us rest).sec = d.sec := by simp [Dev.dropXfer, Dev.linkError]
@[simp] theorem Dev.arrive_sec (r us) : (d.arrive r us).sec = d.sec := Dev.foldl_sec (fun d l => by dsimp only; (repeat' split) <;> simp) _ d
@[simp] theorem linkReceive_sec (r late) : (linkReceive r late d).sec = d.sec := by unfold linkReceive; (repeat' split) <;> simp
@[simp] theorem linkForward_sec (r) : (linkForward r d).sec = d.sec := by unfold linkForward; (repeat' split) <;> simp
@[simp] theorem ackUnit_sec (link last) : (ackUnit link last d).sec = d.sec := by simp only [ackUnit]; (repeat' split) <;> simp [Dev.drainTx]
@[simp] theorem nakUnit_sec (link failed) : (nakUnit link failed d).sec = d.sec := by unfold nakUnit; (repeat' split) <;> simp
@[simp] theorem replayUnit_sec (link count) : (replayUnit link count d).sec = d.sec := by simp [replayUnit]
@[simp] theorem spillUnit_sec (link u) : (spillUnit link u d).sec = d.sec := by simp [spillUnit]

/-! ## Flits -/

@[simp] theorem runUnit_sec (link t w) : (runUnit link t d w).sec = d.sec := by unfold runUnit; split <;> simp
@[simp] theorem Dev.processFlit_sec (link t f) : (d.processFlit link t f).sec = d.sec := by simp [Dev.processFlit, Dev.dataUnits]
@[simp] theorem Dev.countFlit_sec (link count) : (d.countFlit link count).sec = d.sec := by simp [Dev.countFlit]
@[simp] theorem Dev.sendNak_sec (link count) : (d.sendNak link count).sec = d.sec := by simp [Dev.sendNak]
@[simp] theorem Dev.drainHeld_sec (link t) : (d.drainHeld link t).sec = d.sec := (Dev.foldl_sec (fun d x => by split <;> simp) _ _).trans (by simp)
@[simp] theorem Dev.resentFlit_sec (link t c f) : (d.resentFlit link t c f).sec = d.sec := by unfold Dev.resentFlit; split <;> simp [Dev.linkDown]
@[simp] theorem flitReceive_sec (link f corrected uncorrectable t) : (flitReceive link f corrected uncorrectable t d).sec = d.sec := by
  simp only [flitReceive]; (repeat' split) <;> simp

/-! ## The error unit's commands and history -/

@[simp] theorem errRingHeadWrite_sec (count) : (errRingHeadWrite count d).sec = d.sec := by simp [errRingHeadWrite]
@[simp] theorem errStackClrFatal_sec : (errStackClrFatal d).sec = d.sec := by simp [errStackClrFatal]
@[simp] theorem errCntClr_sec : (errCntClr d).sec = d.sec := by simp [errCntClr]
@[simp] theorem errHistCommit_sec : (errHistCommit d).sec = d.sec := by simp [errHistCommit]
@[simp] theorem clearStruck_sec : (clearStruck d).sec = d.sec := by simp [clearStruck]
@[simp] theorem historyHourlyCommit_sec : (historyHourlyCommit d).sec = d.sec := by simp [historyHourlyCommit]
@[simp] theorem historyScoreDecay_sec (kind unit) : (historyScoreDecay kind unit d).sec = d.sec := by
  unfold historyScoreDecay; (repeat' split) <;> simp

/-! ## Clearing and the DOE mailbox -/

@[simp] theorem Dev.releaseArrays_sec : d.releaseArrays.sec = d.sec := by simp -implicitDefEqProofs [Dev.releaseArrays]
@[simp] theorem Dev.clearMemory_sec : d.clearMemory.sec = d.sec := by simp [Dev.clearMemory]
@[simp] theorem Dev.reLease_sec : d.reLease.sec = d.sec := by simp -implicitDefEqProofs [Dev.reLease]
@[simp] theorem Dev.doeReply_sec (code tag body) : (d.doeReply code tag body).sec = d.sec := by simp [Dev.doeReply]
@[simp] theorem Dev.doeError_sec (tag cause) : (d.doeError tag cause).sec = d.sec := by simp [Dev.doeError]
@[simp] theorem Dev.doeDone_sec (tag) : (d.doeDone tag).sec = d.sec := by simp [Dev.doeDone]
@[simp] theorem getIdentity_sec (tag) : (getIdentity tag d).sec = d.sec := by simp [getIdentity]
@[simp] theorem getMeasure_sec (tag nonce) : (getMeasure tag nonce d).sec = d.sec := by simp [getMeasure]
@[simp] theorem doeAbort_sec : (doeAbort d).sec = d.sec := by simp [doeAbort]
@[simp] theorem doeDiscovery_sec (index type length) : (doeDiscovery index type length d).sec = d.sec := by simp [doeDiscovery]

/-! ## The device's own freeze sources -/

@[simp] theorem freezeNAssert_sec (lowNs t) : (freezeNAssert lowNs t d).sec = d.sec := by simp [freezeNAssert]
@[simp] theorem freezeNRelease_sec (highNs t) : (freezeNRelease highNs t d).sec = d.sec := by simp -implicitDefEqProofs [freezeNRelease]
@[simp] theorem dbgFreeze_sec (t) : (dbgFreeze t d).sec = d.sec := by simp [dbgFreeze]
@[simp] theorem Dev.thaw_sec (t) : (d.thaw t).sec = d.sec := by simp [Dev.thaw]
@[simp] theorem dbgThaw_sec (t) : (dbgThaw t d).sec = d.sec := by simp [dbgThaw]

/-! ## Memory cues -/

@[simp] theorem hbmRd_sec (c) : (hbmRd c d).sec = d.sec := by simp only [hbmRd]; (repeat' split) <;> simp
@[simp] theorem hbmRdDeliver_sec (c found) : (hbmRdDeliver c found d).sec = d.sec := by
  unfold hbmRdDeliver; split <;> simp [Dev.readHbm, Dev.hbmStore]
@[simp] theorem hbmWrite_sec (c) : (hbmWrite c d).sec = d.sec := by simp only [hbmWrite]; (repeat' split) <;> simp

/-! ## Script load -/

@[simp] theorem Dev.scriptErr_sec (cause w) : (d.scriptErr cause w).sec = d.sec := by simp [Dev.scriptErr]
@[simp] theorem scriptLoad_sec : (scriptLoad d).sec = d.sec := by simp [scriptLoad]
@[simp] theorem scriptLoadDone_sec : (scriptLoadDone d).sec = d.sec := by simp only [scriptLoadDone]; (repeat' split) <;> simp [Dev.installScript]
@[simp] theorem scriptLoadAbort_sec : (scriptLoadAbort d).sec = d.sec := by simp [scriptLoadAbort]
@[simp] theorem hazardModeWrite_sec (mode) : (hazardModeWrite mode d).sec = d.sec := by simp [hazardModeWrite]

/-! ## Register blocks but SEC -/

@[simp] theorem Dev.pathRead_sec (path off) : (d.pathRead path off).1.sec = d.sec := by unfold Dev.pathRead; split <;> simp
@[simp] theorem Dev.on_sec (c) {f : Dev → Dev} (h : ∀ d, (f d).sec = d.sec) : (d.on c f).sec = d.sec := by simp [Dev.on, h]
@[simp] theorem Dev.genWrite_sec (off v) : (d.genWrite off v).sec = d.sec := by simp [Dev.genWrite]
@[simp] theorem hostCntClr_sec : (hostCntClr d).sec = d.sec := by simp [hostCntClr]
@[simp] theorem hostEvtClear_sec (bits) : (hostEvtClear bits d).sec = d.sec := by simp [hostEvtClear]
@[simp] theorem Dev.msixWrite_sec (n v) : (d.msixWrite n v).sec = d.sec := by simp [Dev.msixWrite]
@[simp] theorem Dev.hostWrite_sec (off v) : (d.hostWrite off v).sec = d.sec := by unfold Dev.hostWrite; (repeat' split) <;> simp
@[simp] theorem Dev.dbgWrite_sec (off v) : (d.dbgWrite off v).sec = d.sec := by simp [Dev.dbgWrite]
@[simp] theorem Dev.kvCmdWrite_sec (v) : (d.kvCmdWrite v).sec = d.sec := by simp [Dev.kvCmdWrite]
@[simp] theorem Dev.callWrite_sec (off v) : (d.callWrite off v).sec = d.sec := by
  have clear (c : Bool) (g : Call → Call) : (d.on c fun d => d.modCall g).sec = d.sec := Dev.on_sec d c fun d => by rfl
  simp only [Dev.callWrite, Dev.ite_sec, clear, Dev.modCall_sec, Dev.modKv_sec, Dev.kvCmdWrite_sec, callAdpLoad_sec,
    Dev.on_sec d _ callKvClr_sec, ite_self]
  cases regIdx off 0x400 512 <;> cases regIdx off 0x1000 256 <;> simp
@[simp] theorem Dev.scriptWrite_sec (off v) : (d.scriptWrite off v).sec = d.sec := by simp [Dev.scriptWrite, Dev.wtCtrl]
@[simp] theorem Dev.tileWrite_sec (off v) : (d.tileWrite off v).sec = d.sec := by simp [Dev.tileWrite, Dev.exactCtrl]
@[simp] theorem Dev.meshWrite_sec (off v) : (d.meshWrite off v).sec = d.sec := by unfold Dev.meshWrite; (repeat' split) <;> simp
@[simp] theorem Dev.thermWrite_sec (off v) : (d.thermWrite off v).sec = d.sec := by simp [Dev.thermWrite]
@[simp] theorem Dev.hkcWrite_sec (off v) : (d.hkcWrite off v).sec = d.sec := by simp [Dev.hkcWrite]
@[simp] theorem Dev.errWrite_sec (off v) : (d.errWrite off v).sec = d.sec := by simp [Dev.errWrite]
@[simp] theorem registerLowWordRead_sec (off) : (registerLowWordRead off d).sec = d.sec := by simp [registerLowWordRead]
@[simp] theorem bar0UnsupportedAccess_sec : (bar0UnsupportedAccess d).sec = d.sec := by simp [bar0UnsupportedAccess]
@[simp] theorem msixUnmask_sec (v) : (msixUnmask v d).sec = d.sec := by simp [msixUnmask]

/-! ## The host's port -/

@[simp] theorem Dev.wakeStack_sec (a) : (d.wakeStack a).sec = d.sec := by simp [Dev.wakeStack]
@[simp] theorem Dev.writeOwned_sec (a bs) : (d.writeOwned a bs).sec = d.sec := by unfold Dev.writeOwned; split <;> simp [Dev.validMoved]
@[simp] theorem Dev.hostWritePart_sec (p) : (d.hostWritePart p).sec = d.sec := by unfold Dev.hostWritePart; split <;> simp [Dev.setBits]
@[simp] theorem hostWriteMem_sec (a bs) : (hostWriteMem a bs d).sec = d.sec := by simp [hostWriteMem]
@[simp] theorem Dev.hostReadPart_sec (a n found) : (d.hostReadPart a n found).1.sec = d.sec := by unfold Dev.hostReadPart; split <;> simp
@[simp] theorem hostReadMem_sec (a n found) : (hostReadMem a n found d).sec = d.sec := by simp [hostReadMem]
@[simp] theorem hbmSelfRefreshReturn_sec (stack) : (hbmSelfRefreshReturn stack d).sec = d.sec := by simp [hbmSelfRefreshReturn]
@[simp] theorem hostLinkDown_sec : (hostLinkDown d).sec = d.sec := by simp [hostLinkDown]
@[simp] theorem Dev.sendPending_sec : d.sendPending.sec = d.sec := by simp [Dev.sendPending]
@[simp] theorem hostLinkUp_sec (u) : (hostLinkUp u d).sec = d.sec := by simp [hostLinkUp]
@[simp] theorem hdmCommit_sec (base size ways) : (hdmCommit base size ways d).sec = d.sec := by simp [hdmCommit]

/-! ## JTAG and I3C -/

@[simp] theorem Dev.deny_sec : d.deny.sec = d.sec := by simp [Dev.deny]
@[simp] theorem Dev.select_sec (i) : (d.select i).sec = d.sec := by simp [Dev.select]
@[simp] theorem Dev.bypass_sec : d.bypass.sec = d.sec := by simp [Dev.bypass]
@[simp] theorem Dev.refuse_sec : d.refuse.sec = d.sec := by simp [Dev.refuse]
@[simp] theorem jtagBypass_sec : (jtagBypass d).sec = d.sec := by simp [jtagBypass]
@[simp] theorem jtagIdcode_sec : (jtagIdcode d).sec = d.sec := by simp [jtagIdcode]
@[simp] theorem Dev.boundaryScan_sec (i value) : (d.boundaryScan i value).sec = d.sec := by simp [Dev.boundaryScan]
@[simp] theorem jtagSamplePreload_sec (value) : (jtagSamplePreload value d).sec = d.sec := by simp [jtagSamplePreload]
@[simp] theorem jtagExtest_sec : (jtagExtest d).sec = d.sec := by simp [jtagExtest]
@[simp] theorem jtagAonRead_sec : (jtagAonRead d).sec = d.sec := by simp [jtagAonRead]
@[simp] theorem jtagFreeze_sec (engage t) : (jtagFreeze engage t d).sec = d.sec := by simp [jtagFreeze]
@[simp] theorem jtagKeptRead_sec : (jtagKeptRead d).sec = d.sec := by simp [jtagKeptRead]
@[simp] theorem jtagStop_sec (engage t) : (jtagStop engage t d).sec = d.sec := by simp [jtagStop]
@[simp] theorem jtagScan_sec (bits) : (jtagScan bits d).sec = d.sec := by simp [jtagScan]
@[simp] theorem i3cEntdaa_sec (addr) : (i3cEntdaa addr d).sec = d.sec := by simp [i3cEntdaa]
@[simp] theorem i3cOffsetWrite_sec (off) : (i3cOffsetWrite off d).sec = d.sec := by simp [i3cOffsetWrite]
@[simp] theorem i3cPrivateRead_sec : (i3cPrivateRead d).sec = d.sec := by simp [i3cPrivateRead]

/-! ## Routing -/

@[simp] theorem routeRun_sec (z) : (routeRun z d).sec = d.sec := by
  unfold routeRun
  dsimp only
  split <;> simp <;> exact Dev.foldl_fst_sec (fun a e => by split <;> simp) _ _
@[simp] theorem Dev.copyBuf_sec (t src dst slot next) : (d.copyBuf t src dst slot next).sec = d.sec := by simp [Dev.copyBuf]
@[simp] theorem Dev.delayStep_sec (t layer) : (d.delayStep t layer).sec = d.sec := by simp [Dev.delayStep]
@[simp] theorem place_sec (c) : (place c d).sec = d.sec := by simp [place, Dev.skipLane]
@[simp] theorem Dev.moveDelayed_sec (z i pos t) : (d.moveDelayed z i pos t).sec = d.sec := by
  unfold Dev.moveDelayed
  dsimp only
  split
  · rfl
  · exact (Dev.foldl_sec (fun d j => by (repeat' split) <;> simp) _ _).trans (by (repeat' split) <;> simp)
@[simp] theorem Dev.combineRow_sec (z i) : (d.combineRow z i).1.sec = d.sec := by
  simp only [Dev.combineRow, Dev.modCall_sec, Dev.fst_ite_sec, Dev.opRow_sec, ite_self]
  rw [Dev.foldl_fst_sec]
  · dsimp only
    split <;> simp
  · intro a g
    split <;> simp
@[simp] theorem Dev.missedReturns_sec (layer toks) : (d.missedReturns layer toks).1.sec = d.sec := by simp [Dev.missedReturns]
@[simp] theorem combineRun_sec (z) : (combineRun z d).sec = d.sec := by
  unfold combineRun
  dsimp only
  split <;> simp <;> exact (Dev.foldl_fst_sec (fun a e => by (repeat' split) <;> simp) _ _).trans (by simp)

/-! ## Sampling -/

@[simp] theorem Dev.modStep_sec (s f) : (d.modStep s f).sec = d.sec := by simp [Dev.modStep]
@[simp] theorem Dev.logits_sec (z) : (d.logits z).1.sec = d.sec := Dev.foldl_fst_sec (fun a e => by split <;> simp) _ _
@[simp] theorem Dev.outTokens_sec (z ids) : (d.outTokens z ids).sec = d.sec := by simp [Dev.outTokens]
@[simp] theorem Dev.sampled_sec (t tok greedy) : (d.sampled t tok greedy).sec = d.sec := by unfold Dev.sampled; split <;> simp
@[simp] theorem sampleRun_sec (z) : (sampleRun z d).sec = d.sec := by simp only [sampleRun]; split <;> simp
theorem Dev.verifyStep_sec {rows x e} (h : d.verifyStep rows x = some e) : e.sec = d.sec := by
  simp only [Dev.verifyStep] at h
  split at h
  · obtain rfl := Option.some.inj h; rfl
  · simp only [Option.bind_eq_bind, Option.bind_eq_some_iff] at h
    obtain ⟨out, -, h⟩ := h
    obtain rfl := Option.some.inj h
    simp
theorem Dev.verifySteps_sec {rows e} (l : List Step) (h : l.foldlM (fun d x => d.verifyStep rows x) d = some e) : e.sec = d.sec := by
  induction l generalizing d with
  | nil => cases h; rfl
  | cons x l ih =>
    simp only [List.foldlM_cons, Option.bind_eq_bind, Option.bind_eq_some_iff] at h
    obtain ⟨y, hy, h⟩ := h
    rw [ih y h, Dev.verifyStep_sec d hy]
@[simp] theorem verifyRun_sec (z) : (verifyRun z d).sec = d.sec := by
  simp only [verifyRun]
  split
  · simp
  case h_2 e h =>
    obtain ⟨rows, -, h⟩ := Option.bind_eq_some_iff.1 h
    rw [Dev.outTokens_sec, Dev.verifySteps_sec _ _ h, Dev.logits_sec]
@[simp] theorem adaptRun_sec (z) : (adaptRun z d).sec = d.sec := by
  unfold adaptRun
  dsimp only
  split <;> simp <;> refine (Dev.foldl_fst_sec (fun a e => ?_) _ _).trans (by simp)
  all_goals (repeat' split) <;> simp

end

/-! ## Commands -/

theorem State.onDev_sec {s t : State} {f : Dev → Dev} (hf : (f s.dev).sec = s.dev.sec) (h : s.onDev f = .next t) :
    t.dev.sec = s.dev.sec := (congrArg Dev.sec (State.onDev_dev h).1).trans hf

theorem State.onCue_sec {s t : State} {ok : Bool} {f : Dev → Dev} (hf : (f s.dev).sec = s.dev.sec) (h : s.onCue ok f = .next t) :
    t.dev.sec = s.dev.sec := by
  unfold State.onCue at h
  split at h
  · exact State.onDev_sec hf h
  · cases h

/-- The HBM commands: a cue of their form, on an address that exists. -/
theorem State.onHbmCue_sec {s t : State} {c : HbmCue} {f : Dev → Dev} (hf : (f s.dev).sec = s.dev.sec)
    (h : (if !c.wf then .refused .illFormed else if !hbmInside c then .fault .noSuchAddress else s.onDev f) =
      (.next t : Host.Outcome State Fault Refusal)) : t.dev.sec = s.dev.sec := by
  split at h
  · cases h
  · split at h
    · cases h
    · exact State.onDev_sec hf h

/-- The host's memory commands: in the window. -/
theorem State.inWindow_sec {s t : State} {a n : Nat} {f : Dev → Dev} (hf : (f s.dev).sec = s.dev.sec)
    (h : (if inWindow a n then s.onDev f else .fault .noSuchAddress) = (.next t : Host.Outcome State Fault Refusal)) :
    t.dev.sec = s.dev.sec := by
  split at h
  · exact State.onDev_sec hf h
  · cases h

/-- A command that cannot change the security block keeps it. -/
theorem exec_sec {c : Instr} {s t : State} (hc : touchesSecurity c = false) (h : exec c s = .next t) : t.dev.sec = s.dev.sec := by
  cases c with
  | vddAonRise | vddAonLoss | sysRstNAssert | sysRstNRelease | prsntNChange | powerGoodLost | powerGoodRestored | tripRelease | secDbgLevel
  | secDbgExit | fwAppend | fwCommit | fwCancel | lock | ownerClaim | ownerTransfer | debugToken | unlock | registerWrite
  | jtagDbgAccess => cases hc
  | requant | out | relay | move | repeatWin | rehearseWin | place | matmul | norm | rotary | attnGqa | attnLatent | kvwrite
  | route | combine | sample | verify | adapt | exact | kernelStop | linkSend | linkReceive | linkForward =>
    exact State.onCue_sec (by simp) h
  | hbmRd | hbmRdDeliver | hbmWr => exact State.onHbmCue_sec (by simp) h
  | hostMemWrite | callboardBitSet | hostMemRead => exact State.inWindow_sec (by simp) h
  | kvMessageReserved => exact @State.onDev_sec _ _ (fun d => if kvCodeKnown _ then d else kvReserved d) (by simp) h
  | kvCmdPark | kvCmdWake | kvCmdFork => exact @State.onDev_sec _ _ (fun d => d.kvCommand _ _) (by simp) h
  | _ => exact State.onDev_sec (by simp) h

end Sys2Proof.Machine
end

section
/-! PROOF. The debug level (R463). A device leaves OWNER_DEBUG by a start or a reset, which set the level to D0; by SEC_DBG_EXIT, LOCK,
OWNER_TRANSFER or a vendor token, which bound it by D1; and by nothing else. -/
namespace Sys2Proof.Machine

/-! ## Leaving OWNER_DEBUG -/

/-- A device in OWNER_DEBUG stays there or comes to D1 or below (R463). -/
def Sec.LeavesAtD1 (a b : Sec) : Prop := a.st = .ownerDebug → b.st = .ownerDebug ∨ b.level ≤ 1

theorem Sec.LeavesAtD1.of_st {a b : Sec} (h : b.st = a.st) : a.LeavesAtD1 b := fun ha => .inl (h.trans ha)
theorem Sec.LeavesAtD1.of_level {a b : Sec} (h : b.level ≤ 1) : a.LeavesAtD1 b := fun _ => .inr h
theorem Sec.LeavesAtD1.of_eq {a b : Sec} (h : b = a) : a.LeavesAtD1 b := .of_st (h ▸ rfl)

section
variable (d : Dev)

/-! ## Start-up and reset: the level is D0 -/

@[simp] theorem Dev.reset_level : d.reset.sec.level = 0 := by simp [Dev.reset]
@[simp] theorem Dev.holdReset_level : d.holdReset.sec.level = 0 := by simp [Dev.holdReset]
@[simp] theorem vddAonLoss_level (h : d.sys.st ≠ .off) : (vddAonLoss d).sec.level = 0 := by simp [vddAonLoss, h]

theorem Dev.darkHouse_level (h : d.sec.level = 0) (cause dark) : (d.darkHouse cause dark).sec.level = 0 := by simp [Dev.darkHouse, h]
theorem Dev.hbmStartFailed_level (h : d.sec.level = 0) : d.hbmStartFailed.sec.level = 0 := Dev.darkHouse_level _ (by simpa using h) _ _
theorem Dev.bootManager_level (bo sm t) : (d.bootManager bo sm t).sec.level = d.sec.level := by
  unfold Dev.bootManager
  extract_lets d₁ d₂ d₃ d₄ d₅ d₆
  have h₃ : d₃.sec.level = d.sec.level := by simp [d₁, d₂, d₃]
  have h₄ : d₄.sec.level = d₃.sec.level := by simp [d₄]
  have h₅ : d₅.sec.level = d₄.sec.level := by simp [d₅]
  have h₆ : d₆.sec.level = d₅.sec.level := by simp [d₆]
  split <;> simp [h₃, h₄, h₅, h₆]
/-- Each way out of the start-up sequence (R450): DARK_HOUSE, a failed HBM start, the Stage Manager, its failed start. -/
theorem Dev.startUp_level (t b) : (d.startUp t b).sec.level = 0 := by
  unfold Dev.startUp
  dsimp only
  split
  · exact Dev.darkHouse_level _ (by simp) _ _
  split
  · exact Dev.darkHouse_level _ (by simp) _ _
  split
  · exact Dev.darkHouse_level _ (by simp) _ _
  split
  · exact Dev.hbmStartFailed_level _ (by simp)
  split
  · exact Dev.darkHouse_level _ (by simp) _ _
  split
  · exact Dev.darkHouse_level _ (by simp) _ _
  split
  · simp [Dev.bootManager_level]
  · simp

theorem Dev.tryStart_leavesAtD1 (t b) : d.sec.LeavesAtD1 (d.tryStart t b).sec := by
  unfold Dev.tryStart
  split
  · exact .of_level (by simp [Dev.startUp_level])
  · exact .of_eq rfl

theorem sysRstNAssert_leavesAtD1 (lowNs) : d.sec.LeavesAtD1 (sysRstNAssert lowNs d).sec := by
  unfold sysRstNAssert
  split
  · exact .of_eq rfl
  · exact .of_level (by simp)
theorem sysRstNRelease_leavesAtD1 (t b) : d.sec.LeavesAtD1 (sysRstNRelease t b d).sec := by
  unfold sysRstNRelease
  split
  · exact .of_eq rfl
  · simpa using Dev.tryStart_leavesAtD1 ((d.modSys fun s => { s with sysRst := false }).modThm fun m => { m with tripLatched := false }) t b
theorem prsntNChange_leavesAtD1 (asserted stableNs t b) : d.sec.LeavesAtD1 (prsntNChange asserted stableNs t b d).sec := by
  unfold prsntNChange
  split
  · exact .of_eq rfl
  split
  · exact .of_eq (by simp)
  split
  · exact .of_eq rfl
  dsimp only
  split
  · exact Dev.tryStart_leavesAtD1 (d.modSys fun s => { s with prsnt := asserted }) t b
  · exact .of_level (by simp)
theorem vddAonLoss_leavesAtD1 : d.sec.LeavesAtD1 (vddAonLoss d).sec := by
  by_cases h : d.sys.st = .off
  · exact .of_eq (by simp [vddAonLoss, h])
  · exact .of_level (by simp [h])
theorem vddAonRise_leavesAtD1 (t b) : d.sec.LeavesAtD1 (vddAonRise t b d).sec := by
  unfold vddAonRise
  split
  · exact Dev.tryStart_leavesAtD1 d.aonUp t b
  · exact .of_eq rfl
theorem powerGoodLost_leavesAtD1 (rail) : d.sec.LeavesAtD1 (powerGoodLost rail d).sec := by
  unfold powerGoodLost
  split
  · exact vddAonLoss_leavesAtD1 d
  dsimp only
  split
  · exact .of_eq (by simp)
  · exact .of_level (by simp)
theorem powerGoodRestored_leavesAtD1 (t b) : d.sec.LeavesAtD1 (powerGoodRestored t b d).sec := by
  unfold powerGoodRestored
  split
  · exact .of_eq rfl
  · simpa using Dev.tryStart_leavesAtD1 ((if d.sys.st = .off then d.aonUp else d).modSys fun s => { s with pg := 0x7F }) t b
theorem tripRelease_leavesAtD1 (t b) : d.sec.LeavesAtD1 (tripRelease t b d).sec := by
  simp only [tripRelease]
  split
  · exact .of_eq rfl
  · exact Dev.tryStart_leavesAtD1 (d.modSys fun s => { s with thermTripN := false }) t b

/-! ## The SEC registers -/

@[simp] theorem secDbgLevel_st (l) : (secDbgLevel l d).sec.st = d.sec.st := by unfold secDbgLevel; split <;> simp
@[simp] theorem Dev.fwErr_st (c) : (d.fwErr c).sec.st = d.sec.st := by simp [Dev.fwErr]
@[simp] theorem fwAppend_st (kind units) : (fwAppend kind units d).sec.st = d.sec.st := by
  simp only [fwAppend]
  (repeat' split) <;> simp [Sec.fwFields]
@[simp] theorem fwCommit_st (kind ok) : (fwCommit kind ok d).sec.st = d.sec.st := by
  unfold fwCommit
  split
  · rfl
  dsimp only
  split
  · rw [Dev.modSec_sec]
    split <;> split <;> rfl
  · simp
@[simp] theorem fwCancel_st : (fwCancel d).sec.st = d.sec.st := by unfold fwCancel; split <;> simp
@[simp] theorem Dev.on_st {f : Dev → Dev} (h : ∀ d, (f d).sec.st = d.sec.st) (c) : (d.on c f).sec.st = d.sec.st := by
  unfold Dev.on; split <;> simp [h]
@[simp] theorem Dev.fwCtrl_st (v) : (d.fwCtrl v).sec.st = d.sec.st := by simp [Dev.fwCtrl, Sec.fwFields]

theorem secDbgExit_leavesAtD1 : d.sec.LeavesAtD1 (secDbgExit d).sec := by
  unfold secDbgExit
  split
  · exact .of_level (by simp [Sec.toLocked])
  · exact .of_eq rfl

/-- A write of SEC_DBG sets the level first, in OWNER_DEBUG, and then leaves it. -/
theorem Dev.secWrite_leavesAtD1 (off v) : d.sec.LeavesAtD1 (d.secWrite off v).sec := by
  unfold Dev.secWrite
  split
  · intro h
    unfold Dev.on
    split
    · exact secDbgExit_leavesAtD1 _ (by simpa using h)
    · exact .inl (by simpa using h)
  split
  · exact .of_st (by simp)
  split
  · exact .of_st (by simp)
  split <;> exact .of_st (by simp)

/-- Only the SEC block's registers reach the security block. -/
theorem Dev.regWrite_sec {off} (h : regBlock off ≠ 9) (v) : (d.regWrite off v).sec = d.sec := by
  simp [Dev.regWrite, h]
theorem Dev.regWrite_leavesAtD1 (off v) : d.sec.LeavesAtD1 (d.regWrite off v).sec := by
  by_cases hb : regBlock off = 9
  · have hw : d.regWrite off v = if off % 4 != 0 || !d.barOk then d else d.secWrite (off - 0x1800000) v := by
      simp [Dev.regWrite, hb]
    rw [hw]
    split
    · exact .of_eq rfl
    · exact Dev.secWrite_leavesAtD1 d _ _
  · exact .of_eq (Dev.regWrite_sec d hb v)

theorem registerWrite_leavesAtD1 (off v) : d.sec.LeavesAtD1 (registerWrite off v d).sec := by
  unfold registerWrite
  split
  · exact .of_eq (by simp)
  split
  · exact Dev.regWrite_leavesAtD1 d _ _
  · exact .of_eq rfl

/-! ## DBG_ACCESS -/

theorem Dev.dbgAccess_leavesAtD1 (r) : d.sec.LeavesAtD1 (d.dbgAccess r).1.sec := by
  simp only [Dev.dbgAccess]
  split
  · split
    · split
      · exact Dev.regWrite_leavesAtD1 d _ _
      · exact .of_eq (by simp)
    · split <;> exact .of_eq (by simp)
  all_goals (repeat' split) <;> exact .of_eq (by simp)

theorem jtagDbgAccess_leavesAtD1 (r) : d.sec.LeavesAtD1 (jtagDbgAccess r d).sec := by
  unfold jtagDbgAccess
  split
  · exact .of_eq rfl
  · simpa using Dev.dbgAccess_leavesAtD1 d r

/-! ## Signed requests -/

/-- A signed request that runs has its state's permission, and its effect alone writes the security block. -/
theorem Dev.doeSigned_sec (a ok signed) (f : Dev → Dev) :
    (d.doeSigned a ok signed f).sec = d.sec ∨ ok = true ∧ (d.doeSigned a ok signed f).sec = (f d).sec := by
  unfold Dev.doeSigned
  split
  · exact .inl rfl
  split
  case h_1 h => exact .inr ⟨by_contra fun hok => by simp [Dev.doeCause, hok] at h, by simp⟩
  · exact .inl (by simp)

/-- In its state, signed and bound, a request runs. -/
theorem Dev.doeSigned_run {a ok signed} (f : Dev → Dev) (hd : d.doeOk = true) (hst : d.sec.st ≠ .dark) (hok : ok = true) (hs : signed = true)
    (hb : d.bound a = true) : d.doeSigned a ok signed f = (f d).doeDone a.tag := by
  simp [Dev.doeSigned, Dev.doeCause, hd, hst, hok, hs, hb]

theorem Dev.doeSigned_leavesAtD1 (a ok signed) {f : Dev → Dev} (h : ok = true → d.sec.LeavesAtD1 (f d).sec) :
    d.sec.LeavesAtD1 (d.doeSigned a ok signed f).sec := by
  obtain he | ⟨hok, he⟩ := d.doeSigned_sec a ok signed f
  · exact .of_eq he
  · exact he ▸ h hok

theorem lock_leavesAtD1 (a) : d.sec.LeavesAtD1 (lock a d).sec :=
  d.doeSigned_leavesAtD1 _ _ _ fun _ => .of_level (Nat.min_le_right ..)
theorem ownerClaim_leavesAtD1 (a keys) : d.sec.LeavesAtD1 (ownerClaim a keys d).sec :=
  d.doeSigned_leavesAtD1 _ _ _ fun _ => .of_st (by simp)
theorem ownerTransfer_leavesAtD1 (a keys) : d.sec.LeavesAtD1 (ownerTransfer a keys d).sec := by
  unfold ownerTransfer
  extract_lets body
  exact d.doeSigned_leavesAtD1 _ _ _ fun _ => .of_level (Nat.min_le_right ..)
theorem debugToken_leavesAtD1 (a vendor l) : d.sec.LeavesAtD1 (debugToken a vendor l d).sec := by
  simp only [debugToken]
  split
  · exact d.doeSigned_leavesAtD1 _ _ _ fun _ => .of_level (Nat.min_le_right ..)
  · exact d.doeSigned_leavesAtD1 _ _ _ fun _ _ => .inl (by simp)
theorem unlock_leavesAtD1 (a) : d.sec.LeavesAtD1 (unlock a d).sec :=
  d.doeSigned_leavesAtD1 _ _ _ fun ok hs => absurd ok (by simp [hs])

end

/-! ## Every command -/

theorem State.onDev_leavesAtD1 {s t : State} {f : Dev → Dev} (hf : s.dev.sec.LeavesAtD1 (f s.dev).sec) (h : s.onDev f = .next t) :
    s.dev.sec.LeavesAtD1 t.dev.sec := (State.onDev_dev h).1 ▸ hf

/-- Every command, of every kind, keeps a device in OWNER_DEBUG there or brings its level to D1 or below. -/
theorem exec_leavesAtD1 {c : Instr} {s t : State} (h : exec c s = .next t) : s.dev.sec.LeavesAtD1 t.dev.sec := by
  cases c with
  | vddAonRise => exact State.onDev_leavesAtD1 (vddAonRise_leavesAtD1 _ _ _) h
  | vddAonLoss => exact State.onDev_leavesAtD1 (vddAonLoss_leavesAtD1 _) h
  | sysRstNAssert => exact State.onDev_leavesAtD1 (sysRstNAssert_leavesAtD1 _ _) h
  | sysRstNRelease => exact State.onDev_leavesAtD1 (sysRstNRelease_leavesAtD1 _ _ _) h
  | prsntNChange => exact State.onDev_leavesAtD1 (prsntNChange_leavesAtD1 _ _ _ _ _) h
  | powerGoodLost => exact State.onDev_leavesAtD1 (powerGoodLost_leavesAtD1 _ _) h
  | powerGoodRestored => exact State.onDev_leavesAtD1 (powerGoodRestored_leavesAtD1 _ _ _) h
  | tripRelease => exact State.onDev_leavesAtD1 (tripRelease_leavesAtD1 _ _ _) h
  | secDbgLevel => exact State.onDev_leavesAtD1 (.of_st (secDbgLevel_st _ _)) h
  | secDbgExit => exact State.onDev_leavesAtD1 (secDbgExit_leavesAtD1 _) h
  | fwAppend => exact State.onDev_leavesAtD1 (.of_st (fwAppend_st _ _ _)) h
  | fwCommit => exact State.onDev_leavesAtD1 (.of_st (fwCommit_st _ _ _)) h
  | fwCancel => exact State.onDev_leavesAtD1 (.of_st (fwCancel_st _)) h
  | lock => exact State.onDev_leavesAtD1 (lock_leavesAtD1 _ _) h
  | ownerClaim => exact State.onDev_leavesAtD1 (ownerClaim_leavesAtD1 _ _ _) h
  | ownerTransfer => exact State.onDev_leavesAtD1 (ownerTransfer_leavesAtD1 _ _ _) h
  | debugToken => exact State.onDev_leavesAtD1 (debugToken_leavesAtD1 _ _ _ _) h
  | unlock => exact State.onDev_leavesAtD1 (unlock_leavesAtD1 _ _) h
  | registerWrite => exact State.onDev_leavesAtD1 (registerWrite_leavesAtD1 _ _ _) h
  | jtagDbgAccess => exact State.onDev_leavesAtD1 (jtagDbgAccess_leavesAtD1 _ _) h
  | _ => exact .of_eq (exec_sec rfl h)

/-! ## The statement -/

theorem State.gives_onDev {c : Instr} {s : State} {f : Dev → Dev} {d : Dev} (hc : exec c s = s.onDev f) (hf : f s.dev = d) : Gives c s d := by
  rw [Gives, hc, State.onDev_eq, hf]

/-- The owner's token at D1 or D2 opens OWNER_DEBUG. -/
theorem debugToken_owner {d : Dev} {a : DoeAuth} {l : BitVec 2} (hd : d.doeOk = true) (hst : d.sec.st = .locked)
    (ho : d.sec.owner.isSome = true) (hl : l = 1 ∨ l = 2)
    (hv : Config.mldsaVerify d.sec.debugKey (DoeAuth.message a 0x06 [BitVec.ofNat 8 (2 * l.toNat)]) a.sig = true) (hb : d.bound a = true) :
    (debugToken a false l d).sec = { d.sec with st := .ownerDebug, max := if d.sys.st = .darkHouse then 1 else l.toNat } := by
  simp only [debugToken, Bool.false_eq_true, if_false]
  rw [Dev.doeSigned_run d _ hd (by simp [hst]) (by simpa [hst, ho] using hl) (by simp [ho, b2n, hv]) hb]
  simp

/-- Settles O20: the level and the state by the SEC_DBG and token arms; leaving OWNER_DEBUG by `exec_leavesAtD1`. -/
theorem debugLevelFollowsItsRegister : Obligations.DebugLevelFollowsItsRegister := by
  refine ⟨fun s l hb hl => ?_, fun s l hl => ?_, fun s a l hd hst ho hl => ?_, fun s hb hst => ?_, fun s hst => ?_,
    fun c s t h hst hne => ?_⟩
  · exact State.gives_onDev rfl (by simp [secDbgLevel, hb, hl, Dev.modSec])
  · exact State.gives_onDev rfl (by simp [secDbgLevel, hl])
  · exact ⟨_, rfl, debugToken_owner hd hst ho hl⟩
  · exact State.gives_onDev rfl (by simp [secDbgExit, hb, hst, Dev.modSec, Sec.toLocked])
  · exact State.gives_onDev rfl (by simp [secDbgExit, hst])
  · exact (exec_leavesAtD1 h hst).resolve_left hne

end Sys2Proof.Machine
end

section
/-! PROOF. Control units as bytes (R360): the fields that lie on one byte, on two bytes or on eight bytes read back, and with them every
unit. -/
namespace Sys2Proof.Machine

/-! ## Fields of a byte list -/

@[simp] theorem leAt_succ (b : Byte) (bs : List Byte) (o w : Nat) : leAt (b :: bs) (o + 1) w = leAt bs o w := rfl
@[simp] theorem leAt_zero_succ (b : Byte) (bs : List Byte) (w : Nat) : leAt (b :: bs) 0 (w + 1) = b.toNat + 256 * leAt bs 0 w := rfl
@[simp] theorem leAt_zero_zero (bs : List Byte) : leAt bs 0 0 = 0 := by simp [leAt, slice, leNat]

@[simp] theorem leBytes_length (n v : Nat) : (leBytes n v).length = n := by
  induction n generalizing v with
  | zero => rfl
  | succ n ih => simp [leBytes, ih]

theorem leAt_leBytes (n v : Nat) (bs : List Byte) : leAt (leBytes n v ++ bs) 0 n = v % 256 ^ n := by
  induction n generalizing v with
  | zero => simp [Nat.mod_one]
  | succ n ih =>
    rw [leBytes, List.cons_append, leAt_zero_succ, ih, BitVec.toNat_ofNat, @Nat.pow_succ' 256]
    exact Nat.mod_mul.symm

/-- A 64-bit field reads back. -/
theorem leAt_leBytes_word64 (v : BitVec 64) (bs : List Byte) : BitVec.ofNat 64 (leAt (leBytes 8 v.toNat ++ bs) 0 8) = v := by
  rw [leAt_leBytes]
  exact BitVec.eq_of_toNat_eq (by have := v.isLt; simp only [BitVec.toNat_ofNat]; omega)

/-- What lies behind an 8-byte field. -/
theorem leAt_append_right (as bs : List Byte) (o w : Nat) (h : as.length ≤ o) : leAt (as ++ bs) o w = leAt bs (o - as.length) w := by
  simp [leAt, slice, List.drop_append, List.drop_eq_nil_of_le h]

/-! ## Fields that share a byte -/

theorem ofNat16_bytes (n : BitVec 16) : BitVec.ofNat 16 (n.toNat % 256 + 256 * (n.toNat / 256 % 256)) = n := by
  have := n.isLt
  exact BitVec.eq_of_toNat_eq (by simp only [BitVec.toNat_ofNat]; omega)

theorem ofNat24_bytes (n : BitVec 24) : BitVec.ofNat 24 (n.toNat % 256 + 256 * (n.toNat / 256 % 256 + 256 * (n.toNat / 65536 % 256))) = n := by
  have := n.isLt
  exact BitVec.eq_of_toNat_eq (by simp only [BitVec.toNat_ofNat]; omega)

theorem ofNat4_low (lo hi : BitVec 4) : BitVec.ofNat 4 ((lo.toNat + 16 * hi.toNat) % 256) = lo := by
  have := lo.isLt
  exact BitVec.eq_of_toNat_eq (by simp only [BitVec.toNat_ofNat]; omega)

theorem ofNat4_high (lo hi : BitVec 4) : BitVec.ofNat 4 ((lo.toNat + 16 * hi.toNat) % 256 / 16) = hi := by
  have := lo.isLt
  have := hi.isLt
  exact BitVec.eq_of_toNat_eq (by simp only [BitVec.toNat_ofNat]; omega)

theorem ofNat4_byte (n : BitVec 4) : BitVec.ofNat 4 (n.toNat % 256) = n := by
  have := n.isLt
  exact BitVec.eq_of_toNat_eq (by simp only [BitVec.toNat_ofNat]; omega)

theorem coordOf_coordByte (c : Coord) : coordOf (coordByte c % 256) = c := by
  rw [coordOf, coordByte, ofNat4_low, ofNat4_high]

theorem floodOf_bytes (t : Byte) (u : FloodInfo) (bs : List Byte) : floodOf (t :: BitVec.ofNat 8 (coordByte u.origin) :: u.seq :: u.cause :: bs) = u := by
  simp [floodOf, coordOf_coordByte]

theorem ofNat4_level (a : Bool) (l : BitVec 4) : BitVec.ofNat 4 ((b2n a + 2 * l.toNat) % 256 / 2) = l := by
  have := l.isLt
  exact BitVec.eq_of_toNat_eq (by cases a <;> simp [b2n] <;> omega)

theorem bit_abort (a : Bool) (l : BitVec 4) : bit ((b2n a + 2 * l.toNat) % 256) 0 = a := by
  have := l.isLt
  cases a <;> simp [bit, b2n]

@[simp] theorem bit_b2n (a : Bool) : bit (b2n a % 256) 0 = a := by cases a <;> rfl

/-- The three flags of REPORT. -/
theorem bit_flags (a b c : Bool) : let n := (b2n a + 2 * b2n b + 4 * b2n c) % 256
    bit n 0 = a ∧ bit n 1 = b ∧ bit n 2 = c := by
  cases a <;> cases b <;> cases c <;> exact ⟨rfl, rfl, rfl⟩

/-! ## The statement -/

@[simp] theorem ofNat_comp_toNat : BitVec.ofNat 8 ∘ BitVec.toNat = (id : Byte → Byte) := funext fun b => by simp

theorem CtlUnit.bytes_length (u : CtlUnit) : u.bytes.length = 16 := by
  cases u <;> simp [CtlUnit.bytes, CtlUnit.nats]

theorem parseUnit_bytes_reserved {t : Byte}
    (h : t.toNat ∉ [1, 2, 3, 4, 5, 6, 7, 8, 9, 10, 11, 16, 17, 18, 19, 20, 21, 22, 23, 24, 25, 32, 33, 34, 35, 36]) :
    parseUnit (CtlUnit.reserved t).bytes = .reserved t := by
  have hw : leAt (CtlUnit.reserved t).bytes 0 1 = t.toNat := by simp [CtlUnit.bytes, CtlUnit.nats]
  unfold parseUnit
  simp only [hw]
  split
  case h_27 => simp
  all_goals rename_i ht; rw [ht] at h; exact absurd (by decide) h

/-- Settles O45: each field read back by the lemma for the bytes that hold it. -/
theorem controlUnitsKeepEveryField : Obligations.ControlUnitsKeepEveryField := by
  intro u hu
  refine ⟨u.bytes_length, ?_⟩
  cases u with
  | reserved t => exact parseUnit_bytes_reserved (hu t rfl)
  | tick u => simp [CtlUnit.bytes, CtlUnit.nats, parseUnit, ofNat16_bytes, ofNat4_level, bit_abort]
  | report u =>
    obtain ⟨h₀, h₁, h₂⟩ := bit_flags u.loaded u.curOk u.hostUp
    simp [CtlUnit.bytes, CtlUnit.nats, parseUnit, ofNat16_bytes, ofNat4_low, ofNat4_high, coordOf_coordByte, leAt_leBytes_word64, leAt_append_right, h₀, h₁, h₂]
  | hello u | discover | herd u =>
    simp [CtlUnit.bytes, CtlUnit.nats, parseUnit, ofNat16_bytes, ofNat4_low, ofNat4_high, ofNat4_byte, coordOf_coordByte, leAt_leBytes_word64, leAt_append_right]
  | _ => simp [CtlUnit.bytes, CtlUnit.nats, parseUnit, ofNat16_bytes, ofNat24_bytes, ofNat4_byte, coordOf_coordByte, floodOf_bytes]

end Sys2Proof.Machine
end

section
/-! PROOF. The outcomes of commands by the form of their arm, and the invariant of the debug level (R461, R463): the security block is
written by start-up, resets and rails, the SEC registers and the signed requests alone, and each of them bounds the level by MAX and MAX by
what the security state permits. -/
namespace Sys2Proof.Machine

/-! ## Steps and outcomes -/

/-- Settles O1: `step` and the decoder as they are defined. -/
theorem stepRunsTheFrontCommand : Obligations.StepRunsTheFrontCommand :=
  ⟨fun _ _ _ => rfl, fun _ => rfl, fun _ _ _ => ⟨rfl, rfl⟩⟩

/-- An outcome by the operands' form and by whether the addresses they name exist. -/
def EndsByName (c : Instr) (s : State) : Prop :=
  (c.wf = true → inMemory c = true → GivesWith c s fun _ => True) ∧
  (c.wf = false → exec c s = .refused .illFormed) ∧
  (c.wf = true → inMemory c = false → exec c s = .fault .noSuchAddress)

theorem EndsByName.onDev {c : Instr} {s : State} {f : Dev → Dev} (h : exec c s = s.onDev f) (hw : c.wf = true) (hi : inMemory c = true) :
    EndsByName c s :=
  ⟨fun _ _ => ⟨_, h, trivial⟩, by simp [hw], by simp [hi]⟩

theorem EndsByName.onCue {c : Instr} {s : State} {f : Dev → Dev} (h : exec c s = s.onCue c.wf f) (hi : inMemory c = true) : EndsByName c s :=
  ⟨fun hw _ => ⟨f s.dev, by rw [h, State.onCue, hw]; rfl, trivial⟩, fun hw => by rw [h, State.onCue, hw]; rfl, by simp [hi]⟩

theorem EndsByName.onHbmCue {i : Instr} {s : State} {c : HbmCue} {f : Dev → Dev} (hw : i.wf = c.wf) (hi : inMemory i = hbmInside c)
    (h : exec i s = if !c.wf then .refused .illFormed else if !hbmInside c then .fault .noSuchAddress else s.onDev f) : EndsByName i s := by
  rw [EndsByName, GivesWith, h, hw, hi]
  exact ⟨fun a b => ⟨f s.dev, by simp [a, b], trivial⟩, fun a => by simp [a], fun a b => by simp [a, b]⟩

theorem EndsByName.inWindow {i : Instr} {s : State} {a n : Nat} {f : Dev → Dev} (hw : i.wf = true) (hi : inMemory i = inWindow a n)
    (h : exec i s = if inWindow a n then s.onDev f else .fault .noSuchAddress) : EndsByName i s := by
  rw [EndsByName, GivesWith, h, hw, hi]
  exact ⟨fun _ b => ⟨f s.dev, by simp [b], trivial⟩, nofun, fun _ b => by simp [b]⟩

/-- Settles O2, by the form of each command's arm. -/
theorem commandsCompleteOrStopByName : Obligations.CommandsCompleteOrStopByName := by
  intro c s
  change EndsByName c s
  cases c with
  | requant | out | relay | move | repeatWin | rehearseWin | place | matmul | norm | rotary | attnGqa | attnLatent | kvwrite
  | route | combine | sample | verify | adapt | exact | kernelStop | linkSend | linkReceive | linkForward => exact .onCue rfl rfl
  | hbmRd | hbmRdDeliver | hbmWr => exact .onHbmCue rfl rfl rfl
  | hostMemWrite | callboardBitSet | hostMemRead => exact .inWindow rfl rfl rfl
  | kvMessageReserved => exact @EndsByName.onDev _ _ (fun d => if kvCodeKnown _ then d else kvReserved d) rfl rfl rfl
  | kvCmdPark | kvCmdWake | kvCmdFork => exact @EndsByName.onDev _ _ (fun d => d.kvCommand _ _) rfl rfl rfl
  | _ => exact .onDev rfl rfl rfl

/-- Settles O3, by `exec_sec`. -/
theorem securityBlockChangesOnlyByItsCommands : Obligations.SecurityBlockChangesOnlyByItsCommands :=
  fun _ _ _ hc h => exec_sec hc h

/-- Settles O5: nothing is listed at reset. -/
theorem resetMeetsTheInvariants : Obligations.ResetMeetsTheInvariants := ⟨⟨Nat.zero_le _, Nat.zero_le _⟩, rfl, rfl, rfl⟩

/-! ## The debug fields of the security block -/

/-- Security state, MAX and level. -/
def Sec.debug (x : Sec) : SecState × Nat × Nat := (x.st, x.max, x.level)

/-- The level is within MAX, and MAX within what the security state permits. -/
def Sec.Bounded (x : Sec) : Prop := x.level ≤ x.max ∧ x.max ≤ permitted x.st

theorem Sec.Bounded.of_debug {a b : Sec} (ha : a.Bounded) (h : b.debug = a.debug) : b.Bounded := by
  simp only [Sec.debug, Prod.mk.injEq] at h
  obtain ⟨hst, hmax, hlevel⟩ := h
  rwa [Sec.Bounded, hst, hmax, hlevel]

theorem Sec.Bounded.of_eq {a b : Sec} (ha : a.Bounded) (h : b = a) : b.Bounded := h ▸ ha

/-- D0 with MAX D0 is within every state's bounds. -/
theorem Sec.bounded_zero {x : Sec} (hl : x.level = 0) (hm : x.max = 0) : x.Bounded := by simp [Sec.Bounded, hl, hm]

theorem Sec.Bounded.toLocked {x : Sec} : x.toLocked.Bounded := ⟨Nat.min_le_right .., Nat.le_refl 1⟩

theorem SecState.max_eq_permitted (st : SecState) : st.max = permitted st := by cases st <;> rfl

section
variable (d : Dev)

/-! ## Start-up and reset -/

@[simp] theorem Dev.reset_max : d.reset.sec.max = 0 := by simp [Dev.reset]
theorem Dev.reset_bounded : d.reset.sec.Bounded := Sec.bounded_zero d.reset_level d.reset_max
theorem Dev.holdReset_bounded : d.holdReset.sec.Bounded := Sec.bounded_zero d.holdReset_level (by simp [Dev.holdReset])
theorem vddAonLoss_bounded (h : d.sec.Bounded) : (vddAonLoss d).sec.Bounded := by
  unfold vddAonLoss
  split
  · exact h
  · simpa using d.reset_bounded

theorem Dev.darkHouse_bounded (h : d.sec.Bounded) (cause dark) : (d.darkHouse cause dark).sec.Bounded := by
  unfold Dev.darkHouse
  rw [Dev.setSt_sec, Dev.modSec_sec]
  cases dark
  · exact ⟨min_le_min_right 1 h.1, (Nat.min_le_left ..).trans h.2⟩
  · exact Sec.bounded_zero rfl rfl

theorem Dev.hbmStartFailed_bounded (h : d.sec.Bounded) : d.hbmStartFailed.sec.Bounded := Dev.darkHouse_bounded _ (by simpa using h) _ _

theorem Dev.bootManager_debug (bo sm t) : (d.bootManager bo sm t).sec.debug = d.sec.debug := by
  unfold Dev.bootManager
  extract_lets d₁ d₂ d₃ d₄ d₅ d₆
  have h₃ : d₃.sec.debug = d.sec.debug := by simp [d₁, d₂, d₃, Sec.debug]
  have h₄ : d₄.sec = d₃.sec := by simp [d₄]
  have h₅ : d₅.sec = d₄.sec := by simp [d₅]
  have h₆ : d₆.sec = d₅.sec := by simp [d₆]
  split <;> simp [h₃, h₄, h₅, h₆]

/-- Each way out of the start-up sequence (R450). -/
theorem Dev.startUp_bounded (t b) : (d.startUp t b).sec.Bounded := by
  unfold Dev.startUp
  dsimp only
  have zero {x : Sec} (h₁ : x.level = 0) (h₂ : x.max = 0) := Sec.bounded_zero h₁ h₂
  have booted {x : Sec} (h₁ : x.level = 0) (h₂ : x.max = x.st.max) : x.Bounded := by
    simp [Sec.Bounded, h₁, h₂, SecState.max_eq_permitted]
  split
  · exact Dev.darkHouse_bounded _ (zero (by simp) (by simp)) _ _
  split
  · exact Dev.darkHouse_bounded _ (zero (by simp) (by simp)) _ _
  split
  · exact Dev.darkHouse_bounded _ (booted (by simp) rfl) _ _
  split
  · exact Dev.hbmStartFailed_bounded _ (booted (by simp) rfl)
  split
  · exact Dev.darkHouse_bounded _ (booted (by simp) rfl) _ _
  split
  · exact Dev.darkHouse_bounded _ (booted (by simp) rfl) _ _
  split
  · exact Sec.Bounded.of_debug (booted (by simp) (by simp)) (Dev.bootManager_debug _ _ _ _)
  · rw [Dev.raise_sec, Dev.modSec_sec]
    exact booted (by simp) (by simp)

theorem Dev.tryStart_bounded (h : d.sec.Bounded) (t b) : (d.tryStart t b).sec.Bounded := by
  unfold Dev.tryStart
  split
  · exact d.startUp_bounded t b
  · exact h

theorem sysRstNAssert_bounded (h : d.sec.Bounded) (lowNs) : (sysRstNAssert lowNs d).sec.Bounded := by
  unfold sysRstNAssert
  split
  · exact h
  · exact Dev.holdReset_bounded _
theorem sysRstNRelease_bounded (h : d.sec.Bounded) (t b) : (sysRstNRelease t b d).sec.Bounded := by
  unfold sysRstNRelease
  split
  · exact h
  · exact Dev.tryStart_bounded _ (by simpa using h) t b
theorem prsntNChange_bounded (h : d.sec.Bounded) (asserted stableNs t b) : (prsntNChange asserted stableNs t b d).sec.Bounded := by
  unfold prsntNChange
  split
  · exact h
  split
  · exact h.of_eq (by simp)
  split
  · exact h
  dsimp only
  split
  · exact Dev.tryStart_bounded _ (by simpa using h) t b
  · exact Dev.holdReset_bounded _
theorem vddAonRise_bounded (h : d.sec.Bounded) (t b) : (vddAonRise t b d).sec.Bounded := by
  unfold vddAonRise
  split
  · exact Dev.tryStart_bounded _ (h.of_eq (by simp [Dev.aonUp])) t b
  · exact h
theorem powerGoodLost_bounded (h : d.sec.Bounded) (rail) : (powerGoodLost rail d).sec.Bounded := by
  unfold powerGoodLost
  split
  · exact vddAonLoss_bounded d h
  dsimp only
  split
  · exact h.of_eq (by simp)
  · exact Dev.holdReset_bounded _
theorem powerGoodRestored_bounded (h : d.sec.Bounded) (t b) : (powerGoodRestored t b d).sec.Bounded := by
  unfold powerGoodRestored
  split
  · exact h
  · exact Dev.tryStart_bounded _ (h.of_eq (by simp [Dev.aonUp])) t b
theorem tripRelease_bounded (h : d.sec.Bounded) (t b) : (tripRelease t b d).sec.Bounded := by
  simp only [tripRelease]
  split
  · exact h
  · exact Dev.tryStart_bounded _ (by simpa using h) t b

/-! ## The SEC registers -/

theorem secDbgLevel_bounded (h : d.sec.Bounded) (l) : (secDbgLevel l d).sec.Bounded := by
  unfold secDbgLevel
  split
  · rename_i hl
    simp only [Bool.and_eq_true, decide_eq_true_eq] at hl
    exact ⟨hl.2, h.2⟩
  · exact h

theorem secDbgExit_bounded (h : d.sec.Bounded) : (secDbgExit d).sec.Bounded := by
  unfold secDbgExit
  split
  · exact .toLocked
  · exact h

@[simp] theorem Dev.fwErr_debug (c) : (d.fwErr c).sec.debug = d.sec.debug := by simp [Dev.fwErr, Sec.debug]
@[simp] theorem fwAppend_debug (kind units) : (fwAppend kind units d).sec.debug = d.sec.debug := by
  simp only [fwAppend]
  (repeat' split) <;> simp [Sec.fwFields, Sec.debug, Dev.fwErr]
@[simp] theorem fwCommit_debug (kind ok) : (fwCommit kind ok d).sec.debug = d.sec.debug := by
  unfold fwCommit
  split
  · rfl
  dsimp only
  split
  · rw [Dev.modSec_sec]
    split <;> split <;> rfl
  · simp [Sec.debug, Dev.fwErr]
@[simp] theorem fwCancel_debug : (fwCancel d).sec.debug = d.sec.debug := by unfold fwCancel; split <;> simp [Sec.debug]
@[simp] theorem Dev.on_debug {f : Dev → Dev} (h : ∀ d, (f d).sec.debug = d.sec.debug) (c) : (d.on c f).sec.debug = d.sec.debug := by
  unfold Dev.on; split <;> simp [h]
@[simp] theorem Dev.fwCtrl_debug (v) : (d.fwCtrl v).sec.debug = d.sec.debug := by simp [Dev.fwCtrl, Sec.fwFields]; rfl

theorem Dev.secWrite_bounded (h : d.sec.Bounded) (off v) : (d.secWrite off v).sec.Bounded := by
  unfold Dev.secWrite
  split
  · have hl := secDbgLevel_bounded d h (BitVec.ofNat 2 v.toNat)
    unfold Dev.on
    split
    · exact secDbgExit_bounded _ hl
    · exact hl
  split
  · exact h.of_debug (by simp)
  split
  · exact h.of_debug rfl
  split <;> exact h.of_debug rfl

theorem Dev.regWrite_bounded (h : d.sec.Bounded) (off v) : (d.regWrite off v).sec.Bounded := by
  by_cases hb : regBlock off = 9
  · have hw : d.regWrite off v = if off % 4 != 0 || !d.barOk then d else d.secWrite (off - 0x1800000) v := by
      simp [Dev.regWrite, hb]
    rw [hw]
    split
    · exact h
    · exact Dev.secWrite_bounded d h _ _
  · exact h.of_eq (Dev.regWrite_sec d hb v)

theorem registerWrite_bounded (h : d.sec.Bounded) (off v) : (registerWrite off v d).sec.Bounded := by
  unfold registerWrite
  split
  · exact h.of_eq (by simp)
  split
  · exact Dev.regWrite_bounded d h _ _
  · exact h

/-! ## DBG_ACCESS -/

theorem Dev.dbgAccess_bounded (h : d.sec.Bounded) (r) : (d.dbgAccess r).1.sec.Bounded := by
  simp only [Dev.dbgAccess]
  split
  · split
    · split
      · exact Dev.regWrite_bounded d h _ _
      · exact h.of_eq (by simp)
    · split <;> exact h.of_eq (by simp)
  all_goals (repeat' split) <;> exact h.of_eq (by simp)

theorem jtagDbgAccess_bounded (h : d.sec.Bounded) (r) : (jtagDbgAccess r d).sec.Bounded := by
  unfold jtagDbgAccess
  split
  · exact h
  · simpa using Dev.dbgAccess_bounded d h r

/-! ## Signed requests -/

theorem Dev.doeSigned_bounded (h : d.sec.Bounded) (a ok signed) {f : Dev → Dev} (hf : ok = true → (f d).sec.Bounded) :
    (d.doeSigned a ok signed f).sec.Bounded := by
  obtain he | ⟨hok, he⟩ := d.doeSigned_sec a ok signed f
  · exact h.of_eq he
  · exact (hf hok).of_eq he

theorem lock_bounded (h : d.sec.Bounded) (a) : (lock a d).sec.Bounded :=
  d.doeSigned_bounded h _ _ _ fun _ => ⟨Nat.min_le_right .., Nat.le_refl 1⟩
theorem ownerClaim_bounded (h : d.sec.Bounded) (a keys) : (ownerClaim a keys d).sec.Bounded :=
  d.doeSigned_bounded h _ _ _ fun _ => h.of_debug (by simp [Sec.debug])
theorem ownerTransfer_bounded (h : d.sec.Bounded) (a keys) : (ownerTransfer a keys d).sec.Bounded := by
  unfold ownerTransfer
  extract_lets body
  exact d.doeSigned_bounded h _ _ _ fun _ => ⟨Nat.min_le_right .., Nat.le_refl 1⟩

/-- In LOCKED the level is at most D1, and a token asks for D1 or D2. -/
theorem debugToken_bounded (h : d.sec.Bounded) (a vendor l) : (debugToken a vendor l d).sec.Bounded := by
  simp only [debugToken]
  split
  · exact d.doeSigned_bounded h _ _ _ fun _ => ⟨(Nat.min_le_right _ 1).trans (Nat.le_add_left 1 2), Nat.le_refl 3⟩
  · refine d.doeSigned_bounded h _ _ _ fun hok => ?_
    simp only [Bool.and_eq_true, beq_iff_eq, Bool.or_eq_true] at hok
    obtain ⟨⟨hst, -⟩, hl⟩ := hok
    have hmax : d.sec.max ≤ 1 := by simpa [hst, permitted] using h.2
    have hlevel : d.sec.level ≤ 1 := h.1.trans hmax
    rw [Dev.modSec_sec, Sec.Bounded]
    obtain rfl | rfl := hl <;> simp only [permitted] <;> split <;> exact ⟨hlevel.trans (by decide), by decide⟩

/-- VENDOR_DEBUG and MANUFACTURE both permit D3. -/
theorem unlock_bounded (h : d.sec.Bounded) (a) : (unlock a d).sec.Bounded := by
  refine d.doeSigned_bounded h _ _ _ fun hok => ?_
  simp only [Bool.and_eq_true, beq_iff_eq] at hok
  have hmax : d.sec.max ≤ 3 := by simpa [hok.1, permitted] using h.2
  exact ⟨by simpa using h.1.trans hmax, Nat.le_refl 3⟩

end

/-! ## Every command -/

theorem State.onDev_bounded {s t : State} {f : Dev → Dev} (hf : (f s.dev).sec.Bounded) (h : s.onDev f = .next t) : t.dev.sec.Bounded :=
  (State.onDev_dev h).1 ▸ hf

theorem exec_bounded {c : Instr} {s t : State} (hs : s.dev.sec.Bounded) (h : exec c s = .next t) : t.dev.sec.Bounded := by
  cases c with
  | vddAonRise => exact State.onDev_bounded (vddAonRise_bounded _ hs _ _) h
  | vddAonLoss => exact State.onDev_bounded (vddAonLoss_bounded _ hs) h
  | sysRstNAssert => exact State.onDev_bounded (sysRstNAssert_bounded _ hs _) h
  | sysRstNRelease => exact State.onDev_bounded (sysRstNRelease_bounded _ hs _ _) h
  | prsntNChange => exact State.onDev_bounded (prsntNChange_bounded _ hs _ _ _ _) h
  | powerGoodLost => exact State.onDev_bounded (powerGoodLost_bounded _ hs _) h
  | powerGoodRestored => exact State.onDev_bounded (powerGoodRestored_bounded _ hs _ _) h
  | tripRelease => exact State.onDev_bounded (tripRelease_bounded _ hs _ _) h
  | secDbgLevel => exact State.onDev_bounded (secDbgLevel_bounded _ hs _) h
  | secDbgExit => exact State.onDev_bounded (secDbgExit_bounded _ hs) h
  | fwAppend => exact State.onDev_bounded (hs.of_debug (fwAppend_debug _ _ _)) h
  | fwCommit => exact State.onDev_bounded (hs.of_debug (fwCommit_debug _ _ _)) h
  | fwCancel => exact State.onDev_bounded (hs.of_debug (fwCancel_debug _)) h
  | lock => exact State.onDev_bounded (lock_bounded _ hs _) h
  | ownerClaim => exact State.onDev_bounded (ownerClaim_bounded _ hs _ _) h
  | ownerTransfer => exact State.onDev_bounded (ownerTransfer_bounded _ hs _ _) h
  | debugToken => exact State.onDev_bounded (debugToken_bounded _ hs _ _ _) h
  | unlock => exact State.onDev_bounded (unlock_bounded _ hs _) h
  | registerWrite => exact State.onDev_bounded (registerWrite_bounded _ hs _ _) h
  | jtagDbgAccess => exact State.onDev_bounded (jtagDbgAccess_bounded _ hs _) h
  | _ => exact hs.of_eq (exec_sec rfl h)

/-- A property that every command keeps is kept by every step. -/
theorem step_keeps {P : Dev → Prop} (hP : ∀ {c : Instr} {s t : State}, P s.dev → exec c s = .next t → P t.dev) {s t : State} (hs : P s.dev)
    (h : step s = .next t) : P t.dev := by
  unfold step at h
  split at h
  · cases h; exact hs
  case h_2 c rest _ => exact @hP _ { s with pending := rest } _ hs h

/-- Settles O4, by `exec_bounded`. -/
theorem debugLevelStaysPermitted : Obligations.DebugLevelStaysPermitted :=
  fun _ _ hs h => @step_keeps (fun d => d.sec.Bounded) (fun hs h => exec_bounded hs h) _ _ hs h

end Sys2Proof.Machine
end

section
/-! PROOF. Every operation of the model keeps the byte stores and the tables of records, sets, lanes and adapter slots in canonical form.
Writes of the stores and tables go through the operations of Laws/Sparse.lean; one rule per operation, after the file of the model that
defines it, callees first: each names the rules of what it calls. -/
namespace Sys2Proof.Machine

/-! ## The form, block by block -/

def Err.Wf (e : Err) : Prop := sparseWf e.ring = true ∧ sparseWf e.stack = true
def Tile.Wf (t : Tile) : Prop := sparseWf t.acc = true ∧ sparseWf t.census = true
def Frm.Wf (f : Frm) : Prop := sparseWf f.lanes = true ∧ sparseWf f.nextLanes = true
def Call.Wf (c : Call) : Prop := sparseWf c.adpSlots = true ∧ sparseWf c.adpDir = true
def Eng.Wf (e : Eng) : Prop := sparseWf e.encoreOver = true

theorem Dev.tablesWf_iff (d : Dev) : d.tablesWf = true ↔ d.err.Wf ∧ d.tile.Wf ∧ d.frm.Wf ∧ d.call.Wf ∧ d.eng.Wf := by
  simp only [Dev.tablesWf, Bool.and_eq_true, Err.Wf, Tile.Wf, Frm.Wf, Call.Wf, Eng.Wf]
  tauto

/-! ## The operations of one block -/

@[simp] theorem sparseWf_nil {α : Type} : sparseWf ([] : Sparse α) = true := rfl

theorem Err.wf_count {e : Err} (h : e.Wf) (n) : (e.count n).Wf := h
theorem Err.wf_hostWrote {e : Err} (h : e.Wf) (cw) : (e.hostWrote cw).Wf := h
theorem Err.wf_endTest {e : Err} (h : e.Wf) (st u l) : (e.endTest st u l).Wf := h
theorem Err.wf_emptied (e : Err) : e.emptied.Wf := ⟨rfl, rfl⟩

theorem Err.wf_putRing {e : Err} (h : e.Wf) (k r t) : Err.Wf { e with ring := sput e.ring k r, tail := t } := ⟨sparseWf_sput _ _ _ h.1, h.2⟩

theorem Err.wf_pushStack {e : Err} (h : e.Wf) (r) : (e.pushStack r).Wf := by
  unfold Err.pushStack
  split
  · exact h
  · refine ⟨?_, sparseWf_sput _ _ _ ?_⟩ <;> (repeat' split) <;> grind only [Err.Wf, Err.wf_count]

theorem Err.wf_pushRing {e : Err} (h : e.Wf) (r) : (e.pushRing r).Wf := by
  unfold Err.pushRing
  grind only [Err.Wf, Err.wf_count, sparseWf_sput]

/-- A record of the table, with its consumed mark changed, stands at its key. -/
theorem sparseWf_mapVal {α β : Type} (m : Sparse α) (f : Nat × α → Nat × β) (hf : ∀ e, (f e).1 = e.1) (w : sparseWf m = true) :
    sparseWf (m.map f) = true := sparseFrom_map m f hf w

theorem Err.wf_advance {e : Err} (h : e.Wf) (head) : (e.advance head).Wf := by
  unfold Err.advance
  refine foldl_keeps Err.Wf _ (fun e seq he => ?_) _ _ ⟨h.1, sparseWf_mapVal _ _ (fun _ => rfl) h.2⟩
  grind only [Err.Wf, sparseWf_sput]

/-- Records numbered from 0 stand at rising keys. -/
theorem sparseFrom_zipIdx {α : Type} (l : List α) (n : Nat) : sparseFrom n ((l.zipIdx n).map fun r => (r.2, r.1)) = true := by
  induction l generalizing n with
  | nil => rfl
  | cons x t ih => simp [List.zipIdx_cons, sparseFrom, ih]

theorem Err.wf_boot (e : Err) : e.boot.Wf := ⟨sparseFrom_zipIdx _ 0, rfl⟩

theorem Tile.wf_land {t : Tile} (h : t.Wf) (slot) : (t.land slot).Wf :=
  foldl_keeps Tile.Wf _ (fun t c ht => by grind only [Tile.Wf, sparseWf_sput]) _ t h
theorem Tile.wf_setArr {t : Tile} (h : t.Wf) (n x) : (t.setArr n x).Wf := h
theorem Tile.wf_suspend {t : Tile} (h : t.Wf) : t.suspend.Wf := h
theorem Tile.wf_dropLoads {t : Tile} (h : t.Wf) : t.dropLoads.Wf := h
theorem Tile.wf_abandonSoft {t : Tile} (h : t.Wf) : t.abandonSoft.Wf := h
theorem Tile.wf_passed {t : Tile} (h : t.Wf) (n) : (t.passed n).Wf := h
theorem Tile.wf_writeCells {t : Tile} (h : t.Wf) (n key) : (t.writeCells n key).Wf := h
theorem Tile.wf_kept (t : Tile) : t.kept.Wf := ⟨rfl, rfl⟩

theorem Tile.wf_applyUps {t : Tile} (h : t.Wf) : t.applyUps.Wf := by
  unfold Tile.applyUps
  extract_lets points one
  have hone : ∀ t p r, t.Wf → (one t p r).Wf := fun t p r ht => by
    simp only [one]
    split <;> exact ht
  exact foldl_keeps Tile.Wf _ (fun t p ht => hone _ _ _ (hone _ _ _ (hone _ _ _ ht))) points t h

theorem Tile.wf_setCensus {t : Tile} (h : t.Wf) (x area) : (t.setCensus x area).Wf :=
  ⟨h.1, foldl_keeps (fun m => sparseWf m = true) _ (fun _ _ w => sparseWf_sput _ _ _ w) _ _ (sparseWf_sclear _ _ _ h.2)⟩

theorem Frm.wf_emptyLanes {f : Frm} (h : f.Wf) (x y s) : (f.emptyLanes x y s).Wf := ⟨sparseWf_filter _ _ h.1, sparseWf_filter _ _ h.2⟩
theorem Frm.wf_stopCues {f : Frm} (h : f.Wf) : f.stopCues.Wf := h
theorem Frm.wf_countStalls {f : Frm} (h : f.Wf) : f.countStalls.Wf := h
theorem Frm.wf_slewPath {f : Frm} (h : f.Wf) : f.slewPath.Wf := h
theorem Frm.wf_countLen {f : Frm} (h : f.Wf) (len period) : (f.countLen len period).Wf := by
  unfold Frm.countLen; dsimp only; split <;> exact h
theorem Frm.wf_tickInCtrl {f : Frm} (h : f.Wf) (en) : (f.tickInCtrl en).Wf := by
  unfold Frm.tickInCtrl; split <;> exact h
theorem Frm.wf_clearHeld {f : Frm} (h : f.Wf) (st) : (f.clearHeld st).Wf := by
  have key : ∀ l : Nat × Tok, (if l.2.step = st then (l.1, { l.2 with encHeld := false }) else l).1 = l.1 := fun l => by split <;> rfl
  exact ⟨sparseWf_mapVal _ _ key h.1, sparseWf_mapVal _ _ key h.2⟩

theorem Call.wf_putSlot {c : Call} (h : c.Wf) (n x) : Call.Wf { c with adpSlots := sput c.adpSlots n x } := ⟨sparseWf_sput _ _ _ h.1, h.2⟩
theorem Call.wf_delSlot {c : Call} (h : c.Wf) (n) : Call.Wf { c with adpSlots := sdel c.adpSlots n } := ⟨sparseWf_sdel _ _ h.1, h.2⟩
theorem Call.wf_dropCache {c : Call} (h : c.Wf) (s) : (c.dropCache s).Wf := h
theorem Call.wf_turnRotor {c : Call} (h : c.Wf) (top) : (c.turnRotor top).Wf := h
theorem Call.wf_retireFree {c : Call} (h : c.Wf) (n) : (c.retireFree n).Wf := by
  unfold Call.retireFree
  grind only [Call.wf_delSlot]
theorem Call.wf_mark {c : Call} (h : c.Wf) (n) : (c.mark n).Wf := by
  unfold Call.mark
  grind only [Call.wf_putSlot, Call.wf_retireFree]

theorem Mem.wf_setOwner {m : Mem} (h : m.wf = true) (o sp) : Mem.wf { m with owner := o, spill := sp } = true := h

/-- What is canonical in the first device is so in the second. -/
structure Dev.Keeps (a d : Dev) : Prop where
  mem : a.mem.wf = true → d.mem.wf = true
  tables : a.tablesWf = true → d.tablesWf = true

theorem Dev.keeps_refl (d : Dev) : d.Keeps d := ⟨id, id⟩

section
variable {a d : Dev}

/-! ## One rule per block -/

theorem Dev.modSys_keeps (h : a.Keeps d) (f) : a.Keeps (d.modSys f) := ⟨h.mem, h.tables⟩
theorem Dev.modHost_keeps (h : a.Keeps d) (f) : a.Keeps (d.modHost f) := ⟨h.mem, h.tables⟩
theorem Dev.modThm_keeps (h : a.Keeps d) (f) : a.Keeps (d.modThm f) := ⟨h.mem, h.tables⟩
theorem Dev.modHkc_keeps (h : a.Keeps d) (f) : a.Keeps (d.modHkc f) := ⟨h.mem, h.tables⟩
theorem Dev.modSec_keeps (h : a.Keeps d) (f) : a.Keeps (d.modSec f) := ⟨h.mem, h.tables⟩
theorem Dev.modDbg_keeps (h : a.Keeps d) (f) : a.Keeps (d.modDbg f) := ⟨h.mem, h.tables⟩
theorem Dev.modMesh_keeps (h : a.Keeps d) (f) : a.Keeps (d.modMesh f) := ⟨h.mem, h.tables⟩
theorem Dev.modScr_keeps (h : a.Keeps d) (f) : a.Keeps (d.modScr f) := ⟨h.mem, h.tables⟩
theorem Dev.modWts_keeps (h : a.Keeps d) (f) : a.Keeps (d.modWts f) := ⟨h.mem, h.tables⟩
theorem Dev.modKv_keeps (h : a.Keeps d) (f) : a.Keeps (d.modKv f) := ⟨h.mem, h.tables⟩
theorem Dev.emit_keeps (h : a.Keeps d) (o) : a.Keeps (d.emit o) := ⟨h.mem, h.tables⟩
theorem Dev.at__keeps (h : a.Keeps d) (t) : a.Keeps (d.at_ t) := ⟨h.mem, h.tables⟩
theorem Dev.useFree_keeps (h : a.Keeps d) (k) : a.Keeps (d.useFree k) := ⟨h.mem, h.tables⟩

theorem Dev.modErr_wf (h : a.Keeps d) {f : Err → Err} (hf : d.err.Wf → (f d.err).Wf) : a.Keeps (d.modErr f) :=
  ⟨h.mem, fun ha => by have := h.tables ha; rw [Dev.tablesWf_iff] at this ⊢; exact ⟨hf this.1, this.2⟩⟩
theorem Dev.modTile_wf (h : a.Keeps d) {f : Tile → Tile} (hf : d.tile.Wf → (f d.tile).Wf) : a.Keeps (d.modTile f) :=
  ⟨h.mem, fun ha => by have := h.tables ha; rw [Dev.tablesWf_iff] at this ⊢; exact ⟨this.1, hf this.2.1, this.2.2⟩⟩
theorem Dev.modFrm_wf (h : a.Keeps d) {f : Frm → Frm} (hf : d.frm.Wf → (f d.frm).Wf) : a.Keeps (d.modFrm f) :=
  ⟨h.mem, fun ha => by have := h.tables ha; rw [Dev.tablesWf_iff] at this ⊢; exact ⟨this.1, this.2.1, hf this.2.2.1, this.2.2.2⟩⟩
theorem Dev.modCall_wf (h : a.Keeps d) {f : Call → Call} (hf : d.call.Wf → (f d.call).Wf) : a.Keeps (d.modCall f) :=
  ⟨h.mem, fun ha => by
    have := h.tables ha; rw [Dev.tablesWf_iff] at this ⊢; exact ⟨this.1, this.2.1, this.2.2.1, hf this.2.2.2.1, this.2.2.2.2⟩⟩
theorem Dev.modEng_wf (h : a.Keeps d) {f : Eng → Eng} (hf : d.eng.Wf → (f d.eng).Wf) : a.Keeps (d.modEng f) :=
  ⟨h.mem, fun ha => by
    have := h.tables ha; rw [Dev.tablesWf_iff] at this ⊢; exact ⟨this.1, this.2.1, this.2.2.1, this.2.2.2.1, hf this.2.2.2.2⟩⟩
theorem Dev.modMem_wf (h : a.Keeps d) {f : Mem → Mem} (hf : d.mem.wf = true → (f d.mem).wf = true) : a.Keeps (d.modMem f) :=
  ⟨fun ha => hf (h.mem ha), h.tables⟩

/-! A block's other fields are free. -/

theorem Dev.modErr_keeps (h : a.Keeps d) {f : Err → Err} (h₁ : (f d.err).ring = d.err.ring) (h₂ : (f d.err).stack = d.err.stack) :
    a.Keeps (d.modErr f) := Dev.modErr_wf h fun hw => by rwa [Err.Wf, h₁, h₂]
theorem Dev.modTile_keeps (h : a.Keeps d) {f : Tile → Tile} (h₁ : (f d.tile).acc = d.tile.acc) (h₂ : (f d.tile).census = d.tile.census) :
    a.Keeps (d.modTile f) := Dev.modTile_wf h fun hw => by rwa [Tile.Wf, h₁, h₂]
theorem Dev.modFrm_keeps (h : a.Keeps d) {f : Frm → Frm} (h₁ : (f d.frm).lanes = d.frm.lanes) (h₂ : (f d.frm).nextLanes = d.frm.nextLanes) :
    a.Keeps (d.modFrm f) := Dev.modFrm_wf h fun hw => by rwa [Frm.Wf, h₁, h₂]
theorem Dev.modCall_keeps (h : a.Keeps d) {f : Call → Call} (h₁ : (f d.call).adpSlots = d.call.adpSlots)
    (h₂ : (f d.call).adpDir = d.call.adpDir) : a.Keeps (d.modCall f) := Dev.modCall_wf h fun hw => by rwa [Call.Wf, h₁, h₂]
theorem Dev.modEng_keeps (h : a.Keeps d) {f : Eng → Eng} (h₁ : (f d.eng).encoreOver = d.eng.encoreOver) : a.Keeps (d.modEng f) :=
  Dev.modEng_wf h fun hw => by rwa [Eng.Wf, h₁]
theorem Dev.modMem_keeps (h : a.Keeps d) {f : Mem → Mem} (h₁ : (f d.mem).hbm = d.mem.hbm) (h₂ : (f d.mem).wings = d.mem.wings)
    (h₃ : (f d.mem).localBuf = d.mem.localBuf) (h₄ : (f d.mem).prompter = d.mem.prompter) (h₅ : (f d.mem).apron = d.mem.apron) :
    a.Keeps (d.modMem f) := Dev.modMem_wf h fun hw => by rwa [Mem.wf, h₁, h₂, h₃, h₄, h₅]

/-! ## Loops -/

theorem Dev.foldl_keeps {α : Type} {f : Dev → α → Dev} (hf : ∀ d x, a.Keeps d → a.Keeps (f d x)) (l : List α) (h : a.Keeps d) :
    a.Keeps (l.foldl f d) := Machine.foldl_keeps a.Keeps f hf l d h
theorem Dev.foldl_fst_keeps {α β : Type} {f : Dev × β → α → Dev × β} (hf : ∀ z x, a.Keeps z.1 → a.Keeps (f z x).1) (l : List α)
    {z : Dev × β} (h : a.Keeps z.1) : a.Keeps (l.foldl f z).1 := Machine.foldl_keeps (fun y => a.Keeps y.1) f hf l z h

theorem Dev.ite_keeps {c : Prop} [Decidable c] {x y : Dev} (hx : a.Keeps x) (hy : a.Keeps y) : a.Keeps (if c then x else y) := by
  split
  · exact hx
  · exact hy

theorem Dev.allocPage_keeps (h : a.Keeps d) (k i) {p e} (he : d.allocPage k i = some (p, e)) : a.Keeps e := by
  unfold Dev.allocPage at he
  dsimp only at he
  split at he
  · cases he
    exact Dev.modKv_keeps h _
  · cases he

/-- Devices that agree on the stores and the tables keep the same. -/
theorem Dev.Keeps.of_eq (h : a.Keeps d) {e : Dev} (hm : e.mem = d.mem) (ht : e.tablesWf = d.tablesWf) : a.Keeps e :=
  ⟨fun ha => hm ▸ h.mem ha, fun ha => ht ▸ h.tables ha⟩

theorem Dev.keeps_fst {β : Type} {p : Dev × β} {e : Dev} {x : β} (hp : p = (e, x)) (h : a.Keeps p.1) : a.Keeps e := by
  subst hp
  exact h

/-! ## Machine/Ops -/

theorem Dev.sendMsix_keeps (h : a.Keeps d) (v) : a.Keeps (d.sendMsix v) := by
  unfold Dev.sendMsix
  grind only [Dev.emit_keeps, Dev.modHost_keeps]

theorem Dev.fireVector_keeps (h : a.Keeps d) (v) : a.Keeps (d.fireVector v) := by
  unfold Dev.fireVector
  grind only [Dev.sendMsix_keeps, Dev.modHost_keeps]

theorem Dev.event_keeps (h : a.Keeps d) (e) : a.Keeps (d.event e) := by
  unfold Dev.event
  grind only [Dev.modHost_keeps, Dev.fireVector_keeps]

theorem Dev.clearEvents_keeps (h : a.Keeps d) (bits) : a.Keeps (d.clearEvents bits) := by
  unfold Dev.clearEvents
  grind only [Dev.modHost_keeps]

theorem Dev.settle_keeps (h : a.Keeps d) (b) : a.Keeps (Dev.settle b d) := Dev.modSys_keeps h _

theorem Dev.setSt_keeps (h : a.Keeps d) (st) : a.Keeps (d.setSt st) := by
  unfold Dev.setSt
  grind only [Dev.settle_keeps, Dev.event_keeps, Dev.modSys_keeps]

/-! ## Machine/Memory -/

theorem Dev.hbmWr_keeps (h : a.Keeps d) (a' bs) : a.Keeps (d.hbmWr a' bs) := by
  unfold Dev.hbmWr
  grind only [Dev.modMem_keeps, Dev.modMem_wf, Mem.wf_iff, Mem.wf_wrHbm, Mem.wf_zeroHbm, Mem.wf_zeroApron, Mem.wf_copyHbm, Mem.wf_count,
    Mem.wf_zeroCw, Mem.wf_flip, Mem.wf_applyRepairs, cellsWf_wrN, cellsWf_zeroRange, sparseWf_sput, sparseWf_sdel, sparseWf_smod,
    sparseWf_filter, sparseWf_sclear]

theorem Dev.setSes_keeps (h : a.Keeps d) (s off v) : a.Keeps (d.setSes s off v) := by
  unfold Dev.setSes
  grind only [Dev.hbmWr_keeps]

theorem Dev.setSesF_keeps (h : a.Keeps d) (s off lo w x) : a.Keeps (d.setSesF s off lo w x) := by
  unfold Dev.setSesF
  grind only [Dev.setSes_keeps]

theorem Dev.setSstate_keeps (h : a.Keeps d) (s v) : a.Keeps (d.setSstate s v) := by
  unfold Dev.setSstate
  grind only [Dev.setSesF_keeps]

theorem Dev.setKstate_keeps (h : a.Keeps d) (s v) : a.Keeps (d.setKstate s v) := by
  unfold Dev.setKstate
  grind only [Dev.setSesF_keeps]

theorem Dev.clearCalling_keeps (h : a.Keeps d) (s) : a.Keeps (d.clearCalling s) := by
  unfold Dev.clearCalling
  grind only [Dev.hbmWr_keeps]

/-! ## Machine/Errors -/

theorem Dev.ethSend_keeps (h : a.Keeps d) (bs) : a.Keeps (d.ethSend bs) := by
  unfold Dev.ethSend
  grind only [Dev.emit_keeps]

theorem Dev.record_keeps (h : a.Keeps d) (i action nested) : a.Keeps (d.record i action nested) := by
  unfold Dev.record
  grind only [Dev.modErr_keeps, Dev.modCall_keeps, Dev.ethSend_keeps, Dev.settle_keeps, Dev.event_keeps, Dev.modErr_wf, Dev.modCall_wf,
    Err.Wf, Err.wf_count, Err.wf_hostWrote, Err.wf_endTest, Err.wf_emptied, Err.wf_pushStack, Err.wf_pushRing, Err.wf_advance, Err.wf_boot,
    Call.Wf, Call.wf_dropCache, Call.wf_turnRotor, Call.wf_retireFree, Call.wf_mark, sparseWf_sput, sparseWf_sdel, sparseWf_smod,
    sparseWf_filter, sparseWf_sclear]

theorem Dev.exactFail_keeps (h : a.Keeps d) (cause) : a.Keeps (d.exactFail cause) := by
  unfold Dev.exactFail
  grind only [Dev.event_keeps, Dev.modTile_keeps]

theorem Dev.exactDiscard_keeps (h : a.Keeps d) (t) : a.Keeps (d.exactDiscard t) := by
  unfold Dev.exactDiscard
  grind only [Dev.exactFail_keeps]

theorem Dev.discardStep_keeps (h : a.Keeps d) (s cause) : a.Keeps (d.discardStep s cause) := by
  unfold Dev.discardStep
  grind only [Dev.modCall_keeps, Dev.exactDiscard_keeps, Dev.modFrm_keeps, Dev.modErr_keeps, Dev.modCall_wf, Dev.modFrm_wf, Dev.modErr_wf,
    Call.Wf, Call.wf_dropCache, Call.wf_turnRotor, Call.wf_retireFree, Call.wf_mark, Frm.Wf, Frm.wf_emptyLanes, Frm.wf_stopCues,
    Frm.wf_countStalls, Frm.wf_slewPath, Frm.wf_countLen, Frm.wf_tickInCtrl, Frm.wf_clearHeld, Err.Wf, Err.wf_count, Err.wf_hostWrote,
    Err.wf_endTest, Err.wf_emptied, Err.wf_pushStack, Err.wf_pushRing, Err.wf_advance, Err.wf_boot, sparseWf_sput, sparseWf_sdel,
    sparseWf_smod, sparseWf_filter, sparseWf_sclear]

theorem Dev.discardAll_keeps (h : a.Keeps d) (cause) : a.Keeps (d.discardAll cause) := by
  unfold Dev.discardAll
  grind only [Dev.discardStep_keeps, Dev.exactFail_keeps, Dev.modFrm_keeps, Dev.modFrm_wf, Dev.foldl_keeps, Frm.Wf, sparseWf_nil]

theorem Dev.commitHistory_keeps (h : a.Keeps d) : a.Keeps d.commitHistory := by
  unfold Dev.commitHistory
  grind only [Dev.modErr_keeps]

theorem Dev.finishDrain_keeps (h : a.Keeps d) : a.Keeps d.finishDrain := by
  unfold Dev.finishDrain
  grind only [Dev.commitHistory_keeps, Dev.modErr_keeps]

theorem Dev.enterStruck_keeps (h : a.Keeps d) : a.Keeps d.enterStruck := by
  unfold Dev.enterStruck
  grind only [Dev.setSt_keeps, Dev.discardAll_keeps, Dev.modErr_keeps, Dev.finishDrain_keeps]

theorem Dev.beginDrain_keeps (h : a.Keeps d) (seq) : a.Keeps (d.beginDrain seq) := by
  unfold Dev.beginDrain
  grind only [Dev.modErr_keeps, Dev.enterStruck_keeps]

theorem Dev.linkLoss_keeps (h : a.Keeps d) : a.Keeps d.linkLoss := by
  unfold Dev.linkLoss
  grind only [Dev.modHost_keeps]

theorem Dev.fatalHandling_keeps (h : a.Keeps d) (seq code) : a.Keeps (d.fatalHandling seq code) := by
  unfold Dev.fatalHandling
  grind only [Dev.modErr_keeps, Dev.modFrm_keeps, Dev.modDbg_keeps, Dev.enterStruck_keeps, Dev.finishDrain_keeps]

theorem Dev.blackout_keeps (h : a.Keeps d) : a.Keeps d.blackout := by
  unfold Dev.blackout
  grind only [Dev.modSys_keeps, Dev.modDbg_keeps, Dev.modFrm_keeps, Dev.setSt_keeps, Dev.linkLoss_keeps, Dev.modFrm_wf, Frm.Wf,
    sparseWf_nil]

theorem Dev.raise_keeps (h : a.Keeps d) (i) : a.Keeps (d.raise i) := by
  unfold Dev.raise
  grind only [Dev.record_keeps, Dev.modErr_keeps, Dev.beginDrain_keeps, Dev.blackout_keeps, Dev.fatalHandling_keeps, Dev.modErr_wf, Err.Wf,
    Err.wf_count, Err.wf_hostWrote, Err.wf_endTest, Err.wf_emptied, Err.wf_pushStack, Err.wf_pushRing, Err.wf_advance, Err.wf_boot,
    sparseWf_sput, sparseWf_sdel, sparseWf_smod, sparseWf_filter, sparseWf_sclear]

theorem Dev.discardTok_keeps (h : a.Keeps d) (t cause) : a.Keeps (d.discardTok t cause) := by
  unfold Dev.discardTok
  grind only [Dev.discardStep_keeps, Dev.exactDiscard_keeps, Dev.modFrm_keeps, Dev.modFrm_wf, Frm.Wf, Frm.wf_emptyLanes, Frm.wf_stopCues,
    Frm.wf_countStalls, Frm.wf_slewPath, Frm.wf_countLen, Frm.wf_tickInCtrl, Frm.wf_clearHeld, sparseWf_sput, sparseWf_sdel, sparseWf_smod,
    sparseWf_filter, sparseWf_sclear]

theorem Dev.contain_keeps (h : a.Keeps d) (i touched cause) : a.Keeps (d.contain i touched cause) := by
  unfold Dev.contain
  grind [Dev.raise_keeps, Dev.discardTok_keeps, Dev.foldl_keeps]

theorem Dev.histEvent_keeps (h : a.Keeps d) (kind unit score threshold) : a.Keeps (d.histEvent kind unit score threshold).1 := by
  unfold Dev.histEvent
  grind only [Dev.modErr_keeps, Dev.commitHistory_keeps]

theorem Dev.histPermanent_keeps (h : a.Keeps d) (kind unit) : a.Keeps (d.histPermanent kind unit) := by
  unfold Dev.histPermanent
  grind only [Dev.modErr_keeps, Dev.commitHistory_keeps]

theorem Dev.calError_keeps (h : a.Keeps d) (cls) : a.Keeps (d.calError cls) := by
  unfold Dev.calError
  grind only [Dev.useFree_keeps, Dev.raise_keeps]

theorem Dev.calWrite_keeps (h : a.Keeps d) {f : Dev → Dev} (hf : ∀ d, a.Keeps d → a.Keeps (f d)) : a.Keeps (d.calWrite f).1 := by
  unfold Dev.calWrite
  grind [Dev.useFree_keeps, Dev.calError_keeps, Dev.histEvent_keeps]

/-! ## Machine/Records -/

theorem Dev.dmaCount_keeps (h : a.Keeps d) (n k) : a.Keeps (d.dmaCount n k) := by
  unfold Dev.dmaCount
  grind only [Dev.modHost_keeps]

theorem Dev.callCount_keeps (h : a.Keeps d) (n) : a.Keeps (d.callCount n) := by
  unfold Dev.callCount
  grind only [Dev.modCall_keeps]

theorem Dev.kvCount_keeps (h : a.Keeps d) (n k) : a.Keeps (d.kvCount n k) := by
  unfold Dev.kvCount
  grind only [Dev.modKv_keeps]

theorem Dev.routeCount_keeps (h : a.Keeps d) (n k) : a.Keeps (d.routeCount n k) := by
  unfold Dev.routeCount
  grind only [Dev.modCall_keeps]

theorem Dev.pinAdapter_keeps (h : a.Keeps d) (s n) : a.Keeps (d.pinAdapter s n) := by
  unfold Dev.pinAdapter
  grind only [Dev.modCall_keeps, Dev.setSesF_keeps, Dev.modCall_wf, Call.Wf, Call.wf_dropCache, Call.wf_turnRotor, Call.wf_retireFree,
    Call.wf_mark, sparseWf_sput, sparseWf_sdel, sparseWf_smod, sparseWf_filter, sparseWf_sclear]

theorem Dev.unpinAdapter_keeps (h : a.Keeps d) (s) : a.Keeps (d.unpinAdapter s) := by
  unfold Dev.unpinAdapter
  grind only [Dev.modCall_keeps, Dev.setSesF_keeps, Dev.modCall_wf, Call.Wf, Call.wf_dropCache, Call.wf_turnRotor, Call.wf_retireFree,
    Call.wf_mark, sparseWf_sput, sparseWf_sdel, sparseWf_smod, sparseWf_filter, sparseWf_sclear]

theorem Dev.writeRecord_keeps (h : a.Keeps d) (s accepted r) : a.Keeps (d.writeRecord s accepted r) := by
  unfold Dev.writeRecord
  grind only [Dev.dmaCount_keeps, Dev.emit_keeps, Dev.setSes_keeps, Dev.callCount_keeps, Dev.fireVector_keeps]

theorem Dev.dropPairs_keeps (h : a.Keeps d) (x) : a.Keeps (d.dropPairs x) := by
  unfold Dev.dropPairs
  grind only [Dev.modCall_keeps]

theorem Dev.closeCall_keeps (h : a.Keeps d) (s) : a.Keeps (d.closeCall s) := by
  unfold Dev.closeCall
  grind [Dev.setSesF_keeps, Dev.setSes_keeps, Dev.unpinAdapter_keeps, Dev.setSstate_keeps, Dev.dropPairs_keeps, Dev.modCall_keeps,
    Dev.foldl_keeps]

theorem Dev.moveHead_keeps (h : a.Keeps d) (s m) : a.Keeps (d.moveHead s m) := by
  simp only [Dev.moveHead]
  (repeat' split) <;> grind [Dev.setSes_keeps]

theorem Dev.endCall_keeps (h : a.Keeps d) (s st cause m) : a.Keeps (d.endCall s st cause m) := by
  unfold Dev.endCall
  grind only [Dev.discardStep_keeps, Dev.moveHead_keeps, Dev.writeRecord_keeps, Dev.closeCall_keeps]

theorem Dev.sessionFault_keeps (h : a.Keeps d) (s) : a.Keeps (d.sessionFault s) := by
  unfold Dev.sessionFault
  grind only [Dev.endCall_keeps, Dev.modCall_keeps, Dev.setSstate_keeps]

/-! ## Machine/Adapters -/

@[simp] theorem callAdpLoad_keeps (h : a.Keeps d) (slot tenant) : a.Keeps (callAdpLoad slot tenant d) := by
  unfold callAdpLoad
  grind only [Dev.modCall_keeps, Dev.event_keeps, Dev.modCall_wf, Call.Wf, Call.wf_dropCache, Call.wf_turnRotor, Call.wf_retireFree,
    Call.wf_mark, sparseWf_sput, sparseWf_sdel, sparseWf_smod, sparseWf_filter, sparseWf_sclear]

@[simp] theorem adapterLoadDone_keeps (h : a.Keeps d) : a.Keeps (adapterLoadDone d) := by
  unfold adapterLoadDone
  grind only [Dev.modCall_keeps, Dev.event_keeps, Dev.modMem_keeps, Dev.modCall_wf, Dev.modMem_wf, Call.Wf, Call.wf_dropCache,
    Call.wf_turnRotor, Call.wf_retireFree, Call.wf_mark, Mem.wf_iff, Mem.wf_wrHbm, Mem.wf_zeroHbm, Mem.wf_zeroApron, Mem.wf_copyHbm,
    Mem.wf_count, Mem.wf_zeroCw, Mem.wf_flip, Mem.wf_applyRepairs, cellsWf_wrN, cellsWf_zeroRange, sparseWf_sput, sparseWf_sdel,
    sparseWf_smod, sparseWf_filter, sparseWf_sclear]

@[simp] theorem retireReq_keeps (h : a.Keeps d) (slot) : a.Keeps (retireReq slot d) := by
  unfold retireReq
  grind only [Dev.modCall_keeps, Dev.modCall_wf, Call.Wf, Call.wf_dropCache, Call.wf_turnRotor, Call.wf_retireFree, Call.wf_mark,
    sparseWf_sput, sparseWf_sdel, sparseWf_smod, sparseWf_filter, sparseWf_sclear]

@[simp] theorem callAdpDirWrite_keeps (h : a.Keeps d) (entry slot valid) : a.Keeps (callAdpDirWrite entry slot valid d) := by
  unfold callAdpDirWrite
  grind only [Dev.modCall_keeps, Dev.modCall_wf, Call.Wf, Call.wf_dropCache, Call.wf_turnRotor, Call.wf_retireFree, Call.wf_mark,
    sparseWf_sput, sparseWf_sdel, sparseWf_smod, sparseWf_filter, sparseWf_sclear]

/-! ## Machine/Units -/

theorem Dev.modLink_keeps (h : a.Keeps d) (n f) : a.Keeps (d.modLink n f) := by
  unfold Dev.modLink
  grind only [Dev.modMesh_keeps]

theorem Dev.meshCount_keeps (h : a.Keeps d) (link n) : a.Keeps (d.meshCount link n) := by
  unfold Dev.meshCount
  grind only [Dev.modMesh_keeps]

theorem Dev.sendUnit_keeps (h : a.Keeps d) (link u) : a.Keeps (d.sendUnit link u) := by
  unfold Dev.sendUnit
  grind only [Dev.emit_keeps, Dev.modLink_keeps]

theorem Dev.flood_keeps (h : a.Keeps d) (u) : a.Keeps (d.flood u) := by
  unfold Dev.flood
  grind [Dev.sendUnit_keeps, Dev.foldl_keeps]

theorem Dev.sendUp_keeps (h : a.Keeps d) (u) : a.Keeps (d.sendUp u) := by
  unfold Dev.sendUp
  grind only [Dev.sendUnit_keeps]

theorem Dev.sendDown_keeps (h : a.Keeps d) (u) : a.Keeps (d.sendDown u) := by
  unfold Dev.sendDown
  grind [Dev.sendUnit_keeps, Dev.foldl_keeps]

/-! ## Machine/Freeze -/

theorem Dev.applyHolds_keeps (h : a.Keeps d) : a.Keeps d.applyHolds := by
  unfold Dev.applyHolds
  grind only [Dev.modFrm_keeps, Dev.modDbg_keeps, Dev.setSt_keeps, Dev.modSys_keeps, Dev.modTile_keeps]

theorem Dev.engage_keeps (h : a.Keeps d) (cause t set) : a.Keeps (d.engage cause t set) := by
  unfold Dev.engage
  grind only [Dev.modDbg_keeps, Dev.at__keeps, Dev.applyHolds_keeps, Dev.flood_keeps]

theorem Dev.release_keeps (h : a.Keeps d) (t clr) : a.Keeps (d.release t clr) := by
  unfold Dev.release
  grind only [Dev.modDbg_keeps, Dev.at__keeps, Dev.flood_keeps, Dev.applyHolds_keeps]

theorem Dev.remoteFreeze_keeps (h : a.Keeps d) (u t) : a.Keeps (d.remoteFreeze u t) := by
  unfold Dev.remoteFreeze
  grind only [Dev.modDbg_keeps, Dev.at__keeps, Dev.applyHolds_keeps, Dev.flood_keeps]

theorem Dev.remoteThaw_keeps (h : a.Keeps d) (u t) : a.Keeps (d.remoteThaw u t) := by
  unfold Dev.remoteThaw
  grind only [Dev.modDbg_keeps, Dev.at__keeps, Dev.applyHolds_keeps, Dev.flood_keeps]

theorem Dev.dropRemote_keeps (h : a.Keeps d) : a.Keeps d.dropRemote := by
  unfold Dev.dropRemote
  grind only [Dev.applyHolds_keeps, Dev.modDbg_keeps]

theorem Dev.refreeze_keeps (h : a.Keeps d) : a.Keeps d.refreeze := by
  unfold Dev.refreeze
  grind only [Dev.modDbg_keeps, Dev.flood_keeps]

theorem Dev.tagWrite_keeps (h : a.Keeps d) (store keys cue) : a.Keeps (d.tagWrite store keys cue) := by
  unfold Dev.tagWrite
  grind only [Dev.modMem_keeps]

theorem Dev.tagZeroing_keeps (h : a.Keeps d) : a.Keeps d.tagZeroing := by
  unfold Dev.tagZeroing
  grind only [Dev.modMem_keeps]

theorem Dev.hazard_keeps (h : a.Keeps d) (store reader slot found n toks) : a.Keeps (d.hazard store reader slot found n toks) := by
  unfold Dev.hazard
  grind only [Dev.modScr_keeps, Dev.contain_keeps, Dev.engage_keeps, Dev.raise_keeps]

theorem Dev.hazRead_keeps (h : a.Keeps d) (store keys reader slot toks operand) : a.Keeps (d.hazRead store keys reader slot toks operand) := by
  unfold Dev.hazRead
  grind [Dev.hazard_keeps, Dev.foldl_keeps]

/-! ## Machine/Operands -/

theorem Dev.stallOn_keeps (h : a.Keeps d) (o slot) : a.Keeps (d.stallOn o slot) := by
  unfold Dev.stallOn
  grind only [Dev.modFrm_keeps]

theorem Dev.refuseWings_keeps (h : a.Keeps d) (bank slot cue t) : a.Keeps (d.refuseWings bank slot cue t) := by
  unfold Dev.refuseWings
  grind only [Dev.contain_keeps, Dev.modMem_keeps, Dev.modMem_wf, Mem.wf_iff, Mem.wf_wrHbm, Mem.wf_zeroHbm, Mem.wf_zeroApron,
    Mem.wf_copyHbm, Mem.wf_count, Mem.wf_zeroCw, Mem.wf_flip, Mem.wf_applyRepairs, cellsWf_wrN, cellsWf_zeroRange, sparseWf_sput,
    sparseWf_sdel, sparseWf_smod, sparseWf_filter, sparseWf_sclear]

theorem Dev.wingsRd_keeps (h : a.Keeps d) (t a' n slot cue operand) : a.Keeps (d.wingsRd t a' n slot cue operand).1 := by
  unfold Dev.wingsRd
  grind only [Dev.refuseWings_keeps, Dev.hazRead_keeps]

theorem Dev.wingsWr_keeps (h : a.Keeps d) (t a' bs slot cue) : a.Keeps (d.wingsWr t a' bs slot cue) := by
  unfold Dev.wingsWr
  grind only [Dev.refuseWings_keeps, Dev.tagWrite_keeps, Dev.modMem_keeps, Dev.modMem_wf, Mem.wf_iff, Mem.wf_wrHbm, Mem.wf_zeroHbm,
    Mem.wf_zeroApron, Mem.wf_copyHbm, Mem.wf_count, Mem.wf_zeroCw, Mem.wf_flip, Mem.wf_applyRepairs, cellsWf_wrN, cellsWf_zeroRange,
    sparseWf_sput, sparseWf_sdel, sparseWf_smod, sparseWf_filter, sparseWf_sclear]

theorem Dev.useKeys_keeps (h : a.Keeps d) (keys step) : a.Keeps (d.useKeys keys step) := by
  unfold Dev.useKeys
  grind only [Dev.modTile_keeps, Dev.discardTok_keeps]

theorem Dev.rowsRd_keeps (h : a.Keeps d) (t keys slot cue operand) : a.Keeps (d.rowsRd t keys slot cue operand).1 := by
  unfold Dev.rowsRd
  grind only [Dev.hazRead_keeps, Dev.useKeys_keeps]

theorem Dev.rowRd_keeps (h : a.Keeps d) (t tile row slot cue operand) : a.Keeps (d.rowRd t tile row slot cue operand).1 := by
  unfold Dev.rowRd
  grind only [Dev.rowsRd_keeps]

theorem Dev.keepRow_keeps (h : a.Keeps d) (key slot) : a.Keeps (d.keepRow key slot) := by
  unfold Dev.keepRow
  grind only [Dev.modTile_keeps]

theorem Dev.rowWr_keeps (h : a.Keeps d) (tile row bs tag slot cue) : a.Keeps (d.rowWr tile row bs tag slot cue) := by
  unfold Dev.rowWr
  grind only [Dev.modTile_keeps, Dev.keepRow_keeps, Dev.tagWrite_keeps, Dev.modMem_keeps, Dev.modTile_wf, Dev.modMem_wf, Tile.Wf,
    Tile.wf_land, Tile.wf_setArr, Tile.wf_suspend, Tile.wf_dropLoads, Tile.wf_abandonSoft, Tile.wf_passed, Tile.wf_writeCells,
    Tile.wf_applyUps, Tile.wf_setCensus, Mem.wf_iff, Mem.wf_wrHbm, Mem.wf_zeroHbm, Mem.wf_zeroApron, Mem.wf_copyHbm, Mem.wf_count,
    Mem.wf_zeroCw, Mem.wf_flip, Mem.wf_applyRepairs, cellsWf_wrN, cellsWf_zeroRange, sparseWf_sput, sparseWf_sdel, sparseWf_smod,
    sparseWf_filter, sparseWf_sclear]

theorem Dev.vecRd_keeps (h : a.Keeps d) (t l f slot cue) : a.Keeps (d.vecRd t l f slot cue).1 := by
  unfold Dev.vecRd
  grind only [Dev.rowsRd_keeps, Dev.wingsRd_keeps]

theorem Dev.vecWr_keeps (h : a.Keeps d) (t l f bs slot cue) : a.Keeps (d.vecWr t l f bs slot cue) := by
  unfold Dev.vecWr
  grind [Dev.rowWr_keeps, Dev.wingsWr_keeps, Dev.foldl_keeps]

theorem Dev.tileError_keeps (h : a.Keeps d) (code tile pslot slot cue t) : a.Keeps (d.tileError code tile pslot slot cue t) := by
  unfold Dev.tileError
  grind only [Dev.contain_keeps]

theorem Dev.precFlag_keeps (h : a.Keeps d) (t bit) : a.Keeps (d.precFlag t bit) := by
  unfold Dev.precFlag
  grind only [Dev.modCall_keeps]

theorem Dev.precCount_keeps (h : a.Keeps d) (tile n) : a.Keeps (d.precCount tile n) := by
  unfold Dev.precCount
  grind only [Dev.modTile_keeps]

/-! ## Machine/Flags -/

theorem Dev.contribute_keeps (h : a.Keeps d) (c) : a.Keeps (d.contribute c) := by
  unfold Dev.contribute
  grind only [Dev.modTile_keeps]

theorem Dev.unserved_keeps (h : a.Keeps d) (r) : a.Keeps (d.unserved r) := by
  unfold Dev.unserved
  grind only [Dev.precFlag_keeps, Dev.precCount_keeps]

theorem Dev.request_keeps (h : a.Keeps d) (r) : a.Keeps (d.request r) := by
  unfold Dev.request
  grind only [Dev.precCount_keeps, Dev.modTile_keeps, Dev.unserved_keeps, Dev.contain_keeps]

theorem Dev.clamped_keeps (h : a.Keeps d) (tile t) : a.Keeps (d.clamped tile t) := by
  unfold Dev.clamped
  grind only [Dev.precFlag_keeps, Dev.precCount_keeps]

theorem Dev.markReplay_keeps (h : a.Keeps d) (t) : a.Keeps (d.markReplay t) := by
  unfold Dev.markReplay
  grind only [Dev.modCall_keeps, Dev.modTile_keeps]

theorem Dev.learnTrouble_keeps (h : a.Keeps d) (tile t b m clip range) : a.Keeps (d.learnTrouble tile t b m clip range) := by
  unfold Dev.learnTrouble
  grind only [Dev.markReplay_keeps, Dev.modTile_keeps, Dev.clamped_keeps]

/-! ## Machine/Tiles -/

theorem Dev.modArr_keeps (h : a.Keeps d) (a' f) : a.Keeps (d.modArr a' f) := by
  unfold Dev.modArr
  grind only [Dev.modTile_keeps, Dev.modTile_wf, Tile.Wf, Tile.wf_land, Tile.wf_setArr, Tile.wf_suspend, Tile.wf_dropLoads,
    Tile.wf_abandonSoft, Tile.wf_passed, Tile.wf_writeCells, Tile.wf_applyUps, Tile.wf_setCensus, sparseWf_sput, sparseWf_sdel,
    sparseWf_smod, sparseWf_filter, sparseWf_sclear]

theorem Dev.phase_keeps (h : a.Keeps d) (a' range codes) : a.Keeps (d.phase a' range codes).1 := by
  unfold Dev.phase
  grind only [Dev.modArr_keeps, Dev.useFree_keeps]

theorem Dev.convert_keeps (h : a.Keeps d) (n range) (l : List (List Int)) : a.Keeps (d.convert n range l).1 := by
  induction l generalizing d with
  | nil => exact h
  | cons p t ih => exact ih (Dev.phase_keeps h _ _ _)

theorem Dev.capture_keeps (h : a.Keeps d) (a' key range ps) : a.Keeps (d.capture a' key range ps) := by
  unfold Dev.capture
  grind only [Dev.modTile_keeps]

theorem Dev.evalTrouble_keeps (h : a.Keeps d) (tok i b ps slot lane again) : a.Keeps (d.evalTrouble tok i b ps slot lane again) := by
  unfold Dev.evalTrouble
  grind only [Dev.precCount_keeps, Dev.learnTrouble_keeps, Dev.request_keeps, Dev.clamped_keeps]

theorem Dev.evalContrib_keeps (h : a.Keeps d) (i kind slot ps) : a.Keeps (d.evalContrib i kind slot ps) := by
  unfold Dev.evalContrib
  grind [Dev.contribute_keeps, Dev.foldl_keeps]

theorem Dev.serveLane_keeps (h : a.Keeps d) (key lane tok) : a.Keeps (d.serveLane key lane tok) := by
  unfold Dev.serveLane
  grind only [Dev.modTile_keeps]

theorem Dev.evalTok_keeps (h : a.Keeps d) (c tok) : a.Keeps (d.evalTok c tok) := by
  unfold Dev.evalTok
  extract_lets tile pslot slot lane cue rows
  split
  · exact Dev.tileError_keeps h _ _ _ _ _ _
  next n _ =>
    refine Dev.ite_keeps (Dev.modTile_keeps (Dev.tileError_keeps h _ _ _ _ _ _) rfl rfl)
      (Dev.ite_keeps (Dev.tileError_keeps h _ _ _ _ _ _) (Dev.ite_keeps (Dev.tileError_keeps h _ _ _ _ _ _) ?_))
    extract_lets exp b
    split
    next d₁ hi hr =>
    have h₁ : a.Keeps d₁ := Dev.keeps_fst hr (Dev.rowRd_keeps h _ _ _ _ _ _)
    split
    next d₂ lo hr =>
    have h₂ : a.Keeps d₂ := Dev.keeps_fst hr (by
      split
      · exact Dev.rowRd_keeps h₁ _ _ _ _ _ _
      · exact h₁)
    extract_lets sd d₃ range
    split
    next xs phases _ =>
    extract_lets i zero
    have h₃ : a.Keeps d₃ := Dev.serveLane_keeps h₂ _ _ _
    split
    next d₄ ps hr =>
    have h₄ : a.Keeps d₄ := Dev.keeps_fst hr (by
      split
      · exact h₃
      · exact Dev.convert_keeps h₃ _ _ _)
    extract_lets d₅ d₆ d₇
    have h₆ : a.Keeps d₆ := Dev.evalTrouble_keeps (Dev.ite_keeps h₄ (Dev.evalContrib_keeps h₄ _ _ _ _)) _ _ _ _ _ _ _
    exact Dev.modTile_keeps (Dev.ite_keeps h₆ (Dev.capture_keeps h₆ _ _ _ _)) rfl rfl

theorem Dev.evalRun_keeps (h : a.Keeps d) (c) : a.Keeps (d.evalRun c) := by
  unfold Dev.evalRun
  grind only [Dev.evalTok_keeps]

theorem Dev.advance_keeps (h : a.Keeps d) (slot) : a.Keeps (d.advance slot) := by
  unfold Dev.advance
  grind only [Dev.modTile_keeps, Dev.evalRun_keeps, Dev.modTile_wf, Tile.Wf, Tile.wf_land, Tile.wf_setArr, Tile.wf_suspend,
    Tile.wf_dropLoads, Tile.wf_abandonSoft, Tile.wf_passed, Tile.wf_writeCells, Tile.wf_applyUps, Tile.wf_setCensus, sparseWf_sput,
    sparseWf_sdel, sparseWf_smod, sparseWf_filter, sparseWf_sclear, Dev.foldl_keeps, Dev.foldl_fst_keeps]

theorem Dev.onTile_keeps (h : a.Keeps d) (tiles lane slot) {f : Tok → Dev → Dev} (hf : ∀ t d, a.Keeps d → a.Keeps (f t d)) :
    a.Keeps (d.onTile tiles lane slot f) := by
  unfold Dev.onTile
  grind [Dev.useKeys_keeps, Dev.advance_keeps, Dev.discardTok_keeps]

theorem Dev.drives_keeps (h : a.Keeps d) (tile slot n) : a.Keeps (d.drives tile slot n) := by
  unfold Dev.drives
  grind only [Dev.modTile_keeps]

@[simp] theorem eval_keeps (h : a.Keeps d) (c) : a.Keeps (eval c d) := by
  unfold eval
  grind only [Dev.onTile_keeps, Dev.drives_keeps, Dev.evalTok_keeps, Dev.modTile_keeps]

theorem Dev.writeBlock_keeps (h : a.Keeps d) (tile dst dstLo f e oset rows slot cue) : a.Keeps (d.writeBlock tile dst dstLo f e oset rows slot cue) := by
  unfold Dev.writeBlock
  grind only [Dev.rowWr_keeps]

theorem Dev.countBlock_keeps (h : a.Keeps d) (tile b) : a.Keeps (d.countBlock tile b) := by
  unfold Dev.countBlock
  grind only [Dev.precCount_keeps]

theorem Dev.requantise_keeps (h : a.Keeps d) (c tok l src) : a.Keeps (d.requantise c tok l src) := by
  unfold Dev.requantise
  grind only [Dev.writeBlock_keeps, Dev.contain_keeps, Dev.countBlock_keeps, Dev.modTile_keeps]

@[simp] theorem requant_keeps (h : a.Keeps d) (c) : a.Keeps (requant c d) := by
  unfold requant
  grind only [Dev.onTile_keeps, Dev.tileError_keeps, Dev.stallOn_keeps, Dev.vecRd_keeps, Dev.requantise_keeps]

@[simp] theorem out_keeps (h : a.Keeps d) (c) : a.Keeps (out c d) := by
  unfold out
  grind only [Dev.onTile_keeps, Dev.stallOn_keeps, Dev.modTile_keeps, Dev.vecWr_keeps, Dev.modTile_wf, Tile.Wf, Tile.wf_land,
    Tile.wf_setArr, Tile.wf_suspend, Tile.wf_dropLoads, Tile.wf_abandonSoft, Tile.wf_passed, Tile.wf_writeCells, Tile.wf_applyUps,
    Tile.wf_setCensus, sparseWf_sput, sparseWf_sdel, sparseWf_smod, sparseWf_filter, sparseWf_sclear]

@[simp] theorem forward_keeps (h : a.Keeps d) (slot lane tile dst landSlot) : a.Keeps (forward slot lane tile dst landSlot d) := by
  unfold forward
  grind only [Dev.onTile_keeps, Dev.contribute_keeps, Dev.modTile_keeps, Dev.modTile_wf, Tile.Wf, Tile.wf_land, Tile.wf_setArr,
    Tile.wf_suspend, Tile.wf_dropLoads, Tile.wf_abandonSoft, Tile.wf_passed, Tile.wf_writeCells, Tile.wf_applyUps, Tile.wf_setCensus,
    sparseWf_sput, sparseWf_sdel, sparseWf_smod, sparseWf_filter, sparseWf_sclear]

@[simp] theorem hop_keeps (h : a.Keeps d) (c) : a.Keeps (hop c d) := by
  unfold hop
  grind only [forward_keeps]

@[simp] theorem relay_keeps (h : a.Keeps d) (c) : a.Keeps (relay c d) := by
  unfold relay
  grind only [forward_keeps]

@[simp] theorem move_keeps (h : a.Keeps d) (c) : a.Keeps (move c d) := by
  unfold move
  grind only [Dev.onTile_keeps, Dev.stallOn_keeps, Dev.wingsRd_keeps, Dev.rowWr_keeps, Dev.tileError_keeps, Dev.rowRd_keeps,
    Dev.wingsWr_keeps]

/-! ## Machine/Arrays -/

theorem Dev.progCount_keeps (h : a.Keeps d) (n) : a.Keeps (d.progCount n) := by
  unfold Dev.progCount
  grind only [Dev.modTile_keeps]

theorem Dev.arrayError_keeps (h : a.Keeps d) (code cls a' flagged row pattern spare verdict) : a.Keeps (d.arrayError code cls a' flagged row pattern spare verdict) := by
  unfold Dev.arrayError
  grind only [Dev.raise_keeps]

theorem Dev.tileSuspect_keeps (h : a.Keeps d) (code tile slot) : a.Keeps (d.tileSuspect code tile slot) := by
  unfold Dev.tileSuspect
  grind only [Dev.raise_keeps, Dev.histPermanent_keeps]

theorem Dev.emptyServed_keeps (h : a.Keeps d) (key) : a.Keeps (d.emptyServed key) := by
  unfold Dev.emptyServed
  grind [Dev.discardTok_keeps, Dev.foldl_keeps]

theorem Dev.failPrincipal_keeps (h : a.Keeps d) (code a' flagged row pattern) : a.Keeps (d.failPrincipal code a' flagged row pattern) := by
  unfold Dev.failPrincipal
  grind only [Dev.arrayError_keeps, Dev.emptyServed_keeps, Dev.histPermanent_keeps, Dev.modArr_keeps, Dev.exactFail_keeps,
    Dev.tileSuspect_keeps]

theorem Dev.sampleVprog_keeps (h : a.Keeps d) (ok) : a.Keeps (d.sampleVprog ok) := by
  unfold Dev.sampleVprog
  grind only [Dev.modHkc_keeps, Dev.modTile_keeps, Dev.raise_keeps]

theorem Dev.retire_keeps (h : a.Keeps d) (a') : a.Keeps (d.retire a') := by
  unfold Dev.retire
  grind only [Dev.progCount_keeps, Dev.modArr_keeps]

theorem Dev.startProg_keeps (h : a.Keeps d) (a' j) : a.Keeps (d.startProg a' j) := by
  unfold Dev.startProg
  grind only [Dev.progCount_keeps, Dev.modArr_keeps, Dev.arrayError_keeps, Dev.retire_keeps]

theorem Dev.measureOne_keeps (h : a.Keeps d) (a') : a.Keeps (d.measureOne a') := by
  unfold Dev.measureOne
  grind only [Dev.modArr_keeps, Dev.phase_keeps]

theorem Dev.measureAll_keeps (h : a.Keeps d) (a') : a.Keeps (d.measureAll a') := by
  unfold Dev.measureAll
  grind [Dev.modArr_keeps, Dev.measureOne_keeps, Dev.foldl_keeps]

theorem Dev.startGains_keeps (h : a.Keeps d) (a') : a.Keeps (d.startGains a') := by
  unfold Dev.startGains
  grind [Dev.modArr_keeps, Dev.foldl_keeps]

theorem Dev.takeRole_keeps (h : a.Keeps d) (a' slot) : a.Keeps (d.takeRole a' slot) := by
  unfold Dev.takeRole
  grind only [Dev.startGains_keeps, Dev.modArr_keeps]

theorem Dev.leaveRole_keeps (h : a.Keeps d) (a') : a.Keeps (d.leaveRole a') := by
  unfold Dev.leaveRole
  grind only [Dev.modArr_keeps, Dev.retire_keeps]

theorem Dev.swapRole_keeps (h : a.Keeps d) (a' slot n) : a.Keeps (d.swapRole a' slot n) := by
  unfold Dev.swapRole
  grind only [Dev.calWrite_keeps, Dev.leaveRole_keeps, Dev.takeRole_keeps, Dev.commitHistory_keeps, Dev.progCount_keeps]

theorem Dev.roleSwaps_keeps (h : a.Keeps d) : a.Keeps d.roleSwaps := by
  unfold Dev.roleSwaps
  grind [Dev.swapRole_keeps, Dev.foldl_keeps]

theorem Dev.ageFrame_keeps (h : a.Keeps d) (a' len) : a.Keeps (d.ageFrame a' len) := by
  unfold Dev.ageFrame
  grind only [Dev.modArr_keeps]

theorem Dev.arrayBoundary_keeps (h : a.Keeps d) (a' len) : a.Keeps (d.arrayBoundary a' len) := by
  unfold Dev.arrayBoundary
  grind only [Dev.modArr_keeps, Dev.ageFrame_keeps, Dev.failPrincipal_keeps]

theorem Dev.arraysBoundary_keeps (h : a.Keeps d) (len) : a.Keeps (d.arraysBoundary len) := by
  unfold Dev.arraysBoundary
  grind [Dev.arrayBoundary_keeps, Dev.modTile_keeps, Dev.foldl_keeps]

theorem Dev.agesEnd_keeps (h : a.Keeps d) (len) : a.Keeps (d.agesEnd len) := by
  unfold Dev.agesEnd
  grind [Dev.ageFrame_keeps, Dev.foldl_keeps]

theorem Dev.dropWeights_keeps (h : a.Keeps d) : a.Keeps d.dropWeights := by
  unfold Dev.dropWeights
  grind only [Dev.modWts_keeps, Dev.modTile_keeps, Dev.event_keeps, Dev.modTile_wf, Tile.Wf, Tile.wf_land, Tile.wf_setArr, Tile.wf_suspend,
    Tile.wf_dropLoads, Tile.wf_abandonSoft, Tile.wf_passed, Tile.wf_writeCells, Tile.wf_applyUps, Tile.wf_setCensus, sparseWf_sput,
    sparseWf_sdel, sparseWf_smod, sparseWf_filter, sparseWf_sclear]

theorem Dev.wtFail_keeps (h : a.Keeps d) (cause) : a.Keeps (d.wtFail cause) := by
  unfold Dev.wtFail
  grind only [Dev.modTile_keeps, Dev.event_keeps, Dev.modWts_keeps, Dev.modTile_wf, Tile.Wf, Tile.wf_land, Tile.wf_setArr, Tile.wf_suspend,
    Tile.wf_dropLoads, Tile.wf_abandonSoft, Tile.wf_passed, Tile.wf_writeCells, Tile.wf_applyUps, Tile.wf_setCensus, sparseWf_sput,
    sparseWf_sdel, sparseWf_smod, sparseWf_filter, sparseWf_sclear]

theorem Dev.wornOut_keeps (h : a.Keeps d) (a' j) : a.Keeps (d.wornOut a' j) := by
  unfold Dev.wornOut
  grind only [Dev.tileSuspect_keeps, Dev.wtFail_keeps]

@[simp] theorem refreshStart_keeps (h : a.Keeps d) (tile array vprogOk) : a.Keeps (refreshStart tile array vprogOk d) := by
  unfold refreshStart
  grind only [Dev.sampleVprog_keeps, Dev.startProg_keeps, Dev.modArr_keeps]

theorem Dev.pauseProg_keeps (h : a.Keeps d) (a') : a.Keeps (d.pauseProg a') := by
  unfold Dev.pauseProg
  grind only [Dev.useFree_keeps, Dev.modArr_keeps]

theorem Dev.pauseOne_keeps (h : a.Keeps d) (flock) : a.Keeps (d.pauseOne flock) := by
  unfold Dev.pauseOne
  grind only [Dev.progCount_keeps, Dev.pauseProg_keeps]

theorem Dev.makePlace_keeps (h : a.Keeps d) (flock) : a.Keeps (d.makePlace flock) := by
  unfold Dev.makePlace
  grind only [Dev.pauseOne_keeps]

theorem Dev.refreshReplaces_keeps (h : a.Keeps d) (u slot) : a.Keeps (d.refreshReplaces u slot) := by
  unfold Dev.refreshReplaces
  grind only [Dev.modArr_keeps, Dev.makePlace_keeps]

@[simp] theorem replacementStart_keeps (h : a.Keeps d) (tile array vprogOk) : a.Keeps (replacementStart tile array vprogOk d) := by
  unfold replacementStart
  extract_lets n slot d₁
  have h₁ : a.Keeps d₁ := Dev.sampleVprog_keeps h _
  split
  · exact h
  next u _ =>
    refine Dev.ite_keeps h ?_
    split
    · exact h
    next job _ _ =>
      refine Dev.ite_keeps (Dev.refreshReplaces_keeps h _ _) (Dev.ite_keeps h ?_)
      extract_lets d₂ d₃
      have h₂ : a.Keeps d₂ := Dev.ite_keeps h₁ (Dev.makePlace_keeps h₁ _)
      have h₃ : a.Keeps d₃ := Dev.ite_keeps (Dev.modTile_keeps (Dev.progCount_keeps h₂ _) rfl rfl) h₂
      exact Dev.ite_keeps h₁ (Dev.ite_keeps h₂ (Dev.wornOut_keeps (Dev.startProg_keeps (Dev.modArr_keeps h₃ _ _) _ _) _ _))

theorem Dev.startWaiting_keeps (h : a.Keeps d) (a' j) : a.Keeps (d.startWaiting a' j) := by
  unfold Dev.startWaiting
  grind only [Dev.sampleVprog_keeps, Dev.useFree_keeps, Dev.calWrite_keeps, Dev.progCount_keeps, Dev.modArr_keeps, Dev.startProg_keeps,
    Dev.wornOut_keeps]

theorem Dev.resumePaused_keeps (h : a.Keeps d) : a.Keeps d.resumePaused := by
  unfold Dev.resumePaused
  grind [Dev.modArr_keeps, Dev.startWaiting_keeps, Dev.foldl_keeps]

theorem Dev.progVerified_keeps (h : a.Keeps d) (a' key) : a.Keeps (d.progVerified a' key) := by
  unfold Dev.progVerified
  grind only [Dev.modTile_keeps, Dev.modArr_keeps, Dev.measureAll_keeps, Dev.modTile_wf, Tile.Wf, Tile.wf_land, Tile.wf_setArr,
    Tile.wf_suspend, Tile.wf_dropLoads, Tile.wf_abandonSoft, Tile.wf_passed, Tile.wf_writeCells, Tile.wf_applyUps, Tile.wf_setCensus,
    sparseWf_sput, sparseWf_sdel, sparseWf_smod, sparseWf_filter, sparseWf_sclear]

theorem Dev.loadVerified_keeps (h : a.Keeps d) (a' slot) : a.Keeps (d.loadVerified a' slot) := by
  unfold Dev.loadVerified
  grind only [Dev.progVerified_keeps, Dev.roleSwaps_keeps, Dev.modArr_keeps, Dev.startGains_keeps]

theorem Dev.progDone_keeps (h : a.Keeps d) (a' j) : a.Keeps (d.progDone a' j) := by
  unfold Dev.progDone
  grind only [Dev.progVerified_keeps, Dev.loadVerified_keeps, Dev.startProg_keeps, Dev.modTile_keeps, Dev.progCount_keeps, Dev.modArr_keeps,
    Dev.modTile_wf, Tile.Wf, Tile.wf_land, Tile.wf_setArr, Tile.wf_suspend, Tile.wf_dropLoads, Tile.wf_abandonSoft, Tile.wf_passed,
    Tile.wf_writeCells, Tile.wf_applyUps, Tile.wf_setCensus, sparseWf_sput, sparseWf_sdel, sparseWf_smod, sparseWf_filter, sparseWf_sclear]

theorem Dev.noSpare_keeps (h : a.Keeps d) (a' row j) : a.Keeps (d.noSpare a' row j) := by
  unfold Dev.noSpare
  grind only [Dev.tileSuspect_keeps, Dev.retire_keeps, Dev.modArr_keeps, Dev.wornOut_keeps, Dev.startProg_keeps, Dev.wtFail_keeps]

theorem Dev.rowFailed_keeps (h : a.Keeps d) (a' row j) : a.Keeps (d.rowFailed a' row j) := by
  unfold Dev.rowFailed
  grind only [Dev.arrayError_keeps, Dev.calWrite_keeps, Dev.progCount_keeps, Dev.modArr_keeps, Dev.startProg_keeps, Dev.noSpare_keeps]

@[simp] theorem arrayProgramDone_keeps (h : a.Keeps d) (tile array rows) : a.Keeps (arrayProgramDone tile array rows d) := by
  unfold arrayProgramDone
  grind only [Dev.resumePaused_keeps, Dev.progDone_keeps, Dev.modArr_keeps, Dev.rowFailed_keeps]

@[simp] theorem arrayResetDone_keeps (h : a.Keeps d) (tile array ok) : a.Keeps (arrayResetDone tile array ok d) := by
  unfold arrayResetDone
  grind only [Dev.resumePaused_keeps, Dev.progDone_keeps, Dev.retire_keeps]

@[simp] theorem trackStale_keeps (h : a.Keeps d) (tile array) : a.Keeps (trackStale tile array d) := by
  unfold trackStale
  grind only [Dev.arrayError_keeps, Dev.modArr_keeps, Dev.exactFail_keeps]

@[simp] theorem overdue_keeps (h : a.Keeps d) (tile array) : a.Keeps (overdue tile array d) := by
  unfold overdue
  grind only [Dev.arrayError_keeps, Dev.progCount_keeps, Dev.modArr_keeps]

@[simp] theorem tileProgClr_keeps (h : a.Keeps d) : a.Keeps (tileProgClr d) := by
  unfold tileProgClr
  grind only [Dev.modWts_keeps, Dev.modTile_keeps]

/-! ## Machine/Pages -/

theorem Dev.setEntry_keeps (h : a.Keeps d) (k idx s i p) : a.Keeps (d.setEntry k idx s i p) := by
  unfold Dev.setEntry
  dsimp only
  split
  · exact Dev.hbmWr_keeps h _ _
  · split
    case h_1 t e he => exact Dev.hbmWr_keeps (Dev.setSes_keeps (Dev.allocPage_keeps h _ _ he) _ _ _) _ _
    · exact h

theorem Dev.growTo_keeps (h : a.Keeps d) (k idx n c) : ∀ e, d.growTo k idx n c = some e → a.Keeps e := by
  unfold Dev.growTo
  intro e he
  extract_lets s held d₁ d₂ at he
  have h₁ : a.Keeps d₁ := Dev.foldl_keeps (fun d j hd => by
    dsimp only
    split
    case h_1 he => exact Dev.hbmWr_keeps (Dev.setEntry_keeps (Dev.allocPage_keeps hd _ _ he) _ _ _ _ _) _ _
    · exact hd) _ h
  have h₂ : a.Keeps d₂ := Dev.setSes_keeps h₁ _ _ _
  grind only [Dev.setSes_keeps]

theorem Dev.dropPage_keeps (h : a.Keeps d) (p) : a.Keeps (d.dropPage p) := by
  unfold Dev.dropPage
  grind only [Dev.modKv_keeps]

theorem Dev.releaseKv_keeps (h : a.Keeps d) (k s) : a.Keeps (d.releaseKv k s) := by
  unfold Dev.releaseKv
  grind [Dev.dropPage_keeps, Dev.hbmWr_keeps, Dev.foldl_keeps]

theorem Dev.debit_keeps (h : a.Keeps d) (s n anew) : a.Keeps (d.debit s n anew) := by
  unfold Dev.debit
  grind [Dev.modKv_keeps, Dev.foldl_keeps]

theorem Dev.takeFree_keeps (h : a.Keeps d) (late m) : a.Keeps (d.takeFree late m) := by
  unfold Dev.takeFree
  grind only [Dev.modKv_keeps]

theorem Dev.claimBack_keeps (h : a.Keeps d) (x) : a.Keeps (d.claimBack x) := by
  unfold Dev.claimBack
  grind only [Dev.modKv_keeps]

theorem Dev.kvEmit_keeps (h : a.Keeps d) (dst op m) : a.Keeps (d.kvEmit dst op m) := by
  unfold Dev.kvEmit
  grind only [Dev.emit_keeps, Dev.modKv_keeps]

theorem Dev.kvSend_keeps (h : a.Keeps d) (dst op m) : a.Keeps (d.kvSend dst op m) := by
  unfold Dev.kvSend
  grind only [Dev.kvEmit_keeps, Dev.modKv_keeps]

theorem Dev.laneOpen_keeps (h : a.Keeps d) : a.Keeps d.laneOpen := by
  unfold Dev.laneOpen
  grind [Dev.kvSend_keeps, Dev.modKv_keeps, Dev.foldl_keeps]

theorem Dev.laneFree_keeps (h : a.Keeps d) : a.Keeps d.laneFree := by
  unfold Dev.laneFree
  grind [Dev.kvSend_keeps, Dev.foldl_keeps]

theorem Dev.toOwners_keeps (h : a.Keeps d) (op m) : a.Keeps (d.toOwners op m) := by
  unfold Dev.toOwners
  grind [Dev.kvSend_keeps, Dev.modKv_keeps, Dev.foldl_keeps]

theorem Dev.kvReply_keeps (h : a.Keeps d) (m op cause) : a.Keeps (d.kvReply m op cause) := by
  unfold Dev.kvReply
  grind only [Dev.kvSend_keeps]

theorem Dev.releaseSession_keeps (h : a.Keeps d) (s) : a.Keeps (d.releaseSession s) := by
  unfold Dev.releaseSession
  grind only [Dev.modKv_keeps, Dev.toOwners_keeps]

/-! ## Machine/Kv -/

theorem Dev.onOwner_keeps (h : a.Keeps d) (m) {f : KvDev → Nat → Dev → Dev} (hf : ∀ k i d, a.Keeps d → a.Keeps (f k i d)) :
    a.Keeps (d.onOwner m f) := by
  unfold Dev.onOwner
  grind

theorem Dev.kvNotice_keeps (h : a.Keeps d) (k s op pos) : a.Keeps (d.kvNotice k s op pos) := by
  unfold Dev.kvNotice
  grind only [Dev.kvSend_keeps]

theorem Dev.kvPageBad_keeps (h : a.Keeps d) (p e) : a.Keeps (d.kvPageBad p e) := by
  unfold Dev.kvPageBad
  grind [Dev.raise_keeps, Dev.contain_keeps, Dev.modKv_keeps, Dev.kvNotice_keeps, Dev.foldl_keeps]

theorem Dev.readPages_keeps (h : a.Keeps d) (ps) : a.Keeps (d.readPages ps).1 := by
  unfold Dev.readPages
  grind [Dev.kvPageBad_keeps, Dev.foldl_keeps]

theorem Dev.muleFailed_keeps (h : a.Keeps d) : a.Keeps d.muleFailed := by
  unfold Dev.muleFailed
  grind only [Dev.useFree_keeps, Dev.raise_keeps, Dev.dmaCount_keeps]

theorem Dev.mirrorBack_keeps (h : a.Keeps d) (m) : a.Keeps (d.mirrorBack m) := by
  unfold Dev.mirrorBack
  grind only [Dev.modKv_keeps, Dev.setSes_keeps, Dev.setSesF_keeps]

@[simp] theorem swapOut_keeps (h : a.Keeps d) (m) : a.Keeps (swapOut m d) := by
  refine Dev.onOwner_keeps h m fun k i d h => ?_
  have hr := Dev.readPages_keeps (Dev.setKstate_keeps h m.session.toNat 2)
  have hw : ∀ (l : List (Nat × Nat)) {d : Dev}, a.Keeps d →
      a.Keeps (l.foldl (fun d p => d.emit (.hostWrite (d.grBase m.session.toNat + 65536 * p.1) (d.hbmRd (kvPage p.2) 65536) true)) d) :=
    fun l _ hd => Dev.foldl_keeps (fun _ _ hd => Dev.emit_keeps hd _) l hd
  dsimp only
  refine Dev.ite_keeps (Dev.kvReply_keeps h _ _ _) (Dev.ite_keeps (Dev.kvReply_keeps h _ _ _) (Dev.ite_keeps (Dev.kvReply_keeps (hr _) _ _ _) ?_))
  split
  · exact Dev.kvReply_keeps (Dev.mirrorBack_keeps (Dev.setKstate_keeps (hr _) _ _) _) _ _ _
  · exact Dev.modKv_keeps (Dev.emit_keeps (Dev.dmaCount_keeps (hw _ (hr _)) _ _) _) _

@[simp] theorem swapOutWritten_keeps (h : a.Keeps d) (s ok) : a.Keeps (swapOutWritten s ok d) := by
  unfold swapOutWritten
  grind only [Dev.modKv_keeps, Dev.kvReply_keeps, Dev.mirrorBack_keeps, Dev.setKstate_keeps, Dev.muleFailed_keeps]

@[simp] theorem swapIn_keeps (h : a.Keeps d) (m) : a.Keeps (swapIn m d) := by
  unfold swapIn
  grind [Dev.onOwner_keeps, Dev.kvReply_keeps, Dev.growTo_keeps, Dev.setKstate_keeps, Dev.emit_keeps, Dev.modKv_keeps, Dev.foldl_keeps]

theorem Dev.loadPage_keeps (h : a.Keeps d) (s p) : a.Keeps (d.loadPage s p) := by
  unfold Dev.loadPage
  split
  case h_1 n _ =>
    refine Dev.modMem_wf h fun w => Mem.wf_setHbm _ _ (Mem.wf_zeroHbm _ _ _ w) ?_
    refine Machine.foldl_keeps (fun m : List Host.Cell => cellsWf m = true) _ (fun m b hm => ?_) _ _ ((Mem.wf_iff _).mp (Mem.wf_zeroHbm _ _ _ w)).1
    grind only [cellsWf_wr1]
  · exact h

@[simp] theorem swapInLoaded_keeps (h : a.Keeps d) (s ok pages) : a.Keeps (swapInLoaded s ok pages d) := by
  unfold swapInLoaded
  grind [Dev.modKv_keeps, Dev.kvReply_keeps, Dev.muleFailed_keeps, Dev.dmaCount_keeps, Dev.loadPage_keeps, Dev.setSes_keeps,
    Dev.setKstate_keeps, Dev.foldl_keeps]

@[simp] theorem kvCommit_keeps (h : a.Keeps d) (m) : a.Keeps (kvCommit m d) := by
  unfold kvCommit
  grind only [Dev.onOwner_keeps, Dev.setKstate_keeps, Dev.releaseKv_keeps]

@[simp] theorem kvKeep_keeps (h : a.Keeps d) (m) : a.Keeps (kvKeep m d) := by
  unfold kvKeep
  grind only [Dev.onOwner_keeps, Dev.setKstate_keeps]

@[simp] theorem kvRelease_keeps (h : a.Keeps d) (m) : a.Keeps (kvRelease m d) := by
  unfold kvRelease
  grind only [Dev.onOwner_keeps, Dev.modKv_keeps, Dev.releaseKv_keeps, Dev.kvReply_keeps, Dev.setKstate_keeps, Dev.setSesF_keeps]

@[simp] theorem kvResume_keeps (h : a.Keeps d) (m) : a.Keeps (kvResume m d) := by
  unfold kvResume
  grind only [Dev.onOwner_keeps, Dev.setKstate_keeps]

@[simp] theorem kvFork_keeps (h : a.Keeps d) (m) : a.Keeps (kvFork m d) := by
  refine Dev.onOwner_keeps h m fun k i d h => ?_
  have hr := Dev.readPages_keeps h
  dsimp only
  refine Dev.ite_keeps (Dev.kvReply_keeps (hr _) _ _ _) (Dev.ite_keeps (Dev.kvReply_keeps (hr _) _ _ _) (Dev.ite_keeps (Dev.kvReply_keeps (hr _) _ _ _) ?_))
  refine Dev.kvReply_keeps (Dev.setKstate_keeps (Dev.setSes_keeps (Dev.setSes_keeps (Dev.setSes_keeps (Dev.foldl_keeps (fun d j hd => ?_) _
    (Dev.foldl_keeps (fun d e hd => Dev.modKv_keeps (Dev.setEntry_keeps hd _ _ _ _ _) _) _ (hr _))) _ _ _) _ _ _) _ _ _) _ _) _ _ _
  split
  case h_1 he => exact Dev.hbmWr_keeps (Dev.hbmWr_keeps (Dev.setEntry_keeps (Dev.allocPage_keeps hd _ _ he) _ _ _ _ _) _ _) _ _
  · exact hd

@[simp] theorem pageZeroDone_keeps (h : a.Keeps d) (p) : a.Keeps (pageZeroDone p d) := by
  unfold pageZeroDone
  grind only [Dev.modKv_keeps, Dev.modMem_keeps, Dev.modMem_wf, Mem.wf_iff, Mem.wf_wrHbm, Mem.wf_zeroHbm, Mem.wf_zeroApron, Mem.wf_copyHbm,
    Mem.wf_count, Mem.wf_zeroCw, Mem.wf_flip, Mem.wf_applyRepairs, cellsWf_wrN, cellsWf_zeroRange, sparseWf_sput, sparseWf_sdel,
    sparseWf_smod, sparseWf_filter, sparseWf_sclear]

theorem Dev.mirrorStop_keeps (h : a.Keeps d) (k s) : a.Keeps (d.mirrorStop k s) := by
  unfold Dev.mirrorStop
  grind only [Dev.modKv_keeps, Dev.setSesF_keeps, Dev.kvNotice_keeps, Dev.raise_keeps]

@[simp] theorem mirrorConfirm_keeps (h : a.Keeps d) (s upTo ok) : a.Keeps (mirrorConfirm s upTo ok d) := by
  unfold mirrorConfirm
  grind only [Dev.mirrorStop_keeps, Dev.muleFailed_keeps, Dev.modKv_keeps, Dev.setSes_keeps, Dev.kvNotice_keeps]

theorem Dev.onReply_keeps (h : a.Keeps d) (m) {f : Nat → Dev → Dev} (hf : ∀ n d, a.Keeps d → a.Keeps (f n d)) : a.Keeps (d.onReply m f) := by
  unfold Dev.onReply
  grind [Dev.takeFree_keeps]

@[simp] theorem kvWritten_keeps (h : a.Keeps d) (m) : a.Keeps (kvWritten m d) := by
  unfold kvWritten
  grind only [Dev.onReply_keeps, Dev.modKv_keeps, Dev.kvCount_keeps]

@[simp] theorem kvLoaded_keeps (h : a.Keeps d) (m) : a.Keeps (kvLoaded m d) := by
  unfold kvLoaded
  grind only [Dev.onReply_keeps, Dev.modKv_keeps, Dev.kvCount_keeps]

@[simp] theorem kvFailed_keeps (h : a.Keeps d) (m) : a.Keeps (kvFailed m d) := by
  unfold kvFailed
  grind only [Dev.onReply_keeps, Dev.modKv_keeps]

@[simp] theorem kvReleased_keeps (h : a.Keeps d) (m) : a.Keeps (kvReleased m d) := by
  unfold kvReleased
  grind only [Dev.onReply_keeps, Dev.modKv_keeps]

@[simp] theorem kvForked_keeps (h : a.Keeps d) (m) : a.Keeps (kvForked m d) := by
  unfold kvForked
  grind only [Dev.onReply_keeps, Dev.modKv_keeps]

@[simp] theorem kvSessionFault_keeps (h : a.Keeps d) (m) : a.Keeps (kvSessionFault m d) := by
  unfold kvSessionFault
  grind only [Dev.onReply_keeps, Dev.sessionFault_keeps]

@[simp] theorem kvMirrorLost_keeps (h : a.Keeps d) (m) : a.Keeps (kvMirrorLost m d) := by
  unfold kvMirrorLost
  grind only [Dev.onReply_keeps, Dev.modKv_keeps, Dev.kvCount_keeps]

@[simp] theorem kvMirrored_keeps (h : a.Keeps d) (m) : a.Keeps (kvMirrored m d) := by
  unfold kvMirrored
  grind only [Dev.onReply_keeps, Dev.modKv_keeps]

@[simp] theorem kvFree_keeps (h : a.Keeps d) (m) : a.Keeps (kvFree m d) := by
  unfold kvFree
  grind only [Dev.takeFree_keeps]

@[simp] theorem kvReserved_keeps (h : a.Keeps d) : a.Keeps (kvReserved d) := by
  unfold kvReserved
  grind only [Dev.contain_keeps]

theorem Dev.kvDone_keeps (h : a.Keeps d) (cause) : a.Keeps (d.kvDone cause) := by
  unfold Dev.kvDone
  grind only [Dev.event_keeps, Dev.modKv_keeps]

theorem Dev.swapOutStart_keeps (h : a.Keeps d) (s host) : a.Keeps (d.swapOutStart s host) := by
  unfold Dev.swapOutStart
  grind only [Dev.setSstate_keeps, Dev.setSesF_keeps, Dev.modKv_keeps, Dev.toOwners_keeps]

theorem Dev.swapInTry_keeps (h : a.Keeps d) (s) : a.Keeps (d.swapInTry s) := by
  unfold Dev.swapInTry
  grind only [Dev.modKv_keeps, Dev.setSstate_keeps, Dev.kvDone_keeps, Dev.debit_keeps, Dev.toOwners_keeps]

theorem Dev.greenRoomError_keeps (h : a.Keeps d) (s) : a.Keeps (d.greenRoomError s) := by
  unfold Dev.greenRoomError
  have h₁ := Dev.setSesF_keeps (Dev.setSesF_keeps (Dev.releaseSession_keeps h s) s 0x204 0 24 0) s 0x200 4 1 0
  have hc : ∀ (c : Prop) [Decidable c], a.Keeps (if c then
      (((d.releaseSession s).setSesF s 0x204 0 24 0).setSesF s 0x200 4 1 0).clearCalling s
      else ((d.releaseSession s).setSesF s 0x204 0 24 0).setSesF s 0x200 4 1 0) := fun c _ => Dev.ite_keeps (Dev.clearCalling_keeps h₁ _) h₁
  dsimp only
  exact Dev.setSstate_keeps (Dev.ite_keeps (Dev.ite_keeps (Dev.endCall_keeps (hc _) _ _ _ _) (Dev.kvCount_keeps (Dev.endCall_keeps (hc _) _ _ _ _) _ _)) h₁) _ _

theorem Dev.swapDone_keeps (h : a.Keeps d) (w) : a.Keeps (d.swapDone w) := by
  unfold Dev.swapDone
  grind only [Dev.modKv_keeps, Dev.kvCount_keeps, Dev.toOwners_keeps, Dev.setSstate_keeps, Dev.releaseSession_keeps,
    Dev.greenRoomError_keeps, Dev.kvDone_keeps]

theorem Dev.wantSwapIn_keeps (h : a.Keeps d) (s host) : a.Keeps (d.wantSwapIn s host) := by
  unfold Dev.wantSwapIn
  grind only [Dev.modKv_keeps]

theorem Dev.forkDone_keeps (h : a.Keeps d) (j) : a.Keeps (d.forkDone j) := by
  simp only [Dev.forkDone]
  (repeat' split) <;> grind [Dev.kvDone_keeps, Dev.releaseSession_keeps, Dev.setSesF_keeps, Dev.kvCount_keeps]

theorem Dev.jobStart_keeps (h : a.Keeps d) (j) : a.Keeps (d.jobStart j) := by
  unfold Dev.jobStart
  grind [Dev.modKv_keeps, Dev.kvCount_keeps, Dev.swapOutStart_keeps, Dev.kvDone_keeps, Dev.wantSwapIn_keeps, Dev.toOwners_keeps,
    Dev.foldl_keeps]

theorem Dev.swapsEnd_keeps (h : a.Keeps d) : a.Keeps d.swapsEnd := by
  unfold Dev.swapsEnd
  grind [Dev.swapDone_keeps, Dev.foldl_keeps]

theorem Dev.kvScan_keeps (h : a.Keeps d) : a.Keeps d.kvScan := by
  unfold Dev.kvScan
  grind [Dev.jobStart_keeps, Dev.forkDone_keeps, Dev.swapInTry_keeps, Dev.foldl_keeps]

theorem Dev.preempt_keeps (h : a.Keeps d) : a.Keeps d.preempt := by
  unfold Dev.preempt
  grind [Dev.kvCount_keeps, Dev.swapOutStart_keeps, Dev.foldl_keeps]

theorem Dev.drainScan_keeps (h : a.Keeps d) : a.Keeps d.drainScan := by
  unfold Dev.drainScan
  grind [Dev.swapOutStart_keeps, Dev.finishDrain_keeps, Dev.foldl_keeps]

theorem Dev.kvCommand_keeps (h : a.Keeps d) (op session) : a.Keeps (d.kvCommand op session) := by
  unfold Dev.kvCommand
  grind only [Dev.modKv_keeps, Dev.kvDone_keeps]

@[simp] theorem callKvClr_keeps (h : a.Keeps d) : a.Keeps (callKvClr d) := by
  unfold callKvClr
  grind only [Dev.modKv_keeps]

/-! ## Machine/Callboard -/

theorem Dev.rebuildBitmap_keeps (h : a.Keeps d) (cw) : a.Keeps (d.rebuildBitmap cw) := by
  unfold Dev.rebuildBitmap
  grind only [Dev.hbmWr_keeps, Dev.modCall_keeps]

theorem Dev.ringLost_keeps (h : a.Keeps d) (s cw) : a.Keeps (d.ringLost s cw) := by
  simp only [Dev.ringLost]
  (repeat' split) <;> grind [Dev.endCall_keeps]

theorem Dev.sessionMemBad_keeps (h : a.Keeps d) (cw e) : a.Keeps (d.sessionMemBad cw e) := by
  unfold Dev.sessionMemBad
  grind only [Dev.sessionFault_keeps, Dev.raise_keeps, Dev.ringLost_keeps, Dev.rebuildBitmap_keeps]

theorem Dev.emptySession_keeps (h : a.Keeps d) (s) : a.Keeps (d.emptySession s) := by
  unfold Dev.emptySession
  grind only [Dev.endCall_keeps, Dev.releaseSession_keeps, Dev.hbmWr_keeps, Dev.kvDone_keeps, Dev.modKv_keeps, Dev.modCall_keeps,
    Dev.modCall_wf, Call.Wf, Call.wf_dropCache, Call.wf_turnRotor, Call.wf_retireFree, Call.wf_mark, sparseWf_sput, sparseWf_sdel,
    sparseWf_smod, sparseWf_filter, sparseWf_sclear]

theorem Dev.initSession_keeps (h : a.Keeps d) (s) : a.Keeps (d.initSession s) := by
  unfold Dev.initSession
  extract_lets k d₁ d₂ d₃ d₄ d₅
  have h₂ : a.Keeps d₂ := Dev.setSes_keeps (Dev.setSes_keeps (Dev.setSstate_keeps (Dev.hbmWr_keeps h _ _) _ _) _ _ _) _ _ _
  have h₃ : a.Keeps d₃ := Dev.modCall_keeps h₂ rfl rfl
  have h₄ : a.Keeps d₄ := Dev.setSesF_keeps (Dev.setSes_keeps h₃ _ _ _) _ _ _ _ _
  have h₅ : a.Keeps d₅ := Dev.setSesF_keeps (Dev.setSes_keeps h₄ _ _ _) _ _ _ _ _
  exact Dev.ite_keeps h (Dev.ite_keeps (Dev.toOwners_keeps (Dev.setSstate_keeps (Dev.setSesF_keeps h₅ _ _ _ _ _) _ _) _ _) h₃)

theorem Dev.examine_keeps (h : a.Keeps d) (f s) : a.Keeps (d.examine f s) := by
  unfold Dev.examine
  grind only [Dev.modCall_keeps, Dev.setSes_keeps, Dev.clearCalling_keeps, Dev.callCount_keeps]

theorem Dev.readBitmap_keeps (h : a.Keeps d) (f) : a.Keeps (d.readBitmap f) := by
  unfold Dev.readBitmap
  grind [Dev.sessionMemBad_keeps, Dev.modCall_keeps, Dev.examine_keeps, Dev.foldl_keeps]

theorem Dev.accept_keeps (h : a.Keeps d) (s) : a.Keeps (d.accept s) := by
  unfold Dev.accept
  extract_lets r d₁ d₂ k d₃ d₄
  have h₂ : a.Keeps d₂ := Dev.setSesF_keeps (Dev.setSes_keeps (Dev.setSes_keeps (Dev.hbmWr_keeps h _ _) _ _ _) _ _ _) _ _ _ _ _
  have h₃ : a.Keeps d₃ := Dev.setSstate_keeps (Dev.setSesF_keeps (Dev.setSes_keeps h₂ _ _ _) _ _ _ _ _) _ _
  have h₄ : a.Keeps d₄ := Dev.modCall_keeps h₃ rfl rfl
  exact Dev.ite_keeps (Dev.releaseSession_keeps (Dev.setSesF_keeps (Dev.setSesF_keeps h₄ _ _ _ _ _) _ _ _ _ _) _) h₄

theorem Dev.tryAccept_keeps (h : a.Keeps d) (s vocab) : a.Keeps (d.tryAccept s vocab).1 := by
  simp only [Dev.tryAccept]
  (repeat' split) <;> grind [Dev.modCall_keeps, Dev.clearCalling_keeps, Dev.endCall_keeps, Dev.accept_keeps]

theorem Dev.cacheSlot_keeps (h : a.Keeps d) (s) : a.Keeps (d.cacheSlot s).1 := by
  unfold Dev.cacheSlot
  grind only [Dev.setSes_keeps, Dev.modCall_keeps, Dev.callCount_keeps, Dev.setSesF_keeps]

theorem Dev.enterChunk_keeps (h : a.Keeps d) (x j) : a.Keeps (d.enterChunk x j) := by
  unfold Dev.enterChunk
  dsimp only
  split
  · refine Dev.modFrm_wf h fun w => ⟨?_, w.2⟩
    exact Machine.foldl_keeps (fun m : Sparse Tok => sparseWf m = true) _ (fun _ _ hm => sparseWf_sput _ _ _ hm) _ _ w.1
  · exact h

theorem Dev.chunksEnter_keeps (h : a.Keeps d) : a.Keeps d.chunksEnter := by
  unfold Dev.chunksEnter
  grind [Dev.modCall_keeps, Dev.enterChunk_keeps, Dev.foldl_keeps]

theorem Dev.admitted_keeps (h : a.Keeps d) (x cl admitted) : a.Keeps (d.admitted x cl admitted) := by
  unfold Dev.admitted
  dsimp only
  apply_rules [Dev.enterChunk_keeps, Dev.modCall_keeps, Dev.modKv_keeps, Dev.debit_keeps, Dev.callCount_keeps, Dev.setSes_keeps, Dev.setSesF_keeps,
    Dev.cacheSlot_keeps, rfl]

theorem ScanSt.tryAdmit_keeps {z : ScanSt} (h : a.Keeps z.dev) (c) : a.Keeps (z.tryAdmit c).dev := by
  unfold ScanSt.tryAdmit
  grind only [Dev.admitted_keeps, Dev.callCount_keeps]

theorem ScanSt.ite_keeps {c : Prop} [Decidable c] {x y : ScanSt} (hx : a.Keeps x.dev) (hy : a.Keeps y.dev) : a.Keeps (if c then x else y).dev := by
  split
  · exact hx
  · exact hy

theorem ScanSt.check_keeps {z : ScanSt} (h : a.Keeps z.dev) (vocab c) : a.Keeps (z.check vocab c).dev := by
  unfold ScanSt.check
  extract_lets d s acc dropReady
  have hd : a.Keeps d := h
  have hready : ∀ {d : Dev}, a.Keeps d → a.Keeps (dropReady d) := fun hd => Dev.modCall_keeps hd rfl rfl
  have hacc : a.Keeps (if acc = true then (d, true) else d.tryAccept s vocab).1 := by
    split
    · exact hd
    · exact Dev.tryAccept_keeps hd _ _
  refine ScanSt.ite_keeps (ScanSt.ite_keeps (Dev.endCall_keeps hd _ _ _ _) (Dev.callCount_keeps hd _)) ?_
  refine ScanSt.ite_keeps (ScanSt.ite_keeps h (ScanSt.ite_keeps (hready (Dev.endCall_keeps (Dev.clearCalling_keeps hd _) _ _ _ _)) h)) ?_
  refine ScanSt.ite_keeps h (ScanSt.ite_keeps (hready (Dev.sessionFault_keeps hd _)) ?_)
  refine ScanSt.ite_keeps (Dev.swapInTry_keeps (Dev.wantSwapIn_keeps hd _ _) _) (ScanSt.ite_keeps h (ScanSt.ite_keeps (Dev.callCount_keeps hd _) ?_))
  generalize (if acc = true then (d, true) else d.tryAccept s vocab) = p at hacc ⊢
  obtain ⟨e, ok⟩ := p
  have he : a.Keeps e := hacc
  refine ScanSt.ite_keeps he (ScanSt.ite_keeps (Dev.endCall_keeps he _ _ _ _) ?_)
  extract_lets want
  have hp : ∀ n, a.Keeps (if want = true then e.pinAdapter s n else e) := fun n => Dev.ite_keeps (Dev.pinAdapter_keeps he _ _) he
  split
  · exact Dev.endCall_keeps he _ _ _ _
  · next n _ =>
    refine ScanSt.ite_keeps ?_ (ScanSt.tryAdmit_keeps ?_ _)
    · exact hp n
    · exact hp n

theorem Dev.admission_keeps (h : a.Keeps d) : a.Keeps d.admission := by
  unfold Dev.admission
  dsimp only
  split
  · exact h
  · refine Dev.ite_keeps h (Dev.modCall_keeps ?_ rfl rfl)
    exact Machine.foldl_keeps (fun z : ScanSt => a.Keeps z.dev) _ (fun z c hz => ScanSt.check_keeps hz _ c) _ _ h

/-! ## Machine/Steps -/

theorem Dev.setWindow_keeps (h : a.Keeps d) (s w) : a.Keeps (d.setWindow s w) := by
  unfold Dev.setWindow
  grind only [Dev.hbmWr_keeps, Dev.setSes_keeps]

theorem Dev.adaptK_keeps (h : a.Keeps d) (s a' kEff) : a.Keeps (d.adaptK s a' kEff) := by
  unfold Dev.adaptK
  grind only [Dev.setSesF_keeps, Dev.setWindow_keeps]

theorem Dev.learnStep_keeps (h : a.Keeps d) (marked) : a.Keeps (d.learnStep marked) := by
  unfold Dev.learnStep
  grind only [Dev.modTile_keeps]

theorem Dev.sessionAfter_keeps (h : a.Keeps d) (x) : a.Keeps (d.sessionAfter x) := by
  unfold Dev.sessionAfter
  have h₁ := Dev.setSesF_keeps h x.session 0x204 0 24 (x.pos + (x.tokens.length - x.kEff) + (x.released.length - 1))
  grind only [Dev.setSes_keeps, Dev.setSesF_keeps, Dev.modCall_keeps]

theorem Dev.completeOk_keeps (h : a.Keeps d) (x) : a.Keeps (d.completeOk x) := by
  unfold Dev.completeOk
  grind [Dev.sessionAfter_keeps, Dev.learnStep_keeps, Dev.adaptK_keeps, Dev.setSes_keeps, Dev.writeRecord_keeps, Dev.modCall_keeps,
    Dev.closeCall_keeps, Dev.foldl_keeps]

theorem Dev.replayStep_keeps (h : a.Keeps d) (x) : a.Keeps (d.replayStep x) := by
  unfold Dev.replayStep
  grind only [Dev.modCall_keeps, Dev.setSesF_keeps, Dev.learnStep_keeps]

theorem Dev.endStep_keeps (h : a.Keeps d) (x st cause) : a.Keeps (d.endStep x st cause) := by
  unfold Dev.endStep
  grind only [Dev.claimBack_keeps, Dev.endCall_keeps]

@[simp] theorem stepComplete_keeps (h : a.Keeps d) (s t) : a.Keeps (stepComplete s t d) := by
  unfold stepComplete
  extract_lets d₁ d₂
  have h₁ : a.Keeps d₁ := Dev.at__keeps h _
  have h₂ : a.Keeps d₂ := Dev.ite_keeps (Dev.useFree_keeps h₁ _) h₁
  split
  · exact h₁
  next x _ =>
    refine Dev.ite_keeps h₁ ?_
    extract_lets y
    exact Dev.ite_keeps (Dev.sessionFault_keeps h₂ _) (Dev.ite_keeps (Dev.endStep_keeps h₂ _ _ _) (Dev.ite_keeps (Dev.endStep_keeps h₂ _ _ _)
      (Dev.ite_keeps (Dev.discardStep_keeps h₂ _ _) (Dev.ite_keeps (Dev.replayStep_keeps h₂ _) (Dev.ite_keeps (Dev.modKv_keeps h₂ _)
        (Dev.completeOk_keeps h₂ _))))))

theorem Dev.mirrorRetry_keeps (h : a.Keeps d) : a.Keeps d.mirrorRetry := by
  unfold Dev.mirrorRetry
  grind [stepComplete_keeps, Dev.modKv_keeps, Dev.foldl_keeps]

theorem Dev.flushDiscards_keeps (h : a.Keeps d) : a.Keeps d.flushDiscards := by
  refine Dev.foldl_keeps (fun d x hd => ?_) _ (Dev.modErr_keeps h rfl rfl)
  split
  · exact Dev.ite_keeps (Dev.endStep_keeps hd _ _ _) (Dev.endStep_keeps hd _ _ _)
  · exact hd

theorem Dev.scan_keeps (h : a.Keeps d) : a.Keeps d.scan := by
  unfold Dev.scan
  extract_lets f d₁ d₂ d₃ d₄ d₅ d₆ d₇
  have h₂ : a.Keeps d₂ := Dev.modCall_wf (Dev.modKv_keeps h _) id
  have h₃ : a.Keeps d₃ := Dev.swapsEnd_keeps h₂
  have h₄ : a.Keeps d₄ := Dev.foldl_keeps (fun _ s hd => Dev.emptySession_keeps hd s) _ h₃
  have h₅ : a.Keeps d₅ := Dev.foldl_keeps (fun _ s hd => Dev.initSession_keeps hd s) _ h₄
  have h₆ : a.Keeps d₆ := Dev.mirrorRetry_keeps (Dev.kvScan_keeps h₅)
  have h₇ : a.Keeps d₇ := Dev.ite_keeps (Dev.admission_keeps (Dev.readBitmap_keeps h₆ _)) h₆
  exact Dev.ite_keeps h (Dev.ite_keeps (Dev.drainScan_keeps h₇) (Dev.preempt_keeps h₇))

/-! ## Machine/Lifecycle -/

theorem Dev.aggregate_keeps (h : a.Keeps d) : a.Keeps d.aggregate := by
  unfold Dev.aggregate
  grind only [Dev.modFrm_keeps]

theorem Dev.lateSlots_keeps (h : a.Keeps d) (link n) : a.Keeps (d.lateSlots link n) := by
  unfold Dev.lateSlots
  grind only [Dev.modMesh_keeps]

theorem Dev.endStall_keeps (h : a.Keeps d) (st slot) : a.Keeps (d.endStall st slot) := by
  unfold Dev.endStall
  grind only [Dev.lateSlots_keeps, Dev.modFrm_keeps]

theorem Dev.cutStall_keeps (h : a.Keeps d) (len) : a.Keeps (d.cutStall len) := by
  unfold Dev.cutStall
  grind only [Dev.endStall_keeps]

theorem Dev.workEnd_keeps (h : a.Keeps d) : a.Keeps d.workEnd := by
  unfold Dev.workEnd
  grind only [Dev.advance_keeps, Dev.discardTok_keeps, Dev.unserved_keeps, Dev.tagZeroing_keeps, Dev.modMem_keeps, Dev.modTile_keeps,
    Dev.foldl_keeps, Dev.modMem_wf, Mem.wf_zeroApron, Dev.modTile_wf, Tile.Wf, sparseWf_nil]

theorem Dev.frameOver_keeps (h : a.Keeps d) (len) : a.Keeps (d.frameOver len) := by
  unfold Dev.frameOver
  grind only [Dev.cutStall_keeps, Dev.aggregate_keeps, Dev.workEnd_keeps, Dev.modFrm_keeps, Dev.modFrm_wf, Frm.Wf, Frm.wf_emptyLanes,
    Frm.wf_stopCues, Frm.wf_countStalls, Frm.wf_slewPath, Frm.wf_countLen, Frm.wf_tickInCtrl, Frm.wf_clearHeld, sparseWf_sput,
    sparseWf_sdel, sparseWf_smod, sparseWf_filter, sparseWf_sclear]

theorem Dev.endFrames_keeps (h : a.Keeps d) (len) : a.Keeps (d.endFrames len) := by
  unfold Dev.endFrames
  grind only [Dev.agesEnd_keeps, Dev.frameOver_keeps, Dev.enterStruck_keeps, Dev.modFrm_keeps, Dev.flushDiscards_keeps, Dev.modFrm_wf,
    Frm.Wf, Frm.stopCues, sparseWf_nil]

theorem Dev.clearScript_keeps (h : a.Keeps d) : a.Keeps d.clearScript := by
  unfold Dev.clearScript
  extract_lets d₁ d₂ d₃ d₄ d₅ d₆
  have h₁ : a.Keeps d₁ := Dev.modMem_wf h fun w => Mem.wf_zeroHbm _ _ _
    ((Mem.wf_iff _).mpr ⟨((Mem.wf_iff _).mp w).1, rfl, rfl, rfl, rfl⟩)
  have h₂ : a.Keeps d₂ := Dev.ite_keeps (Dev.kvDone_keeps h₁ _) h₁
  have h₄ : a.Keeps d₄ := Dev.modCall_wf (Dev.modKv_keeps h₂ _) fun _ => ⟨rfl, rfl⟩
  have h₅ : a.Keeps d₅ := Dev.modEng_wf h₄ fun _ => rfl
  have h₆ : a.Keeps d₆ := Dev.modTile_wf h₅ fun w => ⟨rfl, w.2⟩
  exact Dev.modWts_keeps h₆ _

theorem Dev.resetSessions_keeps (h : a.Keeps d) : a.Keeps d.resetSessions := by
  unfold Dev.resetSessions
  grind only [Dev.hbmWr_keeps, Dev.setSes_keeps, Dev.setSesF_keeps, Dev.setSstate_keeps, Dev.modCall_keeps, Dev.modCall_wf, Call.Wf,
    Call.wf_dropCache, Call.wf_turnRotor, Call.wf_retireFree, Call.wf_mark, sparseWf_sput, sparseWf_sdel, sparseWf_smod, sparseWf_filter,
    sparseWf_sclear, Dev.foldl_keeps, Dev.foldl_fst_keeps]

theorem Dev.unloadScript_keeps (h : a.Keeps d) : a.Keeps d.unloadScript := by
  unfold Dev.unloadScript
  grind only [Dev.clearScript_keeps, Dev.resetSessions_keeps, Dev.exactFail_keeps, Dev.modScr_keeps, Dev.modFrm_keeps, Dev.modWts_keeps,
    Dev.dropWeights_keeps, Dev.modFrm_wf, Frm.Wf, Frm.wf_emptyLanes, Frm.wf_stopCues, Frm.wf_countStalls, Frm.wf_slewPath, Frm.wf_countLen,
    Frm.wf_tickInCtrl, Frm.wf_clearHeld, sparseWf_sput, sparseWf_sdel, sparseWf_smod, sparseWf_filter, sparseWf_sclear]

theorem Dev.pauseSoft_keeps (h : a.Keeps d) (all) : a.Keeps (d.pauseSoft all) := by
  unfold Dev.pauseSoft
  grind [Dev.pauseProg_keeps, Dev.foldl_keeps]

theorem Dev.idleLanes_keeps (h : a.Keeps d) (idle) : a.Keeps (d.idleLanes idle) := by
  unfold Dev.idleLanes
  grind only [Dev.modMesh_keeps]

theorem Dev.enterParked_keeps (h : a.Keeps d) (herd) : a.Keeps (d.enterParked herd) := by
  unfold Dev.enterParked
  grind only [Dev.modSys_keeps, Dev.pauseSoft_keeps, Dev.setSt_keeps, Dev.commitHistory_keeps, Dev.idleLanes_keeps]

theorem Dev.unpark_keeps (h : a.Keeps d) : a.Keeps d.unpark := by
  unfold Dev.unpark
  grind only [Dev.modSys_keeps, Dev.resumePaused_keeps, Dev.idleLanes_keeps]

theorem Dev.leavePower_keeps (h : a.Keeps d) : a.Keeps d.leavePower := by
  unfold Dev.leavePower
  grind only [Dev.modFrm_keeps, Dev.idleLanes_keeps, Dev.modSys_keeps]

theorem Dev.wakeEvent_keeps (h : a.Keeps d) : a.Keeps d.wakeEvent := by
  unfold Dev.wakeEvent
  grind only [Dev.unpark_keeps, Dev.applyHolds_keeps, Dev.setSt_keeps, Dev.leavePower_keeps, Dev.sendDown_keeps, Dev.sendUp_keeps,
    Dev.modSys_keeps]

theorem Dev.beginCurtain_keeps (h : a.Keeps d) : a.Keeps d.beginCurtain := by
  unfold Dev.beginCurtain
  grind only [Dev.modTile_keeps, Dev.exactFail_keeps, Dev.modWts_keeps, Dev.event_keeps, Dev.setSt_keeps, Dev.modTile_wf, Tile.Wf,
    Tile.wf_land, Tile.wf_setArr, Tile.wf_suspend, Tile.wf_dropLoads, Tile.wf_abandonSoft, Tile.wf_passed, Tile.wf_writeCells,
    Tile.wf_applyUps, Tile.wf_setCensus, sparseWf_sput, sparseWf_sdel, sparseWf_smod, sparseWf_filter, sparseWf_sclear]

theorem Dev.beginDrainKind_keeps (h : a.Keeps d) (k) : a.Keeps (d.beginDrainKind k) := by
  unfold Dev.beginDrainKind
  grind only [Dev.modFrm_keeps, Dev.beginCurtain_keeps, Dev.modWts_keeps, Dev.modTile_keeps, Dev.exactFail_keeps, Dev.modSys_keeps,
    Dev.pauseSoft_keeps, Dev.modFrm_wf, Dev.modTile_wf, Frm.Wf, Frm.wf_emptyLanes, Frm.wf_stopCues, Frm.wf_countStalls, Frm.wf_slewPath,
    Frm.wf_countLen, Frm.wf_tickInCtrl, Frm.wf_clearHeld, Tile.Wf, Tile.wf_land, Tile.wf_setArr, Tile.wf_suspend, Tile.wf_dropLoads,
    Tile.wf_abandonSoft, Tile.wf_passed, Tile.wf_writeCells, Tile.wf_applyUps, Tile.wf_setCensus, sparseWf_sput, sparseWf_sdel,
    sparseWf_smod, sparseWf_filter, sparseWf_sclear]

theorem Dev.drainEnd_keeps (h : a.Keeps d) (k) : a.Keeps (d.drainEnd k) := by
  unfold Dev.drainEnd
  grind only [Dev.endFrames_keeps, Dev.unloadScript_keeps, Dev.resumePaused_keeps, Dev.setSt_keeps, Dev.enterParked_keeps,
    Dev.wakeEvent_keeps, Dev.modSys_keeps]

theorem Dev.leaveFrames_keeps (h : a.Keeps d) : a.Keeps d.leaveFrames := by
  unfold Dev.leaveFrames
  extract_lets playing parked d₁ d₂ d₃ d₄ d₅
  have h₁ : a.Keeps d₁ := Dev.ite_keeps (Dev.discardAll_keeps (Dev.raise_keeps h _) _) h
  have h₂ : a.Keeps d₂ := Dev.modWts_keeps (Dev.modTile_keeps (Dev.endFrames_keeps h₁ _) rfl rfl) _
  have h₃ : a.Keeps d₃ := Dev.ite_keeps (Dev.modTile_keeps h₂ rfl rfl) h₂
  have h₅ : a.Keeps d₅ := Dev.modSys_keeps (Dev.ite_keeps (Dev.unpark_keeps h₃) h₃) _
  exact Dev.dropRemote_keeps (Dev.ite_keeps (Dev.setSt_keeps h₅ _) h₅)

theorem Dev.trainLinks_keeps (h : a.Keeps d) : a.Keeps d.trainLinks := by
  unfold Dev.trainLinks
  grind [Dev.modLink_keeps, Dev.foldl_keeps]

theorem Dev.beginDiscovery_keeps (h : a.Keeps d) : a.Keeps d.beginDiscovery := by
  unfold Dev.beginDiscovery
  grind only [Dev.trainLinks_keeps, Dev.leaveFrames_keeps, Dev.modMesh_keeps, Dev.modFrm_keeps]

theorem Dev.floodRediscover_keeps (h : a.Keeps d) : a.Keeps d.floodRediscover := by
  unfold Dev.floodRediscover
  grind only [Dev.modMesh_keeps, Dev.flood_keeps]

/-! ## Machine/Thermal -/

theorem Dev.applyBands_keeps (h : a.Keeps d) : a.Keeps d.applyBands := by
  unfold Dev.applyBands
  grind only [Dev.modThm_keeps, Dev.modTile_keeps]

@[simp] theorem bandReading_keeps (h : a.Keeps d) (temps) : a.Keeps (bandReading temps d) := by
  unfold bandReading
  grind only [Dev.modThm_keeps, Dev.applyBands_keeps]

theorem Dev.thermalRecord_keeps (h : a.Keeps d) (threshold) : a.Keeps (d.thermalRecord threshold) := by
  unfold Dev.thermalRecord
  grind only [Dev.event_keeps, Dev.raise_keeps]

theorem Dev.warnUpdate_keeps (h : a.Keeps d) : a.Keeps d.warnUpdate := by
  unfold Dev.warnUpdate
  grind only [Dev.modSys_keeps, Dev.modThm_keeps, Dev.thermalRecord_keeps]

theorem Dev.throttleUpdate_keeps (h : a.Keeps d) (t) : a.Keeps (d.throttleUpdate t) := by
  unfold Dev.throttleUpdate
  grind only [Dev.modThm_keeps, Dev.thermalRecord_keeps]

@[simp] theorem monitorCycle_keeps (h : a.Keeps d) (m t) : a.Keeps (monitorCycle m t d) := by
  unfold monitorCycle
  grind [Dev.at__keeps, Dev.modHkc_keeps, Dev.modThm_keeps, Dev.throttleUpdate_keeps, Dev.warnUpdate_keeps, Dev.useFree_keeps,
    Dev.raise_keeps, Dev.foldl_keeps]

@[simp] theorem hkcStart_keeps (h : a.Keeps d) (n urg) : a.Keeps (hkcStart n urg d) := by
  unfold hkcStart
  grind only [Dev.modHkc_keeps]

@[simp] theorem hkcUrgent_keeps (h : a.Keeps d) (n urg) : a.Keeps (hkcUrgent n urg d) := by
  unfold hkcUrgent
  grind only [Dev.modHkc_keeps]

@[simp] theorem hkcRefWrite_keeps (h : a.Keeps d) (sel) : a.Keeps (hkcRefWrite sel d) := by
  unfold hkcRefWrite
  grind only [Dev.modHkc_keeps]

@[simp] theorem hostBurstDone_keeps (h : a.Keeps d) (b) : a.Keeps (hostBurstDone b d) := by
  unfold hostBurstDone
  grind only [Dev.modHkc_keeps]

@[simp] theorem urgentDone_keeps (h : a.Keeps d) (b) : a.Keeps (urgentDone b d) := by
  unfold urgentDone
  grind only [Dev.modHkc_keeps]

@[simp] theorem refSettled_keeps (h : a.Keeps d) : a.Keeps (refSettled d) := by
  unfold refSettled
  grind only [Dev.modHkc_keeps]

@[simp] theorem avsPoll_keeps (h : a.Keeps d) (mv amps t) : a.Keeps (avsPoll mv amps t d) := by
  unfold avsPoll
  grind only [Dev.modThm_keeps, Dev.at__keeps]

@[simp] theorem avsReadback_keeps (h : a.Keeps d) (mv) : a.Keeps (avsReadback mv d) := by
  unfold avsReadback
  grind only [Dev.modThm_keeps, Dev.emit_keeps]

@[simp] theorem thermCntClr_keeps (h : a.Keeps d) : a.Keeps (thermCntClr d) := by
  unfold thermCntClr
  grind only [Dev.modThm_keeps]

theorem Dev.stopCore_keeps (h : a.Keeps d) : a.Keeps d.stopCore := by
  unfold Dev.stopCore
  grind only [Dev.modSys_keeps, Dev.modFrm_keeps, Dev.modCall_keeps, Dev.modDbg_keeps, Dev.linkLoss_keeps, Dev.modFrm_wf, Frm.Wf,
    sparseWf_nil]

@[simp] theorem thermalTrip_keeps (h : a.Keeps d) (diode fault t) : a.Keeps (thermalTrip diode fault t d) := by
  unfold thermalTrip
  grind only [Dev.at__keeps, Dev.modThm_keeps, Dev.modSys_keeps, Dev.setSt_keeps, Dev.stopCore_keeps]

/-! ## Machine/Boot -/

/-- A reset keeps of the tables the record stack alone. -/
theorem Dev.reset_keeps (h : a.Keeps d) : a.Keeps d.reset := by
  refine Dev.settle_keeps ⟨fun _ => rfl, fun ha => ?_⟩ _
  have h₀ := (Dev.tablesWf_iff _).mp (h.tables ha)
  exact (Dev.tablesWf_iff _).mpr ⟨⟨rfl, h₀.1.2⟩, ⟨rfl, rfl⟩, ⟨rfl, rfl⟩, ⟨rfl, rfl⟩, rfl⟩

theorem Dev.darkHouse_keeps (h : a.Keeps d) (cause dark) : a.Keeps (d.darkHouse cause dark) := by
  unfold Dev.darkHouse
  grind only [Dev.setSt_keeps, Dev.modSec_keeps]

theorem Dev.hbmStartFailed_keeps (h : a.Keeps d) : a.Keeps d.hbmStartFailed := by
  unfold Dev.hbmStartFailed
  extract_lets d₁
  have hr : a.Keeps d₁ := Dev.record_keeps h _ _ _
  have hk : a.Keeps (d₁.modErr fun e => { e with ring := d.err.ring, tail := d.err.tail, held := d.err.held, logFull := d.err.logFull }) :=
    ⟨hr.mem, fun ha => by
      obtain ⟨⟨hring, _⟩, _⟩ := (Dev.tablesWf_iff _).mp (h.tables ha)
      obtain ⟨⟨_, hstack⟩, hrest⟩ := (Dev.tablesWf_iff _).mp (hr.tables ha)
      exact (Dev.tablesWf_iff _).mpr ⟨⟨hring, hstack⟩, hrest⟩⟩
  exact Dev.darkHouse_keeps hk _ _

theorem Dev.avsStep_keeps (h : a.Keeps d) (goal n cur) : a.Keeps (d.avsStep goal n cur).1 := by
  induction n generalizing d cur with
  | zero => exact h
  | succ n ih =>
    unfold Dev.avsStep
    split
    · exact h
    · exact ih (Dev.calWrite_keeps h fun d hd => Dev.emit_keeps hd _) _

theorem Dev.setPoint_keeps (h : a.Keeps d) (ok) : a.Keeps (d.setPoint ok) := by
  unfold Dev.setPoint
  grind only [Dev.avsStep_keeps, Dev.modThm_keeps]

theorem Dev.bootManager_keeps (h : a.Keeps d) (bo sm t) : a.Keeps (d.bootManager bo sm t) := by
  unfold Dev.bootManager
  extract_lets d₁ d₂ d₃ d₄ d₅ d₆
  have h₁ : a.Keeps d₁ := Dev.modTile_keeps (Dev.modErr_wf h fun _ => Err.wf_boot _) rfl rfl
  have h₃ : a.Keeps d₃ := Dev.modSys_keeps (Dev.modSec_keeps h₁ _) _
  have h₄ : a.Keeps d₄ := Dev.ite_keeps (Dev.modThm_keeps (Dev.raise_keeps h₃ _) _) h₃
  have h₅ : a.Keeps d₅ := Dev.modHost_keeps (Dev.setSt_keeps h₄ _) _
  have h₆ : a.Keeps d₆ := Dev.ite_keeps (Dev.enterStruck_keeps h₅) h₅
  exact Dev.ite_keeps (Dev.engage_keeps h₆ _ _ _) h₆

theorem Dev.startUp_keeps (h : a.Keeps d) (t b) : a.Keeps (d.startUp t b) := by
  unfold Dev.startUp
  extract_lets d₁ d₂ d₃ c st n₁ n₂
  have h₂ : a.Keeps d₂ := Dev.modSys_keeps (Dev.at__keeps (Dev.reset_keeps (Dev.modSys_keeps h _)) _) _
  have h₃ : a.Keeps d₃ := Dev.modSec_keeps h₂ _
  refine Dev.ite_keeps (Dev.darkHouse_keeps h₂ _ _) ?_
  split
  · exact Dev.darkHouse_keeps h₃ _ _
  next slot bo _ =>
    extract_lets d₄ d₅ d₆ paired
    have h₅ : a.Keeps d₅ := Dev.modSys_keeps (Dev.modSec_keeps h₃ _) _
    have h₆ : a.Keeps d₆ := Dev.modMem_keeps h₅ rfl rfl rfl rfl rfl
    refine Dev.ite_keeps (Dev.darkHouse_keeps h₅ _ _) (Dev.ite_keeps (Dev.hbmStartFailed_keeps h₅) ?_)
    split
    · exact Dev.darkHouse_keeps h₆ _ _
    next slot sm _ =>
      extract_lets e d₇ d₈ d₉
      have h₈ : a.Keeps d₈ := Dev.modSec_keeps (Dev.modSys_keeps h₆ _) _
      have h₉ : a.Keeps d₉ := Dev.setPoint_keeps h₈ _
      exact Dev.ite_keeps (Dev.darkHouse_keeps h₈ _ _) (Dev.ite_keeps (Dev.bootManager_keeps h₉ _ _ _) (Dev.raise_keeps (Dev.modSec_keeps h₉ _) _))

theorem Dev.tryStart_keeps (h : a.Keeps d) (t b) : a.Keeps (d.tryStart t b) := by
  unfold Dev.tryStart
  grind only [Dev.startUp_keeps]

theorem Dev.holdReset_keeps (h : a.Keeps d) : a.Keeps d.holdReset := by
  unfold Dev.holdReset
  grind only [Dev.modSec_keeps, Dev.reset_keeps]

@[simp] theorem sysRstNAssert_keeps (h : a.Keeps d) (lowNs) : a.Keeps (sysRstNAssert lowNs d) := by
  unfold sysRstNAssert
  grind only [Dev.holdReset_keeps, Dev.modSys_keeps]

@[simp] theorem sysRstNRelease_keeps (h : a.Keeps d) (t b) : a.Keeps (sysRstNRelease t b d) := by
  unfold sysRstNRelease
  grind only [Dev.tryStart_keeps, Dev.modThm_keeps, Dev.modSys_keeps]

@[simp] theorem prsntNChange_keeps (h : a.Keeps d) (asserted stableNs t b) : a.Keeps (prsntNChange asserted stableNs t b d) := by
  unfold prsntNChange
  grind only [Dev.modSys_keeps, Dev.tryStart_keeps, Dev.holdReset_keeps]

@[simp] theorem vddAonLoss_keeps (h : a.Keeps d) : a.Keeps (vddAonLoss d) := by
  unfold vddAonLoss
  grind only [Dev.reset_keeps, Dev.modSys_keeps, Dev.modDbg_keeps, Dev.modErr_keeps, Dev.settle_keeps, Dev.modThm_keeps, Dev.modErr_wf,
    Err.Wf, sparseWf_nil]

theorem Dev.aonUp_keeps (h : a.Keeps d) : a.Keeps d.aonUp := by
  unfold Dev.aonUp
  grind only [Dev.modSys_keeps]

@[simp] theorem vddAonRise_keeps (h : a.Keeps d) (t b) : a.Keeps (vddAonRise t b d) := by
  unfold vddAonRise
  grind only [Dev.tryStart_keeps, Dev.aonUp_keeps]

@[simp] theorem powerGoodLost_keeps (h : a.Keeps d) (rail) : a.Keeps (powerGoodLost rail d) := by
  unfold powerGoodLost
  grind only [vddAonLoss_keeps, Dev.modSys_keeps, Dev.holdReset_keeps]

@[simp] theorem powerGoodRestored_keeps (h : a.Keeps d) (t b) : a.Keeps (powerGoodRestored t b d) := by
  unfold powerGoodRestored
  grind only [Dev.aonUp_keeps, Dev.tryStart_keeps, Dev.modSys_keeps]

@[simp] theorem tripRelease_keeps (h : a.Keeps d) (t b) : a.Keeps (tripRelease t b d) := by
  unfold tripRelease
  grind only [Dev.tryStart_keeps, Dev.modSys_keeps]

theorem Dev.cxlReset_keeps (h : a.Keeps d) : a.Keeps d.cxlReset := by
  unfold Dev.cxlReset
  grind only [Dev.modHost_keeps]

theorem Dev.hostDown_keeps (h : a.Keeps d) : a.Keeps d.hostDown := by
  unfold Dev.hostDown
  grind only [Dev.raise_keeps, Dev.linkLoss_keeps]

@[simp] theorem perstNAssert_keeps (h : a.Keeps d) (lowNs) : a.Keeps (perstNAssert lowNs d) := by
  unfold perstNAssert
  grind only [Dev.modSys_keeps, Dev.cxlReset_keeps, Dev.hostDown_keeps]

@[simp] theorem perstNRelease_keeps (h : a.Keeps d) : a.Keeps (perstNRelease d) := by
  unfold perstNRelease
  grind only [Dev.modSys_keeps]

@[simp] theorem bypassNChange_keeps (h : a.Keeps d) (asserted stableNs) : a.Keeps (bypassNChange asserted stableNs d) := by
  unfold bypassNChange
  grind only [Dev.modSys_keeps, Dev.settle_keeps]

theorem Dev.fatalSource_keeps (h : a.Keeps d) (on code kind w) : a.Keeps (d.fatalSource on code kind w) := by
  unfold Dev.fatalSource
  grind only [Dev.raise_keeps]

@[simp] theorem coreClockLockLost_keeps (h : a.Keeps d) (w) : a.Keeps (coreClockLockLost w d) := by
  unfold coreClockLockLost
  grind only [Dev.fatalSource_keeps]

@[simp] theorem smWatchdogExpiry_keeps (h : a.Keeps d) (w) : a.Keeps (smWatchdogExpiry w d) := by
  unfold smWatchdogExpiry
  grind only [Dev.fatalSource_keeps]

@[simp] theorem boSelfCheckFail_keeps (h : a.Keeps d) (w) : a.Keeps (boSelfCheckFail w d) := by
  unfold boSelfCheckFail
  grind only [Dev.fatalSource_keeps]

@[simp] theorem containmentTimeout_keeps (h : a.Keeps d) (w) : a.Keeps (containmentTimeout w d) := by
  unfold containmentTimeout
  grind only [Dev.fatalSource_keeps]

@[simp] theorem coreMemoryUncorrectable_keeps (h : a.Keeps d) (boxOffice w) : a.Keeps (coreMemoryUncorrectable boxOffice w d) := by
  unfold coreMemoryUncorrectable
  grind only [Dev.fatalSource_keeps]

@[simp] theorem calibrationRereadFail_keeps (h : a.Keeps d) (w) : a.Keeps (calibrationRereadFail w d) := by
  unfold calibrationRereadFail
  grind only [Dev.fatalSource_keeps]

@[simp] theorem errorUnitSelfCheckFail_keeps (h : a.Keeps d) (w) : a.Keeps (errorUnitSelfCheckFail w d) := by
  unfold errorUnitSelfCheckFail
  grind only [Dev.fatalSource_keeps]

/-! ## Machine/Lanes -/

theorem Dev.sendEcho_keeps (h : a.Keeps d) (link) : a.Keeps (d.sendEcho link) := by
  unfold Dev.sendEcho
  grind only [Dev.sendUnit_keeps, Dev.modLink_keeps, Dev.modFrm_keeps]

theorem Dev.parentCheck_keeps (h : a.Keeps d) (before) : a.Keeps (Dev.parentCheck before d) := by
  unfold Dev.parentCheck
  grind only [Dev.sendEcho_keeps]

theorem Dev.bundlesCheck_keeps (h : a.Keeps d) (before bundles) : a.Keeps (Dev.bundlesCheck before d bundles) := by
  unfold Dev.bundlesCheck
  grind only [Dev.parentCheck_keeps, Dev.endFrames_keeps, Dev.beginDiscovery_keeps, Dev.floodRediscover_keeps]

theorem Dev.bundleCheck_keeps (h : a.Keeps d) (before link) : a.Keeps (Dev.bundleCheck before d link) := Dev.bundlesCheck_keeps h _ _

theorem Dev.laneDrop_keeps (h : a.Keeps d) (link lane t mask corrected) : a.Keeps (d.laneDrop link lane t mask corrected) := by
  unfold Dev.laneDrop
  grind only [Dev.modLink_keeps, Dev.meshCount_keeps, Dev.at__keeps, Dev.raise_keeps, Dev.histEvent_keeps, Dev.histPermanent_keeps]

@[simp] theorem laneLockLost_keeps (h : a.Keeps d) (link lane t) : a.Keeps (laneLockLost link lane t d) := by
  unfold laneLockLost
  extract_lets l mask d₁ d₂
  have h₁ : a.Keeps d₁ := Dev.modLink_keeps (Dev.useFree_keeps (Dev.laneDrop_keeps h _ _ _ _ _) _) _ _
  have h₂ : a.Keeps d₂ := Dev.sendUnit_keeps (Dev.meshCount_keeps h₁ _ _) _ _
  exact Dev.ite_keeps h (Dev.bundleCheck_keeps (Dev.modLink_keeps h₂ _ _) _ _)

@[simp] theorem laneErrorDrop_keeps (h : a.Keeps d) (link lane corrected t) : a.Keeps (laneErrorDrop link lane corrected t d) := by
  unfold laneErrorDrop
  grind only [Dev.laneDrop_keeps, Dev.modLink_keeps, Dev.sendUnit_keeps]

@[simp] theorem laneRetry_keeps (h : a.Keeps d) (link lane trained t) : a.Keeps (laneRetry link lane trained t d) := by
  unfold laneRetry
  grind only [Dev.modLink_keeps, Dev.at__keeps, Dev.useFree_keeps, Dev.raise_keeps, Dev.meshCount_keeps, Dev.sendUnit_keeps]

@[simp] theorem meshLaneRetry_keeps (h : a.Keeps d) : a.Keeps (meshLaneRetry d) := by
  unfold meshLaneRetry
  grind only [Dev.modMesh_keeps]

theorem Dev.wakeShort_keeps (h : a.Keeps d) (b) : a.Keeps (d.wakeShort b) := by
  unfold Dev.wakeShort
  grind [Dev.modLink_keeps, Dev.foldl_keeps]

@[simp] theorem laneUnit_keeps (h : a.Keeps d) (link u) : a.Keeps (laneUnit link u d) := by
  unfold laneUnit
  grind only [Dev.wakeShort_keeps, Dev.modLink_keeps]

@[simp] theorem laneIdle_keeps (h : a.Keeps d) (link idle) : a.Keeps (laneIdle link idle d) := by
  unfold laneIdle
  grind only [Dev.modLink_keeps]

@[simp] theorem laneRealigned_keeps (h : a.Keeps d) (link) : a.Keeps (laneRealigned link d) := by
  unfold laneRealigned
  grind only [Dev.modLink_keeps]

theorem Dev.linkDown_keeps (h : a.Keeps d) (link) : a.Keeps (d.linkDown link) := by
  unfold Dev.linkDown
  grind only [Dev.raise_keeps, Dev.meshCount_keeps, Dev.modLink_keeps, Dev.bundleCheck_keeps, Dev.useFree_keeps]

theorem Dev.linkOff_keeps (h : a.Keeps d) (link st) : a.Keeps (d.linkOff link st) := by
  unfold Dev.linkOff
  grind only [Dev.useFree_keeps, Dev.raise_keeps, Dev.modLink_keeps]

@[simp] theorem linkRetrainDone_keeps (h : a.Keeps d) (link lanes) : a.Keeps (linkRetrainDone link lanes d) := by
  unfold linkRetrainDone
  grind only [Dev.parentCheck_keeps, Dev.modLink_keeps]

theorem Dev.switchMasks_keeps (h : a.Keeps d) (num) : a.Keeps (d.switchMasks num) := by
  unfold Dev.switchMasks
  grind only [Dev.modMesh_keeps]

theorem Dev.newStreams_keeps (h : a.Keeps d) : a.Keeps d.newStreams := by
  unfold Dev.newStreams
  grind only [Dev.modMesh_keeps]

@[simp] theorem meshCntClr_keeps (h : a.Keeps d) : a.Keeps (meshCntClr d) := by
  unfold meshCntClr
  grind only [Dev.modMesh_keeps]

/-! ## Machine/MemErrors -/

theorem Dev.commonLine_keeps (h : a.Keeps d) (bank loc) : a.Keeps (d.commonLine bank loc) := by
  unfold Dev.commonLine
  dsimp only
  refine Dev.tagWrite_keeps (Dev.modTile_keeps (Dev.foldl_keeps (fun d e hd => Dev.modMem_wf hd fun w => Mem.wf_setWings d.mem _ w ?_) _
    (Dev.modMem_wf h fun w => Mem.wf_setWings d.mem _ w (cellsWf_zeroRange _ _ _ ((Mem.wf_iff _).mp w).2.1))) rfl rfl) _ _ _
  refine Machine.foldl_keeps (fun m : List Host.Cell => cellsWf m = true) _ (fun m b hm => ?_) _ _ ((Mem.wf_iff _).mp w).2.1
  grind only [cellsWf_wr1]

theorem Dev.mapOne_keeps (h : a.Keeps d) (e) : a.Keeps (d.mapOne e).1 := by
  unfold Dev.mapOne
  grind only [Dev.calWrite_keeps, Dev.modMem_keeps, Dev.modMem_wf, Mem.wf_iff, Mem.wf_wrHbm, Mem.wf_zeroHbm, Mem.wf_zeroApron,
    Mem.wf_copyHbm, Mem.wf_count, Mem.wf_zeroCw, Mem.wf_flip, Mem.wf_applyRepairs, cellsWf_wrN, cellsWf_zeroRange, sparseWf_sput,
    sparseWf_sdel, sparseWf_smod, sparseWf_filter, sparseWf_sclear]

theorem Dev.mapOuts_keeps (h : a.Keeps d) (now) : a.Keeps (d.mapOuts now) := by
  unfold Dev.mapOuts
  grind [Dev.mapOne_keeps, Dev.modMem_keeps, Dev.foldl_keeps]

theorem Dev.hbmRowOut_keeps (h : a.Keeps d) (loc) : a.Keeps (d.hbmRowOut loc) := by
  unfold Dev.hbmRowOut
  grind only [Dev.modMem_keeps, Dev.raise_keeps, Dev.modKv_keeps]

theorem Dev.mapOut_keeps (h : a.Keeps d) (store unit loc) : a.Keeps (d.mapOut store unit loc) := by
  unfold Dev.mapOut
  grind only [Dev.commitHistory_keeps, Dev.hbmRowOut_keeps, Dev.modMem_keeps, Dev.modTile_keeps, Dev.mapOuts_keeps, Dev.raise_keeps]

theorem Dev.locEvent_keeps (h : a.Keeps d) (store unit loc syms written) : a.Keeps (d.locEvent store unit loc syms written) := by
  unfold Dev.locEvent
  grind only [Dev.histEvent_keeps, Dev.modErr_keeps, Dev.mapOut_keeps]

theorem Dev.loseKey_keeps (h : a.Keeps d) (e key) : a.Keeps (d.loseKey e key) := by
  unfold Dev.loseKey
  grind only [Dev.modTile_keeps, Dev.contain_keeps]

theorem Dev.sramBad_keeps (h : a.Keeps d) (store unit loc syms verdict) : a.Keeps (d.sramBad store unit loc syms verdict) := by
  unfold Dev.sramBad
  grind only [Dev.commonLine_keeps, Dev.contain_keeps, Dev.modMem_keeps, Dev.modTile_keeps, Dev.loseKey_keeps, Dev.modMem_wf,
    Dev.modTile_wf, Mem.wf_iff, Mem.wf_wrHbm, Mem.wf_zeroHbm, Mem.wf_zeroApron, Mem.wf_copyHbm, Mem.wf_count, Mem.wf_zeroCw, Mem.wf_flip,
    Mem.wf_applyRepairs, cellsWf_wrN, cellsWf_zeroRange, Tile.Wf, Tile.wf_land, Tile.wf_setArr, Tile.wf_suspend, Tile.wf_dropLoads,
    Tile.wf_abandonSoft, Tile.wf_passed, Tile.wf_writeCells, Tile.wf_applyUps, Tile.wf_setCensus, sparseWf_sput, sparseWf_sdel,
    sparseWf_smod, sparseWf_filter, sparseWf_sclear]

theorem Dev.hbmBad_keeps (h : a.Keeps d) (cw syms slot cue toks verdict) : a.Keeps (d.hbmBad cw syms slot cue toks verdict).1 := by
  have hz : ∀ {d : Dev}, a.Keeps d → a.Keeps (d.modMem fun m => m.zeroCw .hbm 0 cw) := fun hd => Dev.modMem_wf hd (Mem.wf_zeroCw _ _ _ _)
  unfold Dev.hbmBad
  extract_lets n i e d₁ zero nn users d₂ d₃
  have h₁ : a.Keeps d₁ := Dev.modMem_keeps h rfl rfl rfl rfl rfl
  split
  · exact Dev.sessionMemBad_keeps h₁ _ _
  · exact Dev.sessionMemBad_keeps h₁ _ _
  · exact Dev.sessionMemBad_keeps h₁ _ _
  · exact hz (Dev.kvPageBad_keeps h₁ _ _)
  · exact hz (Dev.contain_keeps h₁ _ _ _)
  · have h₂ : a.Keeps d₂ := Dev.raise_keeps h₁ _
    split
    · extract_lets d₄ d₅
      have h₄ : a.Keeps d₄ := Dev.modTile_keeps h₂ rfl rfl
      have h₅ : a.Keeps d₅ := by
        unfold d₅
        split
        · exact Dev.ite_keeps (Dev.exactFail_keeps h₄ _) h₄
        · exact h₄
      exact h₅
    · exact h₂
  · exact Dev.contain_keeps h₁ _ _ _
  · have h₃ : a.Keeps d₃ := Dev.raise_keeps h₁ _
    split
    · exact hz (Dev.modMem_keeps (Dev.modErr_wf h₃ fun w => ⟨sparseWf_sdel _ _ w.1, w.2⟩) rfl rfl rfl rfl rfl)
    · exact hz h₃
  · exact hz (Dev.contain_keeps h₁ _ _ _)
  · exact hz (Dev.contain_keeps h₁ _ _ _)

theorem Dev.readCw_keeps (h : a.Keeps d) (store unit loc found scrub slot cue toks) :
    a.Keeps (d.readCw store unit loc found scrub slot cue toks).1 := by
  have hc : ∀ n, a.Keeps (d.modMem fun m => m.count store (locUnit store unit loc) n) := fun n => Dev.modMem_keeps h rfl rfl rfl rfl rfl
  unfold Dev.readCw
  extract_lets n u syms old v
  split
  · split
    · exact h
    · exact Dev.hbmBad_keeps (hc 2) _ _ _ _ _ _
  next p _ =>
    split
    · exact Dev.hbmBad_keeps h _ _ _ _ _ _
    · extract_lets d₁ d₂
      have h₁ : a.Keeps d₁ := Dev.modMem_wf h (Machine.foldl_keeps (fun m : Mem => m.wf = true) _ (fun _ _ w => Mem.wf_flip _ _ _ _ _ w) _ _)
      exact Dev.locEvent_keeps (Dev.raise_keeps (Dev.modMem_keeps h₁ rfl rfl rfl rfl rfl) _) _ _ _ _ _
  · refine Dev.locEvent_keeps ?_ _ _ _ _ _
    split
    · exact Dev.hbmBad_keeps (hc 2) _ _ _ _ _ _
    · exact Dev.sramBad_keeps (hc 2) _ _ _ _ _

theorem Dev.readHbm_keeps (h : a.Keeps d) (a' n found slot cue toks) : a.Keeps (d.readHbm a' n found slot cue toks).1 := by
  unfold Dev.readHbm
  grind only [Dev.readCw_keeps, Dev.foldl_keeps, Dev.foldl_fst_keeps]

@[simp] theorem scrubRead_keeps (h : a.Keeps d) (store unit loc found) : a.Keeps (scrubRead store unit loc found d) := by
  unfold scrubRead
  grind only [Dev.readCw_keeps, Dev.modMem_keeps]

@[simp] theorem locationReread_keeps (h : a.Keeps d) (store unit loc same) : a.Keeps (locationReread store unit loc same d) := by
  unfold locationReread
  grind only [Dev.modErr_keeps, Dev.mapOut_keeps, Dev.modErr_wf, Err.Wf, Err.wf_count, Err.wf_hostWrote, Err.wf_endTest, Err.wf_emptied,
    Err.wf_pushStack, Err.wf_pushRing, Err.wf_advance, Err.wf_boot, sparseWf_sput, sparseWf_sdel, sparseWf_smod, sparseWf_filter,
    sparseWf_sclear]

@[simp] theorem errMemClr_keeps (h : a.Keeps d) : a.Keeps (errMemClr d) := by
  unfold errMemClr
  grind only [Dev.modMem_keeps]

theorem cellsWf_loadRange (cells : List (Nat × Byte)) {m : List Host.Cell} (w : cellsWf m = true) (lo hi) :
    cellsWf (cells.foldl (fun p c => wr1 p c.1 c.2) (zeroRange m lo hi)) = true :=
  cellsWf_foldl_wr1 _ _ (cellsWf_zeroRange _ _ _ w)

theorem Dev.restorePrompters_keeps (h : a.Keeps d) : a.Keeps d.restorePrompters := by
  unfold Dev.restorePrompters
  extract_lets waits now d₁
  have h₁ : a.Keeps d₁ := Dev.modMem_wf h fun w => Mem.wf_setPrompter _ _ w (Machine.foldl_keeps (fun m : List Host.Cell => cellsWf m = true) _
    (fun m t hm => cellsWf_loadRange _ hm _ _) _ _ ((Mem.wf_iff _).mp w).2.2.2.1)
  exact Dev.modTile_keeps h₁ rfl rfl

theorem Dev.reloadImage_keeps (h : a.Keeps d) : a.Keeps d.reloadImage := by
  unfold Dev.reloadImage
  grind only [Dev.modErr_keeps, Dev.hbmWr_keeps, Dev.modErr_wf, Err.Wf, Err.wf_count, Err.wf_hostWrote, Err.wf_endTest, Err.wf_emptied,
    Err.wf_pushStack, Err.wf_pushRing, Err.wf_advance, Err.wf_boot, sparseWf_sput, sparseWf_sdel, sparseWf_smod, sparseWf_filter,
    sparseWf_sclear, Dev.foldl_keeps, Dev.foldl_fst_keeps]

theorem Dev.missedMerges_keeps (h : a.Keeps d) : a.Keeps d.missedMerges := by
  unfold Dev.missedMerges
  grind only [Dev.modMem_keeps, Dev.hbmBad_keeps, Dev.modMem_wf, Mem.wf_iff, Mem.wf_wrHbm, Mem.wf_zeroHbm, Mem.wf_zeroApron, Mem.wf_copyHbm,
    Mem.wf_count, Mem.wf_zeroCw, Mem.wf_flip, Mem.wf_applyRepairs, cellsWf_wrN, cellsWf_zeroRange, sparseWf_sput, sparseWf_sdel,
    sparseWf_smod, sparseWf_filter, sparseWf_sclear, Dev.foldl_keeps, Dev.foldl_fst_keeps]

theorem Dev.memBoundary_keeps (h : a.Keeps d) : a.Keeps d.memBoundary := by
  unfold Dev.memBoundary
  grind only [Dev.reloadImage_keeps, Dev.restorePrompters_keeps, Dev.mapOuts_keeps, Dev.missedMerges_keeps]

/-! ## Machine/Frame -/

theorem Dev.overrun_keeps (h : a.Keeps d) (len) : a.Keeps (d.overrun len) := by
  unfold Dev.overrun
  grind only [Dev.modFrm_keeps, Dev.discardAll_keeps, Dev.raise_keeps]

theorem Dev.closeFrame_keeps (h : a.Keeps d) (start abort) : a.Keeps (d.closeFrame start abort) := by
  unfold Dev.closeFrame
  grind only [Dev.frameOver_keeps, Dev.overrun_keeps, Dev.modFrm_keeps, Dev.laneFree_keeps, Dev.flushDiscards_keeps]

theorem Dev.bandsBoundary_keeps (h : a.Keeps d) : a.Keeps d.bandsBoundary := by
  unfold Dev.bandsBoundary
  grind only [Dev.applyBands_keeps, Dev.modTile_keeps]

theorem Dev.modeBoundary_keeps (h : a.Keeps d) : a.Keeps d.modeBoundary := by
  unfold Dev.modeBoundary
  grind only [Dev.modTile_keeps, Dev.tagWrite_keeps, Dev.modTile_wf, Tile.Wf, Tile.wf_land, Tile.wf_setArr, Tile.wf_suspend,
    Tile.wf_dropLoads, Tile.wf_abandonSoft, Tile.wf_passed, Tile.wf_writeCells, Tile.wf_applyUps, Tile.wf_setCensus, sparseWf_sput,
    sparseWf_sdel, sparseWf_smod, sparseWf_filter, sparseWf_sclear]

theorem Dev.raiseCurtain_keeps (h : a.Keeps d) : a.Keeps d.raiseCurtain := by
  unfold Dev.raiseCurtain
  grind [Dev.modWts_keeps, Dev.modTile_keeps, Dev.modFrm_keeps, Dev.modArr_keeps, Dev.startGains_keeps, Dev.resumePaused_keeps,
    Dev.event_keeps, Dev.setSt_keeps, Dev.foldl_keeps]

theorem Dev.nameDrain_keeps (h : a.Keeps d) (num) : a.Keeps (d.nameDrain num) := by
  unfold Dev.nameDrain
  grind only [Dev.modFrm_keeps, Dev.sendDown_keeps, Dev.modWts_keeps]

theorem Dev.nameRaise_keeps (h : a.Keeps d) (num) : a.Keeps (d.nameRaise num) := by
  unfold Dev.nameRaise
  grind only [Dev.sendDown_keeps, Dev.modWts_keeps]

theorem Dev.openFrame_keeps (h : a.Keeps d) (num level abort start) : a.Keeps (d.openFrame num level abort start) := by
  unfold Dev.openFrame
  extract_lets len d₁ d₂ d₃ hot d₄ d₅ links d₆ d₇ d₈ d₉ d₁₀ d₁₁ d₁₂ d₁₃
  have h₂ : a.Keeps d₂ := Dev.arraysBoundary_keeps (Dev.modTile_wf (Dev.resumePaused_keeps (Dev.roleSwaps_keeps (Dev.memBoundary_keeps
    (Dev.at__keeps (Dev.closeFrame_keeps h _ _) _)))) Tile.wf_suspend) _
  have h₃ : a.Keeps d₃ := Dev.bandsBoundary_keeps h₂
  clear_value d₃
  have h₄ : a.Keeps d₄ := Dev.modFrm_wf h₃ fun w => ⟨w.2, rfl⟩
  clear_value d₄
  have h₅ : a.Keeps d₅ := Dev.modEng_wf h₄ fun w => w
  have h₆ : a.Keeps d₆ := Dev.switchMasks_keeps (Dev.newStreams_keeps (Dev.modMesh_keeps h₅ _)) _
  have h₇ : a.Keeps d₇ := Dev.ite_keeps (Dev.setSt_keeps (Dev.modSys_keeps (Dev.ite_keeps (Dev.unpark_keeps h₆) h₆) _) _) h₆
  have h₈ : a.Keeps d₈ := Dev.ite_keeps (Dev.raiseCurtain_keeps h₇) h₇
  have h₉ : a.Keeps d₉ := by
    unfold d₉
    split
    · exact Dev.ite_keeps (Dev.beginDrainKind_keeps h₈ _) h₈
    · exact h₈
  have h₁₀ : a.Keeps d₁₀ := Dev.modeBoundary_keeps h₉
  have h₁₁ : a.Keeps d₁₁ := Dev.ite_keeps (Dev.enterStruck_keeps h₁₀) h₁₀
  clear_value d₁₁
  have h₁₂ : a.Keeps d₁₂ := Dev.ite_keeps (Dev.emit_keeps (Dev.modFrm_wf h₁₁ fun w => w) _) h₁₁
  have h₁₃ : a.Keeps d₁₃ := Dev.scan_keeps (Dev.chunksEnter_keeps (Dev.laneOpen_keeps h₁₂))
  exact Dev.applyHolds_keeps (Dev.bundlesCheck_keeps (Dev.nameRaise_keeps (Dev.nameDrain_keeps h₁₃ _) _) _ _)

theorem Dev.launch_keeps (h : a.Keeps d) (t abort) : a.Keeps (d.launch t abort) := by
  unfold Dev.launch
  grind only [Dev.aggregate_keeps, Dev.sendDown_keeps, Dev.openFrame_keeps]

theorem Dev.stopNow_keeps (h : a.Keeps d) : a.Keeps d.stopNow := by
  unfold Dev.stopNow
  grind only [Dev.drainEnd_keeps, Dev.endFrames_keeps]

@[simp] theorem tickLaunch_keeps (h : a.Keeps d) (t) : a.Keeps (tickLaunch t d) := by
  unfold tickLaunch
  grind only [Dev.launch_keeps, Dev.at__keeps, Dev.stopNow_keeps, Dev.aggregate_keeps]

@[simp] theorem overrunAbort_keeps (h : a.Keeps d) (t) : a.Keeps (overrunAbort t d) := by
  unfold overrunAbort
  grind only [Dev.launch_keeps, Dev.at__keeps]

@[simp] theorem tickInEdge_keeps (h : a.Keeps d) (t) : a.Keeps (tickInEdge t d) := by
  unfold tickInEdge
  grind only [Dev.modSys_keeps, Dev.modFrm_keeps, Dev.at__keeps, Dev.launch_keeps]

@[simp] theorem tickInLost_keeps (h : a.Keeps d) (t) : a.Keeps (tickInLost t d) := by
  unfold tickInLost
  grind only [Dev.raise_keeps, Dev.modFrm_keeps, Dev.at__keeps]

@[simp] theorem tickInLostClear_keeps (h : a.Keeps d) : a.Keeps (tickInLostClear d) := by
  unfold tickInLostClear
  grind only [Dev.modFrm_keeps]

@[simp] theorem tick_keeps (h : a.Keeps d) (link u t) : a.Keeps (tick link u t d) := by
  unfold tick
  grind only [Dev.sendDown_keeps, Dev.at__keeps, Dev.openFrame_keeps, Dev.discardAll_keeps, Dev.raise_keeps]

theorem Dev.tryDone_keeps (h : a.Keeps d) : a.Keeps d.tryDone := by
  unfold Dev.tryDone
  grind only [Dev.modFrm_keeps, Dev.aggregate_keeps, Dev.sendUp_keeps, Dev.stopNow_keeps]

@[simp] theorem doneSend_keeps (h : a.Keeps d) (t) : a.Keeps (doneSend t d) := by
  unfold doneSend
  grind only [Dev.at__keeps, Dev.modFrm_keeps, Dev.workEnd_keeps, Dev.tryDone_keeps]

@[simp] theorem done_keeps (h : a.Keeps d) (link u) : a.Keeps (done link u d) := by
  unfold done
  grind only [Dev.tryDone_keeps, Dev.modFrm_keeps]

@[simp] theorem bellwetherLost_keeps (h : a.Keeps d) (t) : a.Keeps (bellwetherLost t d) := by
  unfold bellwetherLost
  extract_lets d₁ d₂ d₃ d₄ d₅
  have h₂ : a.Keeps d₂ := Dev.endFrames_keeps (Dev.discardAll_keeps (Dev.raise_keeps (Dev.at__keeps h _) _) _) _
  have h₄ : a.Keeps d₄ := Dev.modWts_keeps (Dev.modTile_keeps (Dev.modTile_keeps h₂ rfl rfl) rfl rfl) _
  have h₅ : a.Keeps d₅ := Dev.ite_keeps h₄ (Dev.setSt_keeps h₄ _)
  exact Dev.ite_keeps (Dev.beginDiscovery_keeps (Dev.floodRediscover_keeps h₅)) h

@[simp] theorem echoMeasure_keeps (h : a.Keeps d) : a.Keeps (echoMeasure d) := by
  unfold echoMeasure
  grind only [Dev.sendEcho_keeps]

@[simp] theorem stallResume_keeps (h : a.Keeps d) (slot) : a.Keeps (stallResume slot d) := by
  unfold stallResume
  grind only [Dev.endStall_keeps]

@[simp] theorem scriptStretchClr_keeps (h : a.Keeps d) : a.Keeps (scriptStretchClr d) := by
  unfold scriptStretchClr
  grind only [Dev.modFrm_keeps]

/-! ## Machine/Discovery -/

theorem Dev.sendHello_keeps (h : a.Keeps d) (link) : a.Keeps (d.sendHello link) := by
  unfold Dev.sendHello
  grind only [Dev.sendUnit_keeps]

@[simp] theorem discoveryStart_keeps (h : a.Keeps d) : a.Keeps (discoveryStart d) := by
  unfold discoveryStart
  grind [Dev.beginDiscovery_keeps, Dev.sendHello_keeps, Dev.modMesh_keeps, Dev.foldl_keeps]

@[simp] theorem meshRediscover_keeps (h : a.Keeps d) : a.Keeps (meshRediscover d) := by
  unfold meshRediscover
  grind only [Dev.beginDiscovery_keeps]

@[simp] theorem rediscover_keeps (h : a.Keeps d) (link u) : a.Keeps (rediscover link u d) := by
  unfold rediscover
  grind only [Dev.beginDiscovery_keeps, Dev.flood_keeps, Dev.modMesh_keeps]

@[simp] theorem hello_keeps (h : a.Keeps d) (link u) : a.Keeps (hello link u d) := by
  unfold hello
  grind only [Dev.beginDiscovery_keeps, Dev.floodRediscover_keeps, Dev.modLink_keeps, Dev.sendEcho_keeps, Dev.linkOff_keeps]

@[simp] theorem echo_keeps (h : a.Keeps d) (link num) : a.Keeps (echo link num d) := by
  unfold echo
  grind only [Dev.sendUnit_keeps]

@[simp] theorem echoReply_keeps (h : a.Keeps d) (link turn roundTrip) : a.Keeps (echoReply link turn roundTrip d) := by
  unfold echoReply
  grind only [Dev.modLink_keeps, Dev.sendEcho_keeps, Dev.linkOff_keeps, Dev.modFrm_keeps]

theorem Dev.noPartner_keeps (h : a.Keeps d) : a.Keeps d.noPartner := by
  unfold Dev.noPartner
  grind only [Dev.modMesh_keeps]

@[simp] theorem discoverLaunch_keeps (h : a.Keeps d) : a.Keeps (discoverLaunch d) := by
  unfold discoverLaunch
  grind only [Dev.modFrm_keeps, Dev.noPartner_keeps, Dev.modMesh_keeps, Dev.sendDown_keeps]

@[simp] theorem discover_keeps (h : a.Keeps d) (link herd pp digest round) : a.Keeps (discover link herd pp digest round d) := by
  unfold discover
  grind only [Dev.modMesh_keeps, Dev.noPartner_keeps, Dev.modFrm_keeps, Dev.sendUp_keeps, Dev.sendDown_keeps]

@[simp] theorem reportUnit_keeps (h : a.Keeps d) (link u) : a.Keeps (reportUnit link u d) := by
  unfold reportUnit
  grind only [Dev.modMesh_keeps, Dev.sendUp_keeps]

theorem Dev.unloadFor_keeps (h : a.Keeps d) (cause) : a.Keeps (d.unloadFor cause) := by
  unfold Dev.unloadFor
  grind only [Dev.event_keeps, Dev.modScr_keeps, Dev.unloadScript_keeps]

theorem Dev.applyHerd_keeps (h : a.Keeps d) (u) : a.Keeps (d.applyHerd u) := by
  unfold Dev.applyHerd
  grind only [Dev.modFrm_keeps, Dev.modMesh_keeps, Dev.modWts_keeps, Dev.refreeze_keeps, Dev.unloadFor_keeps]

@[simp] theorem herdIssue_keeps (h : a.Keeps d) : a.Keeps (herdIssue d) := by
  unfold herdIssue
  grind only [Dev.applyHerd_keeps, Dev.ethSend_keeps, Dev.sendDown_keeps]

@[simp] theorem herd_keeps (h : a.Keeps d) (link u) : a.Keeps (herd link u d) := by
  unfold herd
  grind only [Dev.applyHerd_keeps, Dev.sendDown_keeps]

@[simp] theorem orphan_keeps (h : a.Keeps d) : a.Keeps (orphan d) := by
  unfold orphan
  grind only [Dev.modMesh_keeps]

@[simp] theorem meshIdWrite_keeps (h : a.Keeps d) (herd x y lock) : a.Keeps (meshIdWrite herd x y lock d) := by
  unfold meshIdWrite
  grind only [Dev.modMesh_keeps]

/-! ## Machine/Weights -/

theorem Dev.wtDone_keeps (h : a.Keeps d) : a.Keeps d.wtDone := by
  unfold Dev.wtDone
  grind only [Dev.event_keeps, Dev.modWts_keeps]

theorem Dev.wtErr_keeps (h : a.Keeps d) (cause) : a.Keeps (d.wtErr cause) := by
  unfold Dev.wtErr
  grind only [Dev.event_keeps, Dev.modWts_keeps]

theorem Dev.startRewrite_keeps (h : a.Keeps d) : a.Keeps d.startRewrite := by
  unfold Dev.startRewrite
  grind only [Dev.modWts_keeps]

@[simp] theorem wtVerify_keeps (h : a.Keeps d) (next program) : a.Keeps (wtVerify next program d) := by
  simp only [wtVerify]
  (repeat' split) <;> grind [Dev.modWts_keeps, Dev.wtErr_keeps, Dev.wtDone_keeps, Dev.startRewrite_keeps]

@[simp] theorem wtLoad_keeps (h : a.Keeps d) (next program) : a.Keeps (wtLoad next program d) := by
  unfold wtLoad
  grind only [Dev.modWts_keeps, Dev.wtErr_keeps]

@[simp] theorem wtAbort_keeps (h : a.Keeps d) (next program) : a.Keeps (wtAbort next program d) := by
  unfold wtAbort
  grind only [Dev.modWts_keeps, Dev.wtErr_keeps, Dev.modTile_keeps, Dev.modTile_wf, Tile.Wf, Tile.wf_land, Tile.wf_setArr, Tile.wf_suspend,
    Tile.wf_dropLoads, Tile.wf_abandonSoft, Tile.wf_passed, Tile.wf_writeCells, Tile.wf_applyUps, Tile.wf_setCensus, sparseWf_sput,
    sparseWf_sdel, sparseWf_smod, sparseWf_filter, sparseWf_sclear]

theorem Dev.loadPrompter_keeps (h : a.Keeps d) (tile) : a.Keeps (d.loadPrompter tile) :=
  ⟨fun ha => Dev.loadPrompter_wf d tile (h.mem ha), h.tables⟩

theorem Dev.headCount_keeps (h : a.Keeps d) (layer) : a.Keeps (d.headCount layer) := by
  unfold Dev.headCount
  grind [Dev.useFree_keeps, Dev.modWts_keeps, Dev.event_keeps, Dev.modTile_keeps, Dev.raise_keeps, Dev.failPrincipal_keeps, Dev.foldl_keeps]

@[simp] theorem tileHcStart_keeps (h : a.Keeps d) (layer) : a.Keeps (tileHcStart layer d) := by
  unfold tileHcStart
  grind only [Dev.modWts_keeps]

@[simp] theorem hcIntervalExpiry_keeps (h : a.Keeps d) : a.Keeps (hcIntervalExpiry d) := by
  unfold hcIntervalExpiry
  grind only [Dev.modWts_keeps]

@[simp] theorem headCountDone_keeps (h : a.Keeps d) : a.Keeps (headCountDone d) := by
  unfold headCountDone
  grind only [Dev.headCount_keeps, Dev.modWts_keeps]

theorem Dev.epochCheck_keeps (h : a.Keeps d) : a.Keeps d.epochCheck := by
  unfold Dev.epochCheck
  grind only [Dev.modWts_keeps]

theorem Dev.loadSlot_keeps (h : a.Keeps d) (n tile slot always) : a.Keeps (d.loadSlot n tile slot always).1 := by
  unfold Dev.loadSlot
  grind only [Dev.tileSuspect_keeps, Dev.modArr_keeps]

theorem Dev.writeSection_keeps (h : a.Keeps d) (sc layer xs program) : a.Keeps (d.writeSection sc layer xs program).1 := by
  unfold Dev.writeSection
  extract_lets d₁ d₂ n r
  have h₁ : a.Keeps d₁ := Dev.modTile_wf h fun w =>
    Machine.foldl_keeps Tile.Wf _ (fun _ _ w => Tile.wf_setCensus w _ _) _ _ w
  have h₂ : a.Keeps d₂ := Dev.foldl_keeps (fun _ _ hd => Dev.loadPrompter_keeps hd _) _ h₁
  have hr : a.Keeps r.1 := by
    refine Dev.foldl_fst_keeps (fun y x hz => ?_) _ (Dev.useFree_keeps h₂ _)
    exact Dev.loadSlot_keeps hz _ _ _ _
  split
  · exact h₂
  · exact Dev.resumePaused_keeps hr

theorem Dev.endJob_keeps (h : a.Keeps d) (j layer) : a.Keeps (d.endJob j layer) := by
  unfold Dev.endJob
  grind only [Dev.wtErr_keeps, Dev.modTile_keeps, Dev.headCount_keeps, Dev.wtDone_keeps, Dev.epochCheck_keeps, Dev.modWts_keeps,
    Dev.modTile_wf, Tile.Wf, Tile.wf_land, Tile.wf_setArr, Tile.wf_suspend, Tile.wf_dropLoads, Tile.wf_abandonSoft, Tile.wf_passed,
    Tile.wf_writeCells, Tile.wf_applyUps, Tile.wf_setCensus, sparseWf_sput, sparseWf_sdel, sparseWf_smod, sparseWf_filter, sparseWf_sclear]

theorem Dev.finishJob_keeps (h : a.Keeps d) (sc j) : a.Keeps (d.finishJob sc j) := by
  unfold Dev.finishJob
  grind only [Dev.wtErr_keeps, Dev.endJob_keeps, Dev.resumePaused_keeps, Dev.modWts_keeps, Dev.wtDone_keeps, Dev.writeSection_keeps,
    Dev.wtFail_keeps]

theorem Dev.markOwn_keeps (h : a.Keeps d) (curtain i done off) : a.Keeps (d.markOwn curtain i done off) := by
  unfold Dev.markOwn
  grind only [Dev.modWts_keeps]

theorem Dev.beginOwn_keeps (h : a.Keeps d) (sc curtain i e) : a.Keeps (d.beginOwn sc curtain i e) := by
  unfold Dev.beginOwn
  grind only [Dev.event_keeps, Dev.modWts_keeps, Dev.markOwn_keeps, Dev.writeSection_keeps, Dev.wtFail_keeps]

theorem Dev.endOwn_keeps (h : a.Keeps d) (curtain i e) : a.Keeps (d.endOwn curtain i e) := by
  unfold Dev.endOwn
  grind only [Dev.modWts_keeps, Dev.headCount_keeps, Dev.epochCheck_keeps, Dev.markOwn_keeps]

theorem Dev.finishOwn_keeps (h : a.Keeps d) (sc) : a.Keeps (d.finishOwn sc) := by
  simp only [Dev.finishOwn]
  (repeat' split) <;> grind [Dev.resumePaused_keeps, Dev.modWts_keeps, Dev.endOwn_keeps, Dev.beginOwn_keeps]

@[simp] theorem sectionLoadDone_keeps (h : a.Keeps d) : a.Keeps (sectionLoadDone d) := by
  unfold sectionLoadDone
  grind only [Dev.finishJob_keeps, Dev.finishOwn_keeps]

theorem Dev.curtainRefresh_keeps (h : a.Keeps d) : a.Keeps d.curtainRefresh := by
  unfold Dev.curtainRefresh
  grind [Dev.resumePaused_keeps, Dev.modArr_keeps, Dev.modWts_keeps, Dev.foldl_keeps]

theorem Dev.curtainCounts_keeps (h : a.Keeps d) : a.Keeps d.curtainCounts := by
  unfold Dev.curtainCounts
  grind [Dev.headCount_keeps, Dev.modWts_keeps, Dev.foldl_keeps]

/-! ## Machine/Curtain -/

@[simp] theorem curtainLower_keeps (h : a.Keeps d) (t) : a.Keeps (curtainLower t d) := by
  unfold curtainLower
  grind only [Dev.modFrm_keeps, Dev.at__keeps]

@[simp] theorem curtainAbandon_keeps (h : a.Keeps d) : a.Keeps (curtainAbandon d) := by
  unfold curtainAbandon
  grind only [Dev.modFrm_keeps, Dev.sendDown_keeps, Dev.modWts_keeps]

@[simp] theorem scriptUnload_keeps (h : a.Keeps d) : a.Keeps (scriptUnload d) := by
  unfold scriptUnload
  grind only [Dev.resumePaused_keeps, Dev.unloadScript_keeps, Dev.endFrames_keeps, Dev.modFrm_keeps]

@[simp] theorem curtainUnit_keeps (h : a.Keeps d) (link g) : a.Keeps (curtainUnit link g d) := by
  unfold curtainUnit
  grind only [Dev.sendDown_keeps, Dev.modWts_keeps, Dev.modFrm_keeps]

@[simp] theorem unloadUnit_keeps (h : a.Keeps d) (link g) : a.Keeps (unloadUnit link g d) := by
  unfold unloadUnit
  grind only [Dev.sendDown_keeps, Dev.modFrm_keeps]

@[simp] theorem parkUnit_keeps (h : a.Keeps d) (link g) : a.Keeps (parkUnit link g d) := by
  unfold parkUnit
  grind only [Dev.sendDown_keeps, Dev.modFrm_keeps]

@[simp] theorem raiseUnit_keeps (h : a.Keeps d) (link h') : a.Keeps (raiseUnit link h' d) := by
  unfold raiseUnit
  grind only [Dev.sendDown_keeps, Dev.modWts_keeps]

@[simp] theorem stopUnit_keeps (h : a.Keeps d) (link f) : a.Keeps (stopUnit link f d) := by
  unfold stopUnit
  grind only [Dev.sendDown_keeps, Dev.modFrm_keeps]

@[simp] theorem drainedUnit_keeps (h : a.Keeps d) (link) : a.Keeps (drainedUnit link d) := by
  unfold drainedUnit
  grind only [Dev.modFrm_keeps]

@[simp] theorem drainedSend_keeps (h : a.Keeps d) : a.Keeps (drainedSend d) := by
  unfold drainedSend
  grind only [Dev.modFrm_keeps, Dev.sendUp_keeps, Dev.startRewrite_keeps, Dev.sendDown_keeps, Dev.modWts_keeps]

@[simp] theorem rewrite_keeps (h : a.Keeps d) (link) : a.Keeps (rewrite link d) := by
  unfold rewrite
  grind only [Dev.startRewrite_keeps, Dev.sendDown_keeps, Dev.modWts_keeps]

@[simp] theorem curtainReady_keeps (h : a.Keeps d) (link failure c) : a.Keeps (curtainReady link failure c d) := by
  unfold curtainReady
  grind only [Dev.modWts_keeps]

@[simp] theorem curtainReadySend_keeps (h : a.Keeps d) : a.Keeps (curtainReadySend d) := by
  unfold curtainReadySend
  grind only [Dev.modWts_keeps, Dev.sendUp_keeps, Dev.curtainRefresh_keeps, Dev.resumePaused_keeps, Dev.curtainCounts_keeps]

@[simp] theorem genPark_keeps (h : a.Keeps d) : a.Keeps (genPark d) := by
  unfold genPark
  grind only [Dev.enterParked_keeps, Dev.modFrm_keeps]

@[simp] theorem genWake_keeps (h : a.Keeps d) : a.Keeps (genWake d) := by
  unfold genWake
  grind only [Dev.wakeEvent_keeps]

@[simp] theorem wake_keeps (h : a.Keeps d) (link origin) : a.Keeps (wake link origin d) := by
  unfold wake
  grind only [Dev.modSys_keeps, Dev.leavePower_keeps, Dev.sendDown_keeps, Dev.sendUp_keeps]

@[simp] theorem awake_keeps (h : a.Keeps d) (link) : a.Keeps (awake link d) := by
  unfold awake
  grind only [Dev.modSys_keeps]

@[simp] theorem awakeSend_keeps (h : a.Keeps d) : a.Keeps (awakeSend d) := by
  unfold awakeSend
  grind only [Dev.modSys_keeps, Dev.sendUp_keeps]

@[simp] theorem reservedUnit_keeps (h : a.Keeps d) (link) : a.Keeps (reservedUnit link d) := by
  unfold reservedUnit
  grind only [Dev.meshCount_keeps]

/-! ## Machine/Ethernet -/

@[simp] theorem ethLinkChange_keeps (h : a.Keeps d) (speed) : a.Keeps (ethLinkChange speed d) := by
  unfold ethLinkChange
  grind only [Dev.modMesh_keeps]

@[simp] theorem telemetrySend_keeps (h : a.Keeps d) : a.Keeps (telemetrySend d) := by
  unfold telemetrySend
  grind only [Dev.ethSend_keeps, Dev.useFree_keeps]

@[simp] theorem ethFrameReceive_keeps (h : a.Keeps d) (frame) : a.Keeps (ethFrameReceive frame d) := by
  unfold ethFrameReceive
  grind only [Dev.ethSend_keeps]

/-! ## Machine/Repeats -/

theorem Dev.runFormat_keeps (h : a.Keeps d) (r a') : a.Keeps (d.runFormat r a').1 := by
  unfold Dev.runFormat
  grind only [Dev.precCount_keeps, Dev.convert_keeps]

theorem Dev.runRange_keeps (h : a.Keeps d) (r a') : a.Keeps (d.runRange r a').1 := by
  unfold Dev.runRange
  grind only [Dev.convert_keeps]

theorem Dev.mergeOut_keeps (h : a.Keeps d) (r o s slot) : a.Keeps (d.mergeOut r o s slot) := by
  unfold Dev.mergeOut
  grind only [Dev.modTile_keeps, Dev.vecWr_keeps]

theorem Dev.serve_keeps (h : a.Keeps d) (r slot inserted) : a.Keeps (d.serve r slot inserted) := by
  unfold Dev.serve
  grind only [Dev.unserved_keeps, Dev.discardTok_keeps, Dev.runFormat_keeps, Dev.runRange_keeps, Dev.mergeOut_keeps, Dev.precFlag_keeps,
    Dev.precCount_keeps, Dev.capture_keeps, Dev.evalTrouble_keeps]

theorem Dev.dropReq_keeps (h : a.Keeps d) (flock r) : a.Keeps (d.dropReq flock r) := by
  unfold Dev.dropReq
  grind only [Dev.modTile_keeps]

theorem Dev.serveAll_keeps (h : a.Keeps d) (flock tiles lo hi fuel use ins) : a.Keeps (Dev.serveAll flock tiles lo hi fuel use ins d).1 := by
  induction fuel generalizing d use ins with
  | zero => exact h
  | succ fuel ih =>
    unfold Dev.serveAll
    split
    · exact h
    next r _ =>
      extract_lets d₁
      have h₁ : a.Keeps d₁ := Dev.dropReq_keeps h _ _
      split
      · exact ih h₁ _ _
      split
      · exact ih (Dev.serve_keeps (Dev.drives_keeps h₁ _ _ _) _ _ _) _ _
      split
      · exact ih (Dev.serve_keeps h₁ _ _ _) _ _
      · exact ih (Dev.unserved_keeps h₁ _) _ _

@[simp] theorem repeatWin_keeps (h : a.Keeps d) (c) : a.Keeps (repeatWin c d) := by
  unfold repeatWin
  grind [Dev.advance_keeps, Dev.serveAll_keeps, Dev.unserved_keeps, Dev.dropReq_keeps, Dev.modFrm_keeps, Dev.modTile_keeps, Dev.foldl_keeps]

theorem Dev.probeRun_keeps (h : a.Keeps d) (a' b) : a.Keeps (d.probeRun a' b).1 := by
  unfold Dev.probeRun
  grind only [Dev.phase_keeps]

theorem Dev.probeVerdict_keeps (h : a.Keeps d) (p) : a.Keeps (d.probeVerdict p) := by
  unfold Dev.probeVerdict
  grind only [Dev.failPrincipal_keeps, Dev.modTile_keeps, Dev.tileSuspect_keeps]

theorem Dev.probeStep_keeps (h : a.Keeps d) (p) : a.Keeps (d.probeStep p) := by
  unfold Dev.probeStep
  grind only [Dev.modTile_keeps, Dev.probeRun_keeps, Dev.arrayError_keeps, Dev.histEvent_keeps, Dev.failPrincipal_keeps,
    Dev.probeVerdict_keeps]

theorem Dev.probeNext_keeps (h : a.Keeps d) (a') : a.Keeps (d.probeNext a') := by
  unfold Dev.probeNext
  grind only [Dev.probeRun_keeps, Dev.modArr_keeps, Dev.modTile_keeps]

theorem Dev.rehearse_keeps (h : a.Keeps d) (f slot) : a.Keeps (d.rehearse f slot) := by
  unfold Dev.rehearse
  grind only [Dev.drives_keeps, Dev.measureOne_keeps, Dev.modArr_keeps, Dev.probeStep_keeps, Dev.probeNext_keeps, Dev.modTile_keeps]

@[simp] theorem rehearseWin_keeps (h : a.Keeps d) (c) : a.Keeps (rehearseWin c d) := by
  unfold rehearseWin
  grind [Dev.rehearse_keeps, Dev.advance_keeps, Dev.foldl_keeps]

/-! ## Machine/Exact -/

@[simp] theorem forceMode_keeps (h : a.Keeps d) (learn) : a.Keeps (forceMode learn d) := by
  unfold forceMode
  grind only [Dev.modTile_keeps]

@[simp] theorem tilePrecClr_keeps (h : a.Keeps d) : a.Keeps (tilePrecClr d) := by
  unfold tilePrecClr
  grind only [Dev.modTile_keeps]

@[simp] theorem exactStart_keeps (h : a.Keeps d) (layer) : a.Keeps (exactStart layer d) := by
  unfold exactStart
  grind only [Dev.modTile_keeps, Dev.exactFail_keeps]

@[simp] theorem exactAbort_keeps (h : a.Keeps d) : a.Keeps (exactAbort d) := by
  unfold exactAbort
  grind only [Dev.exactFail_keeps]

@[simp] theorem exactJobTimeout_keeps (h : a.Keeps d) : a.Keeps (exactJobTimeout d) := by
  unfold exactJobTimeout
  grind only [Dev.exactFail_keeps]

@[simp] theorem exactJobDone_keeps (h : a.Keeps d) : a.Keeps (exactJobDone d) := by
  unfold exactJobDone
  grind only [Dev.event_keeps, Dev.modTile_keeps, Dev.useFree_keeps]

/-! ## Machine/Kernels -/

theorem Dev.engineError_keeps (h : a.Keeps d) (z code steps verdict) : a.Keeps (d.engineError z code steps verdict) := by
  unfold Dev.engineError
  grind only [Dev.contain_keeps]

theorem Dev.kRead_keeps (h : a.Keeps d) (z p n i operand) : a.Keeps (d.kRead z p n i operand).1 := by
  unfold Dev.kRead
  grind only [Dev.wingsRd_keeps, Dev.hazRead_keeps, Dev.engineError_keeps, Dev.modMem_keeps, Dev.modMem_wf, Mem.wf_iff, Mem.wf_wrHbm,
    Mem.wf_zeroHbm, Mem.wf_zeroApron, Mem.wf_copyHbm, Mem.wf_count, Mem.wf_zeroCw, Mem.wf_flip, Mem.wf_applyRepairs, cellsWf_wrN,
    cellsWf_zeroRange, sparseWf_sput, sparseWf_sdel, sparseWf_smod, sparseWf_filter, sparseWf_sclear]

theorem Dev.kWrite_keeps (h : a.Keeps d) (z p bs i) : a.Keeps (d.kWrite z p bs i) := by
  unfold Dev.kWrite
  grind only [Dev.wingsWr_keeps, Dev.tagWrite_keeps, Dev.modMem_keeps, Dev.modMem_wf, Mem.wf_iff, Mem.wf_wrHbm, Mem.wf_zeroHbm,
    Mem.wf_zeroApron, Mem.wf_copyHbm, Mem.wf_count, Mem.wf_zeroCw, Mem.wf_flip, Mem.wf_applyRepairs, cellsWf_wrN, cellsWf_zeroRange,
    sparseWf_sput, sparseWf_sdel, sparseWf_smod, sparseWf_filter, sparseWf_sclear]

theorem Dev.opRow_keeps (h : a.Keeps d) (z o i) : a.Keeps (d.opRow z o i).1 := by
  unfold Dev.opRow
  grind only [Dev.kRead_keeps]

theorem Dev.opMatrix_keeps (h : a.Keeps d) (z o n) : a.Keeps (d.opMatrix z o n).1 := by
  unfold Dev.opMatrix
  grind only [Dev.kRead_keeps]

theorem Dev.outRow_keeps (h : a.Keeps d) (z size i bs) : a.Keeps (d.outRow z size i bs) := by
  unfold Dev.outRow
  grind only [Dev.kWrite_keeps]

theorem Dev.outRes_keeps (h : a.Keeps d) (z i vs) : a.Keeps (d.outRes z i vs) := by
  unfold Dev.outRes
  grind only [Dev.outRow_keeps, Dev.useFree_keeps]

theorem Dev.rows_keeps (h : a.Keeps d) (z) {row : Dev → Nat → Tok → Dev × Option (List Res)}
    (hr : ∀ d i t, a.Keeps d → a.Keeps (row d i t).1) : a.Keeps (d.rows z row) := by
  unfold Dev.rows
  extract_lets go
  have hgo : a.Keeps go.1 := Dev.foldl_fst_keeps (fun y e hy => by
    split
    · exact hy
    · exact hr _ _ _ hy) _ h
  split
  · exact Dev.foldl_keeps (fun _ _ hd => Dev.outRes_keeps hd _ _ _) _ hgo
  · exact Dev.engineError_keeps hgo _ _ _ _

theorem Dev.clearPartition_keeps (h : a.Keeps d) (z) : a.Keeps (d.clearPartition z) := by
  unfold Dev.clearPartition
  grind only [Dev.tagWrite_keeps, Dev.modMem_keeps, Dev.modMem_wf, Mem.wf_iff, Mem.wf_wrHbm, Mem.wf_zeroHbm, Mem.wf_zeroApron,
    Mem.wf_copyHbm, Mem.wf_count, Mem.wf_zeroCw, Mem.wf_flip, Mem.wf_applyRepairs, cellsWf_wrN, cellsWf_zeroRange, sparseWf_sput,
    sparseWf_sdel, sparseWf_smod, sparseWf_filter, sparseWf_sclear]

theorem Dev.runThread_keeps (h : a.Keeps d) (z) : a.Keeps (d.runThread z) := by
  unfold Dev.runThread
  grind [Dev.modEng_keeps, Dev.useKeys_keeps, Dev.foldl_keeps]

theorem Dev.kernel_keeps (h : a.Keeps d) (fam k) {run : KRun → Dev → Dev} (hr : ∀ z d, a.Keeps d → a.Keeps (run z d)) :
    a.Keeps (Dev.kernel fam k run d) := by
  unfold Dev.kernel
  grind [Dev.stallOn_keeps, Dev.runThread_keeps, Dev.clearPartition_keeps, Dev.engineError_keeps]

@[simp] theorem matmulRun_keeps (h : a.Keeps d) (z) : a.Keeps (matmulRun z d) := by
  unfold matmulRun
  grind only [Dev.opMatrix_keeps, Dev.rows_keeps, Dev.opRow_keeps]

@[simp] theorem normRun_keeps (h : a.Keeps d) (z) : a.Keeps (normRun z d) := by
  unfold normRun
  grind only [Dev.rows_keeps, Dev.opRow_keeps]

@[simp] theorem rotaryRun_keeps (h : a.Keeps d) (z) : a.Keeps (rotaryRun z d) := by
  unfold rotaryRun
  grind only [Dev.rows_keeps, Dev.opRow_keeps]

theorem Dev.kernelPageBad_keeps (h : a.Keeps d) (z p) : a.Keeps (d.kernelPageBad z p) := by
  unfold Dev.kernelPageBad
  grind only [Dev.kvPageBad_keeps]

@[simp] theorem attnRun_keeps (h : a.Keeps d) (latent z) : a.Keeps (attnRun latent z d) := by
  unfold attnRun
  grind only [Dev.kernelPageBad_keeps, Dev.rows_keeps, Dev.opRow_keeps]

theorem Dev.mirrorPend_keeps (h : a.Keeps d) (s layer pos) : a.Keeps (d.mirrorPend s layer pos) := by
  unfold Dev.mirrorPend
  grind only [Dev.modKv_keeps, Dev.setSes_keeps]

theorem Dev.mirrorWrite_keeps (h : a.Keeps d) (k t i off bs) : a.Keeps (d.mirrorWrite k t i off bs).1 := by
  unfold Dev.mirrorWrite
  grind only [Dev.mirrorStop_keeps, Dev.muleFailed_keeps, Dev.dmaCount_keeps, Dev.emit_keeps]

theorem Dev.kvReach_keeps (h : a.Keeps d) (k t) : ∀ e, d.kvReach k t = some e → a.Keeps e := by
  unfold Dev.kvReach
  grind [Dev.growTo_keeps, Dev.setKstate_keeps, Dev.setSesF_keeps, Dev.mirrorWrite_keeps, Dev.foldl_keeps]

theorem Dev.kvPut_keeps (h : a.Keeps d) (z k t bs) : a.Keeps (d.kvPut z k t bs) := by
  unfold Dev.kvPut
  grind only [Dev.kernelPageBad_keeps, Dev.hbmWr_keeps, Dev.mirrorWrite_keeps, Dev.mirrorPend_keeps]

theorem Dev.kvBytes_keeps (h : a.Keeps d) (z i t) : a.Keeps (d.kvBytes z i t).1 := by
  unfold Dev.kvBytes
  grind [Dev.opRow_keeps]

@[simp] theorem kvwriteRun_keeps (h : a.Keeps d) (z) : a.Keeps (kvwriteRun z d) := by
  unfold kvwriteRun
  split
  · exact h
  next k _ =>
    extract_lets go
    have hgo : a.Keeps go.1 := Dev.foldl_fst_keeps (fun y e hy => by
      split
      · exact hy
      · next t _ => exact Dev.kvBytes_keeps hy z _ t) _ h
    split
    · exact Dev.engineError_keeps hgo _ _ _ _
    · refine Dev.foldl_keeps (fun d e hd => ?_) _ hgo
      split
      case h_1 hr => exact Dev.kvPut_keeps (Dev.kvReach_keeps hd _ _ _ hr) _ _ _ _
      · exact Dev.ite_keeps hd (Dev.contain_keeps hd _ _ _)

@[simp] theorem exactKernel_keeps (h : a.Keeps d) (k) : a.Keeps (exactKernel k d) := by
  unfold exactKernel
  grind only [Dev.stallOn_keeps, Dev.runThread_keeps, Dev.clearPartition_keeps]

@[simp] theorem kernelStop_keeps (h : a.Keeps d) (fam k) : a.Keeps (kernelStop fam k d) := by
  unfold kernelStop
  grind only [Dev.engineError_keeps, Dev.modEng_keeps, Dev.histEvent_keeps, Dev.raise_keeps]

/-! ## Machine/Kafel -/

theorem Dev.sendFlit_keeps (h : a.Keeps d) (link f) : a.Keeps (d.sendFlit link f) := by
  unfold Dev.sendFlit
  grind only [Dev.emit_keeps, Dev.modLink_keeps]

theorem Dev.drainTx_keeps (h : a.Keeps d) (link) : a.Keeps (d.drainTx link) := by
  unfold Dev.drainTx
  grind [Dev.emit_keeps, Dev.modLink_keeps, Dev.foldl_keeps]

theorem Dev.sendRun_keeps (h : a.Keeps d) (own r us) : a.Keeps (d.sendRun own r us) := by
  unfold Dev.sendRun
  grind [Dev.modMesh_keeps, Dev.sendFlit_keeps, Dev.foldl_keeps]

theorem Dev.sendTransfer_keeps (h : a.Keeps d) (link num us) : a.Keeps (d.sendTransfer link num us) := by
  unfold Dev.sendTransfer
  grind [Dev.sendFlit_keeps, Dev.sendRun_keeps, Dev.foldl_keeps]

theorem Dev.linkError_keeps (h : a.Keeps d) (r toks) : a.Keeps (d.linkError r toks) := by
  unfold Dev.linkError
  grind only [Dev.contain_keeps]

@[simp] theorem linkSend_keeps (h : a.Keeps d) (r) : a.Keeps (linkSend r d) := by
  unfold linkSend
  grind only [Dev.sendTransfer_keeps, Dev.stallOn_keeps, Dev.wingsRd_keeps, Dev.foldl_keeps, Dev.foldl_fst_keeps]

theorem Dev.takeXfer_keeps (h : a.Keeps d) (r rest) : a.Keeps (d.takeXfer r rest) := by
  unfold Dev.takeXfer
  grind only [Dev.modLink_keeps]

theorem Dev.dropXfer_keeps (h : a.Keeps d) (r us rest) : a.Keeps (d.dropXfer r us rest) := by
  unfold Dev.dropXfer
  grind only [Dev.linkError_keeps, Dev.takeXfer_keeps]

theorem Dev.arrive_keeps (h : a.Keeps d) (r us) : a.Keeps (d.arrive r us) := by
  unfold Dev.arrive
  grind only [Dev.modFrm_keeps, Dev.wingsWr_keeps, Dev.modFrm_wf, Frm.Wf, Frm.wf_emptyLanes, Frm.wf_stopCues, Frm.wf_countStalls,
    Frm.wf_slewPath, Frm.wf_countLen, Frm.wf_tickInCtrl, Frm.wf_clearHeld, sparseWf_sput, sparseWf_sdel, sparseWf_smod, sparseWf_filter,
    sparseWf_sclear, Dev.foldl_keeps, Dev.foldl_fst_keeps]

@[simp] theorem linkReceive_keeps (h : a.Keeps d) (r late) : a.Keeps (linkReceive r late d) := by
  unfold linkReceive
  grind only [Dev.modFrm_keeps, Dev.modMesh_keeps, Dev.dropXfer_keeps, Dev.arrive_keeps, Dev.takeXfer_keeps]

@[simp] theorem linkForward_keeps (h : a.Keeps d) (r) : a.Keeps (linkForward r d) := by
  unfold linkForward
  grind only [Dev.dropXfer_keeps, Dev.sendTransfer_keeps, Dev.takeXfer_keeps]

@[simp] theorem ackUnit_keeps (h : a.Keeps d) (link last) : a.Keeps (ackUnit link last d) := by
  unfold ackUnit
  grind only [Dev.drainTx_keeps, Dev.modLink_keeps]

@[simp] theorem nakUnit_keeps (h : a.Keeps d) (link failed) : a.Keeps (nakUnit link failed d) := by
  unfold nakUnit
  grind only [Dev.emit_keeps, Dev.meshCount_keeps]

@[simp] theorem replayUnit_keeps (h : a.Keeps d) (link count) : a.Keeps (replayUnit link count d) := by
  unfold replayUnit
  grind only [Dev.modLink_keeps]

@[simp] theorem spillUnit_keeps (h : a.Keeps d) (link u) : a.Keeps (spillUnit link u d) := by
  unfold spillUnit
  grind only [Dev.modLink_keeps]

/-! ## Machine/Flits -/

@[simp] theorem runUnit_keeps (h : a.Keeps d) (link t x3) : a.Keeps (runUnit link t d x3) := by
  unfold runUnit
  grind only [tick_keeps, done_keeps, echo_keeps, echoReply_keeps, ackUnit_keeps, nakUnit_keeps, replayUnit_keeps, spillUnit_keeps,
    laneUnit_keeps, Dev.remoteFreeze_keeps, Dev.remoteThaw_keeps, curtainUnit_keeps, drainedUnit_keeps, rewrite_keeps, curtainReady_keeps,
    raiseUnit_keeps, unloadUnit_keeps, stopUnit_keeps, parkUnit_keeps, wake_keeps, awake_keeps, hello_keeps, discover_keeps,
    reportUnit_keeps, herd_keeps, rediscover_keeps, reservedUnit_keeps]

theorem Dev.dataUnits_keeps (h : a.Keeps d) (link control us) : a.Keeps (d.dataUnits link control us) := by
  unfold Dev.dataUnits
  grind [Dev.meshCount_keeps, Dev.modLink_keeps, Dev.foldl_keeps]

theorem Dev.processFlit_keeps (h : a.Keeps d) (link t f) : a.Keeps (d.processFlit link t f) := by
  unfold Dev.processFlit
  grind [Dev.dataUnits_keeps, runUnit_keeps, Dev.foldl_keeps]

theorem Dev.countFlit_keeps (h : a.Keeps d) (link count) : a.Keeps (d.countFlit link count) := by
  unfold Dev.countFlit
  grind only [Dev.modLink_keeps, Dev.sendUnit_keeps]

theorem Dev.sendNak_keeps (h : a.Keeps d) (link count) : a.Keeps (d.sendNak link count) := by
  unfold Dev.sendNak
  grind only [Dev.sendUnit_keeps]

theorem Dev.drainHeld_keeps (h : a.Keeps d) (link t) : a.Keeps (d.drainHeld link t) := by
  unfold Dev.drainHeld
  grind [Dev.modLink_keeps, Dev.processFlit_keeps, Dev.countFlit_keeps, Dev.foldl_keeps]

theorem Dev.resentFlit_keeps (h : a.Keeps d) (link t c f) : a.Keeps (d.resentFlit link t c f) := by
  unfold Dev.resentFlit
  grind only [Dev.modLink_keeps, Dev.meshCount_keeps, Dev.drainHeld_keeps, Dev.linkDown_keeps, Dev.sendNak_keeps]

@[simp] theorem flitReceive_keeps (h : a.Keeps d) (link f corrected uncorrectable t) : a.Keeps (flitReceive link f corrected uncorrectable t d) := by
  unfold flitReceive
  grind only [Dev.modMesh_keeps, Dev.meshCount_keeps, Dev.resentFlit_keeps, Dev.modLink_keeps, Dev.processFlit_keeps, Dev.countFlit_keeps,
    Dev.sendNak_keeps]

/-! ## Machine/History -/

@[simp] theorem errRingHeadWrite_keeps (h : a.Keeps d) (count) : a.Keeps (errRingHeadWrite count d) := by
  unfold errRingHeadWrite
  grind only [Dev.modErr_keeps, Dev.modErr_wf, Err.Wf, Err.wf_count, Err.wf_hostWrote, Err.wf_endTest, Err.wf_emptied, Err.wf_pushStack,
    Err.wf_pushRing, Err.wf_advance, Err.wf_boot, sparseWf_sput, sparseWf_sdel, sparseWf_smod, sparseWf_filter, sparseWf_sclear]

@[simp] theorem errStackClrFatal_keeps (h : a.Keeps d) : a.Keeps (errStackClrFatal d) := by
  unfold errStackClrFatal
  grind only [Dev.modErr_keeps, Dev.modErr_wf, Err.Wf, Err.wf_count, Err.wf_hostWrote, Err.wf_endTest, Err.wf_emptied, Err.wf_pushStack,
    Err.wf_pushRing, Err.wf_advance, Err.wf_boot, sparseWf_sput, sparseWf_sdel, sparseWf_smod, sparseWf_filter, sparseWf_sclear]

@[simp] theorem errCntClr_keeps (h : a.Keeps d) : a.Keeps (errCntClr d) := by
  unfold errCntClr
  grind only [Dev.settle_keeps, Dev.modErr_keeps]

@[simp] theorem errHistCommit_keeps (h : a.Keeps d) : a.Keeps (errHistCommit d) := by
  unfold errHistCommit
  grind only [Dev.commitHistory_keeps]

@[simp] theorem clearStruck_keeps (h : a.Keeps d) : a.Keeps (clearStruck d) := by
  unfold clearStruck
  grind only [Dev.modErr_keeps]

@[simp] theorem historyHourlyCommit_keeps (h : a.Keeps d) : a.Keeps (historyHourlyCommit d) := by
  unfold historyHourlyCommit
  grind only [Dev.modErr_keeps, Dev.commitHistory_keeps]

@[simp] theorem historyScoreDecay_keeps (h : a.Keeps d) (kind unit) : a.Keeps (historyScoreDecay kind unit d) := by
  unfold historyScoreDecay
  grind only [Dev.modErr_keeps]

/-! ## Machine/Security -/

@[simp] theorem secDbgLevel_keeps (h : a.Keeps d) (level) : a.Keeps (secDbgLevel level d) := by
  unfold secDbgLevel
  grind only [Dev.modSec_keeps]

@[simp] theorem secDbgExit_keeps (h : a.Keeps d) : a.Keeps (secDbgExit d) := by
  unfold secDbgExit
  grind only [Dev.modSec_keeps]

theorem Dev.fwErr_keeps (h : a.Keeps d) (cause) : a.Keeps (d.fwErr cause) := by
  unfold Dev.fwErr
  grind only [Dev.modSec_keeps]

@[simp] theorem fwAppend_keeps (h : a.Keeps d) (kind units) : a.Keeps (fwAppend kind units d) := by
  unfold fwAppend
  grind only [Dev.modSec_keeps, Dev.fwErr_keeps]

@[simp] theorem fwCommit_keeps (h : a.Keeps d) (kind vprogOk) : a.Keeps (fwCommit kind vprogOk d) := by
  unfold fwCommit
  grind only [Dev.modSec_keeps, Dev.fwErr_keeps]

@[simp] theorem fwCancel_keeps (h : a.Keeps d) : a.Keeps (fwCancel d) := by
  unfold fwCancel
  grind only [Dev.modSec_keeps]

theorem Dev.releaseArrays_keeps (h : a.Keeps d) : a.Keeps d.releaseArrays := by
  unfold Dev.releaseArrays
  grind only [Dev.modTile_keeps, Dev.arrayError_keeps, Dev.modArr_keeps, Dev.retire_keeps, Dev.modTile_wf, Tile.Wf, sparseWf_nil,
    Dev.foldl_keeps]

theorem Dev.clearMemory_keeps (h : a.Keeps d) : a.Keeps d.clearMemory := by
  unfold Dev.clearMemory
  grind only [Dev.unloadScript_keeps, Dev.endFrames_keeps, Dev.modMem_keeps, Dev.modCall_keeps, Dev.modErr_keeps, Dev.modMem_wf,
    Mem.wf_zeroAll, Dev.modErr_wf, Err.Wf, sparseWf_nil, Mem.wf_setOwner]

theorem Dev.reLease_keeps (h : a.Keeps d) : a.Keeps d.reLease := by
  unfold Dev.reLease
  grind only [Dev.releaseArrays_keeps, Dev.clearMemory_keeps, Dev.modWts_keeps, Dev.modErr_keeps, Dev.modMesh_keeps, Dev.modErr_wf, Err.Wf,
    Err.wf_count, Err.wf_hostWrote, Err.wf_endTest, Err.wf_emptied, Err.wf_pushStack, Err.wf_pushRing, Err.wf_advance, Err.wf_boot,
    sparseWf_sput, sparseWf_sdel, sparseWf_smod, sparseWf_filter, sparseWf_sclear]

theorem Dev.enterVendor_keeps (h : a.Keeps d) : a.Keeps d.enterVendor := by
  unfold Dev.enterVendor
  grind only [Dev.clearMemory_keeps, Dev.modSec_keeps, Dev.modTile_keeps, Dev.modTile_wf, Tile.Wf, sparseWf_nil]

theorem Dev.doeReply_keeps (h : a.Keeps d) (code tag body) : a.Keeps (d.doeReply code tag body) := by
  unfold Dev.doeReply
  grind only [Dev.emit_keeps, Dev.modHost_keeps]

theorem Dev.doeError_keeps (h : a.Keeps d) (tag cause) : a.Keeps (d.doeError tag cause) := by
  unfold Dev.doeError
  grind only [Dev.doeReply_keeps]

theorem Dev.doeDone_keeps (h : a.Keeps d) (tag) : a.Keeps (d.doeDone tag) := by
  unfold Dev.doeDone
  grind only [Dev.doeReply_keeps]

@[simp] theorem getIdentity_keeps (h : a.Keeps d) (tag) : a.Keeps (getIdentity tag d) := by
  unfold getIdentity
  grind only [Dev.doeError_keeps, Dev.doeReply_keeps]

@[simp] theorem getMeasure_keeps (h : a.Keeps d) (tag nonce) : a.Keeps (getMeasure tag nonce d) := by
  unfold getMeasure
  grind only [Dev.doeError_keeps, Dev.doeReply_keeps]

theorem Dev.doeSigned_keeps (h : a.Keeps d) (a' ok signed) {f : Dev → Dev} (hf : a.Keeps (f d)) : a.Keeps (d.doeSigned a' ok signed f) := by
  unfold Dev.doeSigned
  grind [Dev.doeDone_keeps, Dev.doeError_keeps]

@[simp] theorem lock_keeps (h : a.Keeps d) (a') : a.Keeps (lock a' d) := by
  unfold lock
  grind only [Dev.doeSigned_keeps, Dev.modSec_keeps, Dev.reLease_keeps]

@[simp] theorem ownerClaim_keeps (h : a.Keeps d) (a' keys) : a.Keeps (ownerClaim a' keys d) := by
  unfold ownerClaim
  grind only [Dev.doeSigned_keeps, Dev.modSec_keeps, Dev.reLease_keeps]

@[simp] theorem ownerTransfer_keeps (h : a.Keeps d) (a' keys) : a.Keeps (ownerTransfer a' keys d) := by
  unfold ownerTransfer
  grind only [Dev.doeSigned_keeps, Dev.modSec_keeps, Dev.reLease_keeps]

@[simp] theorem debugToken_keeps (h : a.Keeps d) (a' vendor level) : a.Keeps (debugToken a' vendor level d) := by
  unfold debugToken
  grind only [Dev.doeSigned_keeps, Dev.enterVendor_keeps, Dev.modSec_keeps]

@[simp] theorem unlock_keeps (h : a.Keeps d) (a') : a.Keeps (unlock a' d) := by
  unfold unlock
  grind only [Dev.doeSigned_keeps, Dev.modSec_keeps, Dev.reLease_keeps]

@[simp] theorem doeAbort_keeps (h : a.Keeps d) : a.Keeps (doeAbort d) := by
  unfold doeAbort
  grind only [Dev.modHost_keeps]

@[simp] theorem doeDiscovery_keeps (h : a.Keeps d) (index type length) : a.Keeps (doeDiscovery index type length d) := by
  unfold doeDiscovery
  grind only [Dev.modHost_keeps, Dev.emit_keeps]

/-! ## Machine/Holds -/

@[simp] theorem freezeNAssert_keeps (h : a.Keeps d) (lowNs t) : a.Keeps (freezeNAssert lowNs t d) := by
  unfold freezeNAssert
  grind only [Dev.modSys_keeps, Dev.engage_keeps]

@[simp] theorem freezeNRelease_keeps (h : a.Keeps d) (highNs t) : a.Keeps (freezeNRelease highNs t d) := by
  unfold freezeNRelease
  grind only [Dev.modSys_keeps, Dev.release_keeps]

@[simp] theorem dbgFreeze_keeps (h : a.Keeps d) (t) : a.Keeps (dbgFreeze t d) := by
  unfold dbgFreeze
  grind only [Dev.engage_keeps]

theorem Dev.thaw_keeps (h : a.Keeps d) (t) : a.Keeps (d.thaw t) := by
  unfold Dev.thaw
  grind only [Dev.release_keeps]

@[simp] theorem dbgThaw_keeps (h : a.Keeps d) (t) : a.Keeps (dbgThaw t d) := by
  unfold dbgThaw
  grind only [Dev.thaw_keeps]

/-! ## Machine/MemCue -/

@[simp] theorem hbmRd_keeps (h : a.Keeps d) (c) : a.Keeps (hbmRd c d) := by
  unfold hbmRd
  grind only [Dev.stallOn_keeps, Dev.modFrm_keeps]

theorem Dev.hbmStore_keeps (h : a.Keeps d) (c t bs) : a.Keeps (d.hbmStore c t bs) := by
  unfold Dev.hbmStore
  grind only [Dev.wingsWr_keeps, Dev.tagWrite_keeps, Dev.modMem_keeps, Dev.modMem_wf, Mem.wf_iff, Mem.wf_wrHbm, Mem.wf_zeroHbm,
    Mem.wf_zeroApron, Mem.wf_copyHbm, Mem.wf_count, Mem.wf_zeroCw, Mem.wf_flip, Mem.wf_applyRepairs, cellsWf_wrN, cellsWf_zeroRange,
    sparseWf_sput, sparseWf_sdel, sparseWf_smod, sparseWf_filter, sparseWf_sclear]

@[simp] theorem hbmRdDeliver_keeps (h : a.Keeps d) (c found) : a.Keeps (hbmRdDeliver c found d) := by
  unfold hbmRdDeliver
  grind only [Dev.modFrm_keeps, Dev.readHbm_keeps, Dev.hbmStore_keeps]

@[simp] theorem hbmWrite_keeps (h : a.Keeps d) (c) : a.Keeps (hbmWrite c d) := by
  unfold hbmWrite
  grind only [Dev.stallOn_keeps, Dev.hazRead_keeps, Dev.wingsRd_keeps, Dev.modMem_keeps, Dev.hbmWr_keeps]

/-! ## Machine/ScriptLoad -/

theorem Dev.scriptErr_keeps (h : a.Keeps d) (cause w) : a.Keeps (d.scriptErr cause w) := by
  unfold Dev.scriptErr
  grind only [Dev.event_keeps, Dev.modScr_keeps]

@[simp] theorem scriptLoad_keeps (h : a.Keeps d) : a.Keeps (scriptLoad d) := by
  unfold scriptLoad
  grind only [Dev.modScr_keeps, Dev.scriptErr_keeps]

theorem Dev.installScript_keeps (h : a.Keeps d) (sc image) : a.Keeps (d.installScript sc image) := by
  unfold Dev.installScript
  extract_lets d₁ d₂ d₃ d₄
  have h₂ : a.Keeps d₂ := Dev.modMem_wf (Dev.clearScript_keeps h) fun w => by
    obtain ⟨hh, hw, hl, hp, ha⟩ := (Mem.wf_iff _).mp (Mem.wf_wrHbm _ scriptImageBase image w)
    exact (Mem.wf_iff _).mpr ⟨hh, cellsWf_foldl_wrN _ _ hw, hl, hp, ha⟩
  exact Dev.event_keeps (Dev.modScr_keeps (Dev.modFrm_keeps (Dev.modTile_keeps h₂ rfl rfl) rfl rfl) _) _

@[simp] theorem scriptLoadDone_keeps (h : a.Keeps d) : a.Keeps (scriptLoadDone d) := by
  unfold scriptLoadDone
  grind only [Dev.scriptErr_keeps, Dev.installScript_keeps]

@[simp] theorem scriptLoadAbort_keeps (h : a.Keeps d) : a.Keeps (scriptLoadAbort d) := by
  unfold scriptLoadAbort
  grind only [Dev.scriptErr_keeps]

@[simp] theorem hazardModeWrite_keeps (h : a.Keeps d) (mode) : a.Keeps (hazardModeWrite mode d) := by
  unfold hazardModeWrite
  grind only [Dev.modMem_keeps, Dev.modScr_keeps]

/-! ## Machine/Registers -/

theorem Dev.pathRead_keeps (h : a.Keeps d) (path off) : a.Keeps (d.pathRead path off).1 := by
  unfold Dev.pathRead
  grind only [Dev.modSys_keeps]

theorem Dev.on_keeps (h : a.Keeps d) (c) {f : Dev → Dev} (hf : a.Keeps (f d)) : a.Keeps (d.on c f) := by
  unfold Dev.on
  grind

theorem Dev.genWrite_keeps (h : a.Keeps d) (off v) : a.Keeps (d.genWrite off v) := by
  unfold Dev.genWrite
  grind only [Dev.on_keeps, Dev.modSys_keeps, genPark_keeps, genWake_keeps]

@[simp] theorem hostCntClr_keeps (h : a.Keeps d) : a.Keeps (hostCntClr d) := by
  unfold hostCntClr
  grind only [Dev.modHost_keeps]

@[simp] theorem hostEvtClear_keeps (h : a.Keeps d) (bits) : a.Keeps (hostEvtClear bits d) := by
  unfold hostEvtClear
  grind only [Dev.clearEvents_keeps]

theorem Dev.msixWrite_keeps (h : a.Keeps d) (n v) : a.Keeps (d.msixWrite n v) := by
  unfold Dev.msixWrite
  grind only [Dev.modHost_keeps, Dev.sendMsix_keeps]

theorem Dev.hostWrite_keeps (h : a.Keeps d) (off v) : a.Keeps (d.hostWrite off v) := by
  unfold Dev.hostWrite
  grind only [Dev.modHost_keeps, Dev.clearEvents_keeps, Dev.on_keeps, hostCntClr_keeps, Dev.msixWrite_keeps]

theorem Dev.fwCtrl_keeps (h : a.Keeps d) (v) : a.Keeps (d.fwCtrl v) := by
  unfold Dev.fwCtrl
  grind only [Dev.modSec_keeps, Dev.on_keeps, fwAppend_keeps, fwCommit_keeps, fwCancel_keeps]

theorem Dev.secWrite_keeps (h : a.Keeps d) (off v) : a.Keeps (d.secWrite off v) := by
  unfold Dev.secWrite
  grind only [Dev.on_keeps, secDbgLevel_keeps, secDbgExit_keeps, Dev.fwCtrl_keeps, Dev.modSec_keeps]

theorem Dev.dbgWrite_keeps (h : a.Keeps d) (off v) : a.Keeps (d.dbgWrite off v) := by
  unfold Dev.dbgWrite
  grind only [Dev.on_keeps, dbgFreeze_keeps, dbgThaw_keeps]

theorem Dev.kvCmdWrite_keeps (h : a.Keeps d) (v) : a.Keeps (d.kvCmdWrite v) := by
  unfold Dev.kvCmdWrite
  grind only [Dev.kvCommand_keeps, Dev.modKv_keeps]

theorem Dev.callWrite_keeps (h : a.Keeps d) (off v) : a.Keeps (d.callWrite off v) := by
  unfold Dev.callWrite
  (repeat' with_reducible refine Dev.ite_keeps ?_ ?_) <;>
    grind only [Dev.modCall_keeps, Dev.on_keeps, callAdpLoad_keeps, Dev.modKv_keeps, Dev.kvCmdWrite_keeps, callKvClr_keeps, retireReq_keeps,
      callAdpDirWrite_keeps]

theorem Dev.wtCtrl_keeps (h : a.Keeps d) (v) : a.Keeps (d.wtCtrl v) := by
  unfold Dev.wtCtrl
  grind only [Dev.modWts_keeps, Dev.on_keeps, wtVerify_keeps, wtLoad_keeps, wtAbort_keeps]

theorem Dev.scriptWrite_keeps (h : a.Keeps d) (off v) : a.Keeps (d.scriptWrite off v) := by
  unfold Dev.scriptWrite
  (repeat' with_reducible refine Dev.ite_keeps ?_ ?_) <;>
    grind only [Dev.on_keeps, scriptLoad_keeps, scriptUnload_keeps, scriptLoadAbort_keeps, Dev.modScr_keeps, hazardModeWrite_keeps, Dev.modFrm_wf,
      Frm.wf_tickInCtrl, Dev.modFrm_keeps, tickInLostClear_keeps, scriptStretchClr_keeps, forceMode_keeps, Dev.modWts_keeps, Dev.wtCtrl_keeps,
      curtainLower_keeps, curtainAbandon_keeps]

theorem Dev.exactCtrl_keeps (h : a.Keeps d) (v) : a.Keeps (d.exactCtrl v) := by
  unfold Dev.exactCtrl
  grind only [Dev.modTile_keeps, Dev.on_keeps, exactStart_keeps, exactAbort_keeps]

theorem Dev.tileWrite_keeps (h : a.Keeps d) (off v) : a.Keeps (d.tileWrite off v) := by
  unfold Dev.tileWrite
  (repeat' with_reducible refine Dev.ite_keeps ?_ ?_) <;>
    grind only [Dev.modTile_keeps, Dev.on_keeps, tilePrecClr_keeps, Dev.exactCtrl_keeps, tileHcStart_keeps, Dev.modWts_keeps,
      tileProgClr_keeps]

theorem Dev.meshWrite_keeps (h : a.Keeps d) (off v) : a.Keeps (d.meshWrite off v) := by
  unfold Dev.meshWrite
  grind only [meshIdWrite_keeps, Dev.on_keeps, meshRediscover_keeps, meshLaneRetry_keeps, Dev.modMesh_keeps, meshCntClr_keeps]

theorem Dev.thermWrite_keeps (h : a.Keeps d) (off v) : a.Keeps (d.thermWrite off v) := by
  unfold Dev.thermWrite
  grind only [Dev.modThm_keeps, Dev.on_keeps, thermCntClr_keeps]

theorem Dev.hkcWrite_keeps (h : a.Keeps d) (off v) : a.Keeps (d.hkcWrite off v) := by
  unfold Dev.hkcWrite
  grind only [Dev.modHkc_keeps, Dev.on_keeps, hkcStart_keeps, hkcUrgent_keeps, hkcRefWrite_keeps]

theorem Dev.errWrite_keeps (h : a.Keeps d) (off v) : a.Keeps (d.errWrite off v) := by
  unfold Dev.errWrite
  grind only [Dev.modErr_keeps, errRingHeadWrite_keeps, Dev.on_keeps, errStackClrFatal_keeps, errCntClr_keeps, Dev.modMem_keeps,
    errMemClr_keeps, errHistCommit_keeps, clearStruck_keeps]

theorem Dev.regWrite_keeps (h : a.Keeps d) (off v) : a.Keeps (d.regWrite off v) := by
  unfold Dev.regWrite
  dsimp only
  (repeat' with_reducible refine Dev.ite_keeps ?_ ?_) <;>
    grind only [Dev.genWrite_keeps, Dev.hostWrite_keeps, Dev.secWrite_keeps, Dev.callWrite_keeps, Dev.scriptWrite_keeps, Dev.tileWrite_keeps,
      Dev.meshWrite_keeps, Dev.thermWrite_keeps, Dev.hkcWrite_keeps, Dev.errWrite_keeps, Dev.dbgWrite_keeps]

@[simp] theorem registerWrite_keeps (h : a.Keeps d) (off value) : a.Keeps (registerWrite off value d) := by
  unfold registerWrite
  grind only [Dev.emit_keeps, Dev.regWrite_keeps]

@[simp] theorem registerLowWordRead_keeps (h : a.Keeps d) (off) : a.Keeps (registerLowWordRead off d) := by
  unfold registerLowWordRead
  grind only [Dev.emit_keeps, Dev.pathRead_keeps]

@[simp] theorem bar0UnsupportedAccess_keeps (h : a.Keeps d) : a.Keeps (bar0UnsupportedAccess d) := by
  unfold bar0UnsupportedAccess
  grind only [Dev.emit_keeps]

@[simp] theorem msixUnmask_keeps (h : a.Keeps d) (v) : a.Keeps (msixUnmask v d) := by
  unfold msixUnmask
  grind only [Dev.msixWrite_keeps]

/-! ## Machine/HostPort -/

theorem Dev.wakeStack_keeps (h : a.Keeps d) (a') : a.Keeps (d.wakeStack a') := by
  unfold Dev.wakeStack
  grind only [Dev.modSys_keeps]

theorem Dev.setBits_keeps (h : a.Keeps d) (a' bs) : a.Keeps (d.setBits a' bs) := by
  unfold Dev.setBits
  grind only [Dev.sessionMemBad_keeps, Dev.hbmWr_keeps, Dev.modCall_keeps, Dev.wakeEvent_keeps]

theorem Dev.validMoved_keeps (h : a.Keeps d) (before s) : a.Keeps (Dev.validMoved before d s) := by
  unfold Dev.validMoved
  grind only [Dev.modCall_keeps]

theorem Dev.writeOwned_keeps (h : a.Keeps d) (a' bs) : a.Keeps (d.writeOwned a' bs) := by
  unfold Dev.writeOwned
  grind only [Dev.readCw_keeps, Dev.modMem_keeps, Dev.hbmWr_keeps, Dev.modErr_keeps, Dev.validMoved_keeps, Dev.modMem_wf, Dev.modErr_wf,
    Mem.wf_iff, Mem.wf_wrHbm, Mem.wf_zeroHbm, Mem.wf_zeroApron, Mem.wf_copyHbm, Mem.wf_count, Mem.wf_zeroCw, Mem.wf_flip,
    Mem.wf_applyRepairs, cellsWf_wrN, cellsWf_zeroRange, Err.Wf, Err.wf_count, Err.wf_hostWrote, Err.wf_endTest, Err.wf_emptied,
    Err.wf_pushStack, Err.wf_pushRing, Err.wf_advance, Err.wf_boot, sparseWf_sput, sparseWf_sdel, sparseWf_smod, sparseWf_filter,
    sparseWf_sclear]

theorem Dev.hostWritePart_keeps (h : a.Keeps d) (p) : a.Keeps (d.hostWritePart p) := by
  unfold Dev.hostWritePart
  grind only [Dev.wakeStack_keeps, Dev.setBits_keeps, Dev.callCount_keeps, Dev.writeOwned_keeps]

@[simp] theorem hostWriteMem_keeps (h : a.Keeps d) (a' bs) : a.Keeps (hostWriteMem a' bs d) := by
  unfold hostWriteMem
  grind [Dev.hostWritePart_keeps, Dev.foldl_keeps]

theorem Dev.hostReadPart_keeps (h : a.Keeps d) (a' n found) : a.Keeps (d.hostReadPart a' n found).1 := by
  unfold Dev.hostReadPart
  grind only [Dev.wakeStack_keeps, Dev.readCw_keeps, Dev.useFree_keeps]

@[simp] theorem hostReadMem_keeps (h : a.Keeps d) (a' n found) : a.Keeps (hostReadMem a' n found d) := by
  unfold hostReadMem
  grind only [Dev.emit_keeps, Dev.hostReadPart_keeps, Dev.foldl_keeps, Dev.foldl_fst_keeps]

@[simp] theorem hbmSelfRefreshReturn_keeps (h : a.Keeps d) (stack) : a.Keeps (hbmSelfRefreshReturn stack d) := by
  unfold hbmSelfRefreshReturn
  grind only [Dev.modSys_keeps]

@[simp] theorem hostLinkDown_keeps (h : a.Keeps d) : a.Keeps (hostLinkDown d) := by
  unfold hostLinkDown
  grind only [Dev.hostDown_keeps]

theorem Dev.sendPending_keeps (h : a.Keeps d) : a.Keeps d.sendPending := by
  unfold Dev.sendPending
  grind [Dev.sendMsix_keeps, Dev.foldl_keeps]

@[simp] theorem hostLinkUp_keeps (h : a.Keeps d) (u) : a.Keeps (hostLinkUp u d) := by
  unfold hostLinkUp
  grind only [Dev.sendPending_keeps, Dev.modHost_keeps]

@[simp] theorem hdmCommit_keeps (h : a.Keeps d) (base size ways) : a.Keeps (hdmCommit base size ways d) := by
  unfold hdmCommit
  grind only [Dev.modHost_keeps]

/-! ## Machine/Jtag -/

theorem Dev.deny_keeps (h : a.Keeps d) : a.Keeps d.deny := by
  unfold Dev.deny
  grind only [Dev.modDbg_keeps]

theorem Dev.select_keeps (h : a.Keeps d) (i) : a.Keeps (d.select i) := by
  unfold Dev.select
  grind only [Dev.modDbg_keeps]

theorem Dev.bypass_keeps (h : a.Keeps d) : a.Keeps d.bypass := by
  unfold Dev.bypass
  grind only [Dev.emit_keeps, Dev.select_keeps]

theorem Dev.refuse_keeps (h : a.Keeps d) : a.Keeps d.refuse := by
  unfold Dev.refuse
  grind only [Dev.bypass_keeps, Dev.deny_keeps]

@[simp] theorem jtagBypass_keeps (h : a.Keeps d) : a.Keeps (jtagBypass d) := by
  unfold jtagBypass
  grind only [Dev.bypass_keeps]

@[simp] theorem jtagIdcode_keeps (h : a.Keeps d) : a.Keeps (jtagIdcode d) := by
  unfold jtagIdcode
  grind only [Dev.emit_keeps, Dev.select_keeps]

theorem Dev.boundaryScan_keeps (h : a.Keeps d) (i value) : a.Keeps (d.boundaryScan i value) := by
  unfold Dev.boundaryScan
  grind only [Dev.emit_keeps, Dev.modDbg_keeps, Dev.useFree_keeps, Dev.select_keeps]

@[simp] theorem jtagSamplePreload_keeps (h : a.Keeps d) (value) : a.Keeps (jtagSamplePreload value d) := by
  unfold jtagSamplePreload
  grind only [Dev.boundaryScan_keeps]

@[simp] theorem jtagExtest_keeps (h : a.Keeps d) : a.Keeps (jtagExtest d) := by
  unfold jtagExtest
  grind only [Dev.boundaryScan_keeps, Dev.refuse_keeps]

@[simp] theorem jtagAonRead_keeps (h : a.Keeps d) : a.Keeps (jtagAonRead d) := by
  unfold jtagAonRead
  grind only [Dev.emit_keeps, Dev.select_keeps]

theorem Dev.dbgAccess_keeps (h : a.Keeps d) (r) : a.Keeps (d.dbgAccess r).1 := by
  unfold Dev.dbgAccess
  grind only [Dev.regWrite_keeps, Dev.deny_keeps, Dev.pathRead_keeps, Dev.useFree_keeps]

@[simp] theorem jtagDbgAccess_keeps (h : a.Keeps d) (r) : a.Keeps (jtagDbgAccess r d) := by
  unfold jtagDbgAccess
  grind only [Dev.dbgAccess_keeps, Dev.emit_keeps, Dev.select_keeps]

@[simp] theorem jtagFreeze_keeps (h : a.Keeps d) (engage t) : a.Keeps (jtagFreeze engage t d) := by
  unfold jtagFreeze
  grind only [Dev.refuse_keeps, Dev.emit_keeps, Dev.select_keeps, Dev.engage_keeps, Dev.thaw_keeps]

@[simp] theorem jtagKeptRead_keeps (h : a.Keeps d) : a.Keeps (jtagKeptRead d) := by
  unfold jtagKeptRead
  grind only [Dev.refuse_keeps, Dev.emit_keeps, Dev.modDbg_keeps, Dev.useFree_keeps, Dev.select_keeps]

@[simp] theorem jtagStop_keeps (h : a.Keeps d) (engage t) : a.Keeps (jtagStop engage t d) := by
  unfold jtagStop
  grind only [Dev.refuse_keeps, Dev.emit_keeps, Dev.select_keeps, Dev.modSys_keeps, Dev.engage_keeps]

@[simp] theorem jtagScan_keeps (h : a.Keeps d) (bits) : a.Keeps (jtagScan bits d) := by
  unfold jtagScan
  grind only [Dev.refuse_keeps, Dev.emit_keeps, Dev.modDbg_keeps, Dev.useFree_keeps, Dev.select_keeps]

@[simp] theorem i3cEntdaa_keeps (h : a.Keeps d) (addr) : a.Keeps (i3cEntdaa addr d) := by
  unfold i3cEntdaa
  grind only [Dev.emit_keeps, Dev.modDbg_keeps]

@[simp] theorem i3cOffsetWrite_keeps (h : a.Keeps d) (off) : a.Keeps (i3cOffsetWrite off d) := by
  unfold i3cOffsetWrite
  grind only [Dev.modDbg_keeps]

@[simp] theorem i3cPrivateRead_keeps (h : a.Keeps d) : a.Keeps (i3cPrivateRead d) := by
  unfold i3cPrivateRead
  grind only [Dev.emit_keeps, Dev.pathRead_keeps, Dev.deny_keeps]

/-! ## Machine/Routing -/

@[simp] theorem routeRun_keeps (h : a.Keeps d) (z) : a.Keeps (routeRun z d) := by
  unfold routeRun
  grind only [Dev.opRow_keeps, Dev.engineError_keeps, Dev.routeCount_keeps, Dev.outRow_keeps, Dev.foldl_keeps, Dev.foldl_fst_keeps]

theorem Dev.copyBuf_keeps (h : a.Keeps d) (t src dst slot next) : a.Keeps (d.copyBuf t src dst slot next) := by
  unfold Dev.copyBuf
  grind only [Dev.wingsRd_keeps, Dev.wingsWr_keeps]

theorem Dev.delayStep_keeps (h : a.Keeps d) (t layer) : a.Keeps (d.delayStep t layer) := by
  unfold Dev.delayStep
  grind only [Dev.modFrm_keeps, Dev.modEng_keeps, Dev.modCall_keeps, Dev.routeCount_keeps, Dev.modFrm_wf, Dev.modEng_wf, Dev.modCall_wf,
    Frm.Wf, Frm.wf_emptyLanes, Frm.wf_stopCues, Frm.wf_countStalls, Frm.wf_slewPath, Frm.wf_countLen, Frm.wf_tickInCtrl, Frm.wf_clearHeld,
    Eng.Wf, Call.Wf, Call.wf_dropCache, Call.wf_turnRotor, Call.wf_retireFree, Call.wf_mark, sparseWf_sput, sparseWf_sdel, sparseWf_smod,
    sparseWf_filter, sparseWf_sclear]

theorem Dev.skipLane_keeps (h : a.Keeps d) (lane) : a.Keeps (d.skipLane lane) := by
  unfold Dev.skipLane
  grind only [Dev.modFrm_keeps]

@[simp] theorem place_keeps (h : a.Keeps d) (c) : a.Keeps (place c d) := by
  unfold place
  extract_lets layer key slot x served late d₁ d₂ arr leads
  have h₁ : a.Keeps d₁ := Dev.modEng_wf (Dev.routeCount_keeps (Dev.routeCount_keeps h _ _) _ _) fun w => sparseWf_sdel _ _ w
  have h₂ : a.Keeps d₂ := Dev.foldl_keeps (fun _ _ hd => Dev.ite_keeps hd (Dev.skipLane_keeps hd _)) _ h₁
  clear_value d₁ d₂
  split
  · exact h
  split
  extract_lets d₃ d₄
  have h₃ : a.Keeps d₃ := Dev.routeCount_keeps (Dev.routeCount_keeps (Dev.routeCount_keeps (Dev.routeCount_keeps h₂ _ _) _ _) _ _) _ _
  have h₄ : a.Keeps d₄ := by
    refine Dev.foldl_keeps (fun d e hd => ?_) _ h₃
    exact Dev.modFrm_wf (Dev.copyBuf_keeps hd _ _ _ _ _) fun w => ⟨sparseWf_sput _ _ _ w.1, w.2⟩
  clear_value d₃ d₄ key slot
  apply Dev.foldl_fst_keeps _ _ h₄
  intro y e hy
  obtain ⟨d, n⟩ := y
  have hd : a.Keeps d := hy
  dsimp only
  split
  · have hr := Dev.routeCount_keeps (Dev.delayStep_keeps hd e.2 layer) 3 1
    generalize (d.delayStep e.2 layer).routeCount 3 1 = r at hr ⊢
    split
    · dsimp only
      exact Dev.modFrm_wf (Dev.copyBuf_keeps hr _ _ _ _ _) fun w => ⟨w.1, sparseWf_sput _ _ _ w.2⟩
    · dsimp only
      refine Dev.modEng_wf hr fun w => ?_
      dsimp only [Eng.Wf]
      exact sparseWf_smod _ _ _ _ w
  · exact Dev.skipLane_keeps (Dev.routeCount_keeps hd _ _) _

theorem Dev.moveDelayed_keeps (h : a.Keeps d) (z i pos t) : a.Keeps (d.moveDelayed z i pos t) := by
  unfold Dev.moveDelayed
  grind only [Dev.modFrm_keeps, Dev.copyBuf_keeps, Dev.modFrm_wf, Frm.Wf, Frm.wf_emptyLanes, Frm.wf_stopCues, Frm.wf_countStalls,
    Frm.wf_slewPath, Frm.wf_countLen, Frm.wf_tickInCtrl, Frm.wf_clearHeld, sparseWf_sput, sparseWf_sdel, sparseWf_smod, sparseWf_filter,
    sparseWf_sclear, Dev.foldl_keeps, Dev.foldl_fst_keeps]

theorem Dev.combineRow_keeps (h : a.Keeps d) (z i) : a.Keeps (d.combineRow z i).1 := by
  unfold Dev.combineRow
  grind only [Dev.kRead_keeps, Dev.wingsRd_keeps, Dev.opRow_keeps, Dev.modCall_keeps, Dev.modCall_wf, Call.Wf, Call.wf_dropCache,
    Call.wf_turnRotor, Call.wf_retireFree, Call.wf_mark, sparseWf_sput, sparseWf_sdel, sparseWf_smod, sparseWf_filter, sparseWf_sclear,
    Dev.foldl_keeps, Dev.foldl_fst_keeps]

theorem Dev.missedReturns_keeps (h : a.Keeps d) (layer toks) : a.Keeps (d.missedReturns layer toks).1 := by
  unfold Dev.missedReturns
  grind only [Dev.useFree_keeps, Dev.delayStep_keeps, Dev.foldl_keeps, Dev.foldl_fst_keeps]

@[simp] theorem combineRun_keeps (h : a.Keeps d) (z) : a.Keeps (combineRun z d) := by
  unfold combineRun
  grind only [Dev.missedReturns_keeps, Dev.discardTok_keeps, Dev.moveDelayed_keeps, Dev.rows_keeps, Dev.combineRow_keeps, Dev.foldl_keeps,
    Dev.foldl_fst_keeps]

/-! ## Machine/Sampling -/

theorem Dev.modStep_keeps (h : a.Keeps d) (s f) : a.Keeps (d.modStep s f) := by
  unfold Dev.modStep
  grind only [Dev.modCall_keeps]

theorem Dev.logits_keeps (h : a.Keeps d) (z) : a.Keeps (d.logits z).1 := by
  unfold Dev.logits
  grind only [Dev.opRow_keeps, Dev.foldl_keeps, Dev.foldl_fst_keeps]

theorem Dev.outTokens_keeps (h : a.Keeps d) (z ids) : a.Keeps (d.outTokens z ids) := by
  unfold Dev.outTokens
  grind [Dev.outRow_keeps, Dev.foldl_keeps]

theorem Dev.sampled_keeps (h : a.Keeps d) (t tok greedy) : a.Keeps (d.sampled t tok greedy) := by
  unfold Dev.sampled
  grind only [Dev.modStep_keeps]

@[simp] theorem sampleRun_keeps (h : a.Keeps d) (z) : a.Keeps (sampleRun z d) := by
  unfold sampleRun
  grind [Dev.logits_keeps, Dev.engineError_keeps, Dev.sampled_keeps, Dev.outTokens_keeps, Dev.foldl_keeps]

theorem Dev.verifyStep_keeps (h : a.Keeps d) (rows x) : ∀ e, d.verifyStep rows x = some e → a.Keeps e := by
  unfold Dev.verifyStep
  intro e he
  extract_lets mine at he
  split at he
  · cases he
    exact h
  · obtain ⟨out, _, he⟩ := Option.bind_eq_some_iff.mp he
    cases he
    exact Dev.modStep_keeps (Dev.ite_keeps h (Dev.routeCount_keeps (Dev.routeCount_keeps h _ _) _ _)) _ _

theorem Dev.foldlM_verify_keeps (rows) (l : List Step) (h : a.Keeps d) :
    ∀ e, l.foldlM (fun d x => d.verifyStep rows x) d = some e → a.Keeps e := by
  induction l generalizing d with
  | nil =>
    intro e he
    cases he
    exact h
  | cons x t ih =>
    intro e he
    obtain ⟨d', hd, he⟩ := Option.bind_eq_some_iff.mp he
    exact ih (Dev.verifyStep_keeps h rows x d' hd) e he

@[simp] theorem verifyRun_keeps (h : a.Keeps d) (z) : a.Keeps (verifyRun z d) := by
  have hl := Dev.logits_keeps h z
  unfold verifyRun
  dsimp only
  split
  · exact Dev.engineError_keeps hl _ _ _ _
  case h_2 hr =>
    obtain ⟨rows, _, hr⟩ := Option.bind_eq_some_iff.mp hr
    exact Dev.outTokens_keeps (Dev.foldlM_verify_keeps rows _ hl _ hr) _ _

@[simp] theorem adaptRun_keeps (h : a.Keeps d) (z) : a.Keeps (adaptRun z d) := by
  unfold adaptRun
  extract_lets dIn dOut mat bad d₁ go
  have h₁ : a.Keeps d₁ := Dev.ite_keeps h (Dev.engineError_keeps h _ _ _ _)
  have hgo : a.Keeps go.1 := Dev.foldl_fst_keeps (fun y e hy => by
    split
    · split
      · exact hy
      · split
        · exact hy
        · exact Dev.opRow_keeps (Dev.opRow_keeps hy _ _ _) _ _ _
    · exact hy) _ h₁
  split
  · exact Dev.engineError_keeps hgo _ _ _ _
  · exact Dev.foldl_keeps (fun _ _ hd => Dev.routeCount_keeps (Dev.outRes_keeps hd _ _ _) _ _) _ hgo

theorem Dev.threadRuns_keeps (h : a.Keeps d) (k) : a.Keeps (d.threadRuns k) := by
  unfold Dev.threadRuns
  grind only [Dev.runThread_keeps]

end

/-! ## Every command -/

@[simp] theorem Dev.keeps_self (d : Dev) : d.Keeps d ↔ True := iff_true_intro d.keeps_refl

theorem State.onDev_keeps {s t : State} {f : Dev → Dev} (hf : s.dev.Keeps (f s.dev)) (h : s.onDev f = .next t) : s.dev.Keeps t.dev :=
  (State.onDev_dev h).1 ▸ hf

theorem State.onCue_keeps {s t : State} {wf : Bool} {f : Dev → Dev} (hf : s.dev.Keeps (f s.dev)) (h : s.onCue wf f = .next t) :
    s.dev.Keeps t.dev := by
  unfold State.onCue at h
  split at h
  · exact State.onDev_keeps hf h
  · cases h

theorem State.onHbmCue_keeps {s t : State} {c : HbmCue} {f : Dev → Dev} (hf : s.dev.Keeps (f s.dev))
    (h : (if !c.wf then .refused .illFormed else if !hbmInside c then .fault .noSuchAddress else s.onDev f) =
      (.next t : Host.Outcome State Fault Refusal)) : s.dev.Keeps t.dev := by
  split at h
  · cases h
  · split at h
    · cases h
    · exact State.onDev_keeps hf h

theorem State.inWindow_keeps {s t : State} {a n : Nat} {f : Dev → Dev} (hf : s.dev.Keeps (f s.dev))
    (h : (if inWindow a n then s.onDev f else .fault .noSuchAddress) = (.next t : Host.Outcome State Fault Refusal)) : s.dev.Keeps t.dev := by
  split at h
  · exact State.onDev_keeps hf h
  · cases h

theorem State.kernel_keeps {s t : State} {wf : Bool} {fam k} {run : KRun → Dev → Dev} (hr : ∀ {a d : Dev}, a.Keeps d → ∀ z, a.Keeps (run z d))
    (h : s.onCue wf (Dev.kernel fam k run) = .next t) : s.dev.Keeps t.dev :=
  State.onCue_keeps (Dev.kernel_keeps (Dev.keeps_refl _) _ _ fun z _ hd => hr hd z) h

/-- Every command keeps the stores and the tables canonical. -/
theorem exec_keeps {c : Instr} {s t : State} (h : exec c s = .next t) : s.dev.Keeps t.dev := by
  cases c with
  | requant | out | relay | move | repeatWin | rehearseWin | place | exact | kernelStop | linkSend | linkReceive | linkForward =>
    exact State.onCue_keeps (by simp) h
  | matmul => exact State.kernel_keeps matmulRun_keeps h
  | norm => exact State.kernel_keeps normRun_keeps h
  | rotary => exact State.kernel_keeps rotaryRun_keeps h
  | attnGqa | attnLatent => exact State.kernel_keeps (fun hd => attnRun_keeps hd _) h
  | kvwrite => exact State.kernel_keeps kvwriteRun_keeps h
  | route => exact State.kernel_keeps routeRun_keeps h
  | combine => exact State.kernel_keeps combineRun_keeps h
  | sample => exact State.kernel_keeps sampleRun_keeps h
  | verify => exact State.kernel_keeps verifyRun_keeps h
  | adapt => exact State.kernel_keeps adaptRun_keeps h
  | hbmRd | hbmRdDeliver | hbmWr => exact State.onHbmCue_keeps (by simp) h
  | hostMemWrite | callboardBitSet | hostMemRead => exact State.inWindow_keeps (by simp) h
  | freeze => exact State.onDev_keeps (Dev.ite_keeps (Dev.remoteFreeze_keeps (Dev.keeps_refl _) _ _) (Dev.keeps_refl _)) h
  | thaw => exact State.onDev_keeps (Dev.ite_keeps (Dev.remoteThaw_keeps (Dev.keeps_refl _) _ _) (Dev.keeps_refl _)) h
  | callCntClr | callRouteClr => exact State.onDev_keeps (Dev.ite_keeps (Dev.modCall_wf (Dev.keeps_refl _) id) (Dev.keeps_refl _)) h
  | kvMessageReserved =>
    exact @State.onDev_keeps _ _ (fun d => if kvCodeKnown _ then d else kvReserved d) (Dev.ite_keeps (Dev.keeps_refl _) (by simp)) h
  | kvCmdPark | kvCmdWake | kvCmdFork => exact @State.onDev_keeps _ _ (fun d => d.kvCommand _ _) (Dev.kvCommand_keeps (Dev.keeps_refl _) _ _) h
  | _ => exact State.onDev_keeps (by simp) h

theorem Dev.Keeps.trans {a d e : Dev} (h : a.Keeps d) (k : d.Keeps e) : a.Keeps e := ⟨k.mem ∘ h.mem, k.tables ∘ h.tables⟩

/-- Settles O6: every operation keeps the stores and the tables canonical, and a command is one of them. -/
theorem memoryStaysCanonical : Obligations.MemoryStaysCanonical := fun s _ h =>
  have hk := @step_keeps s.dev.Keeps (fun hs h => hs.trans (exec_keeps h)) _ _ s.dev.keeps_refl h
  ⟨hk.mem, hk.tables⟩

end Sys2Proof.Machine
end

section
/-! PROOF. Records of the error unit (R415 to R418): what a record leaves in the ring and in the stack. -/
namespace Sys2Proof.Machine

/-! ## Tables -/

theorem sgetD_smod_self {α : Type} (m : Sparse α) (k : Nat) (x : α) (f : α → α) : sgetD (smod m k x f) k x = f (sgetD m k x) := by
  simp [sgetD, smod]

theorem sgetD_smod_ne {α : Type} (m : Sparse α) {k j : Nat} (x y : α) (f : α → α) (h : j ≠ k) : sgetD (smod m k x f) j y = sgetD m j y := by
  simp [sgetD, smod, sget_sput_ne m _ h]

/-- An entry of a table in canonical form stands at its key. -/
theorem sget_of_mem {α : Type} (m : Sparse α) {lo k : Nat} {v : α} (w : sparseFrom lo m = true) (h : (k, v) ∈ m) : sget m k = some v := by
  induction m generalizing lo with
  | nil => cases h
  | cons e t ih =>
    obtain ⟨k', v'⟩ := e
    simp only [sparseFrom, Bool.and_eq_true, decide_eq_true_eq] at w
    rcases List.mem_cons.mp h with heq | hmem
    · cases heq
      simp [sget]
    · have hk := ih w.2 hmem
      have hne : k ≠ k' := by
        rintro rfl
        rw [sget_below t w.2 (Nat.lt_succ_self k)] at hk
        cases hk
      simpa [sget, hne] using hk

/-! ## Ring -/

theorem Err.count_ring (e : Err) (n) : (e.count n).ring = e.ring := rfl

/-- The record that gives way in a full ring is a corrected one of it (R418). -/
theorem Err.oldestCorrected_spec {e : Err} {pos seq : Nat} (h : e.oldestCorrected = some (pos, seq)) :
    ∃ x, (pos, x) ∈ e.ring ∧ x.cls = 0 := by
  have hall : ∀ (l : List (Nat × ErrRec)) (b : Option (Nat × Nat)), (∀ p s, b = some (p, s) → ∃ x, (p, x) ∈ e.ring ∧ x.cls = 0) →
      (∀ p ∈ l, p ∈ e.ring) → ∀ p s, l.foldl (fun (best : Option (Nat × Nat)) (p : Nat × ErrRec) =>
        if p.2.cls == 0 then
          match best with
          | some (_, s) => if p.2.seq < s then some (p.1, p.2.seq) else best
          | none => some (p.1, p.2.seq)
        else best) b = some (p, s) → ∃ x, (p, x) ∈ e.ring ∧ x.cls = 0 := by
    intro l
    induction l with
    | nil => exact fun b hb _ => hb
    | cons y t ih =>
      intro b hb hl
      refine ih _ (fun p s hp => ?_) fun p hp => hl p (List.mem_cons_of_mem _ hp)
      have hy := hl y List.mem_cons_self
      grind
  exact hall e.ring none nofun (fun _ h => h) pos seq h

/-- An unconsumed position is not the one that the next record takes (R418). -/
theorem Err.live_ne_tail {e : Err} {p : Nat} (hp : p < 65536) (h : e.live p = true) (hroom : (e.tail - e.head).toNat < 65536) :
    p ≠ e.tail.toNat % 65536 := by
  rintro rfl
  simp only [Err.live, decide_eq_true_eq] at h
  have ht := e.tail.isLt
  have hh := e.head.isLt
  rw [BitVec.toNat_sub] at h hroom
  omega

/-- A record for which the ring has room takes the next position (R418 case 1). -/
theorem Err.pushRing_of_room {e : Err} (r) (h : e.ringRoom = true) :
    e.pushRing r = { e with ring := sput e.ring (e.tail.toNat % 65536) r, tail := e.tail + 1 } := if_pos h

/-- No record of a class other than corrected that is unconsumed gives way (R418). -/
theorem Err.pushRing_keeps_live {e : Err} (r) (w : sparseWf e.ring = true) {p : Nat} {x : ErrRec} (hp : p < 65536) (hx : sget e.ring p = some x)
    (hc : x.cls ≠ 0) (hl : e.live p = true) : sget (e.pushRing r).ring p = some x := by
  by_cases hroom : e.ringRoom = true
  · rw [Err.pushRing_of_room r hroom]
    simpa [sget_sput_ne e.ring r (Err.live_ne_tail hp hl (of_decide_eq_true hroom))] using hx
  · simp only [Err.pushRing, if_neg hroom]
    split
    next pos seq ho =>
      obtain ⟨y, hy, hy0⟩ := Err.oldestCorrected_spec ho
      have hne : p ≠ pos := by
        rintro rfl
        rw [sget_of_mem e.ring w hy] at hx
        cases hx
        exact hc hy0
      rw [sget_sput_ne _ _ hne]
      split <;> exact hx
    · (repeat' split) <;> exact hx

/-! ## Stack -/

theorem Err.pushRing_stack (e : Err) (r) : (e.pushRing r).stack = e.stack := by
  simp only [Err.pushRing]
  (repeat' split) <;> rfl

theorem Err.pushStack_ring (e : Err) (r) : (e.pushStack r).ring = e.ring ∧ (e.pushStack r).tail = e.tail ∧ (e.pushStack r).head = e.head := by
  simp only [Err.pushStack]
  (repeat' split) <;> exact ⟨rfl, rfl, rfl⟩

/-- A record whose entry is free takes it (R417). -/
theorem Err.pushStack_of_free {e : Err} (r) {n : Nat} (hn : e.entryFor (r.cls == 3) = some n) (h : sget e.stack n = none) :
    (e.pushStack r).stack = sput e.stack n (r, false) := by
  simp [Err.pushStack, hn, h]

theorem Err.pushStack_ne {e : Err} (r) {n : Nat} (hn : e.entryFor (r.cls == 3) ≠ some n) : sget (e.pushStack r).stack n = sget e.stack n := by
  simp only [Err.pushStack]
  split
  · rfl
  next i hi =>
    have hne : n ≠ i := by
      rintro rfl
      exact hn hi
    rw [sget_sput_ne _ _ hne]
    (repeat' split) <;> rfl

/-- The lowest free entry of 0 to 13 takes a record that is not fatal (R417). -/
theorem Err.entryFor_lowest {e : Err} {n : Nat} (hn : n < 14) (h : sget e.stack n = none) (hlow : ∀ m < n, sget e.stack m ≠ none) :
    e.entryFor false = some n := by
  have hf : (List.range 14).find? (fun i => (sget e.stack i).isNone) = some n := by
    rw [List.find?_range_eq_some]
    exact ⟨by simp [h], List.mem_range.mpr hn, fun j hj => by simpa [Option.isSome_iff_ne_none] using hlow j hj⟩
  simp [Err.entryFor, hf]

/-- A free entry 14 takes a fatal record (R417). -/
theorem Err.entryFor_fatal {e : Err} (h : sget e.stack 14 = none) : e.entryFor true = some 14 := by
  simp [Err.entryFor, h]

theorem Err.oldest_lt {e : Err} {p n} (h : e.oldest p = some n) : n < 14 := by
  obtain ⟨⟨_, s⟩, hf, rfl⟩ := Option.map_eq_some_iff.mp h
  have hall := foldl_keeps (fun b : Option (Nat × Nat) => ∀ q, b = some q → q.1 < 14) (fun (best : Option (Nat × Nat)) (r : Nat × ErrRec × Bool) =>
    if r.1 < 14 && p r.2 then
      match best with
      | some (_, s) => if r.2.1.seq < s then some (r.1, r.2.1.seq) else best
      | none => some (r.1, r.2.1.seq)
    else best) (fun b r hb => by grind) e.stack none nofun
  exact hall _ hf

/-- Entries 14 and 15 are for fatal records (R417). -/
theorem Err.entryFor_lt {e : Err} {n} (h : e.entryFor false = some n) : n < 14 := by
  simp only [Err.entryFor, Bool.false_eq_true, if_false] at h
  split at h
  next i hi =>
    cases h
    exact List.mem_range.mp (List.mem_of_find?_eq_some hi)
  · split at h
    next i hi =>
      cases h
      exact Err.oldest_lt hi
    · exact Err.oldest_lt h

/-! ## A record -/

/-- The record that a report makes (R415). -/
def Dev.recordOf (d : Dev) (i : ErrIn) (action : Nat) (nested : Bool) : ErrRec :=
  let c := d.coord
  { seq := d.err.nextSeq, cls := i.cls, nested := nested, verdict := i.verdict, action := action, code := i.code,
    kind := i.kind, unit := i.unit, frame := d.frm.frame, slot := i.slot, template := d.template,
    st := d.sys.st.code, cue := i.cue, x := c.x.toNat, y := c.y.toNat, herd := d.herdId.toNat, boots := d.err.boots,
    related := if nested then
        match d.err.fatal, d.err.drain with
        | some (s, _), _ => s
        | none, some s => s
        | none, none => d.err.contain
      else 0,
    session := i.session, dcause := i.dcause, lanes := i.lanes, exposure := i.exposure, detail := i.detail,
    timeUs := d.timeUs }

/-- A record is placed in stack and ring, counted, and numbered (R415, R417, R418). -/
theorem Dev.record_err (d : Dev) (i action nested) : (d.record i action nested).err =
    { ((d.err.pushStack (d.recordOf i action nested)).pushRing (d.recordOf i action nested)).count i.cls with
      nextSeq := ((d.err.pushStack (d.recordOf i action nested)).pushRing (d.recordOf i action nested)).nextSeq + 1
      worst := max ((d.err.pushStack (d.recordOf i action nested)).pushRing (d.recordOf i action nested)).worst i.cls } := by
  have hold (c : Prop) [Decidable c] (x : Dev) (f : Call → Call) : (if c then x.modCall f else x).err = x.err := by split <;> rfl
  simp only [Dev.record, Dev.ethSend_err, Dev.settle_err, Dev.event_err, hold, Dev.modErr_err]
  rfl

theorem Dev.record_evtStatus (d : Dev) (i action nested) :
    ∃ b, (d.record i action nested).host.evtStatus = b ||| BitVec.ofNat 10 (2 ^ Evt.error.bit) := by
  unfold Dev.record
  dsimp only
  rw [Dev.ethSend_frame, Dev.settle_frame]
  exact ⟨_, Dev.event_status _ _⟩

/-- Placing a record counts displaced and lost records alone. -/
theorem Err.cnt_of_push (e : Err) (r) {n : Nat} (hn : n ≤ 3) : sgetD ((e.pushStack r).pushRing r).cnt n 0 = sgetD e.cnt n 0 := by
  have h5 : n ≠ 5 := by omega
  have h7 : n ≠ 7 := by omega
  have hcount : ∀ e : Err, sgetD (e.count 5).cnt n 0 = sgetD e.cnt n 0 ∧ sgetD (e.count 7).cnt n 0 = sgetD e.cnt n 0 := fun e =>
    ⟨sgetD_smod_ne _ _ _ _ h5, sgetD_smod_ne _ _ _ _ h7⟩
  have hs : sgetD (e.pushStack r).cnt n 0 = sgetD e.cnt n 0 := by
    simp only [Err.pushStack]
    (repeat' split) <;> simp [hcount]
  rw [← hs]
  simp only [Err.pushRing]
  (repeat' split) <;> simp [hcount]

/-- Settles O18: where a record is placed, by `Err.pushRing` and `Err.pushStack`. -/
theorem ringKeepsUncorrectedRecords : Obligations.RingKeepsUncorrectedRecords := by
  intro d i action nested hi w r
  obtain ⟨hring, htail, hhead⟩ := d.err.pushStack_ring (d.recordOf i action nested)
  have herr : r.err = _ := d.record_err i action nested
  have hcls : (d.recordOf i action nested).cls = i.cls := rfl
  have hstack : r.err.stack = (d.err.pushStack (d.recordOf i action nested)).stack := by rw [herr]; exact Err.pushRing_stack _ _
  have hfr : r.mem = d.mem ∧ r.frm = d.frm ∧ r.tile = d.tile := by
    rw [show r = _ from d.record_frame i action nested]
    exact ⟨rfl, rfl, rfl⟩
  refine ⟨d.record_nextSeq _ _ _, ?_, ?_, ?_, hfr.1, hfr.2.1, hfr.2.2, fun hroom => ?_, fun p x hp hx hc hl _ => ?_, fun n hn h hlow hc => ?_,
    fun h hc => ?_, fun hc => ?_⟩
  · rw [herr]
    exact Nat.le_max_right _ _
  · rw [herr]
    exact (sgetD_smod_self _ _ _ _).trans (congrArg bump (Err.cnt_of_push d.err _ hi))
  · obtain ⟨b, hb⟩ := d.record_evtStatus i action nested
    simp [r, hb, Evt.bit]
  · have hr : (d.err.pushStack (d.recordOf i action nested)).ringRoom = true := by simpa [Err.ringRoom, htail, hhead] using hroom
    rw [herr, Err.pushRing_of_room _ hr]
    refine ⟨congrArg (· + 1) htail, d.recordOf i action nested, ?_, rfl, rfl, rfl, rfl, rfl, rfl, rfl, rfl⟩
    simp only [Err.count_ring, htail, sget_sput_self]
  · have hl' : (d.err.pushStack (d.recordOf i action nested)).live p = true := by simpa [Err.live, htail, hhead] using hl
    rw [herr]
    exact Err.pushRing_keeps_live _ (hring ▸ w) hp (hring ▸ hx) hc hl'
  · have he : d.err.entryFor ((d.recordOf i action nested).cls == 3) = some n := by
      rw [hcls, beq_eq_false_iff_ne.mpr hc]
      exact Err.entryFor_lowest hn h hlow
    rw [hstack, Err.pushStack_of_free _ he h]
    exact ⟨_, sget_sput_self _ _ _, rfl, rfl⟩
  · have he : d.err.entryFor ((d.recordOf i action nested).cls == 3) = some 14 := by
      rw [hcls, beq_iff_eq.mpr hc]
      exact Err.entryFor_fatal h
    rw [hstack, Err.pushStack_of_free _ he h]
    exact ⟨_, sget_sput_self _ _ _, rfl, rfl⟩
  · have hne : ∀ n, 14 ≤ n → d.err.entryFor ((d.recordOf i action nested).cls == 3) ≠ some n := fun n hn he => by
      rw [hcls, beq_eq_false_iff_ne.mpr hc] at he
      exact absurd (Err.entryFor_lt he) (by omega)
    rw [hstack]
    exact ⟨Err.pushStack_ne _ (hne 14 (by omega)), Err.pushStack_ne _ (hne 15 (by omega))⟩

end Sys2Proof.Machine
end

section
/-! PROOF. Starts, trips and fatal errors (R410 to R418, R439, R440, R449, R450, R489). -/
namespace Sys2Proof.Machine

/-! ## What begins a start-up -/

/-- With every reset input released, all rails good and no trip in force, the start-up begins (R489). -/
theorem Dev.tryStart_eq {d : Dev} (t b) (hoff : d.sys.st ≠ .off) (hbo : d.sys.st ≠ .blackout) (hrst : d.sys.sysRst = false)
    (hp : d.sys.prsnt = true) (hpg : d.sys.pg = 0x7F) (ht : d.sys.thermTripN = false) : d.tryStart t b = d.startUp t b := by
  simp [Dev.tryStart, *]

/-- Settles O8: each event's arm comes to `tryStart` with its own input released. -/
theorem startEventsBeginTheStartUp : Obligations.StartEventsBeginTheStartUp := by
  refine ⟨fun s t b hoff hrst hp hpg ht => ?_, fun s t b hrst hoff hbo hp hpg ht => ?_, fun s n t b hn hp hoff hbo hrst hpg ht => ?_,
    fun s t b hpg hoff hbo hrst hp ht => ?_, fun s t b ht hl hoff hbo hrst hp hpg => ?_, fun s t b hl hrst hp => ?_⟩ <;>
    refine State.gives_onDev rfl ?_
  · rw [vddAonRise, if_pos hoff]
    exact Dev.tryStart_eq _ _ (by simp [Dev.aonUp]) (by simp [Dev.aonUp]) (by simpa [Dev.aonUp] using hrst) (by simpa [Dev.aonUp] using hp)
      (by simp [Dev.aonUp, hpg]) (by simpa [Dev.aonUp] using ht)
  · simp only [sysRstNRelease, hrst, Bool.not_true, Bool.false_eq_true, if_false]
    exact Dev.tryStart_eq _ _ hoff hbo rfl hp hpg ht
  · simp only [prsntNChange, hoff, Nat.not_lt.mpr hn, hp, beq_iff_eq, Bool.true_eq_false, if_false, if_true]
    exact Dev.tryStart_eq _ _ hoff hbo hrst rfl hpg ht
  · simp only [powerGoodRestored, beq_iff_eq, hpg, hoff, if_false]
    exact Dev.tryStart_eq _ _ hoff hbo hrst hp rfl ht
  · simp only [tripRelease, ht, hl, Bool.not_true, Bool.false_and, Bool.or_self, Bool.false_eq_true, if_false]
    exact Dev.tryStart_eq _ _ hoff hbo hrst hp hpg rfl
  · simp [tripRelease, hl, hrst, hp]

end Sys2Proof.Machine
end

section
/-! PROOF. Temperature bands (R429 to R431). -/
namespace Sys2Proof.Machine

theorem risingBand_le (t) : risingBand t ≤ 3 := by unfold risingBand; split_ifs <;> omega

theorem nextBand_le {cur : Nat} (t) (h : cur ≤ 3) : nextBand cur t ≤ 3 := by
  have := risingBand_le (t + 30)
  simp only [nextBand]
  split_ifs <;> omega

/-- A band falls only past the hysteresis (R430). -/
theorem nextBand_falls {cur : Nat} {t : Int} (h : nextBand cur t < cur) : t + 30 < bandLower cur - 20 := by
  simp only [nextBand] at h
  split_ifs at h with h₁ h₂ h₃
  · omega
  · exact h₃
  · omega
  · omega

/-- What one flock's pending band taking effect does. -/
def Thm.applyBand (t : Thm) (f : Nat) : Thm :=
  if sgetD t.band f 0 = sgetD t.pendBand f 0 then t
  else { t with band := sput t.band f (sgetD t.pendBand f 0), bandChanges := smod t.bandChanges f 0 (bumpW 16) }

theorem Thm.applyBands_eq (t : Thm) : t.applyBands = (List.range 64).foldl Thm.applyBand t := rfl

theorem Thm.applyBand_pendBand (t : Thm) (f) : (t.applyBand f).pendBand = t.pendBand := by
  unfold Thm.applyBand
  split <;> rfl

theorem Thm.applyBand_band (t : Thm) (f j) : sgetD (t.applyBand f).band j 0 = if j = f then sgetD t.pendBand f 0 else sgetD t.band j 0 := by
  unfold Thm.applyBand
  split
  next h =>
    split
    next hj => rw [hj, h]
    · rfl
  · simp only [sgetD, sget_sput]
    split <;> rfl

theorem Thm.foldl_applyBand (l : List Nat) (t : Thm) : (l.foldl Thm.applyBand t).pendBand = t.pendBand ∧
    ∀ j, sgetD (l.foldl Thm.applyBand t).band j 0 = if j ∈ l then sgetD t.pendBand j 0 else sgetD t.band j 0 := by
  induction l generalizing t with
  | nil => exact ⟨rfl, fun j => by simp⟩
  | cons f l ih =>
    obtain ⟨hp, hb⟩ := ih (t.applyBand f)
    refine ⟨hp.trans (t.applyBand_pendBand f), fun j => ?_⟩
    rw [List.foldl_cons, hb j, t.applyBand_pendBand, t.applyBand_band]
    by_cases hj : j = f
    · simp [hj]
    · simp [hj, List.mem_cons]

theorem Thm.applyBands_pendBand (t : Thm) : t.applyBands.pendBand = t.pendBand := by
  rw [Thm.applyBands_eq, (Thm.foldl_applyBand _ t).1]

/-- The pending bands of all flocks take effect (R430). -/
theorem Thm.applyBands_band (t : Thm) {f : Nat} (h : f < 64) : sgetD t.applyBands.band f 0 = sgetD t.applyBands.pendBand f 0 := by
  rw [Thm.applyBands_pendBand, Thm.applyBands_eq, (Thm.foldl_applyBand _ t).2, if_pos (List.mem_range.mpr h)]

theorem Dev.applyBands_thm (d : Dev) : d.applyBands.thm = d.thm.applyBands := by simp [Dev.applyBands]

/-- Of the tile block a band change touches the frames since (R94). -/
theorem Dev.applyBands_frame (d : Dev) (x : Thm) (y : Sparse (Nat × Nat)) :
    { d.applyBands with thm := x, tile := { d.applyBands.tile with bandSince := y } } = { d with thm := x, tile := { d.tile with bandSince := y } } := by
  simp [Dev.applyBands, Dev.modTile, Dev.modThm]

/-- The oscillators in order, each with its reading (R429). -/
def Thm.readAll (temps : List Int) (x : Thm) : Thm :=
  (List.range 64).foldl (fun m f => match temps[f]? with | some v => m.oscRead f v | none => m) x

/-- Settles O13: the band after a reading by `nextBand`, the effect on the flocks by `Thm.applyBands`. -/
theorem bandsFollowTheReadings : Obligations.BandsFollowTheReadings := by
  refine ⟨fun cur t h => ⟨nextBand_le t h, fun hr => by simp [nextBand, hr], nextBand_falls⟩, fun s temps hk => ⟨fun hf => ?_, fun hf => ?_⟩⟩
  · refine State.gives_onDev rfl ?_
    simp only [bandReading, hk, hf, if_true]
    rfl
  · have hb : bandReading temps s.dev = (s.dev.modThm (Thm.readAll temps)).applyBands := by
      simp only [bandReading, hk, hf, if_true, Bool.false_eq_true, if_false]
      rfl
    refine ⟨_, State.gives_onDev rfl hb, ?_, fun f h => ?_, Dev.applyBands_frame _ _ _⟩
    · rw [Dev.applyBands_thm, Thm.applyBands_pendBand]
      rfl
    · rw [Dev.applyBands_thm]
      exact Thm.applyBands_band _ h

end Sys2Proof.Machine
end

section
/-! PROOF. The housekeeping converter and the AVSBus (R424 to R427, R442 to R447). -/
namespace Sys2Proof.Machine

/-! ## Requests of the converter -/

theorem Hkc.useRef_spec (h : Hkc) (r : Nat) : (h.useRef r).curRef = r ∧ (h.useRef r).burst = h.burst ∧ (h.useRef r).aborts = h.aborts ∧
    (h.useRef r).urgChan = h.urgChan ∧ (h.useRef r).acc = h.acc ∧ (h.useRef r).min = h.min ∧ (h.useRef r).max = h.max ∧
    (h.useRef r).done = h.done ∧ (h.useRef r).clipped = h.clipped := by
  unfold Hkc.useRef
  split
  next hr => exact ⟨hr, rfl, rfl, rfl, rfl, rfl, rfl, rfl, rfl⟩
  · exact ⟨rfl, rfl, rfl, rfl, rfl, rfl, rfl, rfl, rfl⟩

theorem Hkc.start_of_busy {h : Hkc} (hb : h.burst ≠ none) : h.start = h := if_pos (Option.isSome_iff_ne_none.mpr hb)

/-- EXT_VREF out of its window refuses a burst on it (R444). -/
theorem Hkc.start_of_refused {h : Hkc} (hb : h.burst = none) (hr : h.ref = 1) (he : h.extOk = false) : h.start = { h with err := true } := by
  simp [Hkc.start, hb, hr, he]

/-- A host burst begins with the values latched at its START (R443). -/
theorem Hkc.start_spec {h : Hkc} (hb : h.burst = none) (hr : h.ref ≠ 1 ∨ h.extOk = true) :
    h.start.burst = some ⟨h.chan.toNat, h.n.toNat, h.ref.toNat⟩ ∧ h.start.aborts = 0 ∧ h.start.urgChan = h.urgChan ∧ h.start.acc = h.acc := by
  have heq : h.start = Hkc.useRef { h with burst := some ⟨h.chan.toNat, h.n.toNat, h.ref.toNat⟩, aborts := 0 } h.ref.toNat := by
    have hok : ¬((decide (h.ref = 1) && !h.extOk) = true) := fun hc => by
      obtain ⟨h₁, h₂⟩ := Bool.and_eq_true_iff.mp hc
      rcases hr with hr | hr
      · exact hr (of_decide_eq_true h₁)
      · simp [hr] at h₂
    rw [Hkc.start, hb, if_neg (by simp), if_neg hok]
  obtain ⟨-, hburst, haborts, hurg, hacc, -⟩ := Hkc.useRef_spec { h with burst := some ⟨h.chan.toNat, h.n.toNat, h.ref.toNat⟩, aborts := 0 } h.ref.toNat
  rw [heq]
  exact ⟨hburst, haborts, hurg, hacc⟩

/-- An urgent request aborts a host burst at most twice (R445). -/
theorem Hkc.urgent_spec {h : Hkc} (hu : h.urg = none) : h.urgent.urg = some h.urgChan.toNat ∧ h.urgent.burst = h.burst ∧
    h.urgent.aborts = if h.burst ≠ none ∧ h.aborts < 2 then h.aborts + 1 else h.aborts := by
  have heq : h.urgent = { h.abortBurst with urg := some h.urgChan.toNat } := by
    have hc : h.abortBurst.urgChan = h.urgChan := by
      unfold Hkc.abortBurst
      split <;> rfl
    simp [Hkc.urgent, hu]
  rw [heq]
  refine ⟨rfl, ?_⟩
  simp only [Hkc.abortBurst, Bool.and_eq_true, Option.isSome_iff_ne_none, decide_eq_true_eq]
  split <;> exact ⟨rfl, rfl⟩

/-! ## Results -/

/-- What a burst on a channel converts as: a reserved channel 0 V (R442). -/
theorem hostBurstDone_eq {d : Dev} {b : Burst} {q : BurstReq} (hk : d.hkRuns = true) (hs : d.hkc.settled = true) (hq : d.hkc.burst = some q) :
    hostBurstDone b d = d.modHkc fun h =>
      Hkc.useRef { h with acc := (if 29 ≤ q.chan then zeroBurst else b).sum % 2 ^ 26, min := (if 29 ≤ q.chan then zeroBurst else b).min,
                          max := (if 29 ≤ q.chan then zeroBurst else b).max, done := true, burst := none,
                          clipped := (if 29 ≤ q.chan then zeroBurst else b).min == 0 || (if 29 ≤ q.chan then zeroBurst else b).max == 4095 } 0 := by
  simp [hostBurstDone, hk, hs, hq, Dev.modHkc]

theorem urgentDone_eq {d : Dev} {b : Burst} {ch : Nat} (hk : d.hkRuns = true) (hs : d.hkc.settled = true) (hu : d.hkc.urg = some ch) :
    urgentDone b d = d.modHkc fun h =>
      { h with urgAcc := (if 29 ≤ ch then zeroBurst else b).sum % 2 ^ 26, urgMin := (if 29 ≤ ch then zeroBurst else b).min,
               urgMax := (if 29 ≤ ch then zeroBurst else b).max, urgDone := true, urg := none } := by
  simp [urgentDone, hk, hs, hu]

/-! ## AVSBus -/

theorem Dev.modThm_congr {d : Dev} {f g : Thm → Thm} (h : f d.thm = g d.thm) : d.modThm f = d.modThm g := congrArg (fun x => { d with thm := x }) h

/-- A reading of the poll, before the tenth forms its average (R424). -/
theorem avsPoll_short {d : Dev} {mv amps t} (hc : d.coreRuns = true) (hn : d.thm.samples.length < 9) :
    avsPoll mv amps t d = (d.at_ t).modThm fun m => { m with pwrMv := mv, pwrAmps := amps, samples := d.thm.samples ++ [mv.toNat * amps.toNat] } := by
  simp [avsPoll, hc, Dev.modThm, hn]

/-- The tenth reading forms the 1 ms average and keeps the largest (R424). -/
theorem avsPoll_tenth {d : Dev} {mv amps t} (hc : d.coreRuns = true) (hn : 9 ≤ d.thm.samples.length) :
    ∃ w, avsPoll mv amps t d = (d.at_ t).modThm fun m =>
      { m with pwrMv := mv, pwrAmps := amps, samples := [], winStart := t, avgW := w, maxW := max d.thm.maxW w } := by
  have h : ¬(d.thm.samples ++ [mv.toNat * amps.toNat]).length < 10 := by
    rw [List.length_append, List.length_singleton]
    omega
  rw [avsPoll, hc, Bool.not_true, if_neg Bool.false_ne_true]
  refine ⟨min 4095 (rne (((d.thm.samples ++ [mv.toNat * amps.toNat]).sum : Rat) / (1000 * (d.thm.samples ++ [mv.toNat * amps.toNat]).length))).toNat, ?_⟩
  exact Dev.modThm_congr (if_neg h)

/-- Settles O15, command by command. -/
theorem converterAndSupplyCommandsRun : Obligations.ConverterAndSupplyCommandsRun := by
  refine ⟨⟨fun s n u hup hb hr => ?_, fun s n u hup hb hr he => ?_, fun s n u hup hb => ?_, fun s n u hup hu => ?_, fun s sel hup => ?_,
    fun s b q hk hs hq => ?_, fun s b hs => ?_, fun s b ch hk hs hu => ?_, fun s hk => ?_⟩, fun s mv a t hc => ?_, fun s mv hc hs => ?_,
    fun s hup => ?_⟩
  · have hq : hkcStart n u s.dev = s.dev.modHkc fun h => (h.ctrlFields n u).start := if_pos hup
    obtain ⟨hburst, haborts, hurg, hacc⟩ := @Hkc.start_spec (s.dev.hkc.ctrlFields n u) hb hr
    refine ⟨_, State.gives_onDev rfl hq, ?_, haborts, hurg, hacc, rfl⟩
    simpa [Hkc.ctrlFields] using hburst
  · have hq : hkcStart n u s.dev = s.dev.modHkc fun h => (h.ctrlFields n u).start := if_pos hup
    have hst := @Hkc.start_of_refused (s.dev.hkc.ctrlFields n u) hb hr he
    refine ⟨_, State.gives_onDev rfl hq, ?_, ?_, rfl⟩
    · exact congrArg Hkc.err hst
    · exact (congrArg Hkc.burst hst).trans hb
  · refine State.gives_onDev rfl ?_
    rw [hkcStart, if_pos hup]
    exact congrArg (fun h => { s.dev with hkc := h }) (@Hkc.start_of_busy (s.dev.hkc.ctrlFields n u) hb)
  · have hq : hkcUrgent n u s.dev = s.dev.modHkc fun h => (h.ctrlFields n u).urgent := if_pos hup
    obtain ⟨hurg, hburst, haborts⟩ := @Hkc.urgent_spec (s.dev.hkc.ctrlFields n u) hu
    exact ⟨_, State.gives_onDev rfl hq, hurg, hburst, haborts, rfl⟩
  · refine State.gives_onDev rfl ?_
    by_cases h : sel = 3
    · simp [hkcRefWrite, h]
    · simp [hkcRefWrite, h, hup, Dev.modHkc]
  · obtain ⟨hcur, hburst, -, -, hacc, hmin, hmax, hdone, hclip⟩ := Hkc.useRef_spec { s.dev.hkc with
      acc := (if 29 ≤ q.chan then zeroBurst else b).sum % 2 ^ 26, min := (if 29 ≤ q.chan then zeroBurst else b).min,
      max := (if 29 ≤ q.chan then zeroBurst else b).max, done := true, burst := none,
      clipped := (if 29 ≤ q.chan then zeroBurst else b).min == 0 || (if 29 ≤ q.chan then zeroBurst else b).max == 4095 } 0
    exact ⟨_, State.gives_onDev rfl (hostBurstDone_eq hk hs hq), hacc, hmin, hmax, hdone, hburst, hcur, hclip, rfl⟩
  · exact ⟨State.gives_onDev rfl (by simp [hostBurstDone, hs]), State.gives_onDev rfl (by simp [urgentDone, hs])⟩
  · exact State.gives_onDev rfl (urgentDone_eq hk hs hu)
  · exact State.gives_onDev rfl (if_pos hk)
  · by_cases hn : s.dev.thm.samples.length < 9
    · refine ⟨_, State.gives_onDev rfl (avsPoll_short hc hn), rfl, rfl, Nat.le_refl _, fun _ => ⟨rfl, rfl⟩, fun h => absurd hn (Nat.not_lt.mpr h), rfl⟩
    · obtain ⟨w, hw⟩ := @avsPoll_tenth s.dev mv a t hc (Nat.not_lt.mp hn)
      exact ⟨_, State.gives_onDev rfl hw, rfl, rfl, Nat.le_max_left _ _, fun h => absurd h hn, fun _ => ⟨rfl, Nat.le_max_right _ _⟩, rfl⟩
  · refine ⟨fun h₁ h₂ => State.gives_onDev rfl ?_, fun hd hf => State.gives_onDev rfl ?_, fun hd hf => ?_⟩
    · simp [avsReadback, hc, hs, h₁, h₂, Dev.modThm]
    · have hf' : s.dev.thm.avsFails + 1 < 3 := by omega
      simp [avsReadback, hc, hs, hd, hf', Dev.modThm, Dev.emit]
    · have hf' : ¬s.dev.thm.avsFails + 1 < 3 := by omega
      have heq : avsReadback mv s.dev = s.dev.modThm fun m => { m.count 5 with avsErr := true, avsFails := 0, avsStopped := true } := by
        simp [avsReadback, hc, hs, hd, hf']
      exact ⟨_, State.gives_onDev rfl heq, rfl, rfl, rfl, rfl⟩
  · exact State.gives_onDev rfl (if_pos hup)

end Sys2Proof.Machine
end

section
/-! PROOF. Firmware updates (R453): what an append, a commit and a cancel write. -/
namespace Sys2Proof.Machine

theorem Sec.fwFields_of_units (x : Sec) (k : Bool) {u : BitVec 9} (h1 : 1 ≤ u.toNat) (h2 : u.toNat ≤ 256) :
    x.fwFields k u = { x with fwKind := k, fwUnits := u } := by simp [Sec.fwFields, h1, h2]

/-- The slot of a kind that did not boot takes the image; DONE and CAUSE 0. -/
def Sec.programmed (x : Sec) (k : Bool) : Sec :=
  let s := { x with fwKind := k, fwDone := true, fwCause := 0 }
  if k then (if x.smSlot then { s with smA := x.fwImage } else { s with smB := x.fwImage })
  else if x.boSlot then { s with boA := x.fwImage } else { s with boB := x.fwImage }

theorem Sec.fwRefusal_kind (x : Sec) (k k' v : Bool) : Sec.fwRefusal { x with fwKind := k' } k v = x.fwRefusal k v := rfl

theorem fwCommit_of_zero {d : Dev} {k v : Bool} (hb : d.barOk = true) (h : d.sec.fwRefusal k v = 0) :
    fwCommit k v d = d.modSec (·.programmed k) := by
  have h' : Sec.fwRefusal { d.sec with fwKind := k } k v = 0 := h
  simp only [fwCommit, hb, Dev.modSec, h', Sec.programmed]
  rfl

theorem fwCommit_of_refused {d : Dev} {k v : Bool} (hb : d.barOk = true) (h : d.sec.fwRefusal k v ≠ 0) :
    fwCommit k v d = d.modSec fun s => { s with fwKind := k, fwErr := true, fwCause := d.sec.fwRefusal k v } := by
  obtain ⟨n, hn⟩ := Nat.exists_eq_succ_of_ne_zero h
  have h' : Sec.fwRefusal { d.sec with fwKind := k } k v = n + 1 := hn
  simp only [fwCommit, hb, Dev.modSec, h', hn]
  rfl

theorem Sec.programmed_slots (x : Sec) (k : Bool) :
    (if k then (if x.smSlot then (x.programmed k).smA else (x.programmed k).smB)
      else if x.boSlot then (x.programmed k).boA else (x.programmed k).boB) = x.fwImage ∧
    (if x.smSlot then (x.programmed k).smB = x.smB else (x.programmed k).smA = x.smA) ∧
    (if x.boSlot then (x.programmed k).boB = x.boB else (x.programmed k).boA = x.boA) := by
  unfold Sec.programmed
  cases k <;> cases x.smSlot <;> cases x.boSlot <;> exact ⟨rfl, rfl, rfl⟩

theorem Sec.programmed_marks (x : Sec) (k : Bool) :
    (x.programmed k).fwDone = true ∧ (x.programmed k).fwCause = 0 ∧ (x.programmed k).buffer = x.buffer := by
  unfold Sec.programmed
  cases k <;> cases x.smSlot <;> cases x.boSlot <;> exact ⟨rfl, rfl, rfl⟩

theorem Sec.fwRefusal_dark {x : Sec} (v : Bool) (h : x.st = .dark) : x.fwRefusal true v = 1 := by
  have hk : x.kindOk true = false := by simp [Sec.kindOk, h]
  simp [Sec.fwRefusal, hk]

/-- Settles O21, by what each of the three commands writes. -/
theorem firmwareUpdatesFillBufferAndProgram : Obligations.FirmwareUpdatesFillBufferAndProgram := by
  refine ⟨fun s k u hb hk h1 h2 hn => State.gives_onDev rfl ?_, fun s k u hb h1 h2 h => State.gives_onDev rfl ?_, fun s k v hb => ?_,
    fun x v h => Sec.fwRefusal_dark v h, fun s hb => State.gives_onDev rfl (if_pos hb)⟩
  · have hk' : Sec.kindOk { s.dev.sec with fwKind := k, fwUnits := u } k = true := hk
    have hn' : ¬(u.toNat = 0 ∨ 4095 < s.dev.sec.buffer.length / 4096 + u.toNat) := by omega
    simp only [fwAppend, hb, Dev.modSec, Sec.fwFields_of_units _ k h1 h2, hk']
    simp [hn', Sec.winBytes]
  · simp only [fwAppend, hb, Dev.modSec, Dev.fwErr, Sec.fwFields_of_units _ k h1 h2]
    cases hk : s.dev.sec.kindOk k with
    | false =>
      have hk' : Sec.kindOk { s.dev.sec with fwKind := k, fwUnits := u } k = false := hk
      simp [hk']
    | true =>
      have hk' : Sec.kindOk { s.dev.sec with fwKind := k, fwUnits := u } k = true := hk
      have hn : 4095 < s.dev.sec.buffer.length / 4096 + u.toNat := h.resolve_left (by simp [hk])
      simp [hk', hn]
  · obtain ⟨himage, hsm, hbo⟩ := s.dev.sec.programmed_slots k
    obtain ⟨hdone, hcause, hbuf⟩ := s.dev.sec.programmed_marks k
    by_cases h : s.dev.sec.fwRefusal k v = 0
    · exact ⟨_, State.gives_onDev rfl (fwCommit_of_zero hb h), fun _ => ⟨hdone, hcause, himage⟩, fun h' => absurd h h', hsm, hbo, hbuf, rfl⟩
    · refine ⟨_, State.gives_onDev rfl (fwCommit_of_refused hb h), fun h' => absurd h' h, fun _ => ⟨rfl, rfl, rfl, rfl, rfl, rfl⟩, ?_, ?_, rfl, rfl⟩
      · split <;> rfl
      · split <;> rfl

end Sys2Proof.Machine
end

section
/-! PROOF. What each operation of the device leaves unchanged, block by block. -/
namespace Sys2Proof.Machine

section
@[simp] theorem Dev.ite_sys (c : Prop) [Decidable c] (a b : Dev) : (if c then a else b).sys = if c then a.sys else b.sys :=
  apply_ite Dev.sys c a b
@[simp] theorem Dev.fst_ite_sys {α : Type} (c : Prop) [Decidable c] (a b : Dev × α) :
    (if c then a else b).1.sys = if c then a.1.sys else b.1.sys := apply_ite (fun z : Dev × α => z.1.sys) c a b
@[simp] theorem Dev.foldl_sys {α : Type} {f : Dev → α → Dev} (h : ∀ d x, (f d x).sys = d.sys) (l : List α) (d : Dev) : (l.foldl f d).sys = d.sys :=
  Machine.foldl_keeps (fun e => e.sys = d.sys) f (fun e x he => (h e x).trans he) l d rfl
variable (d : Dev)
@[simp] theorem Dev.sendMsix_sys (v) : (d.sendMsix v).sys = d.sys := by simp [Dev.sendMsix]
@[simp] theorem Dev.fireVector_sys (v) : (d.fireVector v).sys = d.sys := by simp [Dev.fireVector]
@[simp] theorem Dev.event_sys (e) : (d.event e).sys = d.sys := by simp [Dev.event]
@[simp] theorem Dev.hbmWr_sys (a bs) : (d.hbmWr a bs).sys = d.sys := by simp [Dev.hbmWr]
@[simp] theorem Dev.setSes_sys (s off v) : (d.setSes s off v).sys = d.sys := by simp [Dev.setSes]
@[simp] theorem Dev.setSesF_sys (s off lo w x) : (d.setSesF s off lo w x).sys = d.sys := by simp [Dev.setSesF]
@[simp] theorem Dev.setSstate_sys (s v) : (d.setSstate s v).sys = d.sys := by simp [Dev.setSstate]
@[simp] theorem Dev.ethSend_sys (bs) : (d.ethSend bs).sys = d.sys := by simp [Dev.ethSend]
@[simp] theorem Dev.exactFail_sys (cause) : (d.exactFail cause).sys = d.sys := by unfold Dev.exactFail; split <;> simp
@[simp] theorem Dev.exactDiscard_sys (t) : (d.exactDiscard t).sys = d.sys := by unfold Dev.exactDiscard; split <;> simp
@[simp] theorem Dev.discardStep_sys (s cause) : (d.discardStep s cause).sys = d.sys := by simp [Dev.discardStep]
@[simp] theorem Dev.discardAll_sys (cause) : (d.discardAll cause).sys = d.sys := by simp [Dev.discardAll]
@[simp] theorem Dev.commitHistory_sys : d.commitHistory.sys = d.sys := by simp [Dev.commitHistory]
@[simp] theorem Dev.finishDrain_sys : d.finishDrain.sys = d.sys := by simp [Dev.finishDrain]
@[simp] theorem Dev.linkLoss_sys : d.linkLoss.sys = d.sys := by simp [Dev.linkLoss]
@[simp] theorem Dev.histEvent_sys (kind unit score threshold) : (d.histEvent kind unit score threshold).1.sys = d.sys := by simp [Dev.histEvent]
@[simp] theorem Dev.histPermanent_sys (kind unit) : (d.histPermanent kind unit).sys = d.sys := by simp [Dev.histPermanent]
@[simp] theorem Dev.dmaCount_sys (n k) : (d.dmaCount n k).sys = d.sys := by simp [Dev.dmaCount]
@[simp] theorem Dev.callCount_sys (n) : (d.callCount n).sys = d.sys := by simp [Dev.callCount]
@[simp] theorem Dev.pinAdapter_sys (s n) : (d.pinAdapter s n).sys = d.sys := by simp [Dev.pinAdapter]
@[simp] theorem Dev.unpinAdapter_sys (s) : (d.unpinAdapter s).sys = d.sys := by simp [Dev.unpinAdapter]
@[simp] theorem Dev.writeRecord_sys (s accepted r) : (d.writeRecord s accepted r).sys = d.sys := by unfold Dev.writeRecord; (repeat' split) <;> simp
@[simp] theorem Dev.dropPairs_sys (x) : (d.dropPairs x).sys = d.sys := by simp [Dev.dropPairs]
@[simp] theorem Dev.closeCall_sys (s) : (d.closeCall s).sys = d.sys := by simp [Dev.closeCall]
@[simp] theorem Dev.moveHead_sys (s m) : (d.moveHead s m).sys = d.sys := by unfold Dev.moveHead; (repeat' split) <;> simp
@[simp] theorem Dev.endCall_sys (s st cause m) : (d.endCall s st cause m).sys = d.sys := by simp [Dev.endCall]
@[simp] theorem Dev.modLink_sys (n f) : (d.modLink n f).sys = d.sys := by simp [Dev.modLink]
@[simp] theorem Dev.sendUnit_sys (link u) : (d.sendUnit link u).sys = d.sys := by simp [Dev.sendUnit]
@[simp] theorem Dev.flood_sys (u) : (d.flood u).sys = d.sys := by simp [Dev.flood]
@[simp] theorem Dev.precFlag_sys (t bit) : (d.precFlag t bit).sys = d.sys := by simp [Dev.precFlag]
@[simp] theorem Dev.precCount_sys (tile n) : (d.precCount tile n).sys = d.sys := by simp [Dev.precCount]
@[simp] theorem Dev.contribute_sys (c) : (d.contribute c).sys = d.sys := by simp [Dev.contribute]
@[simp] theorem Dev.unserved_sys (r) : (d.unserved r).sys = d.sys := by simp [Dev.unserved]
@[simp] theorem Dev.clamped_sys (tile t) : (d.clamped tile t).sys = d.sys := by simp [Dev.clamped]
@[simp] theorem Dev.markReplay_sys (t) : (d.markReplay t).sys = d.sys := by simp [Dev.markReplay]
@[simp] theorem Dev.learnTrouble_sys (tile t b m clip range) : (d.learnTrouble tile t b m clip range).sys = d.sys := by simp [Dev.learnTrouble]
@[simp] theorem Dev.modArr_sys (a f) : (d.modArr a f).sys = d.sys := by simp [Dev.modArr]
@[simp] theorem Dev.phase_sys (a range codes) : (d.phase a range codes).1.sys = d.sys := by simp [Dev.phase]
@[simp] theorem Dev.convert_sys (a range ps) : (d.convert a range ps).1.sys = d.sys := by
  induction ps generalizing d with
  | nil => rfl
  | cons p ps ih => simp [Dev.convert, ih]
@[simp] theorem Dev.capture_sys (a key range ps) : (d.capture a key range ps).sys = d.sys := by simp [Dev.capture]
@[simp] theorem Dev.evalContrib_sys (i kind slot ps) : (d.evalContrib i kind slot ps).sys = d.sys := by simp only [Dev.evalContrib]; split <;> simp
@[simp] theorem Dev.progCount_sys (n) : (d.progCount n).sys = d.sys := by simp [Dev.progCount]
@[simp] theorem Dev.retire_sys (a) : (d.retire a).sys = d.sys := by simp [Dev.retire]
@[simp] theorem Dev.ageFrame_sys (a len) : (d.ageFrame a len).sys = d.sys := by simp [Dev.ageFrame]
@[simp] theorem Dev.agesEnd_sys (len) : (d.agesEnd len).sys = d.sys := by simp [Dev.agesEnd]
@[simp] theorem Dev.dropWeights_sys : d.dropWeights.sys = d.sys := by simp -implicitDefEqProofs [Dev.dropWeights]
@[simp] theorem Dev.wtFail_sys (cause) : (d.wtFail cause).sys = d.sys := by simp [Dev.wtFail]
@[simp] theorem Dev.pauseProg_sys (a) : (d.pauseProg a).sys = d.sys := by simp [Dev.pauseProg]
@[simp] theorem Dev.kvDone_sys (cause) : (d.kvDone cause).sys = d.sys := by simp [Dev.kvDone]
@[simp] theorem Dev.endStep_sys (x st cause) : (d.endStep x st cause).sys = d.sys := by simp [Dev.endStep, Dev.claimBack]
@[simp] theorem Dev.flushDiscards_sys : d.flushDiscards.sys = d.sys := Dev.foldl_sys (fun d x => by split <;> simp) _ _
@[simp] theorem Dev.aggregate_sys : d.aggregate.sys = d.sys := by simp [Dev.aggregate]
@[simp] theorem Dev.endStall_sys (st slot) : (d.endStall st slot).sys = d.sys := by simp [Dev.endStall, Dev.lateSlots]
@[simp] theorem Dev.cutStall_sys (len) : (d.cutStall len).sys = d.sys := by unfold Dev.cutStall; split <;> simp
@[simp] theorem Dev.clearScript_sys : d.clearScript.sys = d.sys := by simp -implicitDefEqProofs [Dev.clearScript]
@[simp] theorem Dev.unloadScript_sys : d.unloadScript.sys = d.sys := by simp [Dev.unloadScript, Dev.resetSessions]
@[simp] theorem Dev.pauseSoft_sys (all) : (d.pauseSoft all).sys = d.sys := by simp [Dev.pauseSoft]
@[simp] theorem Dev.idleLanes_sys (idle) : (d.idleLanes idle).sys = d.sys := by simp [Dev.idleLanes]
@[simp] theorem Dev.trainLinks_sys : d.trainLinks.sys = d.sys := by simp [Dev.trainLinks]
@[simp] theorem Dev.floodRediscover_sys : d.floodRediscover.sys = d.sys := by simp [Dev.floodRediscover]
end

section
@[simp] theorem Dev.ite_st (c : Prop) [Decidable c] (a b : Dev) : (if c then a else b).sys.st = if c then a.sys.st else b.sys.st :=
  apply_ite (fun e => e.sys.st) c a b
@[simp] theorem Dev.foldl_st {α : Type} {f : Dev → α → Dev} (h : ∀ d x, (f d x).sys.st = d.sys.st) (l : List α) (d : Dev) : (l.foldl f d).sys.st = d.sys.st :=
  Machine.foldl_keeps (fun e => e.sys.st = d.sys.st) f (fun e x he => (h e x).trans he) l d rfl
variable (d : Dev)
@[simp] theorem Dev.sendMsix_st (v) : (d.sendMsix v).sys.st = d.sys.st := by simp [Dev.sendMsix]
@[simp] theorem Dev.fireVector_st (v) : (d.fireVector v).sys.st = d.sys.st := by simp [Dev.fireVector]
@[simp] theorem Dev.event_st (e) : (d.event e).sys.st = d.sys.st := by simp [Dev.event]
@[simp] theorem Dev.settle_st (before) : (Dev.settle before d).sys.st = d.sys.st := by simp [Dev.settle]
@[simp] theorem Dev.hbmWr_st (a bs) : (d.hbmWr a bs).sys.st = d.sys.st := by simp [Dev.hbmWr]
@[simp] theorem Dev.setSes_st (s off v) : (d.setSes s off v).sys.st = d.sys.st := by simp [Dev.setSes]
@[simp] theorem Dev.setSesF_st (s off lo w x) : (d.setSesF s off lo w x).sys.st = d.sys.st := by simp [Dev.setSesF]
@[simp] theorem Dev.setSstate_st (s v) : (d.setSstate s v).sys.st = d.sys.st := by simp [Dev.setSstate]
@[simp] theorem Dev.ethSend_st (bs) : (d.ethSend bs).sys.st = d.sys.st := by simp [Dev.ethSend]
@[simp] theorem Dev.record_st (i action nested) : (d.record i action nested).sys.st = d.sys.st := by simp [Dev.record]
@[simp] theorem Dev.exactFail_st (cause) : (d.exactFail cause).sys.st = d.sys.st := by unfold Dev.exactFail; split <;> simp
@[simp] theorem Dev.exactDiscard_st (t) : (d.exactDiscard t).sys.st = d.sys.st := by unfold Dev.exactDiscard; split <;> simp
@[simp] theorem Dev.discardStep_st (s cause) : (d.discardStep s cause).sys.st = d.sys.st := by simp [Dev.discardStep]
@[simp] theorem Dev.discardAll_st (cause) : (d.discardAll cause).sys.st = d.sys.st := by simp [Dev.discardAll]
@[simp] theorem Dev.discardTok_st (t cause) : (d.discardTok t cause).sys.st = d.sys.st := by simp [Dev.discardTok]
@[simp] theorem Dev.dmaCount_st (n k) : (d.dmaCount n k).sys.st = d.sys.st := by simp [Dev.dmaCount]
@[simp] theorem Dev.callCount_st (n) : (d.callCount n).sys.st = d.sys.st := by simp [Dev.callCount]
@[simp] theorem Dev.unpinAdapter_st (s) : (d.unpinAdapter s).sys.st = d.sys.st := by simp [Dev.unpinAdapter]
@[simp] theorem Dev.writeRecord_st (s accepted r) : (d.writeRecord s accepted r).sys.st = d.sys.st := by unfold Dev.writeRecord; (repeat' split) <;> simp
@[simp] theorem Dev.dropPairs_st (x) : (d.dropPairs x).sys.st = d.sys.st := by simp [Dev.dropPairs]
@[simp] theorem Dev.closeCall_st (s) : (d.closeCall s).sys.st = d.sys.st := by simp [Dev.closeCall]
@[simp] theorem Dev.moveHead_st (s m) : (d.moveHead s m).sys.st = d.sys.st := by unfold Dev.moveHead; (repeat' split) <;> simp
@[simp] theorem Dev.endCall_st (s st cause m) : (d.endCall s st cause m).sys.st = d.sys.st := by simp [Dev.endCall]
@[simp] theorem Dev.tagZeroing_st : d.tagZeroing.sys.st = d.sys.st := by simp [Dev.tagZeroing]
@[simp] theorem Dev.wtFail_st (cause) : (d.wtFail cause).sys.st = d.sys.st := by simp [Dev.wtFail]
@[simp] theorem Dev.endStep_st (x st cause) : (d.endStep x st cause).sys.st = d.sys.st := by simp [Dev.endStep, Dev.claimBack]
@[simp] theorem Dev.flushDiscards_st : d.flushDiscards.sys.st = d.sys.st := Dev.foldl_st (fun d x => by split <;> simp) _ _
end

section
@[simp] theorem Dev.ite_mem (c : Prop) [Decidable c] (a b : Dev) : (if c then a else b).mem = if c then a.mem else b.mem :=
  apply_ite Dev.mem c a b
@[simp] theorem Dev.fst_ite_mem {α : Type} (c : Prop) [Decidable c] (a b : Dev × α) :
    (if c then a else b).1.mem = if c then a.1.mem else b.1.mem := apply_ite (fun z : Dev × α => z.1.mem) c a b
@[simp] theorem Dev.foldl_mem {α : Type} {f : Dev → α → Dev} (h : ∀ d x, (f d x).mem = d.mem) (l : List α) (d : Dev) : (l.foldl f d).mem = d.mem :=
  Machine.foldl_keeps (fun e => e.mem = d.mem) f (fun e x he => (h e x).trans he) l d rfl
variable (d : Dev)
@[simp] theorem Dev.sendMsix_mem (v) : (d.sendMsix v).mem = d.mem := by simp [Dev.sendMsix]
@[simp] theorem Dev.fireVector_mem (v) : (d.fireVector v).mem = d.mem := by simp [Dev.fireVector]
@[simp] theorem Dev.event_mem (e) : (d.event e).mem = d.mem := by simp [Dev.event]
@[simp] theorem Dev.settle_mem (before) : (Dev.settle before d).mem = d.mem := by simp [Dev.settle]
@[simp] theorem Dev.setSt_mem (st) : (d.setSt st).mem = d.mem := by simp [Dev.setSt]
@[simp] theorem Dev.exactFail_mem (cause) : (d.exactFail cause).mem = d.mem := by unfold Dev.exactFail; split <;> simp
@[simp] theorem Dev.exactDiscard_mem (t) : (d.exactDiscard t).mem = d.mem := by unfold Dev.exactDiscard; split <;> simp
@[simp] theorem Dev.discardStep_mem (s cause) : (d.discardStep s cause).mem = d.mem := by simp [Dev.discardStep]
@[simp] theorem Dev.discardAll_mem (cause) : (d.discardAll cause).mem = d.mem := by simp [Dev.discardAll]
@[simp] theorem Dev.commitHistory_mem : d.commitHistory.mem = d.mem := by simp [Dev.commitHistory]
@[simp] theorem Dev.finishDrain_mem : d.finishDrain.mem = d.mem := by simp [Dev.finishDrain]
@[simp] theorem Dev.enterStruck_mem : d.enterStruck.mem = d.mem := by simp [Dev.enterStruck]
@[simp] theorem Dev.linkLoss_mem : d.linkLoss.mem = d.mem := by simp [Dev.linkLoss]
@[simp] theorem Dev.blackout_mem : d.blackout.mem = d.mem := by simp [Dev.blackout]
@[simp] theorem Dev.raise_mem (i) : (d.raise i).mem = d.mem := by unfold Dev.raise; (repeat' split) <;> simp [Dev.beginDrain, Dev.fatalHandling]
@[simp] theorem Dev.contain_mem (i touched cause) : (d.contain i touched cause).mem = d.mem := by simp [Dev.contain]
@[simp] theorem Dev.histEvent_mem (kind unit score threshold) : (d.histEvent kind unit score threshold).1.mem = d.mem := by simp [Dev.histEvent]
@[simp] theorem Dev.histPermanent_mem (kind unit) : (d.histPermanent kind unit).mem = d.mem := by simp [Dev.histPermanent]
@[simp] theorem Dev.calError_mem (cls) : (d.calError cls).mem = d.mem := by simp [Dev.calError]
@[simp] theorem Dev.calWrite_mem {f : Dev → Dev} (h : ∀ d, (f d).mem = d.mem) : (d.calWrite f).1.mem = d.mem := by simp [Dev.calWrite, h]
@[simp] theorem Dev.modLink_mem (n f) : (d.modLink n f).mem = d.mem := by simp [Dev.modLink]
@[simp] theorem Dev.sendUnit_mem (link u) : (d.sendUnit link u).mem = d.mem := by simp [Dev.sendUnit]
@[simp] theorem Dev.flood_mem (u) : (d.flood u).mem = d.mem := by simp [Dev.flood]
@[simp] theorem Dev.applyHolds_mem : d.applyHolds.mem = d.mem := by simp [Dev.applyHolds]
@[simp] theorem Dev.engage_mem (cause t set) : (d.engage cause t set).mem = d.mem := by simp [Dev.engage]
@[simp] theorem Dev.hazard_mem (store reader slot found n toks) : (d.hazard store reader slot found n toks).mem = d.mem := by
  simp only [Dev.hazard]; split <;> simp
@[simp] theorem Dev.hazRead_mem (store keys reader slot toks operand) : (d.hazRead store keys reader slot toks operand).mem = d.mem := by
  unfold Dev.hazRead
  split
  · exact Dev.foldl_mem (fun d n => by split <;> simp) _ d
  · rfl
@[simp] theorem Dev.useKeys_mem (keys step) : (d.useKeys keys step).mem = d.mem := by simp [Dev.useKeys]
@[simp] theorem Dev.rowsRd_mem (t keys slot cue operand) : (d.rowsRd t keys slot cue operand).1.mem = d.mem := by simp [Dev.rowsRd]
@[simp] theorem Dev.rowRd_mem (t tile row slot cue operand) : (d.rowRd t tile row slot cue operand).1.mem = d.mem := by simp [Dev.rowRd]
@[simp] theorem Dev.tileError_mem (code tile pslot slot cue t) : (d.tileError code tile pslot slot cue t).mem = d.mem := by simp [Dev.tileError]
@[simp] theorem Dev.precFlag_mem (t bit) : (d.precFlag t bit).mem = d.mem := by simp [Dev.precFlag]
@[simp] theorem Dev.precCount_mem (tile n) : (d.precCount tile n).mem = d.mem := by simp [Dev.precCount]
@[simp] theorem Dev.contribute_mem (c) : (d.contribute c).mem = d.mem := by simp [Dev.contribute]
@[simp] theorem Dev.unserved_mem (r) : (d.unserved r).mem = d.mem := by simp [Dev.unserved]
@[simp] theorem Dev.request_mem (r) : (d.request r).mem = d.mem := by simp only [Dev.request]; (repeat' split) <;> simp
@[simp] theorem Dev.clamped_mem (tile t) : (d.clamped tile t).mem = d.mem := by simp [Dev.clamped]
@[simp] theorem Dev.modArr_mem (a f) : (d.modArr a f).mem = d.mem := by simp [Dev.modArr]
@[simp] theorem Dev.phase_mem (a range codes) : (d.phase a range codes).1.mem = d.mem := by simp [Dev.phase]
@[simp] theorem Dev.convert_mem (a range ps) : (d.convert a range ps).1.mem = d.mem := by
  induction ps generalizing d with
  | nil => rfl
  | cons p ps ih => simp [Dev.convert, ih]
@[simp] theorem Dev.capture_mem (a key range ps) : (d.capture a key range ps).mem = d.mem := by simp [Dev.capture]
@[simp] theorem Dev.evalTrouble_mem (tok i b ps slot lane again) : (d.evalTrouble tok i b ps slot lane again).mem = d.mem := by
  simp [Dev.evalTrouble, Dev.markReplay, Dev.learnTrouble]
@[simp] theorem Dev.evalContrib_mem (i kind slot ps) : (d.evalContrib i kind slot ps).mem = d.mem := by simp only [Dev.evalContrib]; split <;> simp
@[simp] theorem Dev.evalTok_mem (c tok) : (d.evalTok c tok).mem = d.mem := by simp only [Dev.evalTok]; split <;> simp [Dev.serveLane]
@[simp] theorem Dev.drives_mem (tile slot n) : (d.drives tile slot n).mem = d.mem := by simp [Dev.drives]
@[simp] theorem Dev.progCount_mem (n) : (d.progCount n).mem = d.mem := by simp [Dev.progCount]
@[simp] theorem Dev.arrayError_mem (code cls a flagged row pattern spare verdict) :
    (d.arrayError code cls a flagged row pattern spare verdict).mem = d.mem := by
  simp [Dev.arrayError]
@[simp] theorem Dev.tileSuspect_mem (code tile slot) : (d.tileSuspect code tile slot).mem = d.mem := by simp [Dev.tileSuspect]
@[simp] theorem Dev.emptyServed_mem (key) : (d.emptyServed key).mem = d.mem := Dev.foldl_mem (fun d s => by split <;> simp) _ d
@[simp] theorem Dev.failPrincipal_mem (code a flagged row pattern) : (d.failPrincipal code a flagged row pattern).mem = d.mem := by
  simp [Dev.failPrincipal]
@[simp] theorem Dev.sampleVprog_mem (ok) : (d.sampleVprog ok).mem = d.mem := by simp [Dev.sampleVprog]
@[simp] theorem Dev.retire_mem (a) : (d.retire a).mem = d.mem := by simp [Dev.retire]
@[simp] theorem Dev.startProg_mem (a j) : (d.startProg a j).mem = d.mem := by simp [Dev.startProg]
@[simp] theorem Dev.measureOne_mem (a) : (d.measureOne a).mem = d.mem := by simp only [Dev.measureOne, Dev.modArr_mem, Dev.phase_mem]
@[simp] theorem Dev.dropWeights_mem : d.dropWeights.mem = d.mem := by simp -implicitDefEqProofs [Dev.dropWeights]
@[simp] theorem Dev.wtFail_mem (cause) : (d.wtFail cause).mem = d.mem := by simp [Dev.wtFail]
@[simp] theorem Dev.wornOut_mem (a j) : (d.wornOut a j).mem = d.mem := by unfold Dev.wornOut; (repeat' split) <;> simp
@[simp] theorem Dev.pauseProg_mem (a) : (d.pauseProg a).mem = d.mem := by simp [Dev.pauseProg]
@[simp] theorem Dev.startWaiting_mem (a j) : (d.startWaiting a j).mem = d.mem := by simp only [Dev.startWaiting]; (repeat' split) <;> simp
@[simp] theorem Dev.resumePaused_mem : d.resumePaused.mem = d.mem := Dev.foldl_mem (fun d a => by dsimp only; (repeat' split) <;> simp) _ d
@[simp] theorem Dev.kvDone_mem (cause) : (d.kvDone cause).mem = d.mem := by simp [Dev.kvDone]
@[simp] theorem Dev.aggregate_mem : d.aggregate.mem = d.mem := by simp [Dev.aggregate]
@[simp] theorem Dev.pauseSoft_mem (all) : (d.pauseSoft all).mem = d.mem := by simp [Dev.pauseSoft]
@[simp] theorem Dev.idleLanes_mem (idle) : (d.idleLanes idle).mem = d.mem := by simp [Dev.idleLanes]
@[simp] theorem Dev.runFormat_mem (r a') : (d.runFormat r a').1.mem = d.mem := by simp [Dev.runFormat]
@[simp] theorem Dev.runRange_mem (r a') : (d.runRange r a').1.mem = d.mem := by simp [Dev.runRange]
@[simp] theorem Dev.probeRun_mem (a b) : (d.probeRun a b).1.mem = d.mem := by simp [Dev.probeRun]
@[simp] theorem Dev.probeVerdict_mem (p) : (d.probeVerdict p).mem = d.mem := by simp only [Dev.probeVerdict]; split <;> simp
@[simp] theorem Dev.probeStep_mem (p) : (d.probeStep p).mem = d.mem := by simp [Dev.probeStep]
@[simp] theorem Dev.rehearse_mem (f slot) : (d.rehearse f slot).mem = d.mem := by simp only [Dev.rehearse]; (repeat' split) <;> simp [Dev.probeNext]
@[simp] theorem Dev.runThread_mem (z) : (d.runThread z).mem = d.mem := by simp [Dev.runThread]
@[simp] theorem Dev.releaseArrays_mem : d.releaseArrays.mem = d.mem := by simp -implicitDefEqProofs [Dev.releaseArrays]
@[simp] theorem Dev.pathRead_mem (path off) : (d.pathRead path off).1.mem = d.mem := by unfold Dev.pathRead; split <;> simp
end

section
@[simp] theorem Dev.ite_err (c : Prop) [Decidable c] (a b : Dev) : (if c then a else b).err = if c then a.err else b.err :=
  apply_ite Dev.err c a b
@[simp] theorem Dev.foldl_err {α : Type} {f : Dev → α → Dev} (h : ∀ d x, (f d x).err = d.err) (l : List α) (d : Dev) : (l.foldl f d).err = d.err :=
  Machine.foldl_keeps (fun e => e.err = d.err) f (fun e x he => (h e x).trans he) l d rfl
variable (d : Dev)
@[simp] theorem Dev.setSt_err (st) : (d.setSt st).err = d.err := by simp [Dev.setSt]
@[simp] theorem Dev.exactFail_err (cause) : (d.exactFail cause).err = d.err := by unfold Dev.exactFail; split <;> simp
@[simp] theorem Dev.linkLoss_err : d.linkLoss.err = d.err := by simp [Dev.linkLoss]
@[simp] theorem Dev.modLink_err (n f) : (d.modLink n f).err = d.err := by simp [Dev.modLink]
@[simp] theorem Dev.sendUnit_err (link u) : (d.sendUnit link u).err = d.err := by simp [Dev.sendUnit]
@[simp] theorem Dev.flood_err (u) : (d.flood u).err = d.err := by simp [Dev.flood]
@[simp] theorem Dev.applyHolds_err : d.applyHolds.err = d.err := by simp [Dev.applyHolds]
@[simp] theorem Dev.engage_err (cause t set) : (d.engage cause t set).err = d.err := by simp [Dev.engage]
@[simp] theorem Dev.tagZeroing_err : d.tagZeroing.err = d.err := by simp [Dev.tagZeroing]
@[simp] theorem Dev.precFlag_err (t bit) : (d.precFlag t bit).err = d.err := by simp [Dev.precFlag]
@[simp] theorem Dev.precCount_err (tile n) : (d.precCount tile n).err = d.err := by simp [Dev.precCount]
@[simp] theorem Dev.contribute_err (c) : (d.contribute c).err = d.err := by simp [Dev.contribute]
@[simp] theorem Dev.unserved_err (r) : (d.unserved r).err = d.err := by simp [Dev.unserved]
@[simp] theorem Dev.clamped_err (tile t) : (d.clamped tile t).err = d.err := by simp [Dev.clamped]
@[simp] theorem Dev.markReplay_err (t) : (d.markReplay t).err = d.err := by simp [Dev.markReplay]
@[simp] theorem Dev.learnTrouble_err (tile t b m clip range) : (d.learnTrouble tile t b m clip range).err = d.err := by simp [Dev.learnTrouble]
@[simp] theorem Dev.modArr_err (a f) : (d.modArr a f).err = d.err := by simp [Dev.modArr]
@[simp] theorem Dev.phase_err (a range codes) : (d.phase a range codes).1.err = d.err := by simp [Dev.phase]
@[simp] theorem Dev.convert_err (a range ps) : (d.convert a range ps).1.err = d.err := by
  induction ps generalizing d with
  | nil => rfl
  | cons p ps ih => simp [Dev.convert, ih]
@[simp] theorem Dev.capture_err (a key range ps) : (d.capture a key range ps).err = d.err := by simp [Dev.capture]
@[simp] theorem Dev.evalContrib_err (i kind slot ps) : (d.evalContrib i kind slot ps).err = d.err := by simp only [Dev.evalContrib]; split <;> simp
@[simp] theorem Dev.serveLane_err (key lane tok) : (d.serveLane key lane tok).err = d.err := by simp [Dev.serveLane]
@[simp] theorem Dev.ageFrame_err (a len) : (d.ageFrame a len).err = d.err := by simp [Dev.ageFrame]
@[simp] theorem Dev.agesEnd_err (len) : (d.agesEnd len).err = d.err := by simp [Dev.agesEnd]
@[simp] theorem Dev.pauseProg_err (a) : (d.pauseProg a).err = d.err := by simp [Dev.pauseProg]
@[simp] theorem Dev.aggregate_err : d.aggregate.err = d.err := by simp [Dev.aggregate]
@[simp] theorem Dev.pauseSoft_err (all) : (d.pauseSoft all).err = d.err := by simp [Dev.pauseSoft]
@[simp] theorem Dev.idleLanes_err (idle) : (d.idleLanes idle).err = d.err := by simp [Dev.idleLanes]
@[simp] theorem Dev.pathRead_err (path off) : (d.pathRead path off).1.err = d.err := by unfold Dev.pathRead; split <;> simp
end

section
@[simp] theorem Dev.ite_host (c : Prop) [Decidable c] (a b : Dev) : (if c then a else b).host = if c then a.host else b.host :=
  apply_ite Dev.host c a b
variable (d : Dev)
@[simp] theorem Dev.settle_host (before) : (Dev.settle before d).host = d.host := by simp [Dev.settle]
@[simp] theorem Dev.ethSend_host (bs) : (d.ethSend bs).host = d.host := by simp [Dev.ethSend]
end

section
@[simp] theorem Dev.ite_frm (c : Prop) [Decidable c] (a b : Dev) : (if c then a else b).frm = if c then a.frm else b.frm :=
  apply_ite Dev.frm c a b
@[simp] theorem Dev.foldl_frm {α : Type} {f : Dev → α → Dev} (h : ∀ d x, (f d x).frm = d.frm) (l : List α) (d : Dev) : (l.foldl f d).frm = d.frm :=
  Machine.foldl_keeps (fun e => e.frm = d.frm) f (fun e x he => (h e x).trans he) l d rfl
variable (d : Dev)
@[simp] theorem Dev.sendMsix_frm (v) : (d.sendMsix v).frm = d.frm := by simp [Dev.sendMsix]
@[simp] theorem Dev.fireVector_frm (v) : (d.fireVector v).frm = d.frm := by simp [Dev.fireVector]
@[simp] theorem Dev.event_frm (e) : (d.event e).frm = d.frm := by simp [Dev.event]
@[simp] theorem Dev.settle_frm (before) : (Dev.settle before d).frm = d.frm := by simp [Dev.settle]
@[simp] theorem Dev.setSt_frm (st) : (d.setSt st).frm = d.frm := by simp [Dev.setSt]
@[simp] theorem Dev.hbmWr_frm (a bs) : (d.hbmWr a bs).frm = d.frm := by simp [Dev.hbmWr]
@[simp] theorem Dev.setSes_frm (s off v) : (d.setSes s off v).frm = d.frm := by simp [Dev.setSes]
@[simp] theorem Dev.setSesF_frm (s off lo w x) : (d.setSesF s off lo w x).frm = d.frm := by simp [Dev.setSesF]
@[simp] theorem Dev.setSstate_frm (s v) : (d.setSstate s v).frm = d.frm := by simp [Dev.setSstate]
@[simp] theorem Dev.clearCalling_frm (s) : (d.clearCalling s).frm = d.frm := by simp [Dev.clearCalling]
@[simp] theorem Dev.ethSend_frm (bs) : (d.ethSend bs).frm = d.frm := by simp [Dev.ethSend]
@[simp] theorem Dev.record_frm (i action nested) : (d.record i action nested).frm = d.frm := by simp [Dev.record]
@[simp] theorem Dev.exactFail_frm (cause) : (d.exactFail cause).frm = d.frm := by unfold Dev.exactFail; split <;> simp
@[simp] theorem Dev.commitHistory_frm : d.commitHistory.frm = d.frm := by simp [Dev.commitHistory]
@[simp] theorem Dev.finishDrain_frm : d.finishDrain.frm = d.frm := by simp [Dev.finishDrain]
@[simp] theorem Dev.linkLoss_frm : d.linkLoss.frm = d.frm := by simp [Dev.linkLoss]
@[simp] theorem Dev.histEvent_frm (kind unit score threshold) : (d.histEvent kind unit score threshold).1.frm = d.frm := by simp [Dev.histEvent]
@[simp] theorem Dev.histPermanent_frm (kind unit) : (d.histPermanent kind unit).frm = d.frm := by simp [Dev.histPermanent]
@[simp] theorem Dev.dmaCount_frm (n k) : (d.dmaCount n k).frm = d.frm := by simp [Dev.dmaCount]
@[simp] theorem Dev.callCount_frm (n) : (d.callCount n).frm = d.frm := by simp [Dev.callCount]
@[simp] theorem Dev.kvCount_frm (n k) : (d.kvCount n k).frm = d.frm := by simp [Dev.kvCount]
@[simp] theorem Dev.pinAdapter_frm (s n) : (d.pinAdapter s n).frm = d.frm := by simp [Dev.pinAdapter]
@[simp] theorem Dev.unpinAdapter_frm (s) : (d.unpinAdapter s).frm = d.frm := by simp [Dev.unpinAdapter]
@[simp] theorem Dev.writeRecord_frm (s accepted r) : (d.writeRecord s accepted r).frm = d.frm := by unfold Dev.writeRecord; (repeat' split) <;> simp
@[simp] theorem Dev.dropPairs_frm (x) : (d.dropPairs x).frm = d.frm := by simp [Dev.dropPairs]
@[simp] theorem Dev.closeCall_frm (s) : (d.closeCall s).frm = d.frm := by simp [Dev.closeCall]
@[simp] theorem Dev.moveHead_frm (s m) : (d.moveHead s m).frm = d.frm := by unfold Dev.moveHead; (repeat' split) <;> simp
@[simp] theorem Dev.modLink_frm (n f) : (d.modLink n f).frm = d.frm := by simp [Dev.modLink]
@[simp] theorem Dev.sendUnit_frm (link u) : (d.sendUnit link u).frm = d.frm := by simp [Dev.sendUnit]
@[simp] theorem Dev.flood_frm (u) : (d.flood u).frm = d.frm := by simp [Dev.flood]
@[simp] theorem Dev.sendDown_frm (u) : (d.sendDown u).frm = d.frm := by simp [Dev.sendDown]
@[simp] theorem Dev.tagWrite_frm (store keys cue) : (d.tagWrite store keys cue).frm = d.frm := by simp [Dev.tagWrite]
@[simp] theorem Dev.tagZeroing_frm : d.tagZeroing.frm = d.frm := by simp [Dev.tagZeroing]
@[simp] theorem Dev.precFlag_frm (t bit) : (d.precFlag t bit).frm = d.frm := by simp [Dev.precFlag]
@[simp] theorem Dev.precCount_frm (tile n) : (d.precCount tile n).frm = d.frm := by simp [Dev.precCount]
@[simp] theorem Dev.contribute_frm (c) : (d.contribute c).frm = d.frm := by simp [Dev.contribute]
@[simp] theorem Dev.unserved_frm (r) : (d.unserved r).frm = d.frm := by simp [Dev.unserved]
@[simp] theorem Dev.clamped_frm (tile t) : (d.clamped tile t).frm = d.frm := by simp [Dev.clamped]
@[simp] theorem Dev.markReplay_frm (t) : (d.markReplay t).frm = d.frm := by simp [Dev.markReplay]
@[simp] theorem Dev.learnTrouble_frm (tile t b m clip range) : (d.learnTrouble tile t b m clip range).frm = d.frm := by simp [Dev.learnTrouble]
@[simp] theorem Dev.modArr_frm (a f) : (d.modArr a f).frm = d.frm := by simp [Dev.modArr]
@[simp] theorem Dev.phase_frm (a range codes) : (d.phase a range codes).1.frm = d.frm := by simp [Dev.phase]
@[simp] theorem Dev.convert_frm (a range ps) : (d.convert a range ps).1.frm = d.frm := by
  induction ps generalizing d with
  | nil => rfl
  | cons p ps ih => simp [Dev.convert, ih]
@[simp] theorem Dev.capture_frm (a key range ps) : (d.capture a key range ps).frm = d.frm := by simp [Dev.capture]
@[simp] theorem Dev.evalContrib_frm (i kind slot ps) : (d.evalContrib i kind slot ps).frm = d.frm := by simp only [Dev.evalContrib]; split <;> simp
@[simp] theorem Dev.serveLane_frm (key lane tok) : (d.serveLane key lane tok).frm = d.frm := by simp [Dev.serveLane]
@[simp] theorem Dev.progCount_frm (n) : (d.progCount n).frm = d.frm := by simp [Dev.progCount]
@[simp] theorem Dev.retire_frm (a) : (d.retire a).frm = d.frm := by simp [Dev.retire]
@[simp] theorem Dev.startGains_frm (a) : (d.startGains a).frm = d.frm := by simp [Dev.startGains]
@[simp] theorem Dev.takeRole_frm (a slot) : (d.takeRole a slot).frm = d.frm := by simp [Dev.takeRole]
@[simp] theorem Dev.leaveRole_frm (a) : (d.leaveRole a).frm = d.frm := by simp [Dev.leaveRole]
@[simp] theorem Dev.ageFrame_frm (a len) : (d.ageFrame a len).frm = d.frm := by simp [Dev.ageFrame]
@[simp] theorem Dev.dropWeights_frm : d.dropWeights.frm = d.frm := by simp -implicitDefEqProofs [Dev.dropWeights]
@[simp] theorem Dev.wtFail_frm (cause) : (d.wtFail cause).frm = d.frm := by simp [Dev.wtFail]
@[simp] theorem Dev.pauseProg_frm (a) : (d.pauseProg a).frm = d.frm := by simp [Dev.pauseProg]
@[simp] theorem Dev.debit_frm (s n anew) : (d.debit s n anew).frm = d.frm := by simp -implicitDefEqProofs [Dev.debit]
@[simp] theorem Dev.claimBack_frm (x) : (d.claimBack x).frm = d.frm := by simp [Dev.claimBack]
@[simp] theorem Dev.kvEmit_frm (dst op m) : (d.kvEmit dst op m).frm = d.frm := by simp [Dev.kvEmit]
@[simp] theorem Dev.kvSend_frm (dst op m) : (d.kvSend dst op m).frm = d.frm := by simp [Dev.kvSend]
@[simp] theorem Dev.laneOpen_frm : d.laneOpen.frm = d.frm := by simp [Dev.laneOpen]
@[simp] theorem Dev.laneFree_frm : d.laneFree.frm = d.frm := by unfold Dev.laneFree; split <;> simp
@[simp] theorem Dev.toOwners_frm (op m) : (d.toOwners op m).frm = d.frm := by simp [Dev.toOwners]
@[simp] theorem Dev.releaseSession_frm (s) : (d.releaseSession s).frm = d.frm := by simp [Dev.releaseSession]
@[simp] theorem Dev.kvNotice_frm (k s op pos) : (d.kvNotice k s op pos).frm = d.frm := by unfold Dev.kvNotice; split <;> simp
@[simp] theorem Dev.kvDone_frm (cause) : (d.kvDone cause).frm = d.frm := by simp [Dev.kvDone]
@[simp] theorem Dev.swapOutStart_frm (s host) : (d.swapOutStart s host).frm = d.frm := by simp -implicitDefEqProofs [Dev.swapOutStart]
@[simp] theorem Dev.swapInTry_frm (s) : (d.swapInTry s).frm = d.frm := by simp [Dev.swapInTry]
@[simp] theorem Dev.wantSwapIn_frm (s host) : (d.wantSwapIn s host).frm = d.frm := by simp [Dev.wantSwapIn]
@[simp] theorem Dev.forkDone_frm (j) : (d.forkDone j).frm = d.frm := by unfold Dev.forkDone; split <;> simp
@[simp] theorem Dev.jobStart_frm (j) : (d.jobStart j).frm = d.frm := by
  simp only [Dev.jobStart]
  split <;> simp -implicitDefEqProofs
@[simp] theorem Dev.kvScan_frm : d.kvScan.frm = d.frm := by unfold Dev.kvScan; split <;> simp
@[simp] theorem Dev.preempt_frm : d.preempt.frm = d.frm := by simp [Dev.preempt]
@[simp] theorem Dev.drainScan_frm : d.drainScan.frm = d.frm := by simp [Dev.drainScan]
@[simp] theorem Dev.rebuildBitmap_frm (cw) : (d.rebuildBitmap cw).frm = d.frm := by simp [Dev.rebuildBitmap]
@[simp] theorem Dev.initSession_frm (s) : (d.initSession s).frm = d.frm := by
  unfold Dev.initSession
  extract_lets k e1 e2 e3 e4 e5
  have h3 : e3.frm = d.frm := by rw [Dev.modCall_frm, Dev.setSes_frm, Dev.setSes_frm, Dev.setSstate_frm, Dev.hbmWr_frm]
  clear_value e3
  (repeat' split) <;> simp [e5, e4, h3]
@[simp] theorem Dev.accept_frm (s) : (d.accept s).frm = d.frm := by simp -implicitDefEqProofs [Dev.accept]
@[simp] theorem Dev.cacheSlot_frm (s) : (d.cacheSlot s).1.frm = d.frm := by
  simp -implicitDefEqProofs only [Dev.cacheSlot]
  (repeat' split) <;> simp -implicitDefEqProofs
@[simp] theorem Dev.setWindow_frm (s w) : (d.setWindow s w).frm = d.frm := by simp [Dev.setWindow]
@[simp] theorem Dev.adaptK_frm (s a' kEff) : (d.adaptK s a' kEff).frm = d.frm := by simp [Dev.adaptK]
@[simp] theorem Dev.learnStep_frm (marked) : (d.learnStep marked).frm = d.frm := by simp [Dev.learnStep]
@[simp] theorem Dev.sessionAfter_frm (x) : (d.sessionAfter x).frm = d.frm := by unfold Dev.sessionAfter; split <;> simp
@[simp] theorem Dev.completeOk_frm (x) : (d.completeOk x).frm = d.frm := by simp [Dev.completeOk]
@[simp] theorem Dev.replayStep_frm (x) : (d.replayStep x).frm = d.frm := by simp [Dev.replayStep]
@[simp] theorem Dev.lateSlots_frm (link n) : (d.lateSlots link n).frm = d.frm := by simp [Dev.lateSlots]
@[simp] theorem Dev.clearScript_frm : d.clearScript.frm = d.frm := by simp -implicitDefEqProofs [Dev.clearScript]
@[simp] theorem Dev.resetSessions_frm : d.resetSessions.frm = d.frm := by simp [Dev.resetSessions]
@[simp] theorem Dev.pauseSoft_frm (all) : (d.pauseSoft all).frm = d.frm := by simp [Dev.pauseSoft]
@[simp] theorem Dev.idleLanes_frm (idle) : (d.idleLanes idle).frm = d.frm := by simp [Dev.idleLanes]
@[simp] theorem Dev.beginCurtain_frm : d.beginCurtain.frm = d.frm := by simp -implicitDefEqProofs [Dev.beginCurtain]
@[simp] theorem Dev.trainLinks_frm : d.trainLinks.frm = d.frm := by simp [Dev.trainLinks]
@[simp] theorem Dev.applyBands_frm : d.applyBands.frm = d.frm := by simp [Dev.applyBands]
@[simp] theorem Dev.switchMasks_frm (num) : (d.switchMasks num).frm = d.frm := by simp [Dev.switchMasks]
@[simp] theorem Dev.newStreams_frm : d.newStreams.frm = d.frm := by simp [Dev.newStreams]
@[simp] theorem Dev.restorePrompters_frm : d.restorePrompters.frm = d.frm := by simp [Dev.restorePrompters]
@[simp] theorem Dev.reloadImage_frm : d.reloadImage.frm = d.frm := by unfold Dev.reloadImage; split <;> simp
@[simp] theorem Dev.bandsBoundary_frm : d.bandsBoundary.frm = d.frm := by simp [Dev.bandsBoundary]
@[simp] theorem Dev.nameRaise_frm (num) : (d.nameRaise num).frm = d.frm := by simp [Dev.nameRaise]
@[simp] theorem Dev.pathRead_frm (path off) : (d.pathRead path off).1.frm = d.frm := by unfold Dev.pathRead; split <;> simp
end

section
@[simp] theorem Dev.ite_dbg (c : Prop) [Decidable c] (a b : Dev) : (if c then a else b).dbg = if c then a.dbg else b.dbg :=
  apply_ite Dev.dbg c a b
@[simp] theorem Dev.fst_ite_dbg {α : Type} (c : Prop) [Decidable c] (a b : Dev × α) :
    (if c then a else b).1.dbg = if c then a.1.dbg else b.1.dbg := apply_ite (fun z : Dev × α => z.1.dbg) c a b
@[simp] theorem Dev.foldl_dbg {α : Type} {f : Dev → α → Dev} (h : ∀ d x, (f d x).dbg = d.dbg) (l : List α) (d : Dev) : (l.foldl f d).dbg = d.dbg :=
  Machine.foldl_keeps (fun e => e.dbg = d.dbg) f (fun e x he => (h e x).trans he) l d rfl
variable (d : Dev)
@[simp] theorem Dev.sendMsix_dbg (v) : (d.sendMsix v).dbg = d.dbg := by simp [Dev.sendMsix]
@[simp] theorem Dev.fireVector_dbg (v) : (d.fireVector v).dbg = d.dbg := by simp [Dev.fireVector]
@[simp] theorem Dev.event_dbg (e) : (d.event e).dbg = d.dbg := by simp [Dev.event]
@[simp] theorem Dev.settle_dbg (before) : (Dev.settle before d).dbg = d.dbg := by simp [Dev.settle]
@[simp] theorem Dev.setSt_dbg (st) : (d.setSt st).dbg = d.dbg := by simp [Dev.setSt]
@[simp] theorem Dev.hbmWr_dbg (a bs) : (d.hbmWr a bs).dbg = d.dbg := by simp [Dev.hbmWr]
@[simp] theorem Dev.setSes_dbg (s off v) : (d.setSes s off v).dbg = d.dbg := by simp [Dev.setSes]
@[simp] theorem Dev.setSesF_dbg (s off lo w x) : (d.setSesF s off lo w x).dbg = d.dbg := by simp [Dev.setSesF]
@[simp] theorem Dev.setSstate_dbg (s v) : (d.setSstate s v).dbg = d.dbg := by simp [Dev.setSstate]
@[simp] theorem Dev.clearCalling_dbg (s) : (d.clearCalling s).dbg = d.dbg := by simp [Dev.clearCalling]
@[simp] theorem Dev.ethSend_dbg (bs) : (d.ethSend bs).dbg = d.dbg := by simp [Dev.ethSend]
@[simp] theorem Dev.record_dbg (i action nested) : (d.record i action nested).dbg = d.dbg := by simp [Dev.record]
@[simp] theorem Dev.exactFail_dbg (cause) : (d.exactFail cause).dbg = d.dbg := by unfold Dev.exactFail; split <;> simp
@[simp] theorem Dev.exactDiscard_dbg (t) : (d.exactDiscard t).dbg = d.dbg := by unfold Dev.exactDiscard; split <;> simp
@[simp] theorem Dev.discardStep_dbg (s cause) : (d.discardStep s cause).dbg = d.dbg := by simp [Dev.discardStep]
@[simp] theorem Dev.discardAll_dbg (cause) : (d.discardAll cause).dbg = d.dbg := by simp [Dev.discardAll]
@[simp] theorem Dev.commitHistory_dbg : d.commitHistory.dbg = d.dbg := by simp [Dev.commitHistory]
@[simp] theorem Dev.finishDrain_dbg : d.finishDrain.dbg = d.dbg := by simp [Dev.finishDrain]
@[simp] theorem Dev.enterStruck_dbg : d.enterStruck.dbg = d.dbg := by simp [Dev.enterStruck]
@[simp] theorem Dev.beginDrain_dbg (seq) : (d.beginDrain seq).dbg = d.dbg := by simp [Dev.beginDrain]
@[simp] theorem Dev.linkLoss_dbg : d.linkLoss.dbg = d.dbg := by simp [Dev.linkLoss]
@[simp] theorem Dev.discardTok_dbg (t cause) : (d.discardTok t cause).dbg = d.dbg := by simp [Dev.discardTok]
@[simp] theorem Dev.histEvent_dbg (kind unit score threshold) : (d.histEvent kind unit score threshold).1.dbg = d.dbg := by simp [Dev.histEvent]
@[simp] theorem Dev.histPermanent_dbg (kind unit) : (d.histPermanent kind unit).dbg = d.dbg := by simp [Dev.histPermanent]
@[simp] theorem Dev.dmaCount_dbg (n k) : (d.dmaCount n k).dbg = d.dbg := by simp [Dev.dmaCount]
@[simp] theorem Dev.callCount_dbg (n) : (d.callCount n).dbg = d.dbg := by simp [Dev.callCount]
@[simp] theorem Dev.kvCount_dbg (n k) : (d.kvCount n k).dbg = d.dbg := by simp [Dev.kvCount]
@[simp] theorem Dev.pinAdapter_dbg (s n) : (d.pinAdapter s n).dbg = d.dbg := by simp [Dev.pinAdapter]
@[simp] theorem Dev.unpinAdapter_dbg (s) : (d.unpinAdapter s).dbg = d.dbg := by simp [Dev.unpinAdapter]
@[simp] theorem Dev.writeRecord_dbg (s accepted r) : (d.writeRecord s accepted r).dbg = d.dbg := by unfold Dev.writeRecord; (repeat' split) <;> simp
@[simp] theorem Dev.dropPairs_dbg (x) : (d.dropPairs x).dbg = d.dbg := by simp [Dev.dropPairs]
@[simp] theorem Dev.closeCall_dbg (s) : (d.closeCall s).dbg = d.dbg := by simp [Dev.closeCall]
@[simp] theorem Dev.moveHead_dbg (s m) : (d.moveHead s m).dbg = d.dbg := by unfold Dev.moveHead; (repeat' split) <;> simp
@[simp] theorem Dev.endCall_dbg (s st cause m) : (d.endCall s st cause m).dbg = d.dbg := by simp [Dev.endCall]
@[simp] theorem Dev.sessionFault_dbg (s) : (d.sessionFault s).dbg = d.dbg := by simp [Dev.sessionFault]
@[simp] theorem Dev.modLink_dbg (n f) : (d.modLink n f).dbg = d.dbg := by simp [Dev.modLink]
@[simp] theorem Dev.sendUnit_dbg (link u) : (d.sendUnit link u).dbg = d.dbg := by simp [Dev.sendUnit]
@[simp] theorem Dev.flood_dbg (u) : (d.flood u).dbg = d.dbg := by simp [Dev.flood]
@[simp] theorem Dev.sendDown_dbg (u) : (d.sendDown u).dbg = d.dbg := by simp [Dev.sendDown]
@[simp] theorem Dev.tagWrite_dbg (store keys cue) : (d.tagWrite store keys cue).dbg = d.dbg := by simp [Dev.tagWrite]
@[simp] theorem Dev.tagZeroing_dbg : d.tagZeroing.dbg = d.dbg := by simp [Dev.tagZeroing]
@[simp] theorem Dev.useKeys_dbg (keys step) : (d.useKeys keys step).dbg = d.dbg := by simp [Dev.useKeys]
@[simp] theorem Dev.precFlag_dbg (t bit) : (d.precFlag t bit).dbg = d.dbg := by simp [Dev.precFlag]
@[simp] theorem Dev.precCount_dbg (tile n) : (d.precCount tile n).dbg = d.dbg := by simp [Dev.precCount]
@[simp] theorem Dev.contribute_dbg (c) : (d.contribute c).dbg = d.dbg := by simp [Dev.contribute]
@[simp] theorem Dev.unserved_dbg (r) : (d.unserved r).dbg = d.dbg := by simp [Dev.unserved]
@[simp] theorem Dev.clamped_dbg (tile t) : (d.clamped tile t).dbg = d.dbg := by simp [Dev.clamped]
@[simp] theorem Dev.markReplay_dbg (t) : (d.markReplay t).dbg = d.dbg := by simp [Dev.markReplay]
@[simp] theorem Dev.learnTrouble_dbg (tile t b m clip range) : (d.learnTrouble tile t b m clip range).dbg = d.dbg := by simp [Dev.learnTrouble]
@[simp] theorem Dev.modArr_dbg (a f) : (d.modArr a f).dbg = d.dbg := by simp [Dev.modArr]
@[simp] theorem Dev.phase_dbg (a range codes) : (d.phase a range codes).1.dbg = d.dbg := by simp [Dev.phase]
@[simp] theorem Dev.convert_dbg (a range ps) : (d.convert a range ps).1.dbg = d.dbg := by
  induction ps generalizing d with
  | nil => rfl
  | cons p ps ih => simp [Dev.convert, ih]
@[simp] theorem Dev.capture_dbg (a key range ps) : (d.capture a key range ps).dbg = d.dbg := by simp [Dev.capture]
@[simp] theorem Dev.evalContrib_dbg (i kind slot ps) : (d.evalContrib i kind slot ps).dbg = d.dbg := by simp only [Dev.evalContrib]; split <;> simp
@[simp] theorem Dev.progCount_dbg (n) : (d.progCount n).dbg = d.dbg := by simp [Dev.progCount]
@[simp] theorem Dev.emptyServed_dbg (key) : (d.emptyServed key).dbg = d.dbg := Dev.foldl_dbg (fun d s => by split <;> simp) _ d
@[simp] theorem Dev.retire_dbg (a) : (d.retire a).dbg = d.dbg := by simp [Dev.retire]
@[simp] theorem Dev.startGains_dbg (a) : (d.startGains a).dbg = d.dbg := by simp [Dev.startGains]
@[simp] theorem Dev.takeRole_dbg (a slot) : (d.takeRole a slot).dbg = d.dbg := by simp [Dev.takeRole]
@[simp] theorem Dev.leaveRole_dbg (a) : (d.leaveRole a).dbg = d.dbg := by simp [Dev.leaveRole]
@[simp] theorem Dev.ageFrame_dbg (a len) : (d.ageFrame a len).dbg = d.dbg := by simp [Dev.ageFrame]
@[simp] theorem Dev.agesEnd_dbg (len) : (d.agesEnd len).dbg = d.dbg := by simp [Dev.agesEnd]
@[simp] theorem Dev.wtFail_dbg (cause) : (d.wtFail cause).dbg = d.dbg := by simp [Dev.wtFail]
@[simp] theorem Dev.pauseProg_dbg (a) : (d.pauseProg a).dbg = d.dbg := by simp [Dev.pauseProg]
@[simp] theorem Dev.debit_dbg (s n anew) : (d.debit s n anew).dbg = d.dbg := by simp -implicitDefEqProofs [Dev.debit]
@[simp] theorem Dev.kvEmit_dbg (dst op m) : (d.kvEmit dst op m).dbg = d.dbg := by simp [Dev.kvEmit]
@[simp] theorem Dev.kvSend_dbg (dst op m) : (d.kvSend dst op m).dbg = d.dbg := by simp [Dev.kvSend]
@[simp] theorem Dev.laneOpen_dbg : d.laneOpen.dbg = d.dbg := by simp [Dev.laneOpen]
@[simp] theorem Dev.laneFree_dbg : d.laneFree.dbg = d.dbg := by unfold Dev.laneFree; split <;> simp
@[simp] theorem Dev.toOwners_dbg (op m) : (d.toOwners op m).dbg = d.dbg := by simp [Dev.toOwners]
@[simp] theorem Dev.releaseSession_dbg (s) : (d.releaseSession s).dbg = d.dbg := by simp [Dev.releaseSession]
@[simp] theorem Dev.kvNotice_dbg (k s op pos) : (d.kvNotice k s op pos).dbg = d.dbg := by unfold Dev.kvNotice; split <;> simp
@[simp] theorem Dev.kvDone_dbg (cause) : (d.kvDone cause).dbg = d.dbg := by simp [Dev.kvDone]
@[simp] theorem Dev.swapOutStart_dbg (s host) : (d.swapOutStart s host).dbg = d.dbg := by simp -implicitDefEqProofs [Dev.swapOutStart]
@[simp] theorem Dev.swapInTry_dbg (s) : (d.swapInTry s).dbg = d.dbg := by simp [Dev.swapInTry]
@[simp] theorem Dev.wantSwapIn_dbg (s host) : (d.wantSwapIn s host).dbg = d.dbg := by simp [Dev.wantSwapIn]
@[simp] theorem Dev.forkDone_dbg (j) : (d.forkDone j).dbg = d.dbg := by unfold Dev.forkDone; split <;> simp
@[simp] theorem Dev.jobStart_dbg (j) : (d.jobStart j).dbg = d.dbg := by
  simp only [Dev.jobStart]
  split <;> simp -implicitDefEqProofs
@[simp] theorem Dev.swapsEnd_dbg : d.swapsEnd.dbg = d.dbg := by simp [Dev.swapsEnd, Dev.greenRoomError, Dev.swapDone]
@[simp] theorem Dev.kvScan_dbg : d.kvScan.dbg = d.dbg := by unfold Dev.kvScan; split <;> simp
@[simp] theorem Dev.preempt_dbg : d.preempt.dbg = d.dbg := by simp [Dev.preempt]
@[simp] theorem Dev.drainScan_dbg : d.drainScan.dbg = d.dbg := by simp [Dev.drainScan]
@[simp] theorem Dev.rebuildBitmap_dbg (cw) : (d.rebuildBitmap cw).dbg = d.dbg := by simp [Dev.rebuildBitmap]
@[simp] theorem Dev.ringLost_dbg (s cw) : (d.ringLost s cw).dbg = d.dbg := by unfold Dev.ringLost; split <;> simp
@[simp] theorem Dev.emptySession_dbg (s) : (d.emptySession s).dbg = d.dbg := by
  simp only [Dev.emptySession, Dev.ite_dbg, Dev.modCall_dbg, Dev.modKv_dbg, Dev.kvDone_dbg, Dev.hbmWr_dbg, Dev.releaseSession_dbg, Dev.endCall_dbg,
    ite_self]
@[simp] theorem Dev.initSession_dbg (s) : (d.initSession s).dbg = d.dbg := by
  unfold Dev.initSession
  extract_lets k e1 e2 e3 e4 e5
  have h3 : e3.dbg = d.dbg := by rw [Dev.modCall_dbg, Dev.setSes_dbg, Dev.setSes_dbg, Dev.setSstate_dbg, Dev.hbmWr_dbg]
  clear_value e3
  (repeat' split) <;> simp [e5, e4, h3]
@[simp] theorem Dev.accept_dbg (s) : (d.accept s).dbg = d.dbg := by simp -implicitDefEqProofs [Dev.accept]
@[simp] theorem Dev.tryAccept_dbg (s vocab) : (d.tryAccept s vocab).1.dbg = d.dbg := by
  unfold Dev.tryAccept
  extract_lets e stop
  have he : e.dbg = d.dbg := by simp [e]
  have hs (x : Dev) : (stop x).1.dbg = x.dbg := by rfl
  clear_value e stop
  (repeat' split) <;> simp [hs, he]
@[simp] theorem Dev.cacheSlot_dbg (s) : (d.cacheSlot s).1.dbg = d.dbg := by
  simp -implicitDefEqProofs only [Dev.cacheSlot]
  (repeat' split) <;> simp -implicitDefEqProofs
@[simp] theorem Dev.enterChunk_dbg (x j) : (d.enterChunk x j).dbg = d.dbg := by simp only [Dev.enterChunk]; split <;> simp
@[simp] theorem Dev.chunksEnter_dbg : d.chunksEnter.dbg = d.dbg := by simp [Dev.chunksEnter]
@[simp] theorem Dev.admitted_dbg (x cl admitted) : (d.admitted x cl admitted).dbg = d.dbg := by simp [Dev.admitted]
@[simp] theorem Dev.learnStep_dbg (marked) : (d.learnStep marked).dbg = d.dbg := by simp [Dev.learnStep]
@[simp] theorem Dev.sessionAfter_dbg (x) : (d.sessionAfter x).dbg = d.dbg := by unfold Dev.sessionAfter; split <;> simp
@[simp] theorem Dev.replayStep_dbg (x) : (d.replayStep x).dbg = d.dbg := by simp [Dev.replayStep]
@[simp] theorem Dev.endStep_dbg (x st cause) : (d.endStep x st cause).dbg = d.dbg := by simp [Dev.endStep, Dev.claimBack]
@[simp] theorem stepComplete_dbg (s t) : (stepComplete s t d).dbg = d.dbg := by
  simp only [stepComplete]; split <;> simp [Dev.setWindow, Dev.adaptK, Dev.completeOk]
@[simp] theorem Dev.mirrorRetry_dbg : d.mirrorRetry.dbg = d.dbg := by simp [Dev.mirrorRetry]
@[simp] theorem Dev.flushDiscards_dbg : d.flushDiscards.dbg = d.dbg := Dev.foldl_dbg (fun d x => by split <;> simp) _ _
@[simp] theorem Dev.aggregate_dbg : d.aggregate.dbg = d.dbg := by simp [Dev.aggregate]
@[simp] theorem Dev.endStall_dbg (st slot) : (d.endStall st slot).dbg = d.dbg := by simp [Dev.endStall, Dev.lateSlots]
@[simp] theorem Dev.cutStall_dbg (len) : (d.cutStall len).dbg = d.dbg := by unfold Dev.cutStall; split <;> simp
@[simp] theorem Dev.pauseSoft_dbg (all) : (d.pauseSoft all).dbg = d.dbg := by simp [Dev.pauseSoft]
@[simp] theorem Dev.idleLanes_dbg (idle) : (d.idleLanes idle).dbg = d.dbg := by simp [Dev.idleLanes]
@[simp] theorem Dev.beginCurtain_dbg : d.beginCurtain.dbg = d.dbg := by simp -implicitDefEqProofs [Dev.beginCurtain]
@[simp] theorem Dev.beginDrainKind_dbg (k) : (d.beginDrainKind k).dbg = d.dbg := by unfold Dev.beginDrainKind; split <;> simp
@[simp] theorem Dev.applyBands_dbg : d.applyBands.dbg = d.dbg := by simp [Dev.applyBands]
@[simp] theorem Dev.sendEcho_dbg (link) : (d.sendEcho link).dbg = d.dbg := by simp [Dev.sendEcho]
@[simp] theorem Dev.parentCheck_dbg (before) : (Dev.parentCheck before d).dbg = d.dbg := by unfold Dev.parentCheck; split <;> simp
@[simp] theorem Dev.switchMasks_dbg (num) : (d.switchMasks num).dbg = d.dbg := by simp [Dev.switchMasks]
@[simp] theorem Dev.newStreams_dbg : d.newStreams.dbg = d.dbg := by simp [Dev.newStreams]
@[simp] theorem Dev.restorePrompters_dbg : d.restorePrompters.dbg = d.dbg := by simp [Dev.restorePrompters]
@[simp] theorem Dev.reloadImage_dbg : d.reloadImage.dbg = d.dbg := by unfold Dev.reloadImage; split <;> simp
@[simp] theorem Dev.bandsBoundary_dbg : d.bandsBoundary.dbg = d.dbg := by simp [Dev.bandsBoundary]
@[simp] theorem Dev.nameDrain_dbg (num) : (d.nameDrain num).dbg = d.dbg := by unfold Dev.nameDrain; (repeat' split) <;> simp
@[simp] theorem Dev.nameRaise_dbg (num) : (d.nameRaise num).dbg = d.dbg := by simp [Dev.nameRaise]
end

section
@[simp] theorem Dev.ite_call (c : Prop) [Decidable c] (a b : Dev) : (if c then a else b).call = if c then a.call else b.call :=
  apply_ite Dev.call c a b
@[simp] theorem Dev.foldl_call {α : Type} {f : Dev → α → Dev} (h : ∀ d x, (f d x).call = d.call) (l : List α) (d : Dev) : (l.foldl f d).call = d.call :=
  Machine.foldl_keeps (fun e => e.call = d.call) f (fun e x he => (h e x).trans he) l d rfl
variable (d : Dev)
@[simp] theorem Dev.sendMsix_call (v) : (d.sendMsix v).call = d.call := by simp [Dev.sendMsix]
@[simp] theorem Dev.fireVector_call (v) : (d.fireVector v).call = d.call := by simp [Dev.fireVector]
@[simp] theorem Dev.event_call (e) : (d.event e).call = d.call := by simp [Dev.event]
@[simp] theorem Dev.settle_call (before) : (Dev.settle before d).call = d.call := by simp [Dev.settle]
@[simp] theorem Dev.setSt_call (st) : (d.setSt st).call = d.call := by simp [Dev.setSt]
@[simp] theorem Dev.ethSend_call (bs) : (d.ethSend bs).call = d.call := by simp [Dev.ethSend]
@[simp] theorem Dev.exactFail_call (cause) : (d.exactFail cause).call = d.call := by unfold Dev.exactFail; split <;> simp
@[simp] theorem Dev.exactDiscard_call (t) : (d.exactDiscard t).call = d.call := by unfold Dev.exactDiscard; split <;> simp
@[simp] theorem Dev.commitHistory_call : d.commitHistory.call = d.call := by simp [Dev.commitHistory]
@[simp] theorem Dev.finishDrain_call : d.finishDrain.call = d.call := by simp [Dev.finishDrain]
@[simp] theorem Dev.histEvent_call (kind unit score threshold) : (d.histEvent kind unit score threshold).1.call = d.call := by simp [Dev.histEvent]
@[simp] theorem Dev.modLink_call (n f) : (d.modLink n f).call = d.call := by simp [Dev.modLink]
@[simp] theorem Dev.sendUnit_call (link u) : (d.sendUnit link u).call = d.call := by simp [Dev.sendUnit]
@[simp] theorem Dev.flood_call (u) : (d.flood u).call = d.call := by simp [Dev.flood]
@[simp] theorem Dev.applyHolds_call : d.applyHolds.call = d.call := by simp [Dev.applyHolds]
@[simp] theorem Dev.engage_call (cause t set) : (d.engage cause t set).call = d.call := by simp [Dev.engage]
@[simp] theorem Dev.modArr_call (a f) : (d.modArr a f).call = d.call := by simp [Dev.modArr]
@[simp] theorem Dev.progCount_call (n) : (d.progCount n).call = d.call := by simp [Dev.progCount]
@[simp] theorem Dev.retire_call (a) : (d.retire a).call = d.call := by simp [Dev.retire]
@[simp] theorem Dev.dropWeights_call : d.dropWeights.call = d.call := by simp -implicitDefEqProofs [Dev.dropWeights]
@[simp] theorem Dev.wtFail_call (cause) : (d.wtFail cause).call = d.call := by simp [Dev.wtFail]
@[simp] theorem Dev.pauseProg_call (a) : (d.pauseProg a).call = d.call := by simp [Dev.pauseProg]
@[simp] theorem Dev.kvDone_call (cause) : (d.kvDone cause).call = d.call := by simp [Dev.kvDone]
@[simp] theorem Dev.pauseSoft_call (all) : (d.pauseSoft all).call = d.call := by simp [Dev.pauseSoft]
@[simp] theorem Dev.idleLanes_call (idle) : (d.idleLanes idle).call = d.call := by simp [Dev.idleLanes]
@[simp] theorem Dev.pathRead_call (path off) : (d.pathRead path off).1.call = d.call := by unfold Dev.pathRead; split <;> simp
end

section
@[simp] theorem Dev.ite_tile (c : Prop) [Decidable c] (a b : Dev) : (if c then a else b).tile = if c then a.tile else b.tile :=
  apply_ite Dev.tile c a b
@[simp] theorem Dev.fst_ite_tile {α : Type} (c : Prop) [Decidable c] (a b : Dev × α) :
    (if c then a else b).1.tile = if c then a.1.tile else b.1.tile := apply_ite (fun z : Dev × α => z.1.tile) c a b
@[simp] theorem Dev.foldl_tile {α : Type} {f : Dev → α → Dev} (h : ∀ d x, (f d x).tile = d.tile) (l : List α) (d : Dev) : (l.foldl f d).tile = d.tile :=
  Machine.foldl_keeps (fun e => e.tile = d.tile) f (fun e x he => (h e x).trans he) l d rfl
variable (d : Dev)
@[simp] theorem Dev.sendMsix_tile (v) : (d.sendMsix v).tile = d.tile := by simp [Dev.sendMsix]
@[simp] theorem Dev.fireVector_tile (v) : (d.fireVector v).tile = d.tile := by simp [Dev.fireVector]
@[simp] theorem Dev.event_tile (e) : (d.event e).tile = d.tile := by simp [Dev.event]
@[simp] theorem Dev.settle_tile (before) : (Dev.settle before d).tile = d.tile := by simp [Dev.settle]
@[simp] theorem Dev.setSt_tile (st) : (d.setSt st).tile = d.tile := by simp [Dev.setSt]
@[simp] theorem Dev.hbmWr_tile (a bs) : (d.hbmWr a bs).tile = d.tile := by simp [Dev.hbmWr]
@[simp] theorem Dev.setSes_tile (s off v) : (d.setSes s off v).tile = d.tile := by simp [Dev.setSes]
@[simp] theorem Dev.setSesF_tile (s off lo w x) : (d.setSesF s off lo w x).tile = d.tile := by simp [Dev.setSesF]
@[simp] theorem Dev.setSstate_tile (s v) : (d.setSstate s v).tile = d.tile := by simp [Dev.setSstate]
@[simp] theorem Dev.ethSend_tile (bs) : (d.ethSend bs).tile = d.tile := by simp [Dev.ethSend]
@[simp] theorem Dev.record_tile (i action nested) : (d.record i action nested).tile = d.tile := by simp [Dev.record]
@[simp] theorem Dev.commitHistory_tile : d.commitHistory.tile = d.tile := by simp [Dev.commitHistory]
@[simp] theorem Dev.finishDrain_tile : d.finishDrain.tile = d.tile := by simp [Dev.finishDrain]
@[simp] theorem Dev.linkLoss_tile : d.linkLoss.tile = d.tile := by simp [Dev.linkLoss]
@[simp] theorem Dev.blackout_tile : d.blackout.tile = d.tile := by simp [Dev.blackout]
@[simp] theorem Dev.histEvent_tile (kind unit score threshold) : (d.histEvent kind unit score threshold).1.tile = d.tile := by simp [Dev.histEvent]
@[simp] theorem Dev.histPermanent_tile (kind unit) : (d.histPermanent kind unit).tile = d.tile := by simp [Dev.histPermanent]
@[simp] theorem Dev.dmaCount_tile (n k) : (d.dmaCount n k).tile = d.tile := by simp [Dev.dmaCount]
@[simp] theorem Dev.callCount_tile (n) : (d.callCount n).tile = d.tile := by simp [Dev.callCount]
@[simp] theorem Dev.unpinAdapter_tile (s) : (d.unpinAdapter s).tile = d.tile := by simp [Dev.unpinAdapter]
@[simp] theorem Dev.writeRecord_tile (s accepted r) : (d.writeRecord s accepted r).tile = d.tile := by unfold Dev.writeRecord; (repeat' split) <;> simp
@[simp] theorem Dev.dropPairs_tile (x) : (d.dropPairs x).tile = d.tile := by simp [Dev.dropPairs]
@[simp] theorem Dev.closeCall_tile (s) : (d.closeCall s).tile = d.tile := by simp [Dev.closeCall]
@[simp] theorem Dev.moveHead_tile (s m) : (d.moveHead s m).tile = d.tile := by unfold Dev.moveHead; (repeat' split) <;> simp
@[simp] theorem Dev.modLink_tile (n f) : (d.modLink n f).tile = d.tile := by simp [Dev.modLink]
@[simp] theorem Dev.sendUnit_tile (link u) : (d.sendUnit link u).tile = d.tile := by simp [Dev.sendUnit]
@[simp] theorem Dev.flood_tile (u) : (d.flood u).tile = d.tile := by simp [Dev.flood]
@[simp] theorem Dev.tagWrite_tile (store keys cue) : (d.tagWrite store keys cue).tile = d.tile := by simp [Dev.tagWrite]
@[simp] theorem Dev.tagZeroing_tile : d.tagZeroing.tile = d.tile := by simp [Dev.tagZeroing]
@[simp] theorem Dev.precFlag_tile (t bit) : (d.precFlag t bit).tile = d.tile := by simp [Dev.precFlag]
@[simp] theorem Dev.claimBack_tile (x) : (d.claimBack x).tile = d.tile := by simp [Dev.claimBack]
@[simp] theorem Dev.kvDone_tile (cause) : (d.kvDone cause).tile = d.tile := by simp [Dev.kvDone]
@[simp] theorem Dev.aggregate_tile : d.aggregate.tile = d.tile := by simp [Dev.aggregate]
@[simp] theorem Dev.endStall_tile (st slot) : (d.endStall st slot).tile = d.tile := by simp [Dev.endStall, Dev.lateSlots]
@[simp] theorem Dev.cutStall_tile (len) : (d.cutStall len).tile = d.tile := by unfold Dev.cutStall; split <;> simp
@[simp] theorem Dev.resetSessions_tile : d.resetSessions.tile = d.tile := by simp [Dev.resetSessions]
@[simp] theorem Dev.pathRead_tile (path off) : (d.pathRead path off).1.tile = d.tile := by unfold Dev.pathRead; split <;> simp
end

section
@[simp] theorem Dev.ite_mesh (c : Prop) [Decidable c] (a b : Dev) : (if c then a else b).mesh = if c then a.mesh else b.mesh :=
  apply_ite Dev.mesh c a b
@[simp] theorem Dev.fst_ite_mesh {α : Type} (c : Prop) [Decidable c] (a b : Dev × α) :
    (if c then a else b).1.mesh = if c then a.1.mesh else b.1.mesh := apply_ite (fun z : Dev × α => z.1.mesh) c a b
@[simp] theorem Dev.foldl_mesh {α : Type} {f : Dev → α → Dev} (h : ∀ d x, (f d x).mesh = d.mesh) (l : List α) (d : Dev) : (l.foldl f d).mesh = d.mesh :=
  Machine.foldl_keeps (fun e => e.mesh = d.mesh) f (fun e x he => (h e x).trans he) l d rfl
variable (d : Dev)
@[simp] theorem Dev.sendMsix_mesh (v) : (d.sendMsix v).mesh = d.mesh := by simp [Dev.sendMsix]
@[simp] theorem Dev.fireVector_mesh (v) : (d.fireVector v).mesh = d.mesh := by simp [Dev.fireVector]
@[simp] theorem Dev.event_mesh (e) : (d.event e).mesh = d.mesh := by simp [Dev.event]
@[simp] theorem Dev.settle_mesh (before) : (Dev.settle before d).mesh = d.mesh := by simp [Dev.settle]
@[simp] theorem Dev.setSt_mesh (st) : (d.setSt st).mesh = d.mesh := by simp [Dev.setSt]
@[simp] theorem Dev.hbmWr_mesh (a bs) : (d.hbmWr a bs).mesh = d.mesh := by simp [Dev.hbmWr]
@[simp] theorem Dev.setSes_mesh (s off v) : (d.setSes s off v).mesh = d.mesh := by simp [Dev.setSes]
@[simp] theorem Dev.setSesF_mesh (s off lo w x) : (d.setSesF s off lo w x).mesh = d.mesh := by simp [Dev.setSesF]
@[simp] theorem Dev.setSstate_mesh (s v) : (d.setSstate s v).mesh = d.mesh := by simp [Dev.setSstate]
@[simp] theorem Dev.clearCalling_mesh (s) : (d.clearCalling s).mesh = d.mesh := by simp [Dev.clearCalling]
@[simp] theorem Dev.ethSend_mesh (bs) : (d.ethSend bs).mesh = d.mesh := by simp [Dev.ethSend]
@[simp] theorem Dev.record_mesh (i action nested) : (d.record i action nested).mesh = d.mesh := by simp [Dev.record]
@[simp] theorem Dev.exactFail_mesh (cause) : (d.exactFail cause).mesh = d.mesh := by unfold Dev.exactFail; split <;> simp
@[simp] theorem Dev.exactDiscard_mesh (t) : (d.exactDiscard t).mesh = d.mesh := by unfold Dev.exactDiscard; split <;> simp
@[simp] theorem Dev.discardStep_mesh (s cause) : (d.discardStep s cause).mesh = d.mesh := by simp [Dev.discardStep]
@[simp] theorem Dev.discardAll_mesh (cause) : (d.discardAll cause).mesh = d.mesh := by simp [Dev.discardAll]
@[simp] theorem Dev.commitHistory_mesh : d.commitHistory.mesh = d.mesh := by simp [Dev.commitHistory]
@[simp] theorem Dev.finishDrain_mesh : d.finishDrain.mesh = d.mesh := by simp [Dev.finishDrain]
@[simp] theorem Dev.enterStruck_mesh : d.enterStruck.mesh = d.mesh := by simp [Dev.enterStruck]
@[simp] theorem Dev.linkLoss_mesh : d.linkLoss.mesh = d.mesh := by simp [Dev.linkLoss]
@[simp] theorem Dev.blackout_mesh : d.blackout.mesh = d.mesh := by simp [Dev.blackout]
@[simp] theorem Dev.raise_mesh (i) : (d.raise i).mesh = d.mesh := by unfold Dev.raise; (repeat' split) <;> simp [Dev.beginDrain, Dev.fatalHandling]
@[simp] theorem Dev.discardTok_mesh (t cause) : (d.discardTok t cause).mesh = d.mesh := by simp [Dev.discardTok]
@[simp] theorem Dev.contain_mesh (i touched cause) : (d.contain i touched cause).mesh = d.mesh := by simp [Dev.contain]
@[simp] theorem Dev.histEvent_mesh (kind unit score threshold) : (d.histEvent kind unit score threshold).1.mesh = d.mesh := by simp [Dev.histEvent]
@[simp] theorem Dev.histPermanent_mesh (kind unit) : (d.histPermanent kind unit).mesh = d.mesh := by simp [Dev.histPermanent]
@[simp] theorem Dev.calError_mesh (cls) : (d.calError cls).mesh = d.mesh := by simp [Dev.calError]
@[simp] theorem Dev.calWrite_mesh {f : Dev → Dev} (h : ∀ d, (f d).mesh = d.mesh) : (d.calWrite f).1.mesh = d.mesh := by simp [Dev.calWrite, h]
@[simp] theorem Dev.dmaCount_mesh (n k) : (d.dmaCount n k).mesh = d.mesh := by simp [Dev.dmaCount]
@[simp] theorem Dev.callCount_mesh (n) : (d.callCount n).mesh = d.mesh := by simp [Dev.callCount]
@[simp] theorem Dev.kvCount_mesh (n k) : (d.kvCount n k).mesh = d.mesh := by simp [Dev.kvCount]
@[simp] theorem Dev.pinAdapter_mesh (s n) : (d.pinAdapter s n).mesh = d.mesh := by simp [Dev.pinAdapter]
@[simp] theorem Dev.unpinAdapter_mesh (s) : (d.unpinAdapter s).mesh = d.mesh := by simp [Dev.unpinAdapter]
@[simp] theorem Dev.writeRecord_mesh (s accepted r) : (d.writeRecord s accepted r).mesh = d.mesh := by unfold Dev.writeRecord; (repeat' split) <;> simp
@[simp] theorem Dev.dropPairs_mesh (x) : (d.dropPairs x).mesh = d.mesh := by simp [Dev.dropPairs]
@[simp] theorem Dev.closeCall_mesh (s) : (d.closeCall s).mesh = d.mesh := by simp [Dev.closeCall]
@[simp] theorem Dev.moveHead_mesh (s m) : (d.moveHead s m).mesh = d.mesh := by unfold Dev.moveHead; (repeat' split) <;> simp
@[simp] theorem Dev.endCall_mesh (s st cause m) : (d.endCall s st cause m).mesh = d.mesh := by simp [Dev.endCall]
@[simp] theorem Dev.sessionFault_mesh (s) : (d.sessionFault s).mesh = d.mesh := by simp [Dev.sessionFault]
@[simp] theorem Dev.applyHolds_mesh : d.applyHolds.mesh = d.mesh := by simp [Dev.applyHolds]
@[simp] theorem Dev.dropRemote_mesh : d.dropRemote.mesh = d.mesh := by simp [Dev.dropRemote]
@[simp] theorem Dev.tagWrite_mesh (store keys cue) : (d.tagWrite store keys cue).mesh = d.mesh := by simp [Dev.tagWrite]
@[simp] theorem Dev.tagZeroing_mesh : d.tagZeroing.mesh = d.mesh := by simp [Dev.tagZeroing]
@[simp] theorem Dev.useKeys_mesh (keys step) : (d.useKeys keys step).mesh = d.mesh := by simp [Dev.useKeys]
@[simp] theorem Dev.tileError_mesh (code tile pslot slot cue t) : (d.tileError code tile pslot slot cue t).mesh = d.mesh := by simp [Dev.tileError]
@[simp] theorem Dev.precFlag_mesh (t bit) : (d.precFlag t bit).mesh = d.mesh := by simp [Dev.precFlag]
@[simp] theorem Dev.precCount_mesh (tile n) : (d.precCount tile n).mesh = d.mesh := by simp [Dev.precCount]
@[simp] theorem Dev.contribute_mesh (c) : (d.contribute c).mesh = d.mesh := by simp [Dev.contribute]
@[simp] theorem Dev.unserved_mesh (r) : (d.unserved r).mesh = d.mesh := by simp [Dev.unserved]
@[simp] theorem Dev.request_mesh (r) : (d.request r).mesh = d.mesh := by simp only [Dev.request]; (repeat' split) <;> simp
@[simp] theorem Dev.clamped_mesh (tile t) : (d.clamped tile t).mesh = d.mesh := by simp [Dev.clamped]
@[simp] theorem Dev.modArr_mesh (a f) : (d.modArr a f).mesh = d.mesh := by simp [Dev.modArr]
@[simp] theorem Dev.phase_mesh (a range codes) : (d.phase a range codes).1.mesh = d.mesh := by simp [Dev.phase]
@[simp] theorem Dev.convert_mesh (a range ps) : (d.convert a range ps).1.mesh = d.mesh := by
  induction ps generalizing d with
  | nil => rfl
  | cons p ps ih => simp [Dev.convert, ih]
@[simp] theorem Dev.capture_mesh (a key range ps) : (d.capture a key range ps).mesh = d.mesh := by simp [Dev.capture]
@[simp] theorem Dev.evalTrouble_mesh (tok i b ps slot lane again) : (d.evalTrouble tok i b ps slot lane again).mesh = d.mesh := by
  simp [Dev.evalTrouble, Dev.markReplay, Dev.learnTrouble]
@[simp] theorem Dev.evalContrib_mesh (i kind slot ps) : (d.evalContrib i kind slot ps).mesh = d.mesh := by simp only [Dev.evalContrib]; split <;> simp
@[simp] theorem Dev.progCount_mesh (n) : (d.progCount n).mesh = d.mesh := by simp [Dev.progCount]
@[simp] theorem Dev.arrayError_mesh (code cls a flagged row pattern spare verdict) :
    (d.arrayError code cls a flagged row pattern spare verdict).mesh = d.mesh := by
  simp [Dev.arrayError]
@[simp] theorem Dev.tileSuspect_mesh (code tile slot) : (d.tileSuspect code tile slot).mesh = d.mesh := by simp [Dev.tileSuspect]
@[simp] theorem Dev.emptyServed_mesh (key) : (d.emptyServed key).mesh = d.mesh := Dev.foldl_mesh (fun d s => by split <;> simp) _ d
@[simp] theorem Dev.failPrincipal_mesh (code a flagged row pattern) : (d.failPrincipal code a flagged row pattern).mesh = d.mesh := by
  simp [Dev.failPrincipal]
@[simp] theorem Dev.sampleVprog_mesh (ok) : (d.sampleVprog ok).mesh = d.mesh := by simp [Dev.sampleVprog]
@[simp] theorem Dev.retire_mesh (a) : (d.retire a).mesh = d.mesh := by simp [Dev.retire]
@[simp] theorem Dev.startProg_mesh (a j) : (d.startProg a j).mesh = d.mesh := by simp [Dev.startProg]
@[simp] theorem Dev.startGains_mesh (a) : (d.startGains a).mesh = d.mesh := by simp [Dev.startGains]
@[simp] theorem Dev.takeRole_mesh (a slot) : (d.takeRole a slot).mesh = d.mesh := by simp [Dev.takeRole]
@[simp] theorem Dev.leaveRole_mesh (a) : (d.leaveRole a).mesh = d.mesh := by simp [Dev.leaveRole]
@[simp] theorem Dev.swapRole_mesh (a slot n) : (d.swapRole a slot n).mesh = d.mesh := Dev.calWrite_mesh d fun d => by
  rw [Dev.commitHistory_mesh]
  split <;> simp <;> split <;> simp
@[simp] theorem Dev.roleSwaps_mesh : d.roleSwaps.mesh = d.mesh := Dev.foldl_mesh (fun d e => by dsimp only; (repeat' split) <;> simp) _ d
@[simp] theorem Dev.ageFrame_mesh (a len) : (d.ageFrame a len).mesh = d.mesh := by simp [Dev.ageFrame]
@[simp] theorem Dev.arraysBoundary_mesh (len) : (d.arraysBoundary len).mesh = d.mesh := by simp [Dev.arraysBoundary, Dev.arrayBoundary]
@[simp] theorem Dev.agesEnd_mesh (len) : (d.agesEnd len).mesh = d.mesh := by simp [Dev.agesEnd]
@[simp] theorem Dev.wtFail_mesh (cause) : (d.wtFail cause).mesh = d.mesh := by simp [Dev.wtFail]
@[simp] theorem Dev.wornOut_mesh (a j) : (d.wornOut a j).mesh = d.mesh := by unfold Dev.wornOut; (repeat' split) <;> simp
@[simp] theorem Dev.pauseProg_mesh (a) : (d.pauseProg a).mesh = d.mesh := by simp [Dev.pauseProg]
@[simp] theorem Dev.startWaiting_mesh (a j) : (d.startWaiting a j).mesh = d.mesh := by simp only [Dev.startWaiting]; (repeat' split) <;> simp
@[simp] theorem Dev.resumePaused_mesh : d.resumePaused.mesh = d.mesh := Dev.foldl_mesh (fun d a => by dsimp only; (repeat' split) <;> simp) _ d
@[simp] theorem Dev.debit_mesh (s n anew) : (d.debit s n anew).mesh = d.mesh := by simp -implicitDefEqProofs [Dev.debit]
@[simp] theorem Dev.kvEmit_mesh (dst op m) : (d.kvEmit dst op m).mesh = d.mesh := by simp [Dev.kvEmit]
@[simp] theorem Dev.kvSend_mesh (dst op m) : (d.kvSend dst op m).mesh = d.mesh := by simp [Dev.kvSend]
@[simp] theorem Dev.laneOpen_mesh : d.laneOpen.mesh = d.mesh := by simp [Dev.laneOpen]
@[simp] theorem Dev.laneFree_mesh : d.laneFree.mesh = d.mesh := by unfold Dev.laneFree; split <;> simp
@[simp] theorem Dev.toOwners_mesh (op m) : (d.toOwners op m).mesh = d.mesh := by simp [Dev.toOwners]
@[simp] theorem Dev.releaseSession_mesh (s) : (d.releaseSession s).mesh = d.mesh := by simp [Dev.releaseSession]
@[simp] theorem Dev.kvNotice_mesh (k s op pos) : (d.kvNotice k s op pos).mesh = d.mesh := by unfold Dev.kvNotice; split <;> simp
@[simp] theorem Dev.kvPageBad_mesh (p e) : (d.kvPageBad p e).mesh = d.mesh := by unfold Dev.kvPageBad; split <;> simp
@[simp] theorem Dev.kvDone_mesh (cause) : (d.kvDone cause).mesh = d.mesh := by simp [Dev.kvDone]
@[simp] theorem Dev.swapOutStart_mesh (s host) : (d.swapOutStart s host).mesh = d.mesh := by simp -implicitDefEqProofs [Dev.swapOutStart]
@[simp] theorem Dev.swapInTry_mesh (s) : (d.swapInTry s).mesh = d.mesh := by simp [Dev.swapInTry]
@[simp] theorem Dev.wantSwapIn_mesh (s host) : (d.wantSwapIn s host).mesh = d.mesh := by simp [Dev.wantSwapIn]
@[simp] theorem Dev.forkDone_mesh (j) : (d.forkDone j).mesh = d.mesh := by unfold Dev.forkDone; split <;> simp
@[simp] theorem Dev.jobStart_mesh (j) : (d.jobStart j).mesh = d.mesh := by
  simp only [Dev.jobStart]
  split <;> simp -implicitDefEqProofs
@[simp] theorem Dev.swapsEnd_mesh : d.swapsEnd.mesh = d.mesh := by simp [Dev.swapsEnd, Dev.greenRoomError, Dev.swapDone]
@[simp] theorem Dev.kvScan_mesh : d.kvScan.mesh = d.mesh := by unfold Dev.kvScan; split <;> simp
@[simp] theorem Dev.preempt_mesh : d.preempt.mesh = d.mesh := by simp [Dev.preempt]
@[simp] theorem Dev.drainScan_mesh : d.drainScan.mesh = d.mesh := by simp [Dev.drainScan]
@[simp] theorem Dev.ringLost_mesh (s cw) : (d.ringLost s cw).mesh = d.mesh := by unfold Dev.ringLost; split <;> simp
@[simp] theorem Dev.sessionMemBad_mesh (cw e) : (d.sessionMemBad cw e).mesh = d.mesh := by
  simp only [Dev.sessionMemBad]; (repeat' split) <;> simp [Dev.rebuildBitmap]
@[simp] theorem Dev.emptySession_mesh (s) : (d.emptySession s).mesh = d.mesh := by
  simp only [Dev.emptySession, Dev.ite_mesh, Dev.modCall_mesh, Dev.modKv_mesh, Dev.kvDone_mesh, Dev.hbmWr_mesh, Dev.releaseSession_mesh, Dev.endCall_mesh,
    ite_self]
@[simp] theorem Dev.initSession_mesh (s) : (d.initSession s).mesh = d.mesh := by
  unfold Dev.initSession
  extract_lets k e1 e2 e3 e4 e5
  have h3 : e3.mesh = d.mesh := by rw [Dev.modCall_mesh, Dev.setSes_mesh, Dev.setSes_mesh, Dev.setSstate_mesh, Dev.hbmWr_mesh]
  clear_value e3
  (repeat' split) <;> simp [e5, e4, h3]
@[simp] theorem Dev.readBitmap_mesh (f) : (d.readBitmap f).mesh = d.mesh := by simp [Dev.readBitmap, Dev.examine]
@[simp] theorem Dev.accept_mesh (s) : (d.accept s).mesh = d.mesh := by simp -implicitDefEqProofs [Dev.accept]
@[simp] theorem Dev.tryAccept_mesh (s vocab) : (d.tryAccept s vocab).1.mesh = d.mesh := by
  unfold Dev.tryAccept
  extract_lets e stop
  have he : e.mesh = d.mesh := by simp [e]
  have hs (x : Dev) : (stop x).1.mesh = x.mesh := by rfl
  clear_value e stop
  (repeat' split) <;> simp [hs, he]
@[simp] theorem Dev.cacheSlot_mesh (s) : (d.cacheSlot s).1.mesh = d.mesh := by
  simp -implicitDefEqProofs only [Dev.cacheSlot]
  (repeat' split) <;> simp -implicitDefEqProofs
@[simp] theorem Dev.enterChunk_mesh (x j) : (d.enterChunk x j).mesh = d.mesh := by simp only [Dev.enterChunk]; split <;> simp
@[simp] theorem Dev.chunksEnter_mesh : d.chunksEnter.mesh = d.mesh := by simp [Dev.chunksEnter]
@[simp] theorem Dev.admitted_mesh (x cl admitted) : (d.admitted x cl admitted).mesh = d.mesh := by simp [Dev.admitted]
@[simp] theorem Dev.learnStep_mesh (marked) : (d.learnStep marked).mesh = d.mesh := by simp [Dev.learnStep]
@[simp] theorem Dev.sessionAfter_mesh (x) : (d.sessionAfter x).mesh = d.mesh := by unfold Dev.sessionAfter; split <;> simp
@[simp] theorem Dev.replayStep_mesh (x) : (d.replayStep x).mesh = d.mesh := by simp [Dev.replayStep]
@[simp] theorem Dev.endStep_mesh (x st cause) : (d.endStep x st cause).mesh = d.mesh := by simp [Dev.endStep, Dev.claimBack]
@[simp] theorem stepComplete_mesh (s t) : (stepComplete s t d).mesh = d.mesh := by
  simp only [stepComplete]; split <;> simp [Dev.setWindow, Dev.adaptK, Dev.completeOk]
@[simp] theorem Dev.mirrorRetry_mesh : d.mirrorRetry.mesh = d.mesh := by simp [Dev.mirrorRetry]
@[simp] theorem Dev.flushDiscards_mesh : d.flushDiscards.mesh = d.mesh := Dev.foldl_mesh (fun d x => by split <;> simp) _ _
@[simp] theorem Dev.aggregate_mesh : d.aggregate.mesh = d.mesh := by simp [Dev.aggregate]
@[simp] theorem Dev.pauseSoft_mesh (all) : (d.pauseSoft all).mesh = d.mesh := by simp [Dev.pauseSoft]
@[simp] theorem Dev.beginCurtain_mesh : d.beginCurtain.mesh = d.mesh := by simp -implicitDefEqProofs [Dev.beginCurtain]
@[simp] theorem Dev.beginDrainKind_mesh (k) : (d.beginDrainKind k).mesh = d.mesh := by unfold Dev.beginDrainKind; split <;> simp
@[simp] theorem Dev.applyBands_mesh : d.applyBands.mesh = d.mesh := by simp [Dev.applyBands]
@[simp] theorem Dev.commonLine_mesh (bank loc) : (d.commonLine bank loc).mesh = d.mesh := by simp -implicitDefEqProofs [Dev.commonLine]
@[simp] theorem Dev.mapOne_mesh (e) : (d.mapOne e).1.mesh = d.mesh := by simp -implicitDefEqProofs [Dev.mapOne]
@[simp] theorem Dev.mapOuts_mesh (now) : (d.mapOuts now).mesh = d.mesh := by simp [Dev.mapOuts]
@[simp] theorem Dev.mapOut_mesh (store unit loc) : (d.mapOut store unit loc).mesh = d.mesh := by simp [Dev.mapOut, Dev.hbmRowOut]
@[simp] theorem Dev.sramBad_mesh (store unit loc syms verdict) : (d.sramBad store unit loc syms verdict).mesh = d.mesh := by
  unfold Dev.sramBad; split <;> simp [Dev.loseKey]
@[simp] theorem Dev.hbmBad_mesh (cw syms slot cue toks verdict) : (d.hbmBad cw syms slot cue toks verdict).1.mesh = d.mesh := by
  simp only [Dev.hbmBad]; (repeat' split) <;> simp
@[simp] theorem Dev.readCw_mesh (store unit loc found scrub slot cue toks) : (d.readCw store unit loc found scrub slot cue toks).1.mesh = d.mesh := by
  simp only [Dev.readCw]; split <;> simp [Dev.locEvent]
@[simp] theorem Dev.reloadImage_mesh : d.reloadImage.mesh = d.mesh := by unfold Dev.reloadImage; split <;> simp
@[simp] theorem Dev.memBoundary_mesh : d.memBoundary.mesh = d.mesh := by simp [Dev.memBoundary, Dev.restorePrompters, Dev.missedMerges]
@[simp] theorem Dev.overrun_mesh (len) : (d.overrun len).mesh = d.mesh := by simp only [Dev.overrun]; (repeat' split) <;> simp
@[simp] theorem Dev.bandsBoundary_mesh : d.bandsBoundary.mesh = d.mesh := by simp [Dev.bandsBoundary]
@[simp] theorem Dev.raiseCurtain_mesh : d.raiseCurtain.mesh = d.mesh := by simp only [Dev.raiseCurtain]; (repeat' split) <;> simp
@[simp] theorem Dev.wakeStack_mesh (a) : (d.wakeStack a).mesh = d.mesh := by simp [Dev.wakeStack]
@[simp] theorem Dev.hostReadPart_mesh (a n found) : (d.hostReadPart a n found).1.mesh = d.mesh := by unfold Dev.hostReadPart; split <;> simp
end

section
@[simp] theorem Dev.ite_kv (c : Prop) [Decidable c] (a b : Dev) : (if c then a else b).kv = if c then a.kv else b.kv :=
  apply_ite Dev.kv c a b
@[simp] theorem Dev.fst_ite_kv {α : Type} (c : Prop) [Decidable c] (a b : Dev × α) :
    (if c then a else b).1.kv = if c then a.1.kv else b.1.kv := apply_ite (fun z : Dev × α => z.1.kv) c a b
@[simp] theorem Dev.foldl_kv {α : Type} {f : Dev → α → Dev} (h : ∀ d x, (f d x).kv = d.kv) (l : List α) (d : Dev) : (l.foldl f d).kv = d.kv :=
  Machine.foldl_keeps (fun e => e.kv = d.kv) f (fun e x he => (h e x).trans he) l d rfl
variable (d : Dev)
@[simp] theorem Dev.sendMsix_kv (v) : (d.sendMsix v).kv = d.kv := by simp [Dev.sendMsix]
@[simp] theorem Dev.fireVector_kv (v) : (d.fireVector v).kv = d.kv := by simp [Dev.fireVector]
@[simp] theorem Dev.event_kv (e) : (d.event e).kv = d.kv := by simp [Dev.event]
@[simp] theorem Dev.settle_kv (before) : (Dev.settle before d).kv = d.kv := by simp [Dev.settle]
@[simp] theorem Dev.setSt_kv (st) : (d.setSt st).kv = d.kv := by simp [Dev.setSt]
@[simp] theorem Dev.hbmWr_kv (a bs) : (d.hbmWr a bs).kv = d.kv := by simp [Dev.hbmWr]
@[simp] theorem Dev.setSes_kv (s off v) : (d.setSes s off v).kv = d.kv := by simp [Dev.setSes]
@[simp] theorem Dev.setSesF_kv (s off lo w x) : (d.setSesF s off lo w x).kv = d.kv := by simp [Dev.setSesF]
@[simp] theorem Dev.ethSend_kv (bs) : (d.ethSend bs).kv = d.kv := by simp [Dev.ethSend]
@[simp] theorem Dev.record_kv (i action nested) : (d.record i action nested).kv = d.kv := by simp [Dev.record]
@[simp] theorem Dev.exactFail_kv (cause) : (d.exactFail cause).kv = d.kv := by unfold Dev.exactFail; split <;> simp
@[simp] theorem Dev.exactDiscard_kv (t) : (d.exactDiscard t).kv = d.kv := by unfold Dev.exactDiscard; split <;> simp
@[simp] theorem Dev.discardStep_kv (s cause) : (d.discardStep s cause).kv = d.kv := by simp [Dev.discardStep]
@[simp] theorem Dev.discardAll_kv (cause) : (d.discardAll cause).kv = d.kv := by simp [Dev.discardAll]
@[simp] theorem Dev.commitHistory_kv : d.commitHistory.kv = d.kv := by simp [Dev.commitHistory]
@[simp] theorem Dev.finishDrain_kv : d.finishDrain.kv = d.kv := by simp [Dev.finishDrain]
@[simp] theorem Dev.enterStruck_kv : d.enterStruck.kv = d.kv := by simp [Dev.enterStruck]
@[simp] theorem Dev.linkLoss_kv : d.linkLoss.kv = d.kv := by simp [Dev.linkLoss]
@[simp] theorem Dev.blackout_kv : d.blackout.kv = d.kv := by simp [Dev.blackout]
@[simp] theorem Dev.raise_kv (i) : (d.raise i).kv = d.kv := by unfold Dev.raise; (repeat' split) <;> simp [Dev.beginDrain, Dev.fatalHandling]
@[simp] theorem Dev.discardTok_kv (t cause) : (d.discardTok t cause).kv = d.kv := by simp [Dev.discardTok]
@[simp] theorem Dev.contain_kv (i touched cause) : (d.contain i touched cause).kv = d.kv := by simp [Dev.contain]
@[simp] theorem Dev.histEvent_kv (kind unit score threshold) : (d.histEvent kind unit score threshold).1.kv = d.kv := by simp [Dev.histEvent]
@[simp] theorem Dev.histPermanent_kv (kind unit) : (d.histPermanent kind unit).kv = d.kv := by simp [Dev.histPermanent]
@[simp] theorem Dev.calError_kv (cls) : (d.calError cls).kv = d.kv := by simp [Dev.calError]
@[simp] theorem Dev.calWrite_kv {f : Dev → Dev} (h : ∀ d, (f d).kv = d.kv) : (d.calWrite f).1.kv = d.kv := by simp [Dev.calWrite, h]
@[simp] theorem Dev.callCount_kv (n) : (d.callCount n).kv = d.kv := by simp [Dev.callCount]
@[simp] theorem Dev.modLink_kv (n f) : (d.modLink n f).kv = d.kv := by simp [Dev.modLink]
@[simp] theorem Dev.sendUnit_kv (link u) : (d.sendUnit link u).kv = d.kv := by simp [Dev.sendUnit]
@[simp] theorem Dev.flood_kv (u) : (d.flood u).kv = d.kv := by simp [Dev.flood]
@[simp] theorem Dev.applyHolds_kv : d.applyHolds.kv = d.kv := by simp [Dev.applyHolds]
@[simp] theorem Dev.engage_kv (cause t set) : (d.engage cause t set).kv = d.kv := by simp [Dev.engage]
@[simp] theorem Dev.hazard_kv (store reader slot found n toks) : (d.hazard store reader slot found n toks).kv = d.kv := by
  simp only [Dev.hazard]; split <;> simp
@[simp] theorem Dev.hazRead_kv (store keys reader slot toks operand) : (d.hazRead store keys reader slot toks operand).kv = d.kv := by
  unfold Dev.hazRead
  split
  · exact Dev.foldl_kv (fun d n => by split <;> simp) _ d
  · rfl
@[simp] theorem Dev.useKeys_kv (keys step) : (d.useKeys keys step).kv = d.kv := by simp [Dev.useKeys]
@[simp] theorem Dev.rowsRd_kv (t keys slot cue operand) : (d.rowsRd t keys slot cue operand).1.kv = d.kv := by simp [Dev.rowsRd]
@[simp] theorem Dev.rowRd_kv (t tile row slot cue operand) : (d.rowRd t tile row slot cue operand).1.kv = d.kv := by simp [Dev.rowRd]
@[simp] theorem Dev.tileError_kv (code tile pslot slot cue t) : (d.tileError code tile pslot slot cue t).kv = d.kv := by simp [Dev.tileError]
@[simp] theorem Dev.precFlag_kv (t bit) : (d.precFlag t bit).kv = d.kv := by simp [Dev.precFlag]
@[simp] theorem Dev.precCount_kv (tile n) : (d.precCount tile n).kv = d.kv := by simp [Dev.precCount]
@[simp] theorem Dev.contribute_kv (c) : (d.contribute c).kv = d.kv := by simp [Dev.contribute]
@[simp] theorem Dev.unserved_kv (r) : (d.unserved r).kv = d.kv := by simp [Dev.unserved]
@[simp] theorem Dev.request_kv (r) : (d.request r).kv = d.kv := by simp only [Dev.request]; (repeat' split) <;> simp
@[simp] theorem Dev.clamped_kv (tile t) : (d.clamped tile t).kv = d.kv := by simp [Dev.clamped]
@[simp] theorem Dev.modArr_kv (a f) : (d.modArr a f).kv = d.kv := by simp [Dev.modArr]
@[simp] theorem Dev.phase_kv (a range codes) : (d.phase a range codes).1.kv = d.kv := by simp [Dev.phase]
@[simp] theorem Dev.convert_kv (a range ps) : (d.convert a range ps).1.kv = d.kv := by
  induction ps generalizing d with
  | nil => rfl
  | cons p ps ih => simp [Dev.convert, ih]
@[simp] theorem Dev.capture_kv (a key range ps) : (d.capture a key range ps).kv = d.kv := by simp [Dev.capture]
@[simp] theorem Dev.evalTrouble_kv (tok i b ps slot lane again) : (d.evalTrouble tok i b ps slot lane again).kv = d.kv := by
  simp [Dev.evalTrouble, Dev.markReplay, Dev.learnTrouble]
@[simp] theorem Dev.evalContrib_kv (i kind slot ps) : (d.evalContrib i kind slot ps).kv = d.kv := by simp only [Dev.evalContrib]; split <;> simp
@[simp] theorem Dev.evalTok_kv (c tok) : (d.evalTok c tok).kv = d.kv := by simp only [Dev.evalTok]; split <;> simp [Dev.serveLane]
@[simp] theorem Dev.progCount_kv (n) : (d.progCount n).kv = d.kv := by simp [Dev.progCount]
@[simp] theorem Dev.arrayError_kv (code cls a flagged row pattern spare verdict) :
    (d.arrayError code cls a flagged row pattern spare verdict).kv = d.kv := by
  simp [Dev.arrayError]
@[simp] theorem Dev.tileSuspect_kv (code tile slot) : (d.tileSuspect code tile slot).kv = d.kv := by simp [Dev.tileSuspect]
@[simp] theorem Dev.sampleVprog_kv (ok) : (d.sampleVprog ok).kv = d.kv := by simp [Dev.sampleVprog]
@[simp] theorem Dev.retire_kv (a) : (d.retire a).kv = d.kv := by simp [Dev.retire]
@[simp] theorem Dev.startProg_kv (a j) : (d.startProg a j).kv = d.kv := by simp [Dev.startProg]
@[simp] theorem Dev.dropWeights_kv : d.dropWeights.kv = d.kv := by simp -implicitDefEqProofs [Dev.dropWeights]
@[simp] theorem Dev.wtFail_kv (cause) : (d.wtFail cause).kv = d.kv := by simp [Dev.wtFail]
@[simp] theorem Dev.wornOut_kv (a j) : (d.wornOut a j).kv = d.kv := by unfold Dev.wornOut; (repeat' split) <;> simp
@[simp] theorem Dev.pauseProg_kv (a) : (d.pauseProg a).kv = d.kv := by simp [Dev.pauseProg]
@[simp] theorem Dev.startWaiting_kv (a j) : (d.startWaiting a j).kv = d.kv := by simp only [Dev.startWaiting]; (repeat' split) <;> simp
@[simp] theorem Dev.resumePaused_kv : d.resumePaused.kv = d.kv := Dev.foldl_kv (fun d a => by dsimp only; (repeat' split) <;> simp) _ d
@[simp] theorem Dev.cacheSlot_kv (s) : (d.cacheSlot s).1.kv = d.kv := by
  simp -implicitDefEqProofs only [Dev.cacheSlot]
  (repeat' split) <;> simp -implicitDefEqProofs
@[simp] theorem Dev.pauseSoft_kv (all) : (d.pauseSoft all).kv = d.kv := by simp [Dev.pauseSoft]
@[simp] theorem Dev.idleLanes_kv (idle) : (d.idleLanes idle).kv = d.kv := by simp [Dev.idleLanes]
@[simp] theorem Dev.pathRead_kv (path off) : (d.pathRead path off).1.kv = d.kv := by unfold Dev.pathRead; split <;> simp
end

section
@[simp] theorem Dev.ite_wts (c : Prop) [Decidable c] (a b : Dev) : (if c then a else b).wts = if c then a.wts else b.wts :=
  apply_ite Dev.wts c a b
@[simp] theorem Dev.fst_ite_wts {α : Type} (c : Prop) [Decidable c] (a b : Dev × α) :
    (if c then a else b).1.wts = if c then a.1.wts else b.1.wts := apply_ite (fun z : Dev × α => z.1.wts) c a b
@[simp] theorem Dev.foldl_wts {α : Type} {f : Dev → α → Dev} (h : ∀ d x, (f d x).wts = d.wts) (l : List α) (d : Dev) : (l.foldl f d).wts = d.wts :=
  Machine.foldl_keeps (fun e => e.wts = d.wts) f (fun e x he => (h e x).trans he) l d rfl
variable (d : Dev)
@[simp] theorem Dev.sendMsix_wts (v) : (d.sendMsix v).wts = d.wts := by simp [Dev.sendMsix]
@[simp] theorem Dev.fireVector_wts (v) : (d.fireVector v).wts = d.wts := by simp [Dev.fireVector]
@[simp] theorem Dev.event_wts (e) : (d.event e).wts = d.wts := by simp [Dev.event]
@[simp] theorem Dev.settle_wts (before) : (Dev.settle before d).wts = d.wts := by simp [Dev.settle]
@[simp] theorem Dev.setSt_wts (st) : (d.setSt st).wts = d.wts := by simp [Dev.setSt]
@[simp] theorem Dev.hbmWr_wts (a bs) : (d.hbmWr a bs).wts = d.wts := by simp [Dev.hbmWr]
@[simp] theorem Dev.setSes_wts (s off v) : (d.setSes s off v).wts = d.wts := by simp [Dev.setSes]
@[simp] theorem Dev.setSesF_wts (s off lo w x) : (d.setSesF s off lo w x).wts = d.wts := by simp [Dev.setSesF]
@[simp] theorem Dev.setSstate_wts (s v) : (d.setSstate s v).wts = d.wts := by simp [Dev.setSstate]
@[simp] theorem Dev.ethSend_wts (bs) : (d.ethSend bs).wts = d.wts := by simp [Dev.ethSend]
@[simp] theorem Dev.record_wts (i action nested) : (d.record i action nested).wts = d.wts := by simp [Dev.record]
@[simp] theorem Dev.exactFail_wts (cause) : (d.exactFail cause).wts = d.wts := by unfold Dev.exactFail; split <;> simp
@[simp] theorem Dev.exactDiscard_wts (t) : (d.exactDiscard t).wts = d.wts := by unfold Dev.exactDiscard; split <;> simp
@[simp] theorem Dev.discardStep_wts (s cause) : (d.discardStep s cause).wts = d.wts := by simp [Dev.discardStep]
@[simp] theorem Dev.discardAll_wts (cause) : (d.discardAll cause).wts = d.wts := by simp [Dev.discardAll]
@[simp] theorem Dev.commitHistory_wts : d.commitHistory.wts = d.wts := by simp [Dev.commitHistory]
@[simp] theorem Dev.finishDrain_wts : d.finishDrain.wts = d.wts := by simp [Dev.finishDrain]
@[simp] theorem Dev.enterStruck_wts : d.enterStruck.wts = d.wts := by simp [Dev.enterStruck]
@[simp] theorem Dev.linkLoss_wts : d.linkLoss.wts = d.wts := by simp [Dev.linkLoss]
@[simp] theorem Dev.blackout_wts : d.blackout.wts = d.wts := by simp [Dev.blackout]
@[simp] theorem Dev.raise_wts (i) : (d.raise i).wts = d.wts := by unfold Dev.raise; (repeat' split) <;> simp [Dev.beginDrain, Dev.fatalHandling]
@[simp] theorem Dev.discardTok_wts (t cause) : (d.discardTok t cause).wts = d.wts := by simp [Dev.discardTok]
@[simp] theorem Dev.contain_wts (i touched cause) : (d.contain i touched cause).wts = d.wts := by simp [Dev.contain]
@[simp] theorem Dev.histEvent_wts (kind unit score threshold) : (d.histEvent kind unit score threshold).1.wts = d.wts := by simp [Dev.histEvent]
@[simp] theorem Dev.calError_wts (cls) : (d.calError cls).wts = d.wts := by simp [Dev.calError]
@[simp] theorem Dev.calWrite_wts {f : Dev → Dev} (h : ∀ d, (f d).wts = d.wts) : (d.calWrite f).1.wts = d.wts := by simp [Dev.calWrite, h]
@[simp] theorem Dev.dmaCount_wts (n k) : (d.dmaCount n k).wts = d.wts := by simp [Dev.dmaCount]
@[simp] theorem Dev.callCount_wts (n) : (d.callCount n).wts = d.wts := by simp [Dev.callCount]
@[simp] theorem Dev.unpinAdapter_wts (s) : (d.unpinAdapter s).wts = d.wts := by simp [Dev.unpinAdapter]
@[simp] theorem Dev.writeRecord_wts (s accepted r) : (d.writeRecord s accepted r).wts = d.wts := by unfold Dev.writeRecord; (repeat' split) <;> simp
@[simp] theorem Dev.dropPairs_wts (x) : (d.dropPairs x).wts = d.wts := by simp [Dev.dropPairs]
@[simp] theorem Dev.closeCall_wts (s) : (d.closeCall s).wts = d.wts := by simp [Dev.closeCall]
@[simp] theorem Dev.moveHead_wts (s m) : (d.moveHead s m).wts = d.wts := by unfold Dev.moveHead; (repeat' split) <;> simp
@[simp] theorem Dev.endCall_wts (s st cause m) : (d.endCall s st cause m).wts = d.wts := by simp [Dev.endCall]
@[simp] theorem Dev.sessionFault_wts (s) : (d.sessionFault s).wts = d.wts := by simp [Dev.sessionFault]
@[simp] theorem Dev.modLink_wts (n f) : (d.modLink n f).wts = d.wts := by simp [Dev.modLink]
@[simp] theorem Dev.sendUnit_wts (link u) : (d.sendUnit link u).wts = d.wts := by simp [Dev.sendUnit]
@[simp] theorem Dev.flood_wts (u) : (d.flood u).wts = d.wts := by simp [Dev.flood]
@[simp] theorem Dev.applyHolds_wts : d.applyHolds.wts = d.wts := by simp [Dev.applyHolds]
@[simp] theorem Dev.engage_wts (cause t set) : (d.engage cause t set).wts = d.wts := by simp [Dev.engage]
@[simp] theorem Dev.tagWrite_wts (store keys cue) : (d.tagWrite store keys cue).wts = d.wts := by simp [Dev.tagWrite]
@[simp] theorem Dev.hazard_wts (store reader slot found n toks) : (d.hazard store reader slot found n toks).wts = d.wts := by
  simp only [Dev.hazard]; split <;> simp
@[simp] theorem Dev.hazRead_wts (store keys reader slot toks operand) : (d.hazRead store keys reader slot toks operand).wts = d.wts := by
  unfold Dev.hazRead
  split
  · exact Dev.foldl_wts (fun d n => by split <;> simp) _ d
  · rfl
@[simp] theorem Dev.useKeys_wts (keys step) : (d.useKeys keys step).wts = d.wts := by simp [Dev.useKeys]
@[simp] theorem Dev.rowsRd_wts (t keys slot cue operand) : (d.rowsRd t keys slot cue operand).1.wts = d.wts := by simp [Dev.rowsRd]
@[simp] theorem Dev.rowRd_wts (t tile row slot cue operand) : (d.rowRd t tile row slot cue operand).1.wts = d.wts := by simp [Dev.rowRd]
@[simp] theorem Dev.tileError_wts (code tile pslot slot cue t) : (d.tileError code tile pslot slot cue t).wts = d.wts := by simp [Dev.tileError]
@[simp] theorem Dev.precFlag_wts (t bit) : (d.precFlag t bit).wts = d.wts := by simp [Dev.precFlag]
@[simp] theorem Dev.precCount_wts (tile n) : (d.precCount tile n).wts = d.wts := by simp [Dev.precCount]
@[simp] theorem Dev.contribute_wts (c) : (d.contribute c).wts = d.wts := by simp [Dev.contribute]
@[simp] theorem Dev.unserved_wts (r) : (d.unserved r).wts = d.wts := by simp [Dev.unserved]
@[simp] theorem Dev.request_wts (r) : (d.request r).wts = d.wts := by simp only [Dev.request]; (repeat' split) <;> simp
@[simp] theorem Dev.clamped_wts (tile t) : (d.clamped tile t).wts = d.wts := by simp [Dev.clamped]
@[simp] theorem Dev.modArr_wts (a f) : (d.modArr a f).wts = d.wts := by simp [Dev.modArr]
@[simp] theorem Dev.phase_wts (a range codes) : (d.phase a range codes).1.wts = d.wts := by simp [Dev.phase]
@[simp] theorem Dev.convert_wts (a range ps) : (d.convert a range ps).1.wts = d.wts := by
  induction ps generalizing d with
  | nil => rfl
  | cons p ps ih => simp [Dev.convert, ih]
@[simp] theorem Dev.capture_wts (a key range ps) : (d.capture a key range ps).wts = d.wts := by simp [Dev.capture]
@[simp] theorem Dev.evalTrouble_wts (tok i b ps slot lane again) : (d.evalTrouble tok i b ps slot lane again).wts = d.wts := by
  simp [Dev.evalTrouble, Dev.markReplay, Dev.learnTrouble]
@[simp] theorem Dev.evalContrib_wts (i kind slot ps) : (d.evalContrib i kind slot ps).wts = d.wts := by simp only [Dev.evalContrib]; split <;> simp
@[simp] theorem Dev.evalTok_wts (c tok) : (d.evalTok c tok).wts = d.wts := by simp only [Dev.evalTok]; split <;> simp [Dev.serveLane]
@[simp] theorem Dev.pauseProg_wts (a) : (d.pauseProg a).wts = d.wts := by simp [Dev.pauseProg]
@[simp] theorem Dev.kvEmit_wts (dst op m) : (d.kvEmit dst op m).wts = d.wts := by simp [Dev.kvEmit]
@[simp] theorem Dev.kvSend_wts (dst op m) : (d.kvSend dst op m).wts = d.wts := by simp [Dev.kvSend]
@[simp] theorem Dev.kvNotice_wts (k s op pos) : (d.kvNotice k s op pos).wts = d.wts := by unfold Dev.kvNotice; split <;> simp
@[simp] theorem Dev.kvPageBad_wts (p e) : (d.kvPageBad p e).wts = d.wts := by unfold Dev.kvPageBad; split <;> simp
@[simp] theorem Dev.ringLost_wts (s cw) : (d.ringLost s cw).wts = d.wts := by unfold Dev.ringLost; split <;> simp
@[simp] theorem Dev.sessionMemBad_wts (cw e) : (d.sessionMemBad cw e).wts = d.wts := by
  simp only [Dev.sessionMemBad]; (repeat' split) <;> simp [Dev.rebuildBitmap]
@[simp] theorem Dev.pauseSoft_wts (all) : (d.pauseSoft all).wts = d.wts := by simp [Dev.pauseSoft]
@[simp] theorem Dev.idleLanes_wts (idle) : (d.idleLanes idle).wts = d.wts := by simp [Dev.idleLanes]
@[simp] theorem Dev.commonLine_wts (bank loc) : (d.commonLine bank loc).wts = d.wts := by simp -implicitDefEqProofs [Dev.commonLine]
@[simp] theorem Dev.mapOne_wts (e) : (d.mapOne e).1.wts = d.wts := by simp -implicitDefEqProofs [Dev.mapOne]
@[simp] theorem Dev.mapOuts_wts (now) : (d.mapOuts now).wts = d.wts := by simp [Dev.mapOuts]
@[simp] theorem Dev.mapOut_wts (store unit loc) : (d.mapOut store unit loc).wts = d.wts := by simp [Dev.mapOut, Dev.hbmRowOut]
@[simp] theorem Dev.sramBad_wts (store unit loc syms verdict) : (d.sramBad store unit loc syms verdict).wts = d.wts := by
  unfold Dev.sramBad; split <;> simp [Dev.loseKey]
@[simp] theorem Dev.hbmBad_wts (cw syms slot cue toks verdict) : (d.hbmBad cw syms slot cue toks verdict).1.wts = d.wts := by
  simp only [Dev.hbmBad]; (repeat' split) <;> simp
@[simp] theorem Dev.readCw_wts (store unit loc found scrub slot cue toks) : (d.readCw store unit loc found scrub slot cue toks).1.wts = d.wts := by
  simp only [Dev.readCw]; split <;> simp [Dev.locEvent]
@[simp] theorem Dev.wakeStack_wts (a) : (d.wakeStack a).wts = d.wts := by simp [Dev.wakeStack]
@[simp] theorem Dev.hostReadPart_wts (a n found) : (d.hostReadPart a n found).1.wts = d.wts := by unfold Dev.hostReadPart; split <;> simp
end

section
@[simp] theorem Dev.ite_scr (c : Prop) [Decidable c] (a b : Dev) : (if c then a else b).scr = if c then a.scr else b.scr :=
  apply_ite Dev.scr c a b
@[simp] theorem Dev.fst_ite_scr {α : Type} (c : Prop) [Decidable c] (a b : Dev × α) :
    (if c then a else b).1.scr = if c then a.1.scr else b.1.scr := apply_ite (fun z : Dev × α => z.1.scr) c a b
@[simp] theorem Dev.foldl_scr {α : Type} {f : Dev → α → Dev} (h : ∀ d x, (f d x).scr = d.scr) (l : List α) (d : Dev) : (l.foldl f d).scr = d.scr :=
  Machine.foldl_keeps (fun e => e.scr = d.scr) f (fun e x he => (h e x).trans he) l d rfl
variable (d : Dev)
@[simp] theorem Dev.sendMsix_scr (v) : (d.sendMsix v).scr = d.scr := by simp [Dev.sendMsix]
@[simp] theorem Dev.fireVector_scr (v) : (d.fireVector v).scr = d.scr := by simp [Dev.fireVector]
@[simp] theorem Dev.event_scr (e) : (d.event e).scr = d.scr := by simp [Dev.event]
@[simp] theorem Dev.settle_scr (before) : (Dev.settle before d).scr = d.scr := by simp [Dev.settle]
@[simp] theorem Dev.setSt_scr (st) : (d.setSt st).scr = d.scr := by simp [Dev.setSt]
@[simp] theorem Dev.hbmWr_scr (a bs) : (d.hbmWr a bs).scr = d.scr := by simp [Dev.hbmWr]
@[simp] theorem Dev.setSes_scr (s off v) : (d.setSes s off v).scr = d.scr := by simp [Dev.setSes]
@[simp] theorem Dev.setSesF_scr (s off lo w x) : (d.setSesF s off lo w x).scr = d.scr := by simp [Dev.setSesF]
@[simp] theorem Dev.setSstate_scr (s v) : (d.setSstate s v).scr = d.scr := by simp [Dev.setSstate]
@[simp] theorem Dev.ethSend_scr (bs) : (d.ethSend bs).scr = d.scr := by simp [Dev.ethSend]
@[simp] theorem Dev.record_scr (i action nested) : (d.record i action nested).scr = d.scr := by simp [Dev.record]
@[simp] theorem Dev.exactFail_scr (cause) : (d.exactFail cause).scr = d.scr := by unfold Dev.exactFail; split <;> simp
@[simp] theorem Dev.exactDiscard_scr (t) : (d.exactDiscard t).scr = d.scr := by unfold Dev.exactDiscard; split <;> simp
@[simp] theorem Dev.discardStep_scr (s cause) : (d.discardStep s cause).scr = d.scr := by simp [Dev.discardStep]
@[simp] theorem Dev.discardAll_scr (cause) : (d.discardAll cause).scr = d.scr := by simp [Dev.discardAll]
@[simp] theorem Dev.commitHistory_scr : d.commitHistory.scr = d.scr := by simp [Dev.commitHistory]
@[simp] theorem Dev.finishDrain_scr : d.finishDrain.scr = d.scr := by simp [Dev.finishDrain]
@[simp] theorem Dev.enterStruck_scr : d.enterStruck.scr = d.scr := by simp [Dev.enterStruck]
@[simp] theorem Dev.linkLoss_scr : d.linkLoss.scr = d.scr := by simp [Dev.linkLoss]
@[simp] theorem Dev.blackout_scr : d.blackout.scr = d.scr := by simp [Dev.blackout]
@[simp] theorem Dev.raise_scr (i) : (d.raise i).scr = d.scr := by unfold Dev.raise; (repeat' split) <;> simp [Dev.beginDrain, Dev.fatalHandling]
@[simp] theorem Dev.discardTok_scr (t cause) : (d.discardTok t cause).scr = d.scr := by simp [Dev.discardTok]
@[simp] theorem Dev.contain_scr (i touched cause) : (d.contain i touched cause).scr = d.scr := by simp [Dev.contain]
@[simp] theorem Dev.histEvent_scr (kind unit score threshold) : (d.histEvent kind unit score threshold).1.scr = d.scr := by simp [Dev.histEvent]
@[simp] theorem Dev.histPermanent_scr (kind unit) : (d.histPermanent kind unit).scr = d.scr := by simp [Dev.histPermanent]
@[simp] theorem Dev.calError_scr (cls) : (d.calError cls).scr = d.scr := by simp [Dev.calError]
@[simp] theorem Dev.calWrite_scr {f : Dev → Dev} (h : ∀ d, (f d).scr = d.scr) : (d.calWrite f).1.scr = d.scr := by simp [Dev.calWrite, h]
@[simp] theorem Dev.dmaCount_scr (n k) : (d.dmaCount n k).scr = d.scr := by simp [Dev.dmaCount]
@[simp] theorem Dev.callCount_scr (n) : (d.callCount n).scr = d.scr := by simp [Dev.callCount]
@[simp] theorem Dev.unpinAdapter_scr (s) : (d.unpinAdapter s).scr = d.scr := by simp [Dev.unpinAdapter]
@[simp] theorem Dev.writeRecord_scr (s accepted r) : (d.writeRecord s accepted r).scr = d.scr := by unfold Dev.writeRecord; (repeat' split) <;> simp
@[simp] theorem Dev.dropPairs_scr (x) : (d.dropPairs x).scr = d.scr := by simp [Dev.dropPairs]
@[simp] theorem Dev.closeCall_scr (s) : (d.closeCall s).scr = d.scr := by simp [Dev.closeCall]
@[simp] theorem Dev.moveHead_scr (s m) : (d.moveHead s m).scr = d.scr := by unfold Dev.moveHead; (repeat' split) <;> simp
@[simp] theorem Dev.endCall_scr (s st cause m) : (d.endCall s st cause m).scr = d.scr := by simp [Dev.endCall]
@[simp] theorem Dev.sessionFault_scr (s) : (d.sessionFault s).scr = d.scr := by simp [Dev.sessionFault]
@[simp] theorem Dev.modLink_scr (n f) : (d.modLink n f).scr = d.scr := by simp [Dev.modLink]
@[simp] theorem Dev.sendUnit_scr (link u) : (d.sendUnit link u).scr = d.scr := by simp [Dev.sendUnit]
@[simp] theorem Dev.flood_scr (u) : (d.flood u).scr = d.scr := by simp [Dev.flood]
@[simp] theorem Dev.sendDown_scr (u) : (d.sendDown u).scr = d.scr := by simp [Dev.sendDown]
@[simp] theorem Dev.applyHolds_scr : d.applyHolds.scr = d.scr := by simp [Dev.applyHolds]
@[simp] theorem Dev.engage_scr (cause t set) : (d.engage cause t set).scr = d.scr := by simp [Dev.engage]
@[simp] theorem Dev.dropRemote_scr : d.dropRemote.scr = d.scr := by simp [Dev.dropRemote]
@[simp] theorem Dev.tagWrite_scr (store keys cue) : (d.tagWrite store keys cue).scr = d.scr := by simp [Dev.tagWrite]
@[simp] theorem Dev.tagZeroing_scr : d.tagZeroing.scr = d.scr := by simp [Dev.tagZeroing]
@[simp] theorem Dev.useKeys_scr (keys step) : (d.useKeys keys step).scr = d.scr := by simp [Dev.useKeys]
@[simp] theorem Dev.tileError_scr (code tile pslot slot cue t) : (d.tileError code tile pslot slot cue t).scr = d.scr := by simp [Dev.tileError]
@[simp] theorem Dev.precFlag_scr (t bit) : (d.precFlag t bit).scr = d.scr := by simp [Dev.precFlag]
@[simp] theorem Dev.precCount_scr (tile n) : (d.precCount tile n).scr = d.scr := by simp [Dev.precCount]
@[simp] theorem Dev.contribute_scr (c) : (d.contribute c).scr = d.scr := by simp [Dev.contribute]
@[simp] theorem Dev.unserved_scr (r) : (d.unserved r).scr = d.scr := by simp [Dev.unserved]
@[simp] theorem Dev.request_scr (r) : (d.request r).scr = d.scr := by simp only [Dev.request]; (repeat' split) <;> simp
@[simp] theorem Dev.clamped_scr (tile t) : (d.clamped tile t).scr = d.scr := by simp [Dev.clamped]
@[simp] theorem Dev.modArr_scr (a f) : (d.modArr a f).scr = d.scr := by simp [Dev.modArr]
@[simp] theorem Dev.phase_scr (a range codes) : (d.phase a range codes).1.scr = d.scr := by simp [Dev.phase]
@[simp] theorem Dev.convert_scr (a range ps) : (d.convert a range ps).1.scr = d.scr := by
  induction ps generalizing d with
  | nil => rfl
  | cons p ps ih => simp [Dev.convert, ih]
@[simp] theorem Dev.capture_scr (a key range ps) : (d.capture a key range ps).scr = d.scr := by simp [Dev.capture]
@[simp] theorem Dev.evalTrouble_scr (tok i b ps slot lane again) : (d.evalTrouble tok i b ps slot lane again).scr = d.scr := by
  simp [Dev.evalTrouble, Dev.markReplay, Dev.learnTrouble]
@[simp] theorem Dev.evalContrib_scr (i kind slot ps) : (d.evalContrib i kind slot ps).scr = d.scr := by simp only [Dev.evalContrib]; split <;> simp
@[simp] theorem Dev.progCount_scr (n) : (d.progCount n).scr = d.scr := by simp [Dev.progCount]
@[simp] theorem Dev.arrayError_scr (code cls a flagged row pattern spare verdict) :
    (d.arrayError code cls a flagged row pattern spare verdict).scr = d.scr := by
  simp [Dev.arrayError]
@[simp] theorem Dev.tileSuspect_scr (code tile slot) : (d.tileSuspect code tile slot).scr = d.scr := by simp [Dev.tileSuspect]
@[simp] theorem Dev.emptyServed_scr (key) : (d.emptyServed key).scr = d.scr := Dev.foldl_scr (fun d s => by split <;> simp) _ d
@[simp] theorem Dev.failPrincipal_scr (code a flagged row pattern) : (d.failPrincipal code a flagged row pattern).scr = d.scr := by
  simp [Dev.failPrincipal]
@[simp] theorem Dev.sampleVprog_scr (ok) : (d.sampleVprog ok).scr = d.scr := by simp [Dev.sampleVprog]
@[simp] theorem Dev.retire_scr (a) : (d.retire a).scr = d.scr := by simp [Dev.retire]
@[simp] theorem Dev.startProg_scr (a j) : (d.startProg a j).scr = d.scr := by simp [Dev.startProg]
@[simp] theorem Dev.startGains_scr (a) : (d.startGains a).scr = d.scr := by simp [Dev.startGains]
@[simp] theorem Dev.takeRole_scr (a slot) : (d.takeRole a slot).scr = d.scr := by simp [Dev.takeRole]
@[simp] theorem Dev.leaveRole_scr (a) : (d.leaveRole a).scr = d.scr := by simp [Dev.leaveRole]
@[simp] theorem Dev.swapRole_scr (a slot n) : (d.swapRole a slot n).scr = d.scr := Dev.calWrite_scr d fun d => by
  rw [Dev.commitHistory_scr]
  split <;> simp <;> split <;> simp
@[simp] theorem Dev.roleSwaps_scr : d.roleSwaps.scr = d.scr := Dev.foldl_scr (fun d e => by dsimp only; (repeat' split) <;> simp) _ d
@[simp] theorem Dev.ageFrame_scr (a len) : (d.ageFrame a len).scr = d.scr := by simp [Dev.ageFrame]
@[simp] theorem Dev.arraysBoundary_scr (len) : (d.arraysBoundary len).scr = d.scr := by simp [Dev.arraysBoundary, Dev.arrayBoundary]
@[simp] theorem Dev.agesEnd_scr (len) : (d.agesEnd len).scr = d.scr := by simp [Dev.agesEnd]
@[simp] theorem Dev.dropWeights_scr : d.dropWeights.scr = d.scr := by simp -implicitDefEqProofs [Dev.dropWeights]
@[simp] theorem Dev.wtFail_scr (cause) : (d.wtFail cause).scr = d.scr := by simp [Dev.wtFail]
@[simp] theorem Dev.wornOut_scr (a j) : (d.wornOut a j).scr = d.scr := by unfold Dev.wornOut; (repeat' split) <;> simp
@[simp] theorem Dev.pauseProg_scr (a) : (d.pauseProg a).scr = d.scr := by simp [Dev.pauseProg]
@[simp] theorem Dev.startWaiting_scr (a j) : (d.startWaiting a j).scr = d.scr := by simp only [Dev.startWaiting]; (repeat' split) <;> simp
@[simp] theorem Dev.resumePaused_scr : d.resumePaused.scr = d.scr := Dev.foldl_scr (fun d a => by dsimp only; (repeat' split) <;> simp) _ d
@[simp] theorem Dev.kvEmit_scr (dst op m) : (d.kvEmit dst op m).scr = d.scr := by simp [Dev.kvEmit]
@[simp] theorem Dev.kvSend_scr (dst op m) : (d.kvSend dst op m).scr = d.scr := by simp [Dev.kvSend]
@[simp] theorem Dev.laneFree_scr : d.laneFree.scr = d.scr := by unfold Dev.laneFree; split <;> simp
@[simp] theorem Dev.kvNotice_scr (k s op pos) : (d.kvNotice k s op pos).scr = d.scr := by unfold Dev.kvNotice; split <;> simp
@[simp] theorem Dev.kvPageBad_scr (p e) : (d.kvPageBad p e).scr = d.scr := by unfold Dev.kvPageBad; split <;> simp
@[simp] theorem Dev.ringLost_scr (s cw) : (d.ringLost s cw).scr = d.scr := by unfold Dev.ringLost; split <;> simp
@[simp] theorem Dev.sessionMemBad_scr (cw e) : (d.sessionMemBad cw e).scr = d.scr := by
  simp only [Dev.sessionMemBad]; (repeat' split) <;> simp [Dev.rebuildBitmap]
@[simp] theorem Dev.endStep_scr (x st cause) : (d.endStep x st cause).scr = d.scr := by simp [Dev.endStep, Dev.claimBack]
@[simp] theorem Dev.flushDiscards_scr : d.flushDiscards.scr = d.scr := Dev.foldl_scr (fun d x => by split <;> simp) _ _
@[simp] theorem Dev.aggregate_scr : d.aggregate.scr = d.scr := by simp [Dev.aggregate]
@[simp] theorem Dev.endStall_scr (st slot) : (d.endStall st slot).scr = d.scr := by simp [Dev.endStall, Dev.lateSlots]
@[simp] theorem Dev.cutStall_scr (len) : (d.cutStall len).scr = d.scr := by unfold Dev.cutStall; split <;> simp
@[simp] theorem Dev.pauseSoft_scr (all) : (d.pauseSoft all).scr = d.scr := by simp [Dev.pauseSoft]
@[simp] theorem Dev.idleLanes_scr (idle) : (d.idleLanes idle).scr = d.scr := by simp [Dev.idleLanes]
@[simp] theorem Dev.trainLinks_scr : d.trainLinks.scr = d.scr := by simp [Dev.trainLinks]
@[simp] theorem Dev.applyBands_scr : d.applyBands.scr = d.scr := by simp [Dev.applyBands]
@[simp] theorem Dev.commonLine_scr (bank loc) : (d.commonLine bank loc).scr = d.scr := by simp -implicitDefEqProofs [Dev.commonLine]
@[simp] theorem Dev.mapOne_scr (e) : (d.mapOne e).1.scr = d.scr := by simp -implicitDefEqProofs [Dev.mapOne]
@[simp] theorem Dev.mapOuts_scr (now) : (d.mapOuts now).scr = d.scr := by simp [Dev.mapOuts]
@[simp] theorem Dev.mapOut_scr (store unit loc) : (d.mapOut store unit loc).scr = d.scr := by simp [Dev.mapOut, Dev.hbmRowOut]
@[simp] theorem Dev.sramBad_scr (store unit loc syms verdict) : (d.sramBad store unit loc syms verdict).scr = d.scr := by
  unfold Dev.sramBad; split <;> simp [Dev.loseKey]
@[simp] theorem Dev.hbmBad_scr (cw syms slot cue toks verdict) : (d.hbmBad cw syms slot cue toks verdict).1.scr = d.scr := by
  simp only [Dev.hbmBad]; (repeat' split) <;> simp
@[simp] theorem Dev.readCw_scr (store unit loc found scrub slot cue toks) : (d.readCw store unit loc found scrub slot cue toks).1.scr = d.scr := by
  simp only [Dev.readCw]; split <;> simp [Dev.locEvent]
@[simp] theorem Dev.reloadImage_scr : d.reloadImage.scr = d.scr := by unfold Dev.reloadImage; split <;> simp
@[simp] theorem Dev.memBoundary_scr : d.memBoundary.scr = d.scr := by simp [Dev.memBoundary, Dev.restorePrompters, Dev.missedMerges]
@[simp] theorem Dev.overrun_scr (len) : (d.overrun len).scr = d.scr := by simp only [Dev.overrun]; (repeat' split) <;> simp
@[simp] theorem Dev.bandsBoundary_scr : d.bandsBoundary.scr = d.scr := by simp [Dev.bandsBoundary]
@[simp] theorem Dev.releaseArrays_scr : d.releaseArrays.scr = d.scr := by simp -implicitDefEqProofs [Dev.releaseArrays]
@[simp] theorem Dev.pathRead_scr (path off) : (d.pathRead path off).1.scr = d.scr := by unfold Dev.pathRead; split <;> simp
@[simp] theorem Dev.wakeStack_scr (a) : (d.wakeStack a).scr = d.scr := by simp [Dev.wakeStack]
@[simp] theorem Dev.hostReadPart_scr (a n found) : (d.hostReadPart a n found).1.scr = d.scr := by unfold Dev.hostReadPart; split <;> simp
end

section
@[simp] theorem Dev.ite_now (c : Prop) [Decidable c] (a b : Dev) : (if c then a else b).now = if c then a.now else b.now :=
  apply_ite Dev.now c a b
@[simp] theorem Dev.fst_ite_now {α : Type} (c : Prop) [Decidable c] (a b : Dev × α) :
    (if c then a else b).1.now = if c then a.1.now else b.1.now := apply_ite (fun z : Dev × α => z.1.now) c a b
@[simp] theorem Dev.foldl_now {α : Type} {f : Dev → α → Dev} (h : ∀ d x, (f d x).now = d.now) (l : List α) (d : Dev) : (l.foldl f d).now = d.now :=
  Machine.foldl_keeps (fun e => e.now = d.now) f (fun e x he => (h e x).trans he) l d rfl
variable (d : Dev)
@[simp] theorem Dev.sendMsix_now (v) : (d.sendMsix v).now = d.now := by simp [Dev.sendMsix]
@[simp] theorem Dev.fireVector_now (v) : (d.fireVector v).now = d.now := by simp [Dev.fireVector]
@[simp] theorem Dev.event_now (e) : (d.event e).now = d.now := by simp [Dev.event]
@[simp] theorem Dev.settle_now (before) : (Dev.settle before d).now = d.now := by simp [Dev.settle]
@[simp] theorem Dev.setSt_now (st) : (d.setSt st).now = d.now := by simp [Dev.setSt]
@[simp] theorem Dev.hbmWr_now (a bs) : (d.hbmWr a bs).now = d.now := by simp [Dev.hbmWr]
@[simp] theorem Dev.setSes_now (s off v) : (d.setSes s off v).now = d.now := by simp [Dev.setSes]
@[simp] theorem Dev.setSesF_now (s off lo w x) : (d.setSesF s off lo w x).now = d.now := by simp [Dev.setSesF]
@[simp] theorem Dev.setSstate_now (s v) : (d.setSstate s v).now = d.now := by simp [Dev.setSstate]
@[simp] theorem Dev.ethSend_now (bs) : (d.ethSend bs).now = d.now := by simp [Dev.ethSend]
@[simp] theorem Dev.record_now (i action nested) : (d.record i action nested).now = d.now := by simp [Dev.record]
@[simp] theorem Dev.exactFail_now (cause) : (d.exactFail cause).now = d.now := by unfold Dev.exactFail; split <;> simp
@[simp] theorem Dev.exactDiscard_now (t) : (d.exactDiscard t).now = d.now := by unfold Dev.exactDiscard; split <;> simp
@[simp] theorem Dev.discardStep_now (s cause) : (d.discardStep s cause).now = d.now := by simp [Dev.discardStep]
@[simp] theorem Dev.discardAll_now (cause) : (d.discardAll cause).now = d.now := by simp [Dev.discardAll]
@[simp] theorem Dev.commitHistory_now : d.commitHistory.now = d.now := by simp [Dev.commitHistory]
@[simp] theorem Dev.finishDrain_now : d.finishDrain.now = d.now := by simp [Dev.finishDrain]
@[simp] theorem Dev.enterStruck_now : d.enterStruck.now = d.now := by simp [Dev.enterStruck]
@[simp] theorem Dev.linkLoss_now : d.linkLoss.now = d.now := by simp [Dev.linkLoss]
@[simp] theorem Dev.blackout_now : d.blackout.now = d.now := by simp [Dev.blackout]
@[simp] theorem Dev.raise_now (i) : (d.raise i).now = d.now := by unfold Dev.raise; (repeat' split) <;> simp [Dev.beginDrain, Dev.fatalHandling]
@[simp] theorem Dev.discardTok_now (t cause) : (d.discardTok t cause).now = d.now := by simp [Dev.discardTok]
@[simp] theorem Dev.contain_now (i touched cause) : (d.contain i touched cause).now = d.now := by simp [Dev.contain]
@[simp] theorem Dev.histEvent_now (kind unit score threshold) : (d.histEvent kind unit score threshold).1.now = d.now := by simp [Dev.histEvent]
@[simp] theorem Dev.calError_now (cls) : (d.calError cls).now = d.now := by simp [Dev.calError]
@[simp] theorem Dev.calWrite_now {f : Dev → Dev} (h : ∀ d, (f d).now = d.now) : (d.calWrite f).1.now = d.now := by simp [Dev.calWrite, h]
@[simp] theorem Dev.dmaCount_now (n k) : (d.dmaCount n k).now = d.now := by simp [Dev.dmaCount]
@[simp] theorem Dev.callCount_now (n) : (d.callCount n).now = d.now := by simp [Dev.callCount]
@[simp] theorem Dev.unpinAdapter_now (s) : (d.unpinAdapter s).now = d.now := by simp [Dev.unpinAdapter]
@[simp] theorem Dev.writeRecord_now (s accepted r) : (d.writeRecord s accepted r).now = d.now := by unfold Dev.writeRecord; (repeat' split) <;> simp
@[simp] theorem Dev.dropPairs_now (x) : (d.dropPairs x).now = d.now := by simp [Dev.dropPairs]
@[simp] theorem Dev.closeCall_now (s) : (d.closeCall s).now = d.now := by simp [Dev.closeCall]
@[simp] theorem Dev.moveHead_now (s m) : (d.moveHead s m).now = d.now := by unfold Dev.moveHead; (repeat' split) <;> simp
@[simp] theorem Dev.endCall_now (s st cause m) : (d.endCall s st cause m).now = d.now := by simp [Dev.endCall]
@[simp] theorem Dev.sessionFault_now (s) : (d.sessionFault s).now = d.now := by simp [Dev.sessionFault]
@[simp] theorem Dev.modLink_now (n f) : (d.modLink n f).now = d.now := by simp [Dev.modLink]
@[simp] theorem Dev.sendUnit_now (link u) : (d.sendUnit link u).now = d.now := by simp [Dev.sendUnit]
@[simp] theorem Dev.flood_now (u) : (d.flood u).now = d.now := by simp [Dev.flood]
@[simp] theorem Dev.applyHolds_now : d.applyHolds.now = d.now := by simp [Dev.applyHolds]
@[simp] theorem Dev.tagWrite_now (store keys cue) : (d.tagWrite store keys cue).now = d.now := by simp [Dev.tagWrite]
@[simp] theorem Dev.kvEmit_now (dst op m) : (d.kvEmit dst op m).now = d.now := by simp [Dev.kvEmit]
@[simp] theorem Dev.kvSend_now (dst op m) : (d.kvSend dst op m).now = d.now := by simp [Dev.kvSend]
@[simp] theorem Dev.kvNotice_now (k s op pos) : (d.kvNotice k s op pos).now = d.now := by unfold Dev.kvNotice; split <;> simp
@[simp] theorem Dev.kvPageBad_now (p e) : (d.kvPageBad p e).now = d.now := by unfold Dev.kvPageBad; split <;> simp
@[simp] theorem Dev.ringLost_now (s cw) : (d.ringLost s cw).now = d.now := by unfold Dev.ringLost; split <;> simp
@[simp] theorem Dev.sessionMemBad_now (cw e) : (d.sessionMemBad cw e).now = d.now := by
  simp only [Dev.sessionMemBad]; (repeat' split) <;> simp [Dev.rebuildBitmap]
@[simp] theorem Dev.commonLine_now (bank loc) : (d.commonLine bank loc).now = d.now := by simp -implicitDefEqProofs [Dev.commonLine]
@[simp] theorem Dev.mapOne_now (e) : (d.mapOne e).1.now = d.now := by simp -implicitDefEqProofs [Dev.mapOne]
@[simp] theorem Dev.mapOuts_now (now) : (d.mapOuts now).now = d.now := by simp [Dev.mapOuts]
@[simp] theorem Dev.mapOut_now (store unit loc) : (d.mapOut store unit loc).now = d.now := by simp [Dev.mapOut, Dev.hbmRowOut]
@[simp] theorem Dev.sramBad_now (store unit loc syms verdict) : (d.sramBad store unit loc syms verdict).now = d.now := by
  unfold Dev.sramBad; split <;> simp [Dev.loseKey]
@[simp] theorem Dev.hbmBad_now (cw syms slot cue toks verdict) : (d.hbmBad cw syms slot cue toks verdict).1.now = d.now := by
  simp only [Dev.hbmBad]; (repeat' split) <;> simp
@[simp] theorem Dev.readCw_now (store unit loc found scrub slot cue toks) : (d.readCw store unit loc found scrub slot cue toks).1.now = d.now := by
  simp only [Dev.readCw]; split <;> simp [Dev.locEvent]
@[simp] theorem Dev.wakeStack_now (a) : (d.wakeStack a).now = d.now := by simp [Dev.wakeStack]
@[simp] theorem Dev.hostReadPart_now (a n found) : (d.hostReadPart a n found).1.now = d.now := by unfold Dev.hostReadPart; split <;> simp
end

section
@[simp] theorem Dev.ite_eng (c : Prop) [Decidable c] (a b : Dev) : (if c then a else b).eng = if c then a.eng else b.eng :=
  apply_ite Dev.eng c a b
@[simp] theorem Dev.fst_ite_eng {α : Type} (c : Prop) [Decidable c] (a b : Dev × α) :
    (if c then a else b).1.eng = if c then a.1.eng else b.1.eng := apply_ite (fun z : Dev × α => z.1.eng) c a b
@[simp] theorem Dev.foldl_eng {α : Type} {f : Dev → α → Dev} (h : ∀ d x, (f d x).eng = d.eng) (l : List α) (d : Dev) : (l.foldl f d).eng = d.eng :=
  Machine.foldl_keeps (fun e => e.eng = d.eng) f (fun e x he => (h e x).trans he) l d rfl
variable (d : Dev)
@[simp] theorem Dev.sendMsix_eng (v) : (d.sendMsix v).eng = d.eng := by simp [Dev.sendMsix]
@[simp] theorem Dev.fireVector_eng (v) : (d.fireVector v).eng = d.eng := by simp [Dev.fireVector]
@[simp] theorem Dev.event_eng (e) : (d.event e).eng = d.eng := by simp [Dev.event]
@[simp] theorem Dev.settle_eng (before) : (Dev.settle before d).eng = d.eng := by simp [Dev.settle]
@[simp] theorem Dev.setSt_eng (st) : (d.setSt st).eng = d.eng := by simp [Dev.setSt]
@[simp] theorem Dev.hbmWr_eng (a bs) : (d.hbmWr a bs).eng = d.eng := by simp [Dev.hbmWr]
@[simp] theorem Dev.setSes_eng (s off v) : (d.setSes s off v).eng = d.eng := by simp [Dev.setSes]
@[simp] theorem Dev.setSesF_eng (s off lo w x) : (d.setSesF s off lo w x).eng = d.eng := by simp [Dev.setSesF]
@[simp] theorem Dev.setSstate_eng (s v) : (d.setSstate s v).eng = d.eng := by simp [Dev.setSstate]
@[simp] theorem Dev.exactFail_eng (cause) : (d.exactFail cause).eng = d.eng := by unfold Dev.exactFail; split <;> simp
@[simp] theorem Dev.exactDiscard_eng (t) : (d.exactDiscard t).eng = d.eng := by unfold Dev.exactDiscard; split <;> simp
@[simp] theorem Dev.discardStep_eng (s cause) : (d.discardStep s cause).eng = d.eng := by simp [Dev.discardStep]
@[simp] theorem Dev.discardAll_eng (cause) : (d.discardAll cause).eng = d.eng := by simp [Dev.discardAll]
@[simp] theorem Dev.commitHistory_eng : d.commitHistory.eng = d.eng := by simp [Dev.commitHistory]
@[simp] theorem Dev.finishDrain_eng : d.finishDrain.eng = d.eng := by simp [Dev.finishDrain]
@[simp] theorem Dev.enterStruck_eng : d.enterStruck.eng = d.eng := by simp [Dev.enterStruck]
@[simp] theorem Dev.linkLoss_eng : d.linkLoss.eng = d.eng := by simp [Dev.linkLoss]
@[simp] theorem Dev.blackout_eng : d.blackout.eng = d.eng := by simp [Dev.blackout]
@[simp] theorem Dev.raise_eng (i) : (d.raise i).eng = d.eng := by unfold Dev.raise; (repeat' split) <;> simp [Dev.beginDrain, Dev.fatalHandling]
@[simp] theorem Dev.contain_eng (i touched cause) : (d.contain i touched cause).eng = d.eng := by simp [Dev.contain]
@[simp] theorem Dev.histEvent_eng (kind unit score threshold) : (d.histEvent kind unit score threshold).1.eng = d.eng := by simp [Dev.histEvent]
@[simp] theorem Dev.calError_eng (cls) : (d.calError cls).eng = d.eng := by simp [Dev.calError]
@[simp] theorem Dev.calWrite_eng {f : Dev → Dev} (h : ∀ d, (f d).eng = d.eng) : (d.calWrite f).1.eng = d.eng := by simp [Dev.calWrite, h]
@[simp] theorem Dev.dmaCount_eng (n k) : (d.dmaCount n k).eng = d.eng := by simp [Dev.dmaCount]
@[simp] theorem Dev.callCount_eng (n) : (d.callCount n).eng = d.eng := by simp [Dev.callCount]
@[simp] theorem Dev.unpinAdapter_eng (s) : (d.unpinAdapter s).eng = d.eng := by simp [Dev.unpinAdapter]
@[simp] theorem Dev.writeRecord_eng (s accepted r) : (d.writeRecord s accepted r).eng = d.eng := by unfold Dev.writeRecord; (repeat' split) <;> simp
@[simp] theorem Dev.dropPairs_eng (x) : (d.dropPairs x).eng = d.eng := by simp [Dev.dropPairs]
@[simp] theorem Dev.closeCall_eng (s) : (d.closeCall s).eng = d.eng := by simp [Dev.closeCall]
@[simp] theorem Dev.moveHead_eng (s m) : (d.moveHead s m).eng = d.eng := by unfold Dev.moveHead; (repeat' split) <;> simp
@[simp] theorem Dev.endCall_eng (s st cause m) : (d.endCall s st cause m).eng = d.eng := by simp [Dev.endCall]
@[simp] theorem Dev.sessionFault_eng (s) : (d.sessionFault s).eng = d.eng := by simp [Dev.sessionFault]
@[simp] theorem Dev.modLink_eng (n f) : (d.modLink n f).eng = d.eng := by simp [Dev.modLink]
@[simp] theorem Dev.sendUnit_eng (link u) : (d.sendUnit link u).eng = d.eng := by simp [Dev.sendUnit]
@[simp] theorem Dev.flood_eng (u) : (d.flood u).eng = d.eng := by simp [Dev.flood]
@[simp] theorem Dev.applyHolds_eng : d.applyHolds.eng = d.eng := by simp [Dev.applyHolds]
@[simp] theorem Dev.engage_eng (cause t set) : (d.engage cause t set).eng = d.eng := by simp [Dev.engage]
@[simp] theorem Dev.tagWrite_eng (store keys cue) : (d.tagWrite store keys cue).eng = d.eng := by simp [Dev.tagWrite]
@[simp] theorem Dev.hazard_eng (store reader slot found n toks) : (d.hazard store reader slot found n toks).eng = d.eng := by
  simp only [Dev.hazard]; split <;> simp
@[simp] theorem Dev.hazRead_eng (store keys reader slot toks operand) : (d.hazRead store keys reader slot toks operand).eng = d.eng := by
  unfold Dev.hazRead
  split
  · exact Dev.foldl_eng (fun d n => by split <;> simp) _ d
  · rfl
@[simp] theorem Dev.rowsRd_eng (t keys slot cue operand) : (d.rowsRd t keys slot cue operand).1.eng = d.eng := by simp [Dev.rowsRd]
@[simp] theorem Dev.rowRd_eng (t tile row slot cue operand) : (d.rowRd t tile row slot cue operand).1.eng = d.eng := by simp [Dev.rowRd]
@[simp] theorem Dev.tileError_eng (code tile pslot slot cue t) : (d.tileError code tile pslot slot cue t).eng = d.eng := by simp [Dev.tileError]
@[simp] theorem Dev.precFlag_eng (t bit) : (d.precFlag t bit).eng = d.eng := by simp [Dev.precFlag]
@[simp] theorem Dev.precCount_eng (tile n) : (d.precCount tile n).eng = d.eng := by simp [Dev.precCount]
@[simp] theorem Dev.contribute_eng (c) : (d.contribute c).eng = d.eng := by simp [Dev.contribute]
@[simp] theorem Dev.unserved_eng (r) : (d.unserved r).eng = d.eng := by simp [Dev.unserved]
@[simp] theorem Dev.request_eng (r) : (d.request r).eng = d.eng := by simp only [Dev.request]; (repeat' split) <;> simp
@[simp] theorem Dev.clamped_eng (tile t) : (d.clamped tile t).eng = d.eng := by simp [Dev.clamped]
@[simp] theorem Dev.modArr_eng (a f) : (d.modArr a f).eng = d.eng := by simp [Dev.modArr]
@[simp] theorem Dev.phase_eng (a range codes) : (d.phase a range codes).1.eng = d.eng := by simp [Dev.phase]
@[simp] theorem Dev.convert_eng (a range ps) : (d.convert a range ps).1.eng = d.eng := by
  induction ps generalizing d with
  | nil => rfl
  | cons p ps ih => simp [Dev.convert, ih]
@[simp] theorem Dev.capture_eng (a key range ps) : (d.capture a key range ps).eng = d.eng := by simp [Dev.capture]
@[simp] theorem Dev.evalTrouble_eng (tok i b ps slot lane again) : (d.evalTrouble tok i b ps slot lane again).eng = d.eng := by
  simp [Dev.evalTrouble, Dev.markReplay, Dev.learnTrouble]
@[simp] theorem Dev.evalContrib_eng (i kind slot ps) : (d.evalContrib i kind slot ps).eng = d.eng := by simp only [Dev.evalContrib]; split <;> simp
@[simp] theorem Dev.evalTok_eng (c tok) : (d.evalTok c tok).eng = d.eng := by simp only [Dev.evalTok]; split <;> simp [Dev.serveLane]
@[simp] theorem Dev.kvEmit_eng (dst op m) : (d.kvEmit dst op m).eng = d.eng := by simp [Dev.kvEmit]
@[simp] theorem Dev.kvSend_eng (dst op m) : (d.kvSend dst op m).eng = d.eng := by simp [Dev.kvSend]
@[simp] theorem Dev.kvNotice_eng (k s op pos) : (d.kvNotice k s op pos).eng = d.eng := by unfold Dev.kvNotice; split <;> simp
@[simp] theorem Dev.kvPageBad_eng (p e) : (d.kvPageBad p e).eng = d.eng := by unfold Dev.kvPageBad; split <;> simp
@[simp] theorem Dev.ringLost_eng (s cw) : (d.ringLost s cw).eng = d.eng := by unfold Dev.ringLost; split <;> simp
@[simp] theorem Dev.sessionMemBad_eng (cw e) : (d.sessionMemBad cw e).eng = d.eng := by
  simp only [Dev.sessionMemBad]; (repeat' split) <;> simp [Dev.rebuildBitmap]
@[simp] theorem Dev.commonLine_eng (bank loc) : (d.commonLine bank loc).eng = d.eng := by simp -implicitDefEqProofs [Dev.commonLine]
@[simp] theorem Dev.mapOne_eng (e) : (d.mapOne e).1.eng = d.eng := by simp -implicitDefEqProofs [Dev.mapOne]
@[simp] theorem Dev.mapOuts_eng (now) : (d.mapOuts now).eng = d.eng := by simp [Dev.mapOuts]
@[simp] theorem Dev.mapOut_eng (store unit loc) : (d.mapOut store unit loc).eng = d.eng := by simp [Dev.mapOut, Dev.hbmRowOut]
@[simp] theorem Dev.sramBad_eng (store unit loc syms verdict) : (d.sramBad store unit loc syms verdict).eng = d.eng := by
  unfold Dev.sramBad; split <;> simp [Dev.loseKey]
@[simp] theorem Dev.hbmBad_eng (cw syms slot cue toks verdict) : (d.hbmBad cw syms slot cue toks verdict).1.eng = d.eng := by
  simp only [Dev.hbmBad]; (repeat' split) <;> simp
@[simp] theorem Dev.readCw_eng (store unit loc found scrub slot cue toks) : (d.readCw store unit loc found scrub slot cue toks).1.eng = d.eng := by
  simp only [Dev.readCw]; split <;> simp [Dev.locEvent]
@[simp] theorem Dev.wakeStack_eng (a) : (d.wakeStack a).eng = d.eng := by simp [Dev.wakeStack]
@[simp] theorem Dev.hostReadPart_eng (a n found) : (d.hostReadPart a n found).1.eng = d.eng := by unfold Dev.hostReadPart; split <;> simp
end

section
@[simp] theorem Dev.ite_thm (c : Prop) [Decidable c] (a b : Dev) : (if c then a else b).thm = if c then a.thm else b.thm :=
  apply_ite Dev.thm c a b
@[simp] theorem Dev.fst_ite_thm {α : Type} (c : Prop) [Decidable c] (a b : Dev × α) :
    (if c then a else b).1.thm = if c then a.1.thm else b.1.thm := apply_ite (fun z : Dev × α => z.1.thm) c a b
@[simp] theorem Dev.foldl_thm {α : Type} {f : Dev → α → Dev} (h : ∀ d x, (f d x).thm = d.thm) (l : List α) (d : Dev) : (l.foldl f d).thm = d.thm :=
  Machine.foldl_keeps (fun e => e.thm = d.thm) f (fun e x he => (h e x).trans he) l d rfl
variable (d : Dev)
@[simp] theorem Dev.sendMsix_thm (v) : (d.sendMsix v).thm = d.thm := by simp [Dev.sendMsix]
@[simp] theorem Dev.fireVector_thm (v) : (d.fireVector v).thm = d.thm := by simp [Dev.fireVector]
@[simp] theorem Dev.event_thm (e) : (d.event e).thm = d.thm := by simp [Dev.event]
@[simp] theorem Dev.settle_thm (before) : (Dev.settle before d).thm = d.thm := by simp [Dev.settle]
@[simp] theorem Dev.setSt_thm (st) : (d.setSt st).thm = d.thm := by simp [Dev.setSt]
@[simp] theorem Dev.hbmWr_thm (a bs) : (d.hbmWr a bs).thm = d.thm := by simp [Dev.hbmWr]
@[simp] theorem Dev.setSes_thm (s off v) : (d.setSes s off v).thm = d.thm := by simp [Dev.setSes]
@[simp] theorem Dev.setSesF_thm (s off lo w x) : (d.setSesF s off lo w x).thm = d.thm := by simp [Dev.setSesF]
@[simp] theorem Dev.setSstate_thm (s v) : (d.setSstate s v).thm = d.thm := by simp [Dev.setSstate]
@[simp] theorem Dev.ethSend_thm (bs) : (d.ethSend bs).thm = d.thm := by simp [Dev.ethSend]
@[simp] theorem Dev.record_thm (i action nested) : (d.record i action nested).thm = d.thm := by simp [Dev.record]
@[simp] theorem Dev.exactFail_thm (cause) : (d.exactFail cause).thm = d.thm := by unfold Dev.exactFail; split <;> simp
@[simp] theorem Dev.exactDiscard_thm (t) : (d.exactDiscard t).thm = d.thm := by unfold Dev.exactDiscard; split <;> simp
@[simp] theorem Dev.discardStep_thm (s cause) : (d.discardStep s cause).thm = d.thm := by simp [Dev.discardStep]
@[simp] theorem Dev.discardAll_thm (cause) : (d.discardAll cause).thm = d.thm := by simp [Dev.discardAll]
@[simp] theorem Dev.commitHistory_thm : d.commitHistory.thm = d.thm := by simp [Dev.commitHistory]
@[simp] theorem Dev.finishDrain_thm : d.finishDrain.thm = d.thm := by simp [Dev.finishDrain]
@[simp] theorem Dev.enterStruck_thm : d.enterStruck.thm = d.thm := by simp [Dev.enterStruck]
@[simp] theorem Dev.linkLoss_thm : d.linkLoss.thm = d.thm := by simp [Dev.linkLoss]
@[simp] theorem Dev.blackout_thm : d.blackout.thm = d.thm := by simp [Dev.blackout]
@[simp] theorem Dev.raise_thm (i) : (d.raise i).thm = d.thm := by unfold Dev.raise; (repeat' split) <;> simp [Dev.beginDrain, Dev.fatalHandling]
@[simp] theorem Dev.discardTok_thm (t cause) : (d.discardTok t cause).thm = d.thm := by simp [Dev.discardTok]
@[simp] theorem Dev.contain_thm (i touched cause) : (d.contain i touched cause).thm = d.thm := by simp [Dev.contain]
@[simp] theorem Dev.histEvent_thm (kind unit score threshold) : (d.histEvent kind unit score threshold).1.thm = d.thm := by simp [Dev.histEvent]
@[simp] theorem Dev.calError_thm (cls) : (d.calError cls).thm = d.thm := by simp [Dev.calError]
@[simp] theorem Dev.calWrite_thm {f : Dev → Dev} (h : ∀ d, (f d).thm = d.thm) : (d.calWrite f).1.thm = d.thm := by simp [Dev.calWrite, h]
@[simp] theorem Dev.dmaCount_thm (n k) : (d.dmaCount n k).thm = d.thm := by simp [Dev.dmaCount]
@[simp] theorem Dev.callCount_thm (n) : (d.callCount n).thm = d.thm := by simp [Dev.callCount]
@[simp] theorem Dev.unpinAdapter_thm (s) : (d.unpinAdapter s).thm = d.thm := by simp [Dev.unpinAdapter]
@[simp] theorem Dev.writeRecord_thm (s accepted r) : (d.writeRecord s accepted r).thm = d.thm := by unfold Dev.writeRecord; (repeat' split) <;> simp
@[simp] theorem Dev.dropPairs_thm (x) : (d.dropPairs x).thm = d.thm := by simp [Dev.dropPairs]
@[simp] theorem Dev.closeCall_thm (s) : (d.closeCall s).thm = d.thm := by simp [Dev.closeCall]
@[simp] theorem Dev.moveHead_thm (s m) : (d.moveHead s m).thm = d.thm := by unfold Dev.moveHead; (repeat' split) <;> simp
@[simp] theorem Dev.endCall_thm (s st cause m) : (d.endCall s st cause m).thm = d.thm := by simp [Dev.endCall]
@[simp] theorem Dev.sessionFault_thm (s) : (d.sessionFault s).thm = d.thm := by simp [Dev.sessionFault]
@[simp] theorem Dev.modLink_thm (n f) : (d.modLink n f).thm = d.thm := by simp [Dev.modLink]
@[simp] theorem Dev.sendUnit_thm (link u) : (d.sendUnit link u).thm = d.thm := by simp [Dev.sendUnit]
@[simp] theorem Dev.flood_thm (u) : (d.flood u).thm = d.thm := by simp [Dev.flood]
@[simp] theorem Dev.applyHolds_thm : d.applyHolds.thm = d.thm := by simp [Dev.applyHolds]
@[simp] theorem Dev.engage_thm (cause t set) : (d.engage cause t set).thm = d.thm := by simp [Dev.engage]
@[simp] theorem Dev.tagWrite_thm (store keys cue) : (d.tagWrite store keys cue).thm = d.thm := by simp [Dev.tagWrite]
@[simp] theorem Dev.hazard_thm (store reader slot found n toks) : (d.hazard store reader slot found n toks).thm = d.thm := by
  simp only [Dev.hazard]; split <;> simp
@[simp] theorem Dev.hazRead_thm (store keys reader slot toks operand) : (d.hazRead store keys reader slot toks operand).thm = d.thm := by
  unfold Dev.hazRead
  split
  · exact Dev.foldl_thm (fun d n => by split <;> simp) _ d
  · rfl
@[simp] theorem Dev.useKeys_thm (keys step) : (d.useKeys keys step).thm = d.thm := by simp [Dev.useKeys]
@[simp] theorem Dev.rowsRd_thm (t keys slot cue operand) : (d.rowsRd t keys slot cue operand).1.thm = d.thm := by simp [Dev.rowsRd]
@[simp] theorem Dev.rowRd_thm (t tile row slot cue operand) : (d.rowRd t tile row slot cue operand).1.thm = d.thm := by simp [Dev.rowRd]
@[simp] theorem Dev.tileError_thm (code tile pslot slot cue t) : (d.tileError code tile pslot slot cue t).thm = d.thm := by simp [Dev.tileError]
@[simp] theorem Dev.precFlag_thm (t bit) : (d.precFlag t bit).thm = d.thm := by simp [Dev.precFlag]
@[simp] theorem Dev.precCount_thm (tile n) : (d.precCount tile n).thm = d.thm := by simp [Dev.precCount]
@[simp] theorem Dev.contribute_thm (c) : (d.contribute c).thm = d.thm := by simp [Dev.contribute]
@[simp] theorem Dev.unserved_thm (r) : (d.unserved r).thm = d.thm := by simp [Dev.unserved]
@[simp] theorem Dev.request_thm (r) : (d.request r).thm = d.thm := by simp only [Dev.request]; (repeat' split) <;> simp
@[simp] theorem Dev.clamped_thm (tile t) : (d.clamped tile t).thm = d.thm := by simp [Dev.clamped]
@[simp] theorem Dev.modArr_thm (a f) : (d.modArr a f).thm = d.thm := by simp [Dev.modArr]
@[simp] theorem Dev.phase_thm (a range codes) : (d.phase a range codes).1.thm = d.thm := by simp [Dev.phase]
@[simp] theorem Dev.convert_thm (a range ps) : (d.convert a range ps).1.thm = d.thm := by
  induction ps generalizing d with
  | nil => rfl
  | cons p ps ih => simp [Dev.convert, ih]
@[simp] theorem Dev.capture_thm (a key range ps) : (d.capture a key range ps).thm = d.thm := by simp [Dev.capture]
@[simp] theorem Dev.evalTrouble_thm (tok i b ps slot lane again) : (d.evalTrouble tok i b ps slot lane again).thm = d.thm := by
  simp [Dev.evalTrouble, Dev.markReplay, Dev.learnTrouble]
@[simp] theorem Dev.evalContrib_thm (i kind slot ps) : (d.evalContrib i kind slot ps).thm = d.thm := by simp only [Dev.evalContrib]; split <;> simp
@[simp] theorem Dev.evalTok_thm (c tok) : (d.evalTok c tok).thm = d.thm := by simp only [Dev.evalTok]; split <;> simp [Dev.serveLane]
@[simp] theorem Dev.kvEmit_thm (dst op m) : (d.kvEmit dst op m).thm = d.thm := by simp [Dev.kvEmit]
@[simp] theorem Dev.kvSend_thm (dst op m) : (d.kvSend dst op m).thm = d.thm := by simp [Dev.kvSend]
@[simp] theorem Dev.kvNotice_thm (k s op pos) : (d.kvNotice k s op pos).thm = d.thm := by unfold Dev.kvNotice; split <;> simp
@[simp] theorem Dev.kvPageBad_thm (p e) : (d.kvPageBad p e).thm = d.thm := by unfold Dev.kvPageBad; split <;> simp
@[simp] theorem Dev.ringLost_thm (s cw) : (d.ringLost s cw).thm = d.thm := by unfold Dev.ringLost; split <;> simp
@[simp] theorem Dev.sessionMemBad_thm (cw e) : (d.sessionMemBad cw e).thm = d.thm := by
  simp only [Dev.sessionMemBad]; (repeat' split) <;> simp [Dev.rebuildBitmap]
@[simp] theorem Dev.commonLine_thm (bank loc) : (d.commonLine bank loc).thm = d.thm := by simp -implicitDefEqProofs [Dev.commonLine]
@[simp] theorem Dev.mapOne_thm (e) : (d.mapOne e).1.thm = d.thm := by simp -implicitDefEqProofs [Dev.mapOne]
@[simp] theorem Dev.mapOuts_thm (now) : (d.mapOuts now).thm = d.thm := by simp [Dev.mapOuts]
@[simp] theorem Dev.mapOut_thm (store unit loc) : (d.mapOut store unit loc).thm = d.thm := by simp [Dev.mapOut, Dev.hbmRowOut]
@[simp] theorem Dev.sramBad_thm (store unit loc syms verdict) : (d.sramBad store unit loc syms verdict).thm = d.thm := by
  unfold Dev.sramBad; split <;> simp [Dev.loseKey]
@[simp] theorem Dev.hbmBad_thm (cw syms slot cue toks verdict) : (d.hbmBad cw syms slot cue toks verdict).1.thm = d.thm := by
  simp only [Dev.hbmBad]; (repeat' split) <;> simp
@[simp] theorem Dev.readCw_thm (store unit loc found scrub slot cue toks) : (d.readCw store unit loc found scrub slot cue toks).1.thm = d.thm := by
  simp only [Dev.readCw]; split <;> simp [Dev.locEvent]
@[simp] theorem Dev.wakeStack_thm (a) : (d.wakeStack a).thm = d.thm := by simp [Dev.wakeStack]
@[simp] theorem Dev.hostReadPart_thm (a n found) : (d.hostReadPart a n found).1.thm = d.thm := by unfold Dev.hostReadPart; split <;> simp
end

section
@[simp] theorem Dev.ite_hkc (c : Prop) [Decidable c] (a b : Dev) : (if c then a else b).hkc = if c then a.hkc else b.hkc :=
  apply_ite Dev.hkc c a b
@[simp] theorem Dev.fst_ite_hkc {α : Type} (c : Prop) [Decidable c] (a b : Dev × α) :
    (if c then a else b).1.hkc = if c then a.1.hkc else b.1.hkc := apply_ite (fun z : Dev × α => z.1.hkc) c a b
@[simp] theorem Dev.foldl_hkc {α : Type} {f : Dev → α → Dev} (h : ∀ d x, (f d x).hkc = d.hkc) (l : List α) (d : Dev) : (l.foldl f d).hkc = d.hkc :=
  Machine.foldl_keeps (fun e => e.hkc = d.hkc) f (fun e x he => (h e x).trans he) l d rfl
variable (d : Dev)
@[simp] theorem Dev.sendMsix_hkc (v) : (d.sendMsix v).hkc = d.hkc := by simp [Dev.sendMsix]
@[simp] theorem Dev.fireVector_hkc (v) : (d.fireVector v).hkc = d.hkc := by simp [Dev.fireVector]
@[simp] theorem Dev.event_hkc (e) : (d.event e).hkc = d.hkc := by simp [Dev.event]
@[simp] theorem Dev.settle_hkc (before) : (Dev.settle before d).hkc = d.hkc := by simp [Dev.settle]
@[simp] theorem Dev.setSt_hkc (st) : (d.setSt st).hkc = d.hkc := by simp [Dev.setSt]
@[simp] theorem Dev.hbmWr_hkc (a bs) : (d.hbmWr a bs).hkc = d.hkc := by simp [Dev.hbmWr]
@[simp] theorem Dev.setSes_hkc (s off v) : (d.setSes s off v).hkc = d.hkc := by simp [Dev.setSes]
@[simp] theorem Dev.setSesF_hkc (s off lo w x) : (d.setSesF s off lo w x).hkc = d.hkc := by simp [Dev.setSesF]
@[simp] theorem Dev.setSstate_hkc (s v) : (d.setSstate s v).hkc = d.hkc := by simp [Dev.setSstate]
@[simp] theorem Dev.ethSend_hkc (bs) : (d.ethSend bs).hkc = d.hkc := by simp [Dev.ethSend]
@[simp] theorem Dev.record_hkc (i action nested) : (d.record i action nested).hkc = d.hkc := by simp [Dev.record]
@[simp] theorem Dev.exactFail_hkc (cause) : (d.exactFail cause).hkc = d.hkc := by unfold Dev.exactFail; split <;> simp
@[simp] theorem Dev.exactDiscard_hkc (t) : (d.exactDiscard t).hkc = d.hkc := by unfold Dev.exactDiscard; split <;> simp
@[simp] theorem Dev.discardStep_hkc (s cause) : (d.discardStep s cause).hkc = d.hkc := by simp [Dev.discardStep]
@[simp] theorem Dev.discardAll_hkc (cause) : (d.discardAll cause).hkc = d.hkc := by simp [Dev.discardAll]
@[simp] theorem Dev.commitHistory_hkc : d.commitHistory.hkc = d.hkc := by simp [Dev.commitHistory]
@[simp] theorem Dev.finishDrain_hkc : d.finishDrain.hkc = d.hkc := by simp [Dev.finishDrain]
@[simp] theorem Dev.enterStruck_hkc : d.enterStruck.hkc = d.hkc := by simp [Dev.enterStruck]
@[simp] theorem Dev.linkLoss_hkc : d.linkLoss.hkc = d.hkc := by simp [Dev.linkLoss]
@[simp] theorem Dev.blackout_hkc : d.blackout.hkc = d.hkc := by simp [Dev.blackout]
@[simp] theorem Dev.raise_hkc (i) : (d.raise i).hkc = d.hkc := by unfold Dev.raise; (repeat' split) <;> simp [Dev.beginDrain, Dev.fatalHandling]
@[simp] theorem Dev.discardTok_hkc (t cause) : (d.discardTok t cause).hkc = d.hkc := by simp [Dev.discardTok]
@[simp] theorem Dev.contain_hkc (i touched cause) : (d.contain i touched cause).hkc = d.hkc := by simp [Dev.contain]
@[simp] theorem Dev.histEvent_hkc (kind unit score threshold) : (d.histEvent kind unit score threshold).1.hkc = d.hkc := by simp [Dev.histEvent]
@[simp] theorem Dev.calError_hkc (cls) : (d.calError cls).hkc = d.hkc := by simp [Dev.calError]
@[simp] theorem Dev.calWrite_hkc {f : Dev → Dev} (h : ∀ d, (f d).hkc = d.hkc) : (d.calWrite f).1.hkc = d.hkc := by simp [Dev.calWrite, h]
@[simp] theorem Dev.dmaCount_hkc (n k) : (d.dmaCount n k).hkc = d.hkc := by simp [Dev.dmaCount]
@[simp] theorem Dev.callCount_hkc (n) : (d.callCount n).hkc = d.hkc := by simp [Dev.callCount]
@[simp] theorem Dev.unpinAdapter_hkc (s) : (d.unpinAdapter s).hkc = d.hkc := by simp [Dev.unpinAdapter]
@[simp] theorem Dev.writeRecord_hkc (s accepted r) : (d.writeRecord s accepted r).hkc = d.hkc := by unfold Dev.writeRecord; (repeat' split) <;> simp
@[simp] theorem Dev.dropPairs_hkc (x) : (d.dropPairs x).hkc = d.hkc := by simp [Dev.dropPairs]
@[simp] theorem Dev.closeCall_hkc (s) : (d.closeCall s).hkc = d.hkc := by simp [Dev.closeCall]
@[simp] theorem Dev.moveHead_hkc (s m) : (d.moveHead s m).hkc = d.hkc := by unfold Dev.moveHead; (repeat' split) <;> simp
@[simp] theorem Dev.endCall_hkc (s st cause m) : (d.endCall s st cause m).hkc = d.hkc := by simp [Dev.endCall]
@[simp] theorem Dev.sessionFault_hkc (s) : (d.sessionFault s).hkc = d.hkc := by simp [Dev.sessionFault]
@[simp] theorem Dev.modLink_hkc (n f) : (d.modLink n f).hkc = d.hkc := by simp [Dev.modLink]
@[simp] theorem Dev.sendUnit_hkc (link u) : (d.sendUnit link u).hkc = d.hkc := by simp [Dev.sendUnit]
@[simp] theorem Dev.flood_hkc (u) : (d.flood u).hkc = d.hkc := by simp [Dev.flood]
@[simp] theorem Dev.applyHolds_hkc : d.applyHolds.hkc = d.hkc := by simp [Dev.applyHolds]
@[simp] theorem Dev.engage_hkc (cause t set) : (d.engage cause t set).hkc = d.hkc := by simp [Dev.engage]
@[simp] theorem Dev.tagWrite_hkc (store keys cue) : (d.tagWrite store keys cue).hkc = d.hkc := by simp [Dev.tagWrite]
@[simp] theorem Dev.hazard_hkc (store reader slot found n toks) : (d.hazard store reader slot found n toks).hkc = d.hkc := by
  simp only [Dev.hazard]; split <;> simp
@[simp] theorem Dev.hazRead_hkc (store keys reader slot toks operand) : (d.hazRead store keys reader slot toks operand).hkc = d.hkc := by
  unfold Dev.hazRead
  split
  · exact Dev.foldl_hkc (fun d n => by split <;> simp) _ d
  · rfl
@[simp] theorem Dev.useKeys_hkc (keys step) : (d.useKeys keys step).hkc = d.hkc := by simp [Dev.useKeys]
@[simp] theorem Dev.rowsRd_hkc (t keys slot cue operand) : (d.rowsRd t keys slot cue operand).1.hkc = d.hkc := by simp [Dev.rowsRd]
@[simp] theorem Dev.rowRd_hkc (t tile row slot cue operand) : (d.rowRd t tile row slot cue operand).1.hkc = d.hkc := by simp [Dev.rowRd]
@[simp] theorem Dev.tileError_hkc (code tile pslot slot cue t) : (d.tileError code tile pslot slot cue t).hkc = d.hkc := by simp [Dev.tileError]
@[simp] theorem Dev.precFlag_hkc (t bit) : (d.precFlag t bit).hkc = d.hkc := by simp [Dev.precFlag]
@[simp] theorem Dev.precCount_hkc (tile n) : (d.precCount tile n).hkc = d.hkc := by simp [Dev.precCount]
@[simp] theorem Dev.contribute_hkc (c) : (d.contribute c).hkc = d.hkc := by simp [Dev.contribute]
@[simp] theorem Dev.unserved_hkc (r) : (d.unserved r).hkc = d.hkc := by simp [Dev.unserved]
@[simp] theorem Dev.request_hkc (r) : (d.request r).hkc = d.hkc := by simp only [Dev.request]; (repeat' split) <;> simp
@[simp] theorem Dev.clamped_hkc (tile t) : (d.clamped tile t).hkc = d.hkc := by simp [Dev.clamped]
@[simp] theorem Dev.modArr_hkc (a f) : (d.modArr a f).hkc = d.hkc := by simp [Dev.modArr]
@[simp] theorem Dev.phase_hkc (a range codes) : (d.phase a range codes).1.hkc = d.hkc := by simp [Dev.phase]
@[simp] theorem Dev.convert_hkc (a range ps) : (d.convert a range ps).1.hkc = d.hkc := by
  induction ps generalizing d with
  | nil => rfl
  | cons p ps ih => simp [Dev.convert, ih]
@[simp] theorem Dev.capture_hkc (a key range ps) : (d.capture a key range ps).hkc = d.hkc := by simp [Dev.capture]
@[simp] theorem Dev.evalTrouble_hkc (tok i b ps slot lane again) : (d.evalTrouble tok i b ps slot lane again).hkc = d.hkc := by
  simp [Dev.evalTrouble, Dev.markReplay, Dev.learnTrouble]
@[simp] theorem Dev.evalContrib_hkc (i kind slot ps) : (d.evalContrib i kind slot ps).hkc = d.hkc := by simp only [Dev.evalContrib]; split <;> simp
@[simp] theorem Dev.evalTok_hkc (c tok) : (d.evalTok c tok).hkc = d.hkc := by simp only [Dev.evalTok]; split <;> simp [Dev.serveLane]
@[simp] theorem Dev.kvEmit_hkc (dst op m) : (d.kvEmit dst op m).hkc = d.hkc := by simp [Dev.kvEmit]
@[simp] theorem Dev.kvSend_hkc (dst op m) : (d.kvSend dst op m).hkc = d.hkc := by simp [Dev.kvSend]
@[simp] theorem Dev.kvNotice_hkc (k s op pos) : (d.kvNotice k s op pos).hkc = d.hkc := by unfold Dev.kvNotice; split <;> simp
@[simp] theorem Dev.kvPageBad_hkc (p e) : (d.kvPageBad p e).hkc = d.hkc := by unfold Dev.kvPageBad; split <;> simp
@[simp] theorem Dev.ringLost_hkc (s cw) : (d.ringLost s cw).hkc = d.hkc := by unfold Dev.ringLost; split <;> simp
@[simp] theorem Dev.sessionMemBad_hkc (cw e) : (d.sessionMemBad cw e).hkc = d.hkc := by
  simp only [Dev.sessionMemBad]; (repeat' split) <;> simp [Dev.rebuildBitmap]
@[simp] theorem Dev.commonLine_hkc (bank loc) : (d.commonLine bank loc).hkc = d.hkc := by simp -implicitDefEqProofs [Dev.commonLine]
@[simp] theorem Dev.mapOne_hkc (e) : (d.mapOne e).1.hkc = d.hkc := by simp -implicitDefEqProofs [Dev.mapOne]
@[simp] theorem Dev.mapOuts_hkc (now) : (d.mapOuts now).hkc = d.hkc := by simp [Dev.mapOuts]
@[simp] theorem Dev.mapOut_hkc (store unit loc) : (d.mapOut store unit loc).hkc = d.hkc := by simp [Dev.mapOut, Dev.hbmRowOut]
@[simp] theorem Dev.sramBad_hkc (store unit loc syms verdict) : (d.sramBad store unit loc syms verdict).hkc = d.hkc := by
  unfold Dev.sramBad; split <;> simp [Dev.loseKey]
@[simp] theorem Dev.hbmBad_hkc (cw syms slot cue toks verdict) : (d.hbmBad cw syms slot cue toks verdict).1.hkc = d.hkc := by
  simp only [Dev.hbmBad]; (repeat' split) <;> simp
@[simp] theorem Dev.readCw_hkc (store unit loc found scrub slot cue toks) : (d.readCw store unit loc found scrub slot cue toks).1.hkc = d.hkc := by
  simp only [Dev.readCw]; split <;> simp [Dev.locEvent]
@[simp] theorem Dev.wakeStack_hkc (a) : (d.wakeStack a).hkc = d.hkc := by simp [Dev.wakeStack]
@[simp] theorem Dev.hostReadPart_hkc (a n found) : (d.hostReadPart a n found).1.hkc = d.hkc := by unfold Dev.hostReadPart; split <;> simp
end

section
@[simp] theorem Dev.foldl_cells {α : Type} {f : Dev → α → Dev} (h : ∀ d x, (f d x).tile.cells = d.tile.cells) (l : List α) (d : Dev) : (l.foldl f d).tile.cells = d.tile.cells :=
  Machine.foldl_keeps (fun e => e.tile.cells = d.tile.cells) f (fun e x he => (h e x).trans he) l d rfl
@[simp] theorem Tile.abandonSoft_cells (t : Tile) : t.abandonSoft.cells = t.cells := rfl
@[simp] theorem Tile.dropLoads_cells (t : Tile) : t.dropLoads.cells = t.cells := rfl
@[simp] theorem Tile.setArr_cells (t : Tile) (a x) : (t.setArr a x).cells = t.cells := rfl
@[simp] theorem Tile.setCensus_cells (t : Tile) (x a) : (t.setCensus x a).cells = t.cells := rfl
@[simp] theorem Tile.suspend_cells (t : Tile) : t.suspend.cells = t.cells := rfl
@[simp] theorem Tile.passed_cells (t : Tile) (n) : (t.passed n).cells = t.cells := rfl
theorem Tile.foldl_cells {α : Type} {f : Tile → α → Tile} (h : ∀ t x, (f t x).cells = t.cells) (l : List α) (t : Tile) :
    (l.foldl f t).cells = t.cells :=
  Machine.foldl_keeps (fun e => e.cells = t.cells) f (fun e x he => (h e x).trans he) l t rfl
@[simp] theorem Tile.land_cells (t : Tile) (n) : (t.land n).cells = t.cells :=
  Tile.foldl_cells (fun t x => by split <;> rfl) _ _
variable (d : Dev)
@[simp] theorem Dev.exactFail_cells (cause) : (d.exactFail cause).tile.cells = d.tile.cells := by
  simp only [Dev.exactFail]
  (repeat' split) <;> simp
@[simp] theorem Dev.exactDiscard_cells (t) : (d.exactDiscard t).tile.cells = d.tile.cells := by
  simp only [Dev.exactDiscard]
  (repeat' split) <;> simp
@[simp] theorem Dev.discardStep_cells (s cause) : (d.discardStep s cause).tile.cells = d.tile.cells := by simp [Dev.discardStep]
@[simp] theorem Dev.discardAll_cells (cause) : (d.discardAll cause).tile.cells = d.tile.cells := by
  simp only [Dev.discardAll]
  (repeat' split) <;> simp
@[simp] theorem Dev.enterStruck_cells : d.enterStruck.tile.cells = d.tile.cells := by simp [Dev.enterStruck]
@[simp] theorem Dev.beginDrain_cells (seq) : (d.beginDrain seq).tile.cells = d.tile.cells := by
  simp only [Dev.beginDrain]
  (repeat' split) <;> simp
@[simp] theorem Dev.fatalHandling_cells (seq code) : (d.fatalHandling seq code).tile.cells = d.tile.cells := by simp [Dev.fatalHandling]
@[simp] theorem Dev.raise_cells (i) : (d.raise i).tile.cells = d.tile.cells := by
  simp only [Dev.raise]
  (repeat' split) <;> simp
@[simp] theorem Dev.discardTok_cells (t cause) : (d.discardTok t cause).tile.cells = d.tile.cells := by
  simp only [Dev.discardTok]
  (repeat' split) <;> simp
@[simp] theorem Dev.contain_cells (i touched cause) : (d.contain i touched cause).tile.cells = d.tile.cells := by simp [Dev.contain]
@[simp] theorem Dev.endCall_cells (s st cause m) : (d.endCall s st cause m).tile.cells = d.tile.cells := by
  simp only [Dev.endCall]
  (repeat' split) <;> simp
@[simp] theorem Dev.applyHolds_cells : d.applyHolds.tile.cells = d.tile.cells := by
  simp only [Dev.applyHolds]
  (repeat' split) <;> simp
@[simp] theorem Dev.engage_cells (cause t set) : (d.engage cause t set).tile.cells = d.tile.cells := by simp [Dev.engage]
@[simp] theorem Dev.hazard_cells (store reader slot found n toks) : (d.hazard store reader slot found n toks).tile.cells = d.tile.cells := by
  simp only [Dev.hazard]
  (repeat' split) <;> simp
@[simp] theorem Dev.hazRead_cells (store keys reader slot toks operand) : (d.hazRead store keys reader slot toks operand).tile.cells = d.tile.cells := by
  unfold Dev.hazRead
  split
  · exact Dev.foldl_cells (fun d n => by split <;> simp) _ d
  · rfl
@[simp] theorem Dev.useKeys_cells (keys step) : (d.useKeys keys step).tile.cells = d.tile.cells := by
  simp only [Dev.useKeys]
  (repeat' split) <;> simp
@[simp] theorem Dev.rowsRd_cells (t keys slot cue operand) : (d.rowsRd t keys slot cue operand).1.tile.cells = d.tile.cells := by simp [Dev.rowsRd]
@[simp] theorem Dev.rowRd_cells (t tile row slot cue operand) : (d.rowRd t tile row slot cue operand).1.tile.cells = d.tile.cells := by simp [Dev.rowRd]
@[simp] theorem Dev.tileError_cells (code tile pslot slot cue t) : (d.tileError code tile pslot slot cue t).tile.cells = d.tile.cells := by simp [Dev.tileError]
@[simp] theorem Dev.precCount_cells (tile n) : (d.precCount tile n).tile.cells = d.tile.cells := by simp [Dev.precCount]
@[simp] theorem Dev.contribute_cells (c) : (d.contribute c).tile.cells = d.tile.cells := by simp [Dev.contribute]
@[simp] theorem Dev.unserved_cells (r) : (d.unserved r).tile.cells = d.tile.cells := by simp [Dev.unserved]
@[simp] theorem Dev.request_cells (r) : (d.request r).tile.cells = d.tile.cells := by
  simp only [Dev.request]
  (repeat' split) <;> simp
@[simp] theorem Dev.clamped_cells (tile t) : (d.clamped tile t).tile.cells = d.tile.cells := by simp [Dev.clamped]
@[simp] theorem Dev.markReplay_cells (t) : (d.markReplay t).tile.cells = d.tile.cells := by
  simp only [Dev.markReplay]
  (repeat' split) <;> simp
@[simp] theorem Dev.learnTrouble_cells (tile t b m clip range) : (d.learnTrouble tile t b m clip range).tile.cells = d.tile.cells := by
  simp only [Dev.learnTrouble]
  (repeat' split) <;> simp
@[simp] theorem Dev.modArr_cells (a' f) : (d.modArr a' f).tile.cells = d.tile.cells := by simp [Dev.modArr]
@[simp] theorem Dev.phase_cells (a' range codes) : (d.phase a' range codes).1.tile.cells = d.tile.cells := by simp [Dev.phase]
@[simp] theorem Dev.capture_cells (a' key range ps) : (d.capture a' key range ps).tile.cells = d.tile.cells := by simp [Dev.capture]
@[simp] theorem Dev.evalTrouble_cells (tok i b ps slot lane again) : (d.evalTrouble tok i b ps slot lane again).tile.cells = d.tile.cells := by
  simp only [Dev.evalTrouble]
  (repeat' split) <;> simp
@[simp] theorem Dev.evalContrib_cells (i kind slot ps) : (d.evalContrib i kind slot ps).tile.cells = d.tile.cells := by
  simp only [Dev.evalContrib]
  (repeat' split) <;> simp
@[simp] theorem Dev.progCount_cells (n) : (d.progCount n).tile.cells = d.tile.cells := by simp [Dev.progCount]
@[simp] theorem Dev.arrayError_cells (code cls a' flagged row pattern spare verdict) : (d.arrayError code cls a' flagged row pattern spare verdict).tile.cells = d.tile.cells := by simp [Dev.arrayError]
@[simp] theorem Dev.retire_cells (a') : (d.retire a').tile.cells = d.tile.cells := by simp [Dev.retire]
@[simp] theorem Dev.ageFrame_cells (a' len) : (d.ageFrame a' len).tile.cells = d.tile.cells := by simp [Dev.ageFrame]
@[simp] theorem Dev.agesEnd_cells (len) : (d.agesEnd len).tile.cells = d.tile.cells := by
  unfold Dev.agesEnd
  refine (Dev.foldl_cells (fun d x => ?_) _ _).trans ?_ <;> (repeat' split) <;> simp
@[simp] theorem Dev.dropWeights_cells : d.dropWeights.tile.cells = d.tile.cells := by
  simp only [Dev.dropWeights]
  (repeat' split) <;> simp
@[simp] theorem Dev.endStep_cells (x st cause) : (d.endStep x st cause).tile.cells = d.tile.cells := by simp [Dev.endStep]
@[simp] theorem Dev.flushDiscards_cells : d.flushDiscards.tile.cells = d.tile.cells := by
  unfold Dev.flushDiscards
  refine (Dev.foldl_cells (fun d x => ?_) _ _).trans ?_ <;> (repeat' split) <;> simp
@[simp] theorem Dev.clearScript_cells : d.clearScript.tile.cells = d.tile.cells := by
  simp only [Dev.clearScript]
  (repeat' split) <;> simp
@[simp] theorem Dev.unloadScript_cells : d.unloadScript.tile.cells = d.tile.cells := by simp [Dev.unloadScript]
end

section
variable (d : Dev)
@[simp] theorem Tile.ite_cells (c : Prop) [Decidable c] (a b : Tile) : (if c then a else b).cells = if c then a.cells else b.cells :=
  apply_ite Tile.cells c a b
@[simp] theorem Dev.convert_cells (a range ps) : (d.convert a range ps).1.tile.cells = d.tile.cells := by
  induction ps generalizing d with
  | nil => rfl
  | cons p t ih => simp [Dev.convert, ih]
@[simp] theorem Dev.evalTok_cells (c tok) : (d.evalTok c tok).tile.cells = d.tile.cells := by
  simp only [Dev.evalTok]
  split <;> simp [Dev.serveLane]
@[simp] theorem Dev.evalRun_cells (c) : (d.evalRun c).tile.cells = d.tile.cells := by unfold Dev.evalRun; split <;> simp
@[simp] theorem Dev.advance_cells (slot) : (d.advance slot).tile.cells = d.tile.cells := by simp [Dev.advance]
@[simp] theorem Dev.workEnd_cells : d.workEnd.tile.cells = d.tile.cells := by simp [Dev.workEnd]
@[simp] theorem Dev.frameOver_cells (n) : (d.frameOver n).tile.cells = d.tile.cells := by simp [Dev.frameOver]
@[simp] theorem Dev.endFrames_cells (len) : (d.endFrames len).tile.cells = d.tile.cells := by simp [Dev.endFrames]
@[simp] theorem Dev.clearMemory_cells : d.clearMemory.tile.cells = d.tile.cells := by simp [Dev.clearMemory]
end

section
@[simp] theorem Dev.raise_dbg {d : Dev} {i : ErrIn} (h : i.cls < 3) : (d.raise i).dbg = d.dbg := by
  unfold Dev.raise
  split
  · rfl
  · dsimp only
    split
    · simp
    · split <;> simp
    · (repeat' split) <;> simp
    next h0 h1 h2 =>
      have : i.cls ≠ 0 := h0
      have : i.cls ≠ 1 := h1
      have : i.cls ≠ 2 := h2
      omega
variable (d : Dev)
@[simp] theorem Dev.contain_dbg (i touched cause) : (d.contain i touched cause).dbg = d.dbg := by simp [Dev.contain]
@[simp] theorem Dev.tileError_dbg (code tile pslot slot cue t) : (d.tileError code tile pslot slot cue t).dbg = d.dbg := by simp [Dev.tileError]
@[simp] theorem Dev.request_dbg (r) : (d.request r).dbg = d.dbg := by
  simp only [Dev.request]
  (repeat' split) <;> simp
@[simp] theorem Dev.evalTrouble_dbg (tok i b ps slot lane again) : (d.evalTrouble tok i b ps slot lane again).dbg = d.dbg := by
  simp only [Dev.evalTrouble]
  (repeat' split) <;> simp
@[simp] theorem Dev.tileSuspect_dbg (code tile slot) : (d.tileSuspect code tile slot).dbg = d.dbg := by simp [Dev.tileSuspect]
@[simp] theorem Dev.sampleVprog_dbg (ok) : (d.sampleVprog ok).dbg = d.dbg := by
  simp only [Dev.sampleVprog]
  (repeat' split) <;> simp
@[simp] theorem Dev.wornOut_dbg (a' j) : (d.wornOut a' j).dbg = d.dbg := by
  simp only [Dev.wornOut]
  (repeat' split) <;> simp
@[simp] theorem Dev.kvPageBad_dbg (p e) : (d.kvPageBad p e).dbg = d.dbg := by
  simp only [Dev.kvPageBad]
  (repeat' split) <;> simp
@[simp] theorem Dev.sessionMemBad_dbg (cw e) : (d.sessionMemBad cw e).dbg = d.dbg := by
  simp only [Dev.sessionMemBad]
  (repeat' split) <;> simp
@[simp] theorem Dev.hbmBad_dbg (cw syms slot cue toks verdict) : (d.hbmBad cw syms slot cue toks verdict).1.dbg = d.dbg := by
  simp only [Dev.hbmBad]
  (repeat' split) <;> simp
@[simp] theorem Dev.missedMerges_dbg : d.missedMerges.dbg = d.dbg := by
  unfold Dev.missedMerges
  refine (Dev.foldl_dbg (fun d x => ?_) _ _).trans ?_ <;> (repeat' split) <;> simp
theorem Dev.calError_dbg {c : Nat} (h : c < 3) : (d.calError c).dbg = d.dbg := Dev.raise_dbg h
@[simp] theorem Dev.calWrite_dbg {f : Dev → Dev} (h : ∀ d, (f d).dbg = d.dbg) : (d.calWrite f).1.dbg = d.dbg := by
  simp only [Dev.calWrite]
  split
  · simp [h]
  · simp [Dev.calError_dbg]
theorem Dev.arrayError_dbg {cls : Nat} (h : cls < 3) (code a flagged row pattern spare verdict) :
    (d.arrayError code cls a flagged row pattern spare verdict).dbg = d.dbg := Dev.raise_dbg h
@[simp] theorem Dev.mapOne_dbg (e) : (d.mapOne e).1.dbg = d.dbg := Dev.calWrite_dbg d fun _ => rfl
@[simp] theorem Dev.mapOuts_dbg (now) : (d.mapOuts now).dbg = d.dbg := by simp [Dev.mapOuts]
@[simp] theorem Dev.swapRole_dbg (a slot n) : (d.swapRole a slot n).dbg = d.dbg := Dev.calWrite_dbg d fun d => by
  rw [Dev.commitHistory_dbg]
  split <;> simp <;> split <;> simp
@[simp] theorem Dev.roleSwaps_dbg : d.roleSwaps.dbg = d.dbg := by
  unfold Dev.roleSwaps
  refine Dev.foldl_dbg (fun d x => ?_) _ _
  dsimp only
  split
  · split <;> simp
  · simp
  · simp
  · rfl
@[simp] theorem Dev.memBoundary_dbg : d.memBoundary.dbg = d.dbg := by simp [Dev.memBoundary]
@[simp] theorem Dev.startProg_dbg (a j) : (d.startProg a j).dbg = d.dbg := by simp [Dev.startProg, Dev.arrayError_dbg]
@[simp] theorem Dev.startWaiting_dbg (a j) : (d.startWaiting a j).dbg = d.dbg := by
  simp only [Dev.startWaiting]
  split
  · simp
  · split
    · split <;> simp
    · simp
@[simp] theorem Dev.resumePaused_dbg : d.resumePaused.dbg = d.dbg := by
  unfold Dev.resumePaused
  refine Dev.foldl_dbg (fun d x => ?_) _ _
  dsimp only
  (repeat' split) <;> simp
@[simp] theorem Dev.failPrincipal_dbg (code a flagged row pattern) : (d.failPrincipal code a flagged row pattern).dbg = d.dbg := by
  simp [Dev.failPrincipal, Dev.arrayError_dbg]
@[simp] theorem Dev.arrayBoundary_dbg (a len) : (d.arrayBoundary a len).dbg = d.dbg := by
  simp only [Dev.arrayBoundary]
  (repeat' split) <;> simp
@[simp] theorem Dev.arraysBoundary_dbg (len) : (d.arraysBoundary len).dbg = d.dbg := by simp [Dev.arraysBoundary]
@[simp] theorem Dev.raiseCurtain_dbg : d.raiseCurtain.dbg = d.dbg := by
  simp only [Dev.raiseCurtain]
  (repeat' split) <;> simp
@[simp] theorem Dev.unpark_dbg : d.unpark.dbg = d.dbg := by simp [Dev.unpark]
@[simp] theorem Dev.readBitmap_dbg (f) : (d.readBitmap f).dbg = d.dbg := by simp [Dev.readBitmap, Dev.examine]
@[simp] theorem ScanSt.ite_dbg (c : Prop) [Decidable c] (a b : ScanSt) : (if c then a else b).dev.dbg = if c then a.dev.dbg else b.dev.dbg :=
  apply_ite (fun z : ScanSt => z.dev.dbg) c a b
@[simp] theorem ScanSt.tryAdmit_dbg (z : ScanSt) (c) : (z.tryAdmit c).dev.dbg = z.dev.dbg := by
  simp only [ScanSt.tryAdmit]; (repeat' split) <;> simp
@[simp] theorem ScanSt.check_dbg (v) (z : ScanSt) (c) : (z.check v c).dev.dbg = z.dev.dbg := by
  have accepted : (if (sget z.dev.call.calls c.session).isSome then (z.dev, true) else z.dev.tryAccept c.session v).1.dbg = z.dev.dbg := by
    split <;> simp
  revert accepted
  simp only [ScanSt.check]
  generalize (if (sget z.dev.call.calls c.session).isSome then (z.dev, true) else z.dev.tryAccept c.session v) = p
  generalize (if !(sget z.dev.call.calls c.session).isSome && bit (p.1.held c.session 0) 14 then
    p.1.adapterFor (fld (p.1.held c.session 0) 24 8) (fld (p.1.held c.session 0) 4 4) else some 0) = slot
  intro accepted
  cases slot <;> simp [accepted]
@[simp] theorem Dev.admission_dbg : d.admission.dbg = d.dbg := by
  unfold Dev.admission
  (repeat' split) <;> simp
  exact Machine.foldl_keeps (fun z : ScanSt => z.dev.dbg = d.dbg) _ (fun z c h => (ScanSt.check_dbg _ z c).trans h) _ _ rfl
@[simp] theorem Dev.scan_dbg : d.scan.dbg = d.dbg := by
  simp only [Dev.scan]
  split
  · rfl
  · (repeat' split) <;> simp
end

section
/-- What of the frame's state its beginning and its end set: all but the lanes, the drains, the counters and what it records. -/
def Frm.timing (f : Frm) : Frm :=
  { running := f.running, isOpen := f.isOpen, frame := f.frame, start := f.start, planned := f.planned, played := f.played, lat := f.lat, path := f.path, pathTarget := f.pathTarget, tickInEn := f.tickInEn, tickInLost := f.tickInLost, tickInLast := f.tickInLast, tickInUse := f.tickInUse, throttle := f.throttle, children := f.children, ownDone := f.ownDone, doneSent := f.doneSent, ownLast := f.ownLast, stopAt := f.stopAt, outst := f.outst, aborted := f.aborted, overruns := f.overruns }
@[simp] theorem Dev.ite_timing (c : Prop) [Decidable c] (a b : Dev) : (if c then a else b).frm.timing = if c then a.frm.timing else b.frm.timing :=
  apply_ite (fun e => e.frm.timing) c a b
@[simp] theorem Dev.foldl_timing {α : Type} {f : Dev → α → Dev} (h : ∀ d x, (f d x).frm.timing = d.frm.timing) (l : List α) (d : Dev) : (l.foldl f d).frm.timing = d.frm.timing :=
  Machine.foldl_keeps (fun e => e.frm.timing = d.frm.timing) f (fun e x he => (h e x).trans he) l d rfl
@[simp] theorem Frm.timing_other (f : Frm) (a0 a1 a2 a3 a4 a5 a6 a7 a8 a9 a10 a11 a12 a13 a14 a15 a16 a17 a18 a19 a20 a21 a22 a23 a24 a25 a26 a27 a28 a29 a30 a31) :
    Frm.timing { f with tickLock := a0, phaseBand := a1, stretchFrames := a2, stretchTotal := a3, stretchMax := a4, lastCauses := a5, lastX := a6, lastY := a7, stretchCause := a8, stallCause := a9, stallSlots := a10, causes := a11, aggCauses := a12, aggX := a13, aggY := a14, aggThrottle := a15, stall := a16, stallShift := a17, stalledFor := a18, units := a19, overrunHist := a20, want := a21, drain := a22, draining := a23, drainedHeld := a24, drainedSent := a25, lanes := a26, skipped := a27, nextLanes := a28, nextSkipped := a29, tickOut := a30, echoNum := a31 } = f.timing := rfl
@[simp] theorem Frm.emptyLanes_timing (f : Frm) (x y s) : (f.emptyLanes x y s).timing = f.timing := rfl
@[simp] theorem Dev.discardStep_timing (d : Dev) (s cause) : (d.discardStep s cause).frm.timing = d.frm.timing := by simp [Dev.discardStep]
@[simp] theorem Dev.discardAll_timing (d : Dev) (cause) : (d.discardAll cause).frm.timing = d.frm.timing := by simp [Dev.discardAll]
@[simp] theorem Dev.discardTok_timing (d : Dev) (t cause) : (d.discardTok t cause).frm.timing = d.frm.timing := by
  simp only [Dev.discardTok]
  split <;> simp
@[simp] theorem Dev.enterStruck_timing (d : Dev) : d.enterStruck.frm.timing = d.frm.timing := by simp [Dev.enterStruck]
@[simp] theorem Dev.beginDrain_timing (d : Dev) (seq) : (d.beginDrain seq).frm.timing = d.frm.timing := by
  unfold Dev.beginDrain
  dsimp only
  (repeat' split) <;> simp
theorem Dev.applyHolds_timing {d : Dev} (h : d.dbg.held = true ∨ d.dbg.frozen = false) : d.applyHolds.frm.timing = d.frm.timing := by
  unfold Dev.applyHolds
  rcases h with h | h
  · simp only [h, if_true]
    (repeat' split) <;> simp
  · simp only [h]
    (repeat' split) <;> simp_all
@[simp] theorem Dev.raise_timing {d : Dev} {i : ErrIn} (h : i.cls < 3) : (d.raise i).frm.timing = d.frm.timing := by
  unfold Dev.raise
  split
  · rfl
  · dsimp only
    split
    · simp
    · split <;> simp
    · (repeat' split) <;> simp
    next h0 h1 h2 =>
      have : i.cls ≠ 0 := h0
      have : i.cls ≠ 1 := h1
      have : i.cls ≠ 2 := h2
      omega
theorem Dev.engage_timing {d : Dev} {t cause : Nat} {set : Dbg → Dbg} (h : (set d.dbg).ownHeld = true) :
    (d.engage cause t set).frm.timing = d.frm.timing := by
  have hh (b : Dbg) (ho : b.ownHeld = true) : b.held = true := by simp [Dbg.held, ho]
  unfold Dev.engage
  extract_lets fst₁ d₁ d₂
  have h₁ : d₁.frm.timing = d.frm.timing := rfl
  have b₁ : d₁.dbg.ownHeld = true := h
  have h₂ : d₂.frm.timing = d.frm.timing ∧ d₂.dbg.ownHeld = true := by
    simp only [d₂]
    split <;> exact ⟨h₁, b₁⟩
  rw [Dev.applyHolds_timing (.inl (hh _ (by split <;> simp [h₂])))]
  split <;> simp [h₂]
@[simp] theorem Dev.hazard_timing (d : Dev) (store reader slot found n toks) : (d.hazard store reader slot found n toks).frm.timing = d.frm.timing := by
  simp only [Dev.hazard]
  split
  · simp [Dev.contain]
  · rw [Dev.engage_timing (by simp [Dbg.ownHeld])]
    simp
  · simp
variable (d : Dev)
@[simp] theorem Dev.contain_timing (i touched cause) : (d.contain i touched cause).frm.timing = d.frm.timing := by simp [Dev.contain]
@[simp] theorem Dev.endCall_timing (s st cause m) : (d.endCall s st cause m).frm.timing = d.frm.timing := by
  simp only [Dev.endCall]
  (repeat' split) <;> simp
@[simp] theorem Dev.sessionFault_timing (s) : (d.sessionFault s).frm.timing = d.frm.timing := by
  simp only [Dev.sessionFault]
  (repeat' split) <;> simp
@[simp] theorem Dev.hazRead_timing (store keys reader slot toks operand) : (d.hazRead store keys reader slot toks operand).frm.timing = d.frm.timing := by
  unfold Dev.hazRead
  split
  · exact Dev.foldl_timing (fun d n => by split <;> simp) _ d
  · rfl
@[simp] theorem Dev.useKeys_timing (keys step) : (d.useKeys keys step).frm.timing = d.frm.timing := by
  simp only [Dev.useKeys]
  (repeat' split) <;> simp
@[simp] theorem Dev.rowsRd_timing (t keys slot cue operand) : (d.rowsRd t keys slot cue operand).1.frm.timing = d.frm.timing := by simp [Dev.rowsRd]
@[simp] theorem Dev.rowRd_timing (t tile row slot cue operand) : (d.rowRd t tile row slot cue operand).1.frm.timing = d.frm.timing := by simp [Dev.rowRd]
@[simp] theorem Dev.tileError_timing (code tile pslot slot cue t) : (d.tileError code tile pslot slot cue t).frm.timing = d.frm.timing := by simp [Dev.tileError]
@[simp] theorem Dev.request_timing (r) : (d.request r).frm.timing = d.frm.timing := by
  simp only [Dev.request]
  (repeat' split) <;> simp
@[simp] theorem Dev.evalTrouble_timing (tok i b ps slot lane again) : (d.evalTrouble tok i b ps slot lane again).frm.timing = d.frm.timing := by
  simp only [Dev.evalTrouble]
  (repeat' split) <;> simp
@[simp] theorem Dev.evalTok_timing (c tok) : (d.evalTok c tok).frm.timing = d.frm.timing := by
  simp only [Dev.evalTok]
  (repeat' split) <;> simp
@[simp] theorem Dev.evalRun_timing (c) : (d.evalRun c).frm.timing = d.frm.timing := by
  simp only [Dev.evalRun]
  (repeat' split) <;> simp
@[simp] theorem Dev.advance_timing (slot) : (d.advance slot).frm.timing = d.frm.timing := by simp [Dev.advance]
@[simp] theorem Dev.tileSuspect_timing (code tile slot) : (d.tileSuspect code tile slot).frm.timing = d.frm.timing := by simp [Dev.tileSuspect]
@[simp] theorem Dev.emptyServed_timing (key) : (d.emptyServed key).frm.timing = d.frm.timing := by
  unfold Dev.emptyServed
  refine (Dev.foldl_timing (fun d x => ?_) _ _).trans ?_ <;> (repeat' split) <;> simp
@[simp] theorem Dev.sampleVprog_timing (ok) : (d.sampleVprog ok).frm.timing = d.frm.timing := by
  simp only [Dev.sampleVprog]
  (repeat' split) <;> simp
@[simp] theorem Dev.wornOut_timing (a' j) : (d.wornOut a' j).frm.timing = d.frm.timing := by
  simp only [Dev.wornOut]
  (repeat' split) <;> simp
@[simp] theorem Dev.kvPageBad_timing (p e) : (d.kvPageBad p e).frm.timing = d.frm.timing := by
  simp only [Dev.kvPageBad]
  (repeat' split) <;> simp
@[simp] theorem Dev.greenRoomError_timing (s) : (d.greenRoomError s).frm.timing = d.frm.timing := by
  simp only [Dev.greenRoomError]
  (repeat' split) <;> simp
@[simp] theorem Dev.swapDone_timing (w) : (d.swapDone w).frm.timing = d.frm.timing := by
  simp only [Dev.swapDone]
  (repeat' split) <;> simp
@[simp] theorem Dev.swapsEnd_timing : d.swapsEnd.frm.timing = d.frm.timing := by simp [Dev.swapsEnd]
@[simp] theorem Dev.ringLost_timing (s cw) : (d.ringLost s cw).frm.timing = d.frm.timing := by
  simp only [Dev.ringLost]
  (repeat' split) <;> simp
@[simp] theorem Dev.sessionMemBad_timing (cw e) : (d.sessionMemBad cw e).frm.timing = d.frm.timing := by
  simp only [Dev.sessionMemBad]
  (repeat' split) <;> simp
@[simp] theorem Dev.enterChunk_timing (x j) : (d.enterChunk x j).frm.timing = d.frm.timing := by
  simp only [Dev.enterChunk]
  (repeat' split) <;> simp
@[simp] theorem Dev.chunksEnter_timing : d.chunksEnter.frm.timing = d.frm.timing := by simp [Dev.chunksEnter]
@[simp] theorem Dev.admitted_timing (x cl admitted) : (d.admitted x cl admitted).frm.timing = d.frm.timing := by simp [Dev.admitted]
@[simp] theorem Dev.endStep_timing (x st cause) : (d.endStep x st cause).frm.timing = d.frm.timing := by simp [Dev.endStep]
@[simp] theorem stepComplete_timing (s t) : (stepComplete s t d).frm.timing = d.frm.timing := by
  simp only [stepComplete]
  (repeat' split) <;> simp
@[simp] theorem Dev.mirrorRetry_timing : d.mirrorRetry.frm.timing = d.frm.timing := by simp [Dev.mirrorRetry]
@[simp] theorem Dev.flushDiscards_timing : d.flushDiscards.frm.timing = d.frm.timing := by
  unfold Dev.flushDiscards
  refine (Dev.foldl_timing (fun d x => ?_) _ _).trans ?_ <;> (repeat' split) <;> simp
@[simp] theorem Dev.aggregate_timing : d.aggregate.frm.timing = d.frm.timing := by simp [Dev.aggregate]
@[simp] theorem Dev.endStall_timing (st slot) : (d.endStall st slot).frm.timing = d.frm.timing := by simp [Dev.endStall]
@[simp] theorem Dev.cutStall_timing (len) : (d.cutStall len).frm.timing = d.frm.timing := by
  simp only [Dev.cutStall]
  (repeat' split) <;> simp
@[simp] theorem Dev.beginDrainKind_timing (k) : (d.beginDrainKind k).frm.timing = d.frm.timing := by
  simp only [Dev.beginDrainKind]
  (repeat' split) <;> simp
@[simp] theorem Dev.sendEcho_timing (link) : (d.sendEcho link).frm.timing = d.frm.timing := by simp [Dev.sendEcho]
@[simp] theorem Dev.hbmBad_timing (cw syms slot cue toks verdict) : (d.hbmBad cw syms slot cue toks verdict).1.frm.timing = d.frm.timing := by
  simp only [Dev.hbmBad]
  (repeat' split) <;> simp
@[simp] theorem Dev.missedMerges_timing : d.missedMerges.frm.timing = d.frm.timing := by
  unfold Dev.missedMerges
  refine (Dev.foldl_timing (fun d x => ?_) _ _).trans ?_ <;> (repeat' split) <;> simp
@[simp] theorem Dev.nameDrain_timing (num) : (d.nameDrain num).frm.timing = d.frm.timing := by
  simp only [Dev.nameDrain]
  (repeat' split) <;> simp
end

section
@[simp] theorem Frm.ite_timing (c : Prop) [Decidable c] (a b : Frm) : (if c then a else b).timing = if c then a.timing else b.timing :=
  apply_ite Frm.timing c a b
variable (d : Dev)
theorem Dev.calError_timing {c : Nat} (h : c < 3) : (d.calError c).frm.timing = d.frm.timing := Dev.raise_timing h
@[simp] theorem Dev.calWrite_timing {f : Dev → Dev} (h : ∀ d, (f d).frm.timing = d.frm.timing) : (d.calWrite f).1.frm.timing = d.frm.timing := by
  simp only [Dev.calWrite]
  split
  · simp [h]
  · simp [Dev.calError_timing]
theorem Dev.arrayError_timing {cls : Nat} (h : cls < 3) (code a flagged row pattern spare verdict) :
    (d.arrayError code cls a flagged row pattern spare verdict).frm.timing = d.frm.timing := Dev.raise_timing h
@[simp] theorem Dev.mapOne_timing (e) : (d.mapOne e).1.frm.timing = d.frm.timing := Dev.calWrite_timing d fun _ => rfl
@[simp] theorem Dev.mapOuts_timing (now) : (d.mapOuts now).frm.timing = d.frm.timing := by simp [Dev.mapOuts]
@[simp] theorem Dev.swapRole_timing (a slot n) : (d.swapRole a slot n).frm.timing = d.frm.timing := Dev.calWrite_timing d fun d => by
  rw [Dev.commitHistory_frm]
  split <;> simp <;> split <;> simp
@[simp] theorem Dev.roleSwaps_timing : d.roleSwaps.frm.timing = d.frm.timing := by
  unfold Dev.roleSwaps
  refine Dev.foldl_timing (fun d x => ?_) _ _
  dsimp only
  split
  · split <;> simp
  · simp
  · simp
  · rfl
@[simp] theorem Dev.memBoundary_timing : d.memBoundary.frm.timing = d.frm.timing := by simp [Dev.memBoundary]
@[simp] theorem Dev.startProg_timing (a j) : (d.startProg a j).frm.timing = d.frm.timing := by simp [Dev.startProg, Dev.arrayError_timing]
@[simp] theorem Dev.startWaiting_timing (a j) : (d.startWaiting a j).frm.timing = d.frm.timing := by
  simp only [Dev.startWaiting]
  split
  · simp
  · split
    · split <;> simp
    · simp
@[simp] theorem Dev.resumePaused_timing : d.resumePaused.frm.timing = d.frm.timing := by
  unfold Dev.resumePaused
  refine Dev.foldl_timing (fun d x => ?_) _ _
  dsimp only
  (repeat' split) <;> simp
@[simp] theorem Dev.failPrincipal_timing (code a flagged row pattern) : (d.failPrincipal code a flagged row pattern).frm.timing = d.frm.timing := by
  simp [Dev.failPrincipal, Dev.arrayError_timing]
@[simp] theorem Dev.arrayBoundary_timing (a len) : (d.arrayBoundary a len).frm.timing = d.frm.timing := by
  simp only [Dev.arrayBoundary]
  (repeat' split) <;> simp
@[simp] theorem Dev.arraysBoundary_timing (len) : (d.arraysBoundary len).frm.timing = d.frm.timing := by simp [Dev.arraysBoundary]
@[simp] theorem Dev.parentCheck_timing (b : Dev) : (Dev.parentCheck b d).frm.timing = d.frm.timing := by
  unfold Dev.parentCheck
  (repeat' split) <;> simp
@[simp] theorem Dev.raiseCurtain_timing : d.raiseCurtain.frm.timing = d.frm.timing := by
  simp only [Dev.raiseCurtain]
  (repeat' split) <;> simp
@[simp] theorem Dev.unpark_timing : d.unpark.frm.timing = d.frm.timing := by simp [Dev.unpark]
@[simp] theorem Dev.emptySession_timing (s) : (d.emptySession s).frm.timing = d.frm.timing := by
  simp only [Dev.emptySession, Dev.ite_timing, Dev.modCall_frm, Dev.modKv_frm, Dev.kvDone_frm, Dev.hbmWr_frm, Dev.releaseSession_frm, Dev.endCall_timing,
    ite_self]
@[simp] theorem Dev.readBitmap_timing (f) : (d.readBitmap f).frm.timing = d.frm.timing := by simp [Dev.readBitmap, Dev.examine]
@[simp] theorem Dev.tryAccept_timing (s vocab) : (d.tryAccept s vocab).1.frm.timing = d.frm.timing := by
  unfold Dev.tryAccept
  extract_lets e stop
  have he : e.frm.timing = d.frm.timing := by simp [e]
  have hs (x : Dev) : (stop x).1.frm.timing = x.frm.timing := by rfl
  clear_value e stop
  (repeat' split) <;> simp [hs, he]
@[simp] theorem ScanSt.ite_timing (c : Prop) [Decidable c] (a b : ScanSt) : (if c then a else b).dev.frm.timing = if c then a.dev.frm.timing else b.dev.frm.timing :=
  apply_ite (fun z : ScanSt => z.dev.frm.timing) c a b
@[simp] theorem ScanSt.tryAdmit_timing (z : ScanSt) (c) : (z.tryAdmit c).dev.frm.timing = z.dev.frm.timing := by
  simp only [ScanSt.tryAdmit]; (repeat' split) <;> simp
@[simp] theorem ScanSt.check_timing (v) (z : ScanSt) (c) : (z.check v c).dev.frm.timing = z.dev.frm.timing := by
  have accepted : (if (sget z.dev.call.calls c.session).isSome then (z.dev, true) else z.dev.tryAccept c.session v).1.frm.timing = z.dev.frm.timing := by
    split <;> simp
  revert accepted
  simp only [ScanSt.check]
  generalize (if (sget z.dev.call.calls c.session).isSome then (z.dev, true) else z.dev.tryAccept c.session v) = p
  generalize (if !(sget z.dev.call.calls c.session).isSome && bit (p.1.held c.session 0) 14 then
    p.1.adapterFor (fld (p.1.held c.session 0) 24 8) (fld (p.1.held c.session 0) 4 4) else some 0) = slot
  intro accepted
  cases slot <;> simp [accepted]
@[simp] theorem Dev.admission_timing : d.admission.frm.timing = d.frm.timing := by
  unfold Dev.admission
  (repeat' split) <;> simp
  exact Machine.foldl_keeps (fun z : ScanSt => z.dev.frm.timing = d.frm.timing) _ (fun z c h => (ScanSt.check_timing _ z c).trans h) _ _ rfl
@[simp] theorem Dev.scan_timing : d.scan.frm.timing = d.frm.timing := by
  simp only [Dev.scan]
  split
  · rfl
  · (repeat' split) <;> simp
@[simp] theorem Dev.workEnd_timing : d.workEnd.frm.timing = d.frm.timing := by
  simp only [Dev.workEnd, Dev.modTile_frm, Dev.tagZeroing_frm, Dev.modMem_frm]
  exact (Dev.foldl_timing (fun d r => by split <;> simp) _ _).trans (Dev.advance_timing _ _)
@[simp] theorem Frm.countLen_timing (f : Frm) (l p) : (f.countLen l p).timing = f.timing := by
  simp only [Frm.countLen]
  split <;> rfl
theorem Frm.stopCues_timing (f : Frm) : f.stopCues.timing = { f.timing with outst := [] } := rfl
@[simp] theorem Frm.countStalls_timing (f : Frm) : f.countStalls.timing = f.timing := rfl
theorem Dev.frameOver_timing (len) : (d.frameOver len).frm.timing = { d.frm.timing with outst := [] } := by
  have hc : (if d.frm.ownDone then d else d.cutStall len).frm.timing = d.frm.timing := by split <;> simp
  simp only [Dev.frameOver, Dev.modFrm_frm, Frm.countStalls_timing, Frm.countLen_timing, Frm.stopCues_timing]
  split <;> split <;> simp [hc]
end

section
/-- A link's state, and its lanes with the mask that a later frame sets. -/
def Link.mask (l : Link) : Nat × BitVec 4 × BitVec 4 × Option (BitVec 4 × Nat) := (l.st, l.lanes, l.disabled, l.nextMask)
/-- What of the mesh a frame depends on: the device's place, and the state and masks of each link. -/
def Mesh.shape (m : Mesh) : Option Coord × (Nat → Nat × BitVec 4 × BitVec 4 × Option (BitVec 4 × Nat)) := (m.at_, fun n => (sgetD m.links n {}).mask)
@[simp] theorem Dev.foldl_shape {α : Type} {f : Dev → α → Dev} (h : ∀ d x, (f d x).mesh.shape = d.mesh.shape) (l : List α) (d : Dev) : (l.foldl f d).mesh.shape = d.mesh.shape :=
  Machine.foldl_keeps (fun e => e.mesh.shape = d.mesh.shape) f (fun e x he => (h e x).trans he) l d rfl
@[simp] theorem Mesh.ite_shape (c : Prop) [Decidable c] (a b : Mesh) : (if c then a else b).shape = if c then a.shape else b.shape :=
  apply_ite Mesh.shape c a b
@[simp] theorem Mesh.shape_mk (m : Mesh) (a1 a2 a3 a4 a5 a6 a7 a8 a9 a10 a11 a12 a13 a14 a15 a16 a17 a18 a19 a20 a21 a22 a23 a24 a25 a26) :
    Mesh.shape { m with herd := a1, x := a2, y := a3, lock := a4, herdAt := a5, parentPath := a6, disc := a7, result := a8, seenX := a9, seenY := a10, devices := a11, discCount := a12, cntLink := a13, cntAll := a14, cnt := a15, short := a16, seenRedisc := a17, ownRedisc := a18, reports := a19, discovers := a20, round := a21, ethEn := a22, ethVlan := a23, ethPort := a24, ethSpeed := a25, ethInterval := a26 } = m.shape := rfl
theorem sgetD_smod {α : Type} (m : Sparse α) (k j : Nat) (x : α) (f : α → α) : sgetD (smod m k x f) j x = if j = k then f (sgetD m k x) else sgetD m j x := by
  simp only [smod, sgetD, sget_sput]
  split <;> rfl
theorem sgetD_map {α : Type} (g : α → α) (m : Sparse α) (k : Nat) (x : α) (h : g x = x) : sgetD (m.map fun l => (l.1, g l.2)) k x = g (sgetD m k x) := by
  have hm : sget (m.map fun l => (l.1, g l.2)) k = (sget m k).map g := by
    induction m with
    | nil => rfl
    | cons y m ih =>
      rw [List.map_cons, sget, sget]
      split
      · rfl
      · exact ih
  rw [sgetD, hm]
  cases hs : sget m k <;> simp [sgetD, hs, h]
theorem Mesh.shape_links (m : Mesh) (g : Sparse Link → Sparse Link) (h : ∀ n, (sgetD (g m.links) n {}).mask = (sgetD m.links n {}).mask) :
    Mesh.shape { m with links := g m.links } = m.shape := by
  simp only [Mesh.shape]
  exact congrArg _ (funext h)
@[simp] theorem Link.keep_mask (l : Link) (f) : (l.keep f).mask = l.mask := rfl
@[simp] theorem Dev.modLink_shape (d : Dev) (n) {f : Link → Link} (h : ∀ l, (f l).mask = l.mask) : (d.modLink n f).mesh.shape = d.mesh.shape :=
  Mesh.shape_links d.mesh (fun ls => smod ls n {} f) fun k => by
    rw [sgetD_smod]
    split
    next hk => rw [h, hk]
    next => rfl
@[simp] theorem Dev.idleLanes_shape (d : Dev) (idle) : (d.idleLanes idle).mesh.shape = d.mesh.shape :=
  Mesh.shape_links d.mesh (fun ls => ls.map fun l : Nat × Link => (l.1, { l.2 with idle := idle && l.2.working })) fun n => by
    rw [sgetD_map (fun l : Link => { l with idle := idle && l.working }) _ _ _ (by cases idle <;> rfl)]
    rfl
@[simp] theorem Dev.newStreams_shape (d : Dev) : d.newStreams.mesh.shape = d.mesh.shape :=
  Mesh.shape_links d.mesh (fun ls => ls.map fun l : Nat × Link => (l.1, { l.2 with rx := [], rxSpill := [], runs := [] })) fun n => by
    rw [sgetD_map (fun l : Link => { l with rx := [], rxSpill := [], runs := [] }) _ _ _ rfl]
    rfl
variable (d : Dev)
@[simp] theorem Dev.lateSlots_shape (link n) : (d.lateSlots link n).mesh.shape = d.mesh.shape := by simp [Dev.lateSlots]
@[simp] theorem Dev.endStall_shape (st slot) : (d.endStall st slot).mesh.shape = d.mesh.shape := by simp [Dev.endStall]
@[simp] theorem Dev.cutStall_shape (len) : (d.cutStall len).mesh.shape = d.mesh.shape := by
  simp only [Dev.cutStall]
  (repeat' split) <;> simp
@[simp] theorem Dev.unpark_shape : d.unpark.mesh.shape = d.mesh.shape := by simp [Dev.unpark]
end

section
variable (d : Dev)
@[simp] theorem Dev.sendUnit_shape (link u) : (d.sendUnit link u).mesh.shape = d.mesh.shape := d.modLink_shape link fun _ => rfl
@[simp] theorem Dev.flood_shape (u) : (d.flood u).mesh.shape = d.mesh.shape := by simp [Dev.flood]
@[simp] theorem Dev.sendDown_shape (u) : (d.sendDown u).mesh.shape = d.mesh.shape := by simp [Dev.sendDown]
@[simp] theorem Dev.engage_shape (cause t set) : (d.engage cause t set).mesh.shape = d.mesh.shape := by simp [Dev.engage]
@[simp] theorem Dev.hazard_shape (store reader slot found n toks) : (d.hazard store reader slot found n toks).mesh.shape = d.mesh.shape := by
  simp only [Dev.hazard]
  split <;> simp
@[simp] theorem Dev.hazRead_shape (store keys reader slot toks operand) : (d.hazRead store keys reader slot toks operand).mesh.shape = d.mesh.shape := by
  unfold Dev.hazRead
  split
  · exact Dev.foldl_shape (fun d n => by split <;> simp) _ _
  · rfl
@[simp] theorem Dev.rowsRd_shape (t keys slot cue operand) : (d.rowsRd t keys slot cue operand).1.mesh.shape = d.mesh.shape := by simp [Dev.rowsRd]
@[simp] theorem Dev.rowRd_shape (t tile row slot cue operand) : (d.rowRd t tile row slot cue operand).1.mesh.shape = d.mesh.shape := by simp [Dev.rowRd]
@[simp] theorem Dev.evalTok_shape (c tok) : (d.evalTok c tok).mesh.shape = d.mesh.shape := by
  simp only [Dev.evalTok]
  split <;> simp [Dev.serveLane]
@[simp] theorem Dev.evalRun_shape (c) : (d.evalRun c).mesh.shape = d.mesh.shape := by unfold Dev.evalRun; split <;> simp
@[simp] theorem Dev.advance_shape (slot) : (d.advance slot).mesh.shape = d.mesh.shape := by simp [Dev.advance]
@[simp] theorem Dev.workEnd_shape : d.workEnd.mesh.shape = d.mesh.shape := by
  simp only [Dev.workEnd, Dev.modTile_mesh, Dev.tagZeroing_mesh, Dev.modMem_mesh]
  exact (Dev.foldl_shape (fun d r => by split <;> simp) _ _).trans (Dev.advance_shape _ _)
@[simp] theorem Dev.frameOver_shape (len) : (d.frameOver len).mesh.shape = d.mesh.shape := by
  have hc : (if d.frm.ownDone then d else d.cutStall len).mesh.shape = d.mesh.shape := by split <;> simp
  simp only [Dev.frameOver, Dev.modFrm_mesh]
  split <;> split <;> simp [hc]
@[simp] theorem Dev.closeFrame_shape (start abort) : (d.closeFrame start abort).mesh.shape = d.mesh.shape := by
  simp only [Dev.closeFrame]
  (repeat' split) <;> simp
@[simp] theorem Dev.nameDrain_shape (n) : (d.nameDrain n).mesh.shape = d.mesh.shape := by
  simp only [Dev.nameDrain]
  (repeat' split) <;> simp
@[simp] theorem Dev.nameRaise_shape (n) : (d.nameRaise n).mesh.shape = d.mesh.shape := by
  simp only [Dev.nameRaise]
  (repeat' split) <;> simp
end

section
@[simp] theorem Scr.ite_script (c : Prop) [Decidable c] (a b : Scr) : (if c then a else b).script = if c then a.script else b.script :=
  apply_ite Scr.script c a b
theorem Dev.foldl_script {α : Type} {f : Dev → α → Dev} (h : ∀ d x, (f d x).scr.script = d.scr.script) (l : List α) (d : Dev) : (l.foldl f d).scr.script = d.scr.script :=
  Machine.foldl_keeps (fun e => e.scr.script = d.scr.script) f (fun e x he => (h e x).trans he) l d rfl
variable (d : Dev)
@[simp] theorem Dev.hazard_script (store reader slot found n toks) : (d.hazard store reader slot found n toks).scr.script = d.scr.script := by
  simp only [Dev.hazard]
  split <;> simp
@[simp] theorem Dev.hazRead_script (store keys reader slot toks operand) : (d.hazRead store keys reader slot toks operand).scr.script = d.scr.script := by
  unfold Dev.hazRead
  split
  · exact Dev.foldl_script (fun d n => by split <;> simp) _ _
  · rfl
@[simp] theorem Dev.rowsRd_script (t keys slot cue operand) : (d.rowsRd t keys slot cue operand).1.scr.script = d.scr.script := by simp [Dev.rowsRd]
@[simp] theorem Dev.rowRd_script (t tile row slot cue operand) : (d.rowRd t tile row slot cue operand).1.scr.script = d.scr.script := by simp [Dev.rowRd]
@[simp] theorem Dev.evalTok_script (c tok) : (d.evalTok c tok).scr.script = d.scr.script := by
  simp only [Dev.evalTok]
  split <;> simp [Dev.serveLane]
@[simp] theorem Dev.evalRun_script (c) : (d.evalRun c).scr.script = d.scr.script := by unfold Dev.evalRun; split <;> simp
@[simp] theorem Dev.advance_script (slot) : (d.advance slot).scr.script = d.scr.script := by
  simp only [Dev.advance, Dev.modTile_scr]
  exact Dev.foldl_script (fun d c => d.evalRun_script c) _ _
@[simp] theorem Dev.workEnd_script : d.workEnd.scr.script = d.scr.script := by
  simp only [Dev.workEnd, Dev.modTile_scr, Dev.tagZeroing_scr, Dev.modMem_scr]
  exact (Dev.foldl_script (fun d r => by split <;> simp) _ _).trans (Dev.advance_script _ _)
@[simp] theorem Dev.frameOver_script (len) : (d.frameOver len).scr.script = d.scr.script := by
  have hc : (if d.frm.ownDone then d else d.cutStall len).scr.script = d.scr.script := by split <;> simp
  simp only [Dev.frameOver, Dev.modFrm_scr]
  split <;> split <;> simp [hc]
@[simp] theorem Dev.closeFrame_script (start abort) : (d.closeFrame start abort).scr.script = d.scr.script := by
  simp only [Dev.closeFrame]
  (repeat' split) <;> simp
end

section
variable (d : Dev)
@[simp] theorem ScanSt.ite_mesh (c : Prop) [Decidable c] (a b : ScanSt) : (if c then a else b).dev.mesh = if c then a.dev.mesh else b.dev.mesh :=
  apply_ite (fun z : ScanSt => z.dev.mesh) c a b
@[simp] theorem ScanSt.tryAdmit_mesh (z : ScanSt) (c) : (z.tryAdmit c).dev.mesh = z.dev.mesh := by
  simp only [ScanSt.tryAdmit]; (repeat' split) <;> simp
@[simp] theorem ScanSt.check_mesh (v) (z : ScanSt) (c) : (z.check v c).dev.mesh = z.dev.mesh := by
  have accepted : (if (sget z.dev.call.calls c.session).isSome then (z.dev, true) else z.dev.tryAccept c.session v).1.mesh = z.dev.mesh := by
    split <;> simp
  revert accepted
  simp only [ScanSt.check]
  generalize (if (sget z.dev.call.calls c.session).isSome then (z.dev, true) else z.dev.tryAccept c.session v) = p
  generalize (if !(sget z.dev.call.calls c.session).isSome && bit (p.1.held c.session 0) 14 then
    p.1.adapterFor (fld (p.1.held c.session 0) 24 8) (fld (p.1.held c.session 0) 4 4) else some 0) = slot
  intro accepted
  cases slot <;> simp [accepted]
@[simp] theorem Dev.admission_mesh : d.admission.mesh = d.mesh := by
  unfold Dev.admission
  (repeat' split) <;> simp
  exact Machine.foldl_keeps (fun z : ScanSt => z.dev.mesh = d.mesh) _ (fun z c h => (ScanSt.check_mesh _ z c).trans h) _ _ rfl
@[simp] theorem Dev.scan_mesh : d.scan.mesh = d.mesh := by
  simp only [Dev.scan]
  split
  · rfl
  · (repeat' split) <;> simp
end

section
/-- What of the mesh is not a link's: all but the links and their counters. -/
def Mesh.place (m : Mesh) : Mesh := { m with links := [], cnt := [], short := [] }
@[simp] theorem Dev.foldl_place {α : Type} {f : Dev → α → Dev} (h : ∀ d x, (f d x).mesh.place = d.mesh.place) (l : List α) (d : Dev) : (l.foldl f d).mesh.place = d.mesh.place :=
  Machine.foldl_keeps (fun e => e.mesh.place = d.mesh.place) f (fun e x he => (h e x).trans he) l d rfl
@[simp] theorem Mesh.ite_place (c : Prop) [Decidable c] (a b : Mesh) : (if c then a else b).place = if c then a.place else b.place :=
  apply_ite Mesh.place c a b
@[simp] theorem Mesh.place_mk (m : Mesh) (a b c) : Mesh.place { m with links := a, cnt := b, short := c } = m.place := rfl
@[simp] theorem Dev.modLink_place (d : Dev) (n) (f) : (d.modLink n f).mesh.place = d.mesh.place := rfl
@[simp] theorem Dev.idleLanes_place (d : Dev) (idle) : (d.idleLanes idle).mesh.place = d.mesh.place := rfl
@[simp] theorem Dev.newStreams_place (d : Dev) : d.newStreams.mesh.place = d.mesh.place := rfl
@[simp] theorem Dev.trainLinks_place (d : Dev) : d.trainLinks.mesh.place = d.mesh.place :=
  Dev.foldl_place (fun d n => d.modLink_place n _) _ _
variable (d : Dev)
@[simp] theorem Dev.lateSlots_place (link n) : (d.lateSlots link n).mesh.place = d.mesh.place := by simp [Dev.lateSlots]
@[simp] theorem Dev.endStall_place (st slot) : (d.endStall st slot).mesh.place = d.mesh.place := by simp [Dev.endStall]
@[simp] theorem Dev.cutStall_place (len) : (d.cutStall len).mesh.place = d.mesh.place := by
  simp only [Dev.cutStall]
  (repeat' split) <;> simp
@[simp] theorem Dev.unpark_place : d.unpark.mesh.place = d.mesh.place := by simp [Dev.unpark]
variable (d : Dev)
@[simp] theorem Dev.sendUnit_place (link u) : (d.sendUnit link u).mesh.place = d.mesh.place := d.modLink_place _ _
@[simp] theorem Dev.flood_place (u) : (d.flood u).mesh.place = d.mesh.place := by simp [Dev.flood]
@[simp] theorem Dev.engage_place (cause t set) : (d.engage cause t set).mesh.place = d.mesh.place := by simp [Dev.engage]
@[simp] theorem Dev.hazard_place (store reader slot found n toks) : (d.hazard store reader slot found n toks).mesh.place = d.mesh.place := by
  simp only [Dev.hazard]
  split <;> simp
@[simp] theorem Dev.hazRead_place (store keys reader slot toks operand) : (d.hazRead store keys reader slot toks operand).mesh.place = d.mesh.place := by
  unfold Dev.hazRead
  split
  · exact Dev.foldl_place (fun d n => by split <;> simp) _ _
  · rfl
@[simp] theorem Dev.rowsRd_place (t keys slot cue operand) : (d.rowsRd t keys slot cue operand).1.mesh.place = d.mesh.place := by simp [Dev.rowsRd]
@[simp] theorem Dev.rowRd_place (t tile row slot cue operand) : (d.rowRd t tile row slot cue operand).1.mesh.place = d.mesh.place := by simp [Dev.rowRd]
@[simp] theorem Dev.evalTok_place (c tok) : (d.evalTok c tok).mesh.place = d.mesh.place := by
  simp only [Dev.evalTok]
  split <;> simp [Dev.serveLane]
@[simp] theorem Dev.evalRun_place (c) : (d.evalRun c).mesh.place = d.mesh.place := by unfold Dev.evalRun; split <;> simp
@[simp] theorem Dev.advance_place (slot) : (d.advance slot).mesh.place = d.mesh.place := by simp [Dev.advance]
@[simp] theorem Dev.workEnd_place : d.workEnd.mesh.place = d.mesh.place := by
  simp only [Dev.workEnd, Dev.modTile_mesh, Dev.tagZeroing_mesh, Dev.modMem_mesh]
  exact (Dev.foldl_place (fun d r => by split <;> simp) _ _).trans (Dev.advance_place _ _)
@[simp] theorem Dev.frameOver_place (len) : (d.frameOver len).mesh.place = d.mesh.place := by
  have hc : (if d.frm.ownDone then d else d.cutStall len).mesh.place = d.mesh.place := by split <;> simp
  simp only [Dev.frameOver, Dev.modFrm_mesh]
  split <;> split <;> simp [hc]
@[simp] theorem Dev.endFrames_place (len) : (d.endFrames len).mesh.place = d.mesh.place := by
  simp only [Dev.endFrames, Dev.modFrm_mesh, Dev.flushDiscards_mesh]
  (repeat' split) <;> simp
@[simp] theorem Dev.leaveFrames_place : d.leaveFrames.mesh.place = d.mesh.place := by
  simp only [Dev.leaveFrames]
  (repeat' split) <;> simp
end

section
/-- What of the system registers park and wake set: the stacks in self-refresh, and where the sequence stands. -/
def Sys.power (s : Sys) : BitVec 4 × ParkPhase := (s.selfRefresh, s.parkPhase)
@[simp] theorem Dev.ite_power (c : Prop) [Decidable c] (a b : Dev) : (if c then a else b).sys.power = if c then a.sys.power else b.sys.power :=
  apply_ite (fun e => e.sys.power) c a b
@[simp] theorem Sys.ite_power (c : Prop) [Decidable c] (a b : Sys) : (if c then a else b).power = if c then a.power else b.power :=
  apply_ite Sys.power c a b
@[simp] theorem Dev.foldl_power {α : Type} {f : Dev → α → Dev} (h : ∀ d x, (f d x).sys.power = d.sys.power) (l : List α) (d : Dev) : (l.foldl f d).sys.power = d.sys.power :=
  Machine.foldl_keeps (fun e => e.sys.power = d.sys.power) f (fun e x he => (h e x).trans he) l d rfl
@[simp] theorem Dev.settle_power (b d : Dev) : (Dev.settle b d).sys.power = d.sys.power := rfl
@[simp] theorem Sys.st_power (s : Sys) (x) : ({ s with st := x } : Sys).power = s.power := rfl
@[simp] theorem Dev.setSt_power (d : Dev) (st) : (d.setSt st).sys.power = d.sys.power := by
  simp only [Dev.setSt]
  split <;> simp
@[simp] theorem Dev.record_power (d : Dev) (i action nested) : (d.record i action nested).sys.power = d.sys.power := by simp [Dev.record]
@[simp] theorem Dev.enterStruck_power (d : Dev) : d.enterStruck.sys.power = d.sys.power := by simp [Dev.enterStruck]
@[simp] theorem Dev.beginDrain_power (d : Dev) (seq) : (d.beginDrain seq).sys.power = d.sys.power := by
  unfold Dev.beginDrain
  dsimp only
  (repeat' split) <;> simp
@[simp] theorem Dev.raise_power {d : Dev} {i : ErrIn} (h : i.cls < 3) : (d.raise i).sys.power = d.sys.power := by
  unfold Dev.raise
  split
  · rfl
  · dsimp only
    split
    · simp
    · split <;> simp
    · (repeat' split) <;> simp
    next h0 h1 h2 =>
      have : i.cls ≠ 0 := h0
      have : i.cls ≠ 1 := h1
      have : i.cls ≠ 2 := h2
      omega
variable (d : Dev)
@[simp] theorem Dev.sampleVprog_power (ok) : (d.sampleVprog ok).sys.power = d.sys.power := by
  simp only [Dev.sampleVprog]
  (repeat' split) <;> simp
@[simp] theorem Dev.tileSuspect_power (code t p) : (d.tileSuspect code t p).sys.power = d.sys.power := Dev.raise_power (by simp)
@[simp] theorem Dev.wornOut_power (a' j) : (d.wornOut a' j).sys.power = d.sys.power := by
  simp only [Dev.wornOut]
  (repeat' split) <;> simp
theorem Dev.calError_power {c : Nat} (h : c < 3) : (d.calError c).sys.power = d.sys.power := Dev.raise_power h
@[simp] theorem Dev.calWrite_power {f : Dev → Dev} (h : ∀ d, (f d).sys.power = d.sys.power) : (d.calWrite f).1.sys.power = d.sys.power := by
  simp only [Dev.calWrite]
  split
  · simp [h]
  · simp [Dev.calError_power, -Dev.ite_sys]
theorem Dev.arrayError_power {cls : Nat} (h : cls < 3) (code a flagged row pattern spare verdict) :
    (d.arrayError code cls a flagged row pattern spare verdict).sys.power = d.sys.power := Dev.raise_power h
@[simp] theorem Dev.startProg_power (a j) : (d.startProg a j).sys.power = d.sys.power := by simp [Dev.startProg, Dev.arrayError_power]
@[simp] theorem Dev.startWaiting_power (a j) : (d.startWaiting a j).sys.power = d.sys.power := by
  simp only [Dev.startWaiting]
  split
  · simp
  · split
    · split <;> simp
    · simp
@[simp] theorem Dev.resumePaused_power : d.resumePaused.sys.power = d.sys.power := by
  unfold Dev.resumePaused
  refine Dev.foldl_power (fun d x => ?_) _ _
  dsimp only
  (repeat' split) <;> simp
end

section
/-- The adapters and how many steps run. -/
def Call.load (c : Call) : Sparse AdpSlot × Sparse (Nat × Bool) × Nat := (c.adpSlots, c.adpDir, c.steps.length)
@[simp] theorem Dev.ite_load (c : Prop) [Decidable c] (a b : Dev) : (if c then a else b).call.load = if c then a.call.load else b.call.load :=
  apply_ite (fun e => e.call.load) c a b
@[simp] theorem Call.ite_load (c : Prop) [Decidable c] (a b : Call) : (if c then a else b).load = if c then a.load else b.load :=
  apply_ite Call.load c a b
@[simp] theorem Dev.foldl_load {α : Type} {f : Dev → α → Dev} (h : ∀ d x, (f d x).call.load = d.call.load) (l : List α) (d : Dev) : (l.foldl f d).call.load = d.call.load :=
  Machine.foldl_keeps (fun e => e.call.load = d.call.load) f (fun e x he => (h e x).trans he) l d rfl
@[simp] theorem Dev.settle_load (b d : Dev) : (Dev.settle b d).call.load = d.call.load := rfl
@[simp] theorem Call.hold_load (c : Call) (x) : ({ c with hold := x } : Call).load = c.load := rfl
@[simp] theorem Dev.discardStep_load (d : Dev) (s c) : (d.discardStep s c).call.load = d.call.load := by
  simp only [Dev.discardStep]
  split <;> simp [Call.load]
@[simp] theorem Dev.discardAll_load (d : Dev) (c) : (d.discardAll c).call.load = d.call.load := by simp [Dev.discardAll]
@[simp] theorem Dev.record_load (d : Dev) (i action nested) : (d.record i action nested).call.load = d.call.load := by simp [Dev.record]
@[simp] theorem Dev.enterStruck_load (d : Dev) : d.enterStruck.call.load = d.call.load := by simp [Dev.enterStruck]
@[simp] theorem Dev.beginDrain_load (d : Dev) (seq) : (d.beginDrain seq).call.load = d.call.load := by
  unfold Dev.beginDrain
  dsimp only
  (repeat' split) <;> simp
@[simp] theorem Dev.raise_load {d : Dev} {i : ErrIn} (h : i.cls < 3) : (d.raise i).call.load = d.call.load := by
  unfold Dev.raise
  split
  · rfl
  · dsimp only
    split
    · simp
    · split <;> simp
    · (repeat' split) <;> simp
    next h0 h1 h2 =>
      have : i.cls ≠ 0 := h0
      have : i.cls ≠ 1 := h1
      have : i.cls ≠ 2 := h2
      omega
variable (d : Dev)
@[simp] theorem Dev.sampleVprog_load (ok) : (d.sampleVprog ok).call.load = d.call.load := by
  simp only [Dev.sampleVprog]
  (repeat' split) <;> simp
@[simp] theorem Dev.tileSuspect_load (code t p) : (d.tileSuspect code t p).call.load = d.call.load := Dev.raise_load (by simp)
@[simp] theorem Dev.wornOut_load (a' j) : (d.wornOut a' j).call.load = d.call.load := by
  simp only [Dev.wornOut]
  (repeat' split) <;> simp
theorem Dev.calError_load {c : Nat} (h : c < 3) : (d.calError c).call.load = d.call.load := Dev.raise_load h
@[simp] theorem Dev.calWrite_load {f : Dev → Dev} (h : ∀ d, (f d).call.load = d.call.load) : (d.calWrite f).1.call.load = d.call.load := by
  simp only [Dev.calWrite]
  split
  · simp [h]
  · simp [Dev.calError_load, -Dev.ite_call]
theorem Dev.arrayError_load {cls : Nat} (h : cls < 3) (code a flagged row pattern spare verdict) :
    (d.arrayError code cls a flagged row pattern spare verdict).call.load = d.call.load := Dev.raise_load h
@[simp] theorem Dev.startProg_load (a j) : (d.startProg a j).call.load = d.call.load := by simp [Dev.startProg, Dev.arrayError_load]
@[simp] theorem Dev.startWaiting_load (a j) : (d.startWaiting a j).call.load = d.call.load := by
  simp only [Dev.startWaiting]
  split
  · simp
  · split
    · split <;> simp
    · simp
@[simp] theorem Dev.resumePaused_load : d.resumePaused.call.load = d.call.load := by
  unfold Dev.resumePaused
  refine Dev.foldl_load (fun d x => ?_) _ _
  dsimp only
  (repeat' split) <;> simp
end

section
@[simp] theorem Dev.ite_freeCtr (c : Prop) [Decidable c] (a b : Dev) : (if c then a else b).freeCtr = if c then a.freeCtr else b.freeCtr :=
  apply_ite Dev.freeCtr c a b
@[simp] theorem Dev.foldl_freeCtr {α : Type} {f : Dev → α → Dev} (h : ∀ d x, (f d x).freeCtr = d.freeCtr) (l : List α) (d : Dev) : (l.foldl f d).freeCtr = d.freeCtr :=
  Machine.foldl_keeps (fun e => e.freeCtr = d.freeCtr) f (fun e x he => (h e x).trans he) l d rfl
variable (d : Dev)
@[simp] theorem Dev.sendMsix_freeCtr (v) : (d.sendMsix v).freeCtr = d.freeCtr := by simp [Dev.sendMsix]
@[simp] theorem Dev.fireVector_freeCtr (v) : (d.fireVector v).freeCtr = d.freeCtr := by simp [Dev.fireVector]
@[simp] theorem Dev.event_freeCtr (e) : (d.event e).freeCtr = d.freeCtr := by simp [Dev.event]
@[simp] theorem Dev.settle_freeCtr (before) : (Dev.settle before d).freeCtr = d.freeCtr := by simp [Dev.settle]
@[simp] theorem Dev.setSt_freeCtr (st) : (d.setSt st).freeCtr = d.freeCtr := by simp [Dev.setSt]
@[simp] theorem Dev.ethSend_freeCtr (bs) : (d.ethSend bs).freeCtr = d.freeCtr := by simp [Dev.ethSend]
@[simp] theorem Dev.record_freeCtr (i action nested) : (d.record i action nested).freeCtr = d.freeCtr := by simp [Dev.record]
@[simp] theorem Dev.exactFail_freeCtr (cause) : (d.exactFail cause).freeCtr = d.freeCtr := by unfold Dev.exactFail; split <;> simp
@[simp] theorem Dev.exactDiscard_freeCtr (t) : (d.exactDiscard t).freeCtr = d.freeCtr := by unfold Dev.exactDiscard; split <;> simp
@[simp] theorem Dev.discardStep_freeCtr (s cause) : (d.discardStep s cause).freeCtr = d.freeCtr := by simp [Dev.discardStep]
@[simp] theorem Dev.discardAll_freeCtr (cause) : (d.discardAll cause).freeCtr = d.freeCtr := by simp [Dev.discardAll]
@[simp] theorem Dev.commitHistory_freeCtr : d.commitHistory.freeCtr = d.freeCtr := by simp [Dev.commitHistory]
@[simp] theorem Dev.finishDrain_freeCtr : d.finishDrain.freeCtr = d.freeCtr := by simp [Dev.finishDrain]
@[simp] theorem Dev.enterStruck_freeCtr : d.enterStruck.freeCtr = d.freeCtr := by simp [Dev.enterStruck]
@[simp] theorem Dev.linkLoss_freeCtr : d.linkLoss.freeCtr = d.freeCtr := by simp [Dev.linkLoss]
@[simp] theorem Dev.blackout_freeCtr : d.blackout.freeCtr = d.freeCtr := by simp [Dev.blackout]
@[simp] theorem Dev.raise_freeCtr (i) : (d.raise i).freeCtr = d.freeCtr := by unfold Dev.raise; (repeat' split) <;> simp [Dev.beginDrain, Dev.fatalHandling]
@[simp] theorem Dev.discardTok_freeCtr (t cause) : (d.discardTok t cause).freeCtr = d.freeCtr := by simp [Dev.discardTok]
@[simp] theorem Dev.contain_freeCtr (i touched cause) : (d.contain i touched cause).freeCtr = d.freeCtr := by simp [Dev.contain]
@[simp] theorem Dev.histEvent_freeCtr (kind unit score threshold) : (d.histEvent kind unit score threshold).1.freeCtr = d.freeCtr := by simp [Dev.histEvent]
@[simp] theorem Dev.histPermanent_freeCtr (kind unit) : (d.histPermanent kind unit).freeCtr = d.freeCtr := by simp [Dev.histPermanent]
@[simp] theorem Dev.modLink_freeCtr (n f) : (d.modLink n f).freeCtr = d.freeCtr := by simp [Dev.modLink]
@[simp] theorem Dev.sendUnit_freeCtr (link u) : (d.sendUnit link u).freeCtr = d.freeCtr := by simp [Dev.sendUnit]
@[simp] theorem Dev.flood_freeCtr (u) : (d.flood u).freeCtr = d.freeCtr := by simp [Dev.flood]
@[simp] theorem Dev.applyHolds_freeCtr : d.applyHolds.freeCtr = d.freeCtr := by simp [Dev.applyHolds]
@[simp] theorem Dev.engage_freeCtr (cause t set) : (d.engage cause t set).freeCtr = d.freeCtr := by simp [Dev.engage]
@[simp] theorem Dev.hazard_freeCtr (store reader slot found n toks) : (d.hazard store reader slot found n toks).freeCtr = d.freeCtr := by
  simp only [Dev.hazard]; split <;> simp
@[simp] theorem Dev.hazRead_freeCtr (store keys reader slot toks operand) : (d.hazRead store keys reader slot toks operand).freeCtr = d.freeCtr := by
  unfold Dev.hazRead
  split
  · exact Dev.foldl_freeCtr (fun d n => by split <;> simp) _ d
  · rfl
@[simp] theorem Dev.useKeys_freeCtr (keys step) : (d.useKeys keys step).freeCtr = d.freeCtr := by simp [Dev.useKeys]
@[simp] theorem Dev.rowsRd_freeCtr (t keys slot cue operand) : (d.rowsRd t keys slot cue operand).1.freeCtr = d.freeCtr := by simp [Dev.rowsRd]
@[simp] theorem Dev.rowRd_freeCtr (t tile row slot cue operand) : (d.rowRd t tile row slot cue operand).1.freeCtr = d.freeCtr := by simp [Dev.rowRd]
@[simp] theorem Dev.tileError_freeCtr (code tile pslot slot cue t) : (d.tileError code tile pslot slot cue t).freeCtr = d.freeCtr := by simp [Dev.tileError]
@[simp] theorem Dev.precFlag_freeCtr (t bit) : (d.precFlag t bit).freeCtr = d.freeCtr := by simp [Dev.precFlag]
@[simp] theorem Dev.precCount_freeCtr (tile n) : (d.precCount tile n).freeCtr = d.freeCtr := by simp [Dev.precCount]
@[simp] theorem Dev.unserved_freeCtr (r) : (d.unserved r).freeCtr = d.freeCtr := by simp [Dev.unserved]
@[simp] theorem Dev.request_freeCtr (r) : (d.request r).freeCtr = d.freeCtr := by simp only [Dev.request]; (repeat' split) <;> simp
@[simp] theorem Dev.clamped_freeCtr (tile t) : (d.clamped tile t).freeCtr = d.freeCtr := by simp [Dev.clamped]
@[simp] theorem Dev.modArr_freeCtr (a f) : (d.modArr a f).freeCtr = d.freeCtr := by simp [Dev.modArr]
@[simp] theorem Dev.evalTrouble_freeCtr (tok i b ps slot lane again) : (d.evalTrouble tok i b ps slot lane again).freeCtr = d.freeCtr := by
  simp [Dev.evalTrouble, Dev.markReplay, Dev.learnTrouble]
end

section
/-- What a tile has added up and is to add up, the lanes it served, its arrays, outputs and blocks. -/
def Tile.sums (t : Tile) : Sparse AccSet × List Contrib × List (Nat × Nat) × Sparse Arr × Sparse OutLoc × Sparse Block × Sparse RowOld × List Nat :=
  (t.acc, t.pend, t.served, t.arrs, t.outs, t.blocks, t.rowOld, t.qtab)
@[simp] theorem Dev.foldl_sums {α : Type} {f : Dev → α → Dev} (h : ∀ d x, (f d x).tile.sums = d.tile.sums) (l : List α) (d : Dev) : (l.foldl f d).tile.sums = d.tile.sums :=
  Machine.foldl_keeps (fun e => e.tile.sums = d.tile.sums) f (fun e x he => (h e x).trans he) l d rfl
@[simp] theorem Tile.setCensus_sums (t : Tile) (x a) : (t.setCensus x a).sums = t.sums := rfl
@[simp] theorem Tile.passed_sums (t : Tile) (n) : (t.passed n).sums = t.sums := rfl
variable (d : Dev)
@[simp] theorem Dev.exactFail_sums (cause) : (d.exactFail cause).tile.sums = d.tile.sums := by
  simp only [Dev.exactFail]
  (repeat' split) <;> simp <;> rfl
@[simp] theorem Dev.exactDiscard_sums (t) : (d.exactDiscard t).tile.sums = d.tile.sums := by
  simp only [Dev.exactDiscard]
  (repeat' split) <;> simp
@[simp] theorem Dev.discardStep_sums (s cause) : (d.discardStep s cause).tile.sums = d.tile.sums := by simp [Dev.discardStep]
@[simp] theorem Dev.discardAll_sums (cause) : (d.discardAll cause).tile.sums = d.tile.sums := by
  simp only [Dev.discardAll]
  (repeat' split) <;> simp
@[simp] theorem Dev.enterStruck_sums : d.enterStruck.tile.sums = d.tile.sums := by simp [Dev.enterStruck]
@[simp] theorem Dev.beginDrain_sums (seq) : (d.beginDrain seq).tile.sums = d.tile.sums := by
  simp only [Dev.beginDrain]
  (repeat' split) <;> simp
@[simp] theorem Dev.fatalHandling_sums (seq code) : (d.fatalHandling seq code).tile.sums = d.tile.sums := by simp [Dev.fatalHandling]
@[simp] theorem Dev.raise_sums (i) : (d.raise i).tile.sums = d.tile.sums := by
  simp only [Dev.raise]
  (repeat' split) <;> simp
@[simp] theorem Dev.discardTok_sums (t cause) : (d.discardTok t cause).tile.sums = d.tile.sums := by
  simp only [Dev.discardTok]
  (repeat' split) <;> simp
@[simp] theorem Dev.contain_sums (i touched cause) : (d.contain i touched cause).tile.sums = d.tile.sums := by simp [Dev.contain]
@[simp] theorem Dev.applyHolds_sums : d.applyHolds.tile.sums = d.tile.sums := by
  simp only [Dev.applyHolds]
  (repeat' split) <;> simp <;> rfl
@[simp] theorem Dev.engage_sums (cause t set) : (d.engage cause t set).tile.sums = d.tile.sums := by simp [Dev.engage]
@[simp] theorem Dev.hazard_sums (store reader slot found n toks) : (d.hazard store reader slot found n toks).tile.sums = d.tile.sums := by
  simp only [Dev.hazard]
  (repeat' split) <;> simp
@[simp] theorem Dev.hazRead_sums (store keys reader slot toks operand) : (d.hazRead store keys reader slot toks operand).tile.sums = d.tile.sums := by
  unfold Dev.hazRead
  split
  · exact Dev.foldl_sums (fun d n => by split <;> simp) _ d
  · rfl
@[simp] theorem Dev.refuseWings_sums (bank slot cue t) : (d.refuseWings bank slot cue t).tile.sums = d.tile.sums := by simp [Dev.refuseWings]
@[simp] theorem Dev.useKeys_sums (keys step) : (d.useKeys keys step).tile.sums = d.tile.sums := by
  simp only [Dev.useKeys]
  (repeat' split) <;> simp <;> rfl
@[simp] theorem Dev.rowsRd_sums (t keys slot cue operand) : (d.rowsRd t keys slot cue operand).1.tile.sums = d.tile.sums := by simp [Dev.rowsRd]
@[simp] theorem Dev.rowRd_sums (t tile row slot cue operand) : (d.rowRd t tile row slot cue operand).1.tile.sums = d.tile.sums := by simp [Dev.rowRd]
@[simp] theorem Dev.tileError_sums (code tile pslot slot cue t) : (d.tileError code tile pslot slot cue t).tile.sums = d.tile.sums := by simp [Dev.tileError]
@[simp] theorem Dev.precCount_sums (tile n) : (d.precCount tile n).tile.sums = d.tile.sums := rfl
@[simp] theorem Dev.unserved_sums (r) : (d.unserved r).tile.sums = d.tile.sums := by simp [Dev.unserved]
@[simp] theorem Dev.request_sums (r) : (d.request r).tile.sums = d.tile.sums := by
  unfold Dev.request
  extract_lets f d₁ q put
  have hput (e : Dev) (q) : (put e q).tile.sums = e.tile.sums := rfl
  have h₁ : d₁.tile.sums = d.tile.sums := rfl
  clear_value put d₁
  split
  case isTrue => rw [hput, h₁]
  case isFalse d₂ _ =>
    have h₂ : d₂.tile.sums = d.tile.sums := (Dev.precCount_sums ..).trans h₁
    clear_value d₂
    (repeat' split) <;> simp [hput, h₂]
@[simp] theorem Dev.clamped_sums (tile t) : (d.clamped tile t).tile.sums = d.tile.sums := by simp [Dev.clamped]
@[simp] theorem Dev.markReplay_sums (t) : (d.markReplay t).tile.sums = d.tile.sums := by
  simp only [Dev.markReplay]
  (repeat' split) <;> simp <;> rfl
@[simp] theorem Dev.learnTrouble_sums (tile t b m clip range) : (d.learnTrouble tile t b m clip range).tile.sums = d.tile.sums := by
  unfold Dev.learnTrouble
  extract_lets q e big up lowest d₁
  have hup (x : Dev) (r) : (up x r).tile.sums = x.tile.sums := Dev.markReplay_sums _ _
  have h₁ : d₁.tile.sums = d.tile.sums := by
    simp only [d₁]
    (repeat' split) <;> simp [hup]
  clear_value up d₁
  (repeat' split) <;> simp [hup, h₁]
@[simp] theorem Dev.capture_sums (a' key range ps) : (d.capture a' key range ps).tile.sums = d.tile.sums := rfl
@[simp] theorem Dev.evalTrouble_sums (tok i b ps slot lane again) : (d.evalTrouble tok i b ps slot lane again).tile.sums = d.tile.sums := by
  simp only [Dev.evalTrouble]
  (repeat' split) <;> simp
@[simp] theorem Dev.drives_sums (tile slot n) : (d.drives tile slot n).tile.sums = d.tile.sums := rfl
end

section
/-- What a tile has added up and is to add up, its probes and their rotation, and the slots in which its rows are driven. -/
def Tile.wins (t : Tile) : Sparse AccSet × List Contrib × List Probe × Sparse Nat × List (Nat × Nat) :=
  (t.acc, t.pend, t.probes, t.rot, t.driven)
@[simp] theorem Dev.foldl_wins {α : Type} {f : Dev → α → Dev} (h : ∀ d x, (f d x).tile.wins = d.tile.wins) (l : List α) (d : Dev) : (l.foldl f d).tile.wins = d.tile.wins :=
  Machine.foldl_keeps (fun e => e.tile.wins = d.tile.wins) f (fun e x he => (h e x).trans he) l d rfl
@[simp] theorem Tile.setCensus_wins (t : Tile) (x a) : (t.setCensus x a).wins = t.wins := rfl
@[simp] theorem Tile.passed_wins (t : Tile) (n) : (t.passed n).wins = t.wins := rfl
variable (d : Dev)
@[simp] theorem Dev.exactFail_wins (cause) : (d.exactFail cause).tile.wins = d.tile.wins := by
  simp only [Dev.exactFail]
  (repeat' split) <;> simp <;> rfl
@[simp] theorem Dev.exactDiscard_wins (t) : (d.exactDiscard t).tile.wins = d.tile.wins := by
  simp only [Dev.exactDiscard]
  (repeat' split) <;> simp
@[simp] theorem Dev.discardStep_wins (s cause) : (d.discardStep s cause).tile.wins = d.tile.wins := by simp [Dev.discardStep]
@[simp] theorem Dev.discardAll_wins (cause) : (d.discardAll cause).tile.wins = d.tile.wins := by
  simp only [Dev.discardAll]
  (repeat' split) <;> simp
@[simp] theorem Dev.enterStruck_wins : d.enterStruck.tile.wins = d.tile.wins := by simp [Dev.enterStruck]
@[simp] theorem Dev.beginDrain_wins (seq) : (d.beginDrain seq).tile.wins = d.tile.wins := by
  simp only [Dev.beginDrain]
  (repeat' split) <;> simp
@[simp] theorem Dev.fatalHandling_wins (seq code) : (d.fatalHandling seq code).tile.wins = d.tile.wins := by simp [Dev.fatalHandling]
@[simp] theorem Dev.raise_wins (i) : (d.raise i).tile.wins = d.tile.wins := by
  simp only [Dev.raise]
  (repeat' split) <;> simp
@[simp] theorem Dev.discardTok_wins (t cause) : (d.discardTok t cause).tile.wins = d.tile.wins := by
  simp only [Dev.discardTok]
  (repeat' split) <;> simp
@[simp] theorem Dev.contain_wins (i touched cause) : (d.contain i touched cause).tile.wins = d.tile.wins := by simp [Dev.contain]
@[simp] theorem Dev.refuseWings_wins (bank slot cue t) : (d.refuseWings bank slot cue t).tile.wins = d.tile.wins := by simp [Dev.refuseWings]
@[simp] theorem Dev.wingsWr_wins (t a' bs slot cue) : (d.wingsWr t a' bs slot cue).tile.wins = d.tile.wins := by
  simp only [Dev.wingsWr]
  (repeat' split) <;> simp
@[simp] theorem Dev.precCount_wins (tile n) : (d.precCount tile n).tile.wins = d.tile.wins := rfl
@[simp] theorem Dev.unserved_wins (r) : (d.unserved r).tile.wins = d.tile.wins := by simp [Dev.unserved]
@[simp] theorem Dev.request_wins (r) : (d.request r).tile.wins = d.tile.wins := by
  unfold Dev.request
  extract_lets f d₁ q put
  have hput (e : Dev) (q) : (put e q).tile.wins = e.tile.wins := rfl
  have h₁ : d₁.tile.wins = d.tile.wins := rfl
  clear_value put d₁
  split
  case isTrue => rw [hput, h₁]
  case isFalse d₂ _ =>
    have h₂ : d₂.tile.wins = d.tile.wins := (Dev.precCount_wins ..).trans h₁
    clear_value d₂
    (repeat' split) <;> simp [hput, h₂]
@[simp] theorem Dev.clamped_wins (tile t) : (d.clamped tile t).tile.wins = d.tile.wins := by simp [Dev.clamped]
@[simp] theorem Dev.markReplay_wins (t) : (d.markReplay t).tile.wins = d.tile.wins := by
  simp only [Dev.markReplay]
  (repeat' split) <;> simp <;> rfl
@[simp] theorem Dev.learnTrouble_wins (tile t b m clip range) : (d.learnTrouble tile t b m clip range).tile.wins = d.tile.wins := by
  unfold Dev.learnTrouble
  extract_lets q e big up lowest d₁
  have hup (x : Dev) (r) : (up x r).tile.wins = x.tile.wins := Dev.markReplay_wins _ _
  have h₁ : d₁.tile.wins = d.tile.wins := by
    simp only [d₁]
    (repeat' split) <;> simp [hup]
  clear_value up d₁
  (repeat' split) <;> simp [hup, h₁]
@[simp] theorem Dev.capture_wins (a' key range ps) : (d.capture a' key range ps).tile.wins = d.tile.wins := rfl
@[simp] theorem Dev.evalTrouble_wins (tok i b ps slot lane again) : (d.evalTrouble tok i b ps slot lane again).tile.wins = d.tile.wins := by
  simp only [Dev.evalTrouble]
  (repeat' split) <;> simp
@[simp] theorem Dev.modArr_wins (a' f) : (d.modArr a' f).tile.wins = d.tile.wins := rfl
@[simp] theorem Dev.phase_wins (a' range codes) : (d.phase a' range codes).1.tile.wins = d.tile.wins := rfl
@[simp] theorem Dev.measureOne_wins (a') : (d.measureOne a').tile.wins = d.tile.wins := rfl
@[simp] theorem Dev.probeRun_wins (a' b) : (d.probeRun a' b).1.tile.wins = d.tile.wins := rfl
@[simp] theorem Dev.histEvent_wins (kind unit score threshold) : (d.histEvent kind unit score threshold).1.tile.wins = d.tile.wins := by simp [Dev.histEvent]
@[simp] theorem Dev.histPermanent_wins (kind unit) : (d.histPermanent kind unit).tile.wins = d.tile.wins := rfl
@[simp] theorem Dev.arrayError_wins (code cls a' flagged row pattern spare verdict) :
    (d.arrayError code cls a' flagged row pattern spare verdict).tile.wins = d.tile.wins := by simp [Dev.arrayError]
@[simp] theorem Dev.emptyServed_wins (key) : (d.emptyServed key).tile.wins = d.tile.wins :=
  Dev.foldl_wins (fun d x => by split <;> simp) _ d
@[simp] theorem Dev.tileSuspect_wins (code tile slot) : (d.tileSuspect code tile slot).tile.wins = d.tile.wins := by simp [Dev.tileSuspect]
@[simp] theorem Dev.failPrincipal_wins (code a' flagged row pattern) : (d.failPrincipal code a' flagged row pattern).tile.wins = d.tile.wins := by
  simp only [Dev.failPrincipal]
  (repeat' split) <;> simp
@[simp] theorem Dev.convert_wins (a' range) (l) : ∀ d : Dev, (d.convert a' range l).1.tile.wins = d.tile.wins := by
  induction l with
  | nil => intro d; rfl
  | cons p t ih => intro d; simp [Dev.convert, ih]
@[simp] theorem Dev.keepRow_wins (key slot) : (d.keepRow key slot).tile.wins = d.tile.wins := by
  unfold Dev.keepRow
  (repeat' split) <;> rfl
@[simp] theorem Dev.tagWrite_wins (store keys cue) : (d.tagWrite store keys cue).tile.wins = d.tile.wins := by
  unfold Dev.tagWrite
  (repeat' split) <;> rfl
@[simp] theorem Dev.rowWr_wins (tile row bs tag slot cue) : (d.rowWr tile row bs tag slot cue).tile.wins = d.tile.wins := by
  unfold Dev.rowWr
  rw [Dev.tagWrite_wins]
  exact Dev.keepRow_wins ..
@[simp] theorem Dev.vecWr_wins (t l f bs slot cue) : (d.vecWr t l f bs slot cue).tile.wins = d.tile.wins := by
  unfold Dev.vecWr
  split
  · exact Dev.foldl_wins (fun d x => by simp) _ d
  · simp
@[simp] theorem Dev.mergeOut_wins (r o s slot) : (d.mergeOut r o s slot).tile.wins = d.tile.wins := by
  unfold Dev.mergeOut
  simp
  rfl
@[simp] theorem Dev.runFormat_wins (r a') : (d.runFormat r a').1.tile.wins = d.tile.wins := by
  unfold Dev.runFormat
  dsimp only
  (repeat' split) <;> simp
@[simp] theorem Dev.runRange_wins (r a') : (d.runRange r a').1.tile.wins = d.tile.wins := by simp [Dev.runRange]
@[simp] theorem Dev.serve_wins (r slot inserted) : (d.serve r slot inserted).tile.wins = d.tile.wins := by
  have h (a) : (if r.format then d.runFormat r a else d.runRange r a).1.tile.wins = d.tile.wins := by split <;> simp
  unfold Dev.serve
  split
  · simp
  next a _ =>
    split
    · simp
    · split
      · simp
      · specialize h a
        generalize (if r.format then d.runFormat r a else d.runRange r a) = z at h
        obtain ⟨e, s, b, ps, i⟩ := z
        dsimp only
        (repeat' split) <;> simp [h]
end

section
/-- How many repeats each flock has served, in its windows and in inserted slots. -/
def Tile.servedCnt (t : Tile) : Nat → Nat × Nat := fun f => (sgetD t.precCnt (16 * f + 7) 0, sgetD t.precCnt (16 * f + 8) 0)
@[simp] theorem Dev.foldl_servedCnt {α : Type} {f : Dev → α → Dev} (h : ∀ d x, (f d x).tile.servedCnt = d.tile.servedCnt) (l : List α) (d : Dev) : (l.foldl f d).tile.servedCnt = d.tile.servedCnt :=
  Machine.foldl_keeps (fun e => e.tile.servedCnt = d.tile.servedCnt) f (fun e x he => (h e x).trans he) l d rfl
@[simp] theorem Tile.setCensus_servedCnt (t : Tile) (x a) : (t.setCensus x a).servedCnt = t.servedCnt := rfl
@[simp] theorem Tile.passed_servedCnt (t : Tile) (n) : (t.passed n).servedCnt = t.servedCnt := rfl
variable (d : Dev)
@[simp] theorem Dev.exactFail_servedCnt (cause) : (d.exactFail cause).tile.servedCnt = d.tile.servedCnt := by
  simp only [Dev.exactFail]
  (repeat' split) <;> simp <;> rfl
@[simp] theorem Dev.exactDiscard_servedCnt (t) : (d.exactDiscard t).tile.servedCnt = d.tile.servedCnt := by
  simp only [Dev.exactDiscard]
  (repeat' split) <;> simp
@[simp] theorem Dev.discardStep_servedCnt (s cause) : (d.discardStep s cause).tile.servedCnt = d.tile.servedCnt := by simp [Dev.discardStep]
@[simp] theorem Dev.discardAll_servedCnt (cause) : (d.discardAll cause).tile.servedCnt = d.tile.servedCnt := by
  simp only [Dev.discardAll]
  (repeat' split) <;> simp
@[simp] theorem Dev.enterStruck_servedCnt : d.enterStruck.tile.servedCnt = d.tile.servedCnt := by simp [Dev.enterStruck]
@[simp] theorem Dev.beginDrain_servedCnt (seq) : (d.beginDrain seq).tile.servedCnt = d.tile.servedCnt := by
  simp only [Dev.beginDrain]
  (repeat' split) <;> simp
@[simp] theorem Dev.fatalHandling_servedCnt (seq code) : (d.fatalHandling seq code).tile.servedCnt = d.tile.servedCnt := by simp [Dev.fatalHandling]
@[simp] theorem Dev.raise_servedCnt (i) : (d.raise i).tile.servedCnt = d.tile.servedCnt := by
  simp only [Dev.raise]
  (repeat' split) <;> simp
@[simp] theorem Dev.discardTok_servedCnt (t cause) : (d.discardTok t cause).tile.servedCnt = d.tile.servedCnt := by
  simp only [Dev.discardTok]
  (repeat' split) <;> simp
@[simp] theorem Dev.contain_servedCnt (i touched cause) : (d.contain i touched cause).tile.servedCnt = d.tile.servedCnt := by simp [Dev.contain]
@[simp] theorem Dev.refuseWings_servedCnt (bank slot cue t) : (d.refuseWings bank slot cue t).tile.servedCnt = d.tile.servedCnt := by simp [Dev.refuseWings]
@[simp] theorem Dev.wingsWr_servedCnt (t a' bs slot cue) : (d.wingsWr t a' bs slot cue).tile.servedCnt = d.tile.servedCnt := by
  simp only [Dev.wingsWr]
  (repeat' split) <;> simp
@[simp] theorem Dev.precCount_servedCnt (tile) {n : Nat} (h : n < 16 ∧ n ≠ 7 ∧ n ≠ 8) : (d.precCount tile n).tile.servedCnt = d.tile.servedCnt := by
  funext f
  have hk {k : Nat} (hk : k ≠ 16 * (tile / 128) + n) : sgetD (smod d.tile.precCnt (16 * (tile / 128) + n) 0 bump) k 0 = sgetD d.tile.precCnt k 0 :=
    congrArg (Option.getD · 0) (sget_sput_ne _ _ hk)
  exact Prod.ext (hk (by omega)) (hk (by omega))
@[simp] theorem Dev.unserved_servedCnt (r) : (d.unserved r).tile.servedCnt = d.tile.servedCnt := by simp [Dev.unserved]
@[simp] theorem Dev.request_servedCnt (r) : (d.request r).tile.servedCnt = d.tile.servedCnt := by
  unfold Dev.request
  extract_lets f d₁ q put
  have hput (e : Dev) (q) : (put e q).tile.servedCnt = e.tile.servedCnt := rfl
  have h₁ : d₁.tile.servedCnt = d.tile.servedCnt := Dev.precCount_servedCnt d _ (by split <;> decide)
  clear_value put d₁
  split
  case isTrue => rw [hput, h₁]
  case isFalse d₂ _ =>
    have h₂ : d₂.tile.servedCnt = d.tile.servedCnt := (Dev.precCount_servedCnt _ _ (by decide)).trans h₁
    clear_value d₂
    (repeat' split) <;> simp [hput, h₂]
@[simp] theorem Dev.clamped_servedCnt (tile t) : (d.clamped tile t).tile.servedCnt = d.tile.servedCnt := by simp [Dev.clamped]
@[simp] theorem Dev.markReplay_servedCnt (t) : (d.markReplay t).tile.servedCnt = d.tile.servedCnt := by
  simp only [Dev.markReplay]
  (repeat' split) <;> simp <;> rfl
@[simp] theorem Dev.learnTrouble_servedCnt (tile t b m clip range) : (d.learnTrouble tile t b m clip range).tile.servedCnt = d.tile.servedCnt := by
  unfold Dev.learnTrouble
  extract_lets q e big up lowest d₁
  have hup (x : Dev) (r) : (up x r).tile.servedCnt = x.tile.servedCnt := Dev.markReplay_servedCnt _ _
  have h₁ : d₁.tile.servedCnt = d.tile.servedCnt := by
    simp only [d₁]
    (repeat' split) <;> simp [hup]
  clear_value up d₁
  (repeat' split) <;> simp [hup, h₁]
@[simp] theorem Dev.capture_servedCnt (a' key range ps) : (d.capture a' key range ps).tile.servedCnt = d.tile.servedCnt := rfl
@[simp] theorem Dev.evalTrouble_servedCnt (tok i b ps slot lane again) : (d.evalTrouble tok i b ps slot lane again).tile.servedCnt = d.tile.servedCnt := by
  simp only [Dev.evalTrouble]
  (repeat' split) <;> simp
@[simp] theorem Dev.modArr_servedCnt (a' f) : (d.modArr a' f).tile.servedCnt = d.tile.servedCnt := rfl
@[simp] theorem Dev.phase_servedCnt (a' range codes) : (d.phase a' range codes).1.tile.servedCnt = d.tile.servedCnt := rfl
@[simp] theorem Dev.measureOne_servedCnt (a') : (d.measureOne a').tile.servedCnt = d.tile.servedCnt := rfl
@[simp] theorem Dev.probeRun_servedCnt (a' b) : (d.probeRun a' b).1.tile.servedCnt = d.tile.servedCnt := rfl
@[simp] theorem Dev.histPermanent_servedCnt (kind unit) : (d.histPermanent kind unit).tile.servedCnt = d.tile.servedCnt := rfl
@[simp] theorem Dev.convert_servedCnt (a' range) (l) : ∀ d : Dev, (d.convert a' range l).1.tile.servedCnt = d.tile.servedCnt := by
  induction l with
  | nil => intro d; rfl
  | cons p t ih => intro d; simp [Dev.convert, ih]
@[simp] theorem Dev.keepRow_servedCnt (key slot) : (d.keepRow key slot).tile.servedCnt = d.tile.servedCnt := by
  unfold Dev.keepRow
  (repeat' split) <;> rfl
@[simp] theorem Dev.tagWrite_servedCnt (store keys cue) : (d.tagWrite store keys cue).tile.servedCnt = d.tile.servedCnt := by
  unfold Dev.tagWrite
  (repeat' split) <;> rfl
@[simp] theorem Dev.rowWr_servedCnt (tile row bs tag slot cue) : (d.rowWr tile row bs tag slot cue).tile.servedCnt = d.tile.servedCnt := by
  unfold Dev.rowWr
  rw [Dev.tagWrite_servedCnt]
  exact Dev.keepRow_servedCnt ..
@[simp] theorem Dev.vecWr_servedCnt (t l f bs slot cue) : (d.vecWr t l f bs slot cue).tile.servedCnt = d.tile.servedCnt := by
  unfold Dev.vecWr
  split
  · exact Dev.foldl_servedCnt (fun d x => by simp) _ d
  · simp
@[simp] theorem Dev.mergeOut_servedCnt (r o s slot) : (d.mergeOut r o s slot).tile.servedCnt = d.tile.servedCnt := by
  unfold Dev.mergeOut
  simp
  rfl
@[simp] theorem Dev.runFormat_servedCnt (r a') : (d.runFormat r a').1.tile.servedCnt = d.tile.servedCnt := by
  unfold Dev.runFormat
  dsimp only
  (repeat' split) <;> simp
@[simp] theorem Dev.runRange_servedCnt (r a') : (d.runRange r a').1.tile.servedCnt = d.tile.servedCnt := by simp [Dev.runRange]
end

end Sys2Proof.Machine
end

section
/-! PROOF. Trips and freezes: what a thermal trip stops (R439), what engaging or releasing a hold does (R467 to R470), and the pins
PERST_N, BYPASS_N and FREEZE_N past their filters (R484). -/
namespace Sys2Proof.Machine
variable {d : Dev}

/-! ## Thermal trip -/

theorem Dev.setSt_coreStopped (d : Dev) (st : DevState) :
    (d.setSt st).sys.coreStopped = d.sys.coreStopped ∧ (d.setSt st).sys.selfRefresh = d.sys.selfRefresh ∧
    (d.setSt st).sys.thermTripN = d.sys.thermTripN := by
  unfold Dev.setSt
  split <;> simp [Dev.settle]

/-- Settles O11, by the three states that tell the cases apart. -/
theorem thermalTripStopsTheCore : Obligations.ThermalTripStopsTheCore := by
  intro s diode fault t
  refine ⟨fun hoff htr hbl => ?_, fun htr => State.gives_onDev rfl ?_, fun hoff => State.gives_onDev rfl (if_pos hoff)⟩
  · have heq : thermalTrip diode fault t s.dev =
        ((((s.dev.at_ t).modThm fun m => m.trip diode.val fault t).modSys fun s => { s with thermTripN := true }).stopCore).setSt .tripped := by
      simp [thermalTrip, hoff, htr, hbl]
    refine ⟨_, State.gives_onDev rfl heq, ?_⟩
    simp [Dev.setSt_coreStopped, Dev.stopCore, Thm.trip, Dbg.held, Dbg.ownHeld, Dev.linkLoss]
    rfl
  · simp [thermalTrip, htr, Dev.at_, Dev.modThm]

/-! ## Holds applied -/

/-- What a hold does to a device, from b: it is held still where it can be stopped, STATE is FROZEN in PLAYING and CURTAIN alone. -/
structure HeldStill (b r : Dev) : Prop where
  held : r.dbg.held = true
  frozen : r.dbg.frozen = (b.dbg.frozen || b.stoppable)
  stops : b.sys.st = .playing ∨ b.sys.st = .curtain → r.sys.st = .frozen ∧ r.sys.frozenFrom = b.sys.st
  stays : b.sys.st ≠ .playing → b.sys.st ≠ .curtain → r.sys.st = b.sys.st
  unlocked : b.dbg.frozen = false → b.stoppable = true → r.frm.tickLock = false
  lanes : r.frm.lanes = b.frm.lanes
  mem : r.mem = b.mem
  tile : r.tile = b.tile

theorem Dev.stoppable_of_running {d : Dev} (h : d.sys.st = .playing ∨ d.sys.st = .curtain) : d.stoppable = true := by
  rcases h with h | h <;> simp [Dev.stoppable, h]

theorem Dev.setSt_frozenFrom (d : Dev) (st : DevState) : (d.setSt st).sys.frozenFrom = d.sys.frozenFrom := by
  unfold Dev.setSt
  split <;> simp [Dev.settle]

/-- A held device with the frozen bit set: STATE follows. -/
theorem Dev.applyHolds_of_frozen (hh : d.dbg.held = true) (hf : d.dbg.frozen = true) :
    d.applyHolds = if d.sys.st = .playing ∨ d.sys.st = .curtain then (d.modSys fun s => { s with frozenFrom := d.sys.st }).setSt .frozen else d := by
  simp [Dev.applyHolds, hh, hf]

theorem Dev.applyHolds_frm_of_frozen (hh : d.dbg.held = true) (hf : d.dbg.frozen = true) : d.applyHolds.frm = d.frm := by
  rw [Dev.applyHolds_of_frozen hh hf]
  split <;> simp

theorem Dev.applyHolds_of_stoppable (hh : d.dbg.held = true) (hf : d.dbg.frozen = false) (hs : d.stoppable = true) :
    d.applyHolds = ((d.modDbg fun b => { b with frozen := true, frozenAt := d.now, frozenCnt := bump b.frozenCnt }).modFrm
      fun f => { f with tickLock := false }).applyHolds := by
  have hh' : ∀ a c, ({ d.dbg with frozen := true, frozenAt := a, frozenCnt := c } : Dbg).held = true := fun _ _ => hh
  simp [Dev.applyHolds, hh, hf, hs, hh']

theorem Dev.applyHolds_of_unstoppable (hh : d.dbg.held = true) (hf : d.dbg.frozen = false) (hs : d.stoppable = false) :
    d.applyHolds = d := by simp [Dev.applyHolds, hh, hf, hs]

theorem Dev.heldStill_of_frozen (hh : d.dbg.held = true) (hf : d.dbg.frozen = true) : HeldStill d d.applyHolds := by
  rw [Dev.applyHolds_of_frozen hh hf]
  split
  next hst =>
    refine ⟨?_, ?_, fun _ => ⟨?_, ?_⟩, fun h₁ h₂ => ?_, fun h => ?_, ?_, ?_, ?_⟩
    · simpa using hh
    · simp [hf]
    · simp
    · simp [Dev.setSt_frozenFrom]
    · exact absurd hst (by simp [h₁, h₂])
    · simp [hf] at h
    all_goals simp
  next hst => exact ⟨hh, by simp [hf], fun h => absurd h hst, fun _ _ => rfl, fun h => by simp [hf] at h, rfl, rfl, rfl⟩

theorem Dev.applyHolds_heldStill (hh : d.dbg.held = true) : HeldStill d d.applyHolds := by
  cases hf : d.dbg.frozen with
  | true => exact Dev.heldStill_of_frozen hh hf
  | false =>
    cases hs : d.stoppable with
    | true =>
      rw [Dev.applyHolds_of_stoppable hh hf hs]
      obtain ⟨h1, h2, h3, h4, -, h6, h7, h8⟩ := @Dev.heldStill_of_frozen ((d.modDbg fun b =>
        { b with frozen := true, frozenAt := d.now, frozenCnt := bump b.frozenCnt }).modFrm fun f => { f with tickLock := false }) hh rfl
      refine ⟨h1, h2.trans (by simp [hs]), h3, h4, fun _ _ => ?_, h6, h7, h8⟩
      exact congrArg Frm.tickLock (Dev.applyHolds_frm_of_frozen (by exact hh) (by rfl))
    | false =>
      rw [Dev.applyHolds_of_unstoppable hh hf hs]
      refine ⟨hh, by simp [hf, hs], fun h => ?_, fun _ _ => rfl, fun _ h => by simp [hs] at h, rfl, rfl, rfl⟩
      simp [Dev.stoppable_of_running h] at hs

/-- What a device does whose last hold is gone, from b: it goes on in the state it left, and the open frame is later by the time it stood. -/
structure GoesOn (b r : Dev) : Prop where
  dbg : ∃ us, r.dbg = { b.dbg with frozen := false, frozenUs := us }
  st : b.dbg.frozen = true → r.sys.st = if b.sys.st = .frozen then b.sys.frozenFrom else b.sys.st
  stays : b.dbg.frozen = false → r = b
  later : b.dbg.frozen = true → b.frm.running = true → r.tile = { b.tile with modeReq := some 4 } ∧
    r.frm = { b.frm with start := b.frm.start + (b.now - b.dbg.frozenAt) }
  still : b.frm.running = false → r.tile = b.tile ∧ r.frm = b.frm

/-- The device once its frozen bit is clear and STATE back. -/
def Dev.thawed (d : Dev) : Dev :=
  let t := d.now - d.dbg.frozenAt
  let d := d.modDbg fun b => { b with frozen := false, frozenUs := (t / 1000) % 2 ^ 32 }
  if d.sys.st == .frozen then d.setSt d.sys.frozenFrom else d

theorem Dev.thawed_spec (d : Dev) : d.thawed.sys.st = (if d.sys.st = .frozen then d.sys.frozenFrom else d.sys.st) ∧
    d.thawed.tile = d.tile ∧ d.thawed.frm = d.frm ∧
    d.thawed.dbg = { d.dbg with frozen := false, frozenUs := ((d.now - d.dbg.frozenAt) / 1000) % 2 ^ 32 } := by
  by_cases h : d.sys.st = .frozen <;> simp [Dev.thawed, h]

theorem Dev.applyHolds_of_thaw (hh : d.dbg.held = false) (hf : d.dbg.frozen = true) :
    d.applyHolds = if d.frm.running then
      (d.thawed.modFrm fun f => { f with start := f.start + (d.now - d.dbg.frozenAt) }).modTile fun x => { x with modeReq := some 4 }
      else d.thawed := by
  rw [← d.thawed_spec.2.2.1]
  simp [Dev.applyHolds, hh, hf, Dev.thawed]

theorem Dev.applyHolds_goesOn (hh : d.dbg.held = false) : GoesOn d d.applyHolds := by
  cases hf : d.dbg.frozen with
  | false =>
    have he : d.applyHolds = d := by simp [Dev.applyHolds, hh, hf]
    rw [he]
    exact ⟨⟨d.dbg.frozenUs, by rw [← hf]⟩, by simp [hf], fun _ => rfl, by simp [hf], fun _ => ⟨rfl, rfl⟩⟩
  | true =>
    obtain ⟨hst, htile, hfrm, hdbg⟩ := d.thawed_spec
    rw [Dev.applyHolds_of_thaw hh hf]
    split
    next hr =>
      exact ⟨⟨_, hdbg⟩, fun _ => hst, by simp [hf], fun _ _ => ⟨by simp [htile], by simp [hfrm]⟩, by simp [hr]⟩
    next hr => exact ⟨⟨_, hdbg⟩, fun _ => hst, by simp [hf], fun _ h => absurd h hr, fun _ => ⟨htile, hfrm⟩⟩

/-! ## Engaging and releasing -/

/-- What engaging or releasing a hold keeps of d before the holds are applied: everything but the clock, the hold and its origin, and
what is sent. -/
structure HoldSet (d e : Dev) (b : Dbg) : Prop where
  sys : e.sys = d.sys
  err : e.err = d.err
  frm : e.frm = d.frm
  mem : e.mem = d.mem
  tile : e.tile = d.tile
  dbg : ∃ q c o n l, e.dbg = { b with ownSeq := q, cause := c, origin := o, seq := n, seen := l }

theorem Dev.engage_eq (d : Dev) (cause t : Nat) (set : Dbg → Dbg) : ∃ e, d.engage cause t set = e.applyHolds ∧ HoldSet d e (set d.dbg) := by
  cases h : d.dbg.ownHeld
  · simp only [Dev.engage, h]
    exact ⟨_, rfl, by simp, by simp, by simp, by simp, by simp, _, _, _, _, _, (Dev.flood_dbg _ _).trans rfl⟩
  · simp only [Dev.engage, h]
    exact ⟨_, rfl, by simp, by simp, by simp, by simp, by simp, _, _, _, _, _, rfl⟩

theorem Dev.release_eq (d : Dev) (t : Nat) (clr : Dbg → Dbg) : ∃ e, d.release t clr = e.applyHolds ∧ HoldSet d e (clr d.dbg) := by
  unfold Dev.release
  dsimp only
  split
  · exact ⟨_, rfl, by simp, by simp, by simp, by simp, by simp, _, _, _, _, _, (Dev.flood_dbg _ _).trans rfl⟩
  · exact ⟨_, rfl, by simp, by simp, by simp, by simp, by simp, _, _, _, _, _, rfl⟩

theorem HoldSet.stoppable_eq {d e : Dev} {b : Dbg} (h : HoldSet d e b) : e.stoppable = d.stoppable := by
  simp only [Dev.stoppable, h.sys, h.err]

/-- After a hold is engaged the device is held still. -/
theorem Dev.engage_spec (d : Dev) (cause t : Nat) {set : Dbg → Dbg} (hh : (set d.dbg).held = true) (hf : (set d.dbg).frozen = d.dbg.frozen) :
    HeldStill d (d.engage cause t set) := by
  obtain ⟨e, he, hs⟩ := d.engage_eq cause t set
  obtain ⟨q, c, o, n, l, hdbg⟩ := hs.dbg
  have hheld : e.dbg.held = true := by rw [hdbg]; exact hh
  have hfr : e.dbg.frozen = d.dbg.frozen := by rw [hdbg]; exact hf
  obtain ⟨h1, h2, h3, h4, h5, h6, h7, h8⟩ := Dev.applyHolds_heldStill hheld
  rw [he]
  rw [hs.sys] at h3 h4
  exact ⟨h1, by rw [h2, hfr, hs.stoppable_eq], h3, h4, by rwa [hfr, hs.stoppable_eq] at h5, h6.trans (congrArg _ hs.frm), h7.trans hs.mem, h8.trans hs.tile⟩

/-- The holds by their sources. -/
def Dbg.holds (b : Dbg) : Bool × Bool × Bool × Bool × List (Coord × Byte) := (b.holdPin, b.holdCmd, b.holdHazard, b.holdJtag, b.remote)

theorem Dbg.held_of_holds {b c : Dbg} (h : b.holds = c.holds) : b.held = c.held := by
  simp only [Dbg.holds, Prod.mk.injEq] at h
  obtain ⟨h1, h2, h3, h4, h5⟩ := h
  simp only [Dbg.held, Dbg.ownHeld, h1, h2, h3, h4, h5]

theorem Dev.applyHolds_holds (d : Dev) : d.applyHolds.dbg.holds = d.dbg.holds := by
  unfold Dev.applyHolds
  split_ifs <;> simp <;> rfl

theorem Dev.applyHolds_lanes (d : Dev) : d.applyHolds.frm.lanes = d.frm.lanes := by
  unfold Dev.applyHolds
  dsimp only
  (repeat' split) <;> simp

/-- What releasing a hold of d does: the holds are those that clr leaves, and with none left the device goes on. -/
structure Released (d r : Dev) (b : Dbg) : Prop where
  holds : r.dbg.holds = b.holds
  goes : r.dbg.held = false → r.dbg.frozen = false
  st : r.dbg.held = false → d.dbg.frozen = true → r.sys.st = if d.sys.st = .frozen then d.sys.frozenFrom else d.sys.st
  later : r.dbg.held = false → d.dbg.frozen = true → d.frm.running = true → r.tile.modeReq = some 4 ∧
    r.frm.start = d.frm.start + (r.now - d.dbg.frozenAt)
  still : r.dbg.held = false → d.frm.running = false → r.tile = d.tile ∧ r.frm = d.frm
  lanes : r.frm.lanes = d.frm.lanes
  mem : r.mem = d.mem
  pin : r.sys.freezeN = d.sys.freezeN

theorem Dev.applyHolds_freezeN (d : Dev) : d.applyHolds.sys.freezeN = d.sys.freezeN := by
  have hset (x : Dev) (st : DevState) : (x.setSt st).sys.freezeN = x.sys.freezeN := by
    unfold Dev.setSt
    split <;> simp [Dev.settle]
  unfold Dev.applyHolds
  dsimp only
  (repeat' split) <;> simp [hset]

theorem Dev.release_spec (d : Dev) (t : Nat) {clr : Dbg → Dbg} (hf : (clr d.dbg).frozen = d.dbg.frozen)
    (ha : (clr d.dbg).frozenAt = d.dbg.frozenAt) : Released d (d.release t clr) (clr d.dbg) := by
  obtain ⟨e, he, hs⟩ := d.release_eq t clr
  obtain ⟨q, c, o, n, l, hdbg⟩ := hs.dbg
  have hholds : e.dbg.holds = (clr d.dbg).holds := by rw [hdbg]; rfl
  have hfr : e.dbg.frozen = d.dbg.frozen := by rw [hdbg]; exact hf
  have hat : e.dbg.frozenAt = d.dbg.frozenAt := by rw [hdbg]; exact ha
  have goes (h : e.applyHolds.dbg.held = false) : GoesOn e e.applyHolds :=
    Dev.applyHolds_goesOn ((Dbg.held_of_holds e.applyHolds_holds).symm.trans h)
  rw [he]
  refine ⟨e.applyHolds_holds.trans hholds, fun h => ?_, fun h hz => ?_, fun h hz hr => ?_, fun h hr => ?_,
    e.applyHolds_lanes.trans (congrArg _ hs.frm), ?_, e.applyHolds_freezeN.trans (congrArg _ hs.sys)⟩
  · obtain ⟨us, hus⟩ := (goes h).dbg
    exact congrArg Dbg.frozen hus
  · rw [(goes h).st (hfr.trans hz), hs.sys]
  · obtain ⟨htile, hfrm⟩ := (goes h).later (hfr.trans hz) (by rw [hs.frm]; exact hr)
    refine ⟨congrArg Tile.modeReq htile, ?_⟩
    rw [hfrm, hat, hs.frm]
    simp
  · obtain ⟨htile, hfrm⟩ := (goes h).still (by rw [hs.frm]; exact hr)
    exact ⟨htile.trans hs.tile, hfrm.trans hs.frm⟩
  · rw [Dev.applyHolds_mem, hs.mem]

theorem Dbg.held_of_cmd {b : Dbg} (h : b.holdCmd = true) : b.held = true := by simp [Dbg.held, Dbg.ownHeld, h]
theorem Dbg.held_of_pin {b : Dbg} (h : b.holdPin = true) : b.held = true := by simp [Dbg.held, Dbg.ownHeld, h]

theorem Dev.engage_holds (d : Dev) (cause t : Nat) (set : Dbg → Dbg) : (d.engage cause t set).dbg.holds = (set d.dbg).holds := by
  obtain ⟨e, he, hs⟩ := d.engage_eq cause t set
  obtain ⟨q, c, o, n, l, hdbg⟩ := hs.dbg
  rw [he, Dev.applyHolds_holds, hdbg]
  rfl

theorem Dev.engage_freezeN (d : Dev) (cause t : Nat) (set : Dbg → Dbg) : (d.engage cause t set).sys.freezeN = d.sys.freezeN := by
  obtain ⟨e, he, hs⟩ := d.engage_eq cause t set
  rw [he, Dev.applyHolds_freezeN, hs.sys]

theorem freezeNRelease_eq {n : Nat} (t : Nat) (hn : 10000 ≤ n) (hoff : d.sys.st ≠ .off) (hf : d.sys.freezeN = true) (hp : d.dbg.holdPin = true) :
    freezeNRelease n t d = (d.modSys fun s => { s with freezeN := false }).release t fun b => { b with holdPin := false } := by
  have hn' : ¬n < 10000 := by omega
  simp [freezeNRelease, hoff, hn', hf, hp]

/-- Settles O16, by what engaging and releasing a hold do. -/
theorem freezeHoldsFollowTheirSources : Obligations.FreezeHoldsFollowTheirSources := by
  refine ⟨fun s t hup hl => ?_, fun s t hl => State.gives_onDev rfl ?_, fun s t hup => ?_, fun s n t hn hst hf hp hfr hc hz hj hr hff => ?_⟩
  · have heq : dbgFreeze t s.dev = s.dev.engage 2 t fun b => { b with holdCmd := true } := by simp [dbgFreeze, hup, hl]
    have hs := @Dev.engage_spec s.dev 2 t (fun b => { b with holdCmd := true }) (Dbg.held_of_cmd rfl) rfl
    exact ⟨_, State.gives_onDev rfl heq, congrArg (·.2.1) (s.dev.engage_holds 2 t fun b => { b with holdCmd := true }), hs.held, hs.frozen,
      hs.stops, hs.stays, hs.mem, hs.tile, hs.lanes⟩
  · have hl' : ¬2 ≤ s.dev.sec.level := by omega
    simp [dbgFreeze, hl']
  · have heq : dbgThaw t s.dev = s.dev.thaw t := if_pos hup
    obtain ⟨hholds, goes, st, later, still, lanes, mem, -⟩ :=
      @Dev.release_spec s.dev t (fun b => { b with holdCmd := false, holdHazard := false, holdJtag := false }) rfl rfl
    simp only [Dbg.holds, Prod.mk.injEq] at hholds
    obtain ⟨hpin, hcmd, hhaz, hjtag, hrem⟩ := hholds
    exact ⟨_, State.gives_onDev rfl heq, hcmd, hhaz, hjtag, hpin, hrem,
      fun hh => ⟨goes hh, fun hz => ⟨st hh hz, later hh hz, still hh⟩⟩, mem, lanes⟩
  · have heq := @freezeNRelease_eq s.dev n t hn (by simp [hst]) hf hp
    obtain ⟨hholds, -, st, -, -, -, mem, pin⟩ :=
      @Dev.release_spec (s.dev.modSys fun s => { s with freezeN := false }) t (fun b => { b with holdPin := false }) rfl rfl
    have hnot := (Dbg.held_of_holds hholds).trans (show _ = false by simp [Dbg.held, Dbg.ownHeld, hc, hz, hj, hr])
    exact ⟨_, State.gives_onDev rfl heq, pin, hnot, (st hnot hfr).trans (if_pos hst), mem⟩

/-! ## Pins past their filters -/

theorem bumpW_eight (n : Nat) : bumpW 8 n = min 255 (n + 1) := by
  unfold bumpW
  split <;> omega

/-- A record leaves the pins and STATE, the host's settings, and the calls but for the hold. -/
theorem Dev.record_rest (d : Dev) (i : ErrIn) (a : Nat) (n : Bool) : let r := d.record i a n
    (∃ w b, r.sys = { d.sys with switches := w, ibi := b }) ∧ (∃ h, r.call = { d.call with hold := h }) ∧ r.host.up = d.host.up := by
  have hite (c : Prop) [Decidable c] (x : Dev) (f : Call → Call) : (if c then x.modCall f else x).sys = x.sys ∧
      (if c then x.modCall f else x).host = x.host := by split <;> exact ⟨rfl, rfl⟩
  dsimp only
  refine ⟨?_, ?_, ?_⟩
  · simp only [Dev.record, Dev.ethSend_sys, Dev.settle, Dev.modSys_sys, Dev.event_sys, hite]
    exact ⟨_, _, rfl⟩
  · simp only [Dev.record, Dev.ethSend_call, Dev.settle_call, Dev.event_call]
    split
    · exact ⟨_, rfl⟩
    · exact ⟨d.call.hold, rfl⟩
  · simp only [Dev.record, Dev.ethSend_host, Dev.settle_host, (Dev.event_settings _ _).2.2.1, hite]
    rfl

/-- A corrected error is recorded, and nothing else. -/
theorem Dev.raise_corrected {i : ErrIn} (hi : i.cls = 0) :
    d.raise i = if d.sys.st = .blackout then d else d.record i 1 (d.inFatal || d.inDrain || d.inContain) := by
  simp [Dev.raise, hi]

/-- Everything but the error unit, the pins that follow it, the calls' hold, the host and what is sent stands when the link is lost. -/
theorem Dev.hostDown_spec (d : Dev) : let r := d.hostDown
    r = { d with err := r.err, sys := r.sys, host := r.host, call := r.call, out := r.out } ∧ r.host.up = false ∧
    r.sys.perst = d.sys.perst ∧ r.call.steps = d.call.steps := by
  unfold Dev.hostDown
  split
  next hu =>
    dsimp only
    rw [Dev.raise_corrected rfl]
    split
    · exact ⟨rfl, rfl, rfl, rfl⟩
    · obtain ⟨⟨w, b, hsys⟩, ⟨h, hcall⟩, hup⟩ := d.linkLoss.record_rest { code := 0x0902, cls := 0, kind := 14 } 1
        (d.linkLoss.inFatal || d.linkLoss.inDrain || d.linkLoss.inContain)
      refine ⟨?_, hup, by rw [hsys]; rfl, by rw [hcall]; rfl⟩
      rw [Dev.record_frame]
      rfl
  next hu => exact ⟨rfl, by simpa using hu, rfl, rfl⟩

/-- Settles O12, pin by pin. -/
theorem pinFiltersActAsTheTableGives : Obligations.PinFiltersActAsTheTableGives := by
  refine ⟨fun s a n hoff hn => ?_, fun s n hoff hn => State.gives_onDev rfl ?_, fun s n hn hp hr => ?_, fun s => State.gives_onDev rfl rfl,
    fun s n t hoff hr hn => State.gives_onDev rfl ?_, fun s n t hn hb hf => ?_, fun s n t hn hoff hf => ?_, fun s n t hn => State.gives_onDev rfl ?_⟩
  · have heq : bypassNChange a n s.dev = Dev.settle s.dev (s.dev.modSys fun s => { s with bypassN := a }) := by
      cases a <;> simp_all [bypassNChange]
    exact ⟨_, State.gives_onDev rfl heq, rfl, rfl, rfl, rfl, rfl, rfl, rfl⟩
  · simp [bypassNChange, hoff, hn, Dev.modSys, bumpW_eight]
  · have hn' : ¬n < 100 := by omega
    have heq : perstNAssert n s.dev = (s.dev.modSys fun s => { s with perst := true }).hostDown.cxlReset := by
      have hr' : (s.dev.modSys fun s => { s with perst := true }).inReset = false := hr
      simp [perstNAssert, hn', hp, hr']
    obtain ⟨hd, hup, hperst, hsteps⟩ := (s.dev.modSys fun s => { s with perst := true }).hostDown_spec
    refine ⟨_, State.gives_onDev rfl heq, hperst, hup, rfl, rfl, rfl, rfl, rfl, rfl, ?_, ?_, ?_, ?_, ?_, ?_, hsteps⟩ <;>
      simp only [Dev.cxlReset, Dev.modHost] <;> rw [hd] <;> rfl
  · simp [freezeNAssert, hoff, hn, hr, Dev.modSys, bumpW_eight]
  · have hn' : ¬n < 1000 := by omega
    have hoff : s.dev.sys.st ≠ .off := by
      rintro h
      simp [Dev.barOk, Dev.coreRuns, h] at hb
    have heq : freezeNAssert n t s.dev = (s.dev.modSys fun s => { s with freezeN := true }).engage 1 t fun b => { b with holdPin := true } := by
      have hb' : (s.dev.modSys fun s => { s with freezeN := true }).barOk = true := hb
      simp [freezeNAssert, hoff, hn', hf, hb']
    have hs := @Dev.engage_spec (s.dev.modSys fun s => { s with freezeN := true }) 1 t (fun b => { b with holdPin := true }) (Dbg.held_of_pin rfl) rfl
    exact ⟨_, State.gives_onDev rfl heq, Dev.engage_freezeN .., congrArg (·.1) (Dev.engage_holds ..), hs.held, hs.frozen,
      hs.stops, hs.stays, hs.unlocked, hs.lanes, hs.mem, hs.tile⟩
  · by_cases hp : s.dev.dbg.holdPin = true
    · have heq := @freezeNRelease_eq s.dev n t hn hoff hf hp
      obtain ⟨hholds, goes, st, -, -, lanes, mem, pin⟩ :=
        @Dev.release_spec (s.dev.modSys fun s => { s with freezeN := false }) t (fun b => { b with holdPin := false }) rfl rfl
      simp only [Dbg.holds, Prod.mk.injEq] at hholds
      obtain ⟨hpin, hcmd, hhaz, hjtag, hrem⟩ := hholds
      exact ⟨_, State.gives_onDev rfl heq, pin, hpin, hcmd, hhaz, hjtag, hrem, fun _ hh => ⟨goes hh, st hh⟩, mem, lanes⟩
    · have hn' : ¬n < 10000 := by omega
      have heq : freezeNRelease n t s.dev = s.dev.modSys fun s => { s with freezeN := false } := by simp [freezeNRelease, hoff, hn', hf, hp]
      exact ⟨_, State.gives_onDev rfl heq, rfl, by simpa using hp, rfl, rfl, rfl, rfl, fun h => absurd h hp, rfl, rfl⟩
  · simp [freezeNRelease, hn]

end Sys2Proof.Machine
end

section
/-! PROOF. The I3C target (R497) and the management Ethernet port (R378 to R380). -/
namespace Sys2Proof.Machine
variable {d : Dev}

theorem Dev.ethMaySend_spec (h : d.ethMaySend = true) : d.mesh.ethEn = true ∧ d.mesh.ethSpeed ≠ 0 ∧ d.sec.smRun = true ∧ 1 ≤ d.sec.level ∧
    d.sys.st ≠ .boot ∧ d.sys.st ≠ .darkHouse ∧ d.sys.st ≠ .tripped ∧ d.sys.st ≠ .blackout ∧ d.inReset = false := by
  simp [Dev.ethMaySend, Dev.up, Dev.coreRuns] at h
  tauto

theorem Dev.ethSend_of_maySend (h : d.ethMaySend = true) (bs : List Byte) : d.ethSend bs = { d with out := d.out ++ [.eth bs] } := by
  simp [Dev.ethSend, h, Dev.emit]

theorem Dev.ethSend_of_silent (h : d.ethMaySend = false) (bs : List Byte) : d.ethSend bs = d := by simp [Dev.ethSend, h]

@[simp] theorem length_macOf : macOf.length = 6 := by simp [macOf]

theorem take_icmpFrame (vlan : Nat) {m : List Byte} (hm : m.length = 6) (dst icmp : List Byte) :
    (icmpFrame vlan m dst icmp).take 6 = m ∧ slice (icmpFrame vlan m dst icmp) 6 6 = macOf := by
  simp [icmpFrame, slice, List.take_append, List.drop_append, hm]

/-- Only a frame with both addresses is answered. -/
theorem length_slice_of_ethertype {f : List Byte} {off : Nat} (ho : 12 ≤ off) (h : slice f off 2 = [0x86, 0xDD]) : (slice f 6 6).length = 6 := by
  have hl := congrArg List.length h
  simp only [slice, List.length_take, List.length_drop, List.length_cons, List.length_nil] at hl ⊢
  omega

theorem icmpAnswer_spec {v : Nat} {f r : List Byte} (h : icmpAnswer v f = some r) :
    r.take 6 = slice f 6 6 ∧ slice r 6 6 = macOf ∧ f.length ≤ 9216 := by
  simp only [icmpAnswer, Option.ite_none_left_eq_some] at h
  obtain ⟨hok, h⟩ := h
  simp only [Bool.or_eq_true, not_or, decide_eq_true_eq, bne_iff_ne, ne_eq, not_not, not_lt] at hok
  obtain ⟨⟨⟨⟨⟨⟨⟨hlen, -⟩, htype⟩, -⟩, -⟩, -⟩, -⟩, -⟩ := hok
  have hm : (slice f 6 6).length = 6 := length_slice_of_ethertype (by split <;> omega) htype
  rcases ite_eq_iff.mp h with ⟨-, h⟩ | ⟨-, h⟩
  · obtain rfl := Option.some.inj h
    exact ⟨(take_icmpFrame _ hm _ _).1, (take_icmpFrame _ hm _ _).2, hlen⟩
  · obtain rfl := Option.some.inj (Option.ite_none_right_eq_some.mp h).2
    exact ⟨(take_icmpFrame _ hm _ _).1, (take_icmpFrame _ hm _ _).2, hlen⟩

/-- A frame's answer is sent when the port may send. -/
theorem ethFrameReceive_eq (f : List Byte) (d : Dev) : ethFrameReceive f d = match icmpAnswer d.mesh.ethVlan.toNat f with
    | some r => if d.ethMaySend then { d with out := d.out ++ [.eth r] } else d
    | none => d := by
  cases ha : icmpAnswer d.mesh.ethVlan.toNat f with
  | none => simp only [ethFrameReceive, ha]
  | some r =>
    simp only [ethFrameReceive, ha]
    cases hs : d.ethMaySend
    · exact Dev.ethSend_of_silent hs _
    · exact Dev.ethSend_of_maySend hs _

/-- Settles O26, command by command. -/
theorem i3cReadsAndEthernetSends : Obligations.I3cReadsAndEthernetSends := by
  refine ⟨fun s hon => ⟨fun a => State.gives_onDev rfl ?_, fun o => State.gives_onDev rfl ?_, fun hn => State.gives_onDev rfl ?_, fun ha =>
    ⟨fun ho => State.gives_onDev rfl ?_, fun ho hl => State.gives_onDev rfl ?_, fun ho hl => State.gives_onDev rfl ?_⟩⟩,
    fun s v hc hv he => State.gives_onDev rfl ?_, fun s => State.gives_onDev rfl ?_, fun s v hv he => State.gives_onDev rfl ?_,
    fun s => ⟨fun hs => State.gives_onDev rfl ?_, fun hs => State.gives_onDev rfl ?_⟩, fun s => Dev.ethMaySend_spec,
    fun s f => State.gives_onDev rfl (ethFrameReceive_eq f s.dev), fun v f r => icmpAnswer_spec⟩
  · cases ha : s.dev.dbg.i3cAddr <;> simp [i3cEntdaa, hon, ha, Dev.modDbg, Dev.emit]
  · cases ha : s.dev.dbg.i3cAddr <;> simp [i3cOffsetWrite, hon, ha, Dev.modDbg]
  · simp [i3cPrivateRead, hon, hn]
  · have hn : s.dev.dbg.i3cAddr.isNone = false := by simpa using ha
    simp [i3cPrivateRead, hon, hn, ho, Dev.emit]
  · have hn : s.dev.dbg.i3cAddr.isNone = false := by simpa using ha
    have ho' : s.dev.dbg.i3cOff.toNat ≠ 0xFFFFFFF0 := fun h => ho (BitVec.eq_of_toNat_eq h)
    simp only [i3cPrivateRead, hon, hn, ho', hl]
    rfl
  · have hn : s.dev.dbg.i3cAddr.isNone = false := by simpa using ha
    have ho' : s.dev.dbg.i3cOff.toNat ≠ 0xFFFFFFF0 := by omega
    simp only [i3cPrivateRead, hon, hn, ho', Nat.mod_eq_of_lt ho, hl, ho]
    rfl
  · exact if_pos (by rw [hc, bne_iff_ne.mpr hv, he]; rfl)
  · simp [ethLinkChange]
  · exact if_neg (by rw [he, beq_eq_false_iff_ne.mpr hv]; simp)
  · have hs' : (s.dev.useFree 1).ethMaySend = true := hs
    rw [telemetrySend, if_pos hs, Dev.ethSend_of_maySend hs']
    rfl
  · simp [telemetrySend, hs]

end Sys2Proof.Machine
end

section
/-! PROOF. The JTAG port (R466, R467, R475): each instruction by the row of the matrix that allows it. -/
namespace Sys2Proof.Machine
variable {d : Dev}

theorem Dev.applyHolds_instr (d : Dev) : d.applyHolds.dbg.instr = d.dbg.instr := by
  unfold Dev.applyHolds
  dsimp only
  (repeat' split) <;> simp

theorem Dev.engage_instr (d : Dev) (cause t : Nat) {set : Dbg → Dbg} (h : (set d.dbg).instr = d.dbg.instr) :
    (d.engage cause t set).dbg.instr = d.dbg.instr := by
  obtain ⟨e, he, hs⟩ := d.engage_eq cause t set
  obtain ⟨q, c, o, n, l, hdbg⟩ := hs.dbg
  rw [he, Dev.applyHolds_instr, hdbg]
  exact h

theorem Dev.aonRuns_of (h : d.sys.st ≠ .off) : d.aonRuns = true := by simpa [Dev.aonRuns] using h

/-- What a refused instruction leaves (R466). -/
theorem Dev.refuse_eq (d : Dev) : d.refuse =
    { d with dbg := { d.dbg with instr := .bypass, denied := bump d.dbg.denied, deniedFlag := true }, out := d.out ++ [.tdo [false]] } := rfl

theorem Dev.allows_of_scanOk (h : d.scanOk = true) : d.sys.coreStopped = true ∧ (d.sys.st = .blackout → 3 ≤ d.dbg.keptLevel) ∧
    (d.sys.st ≠ .blackout → 3 ≤ d.sec.level) := by
  simp only [Dev.scanOk, Bool.and_eq_true] at h
  obtain ⟨⟨-, hstop⟩, hlevel⟩ := h
  refine ⟨hstop, fun hb => ?_, fun hb => ?_⟩
  · simpa [hb] using hlevel
  · simp only [hb, if_false, Dev.allows, Bool.and_eq_true, decide_eq_true_eq] at hlevel
    exact hlevel.2

/-- The kept word at a position, a free value beyond the last. -/
def Err.keptWord (e : Err) (p free : Nat) : Nat := match e.keptWords[p]? with | some n => n | none => (Config.freeWord free).toNat

theorem jtagKeptRead_open (hon : d.aonRuns = true) (hr : d.inReset = false) (hb : d.sys.st = .blackout) (hk : 1 ≤ d.dbg.keptLevel) :
    jtagKeptRead d = (((d.select .keptRead).useFree 1).modDbg fun b => { b with keptPos := b.keptPos + 1 }).emit
      (.tdo (bitsOf 32 (d.err.keptWord d.dbg.keptPos d.freeCtr))) := by
  have hn : (d.inReset || d.sys.st != .blackout || decide (d.dbg.keptLevel < 1)) = false := by
    simp [hr, hb]
    omega
  simp only [jtagKeptRead, hon, hn]
  rfl

theorem jtagKeptRead_shut (hon : d.aonRuns = true) (h : ¬(d.inReset = false ∧ d.sys.st = .blackout ∧ 1 ≤ d.dbg.keptLevel)) :
    jtagKeptRead d = { d with dbg := { d.dbg with instr := .bypass, denied := bump d.dbg.denied, deniedFlag := true }, out := d.out ++ [.tdo [false]] } := by
  have hn : (d.inReset || d.sys.st != .blackout || decide (d.dbg.keptLevel < 1)) = true := by
    by_contra hc
    simp only [Bool.not_eq_true, Bool.or_eq_false_iff, bne_eq_false_iff_eq, decide_eq_false_iff_not, not_lt] at hc
    exact h ⟨hc.1.1, hc.1.2, hc.2⟩
  simp only [jtagKeptRead, hon, hn]
  rfl

/-- Settles O24, instruction by instruction. -/
theorem jtagInstructionsObeyTheMatrix : Obligations.JtagInstructionsObeyTheMatrix := by
  intro s hoff
  have hon := Dev.aonRuns_of hoff
  refine ⟨State.gives_onDev rfl (if_pos hon), State.gives_onDev rfl (if_pos hon), State.gives_onDev rfl (if_pos hon), fun v => ?_, ?_,
    fun e t hl => State.gives_onDev rfl ?_, fun t hl => ?_, fun t hl => ?_, ?_, fun e t hl => State.gives_onDev rfl ?_, fun t hl => ?_,
    fun t hl => State.gives_onDev rfl ?_, fun bits hl => State.gives_onDev rfl ?_, fun bits hl => ?_, Dev.allows_of_scanOk⟩
  · exact ⟨_, State.gives_onDev rfl (if_pos hon), rfl, rfl, rfl⟩
  · split
    next h =>
      have heq : jtagExtest s.dev = s.dev.boundaryScan .extest s.dev.dbg.boundary := by
        have hm : (s.dev.sec.st == .manufacture || s.dev.sec.st == .vendorDebug) = true := by simpa using h.1
        simp [jtagExtest, hon, hm, h.2]
      exact ⟨_, State.gives_onDev rfl heq, rfl, rfl, rfl⟩
    next h =>
      refine State.gives_onDev rfl ?_
      have hm : ((s.dev.sec.st == .manufacture || s.dev.sec.st == .vendorDebug) && s.dev.sys.sysRst) = false := by
        simpa [or_imp, not_and] using h
      simp [jtagExtest, hon, hm, Dev.refuse_eq]
  · simp [jtagFreeze, hon, hl, Dev.refuse_eq]
  · have heq : jtagFreeze true t s.dev = ((s.dev.select .freeze).emit (.tdo [true])).engage 4 t fun b => { b with holdJtag := true } := by
      simp [jtagFreeze, hon, hl]
    have hs := @Dev.engage_spec ((s.dev.select .freeze).emit (.tdo [true])) 4 t (fun b => { b with holdJtag := true })
      (by simp [Dbg.held, Dbg.ownHeld]) rfl
    exact ⟨_, State.gives_onDev rfl heq, Dev.engage_instr _ _ _ rfl, congrArg (·.2.2.2.1) (Dev.engage_holds _ 4 t fun b => { b with holdJtag := true }),
      hs.held, hs.frozen, hs.stops, hs.stays, hs.mem, hs.tile⟩
  · have heq : jtagFreeze false t s.dev = ((s.dev.select .freeze).emit (.tdo [false])).thaw t := by simp [jtagFreeze, hon, hl]
    obtain ⟨hholds, -, -, -, -, -, mem, -⟩ := @Dev.release_spec ((s.dev.select .freeze).emit (.tdo [false])) t
      (fun b => { b with holdCmd := false, holdHazard := false, holdJtag := false }) rfl rfl
    simp only [Dbg.holds, Prod.mk.injEq] at hholds
    obtain ⟨hpin, hcmd, hhaz, hjtag, -⟩ := hholds
    exact ⟨_, State.gives_onDev rfl heq, hjtag, hcmd, hhaz, hpin, mem⟩
  · split
    next h =>
      obtain ⟨hr, hb, hk⟩ := h
      refine ⟨_, State.gives_onDev rfl (jtagKeptRead_open hon hr hb hk), rfl, fun w hw => ?_, rfl⟩
      simp [Err.keptWord, hw, Dev.select]
    next h => exact State.gives_onDev rfl (jtagKeptRead_shut hon h)
  · simp [jtagStop, hon, hl, Dev.refuse_eq]
  · have heq : jtagStop true t s.dev = (((s.dev.select .stop).emit (.tdo [true])).engage 4 t fun b => { b with holdJtag := true }).modSys
        fun s => { s with coreStopped := true } := by simp [jtagStop, hon, hl]
    exact ⟨_, State.gives_onDev rfl heq, rfl, congrArg (·.2.2.2.1) (Dev.engage_holds ((s.dev.select .stop).emit (.tdo [true])) 4 t fun b => { b with holdJtag := true }),
      by simp [Dev.select]⟩
  · simp [jtagStop, hon, hl, Dev.select, Dev.modDbg, Dev.emit]
  · simp [jtagScan, hon, hl, Dev.refuse_eq]
  · have heq : jtagScan bits s.dev = (((s.dev.select .scan).useFree 1).modDbg fun b => { b with scanReg := bits }).emit
        (.tdo ((List.range bits.length).map fun i => Config.scanOut s.dev.freeCtr i)) := by simp [jtagScan, hon, hl]
    exact ⟨_, State.gives_onDev rfl heq, rfl, ⟨_, rfl, by simp⟩, rfl⟩

/-! ## DBG_ACCESS -/

section
variable {s : State} {r : DbgReq}

/-- An access that finds data, status and the device gives them back in the 77-bit register. -/
theorem dbgAccess_gives {z : Dev × Nat × Nat} (hoff : s.dev.sys.st ≠ .off) (h : s.dev.dbgAccess r = z) :
    Gives (.jtagDbgAccess r) s ((z.1.select .dbgAccess).emit
      (.tdo (bitsOf 77 (r.addr.toNat + 2 ^ 38 * r.space.toNat + 2 ^ 42 * z.2.1 + 2 ^ 74 * b2n r.write + 2 ^ 75 * z.2.2)))) := by
  refine State.gives_onDev rfl ?_
  simp only [jtagDbgAccess, Dev.aonRuns_of hoff, h]
  rfl

variable {d : Dev} {r : DbgReq}

theorem Dev.dbgAccess_other (h : 2 < r.space.toNat) : d.dbgAccess r = (d.deny, 0, 1) := by
  simp only [Dev.dbgAccess]
  split <;> simp_all

/-- Writes are to registers only. -/
theorem Dev.dbgAccess_write (hw : r.write = true) (hs : r.space ≠ 0) : d.dbgAccess r = (d.deny, 0, 1) := by
  simp only [Dev.dbgAccess, hw, Bool.not_true, Bool.false_and]
  split
  next h => exact absurd (BitVec.eq_of_toNat_eq h) hs
  · rfl
  · split <;> rfl
  · rfl

theorem Dev.dbgAccess_register (hs : r.space = 0) : d.dbgAccess r =
    if r.write then if d.allows 3 then (d.regWrite (r.addr.toNat % 2 ^ 25) r.data, r.data.toNat, 0) else (d.deny, 0, 1)
    else if d.allows (readLevel (r.addr.toNat % 2 ^ 25)) then
      ((d.pathRead 1 (r.addr.toNat % 2 ^ 25)).1, (d.pathRead 1 (r.addr.toNat % 2 ^ 25)).2.toNat, 0)
    else (d.deny, 0, 1) := by
  rw [Dev.dbgAccess, hs]
  rfl

theorem Dev.dbgAccess_memory (hs : r.space = 1) : d.dbgAccess r =
    if !r.write && d.allows (if nonTenant r.addr.toNat then 2 else 3) && d.memQuiet && decide (r.addr.toNat + 4 ≤ hbmEnd) then
      (d.useFree 4, (d.devWord r.addr.toNat).1, if (d.devWord r.addr.toNat).2 then 2 else 0)
    else (d.deny, 0, 1) := by
  rw [Dev.dbgAccess, hs]
  rfl

theorem Dev.dbgAccess_sram (hs : r.space = 2) {l w : Nat}
    (h : d.sramWord (r.addr.toNat / 2 ^ 35) (r.addr.toNat / 2 ^ 22 % 2 ^ 13) (r.addr.toNat % 2 ^ 22) = some (l, w)) :
    d.dbgAccess r = if !r.write && d.allows l && d.memQuiet then (d, w, 0) else (d.deny, 0, 1) := by
  simp only [Dev.dbgAccess, hs, h]
  rfl

/-- What an access that writes no register leaves as it is. -/
def Dev.Undisturbed (d e : Dev) : Prop :=
  e.mem = d.mem ∧ e.scr = d.scr ∧ e.tile = d.tile ∧ e.call = d.call ∧ e.kv = d.kv ∧ e.frm = d.frm ∧ e.sec = d.sec ∧ e.err = d.err

theorem Dev.undisturbed_ite {c : Prop} [Decidable c] {a b : Dev × Nat × Nat} (ha : d.Undisturbed a.1) (hb : d.Undisturbed b.1) :
    d.Undisturbed (if c then a else b).1 := by split <;> assumption

theorem Dev.dbgAccess_undisturbed (h : r.write = false ∨ r.space ≠ 0 ∨ d.allows 3 = false) : d.Undisturbed (d.dbgAccess r).1 := by
  have hdeny : d.Undisturbed d.deny := ⟨rfl, rfl, rfl, rfl, rfl, rfl, rfl, rfl⟩
  have hsame : d.Undisturbed d := ⟨rfl, rfl, rfl, rfl, rfl, rfl, rfl, rfl⟩
  have hread : d.Undisturbed (d.pathRead 1 (r.addr.toNat % 2 ^ 25)).1 := by simp [Dev.Undisturbed]
  by_cases hs : r.space = 0
  · rw [Dev.dbgAccess_register hs]
    cases hw : r.write with
    | true =>
      have ha : d.allows 3 = false := by simpa [hw, hs] using h
      rwa [if_pos rfl, if_neg (by simp [ha])]
    | false =>
      rw [if_neg Bool.false_ne_true]
      exact Dev.undisturbed_ite hread hdeny
  by_cases h1 : r.space = 1
  · rw [Dev.dbgAccess_memory h1]
    exact Dev.undisturbed_ite hsame hdeny
  simp only [Dev.dbgAccess]
  split
  next h0 => exact absurd (BitVec.eq_of_toNat_eq h0) hs
  next h0 => exact absurd (BitVec.eq_of_toNat_eq h0) h1
  · split
    · exact Dev.undisturbed_ite hsame hdeny
    · exact hdeny
  · exact hdeny

/-- A word of device memory with a layout, outside uncorrectable codewords, reads its bytes. -/
theorem Dev.devWord_plain {a : Nat} (hf : regionOf a ≠ .firmware) (hc : regionOf a ≠ .census) (hb : d.mem.isBad a 4 = false) :
    d.devWord a = (leNat (d.hbmRd a 4), false) := by
  simp only [Dev.devWord, hb]
  split <;> simp_all
end

/-- Settles O25, space by space. -/
theorem debugAccessReadsWhatItsLevelAllows : Obligations.DebugAccessReadsWhatItsLevelAllows := by
  intro s r hoff back denied
  have gives_denied (h : s.dev.dbgAccess r = (s.dev.deny, 0, 1)) : denied := dbgAccess_gives hoff h
  refine ⟨fun h => ⟨_, dbgAccess_gives hoff rfl, ?_⟩, fun h => gives_denied (Dev.dbgAccess_other h), fun hw hs => gives_denied (Dev.dbgAccess_write hw hs),
    fun hs hw ha => gives_denied ?_, fun hs hw ha => ?_, fun hs hw ha => gives_denied ?_, fun hs hw ha => ?_, fun hs hw ha hq hin hf hc hb => ?_,
    fun hs h => gives_denied ?_, fun l w hs hw hword => ?_⟩
  · exact Dev.dbgAccess_undisturbed h
  · rw [Dev.dbgAccess_register hs, hw, ha]; rfl
  · exact dbgAccess_gives hoff ((Dev.dbgAccess_register hs).trans (by rw [hw, ha]))
  · rw [Dev.dbgAccess_register hs, hw, ha]; rfl
  · exact dbgAccess_gives hoff ((Dev.dbgAccess_register hs).trans (by rw [hw, ha]))
  · refine ⟨_, dbgAccess_gives hoff ((Dev.dbgAccess_memory hs).trans (if_pos (by simp [hw, ha, hq, hin]))), ?_, rfl⟩
    rw [Dev.devWord_plain hf hc hb]
    simp only [Dev.select, Dev.emit_out, Dev.modDbg_out, Dev.useFree_out, back, Bool.false_eq_true, if_false]
  · rw [Dev.dbgAccess_memory hs, if_neg]
    rcases h with h | h <;> simp [h]
  · split
    next h => exact dbgAccess_gives hoff ((Dev.dbgAccess_sram hs hword).trans (if_pos (by simp [hw, h.1, h.2])))
    next h => exact gives_denied ((Dev.dbgAccess_sram hs hword).trans (if_neg (by simpa [hw] using h)))

end Sys2Proof.Machine
end

section
/-! PROOF. Fatal sources (R412 to R418): the record, the first one's handling, and a second one's way to BLACKOUT. -/
namespace Sys2Proof.Machine
variable {d : Dev}

/-! ## What fatal handling keeps -/

/-- The fatal and drain marks of the error unit with its snapshot, its sequence number and WORST. -/
def Err.fatalMarks (e : Err) : Option (Nat × Nat) × Option Nat × List Word × Nat × Nat := (e.fatal, e.drain, e.snapshot, e.nextSeq, e.worst)

theorem Err.count_fatalMarks (e : Err) (n : Nat) : (e.count n).fatalMarks = e.fatalMarks := rfl

theorem Dev.discardStep_marks (d : Dev) (s c : Nat) : (d.discardStep s c).err.fatalMarks = d.err.fatalMarks := by
  unfold Dev.discardStep
  dsimp only
  split
  · rw [Dev.modErr_err, Err.count_fatalMarks, Dev.exactDiscard_err]
    rfl
  · exact congrArg Err.fatalMarks (Dev.exactDiscard_err _ _)

theorem Dev.discardStep_cues (d : Dev) (s c : Nat) : (d.discardStep s c).frm.outst = d.frm.outst ∧ (d.discardStep s c).frm.stall = d.frm.stall := by
  unfold Dev.discardStep
  dsimp only
  split <;> simp [Frm.emptyLanes]

theorem Dev.exactFail_holds (d : Dev) (c : Nat) : (d.exactFail c).err = d.err ∧ (d.exactFail c).frm = d.frm := by
  rw [Dev.exactFail_frame]
  exact ⟨rfl, rfl⟩

/-- Discarding all that is in flight empties the lanes and stands off the error unit's marks and what cues are outstanding. -/
theorem Dev.discardAll_spec (d : Dev) (c : Nat) : let r := d.discardAll c
    r.frm.lanes = [] ∧ r.frm.outst = d.frm.outst ∧ r.frm.stall = d.frm.stall ∧ r.err.fatalMarks = d.err.fatalMarks := by
  obtain ⟨ho, hs, hm⟩ := Machine.foldl_keeps (fun x : Dev => x.frm.outst = d.frm.outst ∧ x.frm.stall = d.frm.stall ∧ x.err.fatalMarks = d.err.fatalMarks)
    (fun d (s : Step) => d.discardStep s.session c) (fun x s ⟨h1, h2, h3⟩ => ⟨((x.discardStep_cues _ _).1).trans h1,
      ((x.discardStep_cues _ _).2).trans h2, (x.discardStep_marks _ _).trans h3⟩) d.call.steps d ⟨rfl, rfl, rfl⟩
  unfold Dev.discardAll
  dsimp only
  split
  · obtain ⟨he, hf⟩ := Dev.exactFail_holds (d.call.steps.foldl (fun d s => d.discardStep s.session c) d) 3
    exact ⟨rfl, (congrArg Frm.outst hf).trans ho, (congrArg Frm.stall hf).trans hs, (congrArg Err.fatalMarks he).trans hm⟩
  · exact ⟨rfl, ho, hs, hm⟩

theorem Dev.enterStruck_spec (d : Dev) : let r := d.enterStruck
    r.sys.st = .struck ∧ r.frm.lanes = [] ∧ r.frm.outst = d.frm.outst ∧ r.frm.stall = d.frm.stall ∧ r.err.fatalMarks = d.err.fatalMarks := by
  obtain ⟨hl, ho, hs, hm⟩ := d.discardAll_spec 4
  unfold Dev.enterStruck
  dsimp only
  split
  · simp [Dev.finishDrain, Dev.commitHistory, hl, ho, hs]
    exact hm
  · simp [hl, ho, hs]
    exact hm

/-- The device with the fatal error marked, cues stopped and none outstanding. -/
def Dev.fatalMarked (d : Dev) (seq code : Nat) : Dev :=
  ((d.modErr fun e =>
    { e with fatal := some (seq, d.now), drain := some seq, drained := false,
             snapshot := [BitVec.ofNat 32 d.sys.st.code, BitVec.ofNat 32 d.frm.frame, BitVec.ofNat 32 (d.frm.frame / 2 ^ 32),
               BitVec.ofNat 32 d.frm.lanes.length],
             noSwapOut := e.noSwapOut || code == 0x0F04 || code == 0x0F05 }).modDbg fun b => { b with frozen := false }).modFrm
    fun f => { f with outst := [], stall := none }

/-- Fatal handling: the marks, then STRUCK, and the drain done at once where nothing may be swapped out (R412, R413). -/
theorem Dev.fatalHandling_eq (d : Dev) (seq code : Nat) : ∃ f : Err → Err, (∀ e, (f e).fatalMarks = e.fatalMarks) ∧
    d.fatalHandling seq code = (d.fatalMarked seq code).enterStruck.modErr f := by
  change ∃ f : Err → Err, _ ∧ (if (d.fatalMarked seq code).enterStruck.err.noSwapOut && !(d.fatalMarked seq code).enterStruck.err.drained
    then (d.fatalMarked seq code).enterStruck.finishDrain else (d.fatalMarked seq code).enterStruck) = _
  split
  · exact ⟨fun e => { e with drained := true, struck := true, commits := bumpW 24 e.commits, histSaved := e.hist, locsSaved := e.locs },
      fun e => rfl, rfl⟩
  · exact ⟨id, fun e => rfl, rfl⟩

theorem Dev.fatalHandling_spec (d : Dev) (seq code : Nat) : let r := d.fatalHandling seq code
    r.sys.st = .struck ∧ r.frm.lanes = [] ∧ r.frm.outst = [] ∧ r.frm.stall = none ∧ r.err.fatal = some (seq, d.now) ∧ r.err.drain = some seq ∧
    r.err.snapshot.length = 4 ∧ r.err.nextSeq = d.err.nextSeq ∧ r.err.worst = d.err.worst ∧ r.mem = d.mem := by
  obtain ⟨f, hf, heq⟩ := d.fatalHandling_eq seq code
  obtain ⟨hst, hl, ho, hs, hm⟩ := (d.fatalMarked seq code).enterStruck_spec
  have hmarks := (hf (d.fatalMarked seq code).enterStruck.err).trans hm
  simp only [Err.fatalMarks, Prod.mk.injEq] at hmarks
  obtain ⟨hfa, hd, hsnap, hn, hw⟩ := hmarks
  dsimp only
  rw [heq]
  exact ⟨hst, hl, ho, hs, hfa, hd, congrArg List.length hsnap, hn, hw, (Dev.enterStruck_mem _).trans rfl⟩

/-- BLACKOUT (R414): the core stands, and the board's rails may go. -/
theorem Dev.blackout_spec (h : d.sys.st ≠ .blackout) : let r := d.blackout
    r.sys.st = .blackout ∧ r.sys.coreStopped = true ∧ r.sys.selfRefresh = 0xF ∧ r.sys.switches = true ∧ r.frm.isOpen = false ∧
    r.err = d.err ∧ r.dbg.keptLevel = d.sec.level ∧ r.mem = d.mem := by
  have hset (x : Dev) (hx : x.sys.st ≠ .blackout) : (x.setSt .blackout).sys.switches = true := by
    simp [Dev.setSt, hx, Dev.settle, Dev.switchesClosed]
  refine ⟨Dev.setSt_st .., ?_, ?_, hset _ h, ?_, ?_, ?_, ?_⟩ <;> simp [Dev.blackout, Dev.setSt_coreStopped]

/-! ## The source -/

theorem Dev.record_worst (d : Dev) (i : ErrIn) (a : Nat) (n : Bool) : i.cls ≤ (d.record i a n).err.worst := by
  rw [Dev.record_err]
  exact Nat.le_max_right _ _

/-- What a fatal error does: the first one is handled, one during handling leads to BLACKOUT. -/
structure Fatal (d r : Dev) : Prop where
  first : d.inFatal = false → r.sys.st = .struck ∧ r.frm.lanes = [] ∧ r.frm.outst = [] ∧ r.frm.stall = none ∧ r.linkCues = false ∧
    r.err.drain = some d.err.nextSeq ∧ r.err.fatal = some (d.err.nextSeq, d.now) ∧ r.err.snapshot.length = 4 ∧ 3 ≤ r.err.worst ∧
    r.err.nextSeq = d.err.nextSeq + 1 ∧ r.mem = d.mem
  second : d.inFatal = true → r.sys.st = .blackout ∧ r.sys.coreStopped = true ∧ r.sys.selfRefresh = 0xF ∧ r.sys.switches = true ∧
    r.frm.isOpen = false ∧ r.err.nextSeq = d.err.nextSeq + 1 ∧ r.dbg.keptLevel = d.sec.level ∧ r.mem = d.mem

theorem Dev.raise_fatal {i : ErrIn} (hi : i.cls = 3) (hb : d.sys.st ≠ .blackout) (hd : d.sys.st ≠ .darkHouse) : Fatal d (d.raise i) := by
  refine ⟨fun hf => ?_, fun hf => ?_⟩
  · have heq : d.raise i = (d.record i 5 (d.inDrain || d.inContain)).fatalHandling d.err.nextSeq i.code := by
      simp [Dev.raise, hb, hd, hf, hi]
    obtain ⟨hst, hl, ho, hs, hfa, hdr, hsn, hq, hw, hm⟩ := (d.record i 5 (d.inDrain || d.inContain)).fatalHandling_spec d.err.nextSeq i.code
    have hnow : (d.record i 5 (d.inDrain || d.inContain)).now = d.now := by rw [Dev.record_frame]
    rw [heq]
    refine ⟨hst, hl, ho, hs, ?_, hdr, hfa.trans (by rw [hnow]), hsn, ?_, hq.trans (Dev.record_nextSeq ..), hm.trans (Dev.record_mem ..)⟩
    · simp [Dev.linkCues, Dev.receives, hfa]
    · rw [hw, ← hi]
      exact Dev.record_worst ..
  · have heq : d.raise i = (d.record i 6 true).blackout := by simp [Dev.raise, hb, hd, hf, hi]
    obtain ⟨hst, hc, hr, hs, ho, he, hk, hm⟩ := @Dev.blackout_spec (d.record i 6 true) (by rwa [Dev.record_st])
    rw [heq]
    exact ⟨hst, hc, hr, hs, ho, (congrArg _ he).trans (Dev.record_nextSeq ..), hk.trans (by rw [Dev.record_frame]), hm.trans (Dev.record_mem ..)⟩

theorem Dev.fatalSource_fatal {on : Bool} (hr : d.coreRuns = true) (hon : on = true) (hd : d.sys.st ≠ .darkHouse) (code kind w) :
    Fatal d (d.fatalSource on code kind w) := by
  have hb : d.sys.st ≠ .blackout := by
    intro h
    simp [Dev.coreRuns, h] at hr
  rw [Dev.fatalSource, if_pos (by rw [hr, hon]; rfl)]
  exact Dev.raise_fatal rfl hb hd

/-- A command whose device is that of a fatal error completes as the statement says. -/
theorem Fatal.gives {s : State} {c : Instr} {r : Dev} (hc : Gives c s r) (hf : Fatal s.dev r) :
    (s.dev.inFatal = false → GivesWith c s fun d =>
      d.sys.st = .struck ∧ d.frm.lanes = [] ∧ d.frm.outst = [] ∧ d.frm.stall = none ∧ d.linkCues = false ∧ d.err.drain = some s.dev.err.nextSeq ∧
      d.err.fatal = some (s.dev.err.nextSeq, s.dev.now) ∧ d.err.snapshot.length = 4 ∧ 3 ≤ d.err.worst ∧
      d.err.nextSeq = s.dev.err.nextSeq + 1 ∧ d.mem = s.dev.mem) ∧
    (s.dev.inFatal = true → GivesWith c s fun d =>
      d.sys.st = .blackout ∧ d.sys.coreStopped = true ∧ d.sys.selfRefresh = 0xF ∧ d.sys.switches = true ∧ d.frm.isOpen = false ∧
      d.err.nextSeq = s.dev.err.nextSeq + 1 ∧ d.dbg.keptLevel = s.dev.sec.level ∧ d.mem = s.dev.mem) :=
  ⟨fun hz => ⟨r, hc, hf.first hz⟩, fun hz => ⟨r, hc, hf.second hz⟩⟩

/-- Settles O10: each source is the fatal error of its unit. -/
theorem fatalSourcesStrikeOrBlackOut : Obligations.FatalSourcesStrikeOrBlackOut := by
  intro s c w bo hr hd h
  have hup (hb : s.dev.sys.st ≠ .boot) : s.dev.up = true := by simp [Dev.up, hr, hb, hd]
  rcases h with rfl | rfl | rfl | ⟨rfl, hon⟩ | ⟨rfl, hon⟩ | ⟨rfl, hb⟩ | ⟨rfl, hb⟩
  · exact Fatal.gives (State.gives_onDev rfl rfl) (Dev.fatalSource_fatal hr rfl hd _ _ _)
  · exact Fatal.gives (State.gives_onDev rfl rfl) (Dev.fatalSource_fatal hr rfl hd _ _ _)
  · exact Fatal.gives (State.gives_onDev rfl rfl) (Dev.fatalSource_fatal hr rfl hd _ _ _)
  · exact Fatal.gives (State.gives_onDev rfl rfl) (Dev.fatalSource_fatal hr hon hd _ _ _)
  · exact Fatal.gives (State.gives_onDev rfl rfl) (Dev.fatalSource_fatal hr (by rcases hon with h | h <;> simp [h]) hd _ _ _)
  · exact Fatal.gives (State.gives_onDev rfl rfl) (Dev.fatalSource_fatal hr (hup hb) hd _ _ _)
  · exact Fatal.gives (State.gives_onDev rfl rfl) (Dev.fatalSource_fatal hr (hup hb) hd _ _ _)

end Sys2Proof.Machine
end

section
/-! PROOF. Where a start-up ends (R449, R450): in READY, STRUCK or DARK_HOUSE, with nothing in flight. -/
namespace Sys2Proof.Machine
variable {d : Dev} {c : Word}

/-! ## The device during start-up -/

/-- Nothing is loaded, open or in flight, the level is D0 and the boot count is c. -/
structure Idle (c : Word) (d : Dev) : Prop where
  level : d.sec.level = 0
  script : d.scr.script = none
  still : d.frm.running = false
  steps : d.call.steps = []
  boots : d.sec.bootCount = c

/-- An idle device in BOOT without a fatal error. -/
structure Booting (c : Word) (d : Dev) : Prop extends Idle c d where
  st : d.sys.st = .boot
  fatal : d.err.fatal = none

theorem Err.pushRing_fatal (e : Err) (r : ErrRec) : (e.pushRing r).fatal = e.fatal := by
  simp only [Err.pushRing]
  (repeat' split) <;> rfl

theorem Err.pushStack_fatal (e : Err) (r : ErrRec) : (e.pushStack r).fatal = e.fatal := by
  simp only [Err.pushStack]
  (repeat' split) <;> rfl

theorem Dev.record_fatal (d : Dev) (i : ErrIn) (a : Nat) (n : Bool) : (d.record i a n).err.fatal = d.err.fatal := by
  rw [Dev.record_err]
  exact (Err.pushRing_fatal _ _).trans (Err.pushStack_fatal _ _)

theorem Idle.record (h : Idle c d) (i : ErrIn) (a : Nat) (n : Bool) : Idle c (d.record i a n) := by
  obtain ⟨-, ⟨hold, hcall⟩, -⟩ := d.record_rest i a n
  have hsec : (d.record i a n).sec = d.sec := by rw [Dev.record_frame]
  have hscr : (d.record i a n).scr = d.scr := by rw [Dev.record_frame]
  have hfrm : (d.record i a n).frm = d.frm := by rw [Dev.record_frame]
  exact ⟨by rw [hsec, h.level], by rw [hscr, h.script], by rw [hfrm, h.still], by rw [hcall, ← h.steps], by rw [hsec, h.boots]⟩

theorem Booting.record (h : Booting c d) (i : ErrIn) (a : Nat) (n : Bool) : Booting c (d.record i a n) :=
  ⟨h.toIdle.record i a n, (d.record_st i a n).trans h.st, (d.record_fatal i a n).trans h.fatal⟩

theorem Booting.modErr (h : Booting c d) {f : Err → Err} (hf : (f d.err).fatal = d.err.fatal) : Booting c (d.modErr f) :=
  ⟨⟨h.level, h.script, h.still, h.steps, h.boots⟩, h.st, hf.trans h.fatal⟩

theorem Booting.beginDrain (h : Booting c d) (seq : Nat) : Booting c (d.beginDrain seq) := by
  have heq : d.beginDrain seq = d.modErr fun e => { e with drain := some seq, drained := false } := by
    simp [Dev.beginDrain, h.still, h.st]
  rw [heq]
  exact h.modErr rfl

/-- No error but a fatal one ends the start-up. -/
theorem Booting.raise (h : Booting c d) {i : ErrIn} (hi : i.cls = 0 ∨ i.cls = 2) : Booting c (d.raise i) := by
  unfold Dev.raise
  split
  · exact h
  · rcases hi with hi | hi
    · simp only [hi]
      exact h.record ..
    · simp only [hi]
      split
      · exact (h.record ..).modErr rfl
      · split
        · exact h.record ..
        · exact (h.record ..).beginDrain _

/-! ## The converter's set point -/

theorem Booting.of_blocks {e : Dev} (h : Booting c d) (hsys : e.sys = d.sys) (herr : e.err = d.err) (hsec : e.sec = d.sec) (hscr : e.scr = d.scr)
    (hfrm : e.frm = d.frm) (hcall : e.call = d.call) : Booting c e :=
  ⟨⟨by rw [hsec, h.level], by rw [hscr, h.script], by rw [hfrm, h.still], by rw [hcall, h.steps], by rw [hsec, h.boots]⟩, by rw [hsys, h.st],
    by rw [herr, h.fatal]⟩

theorem Booting.calError (h : Booting c d) {n : Nat} (hn : n = 0 ∨ n = 2) : Booting c (d.calError n) :=
  Booting.of_blocks (h.raise hn) rfl rfl rfl rfl rfl rfl

theorem Booting.histEvent (h : Booting c d) (kind unit score threshold : Nat) : Booting c (d.histEvent kind unit score threshold).1 := by
  unfold Dev.histEvent
  dsimp only
  split
  · exact (h.modErr (by rfl)).modErr (by rfl)
  · exact h.modErr (by rfl)

theorem Booting.calWrite (h : Booting c d) {f : Dev → Dev} (hf : ∀ x, Booting c x → Booting c (f x)) : Booting c (d.calWrite f).1 := by
  have hu : Booting c (d.useFree 1) := h.of_blocks rfl rfl rfl rfl rfl rfl
  unfold Dev.calWrite
  dsimp only
  split
  · exact hf _ hu
  · have he := (hu.calError (.inl rfl)).histEvent 12 0 16 48
    split
    · exact he.calError (.inr rfl)
    · exact he

theorem Booting.avsStep (goal n : Nat) : ∀ {d : Dev} (cur : Nat), Booting c d → Booting c (d.avsStep goal n cur).1 := by
  induction n with
  | zero => exact fun _ h => h
  | succ n ih =>
    intro d cur h
    unfold Dev.avsStep
    split
    · exact h
    · extract_lets next
      have hw : Booting c (d.calWrite fun d => d.emit (.avsWrite next)).1 := h.calWrite fun x hx => hx.of_blocks rfl rfl rfl rfl rfl rfl
      exact ih _ hw

theorem Booting.modThm (h : Booting c d) (f : Thm → Thm) : Booting c (d.modThm f) := h.of_blocks rfl rfl rfl rfl rfl rfl

theorem Booting.setPoint (h : Booting c d) (ok : Bool) : Booting c (d.setPoint ok) := by
  unfold Dev.setPoint
  extract_lets goal steps once
  clear_value goal steps
  have hstep := h.avsStep goal (steps + 2) 800
  generalize d.avsStep goal (steps + 2) 800 = z at hstep ⊢
  split
  · exact h
  · split
    · exact hstep.modThm _
    · exact (((h.avsStep ..).avsStep ..).avsStep ..).modThm _

/-! ## The ends of a start-up -/

/-- A start-up has ended. -/
structure Started (c : Word) (r : Dev) : Prop extends Idle c r where
  ends : r.sys.st = .ready ∨ r.sys.st = .struck ∨ r.sys.st = .darkHouse

theorem Dev.darkHouse_spec (d : Dev) (n : Nat) (dark : Bool) : let r := d.darkHouse n dark
    r.sys.st = .darkHouse ∧ r.sec.dhCause = n ∧ r.sec.st = (if dark then .dark else d.sec.st) ∧ r.sec.bootCount = d.sec.bootCount := by
  simp [Dev.darkHouse]

theorem Idle.darkHouse (h : Idle c d) (n : Nat) (dark : Bool) : Started c (d.darkHouse n dark) := by
  refine ⟨⟨?_, ?_, ?_, ?_, ?_⟩, .inr (.inr (d.darkHouse_spec n dark).1)⟩
  · simp [Dev.darkHouse, h.level]
  · simp [Dev.darkHouse, h.script]
  · simp [Dev.darkHouse, h.still]
  · simp [Dev.darkHouse, h.steps]
  · simp [Dev.darkHouse, h.boots]

theorem Booting.hbmStartFailed (h : Booting c d) : Started c d.hbmStartFailed := by
  unfold Dev.hbmStartFailed
  exact ((h.record ..).modErr (by rfl)).toIdle.darkHouse 7 false

/-- With no step in flight nothing is discarded. -/
theorem Idle.enterStruck (h : Idle c d) : Started c d.enterStruck := by
  have hd : Idle c (d.discardAll 4) := by
    have hsec : (d.discardAll 4).sec = d.sec := by simp
    have hscr : (d.discardAll 4).scr = d.scr := by simp
    refine ⟨by rw [hsec, h.level], by rw [hscr, h.script], ?_, ?_, by rw [hsec, h.boots]⟩ <;>
      simp only [Dev.discardAll, h.steps, List.foldl_nil] <;> split <;> simp [h.still, h.steps]
  refine ⟨⟨?_, ?_, ?_, ?_, ?_⟩, .inr (.inl d.enterStruck_spec.1)⟩
  · rw [Dev.enterStruck_sec, h.level]
  · rw [Dev.enterStruck_scr, h.script]
  · simp [Dev.enterStruck, hd.still]
  · simp [Dev.enterStruck, hd.steps]
  · rw [Dev.enterStruck_sec, h.boots]

theorem Dev.applyHolds_running (d : Dev) : d.applyHolds.frm.running = d.frm.running := by
  unfold Dev.applyHolds
  dsimp only
  (repeat' split) <;> simp

/-- A pin hold at the end of the start-up leaves STATE: nothing plays. -/
theorem Started.engage (h : Started c d) (t : Nat) : Started c (d.engage 1 t fun b => { b with holdPin := true }) := by
  have hs := @Dev.engage_spec d 1 t (fun b => { b with holdPin := true }) (Dbg.held_of_pin rfl) rfl
  have hst : (d.engage 1 t fun b => { b with holdPin := true }).sys.st = d.sys.st :=
    hs.stays (by rcases h.ends with he | he | he <;> simp [he]) (by rcases h.ends with he | he | he <;> simp [he])
  obtain ⟨e, he, hset⟩ := d.engage_eq 1 t fun b => { b with holdPin := true }
  refine ⟨⟨?_, ?_, ?_, ?_, ?_⟩, hst ▸ h.ends⟩
  · rw [Dev.engage_sec, h.level]
  · rw [Dev.engage_scr, h.script]
  · rw [he, Dev.applyHolds_running, hset.frm, h.still]
  · rw [Dev.engage_call, h.steps]
  · rw [Dev.engage_sec, h.boots]

/-- With STATE set, and the memory serving the host, the start-up has ended. -/
theorem Booting.setSt (h : Booting c d) {st : DevState} (hst : st = .ready ∨ st = .struck) (f : HostIf → HostIf) :
    Started c ((d.setSt st).modHost f) := by
  refine ⟨⟨?_, ?_, ?_, ?_, ?_⟩, ?_⟩
  · simp [h.level]
  · simp [h.script]
  · simp [h.still]
  · simp [h.steps]
  · simp [h.boots]
  · rcases hst with rfl | rfl <;> simp

/-- The Stage Manager starts: READY or STRUCK (R450). -/
theorem Booting.bootManager (h : Booting c d) (bo sm : FwImage) (t : Nat) : Started c (d.bootManager bo sm t) := by
  unfold Dev.bootManager
  extract_lets d₁ d₂ d₃ d₄ d₅ d₆
  have h₃ : Booting c d₃ := ⟨⟨h.level, h.script, h.still, h.steps, h.boots⟩, h.st, h.fatal⟩
  have h₄ : Booting c d₄ := by
    by_cases hr : d₃.thm.tripRecord = true
    · rw [show d₄ = _ from if_pos hr]
      exact (h₃.raise (.inl rfl)).modThm _
    · rwa [show d₄ = _ from if_neg hr]
  have h₅ : Started c d₅ := @Booting.setSt _ _ h₄ (if d₄.err.struck then .struck else .ready) (by split <;> simp) _
  have h₆ : Started c d₆ := by
    by_cases hr : d₅.inDrain = true
    · rw [show d₆ = _ from if_pos hr]
      exact h₅.toIdle.enterStruck
    · rwa [show d₆ = _ from if_neg hr]
  split
  · exact h₆.engage t
  · exact h₆

/-- A Stage Manager that does not start is a fatal error: the device is STRUCK (R412). -/
theorem Booting.raise_fatal (h : Booting c d) {i : ErrIn} (hi : i.cls = 3) : Started c (d.raise i) := by
  have hfatal : d.inFatal = false := by simp [Dev.inFatal, h.fatal]
  have heq : d.raise i = (d.record i 5 (d.inDrain || d.inContain)).fatalHandling d.err.nextSeq i.code := by
    simp [Dev.raise, h.st, hfatal, hi]
  obtain ⟨f, -, hf⟩ := (d.record i 5 (d.inDrain || d.inContain)).fatalHandling_eq d.err.nextSeq i.code
  have hr := h.toIdle.record i 5 (d.inDrain || d.inContain)
  have hm : Idle c ((d.record i 5 (d.inDrain || d.inContain)).fatalMarked d.err.nextSeq i.code) :=
    ⟨hr.level, hr.script, hr.still, hr.steps, hr.boots⟩
  obtain ⟨⟨h1, h2, h3, h4, h5⟩, hends⟩ := hm.enterStruck
  rw [heq, hf]
  exact ⟨⟨h1, h2, h3, h4, h5⟩, hends⟩

/-- The device as a start-up finds it. -/
def Dev.bootEntry (d : Dev) (t : Nat) : Dev :=
  ((d.modSys fun s => { s with st := .boot }).reset.at_ t).modSys fun s => { s with relT := ((d.modSys fun s => { s with st := .boot }).reset.at_ t).now }

theorem Dev.bootEntry_booting (d : Dev) (t : Nat) : Booting d.sec.bootCount (d.bootEntry t) := ⟨⟨rfl, rfl, rfl, rfl, rfl⟩, rfl, rfl⟩

/-- A start-up whose protected part passes (R449), from its entry. -/
def Dev.bootCounted (d : Dev) (t : Nat) : Dev := (d.bootEntry t).modSec fun s => { s with bootCount := s.bootCount + 1 }

theorem Dev.bootCounted_booting (d : Dev) (t : Nat) : Booting (d.sec.bootCount + 1) (d.bootCounted t) :=
  ⟨⟨rfl, rfl, rfl, rfl, rfl⟩, rfl, rfl⟩

theorem Booting.modSec (h : Booting c d) {f : Sec → Sec} (hl : (f d.sec).level = d.sec.level) (hc : (f d.sec).bootCount = d.sec.bootCount) :
    Booting c (d.modSec f) := ⟨⟨hl.trans h.level, h.script, h.still, h.steps, hc.trans h.boots⟩, h.st, h.fatal⟩

theorem Booting.modSys (h : Booting c d) {f : Sys → Sys} (hf : (f d.sys).st = d.sys.st) : Booting c (d.modSys f) :=
  ⟨⟨h.level, h.script, h.still, h.steps, h.boots⟩, hf.trans h.st, h.fatal⟩

theorem Dev.startUp_unprotected (t : Nat) (b : BootIn) (h : d.sec.protectedOk = false) : d.startUp t b = (d.bootEntry t).darkHouse 5 true := by
  have h' : (!(d.bootEntry t).sec.protectedOk) = true := by rw [Bool.not_eq_true']; exact h
  exact if_pos h'

theorem Dev.startUp_without_boxOffice (t : Nat) (b : BootIn) (h : d.sec.protectedOk = true)
    (hp : pickFw (qualifies 1 d.sec.floorBo.toNat d.sec.boA) (qualifies 1 d.sec.floorBo.toNat d.sec.boB) = none) :
    d.startUp t b = (d.bootCounted t).darkHouse 6 true := by
  unfold Dev.startUp
  extract_lets d₁ d₂ d₃ c
  have hok : d₂.sec.protectedOk = true := h
  have hnone : pickFw (qualifies 1 c.floorBo.toNat c.boA) (qualifies 1 c.floorBo.toNat c.boB) = none := hp
  rw [hok, hnone]
  rfl

/-- Past the count of the start-up every way ends, with nothing in flight (R449, R450). -/
theorem Dev.startUp_started (t : Nat) (b : BootIn) (h : d.sec.protectedOk = true) : Started (d.sec.bootCount + 1) (d.startUp t b) := by
  unfold Dev.startUp
  extract_lets d₁ d₂ d₃ c
  have hok : d₂.sec.protectedOk = true := h
  have h₃ : Booting (d.sec.bootCount + 1) d₃ := d.bootCounted_booting t
  rw [hok]
  clear_value d₃
  rw [if_neg (by simp)]
  split
  · exact h₃.toIdle.darkHouse 6 true
  · extract_lets d₄ d₅ d₆
    have h₅ : Booting (d.sec.bootCount + 1) d₅ := (h₃.modSec (by rfl) (by rfl)).modSys (by rfl)
    have h₆ : Booting (d.sec.bootCount + 1) d₆ := h₅.of_blocks rfl rfl rfl rfl rfl rfl
    clear_value d₅ d₆
    split
    · exact h₅.toIdle.darkHouse 1 false
    · split
      · exact h₅.hbmStartFailed
      · split
        · exact h₆.toIdle.darkHouse _ false
        · extract_lets e d₇ d₈ d₉
          have h₈ : Booting (d.sec.bootCount + 1) d₈ := (h₆.modSys (by rfl)).modSec (by rfl) (by rfl)
          have h₉ : Booting (d.sec.bootCount + 1) d₉ := h₈.setPoint _
          clear_value d₈ d₉
          split
          · exact h₈.toIdle.darkHouse 4 false
          · split
            · exact h₉.bootManager _ _ _
            · exact (h₉.modSec (by rfl) (by rfl)).raise_fatal rfl

/-- Settles O9, by the three ways a start-up goes. -/
theorem startUpEndsReadyStruckOrDark : Obligations.StartUpEndsReadyStruckOrDark := by
  intro d t b r
  cases hp : d.sec.protectedOk with
  | false =>
    have hr : r = (d.bootEntry t).darkHouse 5 true := Dev.startUp_unprotected t b hp
    obtain ⟨hst, hcause, hdark, -⟩ := (d.bootEntry t).darkHouse_spec 5 true
    obtain ⟨⟨hl, hsc, hrun, hsteps, hb⟩, hends⟩ := (d.bootEntry_booting t).toIdle.darkHouse 5 true
    rw [hr]
    exact ⟨hends, hl, hsc, hrun, hsteps, fun _ => ⟨hst, hdark, hcause, hb⟩, nofun, nofun⟩
  | true =>
    obtain ⟨⟨hl, hsc, hrun, hsteps, hb⟩, hends⟩ := Dev.startUp_started t b hp
    refine ⟨hends, hl, hsc, hrun, hsteps, nofun, fun _ => hb, fun _ hA hB => ?_⟩
    have hr : r = (d.bootCounted t).darkHouse 6 true := Dev.startUp_without_boxOffice t b hp (by rw [hA, hB]; rfl)
    obtain ⟨hst, hcause, hdark, -⟩ := (d.bootCounted t).darkHouse_spec 6 true
    rw [hr]
    exact ⟨hst, hdark, hcause⟩

end Sys2Proof.Machine
end

section
/-! PROOF. The host link, the decoder, MSI-X and the event registers (R385, R392 to R396). -/
namespace Sys2Proof.Machine
variable {d : Dev}

/-! ## What an event and a record leave of the host block -/

theorem Dev.fireVector_host (d : Dev) (v : Nat) : ∃ p m, (d.fireVector v).host = { d.host with msixPend := p, dma := m } := by
  unfold Dev.fireVector
  split
  · exact ⟨_, _, rfl⟩
  · exact ⟨_, d.host.dma, rfl⟩

theorem Dev.event_host (d : Dev) (e : Evt) : ∃ st a p m, (d.event e).host = { d.host with evtStatus := st, armed := a, msixPend := p, dma := m } := by
  unfold Dev.event
  extract_lets m rose d₁
  split
  · obtain ⟨p, n, h⟩ := Dev.fireVector_host (d₁.modHost fun h => { h with armed := false }) d₁.host.evtVector.toNat
    exact ⟨_, _, p, n, h⟩
  · exact ⟨_, d.host.armed, d.host.msixPend, d.host.dma, rfl⟩

theorem Dev.record_host (d : Dev) (i : ErrIn) (a : Nat) (n : Bool) :
    ∃ st b p m, (d.record i a n).host = { d.host with evtStatus := st, armed := b, msixPend := p, dma := m } := by
  have hite (c : Prop) [Decidable c] (x : Dev) (f : Call → Call) : (if c then x.modCall f else x).host = x.host := by split <;> rfl
  simp only [Dev.record, Dev.ethSend_host, Dev.settle_host]
  obtain ⟨st, b, p, m, h⟩ := Dev.event_host _ .error
  rw [h, hite]
  exact ⟨_, _, _, _, rfl⟩

/-- The link of a device that serves it goes down: the loss is counted and recorded (R396). -/
theorem hostLinkDown_spec (hr : d.coreRuns = true) (hu : d.host.up = true) : let r := hostLinkDown d
    r.host.up = false ∧ r.host.width = 0 ∧ r.host.speed = 0 ∧ r.host.doeResp = [] ∧ r.host.linkLoss = bump d.host.linkLoss ∧
    r.host.hdm = d.host.hdm ∧ r.host.msix = d.host.msix ∧ r.host.memActive = d.host.memActive ∧
    r.err.nextSeq = d.err.nextSeq + 1 ∧ r.mem = d.mem ∧ r.frm = d.frm ∧ r.scr = d.scr ∧ r.sec = d.sec ∧ r.sys.st = d.sys.st := by
  have hb : d.sys.st ≠ .blackout := by
    intro h
    simp [Dev.coreRuns, h] at hr
  have heq : hostLinkDown d = d.linkLoss.record { code := 0x0902, cls := 0, kind := 14 } 1 (d.linkLoss.inFatal || d.linkLoss.inDrain || d.linkLoss.inContain) := by
    rw [hostLinkDown, if_pos hr, Dev.hostDown, if_pos hu, Dev.raise_corrected rfl]
    exact if_neg hb
  obtain ⟨st, b, p, m, hhost⟩ := d.linkLoss.record_host { code := 0x0902, cls := 0, kind := 14 } 1
    (d.linkLoss.inFatal || d.linkLoss.inDrain || d.linkLoss.inContain)
  obtain ⟨⟨w, z, hsys⟩, -, -⟩ := d.linkLoss.record_rest { code := 0x0902, cls := 0, kind := 14 } 1
    (d.linkLoss.inFatal || d.linkLoss.inDrain || d.linkLoss.inContain)
  dsimp only
  rw [heq, hhost, hsys, Dev.record_nextSeq]
  refine ⟨rfl, rfl, rfl, rfl, if_pos hu, rfl, rfl, rfl, rfl, ?_, ?_, ?_, ?_, rfl⟩ <;> rw [Dev.record_frame] <;> rfl

/-! ## Pending vectors -/

/-- A vector's entry. -/
def HostIf.vec (h : HostIf) (v : Nat) : MsixEnt := sgetD h.msix v {}

/-- The messages of the unmasked vectors of a list go out, in its order. -/
theorem Dev.sendMsix_foldl (d : Dev) (l : List Nat) :
    let r := l.foldl (fun d v => if (d.host.vec v).mask then d else d.sendMsix v) d
    r = { d with host := r.host, out := r.out } ∧
    r.out = d.out ++ (l.filter fun v => !(d.host.vec v).mask).map (fun v => .msix (d.host.vec v).addr (d.host.vec v).data) ∧
    r.host.msixPend = d.host.msixPend.filter (fun v => (d.host.vec v).mask || !l.contains v) ∧
    ∃ m, r.host = { d.host with msixPend := r.host.msixPend, dma := m } := by
  induction l generalizing d with
  | nil => exact ⟨rfl, by simp, by simp, d.host.dma, rfl⟩
  | cons v l ih =>
    rw [List.foldl_cons]
    cases hm : (d.host.vec v).mask with
    | true =>
      obtain ⟨h1, h2, h3, h4⟩ := ih d
      refine ⟨h1, h2.trans (by simp [hm]), h3.trans (List.filter_congr fun w _ => ?_), h4⟩
      by_cases hw : w = v
      · simp [hw, hm]
      · simp [hw]
    | false =>
      have hvec (w : Nat) : (d.sendMsix v).host.vec w = d.host.vec w := rfl
      obtain ⟨h1, h2, h3, m, h4⟩ := ih (d.sendMsix v)
      simp only [hvec] at h2 h3
      refine ⟨h1.trans rfl, h2.trans ?_, h3.trans ?_, m, h4⟩
      · rw [List.filter_cons_of_pos (by simp [hm]), List.map_cons]
        exact List.append_assoc ..
      · simp only [Dev.sendMsix, Dev.emit_host, Dev.modHost_host, setDel, List.filter_filter]
        refine List.filter_congr fun w _ => ?_
        by_cases hw : w = v
        · simp [hw, hm]
        · simp [hw]

/-! ## Writes of the vector table -/

theorem msixUnmask_eq {v : Nat} (hb : d.barOk = true) : msixUnmask v d =
    if d.host.msixPend.contains v && d.host.msixSends then
      (d.modHost fun h => { h with msix := sput h.msix v { h.vec v with mask := false } }).sendMsix v
    else d.modHost fun h => { h with msix := sput h.msix v { h.vec v with mask := false } } := by
  have h1 : (4 * v + 3) / 4 = v := by omega
  have h2 : (4 * v + 3) % 4 = 3 := by omega
  have h3 : wbit 0 0 = false := rfl
  simp only [msixUnmask, hb, Dev.msixWrite, h1, h2, h3, Dev.modHost_host, reduceIte, OfNat.ofNat_ne_zero, Nat.reduceEqDiff, Bool.not_false, Bool.and_true]
  rfl

/-- The link up with what the host configured. -/
def HostIf.linked (h : HostIf) (u : LinkUp) : HostIf :=
  { h with up := true, pcie := u.pcie, width := u.width, speed := u.speed, bme := u.bme, msixEnable := u.msix }

/-- Settles O57, command by command. -/
theorem hostLinkAndVectorCommands : Obligations.HostLinkAndVectorCommands := by
  intro s h
  refine ⟨fun hr hu => ⟨_, State.gives_onDev rfl rfl, hostLinkDown_spec hr hu⟩, fun hn => State.gives_onDev rfl ?_, fun u hb hu hp hf => ⟨fun hn => State.gives_onDev rfl ?_,
    fun hm he => ?_⟩, fun u hn => State.gives_onDev rfl ?_, fun base size ways hb hu hp => ⟨fun hw hbase hsize => State.gives_onDev rfl ?_, fun hn => State.gives_onDev rfl ?_⟩,
    fun v hb => ⟨fun hpend hu he hm => ?_, fun hn => State.gives_onDev rfl ?_⟩, fun hb => State.gives_onDev rfl (if_pos hb), fun b hb => State.gives_onDev rfl (if_pos hb),
    fun hb c hc => ?_⟩
  · rcases hn with hn | hn
    · simp [hostLinkDown, hn]
    · simp [hostLinkDown, Dev.hostDown, show s.dev.host.up = false from hn]
  · have hs : (u.msix = true ∧ u.bme = true) = False := by
      rcases hn with hn | hn <;> simp [hn]
    have hu' : s.dev.host.up = false := hu
    simp only [hostLinkUp, hb, hu', hp, hf, Dev.sendPending, HostIf.msixSends, Dev.modHost_host]
    rcases hn with hn | hn <;> simp [hn, Dev.modHost, h]
  · obtain ⟨h1, h2, h3, m, h4⟩ := (s.dev.modHost fun h => h.linked u).sendMsix_foldl s.dev.host.msixPend
    have heq : hostLinkUp u s.dev = s.dev.host.msixPend.foldl (fun d v => if (d.host.vec v).mask then d else d.sendMsix v)
        (s.dev.modHost fun h => h.linked u) := by
      have hu' : s.dev.host.up = false := hu
      have hs : (s.dev.host.linked u).msixSends = true := by simp [HostIf.linked, HostIf.msixSends, hm, he]
      rw [hostLinkUp, if_neg (by simp [hb, hu', hp, hf]), Dev.sendPending]
      exact if_pos hs
    refine ⟨_, State.gives_onDev rfl heq, ?_, ?_, ?_, ?_, ?_, ?_, ?_, ?_, h2, ?_⟩
    · rw [h4]; rfl
    · rw [h4]; rfl
    · rw [h4]; rfl
    · rw [h4]; rfl
    · rw [h4]; exact he
    · rw [h4]; exact hm
    · rw [h4]; rfl
    · refine h3.trans (List.filter_congr fun w hw => ?_)
      have hc : s.dev.host.msixPend.contains w = true := List.contains_iff_mem.mpr hw
      rw [hc]
      exact Bool.or_false _
    · rw [h1]; rfl
  · have hb' : (!s.dev.barOk || s.dev.host.up || s.dev.sys.perst || !linkFormOk u) = true := by
      rcases hn with hn | hn | hn | hn
      · simp [hn]
      · simp [show s.dev.host.up = true from hn]
      · simp [hn]
      · simp [hn]
    exact if_pos hb'
  · have hm : base.toNat % 0x10000000 = 0 := Nat.mod_eq_zero_of_dvd hbase
    refine if_pos ?_
    simp [hb, show s.dev.host.up = true from hu, show s.dev.host.pcie = false from hp, hw, hm, hsize, windowEnd]
  · refine if_neg fun hc => ?_
    simp only [Bool.and_eq_true, beq_iff_eq] at hc
    rcases hn with hn | hn | hn
    · exact hn hc.1.1.2
    · exact hn (Nat.dvd_of_mod_eq_zero hc.1.2)
    · exact hn hc.2
  · have hs : (s.dev.host.msixPend.contains v.val && s.dev.host.msixSends) = true := by
      simp [HostIf.msixSends, show s.dev.host.up = true from hu, show s.dev.host.bme = true from he, show s.dev.host.msixEnable = true from hm]
      exact hpend
    have heq := (@msixUnmask_eq s.dev v.val hb).trans (if_pos hs)
    have hvec : ((s.dev.modHost fun h => { h with msix := sput h.msix v.val { h.vec v.val with mask := false } }).host.vec v.val) =
        { s.dev.host.vec v.val with mask := false } := by simp [HostIf.vec, sgetD]
    refine ⟨_, State.gives_onDev rfl heq, ?_, ?_, fun w hw => sget_sput_ne _ _ hw, rfl⟩
    · exact congrArg (fun e : MsixEnt => s.dev.out ++ [.msix e.addr e.data]) hvec
    · exact hvec
  · have hs : ¬(s.dev.host.msixPend.contains v.val && s.dev.host.msixSends) = true := by
      intro hc
      simp only [HostIf.msixSends, Bool.and_eq_true, List.contains_iff_mem] at hc
      obtain ⟨hp, ⟨hu, he⟩, hm⟩ := hc
      rcases hn with hn | hn | hn | hn
      · exact hn hp
      · exact Bool.false_ne_true (hn.symm.trans hu)
      · exact Bool.false_ne_true (hn.symm.trans he)
      · exact Bool.false_ne_true (hn.symm.trans hm)
    exact (@msixUnmask_eq s.dev v.val hb).trans (if_neg hs)
  · simp only [List.mem_cons, List.not_mem_nil, or_false] at hc
    rcases hc with rfl | rfl | rfl
    · exact State.gives_onDev rfl (if_neg (by simp [hb]))
    · exact State.gives_onDev rfl (if_neg (by simp [hb]))
    · exact State.gives_onDev rfl (if_neg (by simp [hb]))

end Sys2Proof.Machine
end

section
/-! PROOF. One aligned word of BAR0 (R386 to R390): which accesses have no effect, and the latches of the 64-bit pairs. -/
namespace Sys2Proof.Machine
variable {d : Dev}

theorem Dev.barBoot_of_barOk (h : d.barOk = true) : d.barBoot = false := by
  simp only [Dev.barOk, Bool.and_eq_true, bne_iff_ne] at h
  simp [Dev.barBoot, h.2]

theorem Dev.barOk_of_up (h : d.up = true) : d.barOk = true := by
  simp only [Dev.up, Bool.and_eq_true, bne_iff_ne] at h
  simp [Dev.barOk, h.1.1, h.1.2]

/-- A write of an aligned word below 32 MiB reaches the register. -/
theorem registerWrite_eq {off v : Word} (hb : d.barOk = true) (ha : off.toNat % 4 = 0) (hl : off.toNat < 2 ^ 25) :
    registerWrite off v d = d.regWrite off.toNat v := by
  have hl' : ¬33554432 ≤ off.toNat := by omega
  simp [registerWrite, Dev.barBoot_of_barOk hb, hb, ha, hl']

theorem registerLowWordRead_eq {off : Word} (hb : d.barOk = true) (ha : off.toNat % 4 = 0) (hl : off.toNat < 2 ^ 25) :
    registerLowWordRead off d = (d.pathRead 0 off.toNat).1.emit (.bar0 (d.pathRead 0 off.toNat).2) := by
  have hl' : ¬33554432 ≤ off.toNat := by omega
  simp [registerLowWordRead, Dev.barBoot_of_barOk hb, hb, ha, hl']

/-- The low word of a pair loads BAR0's latch of the pair. -/
theorem Dev.pathRead_low {off p : Nat} (hu : d.up = true) (h : pairOfLow off = some p) : d.pathRead 0 off =
    (d.modSys fun s => { s with latch := sput s.latch (4 * p) (BitVec.ofNat 32 (d.pairHigh p)) }, BitVec.ofNat 32 (d.liveRead off)) := by
  simp [Dev.pathRead, h, hu]

theorem Dev.pathRead_high {off p : Nat} (hu : d.up = true) (hl : pairOfLow off = none) (h : pairOfHigh off = some p) :
    d.pathRead 0 off = (d, sgetD d.sys.latch (4 * p) 0) := by
  simp [Dev.pathRead, hl, h, hu]

theorem Dev.pathRead_plain {off : Nat} (hl : pairOfLow off = none) (h : pairOfHigh off = none) :
    d.pathRead 0 off = (d, BitVec.ofNat 32 (d.liveRead off)) := by
  simp [Dev.pathRead, hl, h]

/-- A write outside the register of GEN_CTRL leaves GEN as it is. -/
theorem Dev.regWrite_gen {off : Nat} (v : Word) (hb : d.barOk = true) (ha : off % 4 = 0) (h : off < 2 ^ 20) (hne : off ≠ 0x14) : d.regWrite off v = d := by
  have hblk : regBlock off = 0 := if_pos h
  simp [Dev.regWrite, hblk, ha, hb, Dev.genWrite, hne]

/-- A block that is not served in the present state takes no write. -/
theorem Dev.regWrite_unserved {off : Nat} (v : Word) (hu : d.up = false) (h : 2 ^ 21 ≤ off) (hs : off < 0x1800000 ∨ 0x1C00000 ≤ off) :
    d.regWrite off v = d := by
  have h0 : regBlock off ≠ 0 := by grind [regBlock]
  have h1 : regBlock off ≠ 1 := by grind [regBlock]
  have h9 : regBlock off ≠ 9 := by grind [regBlock]
  unfold Dev.regWrite
  dsimp only
  rw [if_neg h0, if_neg h1, if_neg h9, if_pos (show (!d.up) = true by rw [hu]; rfl), ite_self]

theorem Dev.regWrite_host (v : Word) (hb : d.barOk = true) : d.regWrite 0x100010 v =
    { d with host := { d.host with evtEn := v.truncate 10, armed := d.host.armed || (d.host.evtStatus &&& v.truncate 10 == 0) } } := by
  have hblk : regBlock 0x100010 = 1 := by decide
  unfold Dev.regWrite
  dsimp only
  rw [hblk, hb]
  rfl

theorem Dev.regWrite_errSel (v : Word) (hb : d.barOk = true) (hu : d.up = true) : d.regWrite 0x1600010 v =
    { d with err := { d.err with selRing := v.getLsbD 0, selIndex := (v >>> 1).truncate 16 } } := by
  have hblk : regBlock 0x1600010 = 8 := by decide
  unfold Dev.regWrite
  dsimp only
  have hidx : BitVec.ofNat 16 (wfld v 1 16) = (v >>> 1).truncate 16 := by
    refine BitVec.eq_of_toNat_eq ?_
    simp [wfld, fld, Nat.shiftRight_eq_div_pow]
  rw [hblk, hb, hu, ← hidx]
  rfl

theorem Dev.liveRead_frame (hu : d.up = true) : BitVec.ofNat 32 (d.liveRead 0x400110) = BitVec.ofNat 32 d.frm.frame := by
  have hblk : regBlock 0x400110 = 3 := by decide
  have hread : d.liveRead 0x400110 = d.frm.frame % 2 ^ 32 := by
    unfold Dev.liveRead
    dsimp only
    rw [hblk, hu]
    rfl
  rw [hread]
  exact BitVec.eq_of_toNat_eq (by simp)

theorem Dev.liveRead_stretch (hu : d.up = true) : BitVec.ofNat 32 (d.liveRead 0x400124) = BitVec.ofNat 32 d.frm.stretchTotal := by
  have hblk : regBlock 0x400124 = 3 := by decide
  have hread : d.liveRead 0x400124 = d.frm.stretchTotal % 2 ^ 32 := by
    unfold Dev.liveRead
    dsimp only
    rw [hblk, hu]
    rfl
  rw [hread]
  exact BitVec.eq_of_toNat_eq (by simp)

/-- An access that does not reach a register completes with Unsupported Request. -/
theorem registerAccess_unsupported {c : Instr} {s : State} {off v : Word}
    (h : (s.dev.barBoot || (s.dev.barOk && (off.toNat % 4 != 0 || decide (2 ^ 25 ≤ off.toNat)))) = true)
    (hc : c = .registerWrite off v ∨ c = .registerLowWordRead off) : Gives c s (s.dev.emit .unsupported) := by
  rcases hc with rfl | rfl
  · exact State.gives_onDev rfl (if_pos h)
  · exact State.gives_onDev rfl (if_pos h)

theorem Dev.no_bar {d : Dev} (h : d.coreRuns = false) : d.barOk = false ∧ d.barBoot = false := by simp [Dev.barOk, Dev.barBoot, h]

/-- Settles O58, by what an address reaches. -/
theorem registerAccessesObeyTheirAddress : Obligations.RegisterAccessesObeyTheirAddress := by
  intro s h
  refine ⟨fun off v hb ho c hc => ?_, fun off w hb => State.gives_onDev rfl (if_pos (by simp [hb])), fun off v hr hst c hc => ?_, fun off v hr c hc => ?_,
    fun off v hb ha hl => ⟨fun hg hne => ?_, fun hu h21 hs => ?_, fun ho => ?_, fun hu ho => ?_⟩, fun hu => ⟨?_, ?_, ?_, ?_, fun off ha hl hn => ?_⟩⟩
  · simp only [List.mem_cons, List.not_mem_nil, or_false] at hc
    refine registerAccess_unsupported ?_ hc
    rcases ho with ho | ho
    · simp [hb, ho]
    · rw [hb, decide_eq_true ho]
      simp
  · simp only [List.mem_cons, List.not_mem_nil, or_false] at hc
    have hboot : s.dev.barBoot = true := by simp [Dev.barBoot, hr, hst]
    rcases hc with hc | hc | rfl
    · exact registerAccess_unsupported (by simp [hboot]) (.inl hc)
    · exact @registerAccess_unsupported _ _ _ v (by simp [hboot]) (.inr hc)
    · exact State.gives_onDev rfl (if_pos (by simp [hboot]))
  · simp only [List.mem_cons, List.not_mem_nil, or_false] at hc
    obtain ⟨hb, hboot⟩ := Dev.no_bar hr
    rcases hc with rfl | rfl | rfl
    · exact State.gives_onDev rfl (by simp [registerWrite, hb, hboot])
    · exact State.gives_onDev rfl (by simp [registerLowWordRead, hb, hboot])
    · exact State.gives_onDev rfl (by simp [bar0UnsupportedAccess, hb, hboot])
  · exact State.gives_onDev rfl ((registerWrite_eq hb ha hl).trans (Dev.regWrite_gen v hb ha hg fun he => hne (BitVec.eq_of_toNat_eq he)))
  · exact State.gives_onDev rfl ((registerWrite_eq hb ha hl).trans (Dev.regWrite_unserved v hu h21 hs))
  · subst ho
    exact State.gives_onDev rfl ((registerWrite_eq hb ha hl).trans (Dev.regWrite_host v hb))
  · subst ho
    exact State.gives_onDev rfl ((registerWrite_eq hb ha hl).trans (Dev.regWrite_errSel v hb hu))
  · refine ⟨_, State.gives_onDev rfl ((registerLowWordRead_eq (Dev.barOk_of_up hu) (by decide) (by decide)).trans (by rw [Dev.pathRead_low hu rfl])), ?_⟩
    exact ⟨congrArg (fun w => s.dev.out ++ [.bar0 w]) (Dev.liveRead_frame hu), sget_sput_self .., fun k hk => sget_sput_ne _ _ hk, rfl⟩
  · refine ⟨_, State.gives_onDev rfl ((registerLowWordRead_eq (Dev.barOk_of_up hu) (by decide) (by decide)).trans (by rw [Dev.pathRead_low hu rfl])), ?_⟩
    exact ⟨congrArg (fun w => s.dev.out ++ [.bar0 w]) (Dev.liveRead_stretch hu), sget_sput_self .., fun k hk => sget_sput_ne _ _ hk, rfl⟩
  · exact State.gives_onDev rfl ((registerLowWordRead_eq (Dev.barOk_of_up hu) (by decide) (by decide)).trans (by rw [Dev.pathRead_high hu rfl rfl]))
  · exact State.gives_onDev rfl ((registerLowWordRead_eq (Dev.barOk_of_up hu) (by decide) (by decide)).trans (by rw [Dev.pathRead_high hu rfl rfl]))
  · simp only [List.mem_cons, List.not_mem_nil, or_false, not_or] at hn
    obtain ⟨h1, h2, h3, h4⟩ := hn
    have hlow : pairOfLow off.toNat = none :=
      (if_neg fun he => h1 (BitVec.eq_of_toNat_eq he)).trans (if_neg fun he => h3 (BitVec.eq_of_toNat_eq he))
    have hhigh : pairOfHigh off.toNat = none :=
      (if_neg fun he => h2 (BitVec.eq_of_toNat_eq he)).trans (if_neg fun he => h4 (BitVec.eq_of_toNat_eq he))
    exact State.gives_onDev rfl ((registerLowWordRead_eq (Dev.barOk_of_up hu) ha hl).trans (by rw [Dev.pathRead_plain hlow hhigh]))

end Sys2Proof.Machine
end

section
/-! PROOF. Adapter slots (R246 to R249): loads, the directory, and slots that are retired. -/
namespace Sys2Proof.Machine
variable {d : Dev}

/-! ## Copying device memory -/

/-- Bytes written one after another, at rising addresses: each address holds its byte, the others stay. -/
theorem rd1_foldl_wr1 (l : Sparse Byte) {lo : Nat} (w : sparseFrom lo l = true) (h : Sparse Byte) (hh : sparseWf h = true) (x : Nat) :
    rd1 (l.foldl (fun h c => wr1 h c.1 c.2) h) x = (sget l x).getD (rd1 h x) := by
  induction l generalizing lo h with
  | nil => rfl
  | cons e t ih =>
    obtain ⟨k, v⟩ := e
    simp only [sparseFrom, Bool.and_eq_true, decide_eq_true_eq] at w
    rw [List.foldl_cons, ih w.2 _ (sparseWf_wr1 h k v hh)]
    by_cases hx : x = k
    · subst hx
      simp [sget_below t w.2 (Nat.lt_succ_self x), sget, rd1_wr1_self h x v hh]
    · simp [sget, hx, rd1_wr1_ne h v hx]

/-- The listed bytes of a range, at their places in another. -/
def Mem.moved (m : Sparse Byte) (src dst n : Nat) : Sparse Byte :=
  (m.filter fun c => decide (src ≤ c.1) && decide (c.1 < src + n)).map fun c => (c.1 - src + dst, c.2)

theorem Mem.sget_moved (m : Sparse Byte) (src dst n x : Nat) :
    sget (Mem.moved m src dst n) x = if dst ≤ x ∧ x < dst + n then sget m (x - dst + src) else none := by
  unfold Mem.moved
  induction m with
  | nil => simp
  | cons e t ih =>
    obtain ⟨k, v⟩ := e
    by_cases hk : src ≤ k ∧ k < src + n
    · rw [List.filter_cons_of_pos (by simpa using hk), List.map_cons, sget, ih]
      by_cases hx : x = k - src + dst
      · have hr : dst ≤ x ∧ x < dst + n := by omega
        have hkk : x - dst + src = k := by omega
        rw [if_pos hx, if_pos hr, hkk, sget, if_pos rfl]
      · rw [if_neg hx]
        refine if_ctx_congr Iff.rfl (fun hr => ?_) (fun _ => rfl)
        rw [sget, if_neg (by omega)]
    · rw [List.filter_cons_of_neg (by simpa using hk), ih]
      refine if_ctx_congr Iff.rfl (fun hr => ?_) (fun _ => rfl)
      rw [sget, if_neg (by omega)]

theorem Mem.sparseFrom_moved (m : Sparse Byte) (src dst n : Nat) {lo : Nat} (w : sparseFrom lo m = true) :
    sparseFrom (lo - src + dst) (Mem.moved m src dst n) = true := by
  unfold Mem.moved
  induction m generalizing lo with
  | nil => rfl
  | cons e t ih =>
    obtain ⟨k, v⟩ := e
    simp only [sparseFrom, Bool.and_eq_true, decide_eq_true_eq] at w
    have iht := ih w.2
    by_cases hk : src ≤ k ∧ k < src + n
    · rw [List.filter_cons_of_pos (by simpa using hk), List.map_cons]
      simp only [sparseFrom, Bool.and_eq_true, decide_eq_true_eq]
      exact ⟨by omega, by rwa [show k + 1 - src + dst = k - src + dst + 1 by omega] at iht⟩
    · rw [List.filter_cons_of_neg (by simpa using hk)]
      exact sparseFrom_mono _ (by omega) iht

/-- A copy within device memory: the target holds the source's bytes, every other byte stays. -/
theorem Mem.rd1_copyHbm (m : Mem) (src dst n x : Nat) (w : sparseWf m.hbm = true) :
    rd1 (m.copyHbm src dst n).hbm x = if dst ≤ x ∧ x < dst + n then rd1 m.hbm (x - dst + src) else rd1 m.hbm x := by
  have hz : sparseWf (m.zeroHbm dst (dst + n)).hbm = true := sparseWf_sclear _ _ _ w
  have hcopy : rd1 (m.copyHbm src dst n).hbm x = (sget (Mem.moved m.hbm src dst n) x).getD (rd1 (m.zeroHbm dst (dst + n)).hbm x) :=
    rd1_foldl_wr1 _ (Mem.sparseFrom_moved m.hbm src dst n w) _ hz x
  rw [hcopy, Mem.sget_moved, Mem.zeroHbm_rd1]
  split
  · rfl
  · rfl

/-! ## Marked slots -/

/-- A READY slot that no entry names is marked; with no call on it, it is FREE at once (R249). -/
theorem Call.mark_ready (c : Call) {n : Nat} {x : AdpSlot} (w : sparseWf c.adpSlots = true) (h : sget c.adpSlots n = some x) (hr : x.ready = true) :
    (∀ k, k ≠ n → sget (c.mark n).adpSlots k = sget c.adpSlots k) ∧
    sget (c.mark n).adpSlots n = (if x.refs = 0 then none else some { x with retire := true }) ∧ (c.mark n).adpDir = c.adpDir := by
  have hw : sparseWf (sput c.adpSlots n { x with retire := true }) = true := sparseWf_sput _ _ _ w
  by_cases hz : x.refs = 0
  · have heq : c.mark n = { c with adpSlots := sdel (sput c.adpSlots n { x with retire := true }) n } := by
      simp [Call.mark, h, hr, Call.retireFree, hz]
    rw [heq, if_pos hz]
    exact ⟨fun k hk => (sget_sdel_ne _ hk).trans (sget_sput_ne _ _ hk), sget_sdel_self _ _ hw, rfl⟩
  · have heq : c.mark n = { c with adpSlots := sput c.adpSlots n { x with retire := true } } := by
      simp [Call.mark, h, hr, Call.retireFree, hz]
    rw [heq, if_neg hz]
    exact ⟨fun k hk => sget_sput_ne _ _ hk, sget_sput_self .., rfl⟩

theorem Call.mark_of_free (c : Call) {n : Nat} (h : sget c.adpSlots n = none) : c.mark n = c := by simp [Call.mark, h]

theorem Call.mark_of_loading (c : Call) {n : Nat} {x : AdpSlot} (h : sget c.adpSlots n = some x) (hr : x.ready = false) : c.mark n = c := by
  simp [Call.mark, h, hr]

/-- Marking a slot leaves every slot but that one. -/
theorem Call.sget_mark_ne (c : Call) {n k : Nat} (hk : k ≠ n) : sget (c.mark n).adpSlots k = sget c.adpSlots k := by
  simp only [Call.mark, Call.retireFree]
  (repeat' split) <;> simp [sget_sput_ne _ _ hk, sget_sdel_ne _ hk]

theorem Call.mark_adpDir (c : Call) (n : Nat) : (c.mark n).adpDir = c.adpDir := by
  simp only [Call.mark, Call.retireFree]
  (repeat' split) <;> rfl

/-! ## The load -/

section
variable {n t src : Nat}

theorem adapterLoadDone_of_cause (hup : d.up = true) (hj : d.call.adpJob = some (n, t, src)) (hc : d.imageCause (adpStagingBase + 4096 * src) ≠ 0) :
    adapterLoadDone d = (d.modCall fun c => { c with adpJob := none, adpCause := d.imageCause (adpStagingBase + 4096 * src), adpErr := true,
                                                     adpSlots := sdel c.adpSlots n }).event .adapter := by
  have hc' : (d.imageCause (adpStagingBase + 4096 * src) != 0) = true := by simpa using hc
  simp only [adapterLoadDone, hj, hup, hc']
  rfl

theorem adapterLoadDone_of_ok (hup : d.up = true) (hj : d.call.adpJob = some (n, t, src)) (hc : d.imageCause (adpStagingBase + 4096 * src) = 0) :
    adapterLoadDone d = ((d.modCall fun c =>
        { c with adpJob := none, adpCause := 0, adpDone := true,
                 adpSlots := sput c.adpSlots n { ready := true, tenant := t, version := BitVec.ofNat 32 (d.img (adpStagingBase + 4096 * src) 4 4) } }).modMem
      fun m => m.copyHbm (adpStagingBase + 4096 * src) (adpSlotBase n) (d.img (adpStagingBase + 4096 * src) 0xC 4)).event .adapter := by
  simp only [adapterLoadDone, hj, hup, hc]
  rfl
end

/-! ## The directory -/

/-- A directory write that takes effect; the slot that its entry named is marked when no entry names it any more. -/
theorem callAdpDirWrite_eq {entry slot : Nat} {valid : Bool} (hup : d.up = true)
    (h : valid = true → ∃ x, sget d.call.adpSlots slot = some x ∧ x.ready = true ∧ x.retire = false) :
    callAdpDirWrite entry slot valid d = d.modCall fun c =>
      let e : Call := { c with adpDir := sput c.adpDir entry (slot, valid) }
      if (sgetD c.adpDir entry (0, false)).2 && !e.named (sgetD c.adpDir entry (0, false)).1 then e.mark (sgetD c.adpDir entry (0, false)).1 else e := by
  rw [callAdpDirWrite, if_neg (by simp [hup])]
  refine congrArg (fun c => { d with call := c }) (if_neg ?_)
  cases valid with
  | false => simp
  | true =>
    obtain ⟨x, hx, hr, hm⟩ := h rfl
    simp [hx, hr, hm]

theorem mem_of_sget {α : Type} (m : Sparse α) {k : Nat} {v : α} (h : sget m k = some v) : (k, v) ∈ m := by
  induction m with
  | nil => exact nomatch h
  | cons e t ih =>
    obtain ⟨k', v'⟩ := e
    rw [sget] at h
    split at h
    next hk =>
      obtain rfl := Option.some.inj h
      exact hk ▸ List.mem_cons_self
    next => exact List.mem_cons_of_mem _ (ih h)

theorem Call.named_iff (c : Call) (n : Nat) (w : sparseWf c.adpDir = true) : c.named n = true ↔ ∃ j, sget c.adpDir j = some (n, true) := by
  simp only [Call.named, List.any_eq_true, beq_iff_eq]
  constructor
  · rintro ⟨⟨j, v⟩, hm, rfl⟩
    exact ⟨j, sget_of_mem _ w hm⟩
  · rintro ⟨j, hj⟩
    exact ⟨_, mem_of_sget _ hj, rfl⟩

/-! ## The statement -/

/-- Settles O60, command by command. -/
theorem adaptersLoadServeAndRetire : Obligations.AdaptersLoadServeAndRetire := by
  intro s hup hws hwd c others
  refine ⟨fun n t => ⟨fun hx => State.gives_onDev rfl ?_, fun hx hf => ?_, fun hx hf => ?_⟩, fun hj => State.gives_onDev rfl ?_, ?_, ?_, ?_⟩
  · have hx' : s.dev.call.adpJob.isSome = true := hx
    simp [callAdpLoad, hup, hx', Dev.modCall, c]
  · have hx' : s.dev.call.adpJob = none := hx
    have hf' : sget s.dev.call.adpSlots n.toNat = none := hf
    have heq : callAdpLoad n.toNat t.toNat s.dev = s.dev.modCall fun c => { c with
        adpSlot := n, adpTenant := t, adpJob := some (n.toNat, t.toNat, c.adpSrc.toNat), adpSlots := sput c.adpSlots n.toNat { tenant := t.toNat } } := by
      simp [callAdpLoad, hup, hx', hf', Dev.modCall]
    exact ⟨_, State.gives_onDev rfl heq, sget_sput_self .., rfl, rfl, fun k hk => sget_sput_ne _ _ hk, rfl⟩
  · have hx' : s.dev.call.adpJob = none := hx
    have hf' : (sget s.dev.call.adpSlots n.toNat).isSome = true := hf
    have heq : callAdpLoad n.toNat t.toNat s.dev = (s.dev.modCall fun c => { c with
        adpSlot := n, adpTenant := t, adpErr := true, adpCause := 1 }).event .adapter := by
      simp [callAdpLoad, hup, hx', hf', Dev.modCall]
    refine ⟨_, State.gives_onDev rfl heq, ?_⟩
    simp only [Dev.event_call, Dev.event_mem]
    exact ⟨rfl, rfl, rfl, hx', rfl, rfl⟩
  · have hj' : s.dev.call.adpJob = none := hj
    simp [adapterLoadDone, hj']
  · intro n t src hj b
    refine ⟨fun hc => ?_, fun hc hn hs hm => ?_⟩
    · refine ⟨_, State.gives_onDev rfl (adapterLoadDone_of_cause hup hj hc), ?_⟩
      simp only [Dev.event_call, Dev.event_mem]
      exact ⟨rfl, rfl, rfl, sget_sdel_self _ _ hws, fun k hk => sget_sdel_ne _ hk, rfl, rfl⟩
    · have hw : sparseWf s.dev.mem.hbm = true := by
        simp only [Mem.wf, cellsWf, Bool.and_eq_true] at hm
        exact hm.1.1.1.1.1
      refine ⟨_, State.gives_onDev rfl (adapterLoadDone_of_ok hup hj hc), ?_⟩
      simp only [Dev.event_call, Dev.event_mem]
      refine ⟨rfl, rfl, rfl, sget_sput_self .., fun k hk => sget_sput_ne _ _ hk, fun i hi => ?_, fun x hx => ?_⟩
      · refine (Mem.rd1_copyHbm _ _ _ _ _ hw).trans ?_
        rw [if_pos ⟨Nat.le_add_right .., Nat.add_lt_add_left hi _⟩, Nat.add_sub_cancel_left, Nat.add_comm i]
        rfl
      · refine (Mem.rd1_copyHbm _ _ _ _ _ hw).trans (if_neg ?_)
        intro h
        rcases hx with hx | hx
        · exact absurd h.1 (Nat.not_le.mpr hx)
        · exact absurd h.2 (Nat.not_lt.mpr hx)
  · intro n k
    refine ⟨fun hn => State.gives_onDev rfl ?_, fun hf => State.gives_onDev rfl ?_,
      fun x hx hn => ⟨fun hr => State.gives_onDev rfl ?_, fun hr => ?_⟩⟩
    · simp [retireReq, hup, show s.dev.call.named n.toNat = true from hn, Dev.modCall]
    · have hmark : s.dev.call.mark n.toNat = s.dev.call := Call.mark_of_free _ hf
      simp [retireReq, hup, hmark, Dev.modCall]
    · have hmark : s.dev.call.mark n.toNat = s.dev.call := Call.mark_of_loading _ hx hr
      simp [retireReq, hup, hmark, Dev.modCall]
    · have heq : retireReq n.toNat s.dev = s.dev.modCall fun c => c.mark n.toNat := by
        simp [retireReq, hup, show s.dev.call.named n.toNat = false from hn, Dev.modCall]
      obtain ⟨hother, hslot, hdir⟩ := s.dev.call.mark_ready hws hx hr
      exact ⟨_, State.gives_onDev rfl heq, ⟨hother, rfl⟩, hdir, hslot⟩
  · intro e n k
    refine ⟨fun hno => State.gives_onDev rfl ?_, fun x hx hr hm => ?_, fun old x he hu hx hr => ?_⟩
    · refine (if_neg (by simp [hup])).trans (congrArg (fun c => { s.dev with call := c }) (if_pos ?_))
      cases hx : sget s.dev.call.adpSlots n.toNat with
      | none => rfl
      | some x =>
        rcases hno x hx with h | h <;> simp [h]
    · refine ⟨_, State.gives_onDev rfl (callAdpDirWrite_eq hup fun _ => ⟨x, hx, hr, hm⟩), ?_⟩
      simp only [Dev.modCall_call]
      split
      next hmark =>
        simp only [Bool.and_eq_true, Bool.not_eq_true'] at hmark
        rw [Call.mark_adpDir]
        refine ⟨sget_sput_self .., fun j hj => sget_sput_ne _ _ hj, (Call.sget_mark_ne _ fun hk => ?_).trans hx⟩
        have hnamed : Call.named { s.dev.call with adpDir := sput s.dev.call.adpDir e.toNat (n.toNat, true) } n.toNat = true :=
          (Call.named_iff _ _ (sparseWf_sput _ _ _ hwd)).mpr ⟨e.toNat, sget_sput_self ..⟩
        rw [← hk] at hmark
        exact Bool.false_ne_true (hmark.2.symm.trans hnamed)
      next => exact ⟨sget_sput_self .., fun j hj => sget_sput_ne _ _ hj, hx⟩
    · have he' : sgetD s.dev.call.adpDir e.toNat (0, false) = (old, true) := by simp [sgetD, show sget s.dev.call.adpDir e.toNat = _ from he]
      have hnamed : Call.named { s.dev.call with adpDir := sput s.dev.call.adpDir e.toNat (n.toNat, false) } old = false := by
        rw [Bool.eq_false_iff]
        intro hn
        obtain ⟨j, hj⟩ := (Call.named_iff _ _ (sparseWf_sput _ _ _ hwd)).mp hn
        rw [sget_sput] at hj
        split at hj
        · simp at hj
        next hne => exact hu j hne hj
      have heq : callAdpDirWrite e.toNat n.toNat false s.dev = s.dev.modCall fun c =>
          Call.mark { c with adpDir := sput c.adpDir e.toNat (n.toNat, false) } old := by
        refine (@callAdpDirWrite_eq s.dev e.toNat n.toNat false hup (fun h => absurd h Bool.false_ne_true)).trans (congrArg (fun c => { s.dev with call := c }) ?_)
        simp only [he', hnamed]
        rfl
      obtain ⟨hother, hslot, hdir⟩ := @Call.mark_ready { s.dev.call with adpDir := sput s.dev.call.adpDir e.toNat (n.toNat, false) } old x hws hx hr
      exact ⟨_, State.gives_onDev rfl heq, (congrArg (sget · e.toNat) hdir).trans (sget_sput_self ..), ⟨hother, rfl⟩, hslot⟩

end Sys2Proof.Machine
end

section
/-! PROOF. Exact mode (R142 to R145): how a job starts, is given up, and completes. -/
namespace Sys2Proof.Machine
variable {d : Dev}

theorem length_flatMap_le {α β : Type} {f : α → List β} {n : Nat} (hf : ∀ a, (f a).length ≤ n) (l : List α) : (l.flatMap f).length ≤ n * l.length := by
  induction l with
  | nil => simp
  | cons a l ih =>
    have := hf a
    rw [List.flatMap_cons, List.length_append, List.length_cons, Nat.mul_succ]
    omega

theorem shake256_length (bs : List Byte) : (shake256 bs).length = 32 := by simp [shake256, leBytes]

theorem Dev.event_exact_bit (d : Dev) : (d.event .exact).host.evtStatus.getLsbD 6 = true := by
  rw [Dev.event_status, BitVec.getLsbD_or, Bool.or_eq_true]
  exact .inr (by decide)

/-- At most 512 errors of each captured phase are above the bound (R144). -/
theorem Dev.arrayResult_over (d : Dev) (key : Nat) : (d.arrayResult key).over_ ≤ 512 * d.tile.exact.phases.length := by
  simp only [Dev.arrayResult]
  split
  · exact Nat.zero_le _
  · exact (List.length_filter_le _ _).trans (length_flatMap_le (fun p => by simp [Dev.phaseErrors]) _)

theorem Dev.exactFail_of_job {y} (h : d.tile.exact.job = some y) (cause : Nat) : d.exactFail cause =
    (d.modTile fun t => { t with exact := { t.exact with job := none, err := true, cause := cause } }).event .exact := by
  simp only [Dev.exactFail, h]

theorem Dev.exactFail_of_none (h : d.tile.exact.job = none) (cause : Nat) : d.exactFail cause = d := by
  simp only [Dev.exactFail, h]

/-- What giving up a running job leaves (R143). -/
theorem Dev.exactFail_running (h : d.tile.exact.job.isSome = true) (cause : Nat) :
    (d.exactFail cause).tile = { d.tile with exact := { d.tile.exact with job := none, err := true, cause := cause } } ∧
    (d.exactFail cause).host.evtStatus.getLsbD 6 = true ∧ (d.exactFail cause).mem = d.mem := by
  obtain ⟨y, hy⟩ := Option.isSome_iff_exists.mp h
  rw [Dev.exactFail_of_job hy]
  exact ⟨by simp, Dev.event_exact_bit _, by simp⟩

/-- START of a job: ignored but for KIND while one runs, refused without an exact pool (R142). -/
theorem exactStart_spec (hup : d.up = true) (layer : Bool) :
    let x := d.tile.exact
    let y : Exact := { x with kind := if layer then 1 else 0 }
    (x.job.isSome = true → exactStart layer d = { d with tile := { d.tile with exact := y } }) ∧
    (x.job = none → d.exactPool = true → exactStart layer d = { d with tile := { d.tile with exact :=
      { y with job := some (layer, if layer then x.layer.toNat else 16 * x.tile.toNat + x.slot.toNat, if layer then x.session.toNat else 0),
               startFrame := d.frm.frame, phases := [], chains := [], step := false } } }) ∧
    (x.job = none → d.exactPool = false → (exactStart layer d).tile.exact.job = none ∧ (exactStart layer d).tile.exact.err = true ∧
      (exactStart layer d).tile.exact.cause = 1 ∧ (exactStart layer d).host.evtStatus.getLsbD 6 = true) := by
  refine ⟨fun hj => ?_, fun hj hp => ?_, fun hj hp => ?_⟩
  · simp only [exactStart, hup, Bool.not_true, Bool.false_eq_true, if_false, Dev.modTile]
    exact if_pos hj
  · have hp' (t : Tile) : Dev.exactPool { d with tile := t } = true := hp
    simp only [exactStart, hup, Bool.not_true, Bool.false_eq_true, if_false, Dev.modTile, hj, hp', Option.isSome_none]
    rfl
  · have hp' (t : Tile) : Dev.exactPool { d with tile := t } = false := hp
    simp only [exactStart, hup, Bool.not_true, Bool.false_eq_true, if_false, Dev.modTile, hj, hp', Option.isSome_none]
    set e : Dev := { d with tile := { d.tile with exact := _ } } with he
    obtain ⟨ht, hev, _⟩ := @Dev.exactFail_running e rfl 1
    exact ⟨congrArg (·.exact.job) ht, congrArg (·.exact.err) ht, congrArg (·.exact.cause) ht, hev⟩

/-- A running job that a command gives up. -/
theorem gives_exactFail {c : Instr} {s : State} {cause : Nat} (f : Dev → Dev) (hc : exec c s = s.onDev f) (hf : f s.dev = s.dev.exactFail cause) :
    (s.dev.tile.exact.job = none → Gives c s s.dev) ∧
    (s.dev.tile.exact.job.isSome = true → GivesWith c s fun d =>
      d.tile = { s.dev.tile with exact := { s.dev.tile.exact with job := none, err := true, cause := cause } } ∧
      d.host.evtStatus.getLsbD 6 = true ∧ d.mem = s.dev.mem) :=
  ⟨fun hj => State.gives_onDev hc (hf.trans (Dev.exactFail_of_none hj cause)), fun hj => ⟨_, State.gives_onDev hc hf, Dev.exactFail_running hj cause⟩⟩

/-- Settles O40: START, the ends with a cause, the two completions, and the mode requests. -/
theorem exactModeJobsRunAndEnd : Obligations.ExactModeJobsRunAndEnd := by
  intro s hup x
  refine ⟨?_, ?_, ?_, ?_, ?_, State.gives_onDev rfl (if_pos hup), State.gives_onDev rfl (if_pos hup), State.gives_onDev rfl (if_pos hup)⟩
  · rintro layer c rfl y
    obtain ⟨hrun, hstart, hno⟩ := exactStart_spec hup layer
    have hc : exec (if layer then .exactLayerJob else .exactArrayJob) s = s.onDev (exactStart layer) := by cases layer <;> rfl
    exact ⟨fun hj => State.gives_onDev hc (hrun hj), fun hj hp => State.gives_onDev hc (hstart hj hp), fun hj hp => ⟨_, State.gives_onDev hc rfl, hno hj hp⟩⟩
  · rintro c cause (⟨rfl, rfl⟩ | ⟨rfl, rfl, hf, hp, hst⟩)
    · exact gives_exactFail exactAbort rfl (if_pos hup)
    · exact gives_exactFail exactJobTimeout rfl (if_pos (by simp [hup, hf, hp, hst, x]))
  · intro h
    refine State.gives_onDev rfl (if_neg ?_)
    rcases h with h | h | h
    · simp [x, Nat.not_le.mpr h]
    · simp [x, h]
    · simp [x, h]
  · intro k n hj
    have heq : exactJobDone s.dev = if s.dev.tile.exact.phases.length < 4096 then s.dev else
        (s.dev.modTile fun t => { t with exact := s.dev.arrayResult k }).event .exact := by
      simp only [exactJobDone, hup, show s.dev.tile.exact.job = some (false, k, n) from hj]
      rfl
    refine ⟨fun h => State.gives_onDev rfl (heq.trans (if_pos h)), fun h => ⟨_, State.gives_onDev rfl (heq.trans (if_neg (Nat.not_lt.mpr h))), ?_⟩⟩
    have ht := Dev.event_tile (s.dev.modTile fun t => { t with exact := s.dev.arrayResult k }) .exact
    beta_reduce
    rw [ht]
    exact ⟨rfl, rfl, rfl, s.dev.arrayResult_over k, Dev.event_exact_bit _, rfl, by simp⟩
  · intro k n hj hst hout
    have hany : (s.dev.tile.exact.chains.any fun c => c.out.isEmpty) = false := by simpa [x] using hout
    have heq : exactJobDone s.dev = ((s.dev.modTile fun t => { t with exact := s.dev.layerResult }).useFree 2).event .exact := by
      simp only [exactJobDone, hup, show s.dev.tile.exact.job = some (true, k, n) from hj, show s.dev.tile.exact.step = true from hst, hany]
      rfl
    refine ⟨_, State.gives_onDev rfl heq, ?_⟩
    have ht := Dev.event_tile ((s.dev.modTile fun t => { t with exact := s.dev.layerResult }).useFree 2) .exact
    beta_reduce
    rw [ht]
    exact ⟨rfl, rfl, shake256_length _, rfl, Dev.event_exact_bit _, rfl, by simp [Dev.useFree]⟩

end Sys2Proof.Machine
end

section
/-! PROOF. Commands of the error unit, the powered hours and scores of histories, and the re-read of a location (R404, R417 to R421). -/
namespace Sys2Proof.Machine
variable {d : Dev}

/-! ## Counters, the stack and the ring head -/

theorem sget_map_snd {α : Type} (f : Nat → α → α) (m : Sparse α) (k : Nat) : sget (m.map fun x => (x.1, f x.1 x.2)) k = (sget m k).map (f k) := by
  induction m with
  | nil => rfl
  | cons x m ih =>
    rw [List.map_cons, sget, sget]
    split
    · next h => rw [h]; rfl
    · exact ih

theorem clearVerdicts_verdict (m : Sparse Hist) {k : Nat} {h : Hist} (hk : sget (clearVerdicts m) k = some h) : spareKind k = true ∨ h.verdict = 0 := by
  rw [show sget (clearVerdicts m) k = _ from sget_map_snd (fun k (h : Hist) => if spareKind k && h.verdict == 2 then h else { h with verdict := 0 }) m k] at hk
  obtain ⟨h₀, -, rfl⟩ := Option.map_eq_some_iff.mp hk
  split
  · next hc => exact .inl (Bool.and_eq_true_iff.mp hc).1
  · exact .inr rfl

theorem clearVerdicts_keys (m : Sparse Hist) : (clearVerdicts m).map Prod.fst = m.map Prod.fst := by
  simp only [clearVerdicts, List.map_map]
  exact List.map_congr_left fun x _ => by rfl

/-- What a move of the ring head keeps while held records are copied. -/
structure Advanced (e e' : Err) : Prop where
  held : ∀ q ∈ e'.held, q ∈ e.held
  rest : { e' with held := e.held, ring := e.ring, tail := e.tail } = e

theorem Err.advance_spec (e : Err) (n : Word) : (e.advance n).head = n ∧ (∀ q ∈ (e.advance n).held, q ∈ e.held) ∧
    (e.advance n).nextSeq = e.nextSeq ∧ (e.advance n).cnt = e.cnt := by
  unfold Err.advance
  extract_lets passed e₁ e₂
  have h : Advanced e₁ e₂ := Machine.foldl_keeps (Advanced e₁) _ (fun x q hx => by
    dsimp only
    split
    · have hf : ∀ r ∈ x.held.filter fun y => y != q, r ∈ e₁.held := fun r hr => hx.held r (List.mem_filter.mp hr).1
      split
      · exact ⟨hf, hx.rest⟩
      · exact ⟨hf, hx.rest⟩
    · exact hx) e₁.held e₁ ⟨fun _ h => h, rfl⟩
  exact ⟨congrArg Err.head h.rest, h.held, (congrArg Err.nextSeq h.rest :), (congrArg Err.cnt h.rest :)⟩

theorem halves_iff (n : Nat) : halves n = true ↔ n ≠ 0 ∧ 168 ∣ n := by
  simp [halves, Nat.dvd_iff_mod_eq_zero]

/-! ## A location mapped out leaves the table of recent locations -/

theorem Err.pushStack_locs (e : Err) (r) : (e.pushStack r).locs = e.locs := by
  unfold Err.pushStack
  (repeat' split) <;> rfl

theorem Err.pushRing_locs (e : Err) (r) : (e.pushRing r).locs = e.locs := by
  have lost (e : Err) (seq : Nat) : (if e.inStack seq then e else e.count 7).locs = e.locs := by split <;> rfl
  unfold Err.pushRing
  split
  · rfl
  · dsimp only
    split
    · exact lost _ _
    · split <;> exact lost _ _

theorem Dev.record_locs (d : Dev) (i action nested) : (d.record i action nested).err.locs = d.err.locs := by
  rw [Dev.record_err]
  exact (Err.pushRing_locs _ _).trans (Err.pushStack_locs _ _)

theorem Dev.discardStep_locs (d : Dev) (s cause) : (d.discardStep s cause).err.locs = d.err.locs := by
  have hx (x : Dev) (t) : (x.exactDiscard t).err = x.err := by simp
  simp only [Dev.discardStep]
  split
  · simp [hx]
    rfl
  · simp

theorem Dev.enterStruck_locs (d : Dev) : d.enterStruck.err.locs = d.err.locs := by
  have hs : (d.discardAll 4).err.locs = d.err.locs := by
    simp only [Dev.discardAll, Dev.modFrm_err]
    have hf := Machine.foldl_keeps (fun e : Dev => e.err.locs = d.err.locs) (fun e (x : Machine.Step) => e.discardStep x.session 4)
      (fun e x he => (Dev.discardStep_locs e x.session 4).trans he) d.call.steps d rfl
    split
    · rw [Dev.exactFail_err]; exact hf
    · exact hf
  simp only [Dev.enterStruck]
  split
  · simpa [Dev.finishDrain, Dev.commitHistory] using hs
  · simpa using hs

/-- An error below the fatal class leaves the table of recent locations. -/
theorem Dev.raise_locs {d : Dev} {i : ErrIn} (h : i.cls < 3) : (d.raise i).err.locs = d.err.locs := by
  have hb (x : Dev) (seq) : (x.beginDrain seq).err.locs = x.err.locs := by
    unfold Dev.beginDrain
    extract_lets y
    split
    · rfl
    · split
      · exact y.enterStruck_locs
      · rfl
  unfold Dev.raise
  split
  · rfl
  · dsimp only
    split
    · exact Dev.record_locs ..
    · split <;> exact Dev.record_locs ..
    · (repeat' split) <;> simp [hb, Dev.record_locs, Err.count]
    next h0 h1 h2 =>
      have : i.cls ≠ 0 := h0
      have : i.cls ≠ 1 := h1
      have : i.cls ≠ 2 := h2
      omega

theorem Dev.calError_locs (d : Dev) {c : Nat} (hc : c < 3) : (d.calError c).err.locs = d.err.locs := Dev.raise_locs hc

theorem Dev.histEvent_locs (d : Dev) (k u sc th : Nat) : (d.histEvent k u sc th).1.err.locs = d.err.locs := by
  simp only [Dev.histEvent]
  split <;> rfl

theorem Dev.mapOne_locs (d : Dev) (e) : (d.mapOne e).1.err.locs = d.err.locs := by
  simp only [Dev.mapOne, Dev.calWrite]
  split
  · rfl
  · split
    · exact (Dev.calError_locs _ (by decide)).trans ((Dev.histEvent_locs ..).trans (Dev.calError_locs _ (by decide)))
    · exact (Dev.histEvent_locs ..).trans (Dev.calError_locs _ (by decide))

theorem Dev.mapOuts_locs (d : Dev) (now) : (d.mapOuts now).err.locs = d.err.locs :=
  Machine.foldl_keeps (fun e : Dev => e.err.locs = d.err.locs) _ (fun e x he => by
    dsimp only
    split
    · split <;> exact (Dev.mapOne_locs e x).trans he
    · exact he) _ d rfl

theorem Dev.hbmRowOut_locs (d : Dev) (loc : Nat) : (d.hbmRowOut loc).err.locs = d.err.locs := by
  simp only [Dev.hbmRowOut]
  (repeat' split) <;> simp [Dev.raise_locs, memErrIn]

/-- A location found lost leaves the table of recent locations as it is (R204). -/
theorem Dev.mapOut_locs (d : Dev) (store : Store) (unit loc : Nat) : (d.mapOut store unit loc).err.locs = d.err.locs := by
  have hc : d.commitHistory.err.locs = d.err.locs := rfl
  simp only [Dev.mapOut]
  split
  · exact Dev.hbmRowOut_locs ..
  · split
    · rfl
    · split
      · (repeat' split) <;> simp [Dev.mapOuts_locs, Dev.commitHistory]
      · exact Dev.raise_locs (by simp [memErrIn])

/-- Settles O17: the host commands of the error unit, the hourly commit and the halved scores, and a re-read by what it found. -/
theorem errorUnitAndHistoryCommands : Obligations.ErrorUnitAndHistoryCommands := by
  refine ⟨⟨fun s hup => ?_, fun s hup hf hw => ?_, fun s hf => ?_, fun s hup => ?_, fun s n hup => ?_, fun s hup hst => ?_, fun s h₁ h₂ => ?_⟩,
    fun s hoff => ?_, fun s k u h hoff hk hget => ?_, fun s st u loc hup ht => ?_, fun s u hoff => ?_, fun s st u loc hup ht => ?_, fun s st u loc same ht => ?_⟩
  · exact ⟨_, State.gives_onDev rfl (if_pos hup), rfl, rfl, rfl⟩
  · refine ⟨_, State.gives_onDev rfl (if_pos (by simp [hup, hf])), ?_, sget_sdel_self _ _ (sparseWf_sdel _ _ hw), fun n hn => ?_, rfl⟩
    · exact (sget_sdel_ne _ (by decide)).trans (sget_sdel_self _ _ hw)
    · exact (sget_sdel_ne _ (by omega)).trans (sget_sdel_ne _ (by omega))
  · exact State.gives_onDev rfl (if_neg (by simp [hf]))
  · exact State.gives_onDev rfl (if_pos hup)
  · obtain ⟨hh, hheld, hseq, hcnt⟩ := s.dev.err.advance_spec n
    refine ⟨_, State.gives_onDev rfl (if_pos hup), hh, hheld, hseq, hcnt, rfl, fun h => ?_⟩
    simp only [Dev.modErr, Err.advance, h, List.foldl_nil, List.isEmpty_nil, Bool.not_true, Bool.and_false]
    exact ⟨trivial, by rw [← h]⟩
  · exact ⟨_, State.gives_onDev rfl (if_pos (by simp [hup, hst])), rfl, fun k h hk => clearVerdicts_verdict _ hk, clearVerdicts_keys _, rfl⟩
  · exact State.gives_onDev rfl (if_neg (by simp [h₁, h₂]))
  · have heq := show historyHourlyCommit s.dev = _ from if_neg hoff
    cases hup : s.dev.up
    · exact ⟨_, State.gives_onDev rfl (heq.trans (if_neg (by rw [Bool.not_eq_true]; exact hup))), rfl, rfl, rfl, nofun, fun _ => ⟨rfl, rfl⟩, rfl⟩
    · exact ⟨_, State.gives_onDev rfl (heq.trans (if_pos hup)), rfl, rfl, rfl, fun _ => ⟨rfl, rfl, rfl⟩, nofun, rfl⟩
  · have hk' : k.toNat ≠ 17 := fun h => hk (BitVec.eq_of_toNat_eq h)
    have heq : historyScoreDecay k.toNat u.toNat s.dev = if halves h.hours then
        s.dev.modErr fun e => { e with hist := sput e.hist (histKey k.toNat u.toNat) { h with score := h.score / 2 } } else s.dev := by
      simp only [historyScoreDecay, if_neg hoff, if_neg hk', hget]
    refine ⟨fun h0 hd => ⟨_, State.gives_onDev rfl (heq.trans (if_pos ((halves_iff _).mpr ⟨h0, hd⟩))), sget_sput_self .., fun j hj => sget_sput_ne _ _ hj, rfl⟩,
      fun hn => State.gives_onDev rfl (heq.trans (if_neg ?_))⟩
    rw [halves_iff]
    tauto
  · have heq : locationReread st u loc false s.dev = s.dev.modErr fun e => e.endTest st (locUnit st u loc) loc := by
      simp only [locationReread, hup, ht]
      rfl
    refine ⟨_, State.gives_onDev rfl heq, fun l hl his => ?_, List.length_map .., rfl⟩
    obtain ⟨l₀, -, rfl⟩ := List.mem_map.mp hl
    split at his
    next h => rw [if_pos h]
    next h => exact absurd his h
  · refine ⟨_, State.gives_onDev rfl ((if_neg hoff).trans (if_pos rfl)), by simp [Dev.modErr], fun n hn => ?_, fun l hl => ?_, rfl⟩
    · simp only [Dev.modErr, List.getElem?_map, List.getElem?_zipIdx]
      cases s.dev.err.locs[n]? with
      | none => rfl
      | some l => simp [hn]
    · simp only [Dev.modErr, List.getElem?_map, List.getElem?_zipIdx, hl, Option.map_some]
      simp [halves_iff]
  · intro e
    have heq : locationReread st u loc true s.dev = (s.dev.modErr fun x => x.endTest st (locUnit st u loc) loc).mapOut st u loc := by
      simp only [locationReread, hup, ht]
      rfl
    refine ⟨_, State.gives_onDev rfl heq, Dev.mapOut_locs .., fun hst he hroom => ?_⟩
    have hm : mapsAtOnce st = false ∧ st ≠ .hbm ∧ locUnit st u loc = u := by
      rcases hst with rfl | rfl | rfl <;> exact ⟨rfl, by decide, rfl⟩
    obtain ⟨hm, hne, hu⟩ := hm
    have he' : (s.dev.mem.mapNext.contains (st, locUnit st u loc, mapLoc st loc)) = false := by simpa [e] using he
    simp only [Dev.mapOut, if_neg hne, hm, hu] at he' ⊢
    rw [if_neg (by rw [Bool.not_eq_true]; exact he'), if_pos (by exact hroom)]
    simp only [Bool.false_eq_true, if_false, e, hu]
    split <;> exact ⟨rfl, rfl, rfl⟩
  · refine State.gives_onDev rfl ?_
    simp only [locationReread, ht]
    split <;> rfl

end Sys2Proof.Machine
end

section
/-! PROOF. Signed requests (R456 to R463): what a re-lease clears, and how a request is answered. -/
namespace Sys2Proof.Machine
variable {d : Dev}

/-! ## What is cleared -/

theorem Dev.unloadScript_script (d : Dev) : d.unloadScript.scr.script = none := by
  simp only [Dev.unloadScript, Dev.modWts_scr, Dev.dropWeights_scr, Dev.modFrm_scr, Dev.modScr_scr]

/-- Every store is empty and no script is loaded (R459). -/
structure Wiped (d : Dev) : Prop where
  hbm : d.mem.hbm = []
  wings : d.mem.wings = []
  localBuf : d.mem.localBuf = []
  prompter : d.mem.prompter = []
  apron : d.mem.apron = []
  script : d.scr.script = none

theorem Wiped.congr {d e : Dev} (h : Wiped d) (hm : e.mem = d.mem) (hs : e.scr = d.scr) : Wiped e :=
  ⟨hm ▸ h.hbm, hm ▸ h.wings, hm ▸ h.localBuf, hm ▸ h.prompter, hm ▸ h.apron, hs ▸ h.script⟩

/-- What clearing memory zeroes and forgets, the script apart (R459). -/
def Dev.wipe (d : Dev) : Dev :=
  let d := d.modMem fun m => { m.zeroAll with spill := [], owner := [] }
  let d := d.modCall fun c => { c with cache := [], summary := [], ready := [], init := [], empty := [], again := [] }
  d.modErr fun e => { e with ring := [] }

theorem Dev.wipe_wiped {d : Dev} (h : d.scr.script = none) : Wiped d.wipe := ⟨rfl, rfl, rfl, rfl, rfl, h⟩

theorem Dev.clearMemory_eq (d : Dev) : d.clearMemory = (d.endFrames d.openLen).unloadScript.wipe := by
  unfold Dev.clearMemory Dev.wipe
  rfl

theorem Dev.clearMemory_wiped (d : Dev) : Wiped d.clearMemory := by
  rw [Dev.clearMemory_eq]
  exact Dev.wipe_wiped (Dev.unloadScript_script _)

/-- The arrays at their end of life are told and retired; their cells stay as they are. -/
theorem Dev.retireWorn_cells (d : Dev) (worn old : List (Nat × Arr)) :
    (old.foldl (fun d a => d.retire a.1) (worn.foldl (fun d a => (d.modArr a.1 fun x => { x with worn := true }).arrayError 0x020A 0 a.1 [] none 0 false) d)).tile.cells =
      d.tile.cells :=
  (Dev.foldl_cells (fun x (a : Nat × Arr) => x.retire_cells a.1) old _).trans
    (Dev.foldl_cells (fun x (a : Nat × Arr) => by simp) worn d)

theorem Dev.releaseArrays_cells (d : Dev) : d.releaseArrays.tile.cells = [] := by
  unfold Dev.releaseArrays
  extract_lets arrs d₁ d₂
  have h : d₁.tile.cells = [] := by simp only [d₁, Dev.modTile_tile]
  clear_value arrs d₁
  exact (d₁.retireWorn_cells _ _).trans h

/-- What a re-lease takes of the weights, the herd and the records (R459). -/
def Dev.leaseEnd (d : Dev) : Dev :=
  let d := d.modWts fun w => { w with epoch := 0, lastDigest := [], cur := none, next := none, own := [], ownBegun := [], job := none }
  (d.modMesh fun m => { m with herd := 0xFF, x := 0, y := 0 }).modErr Err.emptied

theorem Dev.reLease_eq (d : Dev) : d.reLease = d.clearMemory.releaseArrays.leaseEnd := by
  unfold Dev.reLease Dev.leaseEnd
  rfl

/-- A re-lease leaves nothing of the tenant (R459): no byte, script, record, cell or manifest, and no place in a herd. -/
structure Leased (d : Dev) : Prop extends Wiped d where
  stack : d.err.stack = []
  cells : d.tile.cells = []
  cur : d.wts.cur = none
  next : d.wts.next = none
  epoch : d.wts.epoch = 0
  herd : d.mesh.herd = 0xFF
  x : d.mesh.x = 0
  y : d.mesh.y = 0

theorem Dev.leaseEnd_leased {d : Dev} (hw : Wiped d) (hc : d.tile.cells = []) : Leased d.leaseEnd :=
  ⟨⟨hw.hbm, hw.wings, hw.localBuf, hw.prompter, hw.apron, hw.script⟩, rfl, hc, rfl, rfl, rfl, rfl, rfl, rfl⟩

theorem Dev.reLease_leased (d : Dev) : Leased d.reLease := by
  have hw : Wiped d.clearMemory.releaseArrays := d.clearMemory_wiped.congr (Dev.releaseArrays_mem _) (Dev.releaseArrays_scr _)
  rw [Dev.reLease_eq]
  exact Dev.leaseEnd_leased hw (Dev.releaseArrays_cells _)

/-! ## Answers -/

/-- A request that its state, its signature or its start-up does not allow. -/
theorem Dev.doeSigned_state {a ok signed} (f : Dev → Dev) (hd : d.doeOk = true) (hst : d.sec.st ≠ .dark) (hok : ok = false) :
    d.doeSigned a ok signed f = d.doeError a.tag 2 := by
  simp [Dev.doeSigned, Dev.doeCause, hd, hst, hok]

theorem Dev.doeSigned_signature {a ok signed} (f : Dev → Dev) (hd : d.doeOk = true) (hst : d.sec.st ≠ .dark) (hok : ok = true) (hs : signed = false) :
    d.doeSigned a ok signed f = d.doeError a.tag 3 := by
  simp [Dev.doeSigned, Dev.doeCause, hd, hst, hok, hs]

theorem Dev.doeSigned_unbound {a ok signed} (f : Dev → Dev) (hd : d.doeOk = true) (hst : d.sec.st ≠ .dark) (hok : ok = true) (hs : signed = true)
    (hb : d.bound a = false) : d.doeSigned a ok signed f = d.doeError a.tag 5 := by
  simp [Dev.doeSigned, Dev.doeCause, hd, hst, hok, hs, hb]

/-- The three answers of a request in its state. -/
theorem gives_doeSigned {c : Instr} {s : State} {a : DoeAuth} {ok signed : Bool} {f : Dev → Dev} {p : Dev → Prop} (g : Dev → Dev) (hc : exec c s = s.onDev g)
    (hg : g s.dev = s.dev.doeSigned a ok signed f) (hd : s.dev.doeOk = true) (hst : s.dev.sec.st ≠ .dark) (hok : ok = true)
    (hp : p ((f s.dev).doeDone a.tag)) :
    (signed = false → Gives c s (s.dev.doeError a.tag 3)) ∧ (signed = true → s.dev.bound a = false → Gives c s (s.dev.doeError a.tag 5)) ∧
    (signed = true → s.dev.bound a = true → GivesWith c s fun d => d.host.doeResp = doeObject 0x83 a.tag [] ∧ p d) :=
  ⟨fun hs => State.gives_onDev hc (hg.trans (Dev.doeSigned_signature f hd hst hok hs)),
    fun hs hb => State.gives_onDev hc (hg.trans (Dev.doeSigned_unbound f hd hst hok hs hb)),
    fun hs hb => ⟨_, State.gives_onDev hc (hg.trans (@Dev.doeSigned_run s.dev a ok signed f hd hst hok hs hb)), rfl, hp⟩⟩

theorem gives_doeSigned_state {c : Instr} {s : State} {a : DoeAuth} {ok signed : Bool} {f : Dev → Dev} (g : Dev → Dev) (hc : exec c s = s.onDev g)
    (hg : g s.dev = s.dev.doeSigned a ok signed f) (hd : s.dev.doeOk = true) (hst : s.dev.sec.st ≠ .dark) (hok : ok = false) :
    Gives c s (s.dev.doeError a.tag 2) := State.gives_onDev hc (hg.trans (Dev.doeSigned_state f hd hst hok))

theorem Leased.done {d : Dev} (h : Leased d) (f : Sec → Sec) (tag : Byte) : Leased ((d.modSec f).doeDone tag) :=
  ⟨⟨h.hbm, h.wings, h.localBuf, h.prompter, h.apron, h.script⟩, h.stack, h.cells, h.cur, h.next, h.epoch, h.herd, h.x, h.y⟩

theorem ownerTransfer_eq_owner (d : Dev) (a : DoeAuth) (k : Option OwnerKeys) : ownerTransfer a k d =
    d.doeSigned a ((d.sec.st == .locked || d.sec.st == .ownerDebug) && d.sec.owner.isSome && d.sys.st == .ready)
      (Config.mldsaVerify d.sec.debugKey (DoeAuth.message a 0x05 (match k with | some k => k.script ++ k.debug | none => [])) a.sig)
      fun d => d.reLease.modSec fun s => { s.toLocked with owner := k } := rfl

theorem ownerTransfer_eq (a : DoeAuth) (k : Option OwnerKeys) {o : OwnerKeys} (ho : d.sec.owner = some o) : ownerTransfer a k d =
    d.doeSigned a ((d.sec.st == .locked || d.sec.st == .ownerDebug) && d.sec.owner.isSome && d.sys.st == .ready)
      (Config.mldsaVerify o.debug (DoeAuth.message a 0x05 (match k with | some k => k.script ++ k.debug | none => [])) a.sig)
      fun d => d.reLease.modSec fun s => { s.toLocked with owner := k } := by
  rw [ownerTransfer_eq_owner, show d.sec.debugKey = o.debug by simp [Sec.debugKey, ho]]

theorem debugToken_owner_eq (a : DoeAuth) (l : BitVec 2) : debugToken a false l d =
    d.doeSigned a (d.sec.st == .locked && d.sec.owner.isSome && (l == 1 || l == 2))
      (d.sec.owner.isSome && Config.mldsaVerify d.sec.debugKey (DoeAuth.message a 0x06 [BitVec.ofNat 8 (b2n false + 2 * l.toNat)]) a.sig) fun d =>
      d.modSec fun s => { s with st := .ownerDebug, max := if d.sys.st = .darkHouse then 1 else l.toNat } := by
  simp only [debugToken, Bool.false_eq_true, if_false]

theorem debugToken_vendor_eq (a : DoeAuth) (l : BitVec 2) : debugToken a true l d =
    d.doeSigned a ((d.sec.st == .locked || d.sec.st == .ownerDebug) && d.sec.owner.isSome && (d.sys.st == .ready || d.sys.st == .struck))
      (d.sec.owner.isSome && Config.mldsaVerify d.sec.debugKey (DoeAuth.message a 0x06 [BitVec.ofNat 8 (1 + 2 * l.toNat)]) a.sig &&
        Config.mldsaVerify Config.vendorKey (DoeAuth.message a 0x06 [BitVec.ofNat 8 (1 + 2 * l.toNat)]) a.sig2) Dev.enterVendor := by
  simp only [debugToken, if_true, b2n]

theorem debugToken_vendor (a : DoeAuth) (l : BitVec 2) {o : OwnerKeys} (ho : d.sec.owner = some o) : debugToken a true l d =
    d.doeSigned a ((d.sec.st == .locked || d.sec.st == .ownerDebug) && d.sec.owner.isSome && (d.sys.st == .ready || d.sys.st == .struck))
      (Config.mldsaVerify o.debug (DoeAuth.message a 0x06 [BitVec.ofNat 8 (1 + 2 * l.toNat)]) a.sig &&
        Config.mldsaVerify Config.vendorKey (DoeAuth.message a 0x06 [BitVec.ofNat 8 (1 + 2 * l.toNat)]) a.sig2) Dev.enterVendor := by
  have hk : d.sec.debugKey = o.debug := by simp [Sec.debugKey, ho]
  rw [debugToken_vendor_eq, hk]
  simp only [ho, Option.isSome_some, Bool.true_and]

/-- Settles O23, request by request: the state it needs, its three answers, and what it clears. -/
theorem signedRequestsChangeOwnership : Obligations.SignedRequestsChangeOwnership := by
  intro s hd hst fails wiped leased ok a
  have hw {d : Dev} (h : Wiped d) : wiped d := ⟨h.hbm, h.wings, h.localBuf, h.prompter, h.apron, h.script⟩
  have hl (f : Sec → Sec) : leased ((s.dev.reLease.modSec f).doeDone a.tag) := by
    have h := s.dev.reLease_leased.done f a.tag
    exact ⟨hw h.toWiped, h.stack, h.cells, h.cur, h.next, h.epoch, h.herd, h.x, h.y⟩
  have hsec (f : Sec → Sec) : ((s.dev.reLease.modSec f).doeDone a.tag).sec = f s.dev.sec := by simp
  have hvendor : wiped (s.dev.enterVendor.doeDone a.tag) ∧ (s.dev.enterVendor.doeDone a.tag).sec = { s.dev.sec with st := .vendorDebug, max := 3, level := min s.dev.sec.level 1 } ∧
      (s.dev.enterVendor.doeDone a.tag).tile.cells = s.dev.tile.cells := by
    have h := s.dev.clearMemory_wiped
    exact ⟨⟨h.hbm, h.wings, h.localBuf, h.prompter, h.apron, h.script⟩, by simp [Dev.enterVendor], s.dev.clearMemory_cells⟩
  clear_value wiped leased
  refine ⟨?_, fun k => ?_, fun k => ⟨fun o ho h₁ h₂ => ?_, fun h => ?_⟩, fun l => ⟨fun o ho h₁ h₂ => ?_, fun h => ?_, fun ho => ⟨?_, ?_⟩⟩, ?_⟩
  · split
    next h => exact gives_doeSigned (lock a) rfl rfl hd hst (by simp [h]) ⟨hl _, (hsec _).trans rfl⟩
    next h => exact gives_doeSigned_state (lock a) rfl rfl hd hst (by simpa using h)
  · split
    next h => exact gives_doeSigned (ownerClaim a k) rfl rfl hd hst (by simp [h]) ⟨hl _, (hsec _).trans rfl⟩
    next h => exact gives_doeSigned_state (ownerClaim a k) rfl rfl hd hst (by simpa using h)
  · have hg := ownerTransfer_eq a k ho
    exact gives_doeSigned (ownerTransfer a k) rfl hg hd hst (by simp [ho, h₁, h₂]) ⟨hl _, (hsec _).trans rfl⟩
  · have hg := ownerTransfer_eq_owner s.dev a k
    refine gives_doeSigned_state (ownerTransfer a k) rfl hg hd hst ?_
    rcases h with h | h | h <;> simp [h]
  · have hg := debugToken_vendor a l ho
    exact gives_doeSigned (debugToken a true l) rfl hg hd hst (by simp [ho, h₁, h₂]) hvendor
  · exact gives_doeSigned_state (debugToken a false l) rfl (debugToken_owner_eq a l) hd hst (by simp [h])
  · exact gives_doeSigned_state (debugToken a true l) rfl (debugToken_vendor_eq a l) hd hst (by simp [ho])
  · exact gives_doeSigned_state (debugToken a false l) rfl (debugToken_owner_eq a l) hd hst (by simp [ho])
  · split
    next h => exact gives_doeSigned (unlock a) rfl rfl hd hst (by simp [h]) ⟨hl _, (hsec _).trans rfl⟩
    next h => exact gives_doeSigned_state (unlock a) rfl rfl hd hst (by simpa using h)

end Sys2Proof.Machine
end

section
/-! PROOF. Units on a link (R34, R336 to R341, R359, R365, R467): what each changes on the link it came by. -/
namespace Sys2Proof.Machine
variable {d : Dev}

/-! ## One link of many -/

theorem Dev.link_modLink_self (d : Dev) (n : Nat) (f : Link → Link) : (d.modLink n f).link n = f (d.link n) := sgetD_smod_self _ _ _ _

theorem Dev.link_modLink_ne (d : Dev) {n k : Nat} (f : Link → Link) (h : k ≠ n) : (d.modLink n f).link k = d.link k := sgetD_smod_ne _ _ _ _ h

theorem Dev.link_of_mesh {d e : Dev} (h : e.mesh = d.mesh) (k : Nat) : e.link k = d.link k := congrArg (fun m : Mesh => sgetD m.links k {}) h

/-- d is e but for the link n. -/
def OnLink (n : Nat) (e d : Dev) : Prop := ∀ k, k ≠ n → d.link k = e.link k

theorem OnLink.modLink {e : Dev} {n : Nat} (h : OnLink n e d) (f : Link → Link) : OnLink n e (d.modLink n f) :=
  fun k hk => (d.link_modLink_ne f hk).trans (h k hk)

theorem OnLink.of_mesh {e x : Dev} {n : Nat} (h : OnLink n e d) (hm : x.mesh = d.mesh) : OnLink n e x :=
  fun k hk => (Dev.link_of_mesh hm k).trans (h k hk)

theorem OnLink.refl (n : Nat) (d : Dev) : OnLink n d d := fun _ _ => rfl

theorem Dev.sendUnit_link (d : Dev) (n : Nat) (u : CtlUnit) : (d.sendUnit n u).link n = (d.link n).keep (ctlFlit u) := d.link_modLink_self _ _

theorem OnLink.sendUnit {e : Dev} {n : Nat} (h : OnLink n e d) (u : CtlUnit) : OnLink n e (d.sendUnit n u) := OnLink.of_mesh (h.modLink _) rfl

theorem Dev.parent_of_shape {d e : Dev} (ha : e.mesh.at_ = d.mesh.at_) (hw : ∀ n, (e.link n).working = (d.link n).working) : e.parent = d.parent := by
  have hb (b : Dir) : e.face b = d.face b := by simp only [Dev.face, Dev.working, hw]
  cases hd : d.mesh.at_ with
  | none => simp [Dev.parent, ha, hd]
  | some c => simp [Dev.parent, Dev.coord, ha, hd, hb]

theorem Dev.fromParent_of_shape {d e : Dev} (ha : e.mesh.at_ = d.mesh.at_) (hw : ∀ n, (e.link n).working = (d.link n).working) (n : Nat) :
    e.fromParent n = d.fromParent n := by
  simp only [Dev.fromParent, Dev.parent_of_shape ha hw]

theorem Dev.modLink_working (d : Dev) (n : Nat) {f : Link → Link} (h : ∀ l, (f l).st = l.st) (k : Nat) :
    ((d.modLink n f).link k).working = (d.link k).working := by
  by_cases hk : k = n
  · subst hk
    simp only [Dev.link_modLink_self, Link.working, h]
  · rw [Dev.link_modLink_ne d f hk]

/-! ## ACK -/

theorem Dev.drainTx_spec (d : Dev) (n : Nat) : ((d.drainTx n).link n).txWait = (d.link n).txWait.drop (64 - (d.link n).replayBuf.length) ∧
    OnLink n d (d.drainTx n) ∧ (d.drainTx n).mem = d.mem := by
  unfold Dev.drainTx
  extract_lets room fs
  have h0 : ((d.modLink n fun l => { l with txWait := l.txWait.drop room }).link n).txWait = (d.link n).txWait.drop room := by
    rw [Dev.link_modLink_self]
  refine Machine.foldl_keeps (fun x : Dev => (x.link n).txWait = (d.link n).txWait.drop room ∧ OnLink n d x ∧ x.mem = d.mem) _ (fun x f hx => ?_) fs _
    ⟨h0, (OnLink.refl n d).modLink _, rfl⟩
  obtain ⟨h₁, h₂, h₃⟩ := hx
  exact ⟨(congrArg Link.txWait (x.link_modLink_self n fun l => l.keep f)).trans h₁, OnLink.of_mesh (h₂.modLink _) rfl, h₃⟩

theorem Dev.drainTx_of_nil {n : Nat} (h : (d.link n).txWait = []) :
    d.drainTx n = d.modLink n fun l => { l with txWait := l.txWait.drop (64 - (d.link n).replayBuf.length) } := by
  simp [Dev.drainTx, h]

theorem Dev.ackUnit_eq {n c i : Nat} (hr : d.coreRuns = true) (h : ((d.link n).replayBuf.findIdx? fun f => f.1 == c) = some i) :
    ackUnit n c d = (d.modLink n fun l => { l with replayBuf := l.replayBuf.drop (i + 1) }).drainTx n := by
  simp [ackUnit, hr, h]

/-! ## Remote freezes -/

/-- A change of the holds leaves which floods were seen, and whose hold it is. -/
theorem Dev.applyHolds_flood (d : Dev) : d.applyHolds.dbg.remote = d.dbg.remote ∧ d.applyHolds.dbg.seen = d.dbg.seen ∧
    d.applyHolds.dbg.cause = d.dbg.cause ∧ d.applyHolds.now = d.now := by
  unfold Dev.applyHolds
  dsimp only
  (repeat' split) <;> simp

/-- The device that has taken a FREEZE flood, before its holds are applied. -/
def Dev.noted (d : Dev) (thaw : Bool) (u : FloodInfo) (t : Nat) (set : Dbg → Dbg) : Dev :=
  ((d.at_ t).modDbg set).flood (if thaw then .thaw u else .freeze u)

theorem Dev.noted_spec (d : Dev) (thaw : Bool) (u : FloodInfo) (t : Nat) (set : Dbg → Dbg) : let e := d.noted thaw u t set
    e.sys = d.sys ∧ e.dbg = set d.dbg ∧ e.now = max d.now t ∧ e.frm = d.frm ∧ e.tile = d.tile := by
  simp [Dev.noted, Dev.at_]

/-- A FREEZE flood taken as a remote hold, and a THAW that drops it. -/
def Dbg.heldBy (b : Dbg) (u : FloodInfo) : Dbg :=
  { b with seen := (false, u.origin, u.seq) :: b.seen, remote := b.remote ++ [(u.origin, u.seq)], cause := u.cause.toNat, origin := u.origin, seq := u.seq }
def Dbg.droppedBy (b : Dbg) (u : FloodInfo) : Dbg :=
  { b with seen := (true, u.origin, u.seq) :: b.seen, remote := b.remote.filter fun r => r != (u.origin, u.seq) }

theorem Dev.remoteFreeze_new {u : FloodInfo} (t : Nat) (h : (false, u.origin, u.seq) ∉ d.dbg.seen) :
    d.remoteFreeze u t = (d.noted false u t fun b => b.heldBy u).applyHolds := by
  simp [Dev.remoteFreeze, h, Dev.noted, Dbg.heldBy]

theorem Dev.remoteThaw_new {u : FloodInfo} (t : Nat) (h : (true, u.origin, u.seq) ∉ d.dbg.seen) :
    d.remoteThaw u t = (d.noted true u t fun b => b.droppedBy u).applyHolds := by
  simp [Dev.remoteThaw, h, Dev.noted, Dbg.droppedBy]

/-! ## The units -/

/-- A link's echo off or its delay beyond the bound (R365): the link is off, with a corrected record. -/
theorem Dev.linkOff_spec (hb : d.sys.st ≠ .blackout) (n st : Nat) : let r := d.linkOff n st
    r.link n = { d.link n with st := st, lanes := 0 } ∧ OnLink n d r ∧ r.err.nextSeq = d.err.nextSeq + 1 := by
  intro r
  have hm : r.mesh = (d.modLink n fun l => { l with st := st, lanes := 0 }).mesh := by
    simp only [r, Dev.linkOff, Dev.useFree_mesh, Dev.raise_mesh]
  refine ⟨(Dev.link_of_mesh hm n).trans (d.link_modLink_self _ _), OnLink.of_mesh ((OnLink.refl n d).modLink _) hm, ?_⟩
  simp only [r, Dev.linkOff, Dev.useFree_err]
  rw [Dev.raise_corrected rfl, if_neg (by exact hb), Dev.record_err]
  simp

theorem Dev.not_blackout_of_coreRuns (h : d.coreRuns = true) : d.sys.st ≠ .blackout := by
  intro hb
  simp [Dev.coreRuns, hb] at h

theorem Dev.sendEcho_spec (d : Dev) (n : Nat) : let r := d.sendEcho n
    r.frm = { d.frm with echoNum := (d.frm.echoNum + 1) % 65536 } ∧
    r.out = d.out ++ [.unit n (.echo (BitVec.ofNat 16 ((d.frm.echoNum + 1) % 65536)))] ∧
    r.link n = { d.link n with echoAt := d.now }.keep (ctlFlit (.echo (BitVec.ofNat 16 ((d.frm.echoNum + 1) % 65536)))) ∧ OnLink n d r := by
  refine ⟨rfl, rfl, (Dev.sendUnit_link _ _ _).trans (congrArg (Link.keep · _) (Dev.link_modLink_self _ _ _)), ?_⟩
  exact (((OnLink.refl n d).of_mesh rfl).modLink _).sendUnit _

/-- An ECHO_REPLY is summed: the fifteen before the sixteenth ask for the next one (R365). -/
theorem echoReply_counting {n turn rt : Nat} (hr : d.coreRuns = true) (hw : (d.link n).working = true) (h : (d.link n).echoN < 15) :
    echoReply n turn rt d = (d.modLink n fun l => { l with echoSum := (d.link n).echoSum + (rt - turn), echoN := l.echoN + 1 }).sendEcho n := by
  simp [echoReply, hr, hw, show (d.link n).echoN < 16 by omega, show (d.link n).echoN + 1 < 16 by omega]

theorem echoReply_sixteenth {n turn rt : Nat} (hr : d.coreRuns = true) (hw : (d.link n).working = true) (h : (d.link n).echoN = 15) :
    let e := (d.modLink n fun l => { l with echoSum := (d.link n).echoSum + (rt - turn), echoN := l.echoN + 1 }).modLink n fun l =>
      { l with delay := min 65535 (((d.link n).echoSum + (rt - turn)) / 32) }
    echoReply n turn rt d = if 9000 < min 65535 (((d.link n).echoSum + (rt - turn)) / 32) then e.linkOff n 6 else e := by
  simp only [echoReply, hr, hw, h]
  simp

theorem echoReply_later {n turn rt : Nat} (hr : d.coreRuns = true) (hw : (d.link n).working = true) (h : 16 ≤ (d.link n).echoN) :
    let e := d.modLink n fun l => { l with delay := min 65535 ((rt - turn) / 2) }
    echoReply n turn rt d = if e.fromParent n then e.modFrm fun f => { f with pathTarget := e.mesh.parentPath + tenPsNs (min 65535 ((rt - turn) / 2)) } else e := by
  simp [echoReply, hr, hw, Nat.not_lt.mpr h]

/-- Settles O46, unit by unit. -/
theorem linkUnitsActOnTheirLink : Obligations.LinkUnitsActOnTheirLink := by
  intro s link l key others only hr
  have honly (f : Link → Link) : only (f l) (s.dev.modLink link.val f) :=
    ⟨s.dev.link_modLink_self _ _, (OnLink.refl link.val s.dev).modLink f, rfl⟩
  refine ⟨fun n => ⟨fun i hi => ⟨fun hw => ⟨_, State.gives_onDev rfl (Dev.ackUnit_eq hr hi), ?_⟩, ⟨_, State.gives_onDev rfl (Dev.ackUnit_eq hr hi), ?_⟩⟩,
      fun hn => ⟨State.gives_onDev rfl ?_, State.gives_onDev rfl ?_⟩, fun f hf => State.gives_onDev rfl ?_, ⟨_, State.gives_onDev rfl (if_pos hr), honly _⟩⟩,
    fun u => ⟨_, State.gives_onDev rfl (if_pos hr), honly _⟩, fun n => ⟨fun hw => ?_, fun hw => State.gives_onDev rfl (if_neg (by rw [show (s.dev.link link.val).working = false from hw]; simp))⟩,
    fun n turn rt => ⟨fun hw => ?_, fun hw hn => ?_, fun hw hn => ⟨fun ho => ?_, fun ho => ?_⟩, fun hw hn => ?_⟩,
    fun u t => ⟨fun h => ?_, fun h => ?_, fun hw hs => ?_, fun hw hs => ?_⟩, fun c => State.gives_onDev rfl (if_pos hr)⟩
  · have ht : ((s.dev.modLink link.val fun l => { l with replayBuf := l.replayBuf.drop (i + 1) }).link link.val).txWait = [] := by
      rw [Dev.link_modLink_self]
      exact hw
    rw [Dev.drainTx_of_nil ht]
    refine ⟨?_, ((OnLink.refl link.val s.dev).modLink _).modLink _, rfl⟩
    rw [Dev.link_modLink_self, Dev.link_modLink_self]
    simp only [show (s.dev.link link.val).txWait = [] from hw, List.drop_nil]
    rw [show l = s.dev.link link.val from rfl, ← hw]
  · obtain ⟨h₁, h₂, h₃⟩ := (s.dev.modLink link.val fun l => { l with replayBuf := l.replayBuf.drop (i + 1) }).drainTx_spec link.val
    rw [Dev.link_modLink_self] at h₁
    exact ⟨h₁, fun k hk => (h₂ k hk).trans (s.dev.link_modLink_ne _ hk), h₃⟩
  · simp only [ackUnit, hr, Bool.not_true, Bool.false_eq_true, if_false]
    rw [List.findIdx?_eq_none_iff.mpr (by simpa using hn)]
  · simp only [nakUnit, hr, Bool.not_true, Bool.false_eq_true, if_false]
    rw [List.find?_eq_none.mpr (by simpa using hn)]
  · simp only [nakUnit, hr, Bool.not_true, Bool.false_eq_true, if_false]
    rw [hf]
    simp [Dev.meshCount, Dev.modMesh, Dev.emit, key]
  · refine ⟨_, State.gives_onDev rfl (if_pos (by simpa [hr] using hw)), rfl, (OnLink.refl link.val s.dev).sendUnit _, ?_⟩
    rw [Dev.sendUnit_link]
    rfl
  · refine State.gives_onDev rfl ?_
    simp [echoReply, show (s.dev.link link.val).working = false from hw]
  · obtain ⟨h₁, h₂, h₃, h₄⟩ := (s.dev.modLink link.val fun l => { l with echoSum := (s.dev.link link.val).echoSum + (rt - turn.toNat), echoN := l.echoN + 1 }).sendEcho_spec link.val
    refine ⟨_, State.gives_onDev rfl (echoReply_counting hr hw hn), ?_⟩
    rw [Dev.link_modLink_self] at h₃
    refine ⟨congrArg Link.echoSum h₃, congrArg Link.echoN h₃, fun k hk => (h₄ k hk).trans (s.dev.link_modLink_ne _ hk), congrArg Frm.echoNum h₁, ?_⟩
    rw [h₂, h₁]
    rfl
  · refine ⟨_, State.gives_onDev rfl ((echoReply_sixteenth hr hw hn).trans (if_neg (Nat.not_lt.mpr ho))), ?_, ?_, rfl⟩
    · rw [Dev.link_modLink_self, Dev.link_modLink_self]
      simp only [show (s.dev.link link.val).echoN = 15 from hn]
      rfl
    · exact ((OnLink.refl link.val s.dev).modLink _).modLink _
  · have he := @echoReply_sixteenth s.dev link.val turn.toNat rt hr hw hn
    have hb := Dev.not_blackout_of_coreRuns hr
    obtain ⟨h₁, h₂, h₃⟩ := @Dev.linkOff_spec ((s.dev.modLink link.val fun l => { l with echoSum := (s.dev.link link.val).echoSum + (rt - turn.toNat), echoN := l.echoN + 1 }).modLink
      link.val fun l => { l with delay := min 65535 (((s.dev.link link.val).echoSum + (rt - turn.toNat)) / 32) }) hb link.val 6
    rw [Dev.link_modLink_self, Dev.link_modLink_self] at h₁
    refine ⟨_, State.gives_onDev rfl (he.trans (if_pos ho)), congrArg Link.st h₁, congrArg Link.lanes h₁, fun k hk => ?_, congrArg Link.delay h₁, h₃⟩
    exact (h₂ k hk).trans (((OnLink.refl link.val s.dev).modLink _).modLink _ k hk)
  · have he := @echoReply_later s.dev link.val turn.toNat rt hr hw hn
    have hf (f : Link → Link) (hst : ∀ l, (f l).st = l.st) : (s.dev.modLink link.val f).fromParent link.val = s.dev.fromParent link.val :=
      @Dev.fromParent_of_shape s.dev (s.dev.modLink link.val f) rfl (s.dev.modLink_working link.val hst) link.val
    dsimp only at he
    rw [hf (fun l => { l with delay := min 65535 ((rt - turn.toNat) / 2) }) fun _ => rfl] at he
    refine ⟨_, State.gives_onDev rfl he, ?_⟩
    split
    next => exact ⟨congrArg Link.delay (s.dev.link_modLink_self _ _), (OnLink.refl link.val s.dev).modLink _, rfl⟩
    next => exact ⟨congrArg Link.delay (s.dev.link_modLink_self _ _), (OnLink.refl link.val s.dev).modLink _, rfl⟩
  · refine State.gives_onDev rfl ?_
    rcases h with h | h
    · simp [show (s.dev.link link.val).working = false from h]
    · split
      · exact if_pos (List.contains_iff_mem.mpr h)
      · rfl
  · refine State.gives_onDev rfl ?_
    rcases h with h | h
    · simp [show (s.dev.link link.val).working = false from h]
    · split
      · exact if_pos (List.contains_iff_mem.mpr h)
      · rfl
  · refine ⟨_, State.gives_onDev rfl ((if_pos (by rw [hr, show (s.dev.link link.val).working = true from hw]; rfl)).trans (Dev.remoteFreeze_new t hs)), ?_⟩
    obtain ⟨hsys, hdbg, hnow, hfrm, htile⟩ := s.dev.noted_spec false u t fun b => b.heldBy u
    generalize s.dev.noted false u t _ = e at hsys hdbg hnow hfrm htile ⊢
    obtain ⟨hrem, hseen, hcause, hnow'⟩ := e.applyHolds_flood
    have hh : e.dbg.held = true := by simp [hdbg, Dbg.held, Dbg.heldBy]
    obtain ⟨-, hfrz, hstops, hstays, -⟩ := Dev.applyHolds_heldStill hh
    rw [hsys] at hstops hstays
    refine ⟨hrem.trans (congrArg Dbg.remote hdbg), by simp [hseen, hdbg, Dbg.heldBy], hcause.trans (congrArg Dbg.cause hdbg), hnow'.trans hnow, fun hf hst => ?_, hstays⟩
    have he : e.sys.st = .playing ∨ e.sys.st = .curtain := by rwa [hsys]
    exact ⟨(hstops hst).1, (hstops hst).2, by rw [hfrz, Dev.stoppable_of_running he, Bool.or_true]⟩
  · refine ⟨_, State.gives_onDev rfl ((if_pos (by rw [hr, show (s.dev.link link.val).working = true from hw]; rfl)).trans (Dev.remoteThaw_new t hs)), ?_⟩
    obtain ⟨hsys, hdbg, hnow, hfrm, htile⟩ := s.dev.noted_spec true u t fun b => b.droppedBy u
    generalize s.dev.noted true u t _ = e at hsys hdbg hnow hfrm htile ⊢
    obtain ⟨hrem, hseen, -⟩ := e.applyHolds_flood
    refine ⟨hrem.trans (congrArg Dbg.remote hdbg), by simp [hseen, hdbg, Dbg.droppedBy], fun ho hrest hfz => ?_⟩
    have hf : e.dbg.frozen = true := by rw [hdbg]; exact hfz
    have hh : e.dbg.held = false := by
      have ho' : e.dbg.ownHeld = false := by rw [hdbg]; exact ho
      have hr' : e.dbg.remote = [] := by rw [hdbg]; exact hrest
      simp [Dbg.held, ho', hr']
    obtain ⟨⟨us, hus⟩, hst, -, hlater, -⟩ := Dev.applyHolds_goesOn hh
    refine ⟨congrArg Dbg.frozen hus, fun hrun => ?_, by rw [hst hf, hsys]⟩
    obtain ⟨ht, hfr⟩ := hlater hf (by rw [hfrm]; exact hrun)
    exact ⟨congrArg Tile.modeReq ht, by rw [hfr, hfrm, hnow, hdbg]; rfl⟩

end Sys2Proof.Machine
end

section
/-! PROOF. Flits (R357 to R359): the two CRC values, and what a flit changes on its link. -/
namespace Sys2Proof.Machine
variable {d : Dev}

/-! ## The CRC of a flit tells its kind -/

theorem shiftLeft_one_injective {c e : BitVec 16} (hm : c.msb = e.msb) (h : c <<< 1 = e <<< 1) : c = e := by
  have hn : c.toNat * 2 % 65536 = e.toNat * 2 % 65536 := by simpa [Nat.shiftLeft_eq] using congrArg BitVec.toNat h
  have ht : 32768 ≤ c.toNat ↔ 32768 ≤ e.toNat := by simpa [BitVec.msb_eq_decide] using hm
  apply BitVec.eq_of_toNat_eq
  have := c.isLt
  have := e.isLt
  omega

theorem crcStep_injective {c e : BitVec 16} (h : (if c.msb then (c <<< 1) ^^^ 0x1021 else c <<< 1) = if e.msb then (e <<< 1) ^^^ 0x1021#16 else e <<< 1) :
    c = e := by
  have hm : c.msb = e.msb := by
    have h0 := congrArg (·.getLsbD 0) h
    cases hc : c.msb <;> cases he : e.msb <;> simp [hc, he] at h0 ⊢
  refine shiftLeft_one_injective hm ?_
  rw [hm] at h
  split at h
  · exact BitVec.xor_left_inj _ |>.mp h
  · exact h

theorem crcBit_injective (n : Nat) {c e : BitVec 16} (h : crcBit 0x1021 n c = crcBit 0x1021 n e) : c = e := by
  induction n generalizing c e with
  | zero => exact h
  | succ n ih => exact crcStep_injective (ih h)

theorem crc16_injective (bs : List Byte) {c e : BitVec 16} (h : crc16 0x1021 c bs = crc16 0x1021 e bs) : c = e := by
  induction bs generalizing c e with
  | nil => exact h
  | cons b bs ih => exact BitVec.xor_left_inj _ |>.mp (crcBit_injective 8 (ih h))

theorem flitCrc_ne (body : List Byte) : flitCrc true body ≠ flitCrc false body := fun h => by
  have := crc16_injective body h
  simp at this

/-! ## What a flit does to its link -/

theorem isControl_of_data {body : List Byte} {crc : BitVec 16} (h : crc = flitCrc false body) : (⟨body, crc⟩ : Flit).isControl = false := by
  simp only [Flit.isControl, h, beq_eq_false_iff_ne]
  exact (flitCrc_ne body).symm

theorem isReplay_of_data {body : List Byte} {crc : BitVec 16} (h : crc = flitCrc false body) : (⟨body, crc⟩ : Flit).isReplay = false := by
  simp [Flit.isReplay, Flit.control, isControl_of_data h]

theorem Dev.dataUnits_of_nil {n : Nat} (h : (d.link n).runs = []) (control : Bool) (us : List (List Byte)) :
    d.dataUnits n control us = d.modLink n fun l => { l with runs := [], rx := if control && us.all allZero then l.rx else l.rx ++ us } := by
  simp [Dev.dataUnits, h, takeRuns]

/-- A data flit's units go to the link's own stream. -/
theorem Dev.processFlit_data {n t : Nat} {body : List Byte} {crc : BitVec 16} (hc : crc = flitCrc false body) (h : (d.link n).runs = []) :
    d.processFlit n t ⟨body, crc⟩ = d.modLink n fun l => { l with runs := [], rx := l.rx ++ flitUnits ⟨body, crc⟩ } := by
  simp [Dev.processFlit, isControl_of_data hc, Dev.dataUnits_of_nil h]

theorem Dev.countFlit_spec (d : Dev) (n c : Nat) : let r := d.countFlit n c
    (r.link n).sinceAck = (if (d.link n).sinceAck + 1 < 16 then (d.link n).sinceAck + 1 else 0) ∧ (r.link n).rx = (d.link n).rx ∧
    (r.link n).runs = (d.link n).runs ∧ (r.link n).rxCount = (d.link n).rxCount ∧ OnLink n d r ∧
    r.out = d.out ++ (if (d.link n).sinceAck + 1 < 16 then [] else [.unit n (.ack (BitVec.ofNat 16 c))]) ∧ r.mem = d.mem ∧ r.mesh.cnt = d.mesh.cnt := by
  simp only [Dev.countFlit]
  split
  · simp only [Dev.link_modLink_self]
    exact ⟨trivial, trivial, trivial, trivial, (OnLink.refl n d).modLink _, (List.append_nil _).symm, rfl, rfl⟩
  · simp only [Dev.sendUnit_link, Dev.link_modLink_self]
    exact ⟨rfl, rfl, rfl, rfl, ((OnLink.refl n d).modLink _).sendUnit _, rfl, rfl, rfl⟩

theorem Dev.sendUnit_out (d : Dev) (n : Nat) (u : CtlUnit) : (d.sendUnit n u).out = d.out ++ [.unit n u] := rfl

theorem OnLink.of_links {e x : Dev} {n : Nat} (h : OnLink n e d) (hm : x.mesh.links = d.mesh.links) : OnLink n e x :=
  fun k hk => (congrArg (fun ls : Sparse Link => sgetD ls k ({} : Link)) hm).trans (h k hk)

/-- The device once a received flit's corrected symbols are counted (R356). -/
def Dev.symbolsCounted (d : Dev) (link n : Nat) : Dev := d.modMesh fun m => { m with cnt := smod m.cnt (16 * link) 0 fun c => bumpBy c n }

/-- The device once a flit has advanced the count of its link. -/
def Dev.flitCounted (d : Dev) (link n : Nat) : Dev := (d.symbolsCounted link n).modLink link fun l => { l with rxCount := ((d.link link).rxCount + 1) % 65536 }

theorem Dev.symbolsCounted_cnt (d : Dev) (link n : Nat) : sgetD (d.symbolsCounted link n).mesh.cnt (16 * link) 0 = bumpBy (sgetD d.mesh.cnt (16 * link) 0) n :=
  sgetD_smod_self d.mesh.cnt (16 * link) 0 fun c => bumpBy c n

theorem Dev.flitCounted_link (d : Dev) (link n : Nat) : (d.flitCounted link n).link link = { d.link link with rxCount := ((d.link link).rxCount + 1) % 65536 } :=
  Dev.link_modLink_self _ _ _

theorem Dev.flitCounted_onLink (d : Dev) (link n : Nat) : OnLink link d (d.flitCounted link n) := by
  have h : OnLink link d (d.symbolsCounted link n) := (OnLink.refl link d).of_links rfl
  exact h.modLink _

theorem flitReceive_data {link n t : Nat} {body : List Byte} {crc : BitVec 16} (hr : d.coreRuns = true) (hl : (d.link link).working = true ∨ (d.link link).st = 1)
    (hn : (d.link link).replayNext = none) (hb : body.length = 512) (hc : crc = flitCrc false body) :
    flitReceive link ⟨body, crc⟩ n false t d = if (d.link link).held.isEmpty then ((d.flitCounted link n).countFlit link (d.link link).rxCount).processFlit link t ⟨body, crc⟩
      else (d.flitCounted link n).modLink link fun l => { l with held := l.held ++ [((d.link link).rxCount, some ⟨body, crc⟩, 0)] } := by
  have hd : (⟨body, crc⟩ : Flit).isData = true := by simp [Flit.isData, hc]
  have hg : (!((d.link link).working || (d.link link).st == 1)) = false := by rcases hl with hl | hl <;> simp [hl]
  simp only [flitReceive, hr, hg, hn, hb, hd, isReplay_of_data hc, Bool.not_true, Bool.not_false, Bool.or_false, Bool.or_true, Bool.and_true, beq_self_eq_true,
    Bool.false_eq_true, if_false, if_true]
  rfl

/-- The device that holds a failed flit's place, before NAK goes out (R359). -/
def Dev.flitFailed (d : Dev) (link n c : Nat) : Dev :=
  (((d.symbolsCounted link n).meshCount link c).modLink link fun l => { l with rxCount := ((d.link link).rxCount + 1) % 65536 }).modLink link
    fun l => { l with held := l.held ++ [((d.link link).rxCount, none, 1)] }

theorem Dev.flitFailed_link (d : Dev) (link n c : Nat) : (d.flitFailed link n c).link link =
    { d.link link with rxCount := ((d.link link).rxCount + 1) % 65536, held := (d.link link).held ++ [((d.link link).rxCount, none, 1)] } := by
  simp only [Dev.flitFailed, Dev.link_modLink_self]
  rfl

theorem Dev.flitFailed_onLink (d : Dev) (link n c : Nat) : OnLink link d (d.flitFailed link n c) := by
  have h : OnLink link d ((d.symbolsCounted link n).meshCount link c) := (OnLink.refl link d).of_links rfl
  exact (h.modLink _).modLink _

theorem Dev.flitFailed_out (d : Dev) (link n c : Nat) : (d.flitFailed link n c).out = d.out := by
  unfold Dev.flitFailed
  rfl

theorem Dev.flitFailed_cnt (d : Dev) (link n : Nat) {c : Nat} (h : c ≠ 0) :
    sgetD (d.flitFailed link n c).mesh.cnt (16 * link) 0 = bumpBy (sgetD d.mesh.cnt (16 * link) 0) n ∧
    sgetD (d.flitFailed link n c).mesh.cnt (16 * link + c) 0 = bump (sgetD d.mesh.cnt (16 * link + c) 0) := by
  have hne : 16 * link + c ≠ 16 * link := by omega
  have hc : (d.flitFailed link n c).mesh.cnt = smod (d.symbolsCounted link n).mesh.cnt (16 * link + c) 0 bump := rfl
  have hs : (d.symbolsCounted link n).mesh.cnt = smod d.mesh.cnt (16 * link) 0 fun c => bumpBy c n := rfl
  rw [hc, sgetD_smod_self, sgetD_smod_ne _ _ _ _ hne.symm, hs, sgetD_smod_self, sgetD_smod_ne _ _ _ _ hne]
  exact ⟨rfl, rfl⟩

theorem flitReceive_bad {link n t : Nat} {f : Flit} {u : Bool} (hr : d.coreRuns = true) (hl : (d.link link).working = true ∨ (d.link link).st = 1)
    (hn : (d.link link).replayNext = none) (hb : u = true ∨ ¬ (f.body.length = 512 ∧ (f.isControl = true ∨ f.isData = true))) :
    flitReceive link f n u t d = (d.flitFailed link n (if u then 1 else 2)).sendUnit link (.nak (BitVec.ofNat 16 (d.link link).rxCount)) := by
  have hg : (!((d.link link).working || (d.link link).st == 1)) = false := by rcases hl with hl | hl <;> simp [hl]
  have hgood : (!u && f.body.length == 512 && (f.isControl || f.isData)) = false := by
    rcases hb with rfl | hb
    · rfl
    · by_cases h5 : f.body.length = 512
      · simp [h5] at hb
        simp [hb]
      · simp [h5]
  simp only [flitReceive, hr, hg, hn, hgood, Bool.not_true, Bool.or_false, Bool.false_eq_true, if_false]
  cases u <;> rfl

theorem flitReceive_replay {link n t : Nat} {body : List Byte} {crc : BitVec 16} {r : BitVec 16} (hr : d.coreRuns = true)
    (hl : (d.link link).working = true ∨ (d.link link).st = 1) (hn : (d.link link).replayNext = none) (hb : body.length = 512)
    (hc : (⟨body, crc⟩ : Flit).control = [.replay r]) :
    flitReceive link ⟨body, crc⟩ n false t d = ((d.symbolsCounted link n).modLink link fun l => { l with replayNext := some r.toNat }).dataUnits link true
      ((flitUnits ⟨body, crc⟩).drop (min 31 (leAt body 0 1) + 1)) := by
  have hg : (!((d.link link).working || (d.link link).st == 1)) = false := by rcases hl with hl | hl <;> simp [hl]
  have hctl : (⟨body, crc⟩ : Flit).isControl = true := by
    by_contra h
    simp [Flit.control, h] at hc
  have hrep : (⟨body, crc⟩ : Flit).isReplay = true := by simp [Flit.isReplay, hc]
  have hru : ((d.symbolsCounted link n).coreRuns) = true := hr
  simp only [flitReceive, hr, hg, hn, hb, hctl, hrep, Bool.not_true, Bool.not_false, Bool.or_false, Bool.true_or, Bool.and_true, beq_self_eq_true,
    Bool.false_eq_true, if_false, if_true, Dev.processFlit, hc, List.foldl_cons, List.foldl_nil, runUnit, replayUnit]
  exact congrArg (Dev.dataUnits · link true _) (if_pos hru)

/-- Settles O47: the CRC of a body, then the four kinds of arrival. -/
theorem flitsArriveInOrderOrAreHeld : Obligations.FlitsArriveInOrderOrAreHeld := by
  refine ⟨flitCrc_ne, ?_⟩
  intro s link body crc n t l key others count good hr hl hn
  refine ⟨fun hb hc hh hru => ?_, fun hb hc hh => ?_, fun u hu => ?_, fun r hb hc hru => ?_⟩
  · have heq := @flitReceive_data s.dev link.val n t body crc hr hl hn hb hc
    rw [show (s.dev.link link.val).held = [] from hh, if_pos List.isEmpty_nil] at heq
    obtain ⟨h₁, h₂, h₃, h₄, h₅, h₆, h₇, h₈⟩ := (s.dev.flitCounted link.val n).countFlit_spec link.val (s.dev.link link.val).rxCount
    rw [Dev.flitCounted_link] at h₁ h₂ h₃ h₄ h₆
    rw [Dev.processFlit_data hc (h₃.trans hru)] at heq
    refine ⟨_, State.gives_onDev rfl heq, ⟨?_, fun k hk => ?_, ?_⟩, ?_, ?_, h₆, h₇⟩
    · rw [Dev.link_modLink_self]
      exact h₄
    · rw [Dev.link_modLink_ne _ _ hk, h₅ k hk, s.dev.flitCounted_onLink link.val n k hk]
    · exact (congrArg (sgetD · key 0) h₈).trans (s.dev.symbolsCounted_cnt link.val n)
    · rw [Dev.link_modLink_self]
      exact congrArg (· ++ _) h₂
    · rw [Dev.link_modLink_self]
      exact h₁
  · have heq := @flitReceive_data s.dev link.val n t body crc hr hl hn hb hc
    rw [if_neg (by simpa using hh)] at heq
    refine ⟨_, State.gives_onDev rfl heq, ⟨?_, (s.dev.flitCounted_onLink link.val n).modLink _, s.dev.symbolsCounted_cnt link.val n⟩, ?_, ?_, rfl⟩
    all_goals rw [Dev.link_modLink_self, Dev.flitCounted_link]
  · have heq := @flitReceive_bad s.dev link.val n t ⟨body, crc⟩ u hr hl hn (hu.imp id fun h hg => h ⟨hg.1, by simpa [Flit.isControl, Flit.isData] using hg.2⟩)
    have hc0 : (if u then 1 else 2) ≠ 0 := by split <;> decide
    generalize (if u then 1 else 2) = c at heq hc0 ⊢
    obtain ⟨hc, hu⟩ := s.dev.flitFailed_cnt link.val n hc0
    have ho := s.dev.flitFailed_onLink link.val n c
    have hk := s.dev.flitFailed_link link.val n c
    have hout := s.dev.flitFailed_out link.val n c
    generalize s.dev.flitFailed link.val n c = e at heq hc hu ho hk hout
    have hm (x : CtlUnit) : (e.sendUnit link.val x).mesh.cnt = e.mesh.cnt := rfl
    refine ⟨_, State.gives_onDev rfl heq, ⟨?_, ho.sendUnit _, ?_⟩, ?_, (e.sendUnit_out _ _).trans (congrArg (· ++ _) hout), ?_⟩
    rotate_left
    · rw [hm]
      exact hc
    rotate_left
    · rw [hm]
      exact hu
    all_goals rw [Dev.sendUnit_link, hk]
    all_goals rfl
  · have heq := @flitReceive_replay s.dev link.val n t body crc r hr hl hn hb hc
    rw [Dev.dataUnits_of_nil (by rw [Dev.link_modLink_self]; exact hru)] at heq
    have ho : OnLink link.val s.dev (s.dev.symbolsCounted link.val n) := (OnLink.refl link.val s.dev).of_links rfl
    refine ⟨_, State.gives_onDev rfl heq, ?_, ?_, (ho.modLink _).modLink _, rfl, rfl⟩
    all_goals rw [Dev.link_modLink_self, Dev.link_modLink_self]
    rfl

end Sys2Proof.Machine
end

section
/-! PROOF. DONE (R35 to R38): the end of a device's own work, the children's DONE, and the aggregate. -/
namespace Sys2Proof.Machine
variable {d : Dev}

/-! ## What the shape of the mesh settles -/

theorem Dev.at_of_shape {e : Dev} (h : e.mesh.shape = d.mesh.shape) : e.mesh.at_ = d.mesh.at_ := congrArg Prod.fst h

theorem Dev.working_of_shape {e : Dev} (h : e.mesh.shape = d.mesh.shape) (n : Nat) : (e.link n).working = (d.link n).working := by
  have hs : (e.link n).mask = (d.link n).mask := congrFun (congrArg Prod.snd h) n
  have hst : (e.link n).st = (d.link n).st := congrArg Prod.fst hs
  simp only [Link.working, hst]

theorem Dev.bellwether_of_shape {e : Dev} (h : e.mesh.shape = d.mesh.shape) : e.bellwether = d.bellwether := by
  simp only [Dev.bellwether, Dev.at_of_shape h]

theorem Dev.children_of_shape {e : Dev} (h : e.mesh.shape = d.mesh.shape) : e.children = d.children := by
  have ha := Dev.at_of_shape h
  have hb (b : Dir) : e.face b = d.face b := by simp only [Dev.face, Dev.working, Dev.working_of_shape h]
  cases hd : d.mesh.at_ with
  | none => simp [Dev.children, ha, hd]
  | some c => simp [Dev.children, Dev.coord, ha, hd, hb]

theorem Dev.childrenDone_of {e : Dev} (h : e.mesh.shape = d.mesh.shape) (hc : e.frm.children = d.frm.children) : e.childrenDone = d.childrenDone := by
  simp only [Dev.childrenDone, Dev.children_of_shape h, hc]

/-! ## Frames that stop -/

theorem Dev.applyHolds_isOpen (d : Dev) : d.applyHolds.frm.isOpen = d.frm.isOpen := by
  unfold Dev.applyHolds
  dsimp only
  (repeat' split) <;> simp

theorem Dev.resumePaused_isOpen (d : Dev) : d.resumePaused.frm.isOpen = d.frm.isOpen := (congrArg Frm.isOpen d.resumePaused_timing :)

theorem Dev.wakeEvent_isOpen (d : Dev) : d.wakeEvent.frm.isOpen = d.frm.isOpen := by
  have hu : d.unpark.frm.isOpen = d.frm.isOpen := (congrArg Frm.isOpen d.unpark_timing :)
  unfold Dev.wakeEvent
  dsimp only
  split
  · split
    · rw [Dev.applyHolds_isOpen]
      split <;> simp [hu]
    · (repeat' split) <;> simp [Dev.leavePower, Dev.sendDown, Dev.sendUp]
      split <;> rfl
  · split <;> rfl

theorem Dev.drainEnd_isOpen (d : Dev) (k : DrainKind) : (d.drainEnd k).frm.isOpen = false := by
  cases k with
  | curtain => rfl
  | unload =>
    have hu : (d.endFrames d.fullLen).unloadScript.frm.isOpen = false := by simp [Dev.unloadScript, Dev.endFrames]
    simp only [Dev.drainEnd, Dev.resumePaused_isOpen]
    split <;> simp [hu]
  | park =>
    have hp : ((d.endFrames d.fullLen).enterParked true).frm.isOpen = false := by simp [Dev.enterParked, Dev.endFrames]
    simp only [Dev.drainEnd]
    split
    · rfl
    · split
      · rw [Dev.wakeEvent_isOpen]
        exact hp
      · exact hp

/-- At the boundary that STOP names no frame is open (R40). -/
theorem Dev.stopNow_isOpen (d : Dev) : d.stopNow.frm.isOpen = false := by
  unfold Dev.stopNow
  split
  · exact Dev.drainEnd_isOpen ..
  · rfl

/-! ## The end of the device's own work -/

theorem Dev.tagZeroing_cleared (d : Dev) : d.tagZeroing.mem.apron = d.mem.apron ∧ d.tagZeroing.mem.tags = d.mem.tags := by
  unfold Dev.tagZeroing
  split <;> exact ⟨rfl, rfl⟩

theorem Dev.workEnd_cleared (d : Dev) : d.workEnd.mem.apron = [] ∧ d.workEnd.mem.tags = [] ∧ d.workEnd.tile.acc = [] ∧ d.workEnd.tile.pend = [] ∧
    d.workEnd.tile.queue = [] :=
  ⟨(Dev.tagZeroing_cleared _).1, (Dev.tagZeroing_cleared _).2, rfl, rfl, rfl⟩

/-- The aggregate of the open frame made (R37), which leaves everything but what DONE carries. -/
def Dev.aggregated (d : Dev) : Dev := d.aggregate.modFrm fun f => { f with doneSent := true }

theorem Dev.tryDone_waiting (h : d.childrenDone = false) : d.tryDone = d := by
  unfold Dev.tryDone
  rw [if_pos (by simp [h])]

theorem Dev.tryDone_sent (h : d.frm.doneSent = true) : d.tryDone = d := by
  unfold Dev.tryDone
  rw [if_pos (by simp [h])]

theorem Dev.tryDone_unready (h : d.frm.ownDone = false) : d.tryDone = d := by
  unfold Dev.tryDone
  rw [if_pos (by simp [h])]

theorem Dev.tryDone_complete (ho : d.frm.isOpen = true) (hs : d.frm.doneSent = false) (hd : d.frm.ownDone = true) (hc : d.childrenDone = true) :
    d.tryDone = if d.bellwether then d.aggregated
      else if (d.aggregated.sendUp (.done d.aggregated.doneInfo)).atStop then (d.aggregated.sendUp (.done d.aggregated.doneInfo)).stopNow
      else d.aggregated.sendUp (.done d.aggregated.doneInfo) := by
  unfold Dev.tryDone
  rw [if_neg (by simp [ho, hs, hd, hc])]
  rfl

theorem Dev.sendUp_rest (d : Dev) (u : CtlUnit) : (d.sendUp u).frm = d.frm ∧ (d.sendUp u).mem = d.mem ∧ (d.sendUp u).tile = d.tile ∧ (d.sendUp u).call = d.call := by
  unfold Dev.sendUp
  split <;> simp

/-- What completing the aggregate keeps where the herd does not stop here. -/
theorem Dev.tryDone_goes (ho : d.frm.isOpen = true) (hs : d.frm.doneSent = false) (hd : d.frm.ownDone = true) (hc : d.childrenDone = true)
    (hstop : d.atStop = false ∨ d.bellwether = true) : let r := d.tryDone
    r.mem = d.mem ∧ r.tile = d.tile ∧ r.call = d.call ∧ ∃ c x y t, r.frm = { d.frm with doneSent := true, aggCauses := c, aggX := x, aggY := y, aggThrottle := t } := by
  intro r
  have hr : r = d.aggregated ∨ r = d.aggregated.sendUp (.done d.aggregated.doneInfo) := by
    simp only [r, Dev.tryDone_complete ho hs hd hc]
    cases hb : d.bellwether with
    | true => exact .inl (if_pos rfl)
    | false =>
      have ha : (d.aggregated.sendUp (.done d.aggregated.doneInfo)).atStop = d.atStop := by
        simp only [Dev.atStop, (d.aggregated.sendUp_rest _).1]
        rfl
      rw [ha, hstop.resolve_right (by simp [hb])]
      exact .inr (by simp)
  rcases hr with hr | hr <;> rw [hr]
  · exact ⟨rfl, rfl, rfl, _, _, _, _, rfl⟩
  · obtain ⟨h₁, h₂, h₃, h₄⟩ := d.aggregated.sendUp_rest (.done d.aggregated.doneInfo)
    exact ⟨h₂, h₃, h₄, _, _, _, _, h₁.trans rfl⟩

theorem Dev.tryDone_stops (ho : d.frm.isOpen = true) (hs : d.frm.doneSent = false) (hd : d.frm.ownDone = true) (hc : d.childrenDone = true)
    (hb : d.bellwether = false) (hstop : d.atStop = true) : d.tryDone.frm.isOpen = false := by
  have ha : (d.aggregated.sendUp (.done d.aggregated.doneInfo)).atStop = d.atStop := by
    simp only [Dev.atStop, (d.aggregated.sendUp_rest _).1]
    rfl
  rw [Dev.tryDone_complete ho hs hd hc, hb, ha, hstop]
  exact Dev.stopNow_isOpen _

/-- The device whose own work of the frame has just ended (R36). -/
def Dev.ownEnded (d : Dev) (t : Nat) : Dev := (d.at_ t).workEnd.modFrm fun f => { f with ownDone := true, ownLast := d.childrenDone }

theorem Dev.ownEnded_timing (d : Dev) (t : Nat) : (d.ownEnded t).frm.timing = { d.frm.timing with ownDone := true, ownLast := d.childrenDone } := by
  have h : (d.at_ t).workEnd.frm.timing = d.frm.timing := (d.at_ t).workEnd_timing
  exact congrArg (fun f : Frm => { f with ownDone := true, ownLast := d.childrenDone }) h

theorem Dev.ownEnded_shape (d : Dev) (t : Nat) : (d.ownEnded t).mesh.shape = d.mesh.shape := by
  rw [Dev.ownEnded, Dev.modFrm_mesh, Dev.workEnd_shape]
  rfl

theorem doneSend_eq {t : Nat} (hr : d.coreRuns = true) (ho : d.frm.isOpen = true) (hst : d.frm.stall = none) (hou : d.frm.outst = []) (hf : d.dbg.frozen = false)
    (hd : d.frm.ownDone = false) : doneSend t d = (d.ownEnded t).tryDone := by
  unfold doneSend
  rw [if_neg (by simp [hr, ho, hst, hou, hf])]
  have hd' : (d.at_ t).frm.ownDone = false := hd
  have hc : (d.at_ t).childrenDone = d.childrenDone := rfl
  simp only [hd', hc, Bool.false_eq_true, if_false, Dev.ownEnded]

theorem Dev.tryDone_cleared {e : Dev} (he : e.mem.apron = [] ∧ e.mem.tags = [] ∧ e.tile.acc = [] ∧ e.tile.pend = [] ∧ e.tile.queue = [])
    (ho : e.frm.isOpen = true) (hs : e.frm.doneSent = false) (hd : e.frm.ownDone = true) (hu : e.frm.outst = [])
    (hstop : e.atStop = false ∨ e.bellwether = true ∨ e.childrenDone = false) : let d := e.tryDone
    d.mem.apron = [] ∧ d.mem.tags = [] ∧ d.tile.acc = [] ∧ d.tile.pend = [] ∧ d.tile.queue = [] ∧ d.frm.outst = [] ∧ d.frm.ownDone = true ∧
    d.frm.ownLast = e.frm.ownLast ∧ d.frm.doneSent = e.childrenDone := by
  obtain ⟨h₁, h₂, h₃, h₄, h₅⟩ := he
  dsimp only
  cases hc : e.childrenDone with
  | false =>
    rw [Dev.tryDone_waiting hc]
    exact ⟨h₁, h₂, h₃, h₄, h₅, hu, hd, rfl, hs⟩
  | true =>
    obtain ⟨hm, ht, -, c, x, y, t, hf⟩ := Dev.tryDone_goes ho hs hd hc (hstop.imp_right fun h => h.resolve_right (by simp [hc]))
    rw [hm, ht, hf]
    exact ⟨h₁, h₂, h₃, h₄, h₅, hu, hd, rfl, rfl⟩

/-- The device that holds the DONE of these children. -/
def Dev.holding (d : Dev) (cs : List DoneHeld) : Dev := d.modFrm fun f => { f with children := cs }

theorem Dev.holding_tryDone (d : Dev) (cs : List DoneHeld) (ho : d.frm.isOpen = true) (hstop : d.atStop = false ∨ d.bellwether = true) :
    let r := (d.holding cs).tryDone
    r.frm.children = cs ∧ r.frm.ownDone = d.frm.ownDone ∧
    r.frm.doneSent = (d.frm.doneSent || (d.frm.ownDone && d.children.all fun c => cs.any fun x => linkDir x.link == linkDir c)) ∧
    r.mem = d.mem ∧ r.tile = d.tile ∧ r.call = d.call := by
  have hc : (d.holding cs).childrenDone = d.children.all fun c => cs.any fun x => linkDir x.link == linkDir c := rfl
  dsimp only
  cases hs : d.frm.doneSent with
  | true =>
    rw [Dev.tryDone_sent (by exact hs)]
    exact ⟨rfl, rfl, hs, rfl, rfl, rfl⟩
  | false =>
    cases hd : d.frm.ownDone with
    | false =>
      rw [Dev.tryDone_unready (by exact hd)]
      exact ⟨rfl, hd, hs, rfl, rfl, rfl⟩
    | true =>
      rw [← hc]
      cases hcd : (d.holding cs).childrenDone with
      | false =>
        rw [Dev.tryDone_waiting hcd]
        exact ⟨rfl, hd, hs, rfl, rfl, rfl⟩
      | true =>
        obtain ⟨hm, ht, hcall, c, x, y, t, hf⟩ := @Dev.tryDone_goes (d.holding cs) ho hs hd hcd hstop
        rw [hm, ht, hcall, hf]
        exact ⟨rfl, hd, rfl, rfl, rfl, rfl⟩

/-- Settles O42: DONE_SEND by whether the aggregate is complete and the herd stops, and a child's DONE. -/
theorem doneFollowsTheWorkOfTheFrame : Obligations.DoneFollowsTheWorkOfTheFrame := by
  intro s hr ho
  refine ⟨fun t hst hou hf hd hs => ?_, fun t h => State.gives_onDev rfl ?_, fun link u hstop hch hnum => ?_, fun link u h => State.gives_onDev rfl ?_⟩
  · have heq := @doneSend_eq s.dev t hr ho hst hou hf hd
    have htm := s.dev.ownEnded_timing t
    have hsh := s.dev.ownEnded_shape t
    have hcl : (s.dev.ownEnded t).mem.apron = [] ∧ (s.dev.ownEnded t).mem.tags = [] ∧ (s.dev.ownEnded t).tile.acc = [] ∧ (s.dev.ownEnded t).tile.pend = [] ∧
      (s.dev.ownEnded t).tile.queue = [] := (s.dev.at_ t).workEnd_cleared
    generalize s.dev.ownEnded t = e at heq htm hsh hcl
    have ho' : e.frm.isOpen = true := (congrArg Frm.isOpen htm :).trans ho
    have hs' : e.frm.doneSent = false := (congrArg Frm.doneSent htm :).trans hs
    have hd' : e.frm.ownDone = true := (congrArg Frm.ownDone htm :)
    have hl : e.frm.ownLast = s.dev.childrenDone := (congrArg Frm.ownLast htm :)
    have hu : e.frm.outst = [] := (congrArg Frm.outst htm :).trans hou
    have hc : e.childrenDone = s.dev.childrenDone := Dev.childrenDone_of hsh (congrArg Frm.children htm :)
    have hb : e.bellwether = s.dev.bellwether := Dev.bellwether_of_shape hsh
    have ha : e.atStop = s.dev.atStop := by
      have hs : e.frm.stopAt = s.dev.frm.stopAt := (congrArg Frm.stopAt htm :)
      have hp : e.frm.played = s.dev.frm.played := (congrArg Frm.played htm :)
      have hn : e.frm.frame = s.dev.frm.frame := (congrArg Frm.frame htm :)
      simp only [Dev.atStop, Frm.next, hs, hp, hn]
    refine ⟨fun hstop => ⟨_, State.gives_onDev rfl heq, ?_⟩, fun h₁ h₂ h₃ => ⟨_, State.gives_onDev rfl heq, ?_⟩⟩
    · rw [← ha, ← hb, ← hc] at hstop
      rw [← hc] at hl ⊢
      have h := Dev.tryDone_cleared hcl ho' hs' hd' hu hstop
      rw [hl] at h
      exact h
    · exact Dev.tryDone_stops ho' hs' hd' (hc.trans h₃) (hb.trans h₂) (ha.trans h₁)
  · unfold doneSend
    rw [if_pos]
    rcases h with h | h <;> simp [h]
  · have heq : done link.val u s.dev = (s.dev.holding (s.dev.frm.children.filter (fun x => linkDir x.link != linkDir link.val) ++
        [⟨link.val, u.causes.toNat, u.throttle.toNat, u.last.x.toNat, u.last.y.toNat⟩])).tryDone := by
      unfold done
      rw [if_neg (by simp [hr, ho, hch, hnum])]
      rfl
    exact ⟨_, State.gives_onDev rfl heq, s.dev.holding_tryDone _ ho hstop⟩
  · unfold done
    rw [if_pos]
    rcases h with h | h <;> simp [h]

end Sys2Proof.Machine
end

section
/-! PROOF. The opening of a frame (R35, R42, R44): what a boundary keeps of the timing, of the mesh and of the holds. -/
namespace Sys2Proof.Machine
variable {d : Dev}

/-! ## Holds over the end of a frame -/

/-- No freeze goes on that nothing holds. -/
def Dbg.Still (b : Dbg) : Prop := b.held = true ∨ b.frozen = false

theorem Dev.hazard_still (h : d.dbg.Still) (store reader slot found n toks) : (d.hazard store reader slot found n toks).dbg.Still := by
  simp only [Dev.hazard]
  split
  · rw [Dev.contain_dbg]
    exact h
  · exact .inl ((Dbg.held_of_holds (Dev.engage_holds _ _ _ _)).trans (by simp [Dbg.held, Dbg.ownHeld]))
  · rw [Dev.raise_dbg (by simp)]
    exact h

theorem Dev.hazRead_still (h : d.dbg.Still) (store keys reader slot toks operand) : (d.hazRead store keys reader slot toks operand).dbg.Still := by
  unfold Dev.hazRead
  split
  · exact Machine.foldl_keeps (fun e : Dev => e.dbg.Still) _ (fun e n he => by
      split
      · exact Dev.hazard_still he ..
      · exact he) _ _ h
  · exact h

theorem Dev.rowRd_still (h : d.dbg.Still) (t tile row slot cue operand) : (d.rowRd t tile row slot cue operand).1.dbg.Still := by
  simp only [Dev.rowRd, Dev.rowsRd]
  exact Dev.hazRead_still (by simpa using h) ..

/-- The rows an evaluation reads are read before anything else, and nothing after that touches a hold. -/
theorem Dev.evalTok_still (h : d.dbg.Still) (c : EvalCue) (tok) : (d.evalTok c tok).dbg.Still := by
  have hrd : (if c.fmt = .aw8 then (d.rowRd tok c.tile.toNat c.row.toNat c.slot.toNat c.num.toNat).1.rowRd tok c.tile.toNat c.rowLo.toNat (c.slot.toNat + 1) c.num.toNat 1
      else ((d.rowRd tok c.tile.toNat c.row.toNat c.slot.toNat c.num.toNat).1, [])).1.dbg.Still := by
    split
    · exact Dev.rowRd_still (Dev.rowRd_still h ..) ..
    · exact Dev.rowRd_still h ..
  simp only [Dev.evalTok]
  split
  · simpa using h
  · split
    · simpa using h
    · split
      · simpa using h
      · split
        · simpa using h
        · generalize (if c.fmt = .aw8 then _ else _ : Dev × List Byte) = z at hrd ⊢
          obtain ⟨e, lo⟩ := z
          dsimp only at hrd ⊢
          simp only [Dev.modTile_dbg]
          simpa [Dev.serveLane] using hrd

theorem Dev.advance_still (h : d.dbg.Still) (slot) : (d.advance slot).dbg.Still := by
  refine Machine.foldl_keeps (fun e : Dev => e.dbg.Still) Dev.evalRun (fun e c he => ?_) _ _ h
  unfold Dev.evalRun
  split
  · exact he
  · exact Dev.evalTok_still he ..

theorem Dev.workEnd_still (h : d.dbg.Still) : d.workEnd.dbg.Still := by
  have hf (q : List RepReq) (e : Dev) : (q.foldl (fun d r => if r.tok.cls = 0 then d.discardTok r.tok.step 1 else d.unserved r) e).dbg = e.dbg :=
    Dev.foldl_dbg (fun d r => by split <;> simp) _ _
  simp only [Dev.workEnd, Dev.modTile_dbg, Dev.tagZeroing_dbg, Dev.modMem_dbg, hf]
  exact Dev.advance_still h _

theorem Dev.frameOver_still (h : d.dbg.Still) (len) : (d.frameOver len).dbg.Still := by
  have hc : (if d.frm.ownDone then d else d.cutStall len).dbg = d.dbg := by split <;> simp
  simp only [Dev.frameOver, Dev.modFrm_dbg]
  generalize (if d.frm.ownDone then d else d.cutStall len) = e at hc ⊢
  have ha : (if e.frm.doneSent then e else e.aggregate).dbg = d.dbg := by split <;> simp [hc]
  generalize (if e.frm.doneSent then e else e.aggregate) = g at ha ⊢
  have hg : g.dbg.Still := by rw [ha]; exact h
  split
  · exact hg
  · exact Dev.workEnd_still hg

theorem Dev.overrun_dbg (d : Dev) (len) : (d.overrun len).dbg = d.dbg := by
  simp only [Dev.overrun]
  (repeat' split) <;> simp

theorem Dev.closeFrame_still (h : d.dbg.Still) (start abort) : (d.closeFrame start abort).dbg.Still := by
  simp only [Dev.closeFrame]
  split
  · exact h
  · have hf := Dev.frameOver_still h (start - d.frm.start)
    split <;> simpa [Dev.overrun_dbg] using hf

/-! ## The close of the open frame -/

theorem Dev.overrun_timing (d : Dev) (len) : (d.overrun len).frm.timing = { d.frm.timing with aborted := true, overruns := bump d.frm.overruns } := by
  unfold Dev.overrun
  extract_lets late det d₁ d₂ h d₃
  have h₁ : d₁.frm.timing = { d.frm.timing with aborted := true, overruns := bump d.frm.overruns } := rfl
  have h₂ : d₂.frm.timing = d₁.frm.timing := by
    simp only [d₂]
    rw [Dev.discardAll_timing, Dev.raise_timing (by simp)]
  have h₃ : d₃.frm.timing = d₂.frm.timing := rfl
  rw [← h₁, ← h₂, ← h₃]
  split
  · split
    · exact Dev.raise_timing (by simp)
    · rfl
  · rfl

/-- A frame's timing once the frame is closed, with what is outstanding then. -/
def Frm.closed (f : Frm) (o : List Outst) (abort : Bool) : Frm := { f with outst := o, aborted := if f.isOpen && abort then true else f.aborted, overruns := if f.isOpen && abort then bump f.overruns else f.overruns }

/-- A frame's timing once frame num is open from start. -/
def Frm.opened (f : Frm) (num start planned level : Nat) : Frm := { f with isOpen := true, frame := num % 2 ^ 64, start := start, planned := planned, played := f.played + 1, throttle := level, children := [], ownDone := false, doneSent := false, ownLast := false, outst := [] }

/-- The close of a frame empties what is outstanding, and counts an overrun where it is aborted. -/
theorem Dev.closeFrame_timing (d : Dev) (start : Nat) (abort : Bool) : ∃ o, (d.closeFrame start abort).frm.timing = d.frm.timing.closed o abort := by
  simp only [Dev.closeFrame]
  cases ho : d.frm.isOpen with
  | false => exact ⟨d.frm.outst, by simp [ho, Frm.timing, Frm.closed]⟩
  | true =>
    have hf := d.frameOver_timing (start - d.frm.start)
    refine ⟨[], ?_⟩
    simp only [Bool.not_true, Bool.false_eq_true, if_false, Dev.laneFree_frm, Dev.flushDiscards_timing, Bool.true_and]
    generalize d.frameOver (start - d.frm.start) = e at hf
    cases abort with
    | false => simpa [Frm.closed] using hf
    | true =>
      have hov : e.frm.overruns = d.frm.overruns := (congrArg Frm.overruns hf :)
      have hg := e.overrun_timing (start - d.frm.start)
      rw [hf, hov] at hg
      simp only [if_true]
      rw [hg]
      simp [Frm.closed, Frm.timing, ho]

/-! ## Masks that switch at a boundary -/

/-- A link once the masks named for frame f apply (R370). -/
def Link.switched (x : Link) (f : Nat) : Link :=
  let x := match x.nextMask with | some (k, g) => if g = f then { x with lanes := k &&& ~~~ x.disabled, nextMask := none }.restate else x | none => x
  match x.nextTx with | some (k, g) => if g = f then { x with txLanes := k, nextTx := none } else x | none => x

theorem Dev.switchMasks_link (d : Dev) (num n : Nat) : (d.switchMasks num).link n = (d.link n).switched (num % 65536) :=
  sgetD_map (fun x : Link => x.switched (num % 65536)) d.mesh.links n {} rfl

theorem Link.restate_st {x y : Link} (hs : x.st = y.st) (hl : x.lanes = y.lanes) (hd : x.disabled = y.disabled) : x.restate.st = y.restate.st := by
  simp only [Link.restate, hs, hl, hd]
  (repeat' split) <;> simp_all

theorem Link.switched_working {x y : Link} (h : x.mask = y.mask) (f : Nat) : (x.switched f).working = (y.switched f).working := by
  simp only [Link.mask, Prod.mk.injEq] at h
  obtain ⟨hs, hl, hd, hn⟩ := h
  have htx (z : Link) : (match z.nextTx with | some (k, g) => if g = f then { z with txLanes := k, nextTx := none } else z | none => z).st = z.st := by
    (repeat' split) <;> rfl
  simp only [Link.working, Link.switched, htx, hn]
  have hm (k : BitVec 4) : ({ x with lanes := k &&& ~~~ x.disabled, nextMask := none } : Link).restate.st =
      ({ y with lanes := k &&& ~~~ y.disabled, nextMask := none } : Link).restate.st := Link.restate_st hs (by rw [hd]) hd
  split
  · split
    · rw [hm]
    · rw [hs]
  · rw [hs]

theorem Dev.working_switched {e : Dev} (h : e.mesh.shape = d.mesh.shape) {num num' : Nat} (hn : num % 65536 = num' % 65536) (b : Dir) :
    (e.switchMasks num).working b = (d.switchMasks num').working b := by
  have hl (n : Nat) : ((e.switchMasks num).link n).working = ((d.switchMasks num').link n).working := by
    rw [Dev.switchMasks_link, Dev.switchMasks_link, hn]
    exact Link.switched_working (congrFun (congrArg Prod.snd h) n) _
  simp only [Dev.working, hl]

/-- No bundle loses its last link where the masks of frame num apply. -/
def Dev.KeepsBundles (d : Dev) (num : Nat) : Prop := ∀ b ∈ [Dir.west, .east, .north, .south], d.working b ≠ [] → (d.switchMasks num).working b ≠ []

theorem Dev.bundlesCheck_kept {b e : Dev} (h : ∀ x ∈ [Dir.west, .east, .north, .south], b.working x ≠ [] → e.working x ≠ []) :
    Dev.bundlesCheck b e = b.parentCheck e := by
  unfold Dev.bundlesCheck
  rw [if_neg]
  simp only [List.any_eq_true, not_exists, not_and, Bool.and_eq_true, Bool.not_eq_true', List.isEmpty_iff]
  intro x hx hb he
  exact h x hx (by simpa [List.isEmpty_iff] using hb) he

/-! ## The new frame -/

theorem Dev.bundle_of_shape {e : Dev} (h : e.mesh.shape = d.mesh.shape) (b : Dir) : e.working b = d.working b := by
  simp only [Dev.working, Dev.working_of_shape h]

/-- What opening frame num from start leaves, from d. -/
structure Opened (d : Dev) (num level start : Nat) (abort : Bool) (r : Dev) : Prop where
  frame : r.frm.frame = num % 2 ^ 64
  start : r.frm.start = start
  planned : r.frm.planned = d.plannedAt level
  throttle : r.frm.throttle = level
  played : r.frm.played = d.frm.played + 1
  isOpen : r.frm.isOpen = true
  ownDone : r.frm.ownDone = false
  doneSent : r.frm.doneSent = false
  tickInLast : r.frm.tickInLast = d.frm.tickInLast
  aborted : (d.frm.isOpen && abort) = true → r.frm.aborted = true ∧ r.frm.overruns = bump d.frm.overruns

theorem Dev.openFrame_spec {num level start : Nat} {abort : Bool} (hk : d.KeepsBundles num) (hs : d.dbg.Still) :
    Opened d num level start abort (d.openFrame num level abort start) := by
  obtain ⟨o, hclose⟩ := d.closeFrame_timing start abort
  unfold Dev.openFrame
  extract_lets len d₁ d₂ d₃ hot d₄ d₅ links d₆ d₇ d₈ d₉ d₁₀ d₁₁ d₁₂ d₁₃
  have m₁ : d₁.mesh.shape = d.mesh.shape := d.closeFrame_shape start abort
  have m₃ : d₃.mesh.shape = d.mesh.shape := by
    simp only [d₃, d₂]
    simp [m₁]
  have t₁ : d₁.frm.timing = d.frm.timing.closed o abort := hclose
  have c₁ : d₁.scr.script = d.scr.script := d.closeFrame_script start abort
  have b₁ : d₁.dbg.Still := Dev.closeFrame_still hs start abort
  clear_value d₁
  have t₃ : d₃.frm.timing = d₁.frm.timing := by simp [d₃, d₂]
  have c₃ : d₃.scr.script = d₁.scr.script := by simp [d₃, d₂]
  have b₃ : d₃.dbg = d₁.dbg := by simp [d₃, d₂]
  clear_value d₃
  have p₃ : d₃.plannedAt level = d.plannedAt level := by
    have he : d₃.frm.tickInEn = d.frm.tickInEn := ((congrArg Frm.tickInEn t₃ :)).trans (congrArg Frm.tickInEn t₁ :)
    have hu : d₃.frm.tickInUse = d.frm.tickInUse := ((congrArg Frm.tickInUse t₃ :)).trans (congrArg Frm.tickInUse t₁ :)
    have hp : d₃.period = d.period := by
      unfold Dev.period
      rw [c₃, c₁]
    simp only [Dev.plannedAt, Dev.tickInPaces, Dev.bellwether_of_shape m₃, hp, he, hu]
    rfl
  have t₄ : d₄.frm.timing = d₁.frm.timing.slewPath.opened num start (d.plannedAt level) level := by
    simp only [d₄, Dev.modFrm_frm, p₃, Frm.timing_other, ← t₃]
    rfl
  have m₄ : d₄.mesh.shape = d.mesh.shape := m₃
  have b₄ : d₄.dbg = d₁.dbg := b₃
  clear_value d₄
  have t₅ : d₅.frm.timing = d₄.frm.timing := rfl
  have b₅ : d₅.dbg = d₁.dbg := b₄
  have m₅ : d₅.mesh.shape = d.mesh.shape := m₄
  have l₅ : links = d₅ := rfl
  clear_value d₅ links
  have t₆ : d₆.frm.timing = d₅.frm.timing := by simp [d₆]
  have b₆ : d₆.dbg = d₁.dbg := by simp [d₆, b₅]
  have m₆ (b : Dir) : d₆.working b = (d.switchMasks num).working b := Dev.working_switched ((Dev.newStreams_shape _).trans m₅) rfl b
  clear_value d₆
  have s₇ : d₇.frm.timing = d₆.frm.timing ∧ d₇.dbg = d₆.dbg ∧ d₇.mesh.shape = d₆.mesh.shape := by
    simp only [d₇]
    split
    · split <;> simp
    · exact ⟨rfl, rfl, rfl⟩
  clear_value d₇
  have s₈ : d₈.frm.timing = d₇.frm.timing ∧ d₈.dbg = d₇.dbg ∧ d₈.mesh.shape = d₇.mesh.shape := by
    simp only [d₈]
    split
    · simp
    · exact ⟨rfl, rfl, rfl⟩
  clear_value d₈
  have s₉ : d₉.frm.timing = d₈.frm.timing ∧ d₉.dbg = d₈.dbg ∧ d₉.mesh.shape = d₈.mesh.shape := by
    simp only [d₉]
    (repeat' split) <;> simp
  clear_value d₉
  have s₁₀ : d₁₀.frm.timing = d₉.frm.timing ∧ d₁₀.dbg = d₉.dbg ∧ d₁₀.mesh.shape = d₉.mesh.shape := by
    simp [d₁₀, Dev.modeBoundary]
  clear_value d₁₀
  have s₁₁ : d₁₁.frm.timing = d₁₀.frm.timing ∧ d₁₁.dbg = d₁₀.dbg ∧ d₁₁.mesh.shape = d₁₀.mesh.shape := by
    simp only [d₁₁]
    split
    · simp
    · exact ⟨rfl, rfl, rfl⟩
  clear_value d₁₁
  have s₁₂ : d₁₂.frm.timing = d₁₁.frm.timing ∧ d₁₂.dbg = d₁₁.dbg ∧ d₁₂.mesh.shape = d₁₁.mesh.shape := by
    simp only [d₁₂]
    split <;> exact ⟨rfl, rfl, rfl⟩
  clear_value d₁₂
  have s₁₃ : d₁₃.frm.timing = d₁₂.frm.timing ∧ d₁₃.dbg = d₁₂.dbg ∧ d₁₃.mesh.shape = d₁₂.mesh.shape := by
    simp [d₁₃]
  clear_value d₁₃
  have hap : (Dev.bundlesCheck links ((d₁₃.nameDrain num).nameRaise num)).applyHolds.frm.timing = d₄.frm.timing := by
    rw [Dev.bundlesCheck_kept, Dev.applyHolds_timing]
    · simp [s₁₃, s₁₂, s₁₁, s₁₀, s₉, s₈, s₇, t₆, t₅]
    · simp [s₁₃, s₁₂, s₁₁, s₁₀, s₉, s₈, s₇, b₆]
      exact b₁
    · intro x hx hb
      have hk' := hk x hx (by rwa [l₅, Dev.bundle_of_shape m₅] at hb)
      have hsh : ((d₁₃.nameDrain num).nameRaise num).mesh.shape = d₆.mesh.shape := by simp [s₁₃, s₁₂, s₁₁, s₁₀, s₉, s₈, s₇]
      rwa [Dev.bundle_of_shape hsh, m₆]
  have hp := (congrArg Frm.played t₁ :)
  have hl := (congrArg Frm.tickInLast t₁ :)
  have ha := (congrArg Frm.aborted t₁ :)
  have ho := (congrArg Frm.overruns t₁ :)
  rw [t₄] at hap
  generalize (Dev.bundlesCheck links ((d₁₃.nameDrain num).nameRaise num)).applyHolds = r at hap ⊢
  exact ⟨(congrArg Frm.frame hap :), (congrArg Frm.start hap :), (congrArg Frm.planned hap :), (congrArg Frm.throttle hap :),
    ((congrArg Frm.played hap :)).trans (congrArg (· + 1) hp), (congrArg Frm.isOpen hap :), (congrArg Frm.ownDone hap :),
    (congrArg Frm.doneSent hap :), ((congrArg Frm.tickInLast hap :)).trans hl,
    fun h => ⟨((congrArg Frm.aborted hap :)).trans (ha.trans (if_pos h)), ((congrArg Frm.overruns hap :)).trans (ho.trans (if_pos h))⟩⟩

end Sys2Proof.Machine
end

section
/-! PROOF. The commands that open the next frame: the launch, the abort, the edge of TICK_IN and the tick from the parent (R35, R42, R44). -/
namespace Sys2Proof.Machine
variable {d e : Dev}

/-- What the timing of a frame at a boundary depends on is the same in e as in d. -/
structure SameFrame (d e : Dev) : Prop where
  timing : e.frm.timing = d.frm.timing
  shape : e.mesh.shape = d.mesh.shape
  script : e.scr.script = d.scr.script
  dbg : e.dbg = d.dbg

theorem SameFrame.plannedAt (h : SameFrame d e) (level : Nat) : e.plannedAt level = d.plannedAt level := by
  have he : e.frm.tickInEn = d.frm.tickInEn := (congrArg Frm.tickInEn h.timing :)
  have hu : e.frm.tickInUse = d.frm.tickInUse := (congrArg Frm.tickInUse h.timing :)
  have hp : e.period = d.period := by
    unfold Dev.period
    rw [h.script]
  simp only [Dev.plannedAt, Dev.tickInPaces, Dev.bellwether_of_shape h.shape, hp, he, hu]
  rfl

theorem SameFrame.next (h : SameFrame d e) : e.frm.next = d.frm.next := by
  have hp : e.frm.played = d.frm.played := (congrArg Frm.played h.timing :)
  have hf : e.frm.frame = d.frm.frame := (congrArg Frm.frame h.timing :)
  simp only [Frm.next, hp, hf]

theorem SameFrame.keeps (h : SameFrame d e) {num num' : Nat} (hn : num % 65536 = num' % 65536) (hk : d.KeepsBundles num') : e.KeepsBundles num := by
  intro b hb hw
  rw [Dev.working_switched h.shape hn]
  exact hk b hb (by rwa [Dev.bundle_of_shape h.shape] at hw)

theorem SameFrame.opened_of (h : SameFrame d e) {num level start : Nat} {abort : Bool} {r : Dev} (ho : Opened e num level start abort r) :
    Opened d num level start abort r := by
  have hp : e.frm.played = d.frm.played := (congrArg Frm.played h.timing :)
  have hl : e.frm.tickInLast = d.frm.tickInLast := (congrArg Frm.tickInLast h.timing :)
  have hi : e.frm.isOpen = d.frm.isOpen := (congrArg Frm.isOpen h.timing :)
  have hv : e.frm.overruns = d.frm.overruns := (congrArg Frm.overruns h.timing :)
  exact { ho with planned := ho.planned.trans (h.plannedAt _), played := by rw [ho.played, hp], tickInLast := by rw [ho.tickInLast, hl]
                  aborted := by rw [← hi, ← hv]; exact ho.aborted }

theorem SameFrame.opened (h : SameFrame d e) {num num' level start : Nat} {abort : Bool} (hn : num % 65536 = num' % 65536) (hk : d.KeepsBundles num')
    (hs : d.dbg.frozen = false) : Opened d num level start abort (e.openFrame num level abort start) :=
  h.opened_of (Dev.openFrame_spec (h.keeps hn hk) (.inr (by rw [h.dbg, hs])))

/-! ## The launch -/

/-- The throttle level of the frame that the bellwether launches. -/
def Dev.launchLevel (d : Dev) : Nat := min 8 (if d.frm.isOpen then (d.frm.children.map DoneHeld.throttle).foldl max d.thm.level % 16 else d.thm.level)

theorem Dev.launch_eq (d : Dev) (t : Nat) (abort : Bool) : ∃ u, d.launch t abort = (d.aggregate.sendDown u).openFrame d.frm.next d.launchLevel abort (t + d.frm.lat) := by
  have hn : d.aggregate.frm.next = d.frm.next := rfl
  have hl : (if d.aggregate.frm.isOpen then min 8 d.aggregate.frm.aggThrottle else min 8 d.aggregate.thm.level) = d.launchLevel := by
    have ht : d.aggregate.frm.aggThrottle = (d.frm.children.map DoneHeld.throttle).foldl max d.thm.level % 16 := by
      rw [List.foldl_map]
      rfl
    have ho : d.aggregate.frm.isOpen = d.frm.isOpen := rfl
    rw [ht, ho, Dev.launchLevel]
    split <;> rfl
  unfold Dev.launch
  extract_lets e num level f
  have hlevel : level = d.launchLevel := hl
  refine ⟨.tick ⟨BitVec.ofNat 16 num, abort, BitVec.ofNat 4 level, 0⟩, ?_⟩
  have hf : f.frm.lat = d.frm.lat := by simp [f, e, Dev.aggregate]
  have hnum : num = d.frm.next := hn
  rw [hf, ← hlevel, ← hnum]

/-- A launch opens the next frame at the level the herd asks for. -/
theorem Dev.launch_spec (t : Nat) (abort : Bool) (hk : d.KeepsBundles d.frm.next) (hs : d.dbg.frozen = false) :
    Opened d d.frm.next d.launchLevel (t + d.frm.lat) abort (d.launch t abort) := by
  obtain ⟨u, h⟩ := d.launch_eq t abort
  rw [h]
  exact SameFrame.opened ⟨by simp, by simp, by simp, by simp⟩ rfl hk hs

theorem Dev.mayLaunch_frozen (h : d.mayLaunch = true) : d.dbg.frozen = false := by
  simp [Dev.mayLaunch] at h
  exact h.1.2

/-- A tick from the parent opens the frame it names, on a device whose frame it leaves as it was. -/
theorem tick_eq {link : Nat} {u : TickInfo} {t : Nat} (hc : d.coreRuns = true) (hb : d.bellwether = false) (hp : d.fromParent link = true)
    (hr : d.frm.running = true) (hz : d.dbg.frozen = false) : ∃ n e, SameFrame d e ∧
      tick link u t d = e.openFrame n u.level.toNat u.abort (t - u.late.toNat / 100 + (d.frm.lat - d.frm.path)) ∧
      (d.frm.played ≠ 0 → n % 65536 = u.num.toNat) ∧ (d.frm.played = 0 ∨ u.num.toNat = d.frm.next % 65536 → n = d.frm.next) := by
  unfold tick
  rw [if_neg (by simp [hc, hb, hp, hr, hz])]
  extract_lets e start exp num e'
  have he : SameFrame d e := ⟨by simp [e], by simp [e], by simp [e], by simp [e]⟩
  have hs : start = t - u.late.toNat / 100 + (d.frm.lat - d.frm.path) := by simp [start, e]
  have hx : exp = d.frm.next := he.next
  have he' : SameFrame d e' :=
    ⟨by simp [e', Dev.raise_timing, he.timing], by simp [e', he.shape], by simp [e', he.script], by simp [e', he.dbg]⟩
  have hp' : e.frm.played = d.frm.played := (congrArg Frm.played he.timing :)
  have hlt : u.num.toNat < 65536 := u.num.isLt
  rw [hs]
  clear_value e e' start exp
  split
  next h =>
    rw [hx, hp', Bool.or_eq_true, decide_eq_true_eq, decide_eq_true_eq] at h
    refine ⟨exp, e, he, rfl, fun h0 => ?_, fun _ => hx⟩
    rw [hx]
    exact h.resolve_right h0
  next h =>
    rw [hx, hp', Bool.or_eq_true, decide_eq_true_eq, decide_eq_true_eq, not_or] at h
    refine ⟨num, e', he', rfl, fun _ => ?_, fun h' => absurd h' (by simp [h.2, Ne.symm h.1])⟩
    simp only [num]
    omega

/-- Settles O41: the launch, the abort and a tick from the parent each open the next frame at its boundary, and otherwise leave the device as it is. -/
theorem ticksOpenTheNextFrame : Obligations.TicksOpenTheNextFrame := by
  refine ⟨?_, ?_⟩
  · intro s t hm f all keeps level opens
    have hz := Dev.mayLaunch_frozen hm
    have hop (abort : Bool) (hk : keeps) : Opened s.dev f.next level (t + f.lat) abort ((s.dev.at_ t).launch t abort) :=
      @SameFrame.opened_of s.dev (s.dev.at_ t) ⟨rfl, rfl, rfl, rfl⟩ _ _ _ _ _ (@Dev.launch_spec (s.dev.at_ t) t abort hk hz)
    have hopens {abort : Bool} {r : Dev} (h : Opened s.dev f.next level (t + f.lat) abort r) : opens r :=
      ⟨h.frame, h.start, h.throttle, h.planned, h.played, h.isOpen, h.ownDone, h.doneSent⟩
    refine ⟨fun hp hk h => ?_, fun hp h => ?_, fun ho ha ht hs => ?_, fun ho h => ?_, fun ho ha hk ht => ?_, fun h => ?_⟩
    · have heq : tickLaunch t s.dev = (s.dev.at_ t).launch t false := by
        unfold tickLaunch
        rcases h with h | ⟨⟨h₁, h₂⟩, h₃, h₄⟩
        · simp [hm, hp, show s.dev.frm.isOpen = false from h]
        · have h₁ : s.dev.frm.ownDone = true := h₁
          have h₃ : s.dev.frm.start + s.dev.frm.planned ≤ t + s.dev.frm.lat := h₃
          simp [hm, hp, h₁, h₂, h₃, h₄]
      exact ⟨_, State.gives_onDev rfl heq, hopens (hop false hk)⟩
    · refine State.gives_onDev rfl ?_
      unfold tickLaunch
      rcases h with h | h
      · simp [hp, show s.dev.frm.isOpen = false from h]
      · simp [hp, h]
    · have heq : tickLaunch t s.dev = (s.dev.at_ t).aggregate.stopNow := by
        obtain ⟨h₁, h₂⟩ := ha
        have h₁ : s.dev.frm.ownDone = true := h₁
        have h₃ : s.dev.frm.start + s.dev.frm.planned ≤ t + s.dev.frm.lat := ht
        have ho : s.dev.frm.isOpen = true := ho
        unfold tickLaunch
        simp [hm, ho, h₁, h₂, h₃, hs]
      exact ⟨_, State.gives_onDev rfl heq, Dev.stopNow_isOpen _⟩
    · refine State.gives_onDev rfl ?_
      have ho : s.dev.frm.isOpen = true := ho
      have hn : (s.dev.frm.ownDone && s.dev.childrenDone && decide (s.dev.frm.start + s.dev.frm.planned ≤ t + s.dev.frm.lat)) = false := by
        rcases h with h | h
        · rw [Bool.and_eq_false_iff]
          left
          rw [Bool.and_eq_false_iff, ← Bool.not_eq_true, ← Bool.not_eq_true, ← not_and_or]
          exact h
        · simpa using fun _ _ => h
      unfold tickLaunch
      rw [hn]
      simp [hm, ho]
    · have heq : overrunAbort t s.dev = (s.dev.at_ t).launch t true := by
        unfold overrunAbort
        rw [if_pos]
        simp only [Bool.and_eq_true, decide_eq_true_eq]
        refine ⟨⟨⟨hm, ho⟩, ?_⟩, ht⟩
        rw [Bool.not_eq_true', Bool.and_eq_false_iff, ← Bool.not_eq_true, ← Bool.not_eq_true, ← not_and_or]
        exact ha
      have h := hop true hk
      exact ⟨_, State.gives_onDev rfl heq, hopens h, h.aborted (by simpa using ho)⟩
    · refine State.gives_onDev rfl ?_
      unfold overrunAbort
      rw [if_neg]
      rintro hc
      simp only [Bool.and_eq_true, decide_eq_true_eq] at hc
      obtain ⟨⟨⟨-, h₁⟩, h₂⟩, h₃⟩ := hc
      rcases h with h | h | h
      · exact absurd (h₁.symm.trans h) (by simp)
      · simp [show s.dev.frm.ownDone = true from h.1, h.2] at h₂
      · exact absurd h₃ (by simpa [f] using h)
  · intro s link u t f num
    have hnum : u.num.toNat < 65536 := u.num.isLt
    refine ⟨fun hc hb hp hr hz hk => ?_, fun h => State.gives_onDev rfl ?_⟩
    · obtain ⟨n, e, he, heq, hn, hnext⟩ := @tick_eq s.dev link.val u t hc hb hp hr hz
      have hmod : n % 65536 = num % 65536 := by
        by_cases h0 : f.played = 0
        · simp [num, h0, hnext (.inl h0), f]
        · rw [hn h0]
          simp only [num, if_neg h0]
          omega
      have hk' : s.dev.KeepsBundles num := hk
      have ho : Opened s.dev n u.level.toNat (t - u.late.toNat / 100 + (f.lat - f.path)) u.abort
          (e.openFrame n u.level.toNat u.abort (t - u.late.toNat / 100 + (f.lat - f.path))) := he.opened hmod hk' hz
      change _ = e.openFrame n u.level.toNat u.abort (t - u.late.toNat / 100 + (f.lat - f.path)) at heq
      generalize e.openFrame n u.level.toNat u.abort (t - u.late.toNat / 100 + (f.lat - f.path)) = r at heq ho
      refine ⟨_, State.gives_onDev rfl heq, fun h => ?_, fun h => ?_, ho.start, ho.throttle, ho.played, ho.isOpen, ho.ownDone⟩
      · rw [ho.frame, Nat.mod_mod_of_dvd _ (by norm_num : 65536 ∣ 2 ^ 64), hn h]
      · rw [ho.frame, hnext h]
    · unfold tick
      rw [if_pos]
      rcases h with h | h | h
      · simp [h]
      · simp [h]
      · simp [show s.dev.frm.running = false from h]

end Sys2Proof.Machine
end

section
/-! PROOF. Pacing by TICK_IN, the bellwether lost, echoes and stalls (R39 to R44, R47). -/
namespace Sys2Proof.Machine
variable {d e : Dev}

/-! ## TICK_IN -/

/-- The device once an edge of TICK_IN is accepted at t. -/
def Dev.edged (d : Dev) (t : Nat) : Dev := (d.at_ t).modFrm fun f => { f with tickInLast := some t, tickInUse := !f.tickInLost }

theorem tickInEdge_eq {t : Nat} (hc : d.coreRuns = true) (hb : d.bellwether = true) (he : d.frm.tickInEn = true)
    (hl : ∀ e, d.frm.tickInLast = some e → 9 * d.period ≤ 10 * (t - e)) : tickInEdge t d =
      if d.mayLaunch && !d.frm.tickInLost && !d.frm.isOpen then (d.edged t).launch (t - d.frm.lat) false
      else if d.mayLaunch && !d.frm.tickInLost && d.frm.isOpen && d.frm.ownDone && d.childrenDone && decide (d.frm.start + d.frm.planned ≤ t + d.frm.lat) && !d.atStop then
        (if d.frm.start + d.frm.planned < t then (d.edged t).modFrm fun f => { f with causes := f.causes ||| 128 } else d.edged t).launch (t - d.frm.lat) false
      else d.edged t := by
  have hnear : (match d.frm.tickInLast with | some e => decide (10 * (t - e) < 9 * d.period) | none => false) = false := by
    cases h : d.frm.tickInLast with
    | none => rfl
    | some e => simpa using hl e h
  unfold tickInEdge
  rw [if_neg (by simp [hc, hb, he])]
  extract_lets near x y
  have hn : near = false := hnear
  have hx : x = d.edged t := rfl
  have hm : x.mayLaunch = d.mayLaunch := rfl
  have hp : x.tickInPaces = !d.frm.tickInLost := by
    have hb' : x.bellwether = true := hb
    have he' : x.frm.tickInEn = true := he
    rw [Dev.tickInPaces, hb', he']
    rfl
  have ho : x.frm.isOpen = d.frm.isOpen := rfl
  have hd : x.frm.ownDone = d.frm.ownDone := rfl
  have hch : x.childrenDone = d.childrenDone := rfl
  have hs : x.frm.start = d.frm.start := rfl
  have hpl : x.frm.planned = d.frm.planned := rfl
  have hla : x.frm.lat = d.frm.lat := rfl
  have hst : x.atStop = d.atStop := rfl
  have hy : y = if d.frm.start + d.frm.planned < t then x.modFrm fun f => { f with causes := f.causes ||| 128 } else x := rfl
  have hyl : y.frm.lat = d.frm.lat := by
    rw [hy]
    split <;> rfl
  clear_value near x y
  rw [hn, hm, hp, ho, hd, hch, hs, hpl, hla, hst, hyl, hy, hx]
  rfl

theorem Dev.KeepsBundles.of_mesh {num num' : Nat} (hk : d.KeepsBundles num) (hm : e.mesh = d.mesh) (hn : num' = num) : e.KeepsBundles num' := by
  have hs : e.mesh.shape = d.mesh.shape := by rw [hm]
  intro b hb hw
  rw [Dev.working_switched hs (by rw [hn])]
  exact hk b hb (by rwa [Dev.bundle_of_shape hs] at hw)

/-- An edge that paces opens the next frame at the edge. -/
theorem Dev.edge_opens {t : Nat} (hm : e.mesh = d.mesh) (hf : e.frm.played = d.frm.played ∧ e.frm.frame = d.frm.frame ∧ e.frm.lat = d.frm.lat)
    (ht : e.frm.tickInLast = some t) (hz : e.dbg.frozen = false) (hk : d.KeepsBundles d.frm.next) (hl : d.frm.lat ≤ t) :
    let r := e.launch (t - d.frm.lat) false
    r.frm.start = t ∧ r.frm.frame = d.frm.next % 2 ^ 64 ∧ r.frm.played = d.frm.played + 1 ∧ r.frm.isOpen = true ∧ r.frm.ownDone = false ∧ r.frm.tickInLast = some t := by
  obtain ⟨h₁, h₂, h₃⟩ := hf
  have hn : e.frm.next = d.frm.next := by simp only [Frm.next, h₁, h₂]
  have ho := e.launch_spec (t - d.frm.lat) false (hk.of_mesh hm hn) hz
  refine ⟨?_, by rw [ho.frame, hn], by rw [ho.played, h₁], ho.isOpen, ho.ownDone, by rw [ho.tickInLast, ht]⟩
  rw [ho.start, h₃]
  omega

/-! ## The bellwether lost -/

/-- Without a filled lane no evaluation waits for anything. -/
theorem Dev.advance_noLanes (h : d.frm.lanes = []) (slot) : d.advance slot =
    d.modTile fun t => ({ t with late := t.late.filter fun c => !decide (c.slot.toNat < slot) } : Tile).land slot := by
  have hrun (e : Dev) (he : e.frm.lanes = []) (c : EvalCue) : e.evalRun c = e := by
    unfold Dev.evalRun
    rw [show e.lane c.lane.toNat = none by rw [Dev.lane, he]; rfl]
  have hfold (l : List EvalCue) (e : Dev) (he : e.frm.lanes = []) : l.foldl Dev.evalRun e = e := by
    induction l with
    | nil => rfl
    | cons c l ih => rw [List.foldl_cons, hrun e he, ih]
  rw [Dev.advance, hfold _ (d.modTile _) h]
  rfl

/-- Without a filled lane the end of the frame's work changes neither a hold nor the mesh nor STATE. -/
theorem Dev.workEnd_noLanes (h : d.frm.lanes = []) : d.workEnd.dbg = d.dbg ∧ d.workEnd.mesh = d.mesh ∧ d.workEnd.sys.st = d.sys.st := by
  have hf (q : List RepReq) (e : Dev) : (q.foldl (fun d r => if r.tok.cls = 0 then d.discardTok r.tok.step 1 else d.unserved r) e).dbg = e.dbg ∧
      (q.foldl (fun d r => if r.tok.cls = 0 then d.discardTok r.tok.step 1 else d.unserved r) e).mesh = e.mesh ∧
      (q.foldl (fun d r => if r.tok.cls = 0 then d.discardTok r.tok.step 1 else d.unserved r) e).sys.st = e.sys.st :=
    ⟨Dev.foldl_dbg (fun d r => by split <;> simp) _ _, Dev.foldl_mesh (fun d r => by split <;> simp) _ _, Dev.foldl_st (fun d r => by split <;> simp) _ _⟩
  simp only [Dev.workEnd, Dev.modTile_dbg, Dev.tagZeroing_dbg, Dev.modMem_dbg, Dev.modTile_mesh, Dev.tagZeroing_mesh, Dev.modMem_mesh,
    Dev.modTile_sys, Dev.tagZeroing_st, Dev.modMem_sys, hf, Dev.advance_noLanes h]
  exact ⟨trivial, trivial, trivial⟩

/-- e is d left by frames: its holds and place are d's, and STATE is d's or STRUCK. -/
structure LeftFrames (d e : Dev) : Prop where
  dbg : e.dbg = d.dbg
  place : e.mesh.place = d.mesh.place
  st : e.sys.st = d.sys.st ∨ e.sys.st = .struck
  running : e.frm.running = false
  isOpen : e.frm.isOpen = false
  lanes : e.frm.lanes = []

theorem Dev.enterStruck_st (d : Dev) : d.enterStruck.sys.st = .struck := by
  have hs (x : Dev) : (x.setSt .struck).sys.st = .struck := by
    unfold Dev.setSt
    split
    · assumption
    · simp
  simp only [Dev.enterStruck]
  split
  · simpa using hs _
  · exact hs _

/-- What is left of endFrames once the open frame is over. -/
theorem Dev.leftFrames_tail (e : Dev) : LeftFrames e (((if e.err.strikePending then e.enterStruck else e).flushDiscards).modFrm fun f =>
    { f.stopCues with running := false, isOpen := false, tickLock := false, lanes := [], nextLanes := [], skipped := [], nextSkipped := [], drain := none,
                      draining := none, drainedHeld := [], drainedSent := false, stopAt := none, children := [], want := none }) := by
  refine ⟨?_, ?_, ?_, rfl, rfl, rfl⟩
  · rw [Dev.modFrm_dbg]
    split <;> simp
  · rw [Dev.modFrm_mesh]
    split <;> simp
  · rw [Dev.modFrm_sys, Dev.flushDiscards_st]
    split
    · exact .inr e.enterStruck_st
    · exact .inl rfl

theorem Dev.frameOver_noLanes (h : d.frm.lanes = []) (len) : (d.frameOver len).dbg = d.dbg ∧ (d.frameOver len).sys.st = d.sys.st := by
  have hc : (if d.frm.ownDone then d else d.cutStall len).dbg = d.dbg ∧ (if d.frm.ownDone then d else d.cutStall len).sys.st = d.sys.st ∧
      (if d.frm.ownDone then d else d.cutStall len).frm.lanes = [] := by
    split
    · exact ⟨rfl, rfl, h⟩
    · refine ⟨by simp, by simp, ?_⟩
      unfold Dev.cutStall
      split
      · simp only [Dev.endStall, Dev.modFrm_frm]
        split <;> exact h
      · exact h
  simp only [Dev.frameOver, Dev.modFrm_dbg, Dev.modFrm_sys]
  generalize (if d.frm.ownDone then d else d.cutStall len) = e at hc ⊢
  obtain ⟨h₁, h₂, h₃⟩ := hc
  have ha : (if e.frm.doneSent then e else e.aggregate).dbg = d.dbg ∧ (if e.frm.doneSent then e else e.aggregate).sys.st = d.sys.st ∧
      (if e.frm.doneSent then e else e.aggregate).frm.lanes = [] := by
    split
    · exact ⟨h₁, h₂, h₃⟩
    · exact ⟨h₁, h₂, h₃⟩
  generalize (if e.frm.doneSent then e else e.aggregate) = g at ha ⊢
  obtain ⟨g₁, g₂, g₃⟩ := ha
  split
  · exact ⟨g₁, g₂⟩
  · obtain ⟨w₁, -, w₃⟩ := Dev.workEnd_noLanes g₃
    exact ⟨w₁.trans g₁, w₃.trans g₂⟩

theorem Dev.endFrames_noLanes (h : d.frm.isOpen = true → d.frm.lanes = []) (len) : LeftFrames d (d.endFrames len) := by
  have h₁ : (if d.frm.isOpen then (d.frameOver len).agesEnd len else d).dbg = d.dbg ∧ (if d.frm.isOpen then (d.frameOver len).agesEnd len else d).sys.st = d.sys.st ∧
      (if d.frm.isOpen then (d.frameOver len).agesEnd len else d).mesh.place = d.mesh.place := by
    split
    next ho =>
      obtain ⟨f₁, f₂⟩ := Dev.frameOver_noLanes (h ho) len
      simp [f₁, f₂]
    next => exact ⟨rfl, rfl, rfl⟩
  unfold Dev.endFrames
  extract_lets e
  have he : e.dbg = d.dbg ∧ e.sys.st = d.sys.st ∧ e.mesh.place = d.mesh.place := h₁
  clear_value e
  obtain ⟨e₁, e₂, e₃⟩ := he
  have ht := e.leftFrames_tail
  exact ⟨ht.dbg.trans e₁, ht.place.trans e₃, by rw [← e₂]; exact ht.st, ht.running, ht.isOpen, ht.lanes⟩

/-- Holds that change act on STATE in PLAYING, CURTAIN and FROZEN alone. -/
theorem Dev.applyHolds_st (h₁ : d.sys.st ≠ .playing) (h₂ : d.sys.st ≠ .curtain) (h₃ : d.sys.st ≠ .frozen) : d.applyHolds.sys.st = d.sys.st := by
  simp only [Dev.applyHolds]
  split
  · split <;> simp [h₁, h₂]
  · split
    · simp only [Dev.modDbg_sys, beq_eq_false_iff_ne.mpr h₃, Bool.false_eq_true, if_false]
      split <;> rfl
    · rfl

/-- Holds that change leave a device without frames without them. -/
theorem Dev.applyHolds_stopped (h : d.frm.running = false) : d.applyHolds.frm.running = false ∧ d.applyHolds.frm.isOpen = d.frm.isOpen ∧ d.applyHolds.frm.lanes = d.frm.lanes := by
  simp only [Dev.applyHolds]
  split
  · split <;> split <;> simp [h]
  · split
    · split <;> simp [h]
    · exact ⟨h, rfl, rfl⟩

/-- A contained or corrected error leaves STATE. -/
theorem Dev.raise_st {i : ErrIn} (h : i.cls < 2) : (d.raise i).sys.st = d.sys.st := by
  unfold Dev.raise
  split
  · rfl
  · dsimp only
    split
    · simp
    · split <;> simp
    · omega
    next h0 h1 h2 =>
      have : i.cls ≠ 0 := h0
      have : i.cls ≠ 1 := h1
      omega

/-- A discovery that begins where no frame runs leaves READY and STRUCK. -/
theorem Dev.beginDiscovery_idle (hst : d.sys.st = .ready ∨ d.sys.st = .struck) (ho : d.frm.isOpen = false) : let r := d.beginDiscovery
    r.frm.running = false ∧ r.frm.isOpen = false ∧ r.frm.lanes = [] ∧ r.mesh.disc = 1 ∧ r.mesh.ownRedisc = d.mesh.ownRedisc ∧
    (r.sys.st = d.sys.st ∨ r.sys.st = .struck) := by
  have hp : d.inPlay = false := by rcases hst with h | h <;> simp [Dev.inPlay, Dev.stUnder, h]
  have hk : (d.sys.st == DevState.parked) = false := by rcases hst with h | h <;> simp [h]
  have hl : LeftFrames d (d.endFrames d.openLen) := Dev.endFrames_noLanes (fun h => absurd (ho.symm.trans h) (by simp)) _
  have hleave : d.leaveFrames = (((((d.endFrames d.openLen).modTile Tile.dropLoads).modWts Wts.cutCurtain).modSys fun s => { s with parkPhase := .none })).dropRemote := by
    simp only [Dev.leaveFrames, hp, hk]
    rfl
  generalize d.endFrames d.openLen = e at hl hleave
  have hs : d.leaveFrames.sys.st = e.sys.st := by
    rw [hleave]
    have h1 : e.sys.st = .ready ∨ e.sys.st = .struck := by
      rcases hl.st with h | h
      · rw [h]; exact hst
      · exact .inr h
    exact Dev.applyHolds_st (by rcases h1 with h | h <;> simp [h]) (by rcases h1 with h | h <;> simp [h]) (by rcases h1 with h | h <;> simp [h])
  obtain ⟨h₁, h₂, h₃⟩ : d.leaveFrames.frm.running = false ∧ d.leaveFrames.frm.isOpen = e.frm.isOpen ∧ d.leaveFrames.frm.lanes = e.frm.lanes := by
    rw [hleave]
    exact Dev.applyHolds_stopped hl.running
  have hf : d.beginDiscovery.frm = { d.leaveFrames.frm with pathTarget := d.leaveFrames.frm.path } := by
    simp [Dev.beginDiscovery]
  have hm : d.beginDiscovery.mesh.ownRedisc = d.mesh.ownRedisc := by
    have : d.beginDiscovery.mesh.ownRedisc = d.leaveFrames.trainLinks.mesh.place.ownRedisc := rfl
    rw [this, Dev.trainLinks_place, Dev.leaveFrames_place]
    rfl
  refine ⟨by rw [hf]; exact h₁, by rw [hf]; exact h₂.trans hl.isOpen, by rw [hf]; exact h₃.trans hl.lanes, rfl, hm, ?_⟩
  have hx : d.beginDiscovery.sys.st = e.sys.st := by
    rw [← hs]
    simp [Dev.beginDiscovery]
  rw [hx]
  exact hl.st

/-- Past the ticks of a lost bellwether the device leaves its frames and begins a discovery. -/
theorem bellwetherLost_spec {t : Nat} (hc : d.coreRuns = true) (hr : d.frm.running = true) (ho : d.frm.isOpen = true) (hb : d.bellwether = false)
    (hz : d.dbg.frozen = false) (hst : d.sys.st = .playing ∨ d.sys.st = .curtain ∨ d.sys.st = .struck) (ht : d.frm.start + 2 * d.frm.planned + 1000 ≤ t) :
    let r := bellwetherLost t d
    r.frm.running = false ∧ r.frm.isOpen = false ∧ r.frm.lanes = [] ∧ r.mesh.disc = 1 ∧ r.mesh.ownRedisc = d.mesh.ownRedisc + 1 ∧
      (r.sys.st = .struck ∨ (d.sys.st ≠ .struck ∧ r.sys.st = .ready)) := by
  have hs : (d.sys.st == DevState.playing || d.sys.st == DevState.curtain || d.sys.st == DevState.struck) = true := by
    rcases hst with h | h | h <;> simp [h]
  unfold bellwetherLost
  rw [if_pos (by simp [hc, hr, ho, hb, hz, ht]; simpa [or_assoc] using hst)]
  extract_lets d₁ d₂ d₃ d₄ d₅
  have s₁ : d₁.sys.st = d.sys.st ∧ d₁.mesh = d.mesh := ⟨Dev.raise_st (by simp), by simp [d₁]⟩
  clear_value d₁
  have l₂ : LeftFrames (d₁.discardAll (d₁.discardCause 3)) d₂ := Dev.endFrames_noLanes (fun _ => rfl) _
  have s₂ : (d₂.sys.st = d.sys.st ∨ d₂.sys.st = .struck) ∧ d₂.mesh.ownRedisc = d.mesh.ownRedisc := by
    refine ⟨?_, ?_⟩
    · have h := l₂.st
      rwa [Dev.discardAll_st, s₁.1] at h
    · have h := congrArg Mesh.ownRedisc l₂.place
      have h' : (d₁.discardAll (d₁.discardCause 3)).mesh = d.mesh := by simp [s₁.2]
      rw [h'] at h
      exact h
  have o₂ := l₂.isOpen
  clear_value d₂
  have s₄ : d₄.sys.st = d₂.sys.st ∧ d₄.mesh = d₂.mesh ∧ d₄.frm = d₂.frm := ⟨rfl, rfl, rfl⟩
  clear_value d₃ d₄
  have s₅ : (d₅.sys.st = .ready ∧ d.sys.st ≠ .struck ∨ d₅.sys.st = .struck) ∧ d₅.mesh = d₂.mesh ∧ d₅.frm = d₂.frm := by
    simp only [d₅]
    split
    next h => exact ⟨.inr h, s₄.2⟩
    next h =>
      refine ⟨.inl ⟨Dev.setSt_st _ _, fun hk => h ?_⟩, by simp [s₄], by simp [s₄]⟩
      rw [s₄.1]
      rcases s₂.1 with h' | h'
      · rw [h', hk]
      · exact h'
  clear_value d₅
  have hfl : d₅.floodRediscover.sys.st = d₅.sys.st := by simp
  have hmf : d₅.floodRediscover.mesh.ownRedisc = d.mesh.ownRedisc + 1 := by
    have h : d₅.floodRediscover.mesh.place = ({ d₅.mesh with ownRedisc := d₅.mesh.ownRedisc + 1, seenRedisc := (d₅.coord, d₅.mesh.ownRedisc + 1) :: d₅.mesh.seenRedisc } : Mesh).place :=
      Dev.flood_place _ _
    have h' : d₅.floodRediscover.mesh.ownRedisc = d₅.mesh.ownRedisc + 1 := (congrArg Mesh.ownRedisc h :)
    rw [h', s₅.2.1, s₂.2]
  have hff : d₅.floodRediscover.frm.isOpen = false := by
    have : d₅.floodRediscover.frm = d₅.frm := by simp [Dev.floodRediscover]
    rw [this, s₅.2.2, o₂]
  have hidle : d₅.floodRediscover.sys.st = .ready ∨ d₅.floodRediscover.sys.st = .struck := by
    rw [hfl]
    rcases s₅.1 with h | h
    · exact .inl h.1
    · exact .inr h
  obtain ⟨h₁, h₂, h₃, h₄, h₅, h₆⟩ := Dev.beginDiscovery_idle hidle hff
  refine ⟨h₁, h₂, h₃, h₄, h₅.trans hmf, ?_⟩
  rw [hfl] at h₆
  rcases h₆ with h | h
  · rcases s₅.1 with h' | h'
    · exact .inr ⟨h'.2, h.trans h'.1⟩
    · exact .inl (h.trans h')
  · exact .inl h

theorem Err.pushRing_worst (e : Err) (r) : (e.pushRing r).worst = e.worst := by
  have lost (e : Err) (seq : Nat) : (if e.inStack seq then e else e.count 7).worst = e.worst := by split <;> rfl
  unfold Err.pushRing
  split
  · rfl
  · dsimp only
    split
    · exact lost _ _
    · split <;> exact lost _ _

/-- Placing a record in stack and ring leaves WORST. -/
theorem Err.placed_worst (e : Err) (r : ErrRec) : ((e.pushStack r).pushRing r).worst = e.worst := by
  rw [Err.pushRing_worst]
  unfold Err.pushStack
  (repeat' split) <;> rfl

/-- A corrected error on a device that is not in BLACKOUT takes the next SEQ, and leaves WORST, the frame, the tiles and the memory. -/
theorem Dev.raise_corrected_spec {i : ErrIn} (hi : i.cls = 0) (hb : d.sys.st ≠ .blackout) : let r := d.raise i
    r.frm = d.frm ∧ r.err.nextSeq = d.err.nextSeq + 1 ∧ r.err.worst = d.err.worst ∧ r.tile = d.tile ∧ r.mem = d.mem := by
  dsimp only
  rw [Dev.raise_corrected hi, if_neg hb]
  refine ⟨by simp, d.record_nextSeq _ _ _, ?_, by simp, by simp⟩
  rw [Dev.record_err, hi]
  exact (Nat.max_eq_left (Nat.zero_le _)).trans (Err.placed_worst _ _)

/-- Settles O43, command by command. -/
theorem framePacingAndStallCommands : Obligations.FramePacingAndStallCommands := by
  intro s f
  refine ⟨fun t e hc hb he hl hn => State.gives_onDev rfl ?_, fun t hc hb he hl => ⟨fun h => State.gives_onDev rfl ?_, fun h₁ h₂ h₃ h₄ h₅ => ?_⟩,
    fun t e hc hp hr hl => ⟨fun h => ⟨_, State.gives_onDev rfl rfl, ?_⟩, fun h => State.gives_onDev rfl ?_⟩, fun hu => State.gives_onDev rfl ?_,
    fun t hc hr ho hb hz hst ht => ⟨_, State.gives_onDev rfl rfl, bellwetherLost_spec hc hr ho hb hz hst ht⟩, ?_, ?_, ?_, ?_, ?_⟩
  · have hn' : 10 * (t - e) < 9 * s.dev.period := hn
    have hl' : s.dev.frm.tickInLast = some e := hl
    have he' : s.dev.frm.tickInEn = true := he
    simp [tickInEdge, hc, hb, he', hl', hn', Dev.modSys]
  · rw [tickInEdge_eq hc hb he hl, if_neg, if_neg]
    · rfl
    · rintro hq
      simp only [Bool.and_eq_true, Bool.not_eq_true', decide_eq_true_eq] at hq
      obtain ⟨⟨⟨⟨⟨⟨q₁, q₂⟩, q₃⟩, q₄⟩, q₅⟩, q₆⟩, q₇⟩ := hq
      rcases h with h | h | ⟨-, h | h | h | h⟩
      · exact absurd (q₂.symm.trans h) (by simp)
      · exact absurd (q₁.symm.trans h) (by simp)
      · exact absurd (q₄.symm.trans h) (by simp)
      · exact absurd (q₅.symm.trans h) (by simp)
      · exact absurd (q₇.symm.trans h) (by simp)
      · exact absurd q₆ (Nat.not_le.mpr h)
    · rintro hq
      simp only [Bool.and_eq_true, Bool.not_eq_true'] at hq
      obtain ⟨⟨q₁, q₂⟩, q₃⟩ := hq
      rcases h with h | h | ⟨h, -⟩
      · exact absurd (q₂.symm.trans h) (by simp)
      · exact absurd (q₁.symm.trans h) (by simp)
      · exact absurd (q₃.symm.trans h) (by simp)
  · have hlost : s.dev.frm.tickInLost = false := h₁
    have heq := tickInEdge_eq hc hb he hl
    have hk : s.dev.KeepsBundles s.dev.frm.next := h₃
    have hz := Dev.mayLaunch_frozen h₂
    by_cases ho : s.dev.frm.isOpen = true
    · obtain ⟨q₁, q₂, q₃, q₄⟩ := h₅.resolve_left (by simpa [f] using ho)
      have q₁' : s.dev.frm.ownDone = true := q₁
      have q₃' : s.dev.frm.start + s.dev.frm.planned ≤ t + s.dev.frm.lat := q₃
      rw [if_neg (by simp [ho]), if_pos (by simp [h₂, hlost, ho, q₁', q₂, q₃', q₄])] at heq
      refine ⟨_, State.gives_onDev rfl heq, ?_⟩
      split
      · exact @Dev.edge_opens s.dev ((s.dev.edged t).modFrm _) t rfl ⟨rfl, rfl, rfl⟩ rfl hz hk h₄
      · exact @Dev.edge_opens s.dev (s.dev.edged t) t rfl ⟨rfl, rfl, rfl⟩ rfl hz hk h₄
    · rw [if_pos (by simp [h₂, hlost, ho])] at heq
      exact ⟨_, State.gives_onDev rfl heq, @Dev.edge_opens s.dev (s.dev.edged t) t rfl ⟨rfl, rfl, rfl⟩ rfl hz hk h₄⟩
  · have hl' : s.dev.frm.tickInLast = some e := hl
    have hr' : s.dev.frm.running = true := hr
    have heq : tickInLost t s.dev = ((s.dev.at_ t).modFrm fun f => { f with tickInLost := true, tickInUse := false }).raise
        { code := 0x0105, cls := 0, detail := s.dev.frameDetail s.dev.frm.causes (t - s.dev.frm.start) } := by
      unfold tickInLost
      rw [if_pos (by simp [hc, hp, hr', hl', h])]
    rw [heq]
    exact Dev.raise_corrected_spec rfl (Dev.not_blackout_of_coreRuns hc)
  · have hl' : s.dev.frm.tickInLast = some e := hl
    unfold tickInLost
    rw [if_neg]
    simp [hl', h]
  · simp [tickInLostClear, hu, Dev.modFrm, f]
  · intro l hc hp n
    obtain ⟨h₁, h₂, h₃, h₄⟩ := s.dev.sendEcho_spec l
    have heq : echoMeasure s.dev = s.dev.sendEcho l := by simp [echoMeasure, hc, hp]
    refine ⟨_, State.gives_onDev rfl heq, h₁, h₂, ?_, ?_, h₄⟩
    · rw [h₃]
      rfl
    · rw [h₃]
      rfl
  · intro hp
    refine State.gives_onDev rfl ?_
    simp [echoMeasure, hp]
  · intro slot st hc hz hst ho n m m' f'
    refine State.gives_onDev rfl ?_
    have heq : stallResume slot.toNat s.dev = s.dev.endStall st slot.toNat := by
      have hst' : s.dev.frm.stall = some st := hst
      have ho' : st.on ∉ s.dev.frm.outst := ho
      simp [stallResume, hst', ho', hc, hz]
    rw [heq]
    by_cases h2 : st.on.cause = 2
    · simp only [Dev.endStall, Dev.lateSlots, m', f', n, m, f, if_pos h2]
      rfl
    · simp only [Dev.endStall, m', f', n, m, f, if_neg h2]
      rfl
  · intro slot st hst ho
    refine State.gives_onDev rfl ?_
    have hst' : s.dev.frm.stall = some st := hst
    have ho' : st.on ∈ s.dev.frm.outst := ho
    simp [stallResume, hst', ho']
  · intro z hu
    refine State.gives_onDev rfl ?_
    simp only [scriptStretchClr, hu, if_true]
    rfl

end Sys2Proof.Machine
end

section
/-! PROOF. A discovery that begins on a device with an evaluation still to run: what its reads find of hazards is counted (R259, R364). -/
namespace Sys2Proof.Machine

/-- An evaluation whose rows carry the tags it asks for changes the script's registers by the reads of its rows alone. -/
theorem Dev.evalTok_scr_of {d : Dev} {c : EvalCue} {tok : Tok} {a : Nat} (hf : c.fmt = .an4) (ha : d.tile.holder c.tile.toNat c.pslot.toNat = some a)
    (hs : (d.arr a).suspended = false) (ht : (evalRows c).any (fun r => tagFmt (d.rowTag c.tile.toNat r.1 r.2.2) != r.2.1) = false)
    (ho : (evalRows c).any (fun r => tagOset (d.rowTag c.tile.toNat r.1 r.2.2) != (d.slotDesc c.tile.toNat c.pslot.toNat).oset) = false) :
    (d.evalTok c tok).scr = (d.rowRd tok c.tile.toNat c.row.toNat c.slot.toNat c.num.toNat).1.scr := by
  simp only [Dev.evalTok, ha, hs, ht, ho, hf]
  simp [Dev.serveLane]

theorem Dev.advance_single {d : Dev} {c : EvalCue} {tok : Tok} {slot : Nat} (hl : d.tile.late = [c]) (hs : c.slot.toNat < slot) (ht : d.lane c.lane.toNat = some tok) :
    d.advance slot = ((d.modTile fun t => { t with late := [] }).evalTok c tok).modTile fun t => t.land slot := by
  have hf : d.tile.late.filter (fun c => decide (c.slot.toNat < slot)) = [c] := by simp [hl, hs]
  have hg : (d.modTile fun t => { t with late := t.late.filter fun c => !decide (c.slot.toNat < slot) }) = d.modTile fun t => { t with late := [] } := by
    simp [Dev.modTile, hl, hs]
  have hr : (d.modTile fun t => { t with late := [] }).evalRun c = (d.modTile fun t => { t with late := [] }).evalTok c tok := by
    have ht' : (d.modTile fun t => { t with late := [] }).lane c.lane.toNat = some tok := ht
    simp only [Dev.evalRun, ht']
  simp only [Dev.advance]
  rw [hf, hg, List.foldl_cons, hr, List.foldl_nil]

/-- A READY device in an open frame, the detector counting: one AN4 evaluation of a filled lane is still to run, and a debug note names another writer of
its row. -/
def lateReader : Dev :=
  { sys := { st := .ready, sysRst := false, prsnt := true, pg := 0x7F }, frm := { isOpen := true, lanes := [(0, {})] },
    mem := { tags := [(0, 64)] }, tile := { arrs := [(0, {})], late := [⟨0, 0, 0, 0, 0, 0, .an4, 0, 0, 0, 0⟩] },
    scr := { script := some { notes := some [⟨0, 0, 1, 0⟩] }, hazMode := 1 } }

theorem lateReader_up : lateReader.up = true := by decide

theorem lateReader_advance : (lateReader.aggregate.advance lastSlot).scr.hazCnt = 1 := by
  rw [Dev.advance_single rfl (by decide) rfl, Dev.modTile_scr, @Dev.evalTok_scr_of _ _ _ 0 rfl (by decide) (by decide) (by decide) (by decide)]
  decide

theorem Dev.workEnd_scr (d : Dev) : d.workEnd.scr = (d.advance lastSlot).scr := by
  simp only [Dev.workEnd, Dev.modTile_scr, Dev.tagZeroing_scr, Dev.modMem_scr]
  exact Dev.foldl_scr (fun d r => by split <;> simp) _ _

theorem Dev.frameOver_scr_of {d : Dev} (ho : d.frm.ownDone = false) (hd : d.frm.doneSent = false) (hs : d.frm.stall = none) (len) :
    (d.frameOver len).scr = (d.aggregate.advance lastSlot).scr := by
  have ha : d.aggregate.frm.ownDone = false := ho
  simp [Dev.frameOver, Dev.cutStall, ho, hd, hs, ha, Dev.workEnd_scr]

theorem lateReader_frameOver (len : Nat) : (lateReader.frameOver len).scr.hazCnt = 1 := by
  rw [Dev.frameOver_scr_of rfl rfl rfl, lateReader_advance]

theorem Dev.endFrames_scr_of_open {d : Dev} (h : d.frm.isOpen = true) (len) : (d.endFrames len).scr = (d.frameOver len).scr := by
  simp only [Dev.endFrames, h, if_true, Dev.modFrm_scr, Dev.flushDiscards_scr]
  split <;> simp

theorem Dev.beginDiscovery_scr_of {d : Dev} (hp : d.inPlay = false) (hk : (d.sys.st == DevState.parked) = false) (ho : d.frm.isOpen = true) :
    d.beginDiscovery.scr = (d.frameOver d.openLen).scr := by
  have hl : d.leaveFrames.scr = (d.endFrames d.openLen).scr := by simp [Dev.leaveFrames, hp, hk]
  have hb : d.beginDiscovery.scr = d.leaveFrames.scr := by simp [Dev.beginDiscovery]
  rw [hb, hl, Dev.endFrames_scr_of_open ho]

theorem lateReader_discovers : lateReader.beginDiscovery.scr.hazCnt = 1 := by
  rw [Dev.beginDiscovery_scr_of (by decide) (by decide) rfl, lateReader_frameOver]

/-- What MESH_CTRL.REDISCOVER answers for a device that is up. -/
theorem meshRediscover_eq {s : State} {d : Dev} (hu : s.dev.up = true) (h : exec .meshRediscover s = .next { s with dev := d }) : d = s.dev.beginDiscovery := by
  have heq : Gives .meshRediscover s s.dev.beginDiscovery := State.gives_onDev rfl (if_pos hu)
  exact (congrArg State.dev (Host.Outcome.next.inj ((show exec _ s = _ from heq).symm.trans h)) :).symm

/-- Refutes O49: a discovery begun where an evaluation of the open frame is still to run counts the hazard that its read finds, and so changes the script's
registers. -/
theorem not_discoveryFormsTheHerd : ¬ Obligations.DiscoveryFormsTheHerd := by
  intro h
  have hscr (s : State) (hu : s.dev.up = true) : s.dev.beginDiscovery.scr = s.dev.scr := by
    obtain ⟨⟨d, hd, -, -, -, -, -, -, hk, -⟩, -⟩ := h s hu
    rw [← meshRediscover_eq hu hd, hk]
  have hzero : lateReader.beginDiscovery.scr.hazCnt = lateReader.scr.hazCnt := congrArg Scr.hazCnt (hscr ⟨[], lateReader⟩ lateReader_up)
  rw [lateReader_discovers] at hzero
  exact absurd hzero (by decide)

end Sys2Proof.Machine
end

section
/-! PROOF. Curtain, unload and park over the herd: units down the tree and up it (R304 to R306, R317, R472). -/
namespace Sys2Proof.Machine
variable {d : Dev}

/-! ## Units to the neighbours -/

theorem Dev.foldl_sendUnit (u : CtlUnit) (l : List Nat) (d : Dev) :
    ∃ m, l.foldl (fun d n => d.sendUnit n u) d = { d with mesh := m, out := d.out ++ l.map fun c => .unit c u } := by
  induction l generalizing d with
  | nil => exact ⟨d.mesh, by simp⟩
  | cons n l ih =>
    obtain ⟨m, hm⟩ := ih (d.sendUnit n u)
    exact ⟨m, hm.trans (by simp [Dev.sendUnit, Dev.modLink, Dev.emit, Dev.modMesh])⟩

/-- A unit sent down changes the links and what is sent alone. -/
theorem Dev.sendDown_eq (d : Dev) (u : CtlUnit) : ∃ m, d.sendDown u = { d with mesh := m, out := d.out ++ d.children.map fun c => .unit c u } :=
  Dev.foldl_sendUnit u d.children d

/-- A unit sent up changes the links and what is sent alone. -/
theorem Dev.sendUp_eq (d : Dev) (u : CtlUnit) : ∃ m o, d.sendUp u = { d with mesh := m, out := o } ∧ ∀ p, d.parent = some p → o = d.out ++ [.unit p u] := by
  unfold Dev.sendUp
  split
  next p hp =>
    refine ⟨_, _, rfl, fun q hq => ?_⟩
    obtain rfl : p = q := Option.some.inj (hp.symm.trans hq)
    rfl
  next hp => exact ⟨d.mesh, d.out, rfl, fun q hq => absurd (hp.symm.trans hq) (by simp)⟩

/-! ## Asked for on the bellwether, and named by it -/

/-- Nothing of a drain is wanted, named or begun. -/
theorem Frm.idle_of {f : Frm} (h : f.want = none ∧ f.drain = none ∧ f.draining = none) : f.want.isNone = true ∧ f.drain.isNone = true ∧ f.draining.isNone = true := by
  simp [h]

theorem Dev.fromAbove_of {n : Nat} (hu : d.up = true) (hr : d.frm.running = true) (hp : d.fromParent n = true) : d.fromAbove n = true := by
  simp [Dev.fromAbove, hu, hr, hp]

/-- The device that has just sent its DRAINED. -/
def Dev.drainSent (d : Dev) : Dev := d.modFrm fun f => { f with drainedSent := true }

section
variable {k : DrainKind} (hu : d.up = true) (hk : d.frm.draining = some k) (hh : d.drainedHere k = true) (hs : d.frm.drainedSent = false) (hz : d.dbg.frozen = false)
include hu hk hh hs hz

theorem drainedSend_child (hb : d.bellwether = false) : drainedSend d = d.drainSent.sendUp .drained := by
  have hb' : (d.modFrm fun f => { f with drainedSent := true }).bellwether = false := hb
  simp only [drainedSend, hk, hu, hh, hs, hz, hb']
  rfl

theorem drainedSend_stop (hb : d.bellwether = true) (hc : k ≠ .curtain) : drainedSend d =
    (d.drainSent.modFrm fun x => { x with stopAt := some ((d.frm.frame + 2) % 65536) }).sendDown (.stop (BitVec.ofNat 16 ((d.frm.frame + 2) % 65536))) := by
  have hb' : (d.modFrm fun f => { f with drainedSent := true }).bellwether = true := hb
  simp only [drainedSend, hk, hu, hh, hs, hz, hb']
  cases k with
  | curtain => exact absurd rfl hc
  | unload => rfl
  | park => rfl

end

theorem drainedSend_rewrite (hu : d.up = true) (hk : d.frm.draining = some .curtain) (hh : d.drainedHere .curtain = true) (hs : d.frm.drainedSent = false)
    (hz : d.dbg.frozen = false) (hb : d.bellwether = true) (hr : d.wts.raiseAt = none) : drainedSend d =
    ((d.drainSent.modWts fun w => { w with rewriteSent := true }).sendDown .rewrite).startRewrite := by
  have hb' : (d.modFrm fun f => { f with drainedSent := true }).bellwether = true := hb
  have hr' : (d.modFrm fun f => { f with drainedSent := true }).wts.raiseAt = none := hr
  simp only [drainedSend, hk, hu, hh, hs, hz, hb', hr']
  rfl

/-- The weights once the device rewrites. -/
def Wts.rewriting (w : Wts) : Wts :=
  { w with phase := if w.next.isSome then 3 else 2, own := if w.next.isSome then w.toRewrite true else [], ownBegun := [] }

theorem Dev.startRewrite_eq (d : Dev) : d.startRewrite = d.modWts Wts.rewriting := by
  unfold Dev.startRewrite Wts.rewriting
  congr 1
  funext w
  cases h : w.next.isSome <;> simp

section
variable (hu : d.up = true) (hs : d.wts.readySent = false) (hr : d.wts.rewriteSent = true) (hz : d.dbg.frozen = false)
include hu hs hr hz

/-- A device that cannot complete a section says so at once. -/
theorem curtainReadySend_failed (h : d.wts.failed = true ∨ d.sys.st = .struck) : curtainReadySend d =
    if d.bellwether then (d.modWts fun w => { w with readySent := true }).modWts fun w => { w with phase := 5, failX := d.coord.x.toNat, failY := d.coord.y.toNat }
    else (d.modWts fun w => { w with readySent := true }).sendUp (.curtainReady true d.coord) := by
  unfold curtainReadySend
  rw [if_neg (by simp [hu, hs, hr, hz]), if_pos (by simpa using h)]
  rfl

theorem curtainReadySend_waits (hf : d.wts.failed = false) (hst : d.sys.st ≠ .struck)
    (h : (d.wts.phase = 3 && d.wts.own.isEmpty && d.wts.job.isNone && (d.wts.toRewrite false).isEmpty && d.allChildren (d.wts.ready.map Prod.fst)) = false) :
    curtainReadySend d = d := by
  unfold curtainReadySend
  rw [if_neg (by simp [hu, hs, hr, hz]), if_neg (by simp [hf, hst]), if_neg (by simpa using h)]

/-- A device that has rewritten all, and whose children have answered, says so. -/
theorem curtainReadySend_done (hf : d.wts.failed = false) (hst : d.sys.st ≠ .struck)
    (h : (d.wts.phase = 3 && d.wts.own.isEmpty && d.wts.job.isNone && (d.wts.toRewrite false).isEmpty && d.allChildren (d.wts.ready.map Prod.fst)) = true)
    (hd : d.curtainDue = []) (hl : d.tile.loads = false) (hc : d.wts.toCount = []) : curtainReadySend d =
    match d.wts.ready.find? fun r => r.2.1 with
    | some r => if d.bellwether then d.modWts fun w => { w with readySent := true }
      else (d.modWts fun w => { w with readySent := true }).sendUp (.curtainReady true ⟨BitVec.ofNat 4 r.2.2.1, BitVec.ofNat 4 r.2.2.2⟩)
    | none => if d.bellwether then d.modWts fun w => { w with readySent := true, phase := 4 }
      else (d.modWts fun w => { w with readySent := true, phase := 4 }).sendUp (.curtainReady false ⟨0, 0⟩) := by
  have hcc : d.curtainCounts = d := by
    unfold Dev.curtainCounts
    rw [hc]
    exact congrArg (fun w => { d with wts := w }) (show ({ d.wts with toCount := [] } : Wts) = d.wts by rw [← hc])
  unfold curtainReadySend
  rw [if_neg (by simp [hu, hs, hr, hz]), if_neg (by simp [hf, hst]), if_pos h, hd, hl, hcc]
  rfl

end

/-- Settles O50: each unit of the tree by the branch of its command. -/
theorem herdSequencesFollowTheTree : Obligations.HerdSequencesFollowTheTree := by
  intro s hup f w free sent up want
  have hdown (x : Dev) (u : CtlUnit) (hx : x.children = s.dev.children) (ho : x.out = s.dev.out) : sent u (x.sendDown u) ∧ (x.sendDown u).frm = x.frm ∧ (x.sendDown u).wts = x.wts := by
    obtain ⟨m, hm⟩ := x.sendDown_eq u
    rw [hm]
    refine ⟨?_, rfl, rfl⟩
    change x.out ++ x.children.map _ = _
    rw [hx, ho]
  have huprule (x : Dev) (u : CtlUnit) (hx : x.parent = s.dev.parent) (ho : x.out = s.dev.out) : up u (x.sendUp u) ∧ (x.sendUp u).frm = x.frm ∧ (x.sendUp u).wts = x.wts ∧
      (x.sendUp u).tile = x.tile := by
    obtain ⟨m, o, hm, hp⟩ := x.sendUp_eq u
    rw [hm]
    refine ⟨fun p h => ?_, rfl, rfl, rfl⟩
    rw [← ho]
    exact hp p (hx.trans h)
  refine ⟨fun hst hb hf => ⟨fun t => State.gives_onDev rfl ?_, fun hs => State.gives_onDev rfl ?_, State.gives_onDev rfl ?_⟩,
    fun hst hb => ⟨fun t => State.gives_onDev rfl ?_, State.gives_onDev rfl ?_, State.gives_onDev rfl ?_⟩, fun link g hr hp => ?_, fun link g hp => ?_,
    fun link hc => State.gives_onDev rfl ?_, fun k hk => ?_, fun hn => State.gives_onDev rfl ?_, fun link hp hr hk => ?_, fun link failure c hc => ?_,
    fun hrs hrw hz => ?_, fun hb hrw => ?_, fun h => State.gives_onDev rfl ?_⟩
  · obtain ⟨h₁, h₂, h₃⟩ : s.dev.frm.want = none ∧ s.dev.frm.drain = none ∧ s.dev.frm.draining = none := hf
    exact if_pos (by simp [hup, hb, hst, h₁, h₂, h₃])
  · obtain ⟨h₁, h₂, h₃⟩ : s.dev.frm.want = none ∧ s.dev.frm.drain = none ∧ s.dev.frm.draining = none := hf
    have hn : s.dev.scr.script ≠ none := fun h => by simp [h] at hs
    simp [scriptUnload, hup, hb, hst, h₁, h₂, h₃, hn]
    rfl
  · obtain ⟨h₁, h₂, h₃⟩ : s.dev.frm.want = none ∧ s.dev.frm.drain = none ∧ s.dev.frm.draining = none := hf
    simp [genPark, hup, hb, hst, h₁, h₂, h₃]
    rfl
  · simp [curtainLower, hb]
  · simp [scriptUnload, hb, hst]
  · simp [genPark, hb, hst]
  · have ha := Dev.fromAbove_of hup hr hp
    have hna : ¬ (!s.dev.fromAbove link.val) = true := by simp [ha]
    refine ⟨⟨_, State.gives_onDev rfl (if_neg hna), ?_⟩, ⟨_, State.gives_onDev rfl (if_neg hna), ?_⟩, ⟨_, State.gives_onDev rfl (if_neg hna), ?_⟩,
      ⟨_, State.gives_onDev rfl (if_neg hna), ?_⟩, ⟨_, State.gives_onDev rfl (if_neg hna), ?_⟩⟩
    · exact hdown ((s.dev.modFrm _).modWts _) _ rfl rfl
    · exact hdown (s.dev.modFrm _) _ rfl rfl
    · exact hdown (s.dev.modFrm _) _ rfl rfl
    · exact hdown (s.dev.modWts _) _ rfl rfl
    · exact hdown (s.dev.modFrm _) _ rfl rfl
  · intro c hc
    have ha : s.dev.fromAbove link.val = false := by simp [Dev.fromAbove, hp]
    simp only [List.mem_cons, List.not_mem_nil, or_false] at hc
    rcases hc with rfl | rfl | rfl | rfl | rfl | rfl <;> refine State.gives_onDev rfl ?_
    · simp [curtainUnit, ha]
    · simp [unloadUnit, ha]
    · simp [parkUnit, ha]
    · simp [raiseUnit, ha]
    · simp [stopUnit, ha]
    · simp [rewrite, ha]
  · simp [drainedUnit, hup, hc]
    rfl
  · have hk' : s.dev.frm.draining = some k := hk
    refine ⟨fun h => State.gives_onDev rfl (by simp [drainedSend, hk', h]), fun h hs hz => ?_⟩
    have hs' : s.dev.frm.drainedSent = false := hs
    refine ⟨fun hb => ?_, ?_, fun hb hc hra => ?_⟩
    · obtain ⟨h₁, h₂, h₃, -⟩ := huprule s.dev.drainSent .drained rfl rfl
      exact ⟨_, State.gives_onDev rfl (drainedSend_child hup hk' h hs' hz hb), h₁, h₂, h₃⟩
    · intro hb hc n
      obtain ⟨h₁, h₂, h₃⟩ := hdown (s.dev.drainSent.modFrm fun x => { x with stopAt := some n }) (.stop (BitVec.ofNat 16 n)) rfl rfl
      exact ⟨_, State.gives_onDev rfl (drainedSend_stop hup hk' h hs' hz hb hc), h₁, h₂⟩
    · subst hc
      obtain ⟨h₁, h₂, h₃⟩ := hdown (s.dev.drainSent.modWts fun w => { w with rewriteSent := true }) .rewrite rfl rfl
      refine ⟨_, State.gives_onDev rfl ((drainedSend_rewrite hup hk' h hs' hz hb hra).trans (Dev.startRewrite_eq _)), h₁, h₂, ?_, ?_⟩
      · exact (congrArg Wts.rewriteSent h₃ :)
      · exact (congrArg (fun w : Wts => if w.next.isSome then 3 else 2) h₃ :)
  · have hn' : s.dev.frm.draining = none := hn
    simp [drainedSend, hn']
  · have ha := Dev.fromAbove_of hup hr hp
    have hk' : s.dev.frm.draining = some .curtain := hk
    obtain ⟨h₁, h₂, h₃⟩ := hdown (s.dev.modWts fun w => { w with rewriteSent := true }) .rewrite rfl rfl
    have heq : rewrite link.val s.dev = ((s.dev.modWts fun w => { w with rewriteSent := true }).sendDown .rewrite).startRewrite := if_pos (by simp [ha, hk'])
    exact ⟨_, State.gives_onDev rfl (heq.trans (Dev.startRewrite_eq _)), h₁, h₂, (congrArg Wts.rewriting h₃ :)⟩
  · have hna : ¬ (!s.dev.up || !s.dev.fromChild link.val) = true := by simp [hup, hc]
    refine ⟨_, State.gives_onDev rfl (if_neg hna), ?_⟩
    have hb : (s.dev.modWts fun w => { w with ready := w.ready.filter (fun r => linkDir r.1 != linkDir link.val) ++ [(link.val, failure, c.x.toNat, c.y.toNat)] }).bellwether =
      s.dev.bellwether := rfl
    cases failure with
    | false => exact ⟨rfl, fun h => absurd h (by simp), fun _ => rfl, rfl⟩
    | true =>
      dsimp only
      rw [hb]
      cases s.dev.bellwether with
      | false => exact ⟨rfl, fun _ h => absurd h (by simp), fun _ => rfl, rfl⟩
      | true => exact ⟨rfl, fun _ _ => ⟨rfl, rfl, rfl⟩, fun h => absurd h (by simp), rfl⟩
  · have hrs' : s.dev.wts.readySent = false := hrs
    have hrw' : s.dev.wts.rewriteSent = true := hrw
    refine ⟨fun h => ?_, fun hf hst hph how hj htr hch hcd htl htc => ?_, fun hf hst h => State.gives_onDev rfl ?_⟩
    · have heq := curtainReadySend_failed hup hrs' hrw' hz h
      cases hb : s.dev.bellwether with
      | true =>
        rw [hb] at heq
        exact ⟨_, State.gives_onDev rfl heq, rfl, rfl, fun _ => ⟨rfl, rfl, rfl⟩, fun h => absurd h (by simp)⟩
      | false =>
        rw [hb] at heq
        obtain ⟨h₁, h₂, h₃, h₄⟩ := huprule (s.dev.modWts fun w => { w with readySent := true }) (.curtainReady true s.dev.coord) rfl rfl
        exact ⟨_, State.gives_onDev rfl heq, (congrArg Wts.readySent h₃ :), h₄, fun h => absurd h (by simp), fun _ => h₁⟩
    · have hall : (s.dev.wts.phase = 3 && s.dev.wts.own.isEmpty && s.dev.wts.job.isNone && (s.dev.wts.toRewrite false).isEmpty &&
          s.dev.allChildren (s.dev.wts.ready.map Prod.fst)) = true := by
        have h₁ : s.dev.wts.phase = 3 := hph
        have h₂ : s.dev.wts.own = [] := how
        have h₃ : s.dev.wts.job = none := hj
        have h₄ : s.dev.wts.toRewrite false = [] := htr
        have h₅ : s.dev.allChildren (s.dev.wts.ready.map Prod.fst) = true := hch
        simp [h₁, h₂, h₃, h₄, h₅]
      have heq := curtainReadySend_done hup hrs' hrw' hz hf hst hall hcd htl htc
      refine ⟨fun hno => ?_, fun r hr => ?_⟩
      · have hfind : s.dev.wts.ready.find? (fun r => r.2.1) = none := List.find?_eq_none.mpr fun r hr => by simp [hno r hr]
        rw [hfind] at heq
        dsimp only at heq
        cases hb : s.dev.bellwether with
        | true =>
          rw [hb] at heq
          exact ⟨_, State.gives_onDev rfl heq, rfl, fun h => absurd h (by simp)⟩
        | false =>
          rw [hb] at heq
          obtain ⟨h₁, h₂, h₃, h₄⟩ := huprule (s.dev.modWts fun w => { w with readySent := true, phase := 4 }) (.curtainReady false ⟨0, 0⟩) rfl rfl
          exact ⟨_, State.gives_onDev rfl heq, h₃, fun _ => h₁⟩
      · rw [show s.dev.wts.ready.find? (fun r => r.2.1) = some r from hr] at heq
        dsimp only at heq
        cases hb : s.dev.bellwether with
        | true =>
          rw [hb] at heq
          exact ⟨_, State.gives_onDev rfl heq, rfl, fun h => absurd h (by simp)⟩
        | false =>
          rw [hb] at heq
          obtain ⟨h₁, h₂, h₃, h₄⟩ := huprule (s.dev.modWts fun w => { w with readySent := true })
            (.curtainReady true ⟨BitVec.ofNat 4 r.2.2.1, BitVec.ofNat 4 r.2.2.2⟩) rfl rfl
          exact ⟨_, State.gives_onDev rfl heq, h₃, fun _ => h₁⟩
    · refine curtainReadySend_waits hup hrs' hrw' hz hf hst ?_
      rcases h with h | h | h | h | h
      · simp [show s.dev.wts.phase ≠ 3 from h]
      · simp [show s.dev.wts.own ≠ [] from h]
      · have hj : s.dev.wts.job ≠ none := Option.isSome_iff_ne_none.mp h
        simp [hj]
      · simp [show s.dev.wts.toRewrite false ≠ [] from h]
      · simp [show s.dev.allChildren (s.dev.wts.ready.map Prod.fst) = false from h]
  · have hrw' : s.dev.wts.rewriteSent = false := hrw
    refine ⟨fun hw => State.gives_onDev rfl ?_, ?_⟩
    · have hw' : s.dev.frm.want = some .curtain := hw
      simp [curtainAbandon, hup, hb, hrw', hw']
      rfl
    · intro hw hd hra h
      have hw' : s.dev.frm.want = none := hw
      have hra' : s.dev.wts.raiseAt = none := hra
      have hd' : (s.dev.frm.draining == some .curtain || (s.dev.frm.drain.any fun x => x.1 == .curtain)) = true := by
        rcases hd with h | ⟨g, h⟩
        · simp [show s.dev.frm.draining = some .curtain from h]
        · simp [show s.dev.frm.drain = some (.curtain, g) from h]
      have heq : curtainAbandon s.dev = (s.dev.modWts fun w => { w with raiseAt := some h.toNat }).sendDown (.raise h) := by
        unfold curtainAbandon
        rw [if_neg (by simp [hup, hb, hrw']), if_neg (by simp [hw']), if_pos (by simp [hra', hd'])]
      obtain ⟨h₁, h₂, h₃⟩ := hdown (s.dev.modWts fun w => { w with raiseAt := some h.toNat }) (.raise h) rfl rfl
      exact ⟨_, State.gives_onDev rfl heq, h₁, h₂, h₃⟩
  · unfold curtainAbandon
    rw [if_pos]
    rcases h with h | h
    · simp [h]
    · simp [show s.dev.wts.rewriteSent = true from h]

end Sys2Proof.Machine
end

section
/-! PROOF. STATE outside PLAYING, CURTAIN and FROZEN: an error can take it to STRUCK, and nothing that a frame or an array does takes it elsewhere. -/
namespace Sys2Proof.Machine
variable {a : DevState} {d e : Dev}

/-- STATE is a or STRUCK, and a is no state that a freeze leaves or returns to. -/
structure Dev.Rests (a : DevState) (d : Dev) : Prop where
  st : d.sys.st = a ∨ d.sys.st = .struck
  notPlaying : a ≠ .playing
  notCurtain : a ≠ .curtain
  notFrozen : a ≠ .frozen

theorem Dev.Rests.of_st (h : d.Rests a) (hs : e.sys.st = d.sys.st) : e.Rests a := { h with st := by rw [hs]; exact h.st }

theorem Dev.Rests.struck (h : d.Rests a) (hs : e.sys.st = .struck) : e.Rests a := { h with st := .inr hs }

theorem Dev.Rests.applyHolds (h : d.Rests a) : d.applyHolds.Rests a :=
  h.of_st (Dev.applyHolds_st (by rcases h.st with h' | h' <;> simp [h', h.notPlaying]) (by rcases h.st with h' | h' <;> simp [h', h.notCurtain])
    (by rcases h.st with h' | h' <;> simp [h', h.notFrozen]))

theorem Dev.Rests.engage (h : d.Rests a) (cause t set) : (d.engage cause t set).Rests a := by
  simp only [Dev.engage]
  refine Dev.Rests.applyHolds (h.of_st ?_)
  split <;> simp

/-! ## Errors -/

theorem Dev.Rests.beginDrain (h : d.Rests a) (seq) : (d.beginDrain seq).Rests a := by
  simp only [Dev.beginDrain]
  split
  · exact h.of_st rfl
  · split
    · exact h.struck (Dev.enterStruck_st _)
    · exact h.of_st rfl

theorem Dev.Rests.raise (h : d.Rests a) {i : ErrIn} (hi : i.cls < 3) : (d.raise i).Rests a := by
  unfold Dev.raise
  split
  · exact h
  · dsimp only
    split
    · exact h.of_st (by simp)
    · split <;> exact h.of_st (by simp)
    · split
      · exact h.of_st (by simp)
      · split
        · exact h.of_st (by simp)
        · exact Dev.Rests.beginDrain (h.of_st (by simp)) _
    next h0 h1 h2 =>
      have : i.cls ≠ 0 := h0
      have : i.cls ≠ 1 := h1
      have : i.cls ≠ 2 := h2
      omega

theorem Dev.contain_st (d : Dev) (i touched cause) : (d.contain i touched cause).sys.st = d.sys.st := by
  simp only [Dev.contain]
  exact (Dev.foldl_st (fun d t => Dev.discardTok_st _ _ _) _ _).trans (Dev.raise_st (by simp))

theorem Dev.tileError_st (d : Dev) (code tile pslot slot cue t) : (d.tileError code tile pslot slot cue t).sys.st = d.sys.st := Dev.contain_st ..

theorem Dev.Rests.hazard (h : d.Rests a) (store reader slot found n toks) : (d.hazard store reader slot found n toks).Rests a := by
  simp only [Dev.hazard]
  split
  · exact h.of_st (Dev.contain_st ..)
  · refine Dev.Rests.engage (Dev.Rests.raise (h.of_st ?_) ?_) ..
    · rfl
    · simp
  · refine Dev.Rests.raise (h.of_st ?_) ?_
    · rfl
    · simp

/-! ## Evaluations still to run, and the end of a frame -/

theorem Dev.Rests.hazRead (h : d.Rests a) (store keys reader slot toks operand) : (d.hazRead store keys reader slot toks operand).Rests a := by
  unfold Dev.hazRead
  split
  · exact Machine.foldl_keeps (fun e : Dev => e.Rests a) _ (fun e n he => by
      split
      · exact he.hazard ..
      · exact he) _ _ h
  · exact h

theorem Dev.Rests.rowRd (h : d.Rests a) (t tile row slot cue operand) : (d.rowRd t tile row slot cue operand).1.Rests a := by
  simp only [Dev.rowRd, Dev.rowsRd]
  exact Dev.Rests.hazRead (h.of_st (by simp)) ..

theorem Dev.request_st (d : Dev) (r) : (d.request r).sys.st = d.sys.st := by
  simp only [Dev.request]
  (repeat' split) <;> simp [Dev.contain_st, Dev.tileError_st]

theorem Dev.evalTrouble_st (d : Dev) (tok i b ps slot lane again) : (d.evalTrouble tok i b ps slot lane again).sys.st = d.sys.st := by
  simp only [Dev.evalTrouble]
  (repeat' split) <;> simp [Dev.request_st]

theorem Dev.Rests.evalTok (h : d.Rests a) (c : EvalCue) (tok) : (d.evalTok c tok).Rests a := by
  have hrd : (if c.fmt = .aw8 then (d.rowRd tok c.tile.toNat c.row.toNat c.slot.toNat c.num.toNat).1.rowRd tok c.tile.toNat c.rowLo.toNat (c.slot.toNat + 1) c.num.toNat 1
      else ((d.rowRd tok c.tile.toNat c.row.toNat c.slot.toNat c.num.toNat).1, [])).1.Rests a := by
    split
    · exact (h.rowRd ..).rowRd ..
    · exact h.rowRd ..
  simp only [Dev.evalTok]
  split
  · exact h.of_st (Dev.tileError_st ..)
  · split
    · exact h.of_st (Dev.tileError_st ..)
    · split
      · exact h.of_st (Dev.tileError_st ..)
      · split
        · exact h.of_st (Dev.tileError_st ..)
        · generalize (if c.fmt = .aw8 then _ else _ : Dev × List Byte) = z at hrd ⊢
          obtain ⟨e, lo⟩ := z
          dsimp only at hrd ⊢
          refine hrd.of_st ?_
          simp [Dev.serveLane, Dev.evalTrouble_st]

theorem Dev.Rests.modTile (h : d.Rests a) (f) : (d.modTile f).Rests a := h.of_st rfl

theorem Dev.Rests.advance (h : d.Rests a) (slot) : (d.advance slot).Rests a := by
  have hf (l : List EvalCue) (e : Dev) (he : e.Rests a) : (l.foldl Dev.evalRun e).Rests a :=
    Machine.foldl_keeps (fun e : Dev => e.Rests a) Dev.evalRun (fun e c he => by
      unfold Dev.evalRun
      split
      · exact he
      · exact he.evalTok ..) _ _ he
  unfold Dev.advance
  exact (hf _ _ (h.modTile _)).modTile _

theorem Dev.Rests.workEnd (h : d.Rests a) : d.workEnd.Rests a := by
  have ha := h.advance lastSlot
  refine ha.of_st ?_
  simp only [Dev.workEnd, Dev.modTile_sys, Dev.tagZeroing_st, Dev.modMem_sys]
  exact Dev.foldl_st (fun d r => by split <;> simp) _ _

theorem Dev.Rests.frameOver (h : d.Rests a) (len) : (d.frameOver len).Rests a := by
  have hc : (if d.frm.ownDone then d else d.cutStall len).Rests a := h.of_st (by split <;> simp)
  simp only [Dev.frameOver]
  generalize (if d.frm.ownDone then d else d.cutStall len) = e at hc ⊢
  have ha : (if e.frm.doneSent then e else e.aggregate).Rests a := hc.of_st (by split <;> simp)
  generalize (if e.frm.doneSent then e else e.aggregate) = g at ha ⊢
  split
  · exact ha.of_st rfl
  · exact ha.workEnd.of_st rfl

theorem Dev.Rests.endFrames (h : d.Rests a) (len) : (d.endFrames len).Rests a := by
  have h₁ : (if d.frm.isOpen then (d.frameOver len).agesEnd len else d).Rests a := by
    split
    · exact (h.frameOver len).of_st (by simp)
    · exact h
  unfold Dev.endFrames
  extract_lets e
  have he : e.Rests a := h₁
  clear_value e
  rcases e.leftFrames_tail.st with hs | hs
  · exact he.of_st hs
  · exact he.struck hs

/-! ## Arrays whose programming goes on -/

theorem Dev.Rests.calWrite (h : d.Rests a) {f : Dev → Dev} (hf : ∀ d : Dev, (f d).sys.st = d.sys.st) : (d.calWrite f).1.Rests a := by
  have hc (e : Dev) (he : e.Rests a) (c : Nat) (hc : c < 3) : (e.calError c).Rests a := (he.raise hc).of_st rfl
  simp only [Dev.calWrite]
  split
  · exact h.of_st ((hf _).trans rfl)
  · dsimp only
    split
    · exact hc _ ((hc (d.useFree 1) (h.of_st rfl) 0 (by simp)).of_st (by simp)) 2 (by simp)
    · exact (hc (d.useFree 1) (h.of_st rfl) 0 (by simp)).of_st (by simp)

theorem Dev.Rests.tileSuspect (h : d.Rests a) (code t p) : (d.tileSuspect code t p).Rests a := Dev.Rests.raise (h.of_st (by simp [Dev.histPermanent])) (by simp)

theorem Dev.Rests.arrayError (h : d.Rests a) {cls : Nat} (hc : cls < 3) (code n flagged row pattern spare verdict) :
    (d.arrayError code cls n flagged row pattern spare verdict).Rests a := h.raise hc

theorem Dev.Rests.wornOut (h : d.Rests a) (n j) : (d.wornOut n j).Rests a := by
  simp only [Dev.wornOut]
  split
  · exact h
  · split
    · exact h.tileSuspect ..
    · exact (h.tileSuspect ..).of_st (Dev.wtFail_st _ _)
    · exact h

theorem Dev.Rests.startProg (h : d.Rests a) (n j) : (d.startProg n j).Rests a := by
  have h₁ (w : Nat) : ((d.modArr n fun x => { x with job := some j, pstate := 1, row := 0, started := d.now, record := true, writes := w }).progCount 9).Rests a :=
    h.of_st (by simp)
  unfold Dev.startProg
  extract_lets x w d₁ d₂
  have h₂ : d₁.Rests a := h₁ w
  clear_value d₁
  have h₃ : d₂.Rests a := by
    simp only [d₂]
    split
    · exact Dev.Rests.arrayError (h₂.of_st (by simp)) (by simp) ..
    · exact h₂
  clear_value d₂
  split
  · exact h₃.of_st (by simp)
  · exact h₃

theorem Dev.Rests.startWaiting (h : d.Rests a) (n j) : (d.startWaiting n j).Rests a := by
  have hs : ((d.useFree 1).sampleVprog (!Config.vprogLow d.freeCtr)).Rests a := by
    simp only [Dev.sampleVprog]
    split
    · exact h.of_st rfl
    · refine Dev.Rests.raise (h.of_st ?_) ?_
      · rfl
      · simp
  simp only [Dev.startWaiting]
  generalize (d.useFree 1).sampleVprog (!Config.vprogLow d.freeCtr) = e at hs ⊢
  split
  · exact hs
  · split
    · split
      · exact (hs.calWrite fun d => by simp).startProg ..
      · exact hs.calWrite fun d => by simp
    · exact (hs.startProg ..).wornOut ..

theorem Dev.Rests.resumePaused (h : d.Rests a) : d.resumePaused.Rests a := by
  refine Machine.foldl_keeps (fun e : Dev => e.Rests a) _ (fun e x he => ?_) _ _ h
  dsimp only
  split
  · exact he
  · split
    · exact he.of_st (by simp)
    · split
      · split
        · exact he
        · exact he.startWaiting ..
      · exact he

end Sys2Proof.Machine
end

section
/-! PROOF. Park, wake and unload in READY (R317, R471 to R473). -/
namespace Sys2Proof.Machine
variable {d : Dev}

theorem Dev.setSt_sys (d : Dev) (x : DevState) : ∃ w b, (d.setSt x).sys = { d.sys with st := x, switches := w, ibi := b } := by
  unfold Dev.setSt
  split
  next h => exact ⟨d.sys.switches, d.sys.ibi, by rw [← h]⟩
  next h =>
    simp only [Dev.settle, Dev.modSys_sys, Dev.event_sys]
    exact ⟨_, _, rfl⟩

/-- The system registers of a device that parks. -/
def Sys.parking (s : Sys) (herd : Bool) : Sys :=
  { s with parkScope := herd, parkPhase := .parked, parkCount := bump s.parkCount, selfRefresh := 0xF, awakeSent := false, awakeHeld := [] }

/-- A device that parks keeps everything but the arrays, the links, the history saved and the pins. -/
theorem Dev.enterParked_spec (d : Dev) (herd : Bool) : let r := d.enterParked herd
    r.sys.st = .parked ∧ r.sys.parkScope = herd ∧ r.sys.parkPhase = .parked ∧ r.sys.selfRefresh = 0xF ∧ r.sys.parkCount = bump d.sys.parkCount ∧
    r.err.histSaved = d.err.hist ∧ r.mem = d.mem ∧ r.scr = d.scr ∧ r.call = d.call ∧ r.wts = d.wts ∧ r.frm = d.frm ∧ r.kv = d.kv := by
  have heq : d.enterParked herd = (((d.modSys fun s => s.parking herd).pauseSoft true).idleLanes true).commitHistory.setSt .parked := rfl
  obtain ⟨w, b, hw⟩ := (((d.modSys fun s => s.parking herd).pauseSoft true).idleLanes true).commitHistory.setSt_sys .parked
  have hsys : (((d.modSys fun s => s.parking herd).pauseSoft true).idleLanes true).commitHistory.sys = d.sys.parking herd := by simp
  rw [hsys] at hw
  rw [heq]
  refine ⟨Dev.setSt_st _ _, by rw [hw]; rfl, by rw [hw]; rfl, by rw [hw]; rfl, by rw [hw]; rfl, ?_, by simp, by simp, by simp, by simp, by simp, by simp⟩
  simp [Dev.commitHistory]

/-- Nothing of a script is left of its memory, its adapters, its steps and its pages. -/
structure Unloaded (d : Dev) : Prop where
  apron : d.mem.apron = []
  tags : d.mem.tags = []
  wings : d.mem.wings = []
  localBuf : d.mem.localBuf = []
  prompter : d.mem.prompter = []
  load : d.call.load = ([], [], 0)
  refs : d.kv.refs = []
  free : d.kv.free = []

theorem Dev.clearScript_unloads (d : Dev) (hs : d.call.steps = []) : Unloaded d.clearScript := by
  unfold Dev.clearScript
  extract_lets d₁ d₂ d₃ d₄ d₅ d₆
  have hc₁ : d₁.call = d.call := rfl
  have hm₁ : d₁.mem.apron = [] ∧ d₁.mem.tags = [] ∧ d₁.mem.wings = [] ∧ d₁.mem.localBuf = [] ∧ d₁.mem.prompter = [] := ⟨rfl, rfl, rfl, rfl, rfl⟩
  clear_value d₁
  have h₂ : d₂.mem = d₁.mem ∧ d₂.call = d.call := by
    simp only [d₂]
    split <;> simp [hc₁]
  clear_value d₂
  have hmem : d₆.mem = d₁.mem := h₂.1
  have hcall : d₆.call = { d₂.call with adpSlots := [], adpDir := [], adpJob := none } := rfl
  have hkv : d₆.kv.refs = [] ∧ d₆.kv.free = [] := ⟨rfl, rfl⟩
  clear_value d₆
  obtain ⟨m₁, m₂, m₃, m₄, m₅⟩ := hm₁
  refine ⟨?_, ?_, ?_, ?_, ?_, ?_, hkv.1, hkv.2⟩
  · rw [Dev.modWts_mem, hmem, m₁]
  · rw [Dev.modWts_mem, hmem, m₂]
  · rw [Dev.modWts_mem, hmem, m₃]
  · rw [Dev.modWts_mem, hmem, m₄]
  · rw [Dev.modWts_mem, hmem, m₅]
  · rw [Dev.modWts_call, hcall, h₂.2]
    simp [Call.load, hs]

theorem Unloaded.of_same {e : Dev} (h : Unloaded d) (hm : e.mem = d.mem) (hc : e.call.load = d.call.load) (hk : e.kv = d.kv) : Unloaded e :=
  ⟨hm ▸ h.apron, hm ▸ h.tags, hm ▸ h.wings, hm ▸ h.localBuf, hm ▸ h.prompter, hc.trans h.load, hk ▸ h.refs, hk ▸ h.free⟩

/-- An unload leaves nothing of the script, and no frame counted. -/
theorem Dev.unloadScript_spec (d : Dev) : Unloaded d.unloadScript ∧ d.unloadScript.scr.script = none ∧ d.unloadScript.frm.frame = 0 ∧
    d.unloadScript.frm.running = d.frm.running := by
  unfold Dev.unloadScript
  extract_lets d₁ d₂ d₃
  have u₁ : Unloaded d₁ := Dev.clearScript_unloads _ rfl
  have f₁ : d₁.frm.running = d.frm.running := by simp [d₁]
  clear_value d₁
  have u₃ : Unloaded d₃ := u₁.of_same rfl rfl rfl
  have h₃ : d₃.scr.script = none ∧ d₃.frm.frame = 0 ∧ d₃.frm.running = d.frm.running := ⟨rfl, rfl, f₁⟩
  clear_value d₃
  refine ⟨u₃.of_same (by simp) (by simp) (by simp), ?_⟩
  simpa using h₃

theorem Dev.applyHolds_power (d : Dev) : d.applyHolds.sys.power = d.sys.power := by
  have hf (s : Sys) (x) : ({ s with frozenFrom := x } : Sys).power = s.power := rfl
  simp only [Dev.applyHolds]
  (repeat' split) <;> simp [hf]

theorem Dev.applyHolds_frame (d : Dev) : d.applyHolds.frm.frame = d.frm.frame := by
  simp only [Dev.applyHolds]
  (repeat' split) <;> simp

/-- A device parked alone that wakes is READY, or STRUCK by a write that fails then. -/
theorem Dev.wakeEvent_alone (hst : d.sys.st = .parked) (hs : d.sys.parkScope = false) : let r := d.wakeEvent
    (r.sys.st = .ready ∨ r.sys.st = .struck) ∧ r.sys.selfRefresh = 0 ∧ r.sys.parkPhase = .none ∧ r.mem = d.mem ∧ r.scr = d.scr ∧ r.frm.frame = d.frm.frame := by
  have hr : d.unpark.Rests .parked := Dev.Rests.resumePaused ⟨.inl hst, by simp, by simp, by simp⟩
  have hp : d.unpark.sys.power = (0, .none) := Dev.resumePaused_power _
  have hm : d.unpark.mem = d.mem ∧ d.unpark.scr = d.scr := by simp [Dev.unpark]
  have hf : d.unpark.frm.frame = d.frm.frame := (congrArg Frm.frame d.unpark_timing :)
  have heq : d.wakeEvent = (if d.unpark.sys.st = .parked then d.unpark.setSt .ready else d.unpark).applyHolds := by
    unfold Dev.wakeEvent
    rw [if_pos hst, if_pos (by simp [hs])]
  rw [heq]
  generalize d.unpark = e at hr hp hm hf
  have hy : (if e.sys.st = .parked then e.setSt .ready else e).Rests .ready := by
    refine ⟨?_, by simp, by simp, by simp⟩
    split
    · exact .inl (Dev.setSt_st _ _)
    next h => exact .inr (hr.st.resolve_left h)
  have hq : (if e.sys.st = .parked then e.setSt .ready else e).sys.power = e.sys.power := by split <;> simp
  have hp' := (Dev.applyHolds_power (if e.sys.st = .parked then e.setSt .ready else e)).trans (hq.trans hp)
  refine ⟨hy.applyHolds.st, congrArg Prod.fst hp', congrArg Prod.snd hp', ?_, ?_, ?_⟩
  · rw [Dev.applyHolds_mem, ← hm.1]
    split <;> simp
  · rw [Dev.applyHolds_scr, ← hm.2]
    split <;> simp
  · rw [Dev.applyHolds_frame, ← hf]
    split <;> simp

/-- What a unit down and the leaving of the power state make of a parked herd's device. -/
theorem Dev.leavesPower (d : Dev) (u : CtlUnit) (hst : d.sys.st = .parked) : let r := (d.sendDown u).leavePower
    (r.sys.selfRefresh = 0 ∧ r.sys.parkPhase = .waking ∧ r.sys.st = .parked ∧ r.frm.running = true ∧ r.frm.frame = d.frm.frame) ∧
    r.out = d.out ++ d.children.map fun c => .unit c u := by
  obtain ⟨m, hm⟩ := d.sendDown_eq u
  rw [hm]
  exact ⟨⟨rfl, rfl, hst, rfl, rfl⟩, rfl⟩

/-- An unload in READY leaves nothing of the script. -/
theorem scriptUnload_ready (hst : d.sys.st = .ready) : let r := (d.endFrames d.openLen).unloadScript.resumePaused
    Unloaded r ∧ r.scr.script = none ∧ r.frm.frame = 0 ∧ r.frm.running = false ∧ (r.sys.st = .ready ∨ r.sys.st = .struck) := by
  have hr : (d.endFrames d.openLen).Rests .ready := Dev.Rests.endFrames ⟨.inl hst, by simp, by simp, by simp⟩ _
  have hrun : (d.endFrames d.openLen).frm.running = false := rfl
  generalize d.endFrames d.openLen = e at hr hrun
  obtain ⟨u, h₁, h₂, h₃⟩ := e.unloadScript_spec
  have hr' : e.unloadScript.Rests .ready := hr.of_st (by simp)
  generalize e.unloadScript = g at u h₁ h₂ h₃ hr'
  have ht := g.resumePaused_timing
  refine ⟨u.of_same (by simp) (by simp) (by simp), by simp [h₁], ?_, ?_, hr'.resumePaused.st⟩
  · exact (congrArg Frm.frame ht :).trans h₂
  · exact (congrArg Frm.running ht :).trans (h₃.trans hrun)

/-- WAKE in a parked herd goes down from the parent, and from a child as GEN_WAKE does. -/
theorem wake_parked {n : Nat} {o : Coord} (hu : d.up = true) (hst : d.sys.st = .parked) (hs : d.sys.parkScope = true) (hp : d.sys.parkPhase = .parked) : wake n o d =
    if d.fromParent n then (d.sendDown (.wake o)).leavePower
    else if d.fromChild n then (if d.bellwether then (d.sendDown (.wake o)).leavePower else d.sendUp (.wake o)) else d := by
  simp [wake, hu, hst, hs, hp]

/-- Settles O51, command by command. -/
theorem parkAndWakeMoveTheHerd : Obligations.ParkAndWakeMoveTheHerd := by
  intro s hup y sent leaves
  have hsent {u : CtlUnit} {c : Instr} (hst : s.dev.sys.st = .parked) (h : Gives c s ((s.dev.sendDown u).leavePower)) : GivesWith c s fun d => leaves d ∧ sent u d :=
    ⟨_, h, s.dev.leavesPower u hst⟩
  have hupward {u : CtlUnit} {c : Instr} {p : Nat} (hp : s.dev.parent = some p) (h : Gives c s (s.dev.sendUp u)) :
      GivesWith c s fun d => d.out = s.dev.out ++ [.unit p u] ∧ d.sys = y := by
    obtain ⟨m, o, hm, ho⟩ := s.dev.sendUp_eq u
    rw [hm] at h
    exact ⟨_, h, ho p hp, rfl⟩
  have hpark (h : s.dev.sys.st = .parked) : y.st = .parked := h
  refine ⟨fun hst => ?_, fun h₁ h₂ => State.gives_onDev rfl ?_, fun hst hs => ?_, fun hst hs hp => ⟨fun hb => ?_, fun hb p hpar => ?_, fun link o => ⟨fun hfp => ?_,
    fun hfp hfc => ⟨fun hb => ?_, fun hb p hpar => ?_⟩, fun hfp hfc => State.gives_onDev rfl ?_⟩⟩, fun hst hd => State.gives_onDev rfl ?_,
    fun h₁ h₂ => State.gives_onDev rfl ?_, fun link o hst hd hc => State.gives_onDev rfl ?_, fun link hc => ⟨fun hst => State.gives_onDev rfl ?_,
    fun hst => State.gives_onDev rfl ?_⟩, fun hst hp ha hch => ?_, fun h => State.gives_onDev rfl ?_, fun k => ⟨fun hst => State.gives_onDev rfl (if_pos hst),
    fun hst => State.gives_onDev rfl (if_neg hst)⟩, fun hs => ⟨fun hst => ?_, fun h₁ h₂ => State.gives_onDev rfl ?_⟩⟩
  · have heq : genPark s.dev = s.dev.enterParked false := by
      have h : s.dev.sys.st = .ready := hst
      simp [genPark, hup, h]
    exact ⟨_, State.gives_onDev rfl heq, s.dev.enterParked_spec false⟩
  · have h₁' : s.dev.sys.st ≠ .ready := h₁
    have h₂' : s.dev.sys.st ≠ .playing := h₂
    simp [genPark, h₁', h₂']
  · exact ⟨_, State.gives_onDev rfl (if_pos hup), Dev.wakeEvent_alone hst hs⟩
  · refine hsent hst (State.gives_onDev rfl ?_)
    have h : s.dev.sys.st = .parked := hst
    have h' : s.dev.sys.parkScope = true := hs
    have h'' : s.dev.sys.parkPhase = .parked := hp
    simp [genWake, hup, Dev.wakeEvent, h, h', h'', hb]
  · refine hupward hpar (State.gives_onDev rfl ?_)
    have h : s.dev.sys.st = .parked := hst
    have h' : s.dev.sys.parkScope = true := hs
    have h'' : s.dev.sys.parkPhase = .parked := hp
    simp [genWake, hup, Dev.wakeEvent, h, h', h'', hb]
  · refine hsent hst (State.gives_onDev rfl ?_)
    rw [wake_parked hup hst hs hp, if_pos hfp]
  · refine hsent hst (State.gives_onDev rfl ?_)
    rw [wake_parked hup hst hs hp, if_neg (by simp [hfp]), if_pos hfc, if_pos hb]
  · refine hupward hpar (State.gives_onDev rfl ?_)
    rw [wake_parked hup hst hs hp, if_neg (by simp [hfp]), if_pos hfc, if_neg (by simp [hb])]
  · rw [wake_parked hup hst hs hp, if_neg (by simp [hfp]), if_neg (by simp [hfc])]
  · have h : s.dev.sys.st = .playing := hst
    simp [genWake, hup, Dev.wakeEvent, h, hd]
    rfl
  · have h₁' : s.dev.sys.st ≠ .playing := h₁
    have h₂' : s.dev.sys.st ≠ .parked := h₂
    simp [genWake, Dev.wakeEvent, h₁', h₂']
  · have h : s.dev.sys.st = .playing := hst
    simp [wake, hup, h, hd, hc]
    rfl
  · have h : s.dev.sys.st = .parked := hst
    simp [awake, hup, h, hc]
    rfl
  · have h : s.dev.sys.st ≠ .parked := hst
    simp [awake, h]
  · have h₁ : s.dev.sys.st = .parked := hst
    have h₂ : s.dev.sys.parkPhase = .waking := hp
    have h₃ : s.dev.sys.awakeSent = false := ha
    have h₄ : s.dev.allChildren s.dev.sys.awakeHeld = true := hch
    have heq : awakeSend s.dev = let e := s.dev.modSys fun s => { s with awakeSent := true }; if e.bellwether then e else e.sendUp .awake :=
      if_pos (by simp [hup, h₁, h₂, h₃, h₄])
    have hb' : (s.dev.modSys fun s => { s with awakeSent := true }).bellwether = s.dev.bellwether := rfl
    dsimp only at heq
    rw [hb'] at heq
    cases hb : s.dev.bellwether with
    | true =>
      rw [hb] at heq
      exact ⟨_, State.gives_onDev rfl heq, rfl, fun _ => rfl, fun h => absurd h (by simp)⟩
    | false =>
      rw [hb] at heq
      obtain ⟨m, o, hm, ho⟩ := (s.dev.modSys fun s => { s with awakeSent := true }).sendUp_eq .awake
      refine ⟨_, State.gives_onDev rfl (heq.trans hm), rfl, fun h => absurd h (by simp), fun _ p hp => ho p hp⟩
  · unfold awakeSend
    rw [if_neg]
    rcases h with h | h
    · simp [show s.dev.sys.awakeSent = true from h]
    · simp [show s.dev.allChildren s.dev.sys.awakeHeld = false from h]
  · have hn : s.dev.scr.script ≠ none := Option.isSome_iff_ne_none.mp hs
    have h : s.dev.sys.st = .ready := hst
    have heq : scriptUnload s.dev = (s.dev.endFrames s.dev.openLen).unloadScript.resumePaused := by simp [scriptUnload, hup, hn, h]
    obtain ⟨u, h₁, h₂, h₃, h₄⟩ := scriptUnload_ready h
    have hl := u.load
    simp only [Call.load, Prod.mk.injEq, List.length_eq_zero_iff] at hl
    exact ⟨_, State.gives_onDev rfl heq, h₁, h₂, h₃, u.apron, u.tags, u.wings, u.localBuf, u.prompter, hl.1, hl.2.1, hl.2.2, u.refs, u.free, h₄⟩
  · have h₁' : s.dev.sys.st ≠ .ready := h₁
    have h₂' : s.dev.sys.st ≠ .playing := h₂
    simp [scriptUnload, h₁', h₂']

end Sys2Proof.Machine
end

section
/-! PROOF. What leaves the pending strike of a device as it is. -/
namespace Sys2Proof.Machine
/-- A device whose strike is pending becomes STRUCK at the boundary. -/
def Dev.strike (d : Dev) : Bool := d.err.strikePending
@[simp] theorem Dev.ite_strike (c : Prop) [Decidable c] (a b : Dev) : (if c then a else b).strike = if c then a.strike else b.strike := apply_ite Dev.strike c a b
theorem Dev.strike_of_err {d e : Dev} (h : e.err = d.err) : e.strike = d.strike := congrArg Err.strikePending h
theorem Dev.foldl_strike {α : Type} {f : Dev → α → Dev} (h : ∀ d x, (f d x).strike = d.strike) (l : List α) (d : Dev) : (l.foldl f d).strike = d.strike :=
  Machine.foldl_keeps (fun e => e.strike = d.strike) f (fun e x he => (h e x).trans he) l d rfl
theorem Err.placed_strike (e : Err) (r : ErrRec) : ((e.pushStack r).pushRing r).strikePending = e.strikePending := by
  have lost (e : Err) (seq : Nat) : (if e.inStack seq then e else e.count 7).strikePending = e.strikePending := by split <;> rfl
  have hr (e : Err) : (e.pushRing r).strikePending = e.strikePending := by
    unfold Err.pushRing
    split
    · rfl
    · dsimp only
      split
      · exact lost _ _
      · split <;> exact lost _ _
  rw [hr]
  unfold Err.pushStack
  (repeat' split) <;> rfl
variable (d : Dev)
theorem Dev.record_strike (i a n) : (d.record i a n).strike = d.strike := by
  unfold Dev.strike
  rw [Dev.record_err]
  exact Err.placed_strike _ _
theorem Dev.raise_strike {i : ErrIn} (h : i.cls < 2) : (d.raise i).strike = d.strike := by
  have hm (e : Dev) (f : Err → Err) (hf : ∀ x, (f x).strikePending = x.strikePending) : (e.modErr f).strike = e.strike := hf _
  unfold Dev.raise
  split
  · rfl
  · dsimp only
    split
    · exact Dev.record_strike ..
    · split
      · exact (hm _ _ fun _ => rfl).trans (Dev.record_strike ..)
      · exact (hm _ _ fun _ => rfl).trans (Dev.record_strike ..)
    · omega
    next h0 h1 h2 =>
      have : i.cls ≠ 0 := h0
      have : i.cls ≠ 1 := h1
      omega
theorem Dev.discardStep_strike (s c) : (d.discardStep s c).strike = d.strike := by
  have hx (e : Dev) (t) : (e.exactDiscard t).strike = e.strike := Dev.strike_of_err (by simp)
  have hm (e : Dev) (n) : (e.modErr fun e => e.count n).strike = e.strike := rfl
  simp only [Dev.discardStep]
  split
  · rw [hm, hx]; rfl
  · rw [hx]; rfl
theorem Dev.discardTok_strike (t c) : (d.discardTok t c).strike = d.strike := by
  have hx (e : Dev) (t) : (e.exactDiscard t).strike = e.strike := Dev.strike_of_err (by simp)
  simp only [Dev.discardTok]
  split
  · exact Dev.discardStep_strike ..
  · rw [hx]; rfl
theorem Dev.contain_strike (i touched cause) : (d.contain i touched cause).strike = d.strike := by
  simp only [Dev.contain]
  exact (Dev.foldl_strike (fun d t => d.discardTok_strike _ _) _ _).trans (Dev.raise_strike _ (by simp))
theorem Dev.useKeys_strike (keys step) : (d.useKeys keys step).strike = d.strike := by
  simp only [Dev.useKeys]
  split
  · exact Dev.discardTok_strike ..
  · rfl
theorem Dev.request_strike (r) : (d.request r).strike = d.strike := by
  unfold Dev.request
  extract_lets f d₁ q put d₂
  have h₁ : d₁.err = d.err := by simp [d₁]
  have hp (e : Dev) (q) : (put e q).err = e.err := rfl
  have h₂ : d₂.err = d.err := by simp [d₂, h₁]
  clear_value put d₁ d₂
  split
  · exact Dev.strike_of_err ((hp _ _).trans h₁)
  · split
    · split
      · exact Dev.strike_of_err ((Dev.unserved_err _ _).trans ((hp _ _).trans h₂))
      · exact (Dev.contain_strike ..).trans (Dev.strike_of_err h₂)
    · exact Dev.strike_of_err ((Dev.unserved_err _ _).trans h₂)
theorem Dev.evalTrouble_strike (tok i b ps slot lane again) : (d.evalTrouble tok i b ps slot lane again).strike = d.strike := by
  unfold Dev.evalTrouble
  extract_lets clips clip q d₁ a req d₂ d₃
  have h₁ : d₁.err = d.err := by
    simp only [d₁]
    split <;> simp
  clear_value d₁
  have h₂ : d₂.strike = d.strike := by
    simp only [d₂]
    split
    · exact (Dev.request_strike ..).trans (Dev.strike_of_err h₁)
    · exact Dev.strike_of_err h₁
  clear_value d₂
  have h₃ : d₃.strike = d.strike := by
    simp only [d₃]
    split
    · exact (Dev.request_strike ..).trans h₂
    · exact h₂
  clear_value d₃
  split
  · exact Dev.strike_of_err ((Dev.learnTrouble_err ..).trans h₁)
  · split
    · exact (Dev.strike_of_err (Dev.clamped_err ..)).trans h₃
    · exact h₃
end Sys2Proof.Machine
end

section
/-! PROOF. A hazard found at the end of a frame, in the mode that freezes (R259): STATE is FROZEN where frames stop. -/
namespace Sys2Proof.Machine
variable {d : Dev}

/-! ## A hazard that freezes -/

theorem Dev.applyHolds_freezes (hh : d.dbg.held = true) (hf : d.dbg.frozen = false) (hst : d.sys.st = .playing) : d.applyHolds.sys.st = .frozen := by
  simp [Dev.applyHolds, hh, hf, hst, Dev.stoppable]

theorem Dev.engage_freezes {cause t : Nat} {set : Dbg → Dbg} (ho : (set d.dbg).ownHeld = true) (hf : (set d.dbg).frozen = false) (hst : d.sys.st = .playing) :
    (d.engage cause t set).sys.st = .frozen := by
  unfold Dev.engage
  extract_lets fst₁ d₁ d₂
  have h₁ : d₁.sys.st = .playing := hst
  have b₁ : d₁.dbg.ownHeld = true ∧ d₁.dbg.frozen = false := ⟨ho, hf⟩
  clear_value d₁
  have h₂ : d₂.sys.st = .playing ∧ d₂.dbg.ownHeld = true ∧ d₂.dbg.frozen = false := by
    simp only [d₂]
    split <;> exact ⟨h₁, b₁⟩
  clear_value d₂
  obtain ⟨s₂, o₂, f₂⟩ := h₂
  refine Dev.applyHolds_freezes ?_ ?_ ?_
  · split <;> simp [Dbg.held, o₂]
  · split <;> simp [f₂]
  · split <;> simp [s₂]

theorem Dev.hazard_freezes (hm : d.scr.hazMode = 3) (hf : d.dbg.frozen = false) (hst : d.sys.st = .playing) (store reader slot found n toks) :
    (d.hazard store reader slot found n toks).sys.st = .frozen := by
  have hm' : d.scr.hazMode.toNat = 3 := by rw [hm]; rfl
  unfold Dev.hazard
  extract_lets r d₁ words e
  have h₁ : d₁.scr.hazMode.toNat = 3 := hm'
  have h₂ : d₁.dbg.frozen = false := hf
  have h₃ : d₁.sys.st = .playing := hst
  clear_value d₁
  rw [h₁]
  have hc : e.cls < 2 := by simp [e]
  have hc' : e.cls < 3 := by simp [e]
  have hd : (d₁.raise e).dbg = d₁.dbg := Dev.raise_dbg hc'
  refine Dev.engage_freezes ?_ ?_ ?_
  · rw [hd]; simp [Dbg.ownHeld]
  · rw [hd]; exact h₂
  · rw [Dev.raise_st hc]; exact h₃

theorem Dev.hazard_strike (d : Dev) (store reader slot found n toks) : (d.hazard store reader slot found n toks).strike = d.strike := by
  unfold Dev.hazard
  extract_lets r d₁ words e
  have h₁ : d₁.strike = d.strike := rfl
  clear_value d₁
  have hc : e.cls < 2 := by simp [e]
  clear_value e
  split
  · exact (Dev.contain_strike ..).trans h₁
  · exact ((Dev.strike_of_err (Dev.engage_err ..)).trans (Dev.raise_strike _ hc)).trans h₁
  · exact (Dev.raise_strike _ hc).trans h₁

theorem Dev.hazRead_single {store : Nat} {keys : List Nat} {reader slot : Nat} {toks : List (Nat × Nat × Nat)} {operand : Nat} {n : DebugNote} {f : Nat × Nat}
    (ha : d.hazActive = true) (hn : d.notes.filter (fun n => n.reader == reader && n.operand == operand) = [n])
    (hf : (keys.findSome? fun k => let f := d.tagAt store k slot; if f.1 == n.writer && (f.2 + n.distance) % 16 == d.frm.frame % 16 then none else some f) = some f) :
    d.hazRead store keys reader slot toks operand = d.hazard store reader slot f n toks := by
  simp only [Dev.hazRead, ha, hn, if_true, List.foldl_cons, List.foldl_nil]
  dsimp only at hf
  rw [hf]

/-- What an AN4 evaluation does to STATE and to a strike that waits, the read of its row does. -/
theorem Dev.evalTok_st_of {c : EvalCue} {tok : Tok} {a : Nat} (hf : c.fmt = .an4) (ha : d.tile.holder c.tile.toNat c.pslot.toNat = some a)
    (hs : (d.arr a).suspended = false) (ht : (evalRows c).any (fun r => tagFmt (d.rowTag c.tile.toNat r.1 r.2.2) != r.2.1) = false)
    (ho : (evalRows c).any (fun r => tagOset (d.rowTag c.tile.toNat r.1 r.2.2) != (d.slotDesc c.tile.toNat c.pslot.toNat).oset) = false) :
    (d.evalTok c tok).sys.st = (d.rowRd tok c.tile.toNat c.row.toNat c.slot.toNat c.num.toNat).1.sys.st ∧
    (d.evalTok c tok).strike = (d.rowRd tok c.tile.toNat c.row.toNat c.slot.toNat c.num.toNat).1.strike := by
  have hc (e : Dev) (z : Bool) (a r ps) : (if z then (e, []) else e.convert a r ps).1.err = e.err := by split <;> simp
  have hm (e : Dev) (f) : (e.modTile f).strike = e.strike := rfl
  have he (e : Dev) (z : Prop) [Decidable z] (i k s ps) : (if z then e else e.evalContrib i k s ps).strike = e.strike := Dev.strike_of_err (by split <;> simp)
  have hp (e : Dev) (z : Prop) [Decidable z] (a k r ps) : (if z then e else e.capture a k r ps).strike = e.strike := Dev.strike_of_err (by split <;> simp)
  simp only [Dev.evalTok, ha, hs, ht, ho, hf]
  refine ⟨by simp [Dev.serveLane, Dev.evalTrouble_st], ?_⟩
  simp only [Bool.false_eq_true, if_false, reduceCtorEq]
  rw [hm, hp, Dev.evalTrouble_strike, he]
  exact Dev.strike_of_err ((hc ..).trans (Dev.serveLane_err ..))

/-! ## A device that freezes at the end of its frame -/

/-- A PLAYING device in an open frame with BYPASS_N asserted, whose one link works on lane 0 alone: one AN4 evaluation of a filled lane is still to run, a
debug note names another writer of its row, and a hazard freezes. -/
def freezer : Dev :=
  { sys := { st := .playing, sysRst := false, prsnt := true, pg := 0x7F, bypassN := true }, frm := { running := true, isOpen := true, lanes := [(0, {})] },
    mem := { tags := [(0, 64)] }, tile := { arrs := [(0, {})], late := [⟨0, 0, 0, 0, 0, 0, .an4, 0, 0, 0, 0⟩] },
    scr := { script := some { notes := some [⟨0, 0, 1, 0⟩] }, hazMode := 3 }, mesh := { links := [(0, { st := 3, lanes := 1 })] } }

/-- d runs the frame that e runs: on the same tiles, memory, script and holds, in the same state, with no strike that waits. -/
structure SameWork (e d : Dev) : Prop where
  tile : d.tile = e.tile
  mem : d.mem = e.mem
  scr : d.scr = e.scr
  dbg : d.dbg = e.dbg
  st : d.sys.st = e.sys.st
  lanes : d.frm.lanes = e.frm.lanes
  frame : d.frm.frame = e.frm.frame
  strike : d.strike = e.strike

theorem SameWork.rowTag {e : Dev} (h : SameWork e d) (t r s) : d.rowTag t r s = e.rowTag t r s := by
  unfold Dev.rowTag Dev.rowBefore
  rw [h.tile, h.mem]

theorem SameWork.slotDesc {e : Dev} (h : SameWork e d) (t s) : d.slotDesc t s = e.slotDesc t s := by
  unfold Dev.slotDesc Dev.prRd
  rw [h.mem]

theorem SameWork.modTile {e : Dev} (h : SameWork e d) (f : Tile → Tile) : SameWork (e.modTile f) (d.modTile f) :=
  ⟨congrArg f h.tile, h.mem, h.scr, h.dbg, h.st, h.lanes, h.frame, h.strike⟩

/-- The tiles with the rows keys in use by a step. -/
def Tile.inUse (keys : List Nat) (step : Nat × Nat × Nat) (t : Tile) : Tile :=
  { t with users := keys.foldl (fun u k => if u.contains (k, step) then u else (k, step) :: u) t.users }

theorem Dev.useKeys_of (h : d.tile.lost = []) (keys step) :
    d.useKeys keys step = d.modTile (Tile.inUse keys step) := by
  unfold Dev.useKeys
  rw [if_neg (by simp [h])]
  rfl

/-- The freezer once the row of its evaluation is named in use. -/
def freezerReads : Dev := (freezer.modTile fun t => { t with late := [] }).modTile (Tile.inUse [0] (0, 0, 0))

theorem freezerReads_freezes (h : SameWork freezerReads d) (operand : Nat) (ho : operand = 0) :
    (d.hazRead 0 [0] 0 0 [(0, 0, 0)] operand).sys.st = .frozen ∧ (d.hazRead 0 [0] 0 0 [(0, 0, 0)] operand).strike = false := by
  subst ho
  have ha : d.hazActive = true := by
    unfold Dev.hazActive
    rw [h.scr]
    rfl
  have hn : d.notes.filter (fun n => n.reader == 0 && n.operand == 0) = [⟨0, 0, 1, 0⟩] := by
    unfold Dev.notes
    rw [h.scr]
    rfl
  have ht : d.tagAt 0 0 0 = (0, 0) := by
    unfold Dev.tagAt Dev.rowBefore
    rw [h.tile, h.mem]
    rfl
  have hf : (d.tagAt 0 0 0) = (0, 0) := ht
  rw [Dev.hazRead_single ha hn (by rw [List.findSome?_cons, hf]; rfl)]
  refine ⟨Dev.hazard_freezes ?_ ?_ ?_ .., (Dev.hazard_strike ..).trans ?_⟩
  · rw [h.scr]; rfl
  · rw [h.dbg]; rfl
  · rw [h.st]; rfl
  · rw [h.strike]; rfl

theorem freezer_advance (h : SameWork freezer d) : (d.advance lastSlot).sys.st = .frozen ∧ (d.advance lastSlot).strike = false := by
  have hlate : d.tile.late = [⟨0, 0, 0, 0, 0, 0, .an4, 0, 0, 0, 0⟩] := by rw [h.tile]; rfl
  have hlane : d.lane 0 = some {} := by rw [Dev.lane, h.lanes]; rfl
  rw [Dev.advance_single hlate (by decide) hlane]
  have h' := h.modTile fun t => { t with late := [] }
  generalize (d.modTile fun t => { t with late := [] }) = e at h'
  have hh : e.tile.holder 0 0 = some 0 := by rw [h'.tile]; decide
  have hs : (e.arr 0).suspended = false := by rw [Dev.arr, h'.tile]; rfl
  obtain ⟨h₁, h₂⟩ := @Dev.evalTok_st_of e ⟨0, 0, 0, 0, 0, 0, .an4, 0, 0, 0, 0⟩ {} 0 rfl hh hs (by simp only [h'.rowTag]; decide)
    (by simp only [h'.rowTag, h'.slotDesc]; decide)
  have hl : e.tile.lost = [] := by rw [h'.tile]; rfl
  have hr : SameWork freezerReads (e.useKeys [0] (0, 0, 0)) := by
    rw [Dev.useKeys_of hl]
    exact h'.modTile _
  obtain ⟨k₁, k₂⟩ := freezerReads_freezes hr 0 rfl
  exact ⟨h₁.trans k₁, h₂.trans k₂⟩

theorem Dev.modTile_strike (d : Dev) (f) : (d.modTile f).strike = d.strike := rfl

theorem Dev.modFrm_strike (d : Dev) (f) : (d.modFrm f).strike = d.strike := rfl

theorem Dev.workEnd_st_strike (d : Dev) : d.workEnd.sys.st = (d.advance lastSlot).sys.st ∧ d.workEnd.strike = (d.advance lastSlot).strike := by
  have hs (e : Dev) : e.tagZeroing.strike = e.strike := Dev.strike_of_err (by simp)
  refine ⟨?_, ?_⟩
  · simp only [Dev.workEnd, Dev.modTile_sys, Dev.tagZeroing_st, Dev.modMem_sys]
    exact Dev.foldl_st (fun d r => by split <;> simp) _ _
  · unfold Dev.workEnd
    extract_lets d₁ left d₂ d₃
    have h₂ : d₂.strike = d₁.strike := Dev.foldl_strike (fun d r => by
      split
      · exact Dev.discardTok_strike ..
      · exact Dev.strike_of_err (by simp)) _ _
    have h₃ : d₃.strike = d₂.strike := hs _
    rw [Dev.modTile_strike, h₃, h₂]

/-- The freezer's frame ends FROZEN. -/
theorem freezer_endFrames (h : SameWork freezer d) (ho : d.frm.isOpen = true) (hd : d.frm.ownDone = false) (hs : d.frm.stall = none) (hq : d.frm.doneSent = false) (len) :
    (d.endFrames len).sys.st = .frozen := by
  have hover : d.frameOver len = (d.aggregate.workEnd).modFrm fun f => (f.stopCues.countLen len d.aggregate.workEnd.period).countStalls := by
    have ha : d.aggregate.frm.ownDone = false := hd
    simp only [Dev.frameOver, Dev.cutStall, hd, hs, hq, ha, Bool.false_eq_true, if_false]
  have hag : SameWork freezer d.aggregate := ⟨by simp [h.tile], by simp [h.mem], by simp [h.scr], by simp [h.dbg], by simp [h.st], h.lanes, h.frame,
    (Dev.strike_of_err (by simp)).trans h.strike⟩
  obtain ⟨a₁, a₂⟩ := freezer_advance hag
  obtain ⟨w₁, w₂⟩ := d.aggregate.workEnd_st_strike
  have hst : (d.frameOver len).sys.st = .frozen := by rw [hover, Dev.modFrm_sys, w₁, a₁]
  have hsk : (d.frameOver len).strike = false := by rw [hover, Dev.modFrm_strike, w₂, a₂]
  have hsk' : (d.frameOver len).err.strikePending = false := hsk
  simp [Dev.endFrames, ho, hsk', hst]

/-! ## The last lane of a bundle lost -/

/-- e is d, but for link n, what is counted and what is recorded. -/
structure LinkOnly (n : Nat) (d e : Dev) : Prop where
  work : SameWork d e
  frm : e.frm = d.frm
  link : OnLink n d e
  bypassN : e.sys.bypassN = d.sys.bypassN

theorem LinkOnly.modLink {n : Nat} {e : Dev} (h : LinkOnly n d e) (f) : LinkOnly n d (e.modLink n f) :=
  ⟨⟨h.work.tile, h.work.mem, h.work.scr, h.work.dbg, h.work.st, h.work.lanes, h.work.frame, h.work.strike⟩, h.frm, h.link.modLink f, h.bypassN⟩

/-- An operation that leaves all that LinkOnly speaks of. -/
theorem LinkOnly.then {n : Nat} {e x : Dev} (h : LinkOnly n d e) (ht : x.tile = e.tile) (hm : x.mem = e.mem) (hs : x.scr = e.scr) (hd : x.dbg = e.dbg)
    (hst : x.sys.st = e.sys.st) (hf : x.frm = e.frm) (hk : x.strike = e.strike) (hl : x.mesh.links = e.mesh.links) (hb : x.sys.bypassN = e.sys.bypassN) : LinkOnly n d x :=
  ⟨⟨ht.trans h.work.tile, hm.trans h.work.mem, hs.trans h.work.scr, hd.trans h.work.dbg, hst.trans h.work.st, by rw [hf]; exact h.work.lanes,
    by rw [hf]; exact h.work.frame, hk.trans h.work.strike⟩, hf.trans h.frm, fun k hk => (congrArg (fun ls => sgetD ls k ({} : Link)) hl).trans (h.link k hk), hb.trans h.bypassN⟩

theorem LinkOnly.raise {n : Nat} {e : Dev} (h : LinkOnly n d e) {i : ErrIn} (hi : i.cls = 0) : LinkOnly n d (e.raise i) := by
  have hc : i.cls < 2 := by omega
  have hb : (e.raise i).sys.bypassN = e.sys.bypassN := by
    rw [Dev.raise_corrected hi]
    split
    · rfl
    · obtain ⟨⟨w, b, hs⟩, -, -⟩ := e.record_rest i 1 (e.inFatal || e.inDrain || e.inContain)
      rw [hs]
  have hf : (e.raise i).frm = e.frm := by
    rw [Dev.raise_corrected hi]
    split <;> simp
  have ht : (e.raise i).tile = e.tile := by
    rw [Dev.raise_corrected hi]
    split <;> simp
  exact h.then ht (by simp) (by simp) (Dev.raise_dbg (by omega)) (Dev.raise_st hc) hf (Dev.raise_strike _ hc) (by simp) hb

theorem LinkOnly.laneDrop {n : Nat} (lane t mask c) : LinkOnly n d (d.laneDrop n lane t mask c) := by
  have h₀ : LinkOnly n d d := ⟨⟨rfl, rfl, rfl, rfl, rfl, rfl, rfl, rfl⟩, rfl, OnLink.refl n d, rfl⟩
  have hperm (e : Dev) (he : LinkOnly n d e) (k u) : LinkOnly n d (e.histPermanent k u) :=
    he.then (by simp) (by simp) (by simp) (by simp) (by simp) (by simp) rfl (by simp) (by simp)
  have hev (e : Dev) (he : LinkOnly n d e) (k u x y) : LinkOnly n d (e.histEvent k u x y).1 := by
    refine he.then (by simp) (by simp) (by simp) (by simp) (by simp) (by simp) ?_ (by simp) (by simp)
    simp only [Dev.histEvent]
    split <;> rfl
  unfold Dev.laneDrop
  extract_lets unit d₁ once d₂ d₃ d₄
  have hc : LinkOnly n d ((d.at_ t).meshCount n 5) := h₀.then rfl rfl rfl rfl rfl rfl rfl rfl rfl
  have h₁ : LinkOnly n d d₁ := hc.modLink _
  have h₂ : LinkOnly n d d₂ := h₁.raise rfl
  have h₃ : LinkOnly n d d₃ := hev _ h₂ ..
  have h₄ : LinkOnly n d d₄ := hperm _ (h₃.modLink _) ..
  clear_value d₁ d₂ d₃ d₄
  split
  · exact h₃
  · split
    · exact hperm _ h₄ ..
    · exact h₄

theorem Link.restate_noLanes {l : Link} (h : l.lanes = 0) : l.restate.working = false := by
  unfold Link.restate
  split
  · rfl
  · split
    · simp [h, Link.working]
    next h' =>
      simp only [Bool.or_eq_true, decide_eq_true_eq, not_or] at h'
      simp [Link.working, h'.1]

theorem Link.keep_lanes (l : Link) (f : Flit) : (l.keep f).lanes = l.lanes := rfl

/-- The last link of a bundle loses its last lane on a device whose BYPASS_N is asserted: frames stop. -/
theorem laneLockLost_last {n lane t : Nat} (hc : d.coreRuns = true) (hw : (d.link n).working = true) (hl : hasLane (d.link n).lanes lane = true)
    (hd : (d.link n).lanes &&& ~~~ laneBit lane = 0) (hb : d.working (linkDir n) = [n]) (hp : d.sys.bypassN = true) :
    ∃ e, LinkOnly n d e ∧ laneLockLost n lane t d = e.endFrames e.openLen := by
  unfold laneLockLost
  extract_lets l mask d₁ d₂
  rw [if_neg (by simp [hc, l, hw, hl])]
  have h₁ : LinkOnly n d d₁ := by
    have h : LinkOnly n d ((d.laneDrop n lane t mask (Config.freeWord d.freeCtr)).useFree 1) := (LinkOnly.laneDrop lane t mask _).then rfl rfl rfl rfl rfl rfl rfl rfl rfl
    exact h.modLink _
  have l₁ : (d₁.link n).lanes = 0 := (congrArg Link.lanes (Dev.link_modLink_self _ _ _)).trans hd
  clear_value d₁
  have h₂ : LinkOnly n d d₂ := by
    have hm : LinkOnly n d (d₁.meshCount n 11) := h₁.then rfl rfl rfl rfl rfl rfl rfl rfl rfl
    have h : LinkOnly n d ((d₁.meshCount n 11).modLink n fun l => l.keep (ctlFlit (.lane ⟨mask, true, 0⟩))) := hm.modLink _
    exact h.then rfl rfl rfl rfl rfl rfl rfl rfl rfl
  have l₂ : (d₂.link n).lanes = 0 := (congrArg Link.lanes (Dev.sendUnit_link _ _ _)).trans l₁
  clear_value d₂
  have h₃ := h₂.modLink Link.restate
  have w₃ : ((d₂.modLink n Link.restate).link n).working = false := by
    rw [Dev.link_modLink_self]
    exact Link.restate_noLanes l₂
  generalize d₂.modLink n Link.restate = e at h₃ w₃
  refine ⟨e, h₃, ?_⟩
  have hnone : e.working (linkDir n) = [] := by
    refine List.filter_eq_nil_iff.mpr fun k hk hkw => ?_
    by_cases hkn : k = n
    · rw [hkn, w₃] at hkw
      exact absurd hkw (by simp)
    · rw [h₃.link k hkn] at hkw
      have hmem : k ∈ d.working (linkDir n) := List.mem_filter.mpr ⟨hk, hkw⟩
      rw [hb] at hmem
      exact hkn (by simpa using hmem)
  simp only [Dev.bundleCheck, Dev.bundlesCheck]
  rw [if_pos (by simp [hb, hnone]), if_pos (h₃.bypassN.trans hp)]

theorem freezer_freezes (t : Nat) : (laneLockLost 0 0 t freezer).sys.st = .frozen := by
  obtain ⟨e, he, heq⟩ := @laneLockLost_last freezer 0 0 t (by decide) (by decide) (by decide) (by decide) (by decide) rfl
  rw [heq]
  have hf := he.frm
  exact freezer_endFrames he.work (by rw [hf]; rfl) (by rw [hf]; rfl) (by rw [hf]; rfl) (by rw [hf]; rfl) _

/-- Refutes O44: a device whose BYPASS_N is asserted, whose bundle's last lane is lost while an evaluation of the open frame is still to run, finds a hazard as
its frames stop and is FROZEN by it. -/
theorem not_lanesDropSwitchAndRejoin : ¬ Obligations.LanesDropSwitchAndRejoin := by
  intro h
  have hst (d : Dev) (t : Nat) (hc : d.coreRuns = true) (hw : (d.link 0).working = true) (hl : hasLane (d.link 0).lanes 0 = true)
      (hd : (d.link 0).lanes &&& ~~~ laneBit 0 = 0) (hb : d.working (linkDir 0) = [0]) (hp : d.sys.bypassN = true) :
      (laneLockLost 0 0 t d).sys.st = d.sys.st ∨ (laneLockLost 0 0 t d).sys.st = .struck := by
    obtain ⟨hhad, -⟩ := h ⟨[], d⟩ 0 0 hc
    obtain ⟨-, -, hkeep, -⟩ := hhad ⟨hw, hl⟩
    obtain ⟨e, hg, -, -, hs, -⟩ := hkeep t hd hb hp
    have heq : Gives (.laneLockLost 0 0 t) ⟨[], d⟩ (laneLockLost 0 0 t d) := State.gives_onDev rfl rfl
    have hdev : e = laneLockLost 0 0 t d := (congrArg State.dev (Host.Outcome.next.inj ((show exec _ _ = _ from heq).symm.trans hg)) :).symm
    rw [← hdev]
    exact hs
  rcases hst freezer 0 (by decide) (by decide) (by decide) (by decide) (by decide) rfl with h' | h'
  · have hne : DevState.frozen = .playing := (freezer_freezes 0).symm.trans h'
    exact absurd hne (by decide)
  · have hne : DevState.frozen = .struck := (freezer_freezes 0).symm.trans h'
    exact absurd hne (by decide)

end Sys2Proof.Machine
end

section
/-! PROOF. Tile cues: when one is performed, and what HOP, RELAY and MOVE do (R335, R336, R349). -/
namespace Sys2Proof.Machine
variable {d : Dev}

/-! ## Cues that are not performed -/

theorem Dev.onTile_noCues (h : d.cues = false) (tiles : List Nat) (lane slot : Nat) (f : Tok → Dev → Dev) : d.onTile tiles lane slot f = d := by
  simp [Dev.onTile, h]

theorem Dev.onTile_noLane {lane : Nat} (h : d.lane lane = none) (tiles : List Nat) (slot : Nat) (f : Tok → Dev → Dev) :
    d.onTile tiles lane slot f = d := by
  simp [Dev.onTile, h]

section
variable {lane slot : Nat} {tok : Tok} {tiles : List Nat} {e : Dev} (hc : d.cues = true) (hl : d.lane lane = some tok)
  (he : (d.advance slot).useKeys (tiles.map (2 ^ 19 + ·)) tok.step = e)
include hc hl he

theorem Dev.onTile_eq (f : Tok → Dev → Dev) : d.onTile tiles lane slot f =
    if !e.cues || (e.lane lane).isNone then e else if tiles.any e.tile.prBad.contains then e.discardTok tok.step 1 else f tok e := by
  subst he
  simp only [Dev.onTile, hc, hl]
  rfl

/-- What came due before the slot stops the cue, or empties its lane. -/
theorem Dev.onTile_lost (h : e.cues = false ∨ e.lane lane = none) (f : Tok → Dev → Dev) : d.onTile tiles lane slot f = e := by
  rw [Dev.onTile_eq hc hl he, if_pos]
  rcases h with h | h <;> simp [h]

/-- A tile that waits to be restored discards the step. -/
theorem Dev.onTile_bad (h : e.cues = true) (hn : e.lane lane ≠ none) {t : Nat} (ht : t ∈ tiles) (hb : t ∈ e.tile.prBad) (f : Tok → Dev → Dev) :
    d.onTile tiles lane slot f = e.discardTok tok.step 1 := by
  rw [Dev.onTile_eq hc hl he, if_neg (by simp [h, hn]), if_pos (List.any_eq_true.mpr ⟨t, ht, by simpa using hb⟩)]

/-- A cue of a filled lane between tiles that are cued is performed. -/
theorem Dev.onTile_performed (h : e.cues = true) (hn : e.lane lane ≠ none) (hb : ∀ t ∈ tiles, t ∉ e.tile.prBad) (f : Tok → Dev → Dev) :
    d.onTile tiles lane slot f = f tok e := by
  rw [Dev.onTile_eq hc hl he, if_neg (by simp [h, hn]), if_neg (by simpa using hb)]
end

/-- A tile's set goes out and is added to the receiver at the end of the slot (R349). -/
def Dev.sendSet (tile dst landSlot : Nat) (d : Dev) : Dev :=
  match sget d.tile.acc tile with
  | none => d
  | some s => (d.modTile fun t => { t with acc := sdel t.acc tile }).contribute ⟨landSlot, 2, dst, s.chain, s.exp, s.vals, s.ovf⟩

/-- What a performed EVAL does on a tile (R346). -/
def evalOn (c : EvalCue) (tok : Tok) (d : Dev) : Dev :=
  if !d.tile.idleIn c.tile.toNat c.slot.toNat (evalSlots c) then d
  else match c.fmt with
    | .an4 => (d.drives c.tile.toNat c.slot.toNat (evalSlots c)).evalTok c tok
    | .aw8 => (d.drives c.tile.toNat c.slot.toNat (evalSlots c)).modTile fun t => { t with late := t.late ++ [c] }

/-- What a performed REQUANT does on a tile (R347). -/
def requantOn (c : RequantCue) (tok : Tok) (d : Dev) : Dev :=
  let tile := c.tile.toNat
  let slot := c.slot.toNat
  let l := d.vecLoc c.srcKind c.src.toNat tile c.lane.toNat tok.tenant
  if l.apron && (dataTags c.srcFmt).zipIdx.any fun p => tagFmt (d.rowTag tile (l.addr % 32 + p.2) slot) != p.1 then
    d.tileError 0x0201 tile 0 slot c.num.toNat tok
  else
    match d.outstanding true (l.wingsRange (vecBytes c.srcFmt)).1 (l.wingsRange (vecBytes c.srcFmt)).2 with
    | some o => d.stallOn o slot
    | none => (d.vecRd tok l c.srcFmt slot c.num.toNat).1.requantise c tok l (d.vecRd tok l c.srcFmt slot c.num.toNat).2

/-- The columns that an OUT writes: of its tile's set, zeros where there is none (R83). -/
def outColumns (c : OutCue) (tok : Tok) (d : Dev) : List Nat :=
  match sget d.tile.acc c.tile.toNat with
  | some s => d.outCols c.ofmt c.chain.toNat s (if c.stoch then some (draw16 (d.seedOf tok) tok.pos 3 c.chain.toNat) else none)
  | none => List.replicate 512 0

/-- The release of an OUT's set, with its output noted. -/
def outRelease (c : OutCue) (tok : Tok) (l : VecLoc) (bs : List Byte) (t : Tile) : Tile :=
  { t with acc := sdel t.acc c.tile.toNat,
           outs := sput t.outs (4096 * c.chain.toNat + c.lane.toNat) ⟨c.tile.toNat, l.apron, l.addr, c.ofmt, tok⟩,
           exact := t.exact.captureOut c.chain.toNat c.lane.toNat c.ofmt (some c.stoch) bs }

/-- What a performed OUT does on a tile (R348). -/
def outOn (c : OutCue) (tok : Tok) (d : Dev) : Dev :=
  let l := d.vecLoc c.dstKind c.dst.toNat c.tile.toNat c.lane.toNat tok.tenant
  match d.outstanding true (l.wingsRange (vecBytes c.ofmt)).1 (l.wingsRange (vecBytes c.ofmt)).2 with
  | some o => d.stallOn o c.slot.toNat
  | none => (d.modTile (outRelease c tok l (colBytes c.ofmt (outColumns c tok d)))).vecWr tok l c.ofmt (colBytes c.ofmt (outColumns c tok d)) c.slot.toNat c.num.toNat

/-- What a performed MOVE does on a tile (R336). -/
def moveOn (c : MoveCue) (tok : Tok) (d : Dev) : Dev :=
  let tile := c.tile.toNat
  let slot := c.slot.toNat
  let a := wordAddr (if c.laneBuf then d.laneBuf c.lane.toNat tok.tenant + c.waddr.toNat else c.waddr.toNat)
  match d.outstanding true a 512 with
  | some o => d.stallOn o slot
  | none =>
    if c.toApron then
      (d.wingsRd tok a 512 slot c.num.toNat).1.rowWr tile c.row.toNat (d.wingsRd tok a 512 slot c.num.toNat).2 (mkTag 0 c.fmt.toNat 0) slot c.num.toNat
    else if tagFmt (d.rowTag tile c.row.toNat slot) = 0 then d.tileError 0x0201 tile 0 slot c.num.toNat tok
    else (d.rowRd tok tile c.row.toNat slot c.num.toNat).1.wingsWr tok a (d.rowRd tok tile c.row.toNat slot c.num.toNat).2 slot c.num.toNat

/-! ## The six tile cues as instructions -/

/-- The instruction performs a cue of a lane between tiles, whose own work is f. -/
def TileCue (i : Instr) (s : State) (tiles : List Nat) (lane slot : Nat) (f : Tok → Dev → Dev) : Prop := Gives i s (s.dev.onTile tiles lane slot f)

theorem tileCue_onCue {i : Instr} {s : State} {ok : Bool} {g : Dev → Dev} {tiles : List Nat} {lane slot : Nat} {f : Tok → Dev → Dev} (hok : ok = true)
    (hc : exec i s = s.onCue ok g) (hg : g s.dev = s.dev.onTile tiles lane slot f) : TileCue i s tiles lane slot f := by
  rw [TileCue, Gives, hc, hok, ← hg]
  rfl

theorem gives_onCue {i : Instr} {s : State} {ok : Bool} {g : Dev → Dev} {e : Dev} (hok : ok = true) (hc : exec i s = s.onCue ok g) (hg : g s.dev = e) :
    Gives i s e := by
  rw [Gives, hc, hok, ← hg]
  rfl

variable {s : State}

theorem eval_tileCue (c : EvalCue) : TileCue (.eval c) s [c.tile.toNat] c.lane.toNat c.slot.toNat (evalOn c) := State.gives_onDev rfl rfl

theorem requant_tileCue {c : RequantCue} (h : c.wf = true) : TileCue (.requant c) s [c.tile.toNat] c.lane.toNat c.slot.toNat (requantOn c) :=
  tileCue_onCue h rfl rfl

theorem out_tileCue {c : OutCue} (h : c.wf = true) : TileCue (.out c) s [c.tile.toNat] c.lane.toNat c.slot.toNat (outOn c) := tileCue_onCue h rfl rfl

theorem move_tileCue {c : MoveCue} (h : c.wf = true) : TileCue (.move c) s [c.tile.toNat] c.lane.toNat c.slot.toNat (moveOn c) := tileCue_onCue h rfl rfl

theorem hop_tileCue (c : HopCue) : TileCue (.hop c) s [c.tile.toNat, c.tile.toNat / 128 * 128 + c.dst.toNat] c.lane.toNat c.slot.toNat
    fun _ => Dev.sendSet c.tile.toNat (c.tile.toNat / 128 * 128 + c.dst.toNat) c.slot.toNat := State.gives_onDev rfl rfl

theorem relay_tileCue {c : RelayCue} (h : c.wf = true) : TileCue (.relay c) s [c.tile.toNat, c.dst.toNat] c.lane.toNat c.slot.toNat
    fun _ => Dev.sendSet c.tile.toNat c.dst.toNat (c.slot.toNat + 2 * c.hops.toNat - 1) := tileCue_onCue h rfl rfl

section
variable {i : Instr} {tiles : List Nat} {lane slot : Nat} {f : Tok → Dev → Dev} (h : TileCue i s tiles lane slot f)
include h

theorem TileCue.noCues (hc : s.dev.cues = false) : Gives i s s.dev := by
  rw [TileCue, Dev.onTile_noCues hc] at h
  exact h

theorem TileCue.noLane (hl : s.dev.lane lane = none) : Gives i s s.dev := by
  rw [TileCue, Dev.onTile_noLane hl] at h
  exact h

variable {tok : Tok} {e : Dev} (hc : s.dev.cues = true) (hl : s.dev.lane lane = some tok)
  (he : (s.dev.advance slot).useKeys (tiles.map (2 ^ 19 + ·)) tok.step = e)
include hc hl he

theorem TileCue.lost (hn : e.cues = false ∨ e.lane lane = none) : Gives i s e := by
  rw [TileCue, Dev.onTile_lost hc hl he hn] at h
  exact h

theorem TileCue.bad (hn : e.cues = true) (hm : e.lane lane ≠ none) {t : Nat} (ht : t ∈ tiles) (hb : t ∈ e.tile.prBad) : Gives i s (e.discardTok tok.step 1) := by
  rw [TileCue, Dev.onTile_bad hc hl he hn hm ht hb] at h
  exact h

theorem TileCue.performed (hn : e.cues = true) (hm : e.lane lane ≠ none) (hb : ∀ t ∈ tiles, t ∉ e.tile.prBad) : Gives i s (f tok e) := by
  rw [TileCue, Dev.onTile_performed hc hl he hn hm hb] at h
  exact h
end

/-- Cues are performed in an open frame that does not stall, in PLAYING and CURTAIN. -/
theorem Dev.cues_iff : d.cues = true ↔ d.coreRuns = true ∧ d.frm.isOpen = true ∧ d.frm.stall = none ∧ (d.sys.st = .playing ∨ d.sys.st = .curtain) := by
  simp [Dev.cues, and_assoc]

/-! ## The slot reached, and what a step uses -/

theorem Dev.advance_noLate {slot : Nat} (h : ∀ c ∈ d.tile.late, slot ≤ c.slot.toNat) : d.advance slot = { d with tile := d.tile.land slot } := by
  have hdue : d.tile.late.filter (fun c => decide (c.slot.toNat < slot)) = [] :=
    List.filter_eq_nil_iff.mpr fun c hc => by simpa using h c hc
  have hlate : d.tile.late.filter (fun c => !decide (c.slot.toNat < slot)) = d.tile.late :=
    List.filter_eq_self.mpr fun c hc => by simpa using h c hc
  simp only [Dev.advance, hdue, List.foldl_nil, Dev.modTile, hlate]

/-- The users of the keys once a step is noted with them. -/
def noteUsers (users : List (Nat × Nat × Nat × Nat)) (keys : List Nat) (step : Nat × Nat × Nat) : List (Nat × Nat × Nat × Nat) :=
  keys.foldl (fun u k => if u.contains (k, step) then u else (k, step) :: u) users

theorem mem_noteUsers_old {keys : List Nat} {step : Nat × Nat × Nat} {u : Nat × Nat × Nat × Nat} {users : List (Nat × Nat × Nat × Nat)} (h : u ∈ users) :
    u ∈ noteUsers users keys step := by
  induction keys generalizing users with
  | nil => exact h
  | cons k keys ih =>
    refine ih ?_
    show u ∈ if users.contains (k, step) then users else (k, step) :: users
    by_cases hu : users.contains (k, step)
    · rw [if_pos hu]; exact h
    · rw [if_neg hu]; exact List.mem_cons_of_mem _ h

theorem mem_noteUsers {keys : List Nat} {step : Nat × Nat × Nat} {k : Nat} {users : List (Nat × Nat × Nat × Nat)} (h : k ∈ keys) :
    (k, step) ∈ noteUsers users keys step := by
  induction keys generalizing users with
  | nil => cases h
  | cons x keys ih =>
    rcases List.mem_cons.mp h with rfl | h
    · show (k, step) ∈ noteUsers (if users.contains (k, step) then users else (k, step) :: users) keys step
      refine mem_noteUsers_old ?_
      by_cases hu : users.contains (k, step)
      · rw [if_pos hu]; simpa using hu
      · rw [if_neg hu]; exact List.mem_cons_self
    · exact ih h

theorem Dev.useKeys_eq (keys : List Nat) (step : Nat × Nat × Nat) : d.useKeys keys step =
    if keys.any d.tile.lost.contains then (d.modTile fun t => { t with users := noteUsers t.users keys step }).discardTok step 1
    else d.modTile fun t => { t with users := noteUsers t.users keys step } := rfl

/-- Keys of which none was lost in this frame: the step is noted with them. -/
theorem Dev.useKeys_kept {keys : List Nat} (h : ∀ k ∈ keys, k ∉ d.tile.lost) (step : Nat × Nat × Nat) :
    d.useKeys keys step = d.modTile fun t => { t with users := noteUsers t.users keys step } := by
  rw [Dev.useKeys_eq, if_neg (by simpa using h)]

/-- Noting a step leaves the hazard detector's state, memory and script as they are. -/
theorem Dev.useKeys_hazActive (keys : List Nat) (step : Nat × Nat × Nat) : (d.useKeys keys step).hazActive = d.hazActive := by
  simp [Dev.hazActive]

/-! ## Settled -/

/-- Settles O27: the branches of onTile before its cue's own work, the flock windows, PLACE and HBM_WR while no cue is performed, and the
two steps every cue begins with. -/
theorem tileCuesWaitForAFilledLane : Obligations.TileCuesWaitForAFilledLane := by
  refine ⟨fun s n hn => ⟨?_, ?_, ?_, ?_, ?_, ?_⟩, fun s hc => ⟨?_, ?_, ?_, ?_, ?_, ?_, ?_, ?_⟩, fun s tok hc => ?_, fun s hc => (Dev.cues_iff.mp hc).2,
    fun s c hw hi hc => ?_, fun d slot => Dev.advance_noLate, fun d keys step hk => ?_⟩
  case refine_1 => rintro c rfl; exact (eval_tileCue c).noLane hn
  case refine_2 => rintro c hw rfl; exact (requant_tileCue hw).noLane hn
  case refine_3 => rintro c hw rfl; exact (out_tileCue hw).noLane hn
  case refine_4 => rintro c rfl; exact (hop_tileCue c).noLane hn
  case refine_5 => rintro c hw rfl; exact (relay_tileCue hw).noLane hn
  case refine_6 => rintro c hw rfl; exact (move_tileCue hw).noLane hn
  case refine_7 => exact fun c => (eval_tileCue c).noCues hc
  case refine_8 => exact fun c hw => (requant_tileCue hw).noCues hc
  case refine_9 => exact fun c hw => (out_tileCue hw).noCues hc
  case refine_10 => exact fun c => (hop_tileCue c).noCues hc
  case refine_11 => exact fun c hw => (relay_tileCue hw).noCues hc
  case refine_12 => exact fun c hw => (move_tileCue hw).noCues hc
  case refine_13 =>
    exact fun c hw => ⟨gives_onCue hw rfl (by simp [repeatWin, hc]), gives_onCue hw rfl (by simp [rehearseWin, hc])⟩
  case refine_14 => exact fun c hw => gives_onCue hw rfl (by simp [place, hc])
  case refine_15 =>
    intro lost
    refine ⟨fun c => ?_, fun c hw => ?_, fun c hw => ?_, fun c hw => ?_, fun c => ?_, fun c hw => ?_⟩
    · exact fun hl => ⟨(eval_tileCue c).lost hc hl rfl, fun h hn => (eval_tileCue c).bad hc hl rfl h hn (by simp)⟩
    · exact fun hl => ⟨(requant_tileCue hw).lost hc hl rfl, fun h hn => (requant_tileCue hw).bad hc hl rfl h hn (by simp)⟩
    · exact fun hl => ⟨(out_tileCue hw).lost hc hl rfl, fun h hn => (out_tileCue hw).bad hc hl rfl h hn (by simp)⟩
    · exact fun hl => ⟨(move_tileCue hw).lost hc hl rfl, fun h hn => (move_tileCue hw).bad hc hl rfl h hn (by simp)⟩
    · intro dst t ht hl
      exact ⟨(hop_tileCue c).lost hc hl rfl, fun h hn => (hop_tileCue c).bad hc hl rfl h hn (by simpa using ht)⟩
    · exact fun t ht hl => ⟨(relay_tileCue hw).lost hc hl rfl, fun h hn => (relay_tileCue hw).bad hc hl rfl h hn (by simpa using ht)⟩
  case refine_16 =>
    show execHbmWr c s = _
    simp only [execHbmWr, hw, hi, hbmWrite, hc, State.onDev]
    rfl
  case refine_17 =>
    intro r
    have hr : r = d.modTile fun t => { t with users := noteUsers t.users keys step } := Dev.useKeys_kept hk step
    rw [hr]
    exact ⟨rfl, fun k => mem_noteUsers, fun u => mem_noteUsers_old⟩

/-! ## HOP, RELAY and MOVE performed -/

/-- A row that is kept for readers of the slot leaves all but the tile's old rows as it is. -/
theorem Dev.keepRow_eq (key slot : Nat) : ∃ o, d.keepRow key slot = d.modTile fun t => { t with rowOld := o } := by
  unfold Dev.keepRow
  split
  · exact ⟨d.tile.rowOld, rfl⟩
  · exact ⟨_, rfl⟩

/-- A row's bytes and tag are written; what else changes is what is kept of the row. -/
theorem Dev.rowWr_eq (h : d.hazActive = false) (tile row : Nat) (bs : List Byte) (tag : BitVec 16) (slot cue : Nat) :
    ∃ o, d.rowWr tile row bs tag slot cue = { d with
      mem := { d.mem with apron := wrN d.mem.apron (apronKey tile row 0) bs, tags := sput d.mem.tags (32 * tile + row) tag },
      tile := { d.tile with rowOld := o, blocks := sdel d.tile.blocks (32 * tile + row) } } := by
  obtain ⟨o, ho⟩ := d.keepRow_eq (32 * tile + row) slot
  refine ⟨o, ?_⟩
  simp only [Dev.rowWr, ho]
  rw [Dev.tagWrite_off]
  · rfl
  · exact h

/-- Without the hazard detector a read of rows notes the step with them and takes their bytes. -/
theorem Dev.rowsRd_off (h : d.hazActive = false) (t : Tok) (keys : List Nat) (slot cue operand : Nat) :
    d.rowsRd t keys slot cue operand = (d.useKeys keys t.step, keys.flatMap fun k => d.rowBytes k slot) := by
  simp only [Dev.rowsRd]
  rw [Dev.hazRead_off ((Dev.useKeys_hazActive _ _).trans h)]

theorem Dev.sendSet_eq (tile dst landSlot : Nat) : Dev.sendSet tile dst landSlot d = d.modTile fun t =>
    match sget t.acc tile with
    | none => t
    | some a => { t with acc := sdel t.acc tile, pend := insContrib t.pend ⟨landSlot, 2, dst, a.chain, a.exp, a.vals, a.ovf⟩ } := by
  cases hs : sget d.tile.acc tile <;> simp only [Dev.sendSet, Dev.modTile, hs] <;> rfl

/-- An error of a row leaves memory, writes one record, and empties the step's lanes. -/
theorem Dev.tileError_spec (hst : d.sys.st ≠ .blackout) (code tile pslot slot cue : Nat) (t : Tok) : let r := d.tileError code tile pslot slot cue t
    r.mem = d.mem ∧ r.err.nextSeq = d.err.nextSeq + 1 ∧ r.frm.lanesOf t.ex t.ey t.session = [] := by
  intro r
  obtain ⟨hm, -, hs⟩ := d.contain_spec { code := code, cls := 1, kind := 1, unit := tile, slot := slot, cue := cue, detail := [BitVec.ofNat 32 pslot, 0, BitVec.ofNat 32 1] } [t.step] 1
  exact ⟨hm, hs hst, d.contain_lanesOf _ t.step 1⟩

section
variable {c : MoveCue} {tok : Tok} {a : Nat} (ha : (if c.laneBuf then d.laneBuf c.lane.toNat tok.tenant + c.waddr.toNat else c.waddr.toNat) / 8 * 8 = a)
include ha

/-- A MOVE's wings range that something outstanding covers stalls the device. -/
theorem moveOn_stall {o : Outst} (ho : d.outstanding true a 512 = some o) : moveOn c tok d = d.stallOn o c.slot.toNat := by
  simp only [moveOn, wordAddr, ha, ho]

theorem moveOn_free (ho : d.outstanding true a 512 = none) : moveOn c tok d =
    if c.toApron then
      (d.wingsRd tok a 512 c.slot.toNat c.num.toNat).1.rowWr c.tile.toNat c.row.toNat (d.wingsRd tok a 512 c.slot.toNat c.num.toNat).2 (mkTag 0 c.fmt.toNat 0) c.slot.toNat c.num.toNat
    else if tagFmt (d.rowTag c.tile.toNat c.row.toNat c.slot.toNat) = 0 then d.tileError 0x0201 c.tile.toNat 0 c.slot.toNat c.num.toNat tok
    else (d.rowRd tok c.tile.toNat c.row.toNat c.slot.toNat c.num.toNat).1.wingsWr tok a (d.rowRd tok c.tile.toNat c.row.toNat c.slot.toNat c.num.toNat).2
      c.slot.toNat c.num.toNat := by
  simp only [moveOn, wordAddr, ha, ho]
end

/-- Settles O33: a set goes from its tile to the receiver's contributions, and a row goes between apron and wings. -/
theorem hopsRelaysAndMovesAct : Obligations.HopsRelaysAndMovesAct := by
  refine ⟨fun s lane tok hc hl => ?_, fun s c tok hw hc hl => ?_⟩
  case refine_1 =>
    refine ⟨fun c hlane => ?_, fun c hw hlane => ?_⟩
    · subst hlane
      intro d₁ hn hm ht hd
      have hg := (hop_tileCue c).performed hc hl rfl hn hm (List.forall_mem_cons.mpr ⟨ht, List.forall_mem_singleton.mpr hd⟩)
      rw [Dev.sendSet_eq] at hg
      exact hg
    · subst hlane
      intro d₁ hn hm ht hd
      have hg := (relay_tileCue hw).performed hc hl rfl hn hm (List.forall_mem_cons.mpr ⟨ht, List.forall_mem_singleton.mpr hd⟩)
      rw [Dev.sendSet_eq] at hg
      exact hg
  case refine_2 =>
    intro tile slot d₁ hn hm hb hz a key
    have hg : Gives (.move c) s (moveOn c tok d₁) := (move_tileCue hw).performed hc hl rfl hn hm (by simpa using hb)
    clear_value d₁
    have free (ho : d₁.outstanding true a 512 = none) := @moveOn_free d₁ c tok _ rfl ho
    refine ⟨fun o ho => ?_, fun ho hr => ⟨fun hta => ?_, fun hta htag hlen => ?_⟩, fun hta ho htag hst => ?_⟩
    case refine_1 => rwa [moveOn_stall rfl ho] at hg
    case refine_2 =>
      have hr' : d₁.refusedBank tok.tenant false a 512 = none := by simpa [hta] using hr
      rw [free ho, if_pos hta, Dev.wingsRd_allowed hz hr'] at hg
      obtain ⟨o, hd⟩ := Dev.rowWr_eq hz tile c.row.toNat (rdN d₁.mem.wings a 512) (mkTag 0 c.fmt.toNat 0) slot c.num.toNat
      refine ⟨_, hg, ?_⟩
      dsimp only
      have hkey : apronKey tile c.row.toNat 0 = 512 * key := by simp [apronKey, key, Nat.mul_comm]
      rw [hd, hkey]
      exact ⟨rfl, rfl⟩
    case refine_3 =>
      intro d₂
      rw [free ho, if_neg (by simp [hta]), if_neg htag] at hg
      have hrow : d₁.rowRd tok tile c.row.toNat slot c.num.toNat = (d₂, d₁.rowBytes key slot) := by
        rw [Dev.rowRd, Dev.rowsRd_off hz]
        simp [d₂, key]
      have hm₂ : d₂.mem = d₁.mem := by simp [d₂]
      have hr' : d₂.refusedBank tok.tenant true a (d₁.rowBytes key slot).length = none := by
        rw [hlen]
        simpa [Dev.refusedBank, hm₂, hta] using hr
      rw [hrow, Dev.wingsWr_allowed ((Dev.useKeys_hazActive _ _).trans hz) hr', hm₂] at hg
      exact hg
    case refine_4 =>
      rw [free ho, if_neg (by simp [hta]), if_pos htag] at hg
      exact ⟨_, hg, Dev.tileError_spec hst ..⟩
end Sys2Proof.Machine
end

section
/-! PROOF. What an evaluation contributes, and when it is refused (R72, R75, R112, R346). -/
namespace Sys2Proof.Machine
variable {d e : Dev}

/-! ## Refused evaluations -/

theorem Tile.sums_acc {t u : Tile} (h : t.sums = u.sums) : t.acc = u.acc := congrArg Prod.fst h
theorem Tile.sums_pend {t u : Tile} (h : t.sums = u.sums) : t.pend = u.pend := congrArg (fun x => x.2.1) h
theorem Tile.sums_served {t u : Tile} (h : t.sums = u.sums) : t.served = u.served := congrArg (fun x => x.2.2.1) h
theorem Tile.sums_arrs {t u : Tile} (h : t.sums = u.sums) : t.arrs = u.arrs := congrArg (fun x => x.2.2.2.1) h

/-- What an evaluation that is refused leaves: one record more, no lane of the step, and everything it would have changed. -/
structure Refused (tok : Tok) (d r : Dev) : Prop where
  mem : r.mem = d.mem
  sums : r.tile.sums = d.tile.sums
  lanes : r.frm.lanesOf tok.ex tok.ey tok.session = []
  free : r.freeCtr = d.freeCtr
  sec : r.sec = d.sec
  record : r.err.nextSeq = d.err.nextSeq + 1

theorem Dev.tileError_refused (hst : d.sys.st ≠ .blackout) (code tile pslot slot cue : Nat) (tok : Tok) :
    Refused tok d (d.tileError code tile pslot slot cue tok) := by
  obtain ⟨hm, hs, hl⟩ := Dev.tileError_spec hst code tile pslot slot cue tok
  exact ⟨hm, by simp, hl, by simp, by simp, hs⟩

/-- An evaluation of a slot without a principal, with a suspended one, or of a row with another tag is refused. -/
theorem Dev.evalTok_refused {c : EvalCue} {tok : Tok} (hst : d.sys.st ≠ .blackout)
    (h : d.tile.holder c.tile.toNat c.pslot.toNat = none ∨ (∃ a, d.tile.holder c.tile.toNat c.pslot.toNat = some a ∧ (d.arr a).suspended = true) ∨
      (∃ r ∈ evalRows c, tagFmt (d.rowTag c.tile.toNat r.1 r.2.2) ≠ r.2.1 ∨ tagOset (d.rowTag c.tile.toNat r.1 r.2.2) ≠ (d.slotDesc c.tile.toNat c.pslot.toNat).oset)) :
    Refused tok d (d.evalTok c tok) := by
  cases ha : d.tile.holder c.tile.toNat c.pslot.toNat with
  | none =>
    simp only [Dev.evalTok, ha]
    exact Dev.tileError_refused hst ..
  | some a =>
    simp only [Dev.evalTok, ha]
    by_cases hs : (d.arr a).suspended = true
    · rw [if_pos hs]
      obtain ⟨hm, hsum, hl, hf, hsec, hr⟩ := Dev.tileError_refused hst Config.suspendCode c.tile.toNat c.pslot.toNat c.slot.toNat c.num.toNat tok
      exact ⟨hm, hsum, hl, hf, hsec, hr⟩
    · rw [if_neg hs]
      obtain h | ⟨b, hb, hsb⟩ | ⟨r, hr, h⟩ := h
      · cases ha.symm.trans h
      · exact absurd (Option.some.inj (ha.symm.trans hb) ▸ hsb) hs
      · split
        case isTrue => exact Dev.tileError_refused hst ..
        case isFalse hfmt =>
          rw [if_pos]
          · exact Dev.tileError_refused hst ..
          · refine List.any_eq_true.mpr ⟨r, hr, ?_⟩
            rcases h with h | h
            · exact absurd (List.any_eq_true.mpr ⟨r, hr, by simpa using h⟩) hfmt
            · simpa using h

/-! ## EVAL performed -/

section
variable {c : EvalCue} {tok : Tok}

/-- A tile that another evaluation drives in the slots takes no second one (log 98). -/
theorem evalOn_driven (h : ∃ i < evalSlots c, (c.tile.toNat, c.slot.toNat + i) ∈ d.tile.driven) : evalOn c tok d = d := by
  rw [evalOn, if_pos]
  simpa [Tile.idleIn] using h

theorem evalOn_an4 (hf : c.fmt = .an4) (h : ∀ i < evalSlots c, (c.tile.toNat, c.slot.toNat + i) ∉ d.tile.driven) :
    evalOn c tok d = (d.drives c.tile.toNat c.slot.toNat 1).evalTok c tok := by
  rw [evalOn, if_neg (by simpa [Tile.idleIn] using h)]
  simp only [evalSlots, hf]

theorem evalOn_aw8 (hf : c.fmt = .aw8) (h : ∀ i < evalSlots c, (c.tile.toNat, c.slot.toNat + i) ∉ d.tile.driven) :
    evalOn c tok d = { d with tile := { (d.drives c.tile.toNat c.slot.toNat 2).tile with late := d.tile.late ++ [c] } } := by
  rw [evalOn, if_neg (by simpa [Tile.idleIn] using h)]
  simp only [evalSlots, hf]
  rfl
end

/-- Settles O29: every refused evaluation is a tile's error, and nothing but the driven slots differs where EVAL finds it. -/
theorem evalRefusesWrongRows : Obligations.EvalRefusesWrongRows := by
  intro c tok tile pslot wrong out
  have ok {d r : Dev} (h : Refused tok d r) : out d r :=
    ⟨h.mem, Tile.sums_acc h.sums, Tile.sums_pend h.sums, h.lanes, h.free, h.sec, h.record⟩
  have st {d : Dev} (h : d.cues = true) : d.sys.st ≠ .blackout := by
    obtain ⟨-, -, -, h | h⟩ := Dev.cues_iff.mp h <;> simp [h]
  refine ⟨fun d hc hw => ok (Dev.evalTok_refused (st hc) hw), fun s hf hc hl => ?_⟩
  intro d₁ hn hm hb hd hw
  have hg : Gives (.eval c) s (evalOn c tok d₁) := (eval_tileCue c).performed hc hl rfl hn hm (by simpa using hb)
  have hfree : ∀ i < evalSlots c, (c.tile.toNat, c.slot.toNat + i) ∉ d₁.tile.driven := by
    intro i hi
    obtain rfl : i = 0 := by simpa [evalSlots, hf] using hi
    exact hd
  clear_value d₁
  rw [evalOn_an4 hf hfree] at hg
  have hr : Refused tok (d₁.drives c.tile.toNat c.slot.toNat 1) ((d₁.drives c.tile.toNat c.slot.toNat 1).evalTok c tok) := Dev.evalTok_refused (st hn) hw
  obtain ⟨hmem, hsums, hlanes, hfr, hsec, hrec⟩ := hr
  exact ⟨_, hg, ok ⟨hmem, hsums, hlanes, hfr, hsec, hrec⟩⟩

/-! ## Phases converted -/

theorem Dev.phase_free (a range codes) : (d.phase a range codes).1.freeCtr = d.freeCtr + 1 := rfl

/-- Drift tracking of an array's groups leaves every gain as it is. -/
theorem foldl_gain (track : Nat → Bool) (f : Nat → Grp → Grp) (hf : ∀ k g, (f k g).gain = g.gain) (j : Nat) (l : List Nat) (gs : Sparse Grp) :
    (sgetD (l.foldl (fun gs k => if track k then smod gs k {} (f k) else gs) gs) j {}).gain = (sgetD gs j {}).gain := by
  induction l generalizing gs with
  | nil => rfl
  | cons k l ih =>
    rw [List.foldl_cons, ih]
    split
    case isTrue =>
      simp only [smod, sgetD, sget_sput]
      split
      case isTrue h => subst h; exact hf j _
      case isFalse => rfl
    case isFalse => rfl

theorem Dev.arr_modArr (a b : Nat) (f : Arr → Arr) : (d.modArr a f).arr b = if b = a then f (d.arr a) else d.arr b := by
  simp only [Dev.arr, Dev.modArr, Dev.modTile, Tile.arr, Tile.setArr, sget_sput]
  split <;> rfl

theorem Dev.phase_gain (a range : Nat) (codes : List Int) (b k : Nat) : (((d.phase a range codes).1.arr b).grp k).gain = ((d.arr b).grp k).gain := by
  unfold Dev.phase
  extract_lets arr ctr ys conv gains total fs ref ok groups q
  clear_value ok ref total
  have hg : (sgetD groups k {}).gain = (arr.grp k).gain := foldl_gain (fun k => arr.refs && ok k)
    (fun k g => { g with sumE := g.sumE + (refWeight k * total : Int), sumM := g.sumM + (ref k : Rat) * rangeQ range / 8, qual := true }) (fun _ _ => rfl) k _ _
  clear_value groups
  dsimp only
  rw [Dev.arr_modArr]
  split
  case isTrue h => subst h; exact hg
  case isFalse => rfl

theorem Dev.phase_logical (a range : Nat) (codes : List Int) (b row : Nat) : ((d.phase a range codes).1.arr b).logical row = (d.arr b).logical row := by
  unfold Dev.phase
  extract_lets
  dsimp only
  rw [Dev.arr_modArr]
  split
  case isTrue h => subst h; rfl
  case isFalse => rfl

theorem Dev.phase_cellsOf (a range : Nat) (codes : List Int) (b : Nat) : (d.phase a range codes).1.tile.cellsOf b = d.tile.cellsOf b := by
  have h (row : Nat) : ((d.phase a range codes).1.tile.arr b).logical row = (d.tile.arr b).logical row := d.phase_logical ..
  simp only [Tile.cellsOf, h]
  rfl

/-- The phase that an array converts from codes, with a free value of its own (R72, R86). -/
def Dev.phaseOf (d : Dev) (a range ctr : Nat) (codes : List Int) : Phase :=
  ⟨codes, (List.range 512).map fun j => convCode ((colSums (d.tile.cellsOf a) codes).getD j 0) range (Config.colError ctr j),
    (List.range 16).map fun k => ((d.arr a).grp k).gain⟩

/-- Phases are converted in turn, each as the array stood at first, and each with the next free value. -/
theorem Dev.convert_spec (a range : Nat) (phases : List (List Int)) : (d.convert a range phases).1.freeCtr = d.freeCtr + phases.length ∧
    (d.convert a range phases).2 = phases.mapIdx fun i codes => d.phaseOf a range (d.freeCtr + i) codes := by
  induction phases generalizing d with
  | nil => exact ⟨rfl, rfl⟩
  | cons p ps ih =>
    have hof (n : Nat) (codes : List Int) : (d.phase a range p).1.phaseOf a range n codes = d.phaseOf a range n codes := by
      simp only [Dev.phaseOf, Dev.phase_gain, Dev.phase_cellsOf]
    obtain ⟨hf, hp⟩ := @ih (d.phase a range p).1
    refine ⟨?_, ?_⟩
    · rw [List.length_cons, Nat.add_comm ps.length, ← Nat.add_assoc]
      exact hf
    · rw [List.mapIdx_cons]
      refine List.cons_eq_cons.mpr ⟨rfl, hp.trans ?_⟩
      simp only [hof, Dev.phase_free, Nat.add_assoc, Nat.add_comm 1]

/-- A conversion changes an array's drift tracking, its cells and sums stand. -/
theorem Dev.convert_tile (a range : Nat) (phases : List (List Int)) : let r := (d.convert a range phases).1
    r.tile.acc = d.tile.acc ∧ r.tile.pend = d.tile.pend ∧ r.tile.served = d.tile.served := by
  induction phases generalizing d with
  | nil => exact ⟨rfl, rfl, rfl⟩
  | cons p ps ih => exact @ih (d.phase a range p).1

/-- Contributions go to their place one after another. -/
theorem Dev.foldl_contribute {α : Type} (g : α → Contrib) (l : List α) : l.foldl (fun d x => d.contribute (g x)) d = d.modTile fun t =>
    { t with pend := (l.map g).foldl insContrib t.pend } := by
  induction l generalizing d with
  | nil => rfl
  | cons x xs ih => rw [List.foldl_cons, ih]; rfl

/-! ## What a performed evaluation does -/

/-- Memory, sums, cells, free values and security stand. -/
structure SameSums (d e : Dev) : Prop where
  mem : e.mem = d.mem
  sums : e.tile.sums = d.tile.sums
  cells : e.tile.cells = d.tile.cells
  free : e.freeCtr = d.freeCtr
  sec : e.sec = d.sec

namespace SameSums
theorem refl (d : Dev) : SameSums d d := ⟨rfl, rfl, rfl, rfl, rfl⟩

variable {f : Dev} (h : SameSums d e)
include h

theorem trans (h' : SameSums e f) : SameSums d f :=
  ⟨h'.mem.trans h.mem, h'.sums.trans h.sums, h'.cells.trans h.cells, h'.free.trans h.free, h'.sec.trans h.sec⟩

theorem rowBytes (key slot : Nat) : e.rowBytes key slot = d.rowBytes key slot := by
  have hr : e.tile.rowOld = d.tile.rowOld := congrArg (fun x => x.2.2.2.2.2.2.1) h.sums
  simp only [Dev.rowBytes, Dev.rowBefore, hr, h.mem]

theorem qEntry (p : Nat) : e.qEntry p = d.qEntry p := by
  have hq : e.tile.qtab = d.tile.qtab := congrArg (fun x => x.2.2.2.2.2.2.2) h.sums
  simp only [Dev.qEntry, hq]

theorem slotDesc (tile slot : Nat) : e.slotDesc tile slot = d.slotDesc tile slot := by simp only [Dev.slotDesc, Dev.prRd, h.mem]

theorem outliers (tile n : Nat) : e.outliers tile n = d.outliers tile n := by simp only [Dev.outliers, Dev.prRd, h.mem]

theorem arr (a : Nat) : e.arr a = d.arr a := by simp only [Dev.arr, Tile.arr, Tile.sums_arrs h.sums]

theorem phaseOf (a range ctr : Nat) (codes : List Int) : e.phaseOf a range ctr codes = d.phaseOf a range ctr codes := by
  have hc : e.tile.cellsOf a = d.tile.cellsOf a := by simp only [Tile.cellsOf, h.cells, Tile.arr, Tile.sums_arrs h.sums]
  simp only [Dev.phaseOf, hc, h.arr]
end SameSums

theorem Dev.prompter_of_mem (h : e.mem = d.mem) (tile slot : Nat) (xs : List Int) : e.prompter tile slot xs = d.prompter tile slot xs := by
  have hp (off n : Nat) : e.prRd tile off n = d.prRd tile off n := by simp only [Dev.prRd, h]
  have hs : e.slotDesc tile slot = d.slotDesc tile slot := by simp only [Dev.slotDesc, hp]
  have ho (n : Nat) : e.outliers tile n = d.outliers tile n := by simp only [Dev.outliers, hp]
  have hr (s : SlotDesc) : e.resEntries tile s = d.resEntries tile s := by simp only [Dev.resEntries, hp]
  have hw (s : SlotDesc) (i j : Nat) : e.outlierWeight tile s i j = d.outlierWeight tile s i j := by simp only [Dev.outlierWeight, hp]
  simp only [Dev.prompter, hs, ho, hr, hw]

theorem Dev.rowRd_same (tok : Tok) (tile row slot cue operand : Nat) : SameSums d (d.rowRd tok tile row slot cue operand).1 :=
  ⟨by simp, by simp, by simp, by simp, by simp⟩

theorem Dev.rowRd_bytes (tok : Tok) (tile row slot cue operand : Nat) : (d.rowRd tok tile row slot cue operand).2 = d.rowBytes (32 * tile + row) slot := by
  simp [Dev.rowRd, Dev.rowsRd]

/-- The contributions of an evaluation: one for each phase, then the Prompter's (R74, R112). -/
def Dev.contribs (d : Dev) (i : EvalIn) (kind slot : Nat) (ps : List Phase) : List Contrib :=
  (ps.zipIdx.map fun p => (⟨slot + p.2 + 1, 0, i.tile, i.chain, i.exp, phaseVals p.1 i.range (phaseMul kind i.fmt p.2), []⟩ : Contrib)) ++
    (match d.prompter i.tile i.pslot i.xs with
      | some v => [⟨slot + ps.length, 1, i.tile, i.chain, i.exp, v, []⟩]
      | none => [])

theorem Dev.evalContrib_eq (i : EvalIn) (kind slot : Nat) (ps : List Phase) :
    d.evalContrib i kind slot ps = d.modTile fun t => { t with pend := (d.contribs i kind slot ps).foldl insContrib t.pend } := by
  simp only [Dev.evalContrib, Dev.contribs]
  have hp (f : Tile → Tile) : (d.modTile f).prompter i.tile i.pslot i.xs = d.prompter i.tile i.pslot i.xs := Dev.prompter_of_mem rfl ..
  rw [Dev.foldl_contribute, hp]
  cases hv : d.prompter i.tile i.pslot i.xs <;> simp [List.foldl_append, Dev.contribute, Dev.modTile]

/-- The rows of an evaluation that it reads, and their bytes. -/
theorem Dev.evalRows_same (c : EvalCue) (tok : Tok) : let p := d.rowRd tok c.tile.toNat c.row.toNat c.slot.toNat c.num.toNat
    let q := if c.fmt = .aw8 then p.1.rowRd tok c.tile.toNat c.rowLo.toNat (c.slot.toNat + 1) c.num.toNat 1 else (p.1, [])
    p.2 = d.rowBytes (32 * c.tile.toNat + c.row.toNat) c.slot.toNat ∧ SameSums d q.1 ∧
    q.2 = if c.fmt = .aw8 then d.rowBytes (32 * c.tile.toNat + c.rowLo.toNat) (c.slot.toNat + 1) else [] := by
  intro p q
  have hp : SameSums d p.1 := Dev.rowRd_same ..
  refine ⟨Dev.rowRd_bytes .., ?_, ?_⟩
  · simp only [q]
    split
    · exact hp.trans (Dev.rowRd_same ..)
    · exact hp
  · simp only [q]
    split
    · exact (Dev.rowRd_bytes ..).trans (hp.rowBytes ..)
    · rfl

/-- After an evaluation's conversions, trouble and captures change no sum. -/
theorem Dev.evalTrouble_same (tok : Tok) (i : EvalIn) (b : Block) (ps : List Phase) (slot lane : Nat) (again : Bool) :
    SameSums d (d.evalTrouble tok i b ps slot lane again) := ⟨by simp, by simp, by simp, by simp, by simp⟩

theorem Dev.capture_same (a key range : Nat) (ps : List Phase) : SameSums d (d.capture a key range ps) := ⟨rfl, rfl, rfl, rfl, rfl⟩

theorem Dev.modExact_same (f : Tile → Exact) : SameSums d (d.modTile fun t => { t with exact := f t }) := ⟨rfl, rfl, rfl, rfl, rfl⟩

section
variable {c : EvalCue} {tok : Tok} {a : Nat} (ha : d.tile.holder c.tile.toNat c.pslot.toNat = some a) (hs : (d.arr a).suspended = false)
  (hrows : ∀ r ∈ evalRows c, tagFmt (d.rowTag c.tile.toNat r.1 r.2.2) = r.2.1 ∧
    tagOset (d.rowTag c.tile.toNat r.1 r.2.2) = (d.slotDesc c.tile.toNat c.pslot.toNat).oset)
include ha hs hrows

/-- An evaluation of rows with the tags it asks for: its rows are read, its lane served, its phases converted and contributed where a code
is not zero, and its trouble dealt with. -/
theorem Dev.evalTok_eq : ∃ e, SameSums d e ∧
    let tile := c.tile.toNat
    let pslot := c.pslot.toNat
    let slot := c.slot.toNat
    let x := rowCodes c.fmt (d.rowBytes (32 * tile + c.row.toNat) slot)
      (if c.fmt = .aw8 then d.rowBytes (32 * tile + c.rowLo.toNat) (slot + 1) else []) (d.outliers tile (d.slotDesc tile pslot).oset)
    let range := c.range.toNat - qWiden (d.qEntry c.qpoint.toNat)
    let i : EvalIn := ⟨tile, pslot, c.chain.toNat, tagExp (d.rowTag tile c.row.toNat slot), range, c.fmt, x.1, x.2⟩
    let f := e.serveLane (16 * tile + pslot) c.lane.toNat tok
    SameSums (if x.1.all fun v => v == 0 then f
      else (f.convert a range x.2).1.evalContrib i (d.slotDesc tile pslot).kind slot (f.convert a range x.2).2) (d.evalTok c tok) := by
  have h₁ : ¬ (evalRows c).any (fun r => tagFmt (d.rowTag c.tile.toNat r.1 r.2.2) != r.2.1) = true := by
    simpa using fun x y z h => (hrows (x, y, z) h).1
  have h₂ : ¬ (evalRows c).any (fun r => tagOset (d.rowTag c.tile.toNat r.1 r.2.2) != (d.slotDesc c.tile.toNat c.pslot.toNat).oset) = true := by
    simpa using fun x y z h => (hrows (x, y, z) h).2
  obtain ⟨hhi, hsame, hlo⟩ := d.evalRows_same c tok
  simp only [Dev.evalTok, ha]
  rw [if_neg (ne_true_of_eq_false hs), if_neg h₁, if_neg h₂]
  generalize d.rowRd tok c.tile.toNat c.row.toNat c.slot.toNat c.num.toNat = p at hhi hsame hlo ⊢
  obtain ⟨e₁, hi⟩ := p
  dsimp only at hhi hsame hlo ⊢
  generalize (if c.fmt = .aw8 then e₁.rowRd tok c.tile.toNat c.rowLo.toNat (c.slot.toNat + 1) c.num.toNat 1 else (e₁, [])) = q at hsame hlo ⊢
  obtain ⟨e, lo⟩ := q
  dsimp only at hsame hlo ⊢
  subst hhi hlo
  refine ⟨e, hsame, ?_⟩
  have hq : (e.serveLane (16 * c.tile.toNat + c.pslot.toNat) c.lane.toNat tok).qEntry c.qpoint.toNat = d.qEntry c.qpoint.toNat := hsame.qEntry _
  rw [hsame.slotDesc, hsame.outliers, hq]
  generalize rowCodes c.fmt _ _ _ = x
  obtain ⟨xs, phases⟩ := x
  generalize e.serveLane (16 * c.tile.toNat + c.pslot.toNat) c.lane.toNat tok = f
  dsimp only
  generalize c.range.toNat - qWiden (d.qEntry c.qpoint.toNat) = range
  refine SameSums.trans ?_ (Dev.modExact_same _)
  have cap (u : Dev) (b : Block) (ps : List Phase) : SameSums u (if b.n = 0 then u else u.capture a (16 * c.tile.toNat + c.pslot.toNat) range ps) := by
    split
    · exact .refl _
    · exact Dev.capture_same ..
  refine SameSums.trans ?_ (cap ..)
  refine SameSums.trans ?_ (Dev.evalTrouble_same ..)
  by_cases hz : (xs.all fun v => v == 0) = true
  · simp only [if_pos hz]
    exact .refl _
  · simp only [if_neg hz]
    exact .refl _
end

/-! ## The next slot, and EVAL settled -/

theorem Dev.advance_one {c : EvalCue} {tok : Tok} {slot : Nat} (hl : d.tile.late = [c]) (hs : c.slot.toNat < slot) (ht : d.lane c.lane.toNat = some tok) :
    d.advance slot = ({ d with tile := { d.tile with late := [] } }.evalTok c tok).modTile fun t => t.land slot := by
  have ht' : ({ d with tile := { d.tile with late := [] } } : Dev).lane c.lane.toNat = some tok := ht
  simp only [Dev.advance, hl, Dev.modTile]
  simp [hs, Dev.evalRun, ht']

theorem mem_all_zero {xs : List Int} : (xs.all fun v => v == 0) = true ↔ ∀ v ∈ xs, v = 0 := by simp

theorem Dev.convert_same (a range : Nat) (phases : List (List Int)) : let r := (d.convert a range phases).1
    r.mem = d.mem ∧ r.sec = d.sec ∧ r.tile.cells = d.tile.cells := by
  induction phases generalizing d with
  | nil => exact ⟨rfl, rfl, rfl⟩
  | cons p ps ih => exact @ih (d.phase a range p).1

/-- Settles O28: what onTile performs, and the stages of evalTok with their sums. -/
theorem evalAddsItsContribution : Obligations.EvalAddsItsContribution := by
  refine ⟨fun s c tok hc hl => ?_, fun d c tok slot hl hs ht => Dev.advance_one hl hs ht, fun d c tok a => ?_⟩
  case refine_1 =>
    intro tile slot d₁ hn hm hb
    have hg : Gives (.eval c) s (evalOn c tok d₁) := (eval_tileCue c).performed hc hl rfl hn hm (by simpa using hb)
    clear_value d₁
    refine ⟨fun h => ?_, fun h => ⟨fun hf => ?_, fun hf => ?_⟩⟩
    · rwa [evalOn_driven h] at hg
    · rwa [evalOn_an4 hf h] at hg
    · rwa [evalOn_aw8 hf h] at hg
  case refine_2 =>
    intro tile pslot slot ha hs hrows sd x range e r
    obtain ⟨u, hu, hr⟩ := @Dev.evalTok_eq d c tok a ha hs hrows
    extract_lets _ i f at hr
    obtain ⟨hfree, hps⟩ := f.convert_spec a range x.2
    obtain ⟨hacc, hpend, hserved⟩ := f.convert_tile a range x.2
    obtain ⟨hmem, hsec, hcells⟩ := f.convert_same a range x.2
    have hf : f.freeCtr = d.freeCtr := hu.free
    have hfa : f.tile.acc = d.tile.acc := (Tile.sums_acc hu.sums :)
    have hfp : f.tile.pend = d.tile.pend := (Tile.sums_pend hu.sums :)
    have hfr : f.tile.arrs = d.tile.arrs := (Tile.sums_arrs hu.sums :)
    have hfs : f.tile.served = (16 * tile + pslot, c.lane.toNat) :: d.tile.served := congrArg ((16 * tile + pslot, c.lane.toNat) :: ·) (Tile.sums_served hu.sums)
    have hof (n : Nat) (codes : List Int) : f.phaseOf a range n codes = d.phaseOf a range n codes := hu.phaseOf ..
    simp only [hof, hf] at hps hfree
    by_cases hz : ∀ v ∈ x.1, v = 0
    · rw [if_pos (mem_all_zero.mpr hz)] at hr
      exact ⟨hr.mem.trans hu.mem, (Tile.sums_acc hr.sums).trans hfa,
        (Tile.sums_served hr.sums).trans hfs, hr.cells.trans hu.cells, hr.sec.trans hu.sec,
        fun _ => ⟨(Tile.sums_pend hr.sums).trans hfp, hr.free.trans hf, (Tile.sums_arrs hr.sums).trans hfr⟩,
        fun ⟨v, hv, hn⟩ => absurd (hz v hv) hn⟩
    · rw [if_neg (fun h => hz (mem_all_zero.mp h)), Dev.evalContrib_eq] at hr
      refine ⟨hr.mem.trans (hmem.trans hu.mem), (Tile.sums_acc hr.sums).trans (hacc.trans hfa),
        (Tile.sums_served hr.sums).trans (hserved.trans hfs),
        hr.cells.trans (hcells.trans hu.cells), hr.sec.trans (hsec.trans hu.sec), fun h => absurd h hz, fun _ => ⟨hr.free.trans hfree, (f.convert a range x.2).2, ?_, ?_, ?_⟩⟩
      · rw [hps, List.length_mapIdx]
      · intro k codes p hk hp
        rw [hps, List.getElem?_mapIdx, hk] at hp
        obtain rfl := Option.some.inj hp
        dsimp only [Dev.phaseOf]
        exact ⟨rfl, rfl, rfl⟩
      · have hpr : (f.convert a range x.2).1.prompter tile pslot x.1 = d.prompter tile pslot x.1 := Dev.prompter_of_mem (hmem.trans hu.mem) ..
        refine (Tile.sums_pend hr.sums).trans ?_
        show (Dev.contribs _ i sd.kind slot _).foldl insContrib (f.convert a range x.2).1.tile.pend = _
        rw [hpend, hfp, Dev.contribs, hpr] <;> rfl
end Sys2Proof.Machine
end

section
/-! PROOF. What REQUANT and OUT write (R83, R115 to R118, R347, R348). -/
namespace Sys2Proof.Machine
variable {d e : Dev}

/-! ## OUT -/

theorem colBytes_length (f : OutFmt) (cols : List Nat) (h : cols.length = 512) : (colBytes f cols).length = vecBytes f := by
  have hl (n : Nat) (l : List Nat) : (l.flatMap (leBytes n)).length = n * l.length := by
    induction l with
    | nil => rfl
    | cons x xs ih => rw [List.flatMap_cons, List.length_append, ih, leBytes_length, List.length_cons, Nat.mul_succ, Nat.add_comm]
  rw [colBytes, hl, h]
  cases f <;> rfl

theorem outColumns_length (c : OutCue) (tok : Tok) : (outColumns c tok d).length = 512 := by
  unfold outColumns
  split
  · exact (List.length_map _).trans List.length_range
  · exact List.length_replicate

theorem wrN_append (m : Sparse Byte) (a : Nat) (bs cs : List Byte) : wrN m a (bs ++ cs) = wrN (wrN m a bs) (a + bs.length) cs := by
  induction bs generalizing m a with
  | nil => rfl
  | cons b bs ih =>
    rw [List.cons_append, wrN, ih, wrN, List.length_cons, Nat.add_right_comm, Nat.add_assoc]

/-- The row tags of a vector in the apron (R348). -/
def putTags (tags : Sparse (BitVec 16)) (addr : Nat) (f : OutFmt) : Sparse (BitVec 16) :=
  (dataTags f).zipIdx.foldl (fun m p => sput m (addr + p.2) (mkTag 0 p.1 0)) tags

theorem sget_putTags (tags : Sparse (BitVec 16)) (addr : Nat) (f : OutFmt) {p : Nat × Nat} (h : p ∈ (dataTags f).zipIdx) :
    sget (putTags tags addr f) (addr + p.2) = some (mkTag 0 p.1 0) := by
  cases f with
  | e4m3 => obtain rfl : p = (4, 0) := by simpa [dataTags] using h
            simp [putTags, dataTags]
  | e5m2 => obtain rfl : p = (5, 0) := by simpa [dataTags] using h
            simp [putTags, dataTags]
  | bf16 =>
    have hp : p = (6, 0) ∨ p = (7, 1) := by simpa [dataTags] using h
    rcases hp with rfl | rfl
    · simp [putTags, dataTags, sget_sput]
    · simp [putTags, dataTags]

/-- A vector written into the apron: its bytes on end, and a tag for each of its rows. -/
theorem Dev.vecWr_apron (hz : d.hazActive = false) {l : VecLoc} (hl : l.apron = true) (tok : Tok) (f : OutFmt) {bs : List Byte} (hb : bs.length = vecBytes f)
    (slot cue : Nat) : ∃ o b, d.vecWr tok l f bs slot cue =
      { d with mem := { d.mem with apron := wrN d.mem.apron (l.addr * 512) bs, tags := putTags d.mem.tags l.addr f },
               tile := { d.tile with rowOld := o, blocks := b } } := by
  have hrow (i : Nat) : 32 * (l.addr / 32) + (l.addr % 32 + i) = l.addr + i := by omega
  have one (e : Dev) (he : e.hazActive = false) (cs : List Byte) (i t : Nat) : ∃ o b, e.rowWr (l.addr / 32) (l.addr % 32 + i) cs (mkTag 0 t 0) slot cue =
      { e with mem := { e.mem with apron := wrN e.mem.apron ((l.addr + i) * 512) cs, tags := sput e.mem.tags (l.addr + i) (mkTag 0 t 0) },
               tile := { e.tile with rowOld := o, blocks := b } } := by
    obtain ⟨o, ho⟩ := Dev.rowWr_eq he (l.addr / 32) (l.addr % 32 + i) cs (mkTag 0 t 0) slot cue
    refine ⟨o, sdel e.tile.blocks (l.addr + i), ho.trans ?_⟩
    simp only [apronKey, hrow, Nat.add_zero]
  have single (t : Nat) (hlen : bs.length = 512) : ∃ o b, d.rowWr (l.addr / 32) (l.addr % 32 + 0) (slice bs (512 * 0) 512) (mkTag 0 t 0) slot cue =
      { d with mem := { d.mem with apron := wrN d.mem.apron (l.addr * 512) bs, tags := sput d.mem.tags (l.addr + 0) (mkTag 0 t 0) },
               tile := { d.tile with rowOld := o, blocks := b } } := by
    obtain ⟨o, b, ho⟩ := one d hz (slice bs (512 * 0) 512) 0 t
    refine ⟨o, b, ho.trans ?_⟩
    have hs : slice bs (512 * 0) 512 = bs := by simp [slice, hlen]
    rw [hs]
    rfl
  simp only [Dev.vecWr, if_pos hl]
  cases f with
  | e4m3 => exact single 4 hb
  | e5m2 => exact single 5 hb
  | bf16 =>
    obtain ⟨o, b, h₁⟩ := one d hz (slice bs (512 * 0) 512) 0 6
    have hz' : (d.rowWr (l.addr / 32) (l.addr % 32 + 0) (slice bs (512 * 0) 512) (mkTag 0 6 0) slot cue).hazActive = false := by rw [h₁]; exact hz
    obtain ⟨o', b', h₂⟩ := one _ hz' (slice bs (512 * 1) 512) 1 7
    refine ⟨o', b', h₂.trans ?_⟩
    have hcat : slice bs (512 * 0) 512 ++ slice bs (512 * 1) 512 = bs := by
      have : (bs.drop 512).take 512 = bs.drop 512 := List.take_of_length_le (by simp [hb, vecBytes])
      simp [slice, this]
    have hlen : (slice bs (512 * 0) 512).length = 512 := by simp [slice, hb, vecBytes]
    have happ : wrN d.mem.apron (l.addr * 512) bs = wrN (wrN d.mem.apron ((l.addr + 0) * 512) (slice bs (512 * 0) 512)) ((l.addr + 1) * 512) (slice bs (512 * 1) 512) := by
      conv_lhs => rw [← hcat, wrN_append, hlen]
      show wrN _ (l.addr * 512 + 512) _ = wrN (wrN d.mem.apron (l.addr * 512) _) ((l.addr + 1) * 512) _
      rw [Nat.succ_mul l.addr]
    rw [happ, h₁]
    rfl

/-- A vector's wings range is covered by nothing outstanding when the vector stands in the apron. -/
theorem Dev.outstanding_apron {l : VecLoc} (h : l.apron = true) (n : Nat) : d.outstanding true (l.wingsRange n).1 (l.wingsRange n).2 = none := by
  simp [VecLoc.wingsRange, h, Dev.outstanding]

theorem VecLoc.wingsRange_wings {l : VecLoc} (h : l.apron = false) (n : Nat) : l.wingsRange n = (l.addr, n) := by
  simp [VecLoc.wingsRange, h]

theorem outOn_stall {c : OutCue} {tok : Tok} {l : VecLoc} (hl : d.vecLoc c.dstKind c.dst.toNat c.tile.toNat c.lane.toNat tok.tenant = l)
    {o : Outst} (ho : d.outstanding true (l.wingsRange (vecBytes c.ofmt)).1 (l.wingsRange (vecBytes c.ofmt)).2 = some o) :
    outOn c tok d = d.stallOn o c.slot.toNat := by
  simp only [outOn, hl, ho]

theorem outOn_free {c : OutCue} {tok : Tok} {l : VecLoc} (hl : d.vecLoc c.dstKind c.dst.toNat c.tile.toNat c.lane.toNat tok.tenant = l)
    (ho : d.outstanding true (l.wingsRange (vecBytes c.ofmt)).1 (l.wingsRange (vecBytes c.ofmt)).2 = none) :
    outOn c tok d = (d.modTile (outRelease c tok l (colBytes c.ofmt (outColumns c tok d)))).vecWr tok l c.ofmt (colBytes c.ofmt (outColumns c tok d))
      c.slot.toNat c.num.toNat := by
  simp only [outOn, hl, ho]

/-- A refused wings access counts and records, and leaves memory's bytes, sums and outputs. -/
theorem Dev.refuseWings_spec (hst : d.sys.st ≠ .blackout) (bank slot cue : Nat) (tok : Tok) : let r := d.refuseWings bank slot cue tok
    { r.mem with cnt := d.mem.cnt } = d.mem ∧ r.tile.sums = d.tile.sums ∧ r.err.nextSeq = d.err.nextSeq + 1 := by
  intro r
  have h := (d.modMem fun m => m.count .wings bank 4).contain_spec
    { code := 0x0503, cls := 1, kind := 3, unit := bank, slot := slot, cue := cue, detail := [2, BitVec.ofNat 32 (bank * 2 ^ 20)] } tok.steps 1
  obtain ⟨hm, -, hs⟩ := h
  refine ⟨?_, by simp [r], hs hst⟩
  show { (Dev.contain _ _ tok.steps 1).mem with cnt := d.mem.cnt } = d.mem
  rw [hm]
  rfl

/-- The release of an OUT's set: the tile's set goes, the output is noted, and what is to be added stands. -/
structure OutDone (c : OutCue) (tok : Tok) (l : VecLoc) (t u : Tile) : Prop where
  acc : u.acc = sdel t.acc c.tile.toNat
  pend : u.pend = t.pend
  outs : u.outs = sput t.outs (4096 * c.chain.toNat + c.lane.toNat) ⟨c.tile.toNat, l.apron, l.addr, c.ofmt, tok⟩

theorem cellsWf_sparse {m : Sparse Byte} (h : cellsWf m = true) : sparseWf m = true := (Bool.and_eq_true .. ▸ h).1

/-- Settles O32: the release of the set, then one write of a vector in the apron or the wings. -/
theorem outReleasesItsSet : Obligations.OutReleasesItsSet := by
  intro s c tok tile slot hw hc hl d₁ hn hm hb hz hwf hacc l n cols bs released
  have hg : Gives (.out c) s (outOn c tok d₁) := (out_tileCue hw).performed hc hl rfl hn hm (by simpa using hb)
  have hcols : outColumns c tok d₁ = cols := rfl
  clear_value d₁
  have hlen : bs.length = n := colBytes_length _ _ (hcols ▸ outColumns_length c tok)
  have rel {d : Dev} (h : OutDone c tok l d₁.tile d.tile) : released d := by
    refine ⟨?_, fun k hk => ?_, h.pend, ?_⟩
    · rw [h.acc]; exact sget_sdel_self _ _ hacc
    · rw [h.acc]; exact sget_sdel_ne _ hk
    · rw [h.outs]; exact sget_sput_self ..
  obtain ⟨-, hwings, -, -, hapron⟩ := (Mem.wf_iff _).mp hwf
  replace hwings := cellsWf_sparse hwings
  replace hapron := cellsWf_sparse hapron
  have hsum : (outRelease c tok l bs d₁.tile).acc = sdel d₁.tile.acc tile := rfl
  refine ⟨hlen, fun ha => ?_, fun o ha ho => ?_, fun ha ho hr => ?_, fun ha ho hr hst => ?_⟩
  case refine_1 =>
    rw [outOn_free rfl (Dev.outstanding_apron ha _), hcols] at hg
    obtain ⟨o, b, hd⟩ := @Dev.vecWr_apron (d₁.modTile (outRelease c tok l bs)) hz l ha tok c.ofmt bs hlen slot c.num.toNat
    have hg' : Gives (.out c) s ((d₁.modTile (outRelease c tok l bs)).vecWr tok l c.ofmt bs slot c.num.toNat) := hg
    rw [hd] at hg'
    exact ⟨_, hg', rel ⟨rfl, rfl, rfl⟩, fun i hi => rd1_wrN_inside _ _ _ _ hapron (hlen ▸ hi), fun k hk => rd1_wrN_outside _ _ _ _ (hlen ▸ hk),
      fun p hp => sget_putTags _ _ _ hp, rfl, rfl⟩
  case refine_2 =>
    rwa [outOn_stall rfl (by rw [VecLoc.wingsRange_wings ha]; exact ho)] at hg
  case refine_3 =>
    rw [outOn_free rfl (by rw [VecLoc.wingsRange_wings ha]; exact ho), hcols] at hg
    have hg' : Gives (.out c) s ((d₁.modTile (outRelease c tok l bs)).vecWr tok l c.ofmt bs slot c.num.toNat) := hg
    have hr' : (d₁.modTile (outRelease c tok l bs)).refusedBank tok.tenant true l.addr bs.length = none := hlen ▸ hr
    have hz' : (d₁.modTile (outRelease c tok l bs)).hazActive = false := hz
    rw [Dev.vecWr, if_neg (by simp [ha]), Dev.wingsWr_allowed hz' hr'] at hg'
    exact ⟨_, hg', rel ⟨rfl, rfl, rfl⟩, fun i hi => rd1_wrN_inside _ _ _ _ hwings (hlen ▸ hi), fun k hk => rd1_wrN_outside _ _ _ _ (hlen ▸ hk), rfl, rfl⟩
  case refine_4 =>
    rw [outOn_free rfl (by rw [VecLoc.wingsRange_wings ha]; exact ho), hcols] at hg
    obtain ⟨k, hk⟩ := Option.ne_none_iff_exists'.mp hr
    have hk' : (d₁.modTile (outRelease c tok l bs)).refusedBank tok.tenant true l.addr bs.length = some k := hlen ▸ hk
    have hg' : Gives (.out c) s ((d₁.modTile (outRelease c tok l bs)).vecWr tok l c.ofmt bs slot c.num.toNat) := hg
    rw [Dev.vecWr, if_neg (by simp [ha])] at hg'
    simp only [Dev.wingsWr, hk'] at hg'
    obtain ⟨hmem, hsums, hseq⟩ := @Dev.refuseWings_spec (d₁.modTile (outRelease c tok l bs)) hst k slot c.num.toNat tok
    exact ⟨_, hg', rel ⟨(Tile.sums_acc hsums :), (Tile.sums_pend hsums :), (congrArg (fun x => x.2.2.2.2.1) hsums :)⟩, hmem, hseq⟩

/-! ## REQUANT -/

section
variable {c : RequantCue} {tok : Tok} {l : VecLoc} (hl : d.vecLoc c.srcKind c.src.toNat c.tile.toNat c.lane.toNat tok.tenant = l)
include hl

/-- A row with the tag of another format is an error of the tile. -/
theorem requantOn_wrongTag (ha : l.apron = true)
    (ht : ∃ p ∈ (dataTags c.srcFmt).zipIdx, tagFmt (d.rowTag c.tile.toNat (l.addr % 32 + p.2) c.slot.toNat) ≠ p.1) :
    requantOn c tok d = d.tileError 0x0201 c.tile.toNat 0 c.slot.toNat c.num.toNat tok := by
  obtain ⟨p, hp, ht⟩ := ht
  have hany : (dataTags c.srcFmt).zipIdx.any (fun p => tagFmt (d.rowTag c.tile.toNat (l.addr % 32 + p.2) c.slot.toNat) != p.1) = true :=
    List.any_eq_true.mpr ⟨p, hp, by simpa using ht⟩
  simp only [requantOn, hl, ha, hany, Bool.and_self, if_true]

theorem requantOn_stall (ha : l.apron = false) {o : Outst} (ho : d.outstanding true l.addr (vecBytes c.srcFmt) = some o) :
    requantOn c tok d = d.stallOn o c.slot.toNat := by
  simp only [requantOn, hl, ha, Bool.false_and, if_neg Bool.false_ne_true, VecLoc.wingsRange_wings ha, ho]

/-- A source whose tags agree, or that nothing outstanding covers, is read and requantised. -/
theorem requantOn_valid (hv : if l.apron then ∀ p ∈ (dataTags c.srcFmt).zipIdx, tagFmt (d.rowTag c.tile.toNat (l.addr % 32 + p.2) c.slot.toNat) = p.1
      else d.outstanding true l.addr (vecBytes c.srcFmt) = none) :
    requantOn c tok d = (d.vecRd tok l c.srcFmt c.slot.toNat c.num.toNat).1.requantise c tok l (d.vecRd tok l c.srcFmt c.slot.toNat c.num.toNat).2 := by
  cases ha : l.apron with
  | true =>
    rw [ha, if_pos rfl] at hv
    have hany : (dataTags c.srcFmt).zipIdx.any (fun p => tagFmt (d.rowTag c.tile.toNat (l.addr % 32 + p.2) c.slot.toNat) != p.1) = false := by
      refine List.any_eq_false.mpr fun p hp => ?_
      simpa using hv p hp
    simp only [requantOn, hl, hany, Bool.and_false, if_neg Bool.false_ne_true, Dev.outstanding_apron ha]
  | false =>
    rw [ha, if_neg Bool.false_ne_true] at hv
    simp only [requantOn, hl, ha, Bool.false_and, if_neg Bool.false_ne_true, VecLoc.wingsRange_wings ha, hv]
end

/-- One row of a block with its tag. -/
def Mem.putRow (m : Mem) (tile row : Nat) (bs : List Byte) (tag : BitVec 16) : Mem :=
  { m with apron := wrN m.apron (apronKey tile row 0) bs, tags := sput m.tags (32 * tile + row) tag }

/-- The rows of a block with their tags (R103, R116). -/
def Mem.putBlock (m : Mem) (tile dst dstLo : Nat) (f : ArrFmt) (tag : Nat → BitVec 16) (rows : List Byte × List Byte) : Mem :=
  match f with
  | .an4 => m.putRow tile dst rows.1 (tag 1)
  | .aw8 => (m.putRow tile dst rows.1 (tag 2)).putRow tile dstLo rows.2 (tag 3)

/-- A block written: its rows and tags, and what is kept of the rows. -/
theorem Dev.writeBlock_eq (hz : d.hazActive = false) (tile dst dstLo : Nat) (f : ArrFmt) (x : Int) (oset : Nat) (rows : List Byte × List Byte) (slot cue : Nat) :
    ∃ o b, d.writeBlock tile dst dstLo f x oset rows slot cue =
      { d with mem := d.mem.putBlock tile dst dstLo f (fun t => mkTag x t oset) rows, tile := { d.tile with rowOld := o, blocks := b } } := by
  cases f with
  | an4 =>
    obtain ⟨o, ho⟩ := Dev.rowWr_eq hz tile dst rows.1 (mkTag x 1 oset) slot cue
    exact ⟨o, sdel d.tile.blocks (32 * tile + dst), ho⟩
  | aw8 =>
    obtain ⟨o, h₁⟩ := Dev.rowWr_eq hz tile dst rows.1 (mkTag x 2 oset) slot cue
    have hz' : (d.rowWr tile dst rows.1 (mkTag x 2 oset) slot cue).hazActive = false := by rw [h₁]; exact hz
    obtain ⟨o', h₂⟩ := Dev.rowWr_eq hz' tile dstLo rows.2 (mkTag x 3 oset) slot cue
    refine ⟨o', sdel (sdel d.tile.blocks (32 * tile + dst)) (32 * tile + dstLo), h₂.trans ?_⟩
    rw [h₁]
    rfl

/-- A device whose precision counters alone differ, with the flock's blocks counted once more. -/
def CountsBlock (tile : Nat) (d e : Dev) : Prop := ∃ m, e = d.modTile (fun t => { t with precCnt := m }) ∧
  sgetD m (16 * (tile / 128)) 0 = bump (sgetD d.tile.precCnt (16 * (tile / 128)) 0)

theorem CountsBlock.precCount {tile : Nat} (h : CountsBlock tile d e) {n : Nat} (hn : n ≠ 0) : CountsBlock tile d (e.precCount tile n) := by
  obtain ⟨m, rfl, hm⟩ := h
  refine ⟨smod m (16 * (tile / 128) + n) 0 bump, rfl, ?_⟩
  rw [← hm]
  simp only [smod, sgetD]
  rw [sget_sput_ne _ _ (by omega)]

/-- The counters of a block's flock (R133): the block is counted once, whatever else of it is. -/
theorem Dev.countBlock_counts (tile : Nat) (b : Block) : CountsBlock tile d (d.countBlock tile b) := by
  have h₀ : CountsBlock tile d (d.precCount tile 0) := ⟨_, rfl, by simp [smod, sgetD]⟩
  have more {e : Dev} (p : Prop) [Decidable p] {n : Nat} (hn : n ≠ 0) (h : CountsBlock tile d e) : CountsBlock tile d (if p then e.precCount tile n else e) := by
    split
    · exact h.precCount hn
    · exact h
  exact more _ (by omega) (more _ (by omega) (more _ (by omega) h₀))

section
variable {c : RequantCue} {tok : Tok} {l : VecLoc} {src : List Byte} {es : List FpVal} (hes : vecElems c.srcFmt src = es) (hz : d.hazActive = false)
include hes hz

/-- The codes of a source without a NaN, their rows, tag, block and count (R116 to R118, R133). -/
theorem Dev.requantise_codes (hn : .nan ∉ es) (ch : List Nat) (hch : d.outliers c.tile.toNat c.oset.toNat = ch) (x : Int)
    (hx : vecExp (maxMag es ch) c.fmt (qBase (d.qEntry c.qpoint.toNat)) = x) (codes : List (Int × Bool))
    (hcodes : quantise es c.fmt x ch (if c.stoch then some (d.reqDraw tok 1 c.qpoint.toNat) else none) = codes) :
    ∃ o b m k, d.requantise c tok l src = { d with
      mem := d.mem.putBlock c.tile.toNat c.dst.toNat c.dstLo.toNat c.fmt (fun t => mkTag x t c.oset.toNat) (codeRows c.fmt ch (codes.map Prod.fst)),
      tile := { d.tile with rowOld := o, blocks := sput b (32 * c.tile.toNat + c.dst.toNat) k, precCnt := m } } ∧
    sgetD m (16 * (c.tile.toNat / 128)) 0 = bump (sgetD d.tile.precCnt (16 * (c.tile.toNat / 128)) 0) ∧
    k.exp = x ∧ k.fmt = c.fmt ∧ k.addr = l.addr ∧ (k.n, k.z, k.s) = blockCounts es codes ch := by
  have hany : ¬ (es.any fun e => e == .nan) = true := by simpa using hn
  obtain ⟨o, b, hw⟩ := Dev.writeBlock_eq hz c.tile.toNat c.dst.toNat c.dstLo.toNat c.fmt x c.oset.toNat (codeRows c.fmt ch (codes.map Prod.fst)) c.slot.toNat c.num.toNat
  simp only [Dev.requantise, hes, hch, hx, hcodes, if_neg hany, hw]
  generalize hk : (⟨l.apron, l.addr, c.srcFmt, c.fmt, c.oset.toNat, c.qpoint.toNat, c.stoch, (blockCounts es codes ch).1, (blockCounts es codes ch).2.1, (blockCounts es codes ch).2.2, x⟩ : Block) = k
  obtain ⟨m, he, hm⟩ := Dev.countBlock_counts c.tile.toNat k
  refine ⟨o, b, m, k, he, hm, ?_, ?_, ?_, ?_⟩ <;> subst hk <;> rfl

/-- A source with a NaN is written as zeros, recorded, and its step discarded. -/
theorem Dev.requantise_nan (hn : .nan ∈ es) (hst : d.sys.st ≠ .blackout) : let r := d.requantise c tok l src
    (∃ x : Int, r.mem = d.mem.putBlock c.tile.toNat c.dst.toNat c.dstLo.toNat c.fmt (fun t => mkTag x t c.oset.toNat) (List.replicate 512 0, List.replicate 512 0)) ∧
    r.err.nextSeq = d.err.nextSeq + 1 ∧ r.frm.lanesOf tok.ex tok.ey tok.session = [] ∧ r.tile.acc = d.tile.acc := by
  have hany : (es.any fun e => e == .nan) = true := List.any_eq_true.mpr ⟨_, hn, rfl⟩
  obtain ⟨o, b, hw⟩ := Dev.writeBlock_eq hz c.tile.toNat c.dst.toNat c.dstLo.toNat c.fmt (qBase (d.qEntry c.qpoint.toNat)) c.oset.toNat (List.replicate 512 0, List.replicate 512 0) c.slot.toNat c.num.toNat
  intro r
  simp only [r, Dev.requantise, hes, if_pos hany, hw]
  generalize hi : ({ code := 0x0302, cls := 1, kind := 1, unit := c.tile.toNat, slot := c.slot.toNat, cue := c.num.toNat, detail := [0, BitVec.ofNat 32 c.qpoint.toNat, 1] } : ErrIn) = i
  generalize he : ({ d with mem := _, tile := _ } : Dev) = e
  obtain ⟨hm, -, hs⟩ := e.contain_spec i [tok.step] 1
  refine ⟨⟨_, hm.trans (by rw [← he])⟩, ?_, e.contain_lanesOf i tok.step 1, ?_⟩
  · rw [hs (by rw [← he]; exact hst), ← he]
  · rw [Tile.sums_acc (Dev.contain_sums ..), ← he]
end
theorem Dev.cues_notBlack (h : d.cues = true) : d.sys.st ≠ .blackout := by
  obtain ⟨-, -, -, h | h⟩ := Dev.cues_iff.mp h <;> simp [h]

theorem Dev.useKeys_same (keys : List Nat) (step : Nat × Nat × Nat) : SameSums d (d.useKeys keys step) := ⟨by simp, by simp, by simp, by simp, by simp⟩

theorem Dev.exactDiscard_precCnt (t : Nat × Nat × Nat) : (d.exactDiscard t).tile.precCnt = d.tile.precCnt := by
  unfold Dev.exactDiscard Dev.exactFail
  (repeat' split) <;> simp

theorem Dev.useKeys_precCnt (keys : List Nat) (step : Nat × Nat × Nat) : (d.useKeys keys step).tile.precCnt = d.tile.precCnt := by
  rw [Dev.useKeys_eq]
  split
  · unfold Dev.discardTok Dev.discardStep
    dsimp only
    split
    · split
      · exact Dev.exactDiscard_precCnt _
      · exact Dev.exactDiscard_precCnt _
    · exact Dev.exactDiscard_precCnt _
  · rfl

theorem Dev.useKeys_nextSeq (keys : List Nat) (step : Nat × Nat × Nat) : (d.useKeys keys step).err.nextSeq = d.err.nextSeq := by
  rw [Dev.useKeys_eq]
  split
  · exact (Dev.discardTok_spec _ step 1).2.1
  · rfl

/-- A step noted with its rows draws as before. -/
theorem Dev.useKeys_reqDraw (keys : List Nat) (step : Nat × Nat × Nat) (tok : Tok) (domain point : Nat) :
    (d.useKeys keys step).reqDraw tok domain point = d.reqDraw tok domain point := by
  simp [Dev.reqDraw, Dev.seedOf, Dev.coord, Dev.held, Dev.ses, Dev.hbmRd]

/-- Settles O31: the branches of REQUANT before the source is read, and the block or the zeros written from it. -/
theorem requantWritesItsRows : Obligations.RequantWritesItsRows := by
  intro s c tok tile slot hw hc hl d₁ hn hm hb hz l n keys d₂ es ch base e codes wrote
  have hg : Gives (.requant c) s (requantOn c tok d₁) := (requant_tileCue hw).performed hc hl rfl hn hm (by simpa using hb)
  have hwrote (m : Mem) (tag : Nat → BitVec 16) (rows : List Byte × List Byte) : wrote m tag rows = m.putBlock tile c.dst.toNat c.dstLo.toNat c.fmt tag rows := rfl
  clear_value d₁
  refine ⟨fun ha ht => ?_, fun o ha ho => ?_, fun hv => ?_⟩
  case refine_1 =>
    rw [requantOn_wrongTag rfl ha ht] at hg
    obtain ⟨hmem, hsums, hlanes, -⟩ := Dev.tileError_refused (Dev.cues_notBlack hn) 0x0201 tile 0 slot c.num.toNat tok
    exact ⟨_, hg, hmem, congrArg (fun x => x.2.2.2.2.2.1) hsums, Tile.sums_acc hsums, hlanes⟩
  case refine_2 => rwa [requantOn_stall rfl ha ho] at hg
  case refine_3 =>
    have hsrc : d₁.vecRd tok l c.srcFmt slot c.num.toNat = (d₂, if l.apron then keys.flatMap fun k => d₁.rowBytes k slot else rdN d₁.mem.wings l.addr n) := by
      simp only [Dev.vecRd, d₂]
      by_cases ha : l.apron = true
      · simp only [if_pos ha]
        exact Dev.rowsRd_off hz ..
      · simp only [if_neg ha] at hv ⊢
        exact Dev.wingsRd_allowed hz hv.2 ..
    have hsame : SameSums d₁ d₂ := by
      simp only [d₂]
      split
      · exact Dev.useKeys_same ..
      · exact .refl _
    have hz₂ : d₂.hazActive = false := by
      simp only [d₂]
      split
      · exact (Dev.useKeys_hazActive ..).trans hz
      · exact hz
    have hdraw : d₂.reqDraw tok 1 c.qpoint.toNat = d₁.reqDraw tok 1 c.qpoint.toNat := by
      simp only [d₂]
      split
      · exact Dev.useKeys_reqDraw ..
      · rfl
    have hcnt : d₂.tile.precCnt = d₁.tile.precCnt := by
      simp only [d₂]
      split
      · exact Dev.useKeys_precCnt ..
      · rfl
    have hst₂ : d₂.sys.st = d₁.sys.st ∧ d₂.err.nextSeq = d₁.err.nextSeq := by
      simp only [d₂]
      split
      · exact ⟨by simp, Dev.useKeys_nextSeq ..⟩
      · exact ⟨rfl, rfl⟩
    rw [requantOn_valid rfl (by
      split at hv
      case isTrue ha => rw [if_pos ha]; exact hv
      case isFalse ha => rw [if_neg ha]; exact hv.1)] at hg
    clear_value d₂
    have hg' : Gives (.requant c) s (Dev.requantise (d₁.vecRd tok l c.srcFmt slot c.num.toNat).1 c tok l (d₁.vecRd tok l c.srcFmt slot c.num.toNat).2) := hg
    rw [hsrc] at hg'
    have hwrote₂ (tag : Nat → BitVec 16) (rows : List Byte × List Byte) : d₂.mem.putBlock tile c.dst.toNat c.dstLo.toNat c.fmt tag rows = wrote d₁.mem tag rows := by
      rw [hwrote, hsame.mem]
    clear_value wrote
    refine ⟨fun hes => ?_, fun hes hst => ?_⟩
    · obtain ⟨o, b, m, k, hd, hm, hexp, hfmt, haddr, hcounts⟩ := @Dev.requantise_codes d₂ c tok l _ _ rfl hz₂ hes ch (hsame.outliers ..) e (by rw [hsame.qEntry]) codes (by rw [hdraw])
      dsimp only at hg'
      rw [hd] at hg'
      refine ⟨_, hg', ?_, ⟨k, sget_sput_self .., hexp, hfmt, haddr, hcounts⟩, ?_, rfl⟩
      · exact hwrote₂ (fun t => mkTag e t c.oset.toNat) (codeRows c.fmt ch (codes.map Prod.fst))
      · exact hm.trans (by rw [hcnt])
    · obtain ⟨⟨x, hmem⟩, hseq, hlanes, hacc⟩ := @Dev.requantise_nan d₂ c tok l _ _ rfl hz₂ hes (hst₂.1.symm ▸ hst)
      dsimp only at hg'
      refine ⟨_, hg', ⟨x, ?_⟩, hseq.trans (by rw [hst₂.2]), hlanes, hacc.trans (Tile.sums_acc hsame.sums)⟩
      rw [← hwrote₂]
      exact hmem
end Sys2Proof.Machine
end

section
/-! PROOF. Memory cues: HBM_RD, its delivery and HBM_WR (R204, R343). -/
namespace Sys2Proof.Machine
variable {d : Dev}

/-! ## Bytes of device memory -/

/-- A write of codewords that are not known bad stores exactly its bytes. -/
theorem Mem.wrHbm_good (m : Mem) (a : Nat) (bs : List Byte) (h : ∀ c ∈ cwRange a bs.length, c ∉ m.bad) :
    m.wrHbm a bs = { m with hbm := wrN m.hbm a bs } := by
  have upTo (k : Nat) (hk : ∀ i < k, a / 64 + i ∉ m.bad ∧ 64 * (a / 64 + i) < a + bs.length) :
      ((List.range k).map (a / 64 + ·)).foldl (fun m c => m.wrCw a bs c) m = { m with hbm := wrN m.hbm a (bs.take (64 * (a / 64 + k) - a)) } := by
    induction k with
    | zero =>
      have h0 : 64 * (a / 64 + 0) - a = 0 := by omega
      rw [h0]
      rfl
    | succ k ih =>
      obtain ⟨hbad, hin⟩ := hk k (by omega)
      rw [List.range_succ, List.map_append, List.foldl_append, ih fun i hi => hk i (by omega)]
      have hlo : max a (64 * (a / 64 + k)) - a = 64 * (a / 64 + k) - a := by omega
      have hc : m.bad.contains (a / 64 + k) = false := by simpa using hbad
      have hat : max a (64 * (a / 64 + k)) = a + (bs.take (64 * (a / 64 + k) - a)).length := by
        rw [List.length_take]
        omega
      have hlen : 64 * (a / 64 + (k + 1)) - a = 64 * (a / 64 + k) - a + (64 * (a / 64 + k) + 64 - max a (64 * (a / 64 + k))) := by omega
      simp only [List.map_cons, List.map_nil, List.foldl_cons, List.foldl_nil, Mem.wrCw, hc, Bool.false_eq_true, if_false, hlo]
      rw [hlen, List.take_add, wrN_append, ← hat]
  by_cases h0 : bs.length = 0
  · rw [List.eq_nil_of_length_eq_zero h0]
    rfl
  · have hr : cwRange a bs.length = (List.range ((a + bs.length - 1) / 64 - a / 64 + 1)).map (a / 64 + ·) := by rw [cwRange, if_neg h0]
    have hall : 64 * (a / 64 + ((a + bs.length - 1) / 64 - a / 64 + 1)) - a ≥ bs.length := by omega
    rw [Mem.wrHbm, hr, upTo, List.take_of_length_le hall]
    intro i hi
    refine ⟨h _ (by rw [hr]; exact List.mem_map.mpr ⟨i, List.mem_range.mpr hi, rfl⟩), by omega⟩

theorem rdN_length (m : Sparse Byte) (a n : Nat) : (rdN m a n).length = n := (List.length_map _).trans List.length_range

/-- Bytes written read back. -/
theorem rdN_wrN (m : Sparse Byte) (a : Nat) (bs : List Byte) (h : sparseWf m = true) : rdN (wrN m a bs) a bs.length = bs := by
  refine List.ext_getElem (rdN_length ..) fun i hi hi' => ?_
  simp only [rdN, List.getElem_map, List.getElem_range]
  rw [rd1_wrN_inside _ _ _ _ h hi', List.getD_eq_getElem _ _ hi']

/-! ## Reads without errors -/

theorem rsDecode_nothing : rsDecode 68 [] = .clean := by decide

theorem Dev.readCw_clean {loc : Nat} (h : loc ∉ d.mem.bad) (slot cue : Nat) (toks : List (Nat × Nat × Nat)) :
    d.readCw .hbm 0 loc [] false slot cue toks = (d, false) := by
  have hb : d.mem.bad.contains loc = false := by simpa using h
  simp only [Dev.readCw, storeSyms, rsDecode_nothing, hb, Bool.and_false, Bool.not_false, if_true]

theorem Dev.readHbm_clean {a n : Nat} (h : ∀ c ∈ cwRange a n, c ∉ d.mem.bad) (slot cue : Nat) (toks : List (Nat × Nat × Nat)) :
    d.readHbm a n [] slot cue toks = (d, false) := by
  have all (l : List (Nat × Nat)) (hl : ∀ c ∈ l, c.1 ∉ d.mem.bad) : l.foldl (fun (z : Dev × Bool) c =>
      let (d, b) := z.1.readCw .hbm 0 c.1 (([] : List SymErrs).getD c.2 []) false slot cue toks
      (d, z.2 || b)) (d, false) = (d, false) := by
    induction l with
    | nil => rfl
    | cons c l ih =>
      rw [List.foldl_cons]
      have hc : d.readCw .hbm 0 c.1 (([] : List SymErrs).getD c.2 []) false slot cue toks = (d, false) := Dev.readCw_clean (hl c List.mem_cons_self) slot cue toks
      simp only [hc, Bool.or_self]
      exact ih fun x hx => hl x (List.mem_cons_of_mem _ hx)
  exact all _ fun c hc => h c.1 (List.fst_mem_of_mem_zipIdx hc)

/-! ## HBM_RD and HBM_WR as instructions -/

section
variable {s : State} {c : HbmCue} (hw : c.wf = true) (hi : hbmInside c = true)
include hw hi

theorem hbmRd_onDev : exec (.hbmRd c) s = s.onDev (hbmRd c) := by
  show execHbmRd c s = _
  simp [execHbmRd, hw, hi]

theorem hbmWr_onDev : exec (.hbmWr c) s = s.onDev (hbmWrite c) := by
  show execHbmWr c s = _
  simp [execHbmWr, hw, hi]

theorem hbmRdDeliver_onDev (f : List SymErrs) : exec (.hbmRdDeliver c f) s = s.onDev (hbmRdDeliver c f) := by
  show execHbmRdDeliver c f s = _
  simp [execHbmRdDeliver, hw, hi]
end

section
variable {c : HbmCue} {t : Tok} (ht : d.hbmTok c = some t)
include ht

/-- A read asks for its range, unless something outstanding covers it. -/
theorem hbmRd_eq (hl : d.linkCues = true) : hbmRd c d = match d.outstanding (d.hbmPlace c t).1 (d.hbmPlace c t).2 (hbmBytes c) with
    | some w => d.stallOn w c.slot.toNat
    | none => d.modFrm fun f => { f with outst := f.outst ++
        [⟨(d.hbmPlace c t).1, (d.hbmPlace c t).2, (d.hbmPlace c t).2 + hbmBytes c, 0, hbmChannel c.addr.toNat, c.num.toNat⟩] } := by
  simp only [hbmRd, hl, ht]
  rfl

/-- The bytes a write moves, where its source may be read. -/
def Dev.hbmSource (d : Dev) (c : HbmCue) (t : Tok) : List Byte :=
  if (d.hbmPlace c t).1 then rdN d.mem.wings (d.hbmPlace c t).2 (hbmBytes c) else rdN d.mem.localBuf (d.hbmPlace c t).2 (hbmBytes c)

theorem hbmWrite_stall (hl : d.linkCues = true) {w : Outst} (ho : d.outstanding (d.hbmPlace c t).1 (d.hbmPlace c t).2 (hbmBytes c) = some w) :
    hbmWrite c d = d.stallOn w c.slot.toNat := by
  simp only [hbmWrite, hl, ht, ho]
  rfl

theorem hbmWrite_free (hl : d.linkCues = true) (ho : d.outstanding (d.hbmPlace c t).1 (d.hbmPlace c t).2 (hbmBytes c) = none) (hz : d.hazActive = false)
    (ha : (d.hbmPlace c t).1 = true → d.refusedBank t.tenant false (d.hbmPlace c t).2 (hbmBytes c) = none) :
    hbmWrite c d = (d.hbmWr c.addr.toNat (d.hbmSource c t)).modMem fun m =>
      { m with spill := t.steps.foldl (fun s x => (cwRange c.addr.toNat (hbmBytes c)).foldl (fun s k => sput s k x) s) m.spill } := by
  simp only [hbmWrite, hl, ht, ho]
  by_cases hp : (d.hbmPlace c t).1 = true
  · simp only [hp, Dev.wingsRd_allowed hz (ha hp), Dev.hbmSource]
    rfl
  · simp only [hp, Dev.hazRead_off hz, Dev.hbmSource]
    rfl

/-- The data of a read that was asked for arrives. -/
theorem hbmRdDeliver_eq (f : List SymErrs) : hbmRdDeliver c f d =
    if !d.coreRuns || !d.frm.outst.any (fun o => o.num == c.num.toNat && o.wings == (d.hbmPlace c t).1 && o.lo == (d.hbmPlace c t).2) then d
    else ((d.readHbm c.addr.toNat (hbmBytes c) f c.slot.toNat c.num.toNat t.steps).1.hbmStore c t
        ((d.readHbm c.addr.toNat (hbmBytes c) f c.slot.toNat c.num.toNat t.steps).1.hbmRd c.addr.toNat (hbmBytes c))).modFrm fun x =>
      { x with outst := x.outst.filter fun o => !(o.num == c.num.toNat && o.wings == (d.hbmPlace c t).1 && o.lo == (d.hbmPlace c t).2) } := by
  simp only [hbmRdDeliver, ht]
end

theorem Dev.hbmStore_eq {c : HbmCue} {t : Tok} (hz : d.hazActive = false) {bs : List Byte}
    (ha : (d.hbmPlace c t).1 = true → d.refusedBank t.tenant true (d.hbmPlace c t).2 bs.length = none) : d.hbmStore c t bs =
    { d with mem := if (d.hbmPlace c t).1 then { d.mem with wings := wrN d.mem.wings (d.hbmPlace c t).2 bs }
      else { d.mem with localBuf := wrN d.mem.localBuf (d.hbmPlace c t).2 bs } } := by
  simp only [Dev.hbmStore]
  by_cases hp : (d.hbmPlace c t).1 = true
  · simp only [if_pos hp, Dev.wingsWr_allowed hz (ha hp)]
  · simp only [if_neg hp]
    exact Dev.tagWrite_off (show (d.modMem _).hazActive = false from hz) ..

theorem Dev.hbmSource_length (c : HbmCue) (t : Tok) : (d.hbmSource c t).length = hbmBytes c := by
  unfold Dev.hbmSource
  split <;> exact rdN_length ..

/-- A write of a free source as it stands in memory. -/
theorem Dev.hbmSource_written (c : HbmCue) (t : Tok) : (d.hbmWr c.addr.toNat (d.hbmSource c t)).modMem (fun m =>
      { m with spill := t.steps.foldl (fun s x => (cwRange c.addr.toNat (hbmBytes c)).foldl (fun s k => sput s k x) s) m.spill }) =
    { d with mem := { d.mem.wrHbm c.addr.toNat (d.hbmSource c t) with
      missed := (d.mem.missedBy c.addr.toNat (hbmBytes c)).foldl setIns d.mem.missed,
      spill := if t.seg = 65535 then d.mem.spill else (cwRange c.addr.toNat (hbmBytes c)).foldl (fun x k => sput x k t.step) d.mem.spill } } := by
  have hs : (d.mem.wrHbm c.addr.toNat (d.hbmSource c t)).spill = d.mem.spill :=
    Machine.foldl_keeps (fun m : Mem => m.spill = d.mem.spill) _ (fun m x h => by
      unfold Mem.wrCw
      dsimp only
      (repeat' split) <;> exact h) _ _ rfl
  simp only [Dev.hbmWr, Dev.modMem, Dev.hbmSource_length, hs, Tok.steps]
  split <;> rfl

/-- Settles O39: HBM_RD asks, its delivery stores, HBM_WR writes, and an outstanding range stalls both. -/
theorem memoryCuesMoveTheirBytes : Obligations.MemoryCuesMoveTheirBytes := by
  refine ⟨fun s c t hw hin ht => ?_, fun m a bs hm hb => ?_⟩
  case refine_2 =>
    obtain ⟨hhbm, -⟩ := (Mem.wf_iff _).mp hm
    rw [Mem.wrHbm_good m a bs hb]
    exact ⟨rdN_wrN _ _ _ (cellsWf_sparse hhbm), fun k hk => rd1_wrN_outside _ _ _ _ hk⟩
  case refine_1 =>
    intro p n o allowed src
    refine ⟨fun hl ho => ?_, fun hr hz ho hb ha => ?_, fun ho f => ?_, fun hl hz ho ha => ?_, fun w i hl ho hi => ?_⟩
    case refine_1 =>
      refine State.gives_onDev (hbmRd_onDev hw hin) ?_
      rw [hbmRd_eq ht hl]
      simp only [show s.dev.outstanding (s.dev.hbmPlace c t).1 (s.dev.hbmPlace c t).2 (hbmBytes c) = none from ho]
      rfl
    case refine_2 =>
      have hany : s.dev.frm.outst.any (fun o => o.num == c.num.toNat && o.wings == p.1 && o.lo == p.2) = true := List.any_eq_true.mpr ⟨o, ho, by simp [o]⟩
      have hlen : (s.dev.hbmRd c.addr.toNat (hbmBytes c)).length = hbmBytes c := rdN_length ..
      have hd : hbmRdDeliver c [] s.dev = { s.dev with
          mem := if p.1 then { s.dev.mem with wings := wrN s.dev.mem.wings p.2 (s.dev.hbmRd c.addr.toNat n) }
            else { s.dev.mem with localBuf := wrN s.dev.mem.localBuf p.2 (s.dev.hbmRd c.addr.toNat n) },
          frm := { s.dev.frm with outst := s.dev.frm.outst.filter fun x => !(x.num == c.num.toNat && x.wings == p.1 && x.lo == p.2) } } := by
        rw [hbmRdDeliver_eq ht, hr, hany, if_neg (by simp), Dev.readHbm_clean hb, Dev.hbmStore_eq hz (by rw [hlen]; exact ha)]
        rfl
      exact ⟨_, State.gives_onDev (hbmRdDeliver_onDev hw hin []) hd, rfl, rfl, fun h => by simpa [o] using (List.mem_filter.mp h).2, rfl⟩
    case refine_3 =>
      refine State.gives_onDev (hbmRdDeliver_onDev hw hin f) ?_
      rw [hbmRdDeliver_eq ht, if_pos]
      have : s.dev.frm.outst.any (fun o => o.num == c.num.toNat && o.wings == p.1 && o.lo == p.2) = false := by
        refine List.any_eq_false.mpr fun x hx => ?_
        simp [ho x hx]
      rw [this]
      simp
    case refine_4 =>
      refine State.gives_onDev (hbmWr_onDev hw hin) ?_
      rw [hbmWrite_free ht hl ho hz ha, Dev.hbmSource_written]
      rfl
    case refine_5 =>
      rcases hi with rfl | rfl
      · exact ⟨_, State.gives_onDev (hbmWr_onDev hw hin) (hbmWrite_stall ht hl ho), rfl, rfl, by simp [Dev.cues, Dev.stallOn], by simp [Dev.linkCues, Dev.stallOn]⟩
      · refine ⟨_, State.gives_onDev (hbmRd_onDev hw hin) (hbmRd_eq ht hl), ?_⟩
        simp only [show s.dev.outstanding (s.dev.hbmPlace c t).1 (s.dev.hbmPlace c t).2 (hbmBytes c) = some w from ho]
        exact ⟨rfl, rfl, by simp [Dev.cues, Dev.stallOn], by simp [Dev.linkCues, Dev.stallOn]⟩
end Sys2Proof.Machine
end

section
/-! PROOF. Host accesses of one codeword of the window (R214, R221, R225, R385, R386, R389). -/
namespace Sys2Proof.Machine
variable {d : Dev} {a : Nat}

/-! ## One codeword -/

theorem cwRange_one {n : Nat} (h0 : 0 < n) (h : a % 64 + n ≤ 64) : cwRange a n = [a / 64] := by
  have hc : (a + n - 1) / 64 - a / 64 + 1 = 1 := by omega
  rw [cwRange, if_neg (by omega), hc]
  rfl

section
variable {bs : List Byte} (h0 : 0 < bs.length) (h : a % 64 + bs.length ≤ 64)
include h0 h

theorem cwParts_one : cwParts a bs = [(a, bs)] := by
  have hlo : max a (64 * (a / 64)) = a := by omega
  rw [cwParts, cwRange_one h0 h]
  simp only [List.map_cons, List.map_nil, hlo, Nat.sub_self, List.drop_zero, List.take_of_length_le (by omega : bs.length ≤ 64 * (a / 64) + 64 - a)]

/-- A write of a good codeword stores its bytes and changes nothing else. -/
theorem Dev.hbmWr_one (hb : a / 64 ∉ d.mem.bad) : d.hbmWr a bs = { d with mem := { d.mem with hbm := wrN d.mem.hbm a bs } } := by
  have hm : d.mem.missedBy a bs.length = [] := by
    unfold Mem.missedBy
    rw [cwRange_one h0 h]
    split
    · rfl
    · simp [hb]
  simp only [Dev.hbmWr, Dev.modMem, hm, Mem.wrHbm_one d.mem a bs h0 h hb]
  rfl

/-- A whole codeword replaces a bad one. -/
theorem Dev.hbmWr_whole (hl : bs.length = 64) (hb : a / 64 ∈ d.mem.bad) :
    d.hbmWr a bs = { d with mem := { d.mem with hbm := wrN d.mem.hbm a bs, bad := setDel d.mem.bad (a / 64) } } := by
  have ha : 64 * (a / 64) = a := by omega
  have hm : d.mem.missedBy a bs.length = [] := by
    unfold Mem.missedBy
    rw [cwRange_one h0 h]
    split
    · rfl
    · rw [List.filter_cons_of_neg, List.filter_nil]
      simp [ha, hl]
  have hc : d.mem.bad.contains (a / 64) = true := by simpa using hb
  have hmax : max a (64 * (a / 64)) = a := by omega
  have ht : bs.take (64 * (a / 64) + 64 - a) = bs := List.take_of_length_le (by omega)
  have hw : d.mem.wrHbm a bs = { d.mem with hbm := wrN d.mem.hbm a bs, bad := setDel d.mem.bad (a / 64) } := by
    rw [Mem.wrHbm, cwRange_one h0 h]
    simp only [List.foldl_cons, List.foldl_nil, Mem.wrCw, hc, if_true, hmax, Nat.sub_self, List.drop_zero, ht, hl]
  simp only [Dev.hbmWr, Dev.modMem, hm, hw]
  rfl
end

theorem Dev.wakeStack_awake (h : d.sys.st ≠ .parked) (a : Nat) : d.wakeStack a = d := by
  rw [Dev.wakeStack, if_neg h]

/-! ## Writes -/

section
variable {bs : List Byte} {s : State} {c : Instr} (hc : c = .hostMemWrite a bs ∨ c = .callboardBitSet a bs) (hw : inWindow a bs.length = true)
include hc hw

theorem hostMemWrite_onDev : exec c s = s.onDev (hostWriteMem a bs) := by
  rcases hc with rfl | rfl
  · show execHostMemWrite a bs s = _
    rw [execHostMemWrite, if_pos hw]
  · show execCallboardBitSet a bs s = _
    rw [execCallboardBitSet, if_pos hw]
end

/-- A write of one codeword, with the window reached. -/
theorem hostWriteMem_one {bs : List Byte} (h0 : 0 < bs.length) (h : a % 64 + bs.length ≤ 64) (hr : d.memReached = true) (ha : d.host.memActive = true) :
    hostWriteMem a bs d = d.hostWritePart (a, bs) := by
  simp only [hostWriteMem, hr, ha, Bool.and_self, if_true, cwParts_one h0 h, List.foldl_cons, List.foldl_nil]

section
variable {bs : List Byte} (hp : d.sys.st ≠ .parked)
include hp

theorem Dev.hostWritePart_reserved (h : regionOf a = .reserved) : d.hostWritePart (a, bs) = d := by
  simp only [Dev.hostWritePart, Dev.wakeStack_awake hp, h]

theorem Dev.hostWritePart_bitmap (h : regionOf a = .bitmap) : d.hostWritePart (a, bs) = d.setBits a bs := by
  simp only [Dev.hostWritePart, Dev.wakeStack_awake hp, h]

theorem Dev.hostWritePart_session (h : regionOf a = .sessionTable) :
    d.hostWritePart (a, bs) = if deviceOwned (a % 2048) then d.callCount 14 else d.writeOwned a bs := by
  simp only [Dev.hostWritePart, Dev.wakeStack_awake hp, h]

theorem Dev.hostWritePart_data (h : regionOf a = .inputRing ∨ regionOf a = .adpStaging ∨ regionOf a = .wtStaging) :
    d.hostWritePart (a, bs) = d.writeOwned a bs := by
  rcases h with h | h | h <;> simp only [Dev.hostWritePart, Dev.wakeStack_awake hp, h]
end

/-- The bytes stand at their addresses, and no other byte of device memory changed. -/
def StoredAt (a : Nat) (bs : List Byte) (m m' : Sparse Byte) : Prop :=
  (∀ i < bs.length, rd1 m' (a + i) = bs.getD i 0) ∧ ∀ x, x < a ∨ a + bs.length ≤ x → rd1 m' x = rd1 m x

theorem storedAt_wrN {m : Sparse Byte} (hm : sparseWf m = true) (a : Nat) (bs : List Byte) : StoredAt a bs m (wrN m a bs) :=
  ⟨fun _ hi => rd1_wrN_inside _ _ _ _ hm hi, fun _ hx => rd1_wrN_outside _ _ _ _ hx⟩

theorem Dev.writeOwned_good {bs : List Byte} (h0 : 0 < bs.length) (h : a % 64 + bs.length ≤ 64) (hb : a / 64 ∉ d.mem.bad) : d.writeOwned a bs =
    if regionOf a == .sessionTable then d.validMoved { d with mem := { d.mem with hbm := wrN d.mem.hbm a bs } } (a / 2048)
    else { d with mem := { d.mem with hbm := wrN d.mem.hbm a bs } } := by
  have hc : d.mem.bad.contains (a / 64) = false := by simpa using hb
  simp only [Dev.writeOwned, hc, Bool.false_and, if_neg Bool.false_ne_true, Dev.hbmWr_one h0 h hb]

theorem Dev.writeOwned_whole {bs : List Byte} (hl : bs.length = 64) (h : a % 64 + bs.length ≤ 64) (hb : a / 64 ∈ d.mem.bad) (hr : regionOf a ≠ .sessionTable) :
    d.writeOwned a bs = { d with mem := { d.mem with hbm := wrN d.mem.hbm a bs, bad := setDel d.mem.bad (a / 64) }, err := d.err.hostWrote (a / 64) } := by
  have hc : d.mem.bad.contains (a / 64) = true := by simpa using hb
  have hlt : ¬ bs.length < 64 := by omega
  simp only [Dev.writeOwned, hc, hlt, decide_false, Bool.and_false, if_neg Bool.false_ne_true, if_true, Dev.hbmWr_whole (by omega) h hl hb,
    beq_eq_false_iff_ne.mpr hr]
  rfl

theorem Dev.writeOwned_short {bs : List Byte} (hl : bs.length < 64) (hb : a / 64 ∈ d.mem.bad) (hr : regionOf a = .adpStaging ∨ regionOf a = .wtStaging) :
    d.writeOwned a bs = d.modMem fun m => m.count .hbm (hbmChannel a) 2 := by
  have hc : d.mem.bad.contains (a / 64) = true := by simpa using hb
  rcases hr with hr | hr <;> simp only [Dev.writeOwned, hc, hl, hr, decide_true, Bool.and_self, if_true]

/-- What a VALID bit that goes from v to w asks for its session (R221). -/
def Call.valid (v w n : Nat) (c : Call) : Call :=
  if v = 0 && w = 1 then { c with init := setIns c.init n }
  else if v = 1 && w = 0 then { c with init := setDel c.init n, empty := setIns c.empty n } else c

theorem Dev.validMoved_eq (before : Dev) (n : Nat) (d : Dev) :
    before.validMoved d n = d.modCall (Call.valid (before.ses n 0 % 2) (d.ses n 0 % 2) n) := by
  unfold Dev.validMoved Dev.modCall Call.valid
  dsimp only
  (repeat' split) <;> rfl

theorem Call.valid_same {v w : Nat} (h : v = w) (n : Nat) (c : Call) : c.valid v w n = c := by
  rw [Call.valid, if_neg (by simp; omega), if_neg (by simp; omega)]

/-- The bits of a bitmap's codeword are set, and its summary bit (R225). -/
theorem Dev.setBits_good {bs : List Byte} (h0 : 0 < bs.length) (h : a % 64 + bs.length ≤ 64) (hb : a / 64 ∉ d.mem.bad) (hw : d.sys.autoWake = false) :
    d.setBits a bs = { d with
      mem := { d.mem with hbm := wrN d.mem.hbm a (bs.zipIdx.map fun b => b.1 ||| (d.hbmRd a bs.length).getD b.2 0) },
      call := { d.call with summary := setIns d.call.summary (a / 64 - bitmapBase / 64) } } := by
  have hc : d.mem.bad.contains (a / 64) = false := by simpa using hb
  have hl : (bs.zipIdx.map fun b => b.1 ||| (d.hbmRd a bs.length).getD b.2 0).length = bs.length := by simp
  simp only [Dev.setBits, hc, if_neg Bool.false_ne_true, Dev.hbmWr_one (by rw [hl]; exact h0) (by rw [hl]; exact h) hb]
  exact if_neg (by simp [hw, Dev.modCall])

/-! ## Reads -/

/-- A read of one codeword, with the window reached and memory active. -/
theorem hostReadMem_one {n : Nat} (h0 : 0 < n) (h : a % 64 + n ≤ 64) (hr : d.memReached = true) (ha : d.host.memActive = true) :
    hostReadMem a n [] d = (d.hostReadPart a n []).1.emit (.hostData (d.hostReadPart a n []).2.1 (d.hostReadPart a n []).2.2) := by
  have hlo : max a (64 * (a / 64)) = a := by omega
  have hhi : min (a + n) (64 * (a / 64) + 64) - a = n := by omega
  simp only [hostReadMem, hr, ha, Bool.not_true, if_neg Bool.false_ne_true, cwRange_one h0 h, List.zipIdx_cons, List.zipIdx_nil, List.foldl_cons, List.foldl_nil,
    hlo, hhi, if_true, List.nil_append, Bool.false_or]

theorem hostMemRead_onDev {s : State} {n : Nat} (h : inWindow a n = true) : exec (.hostMemRead a n []) s = s.onDev (hostReadMem a n []) := by
  show execHostMemRead a n [] s = _
  rw [execHostMemRead, if_pos h]

theorem Dev.hostReadPart_reserved {n : Nat} (h : regionOf a = .reserved) : d.hostReadPart a n [] = (d.wakeStack a, List.replicate n 0, false) := by
  simp only [Dev.hostReadPart, h]

/-- A codeword without errors reads its bytes. -/
theorem Dev.hostReadPart_good {n : Nat} (h : regionOf a ≠ .reserved) (hb : a / 64 ∉ (d.wakeStack a).mem.bad) :
    d.hostReadPart a n [] = (d.wakeStack a, (d.wakeStack a).hbmRd a n, false) := by
  have hc := Dev.readCw_clean hb 0 0 []
  unfold Dev.hostReadPart
  dsimp only
  split
  case h_1 heq => exact absurd heq h
  case h_2 =>
    rw [hc]
    split <;> rfl

/-- The regions begin and end with codewords. -/
theorem regionOf_codeword (a : Nat) : regionOf (64 * (a / 64)) = regionOf a := by
  have h (k : Nat) : 64 * (a / 64) < 64 * k ↔ a < 64 * k := by omega
  have h₁ := h 0x200_0000
  have h₂ := h 0x400_0000
  have h₃ := h 0x400_0800
  have h₄ := h 0x500_0000
  have h₅ := h 0x700_0000
  have h₆ := h 0x1700_0000
  have h₇ := h 0x1800_0000
  have h₈ := h 0x1900_0000
  have h₉ := h 0x1A00_0000
  have h₁₀ := h 0x1C00_0000
  have h₁₁ := h 0x3000_0000
  have h₁₂ := h 0x4800_0000
  norm_num at h₁ h₂ h₃ h₄ h₅ h₆ h₇ h₈ h₉ h₁₀ h₁₁ h₁₂
  simp only [regionOf, h₁, h₂, h₃, h₄, h₅, h₆, h₇, h₈, h₉, h₁₀, h₁₁, h₁₂]

theorem hbmChannel_codeword (a : Nat) : hbmChannel (64 * (a / 64)) = hbmChannel a := by
  simp only [hbmChannel, fld]
  omega

/-- A bad codeword of staging is a contained error of no step, and is zeroed. -/
theorem Dev.hbmBad_staging {cw : Nat} (h : regionOf (64 * cw) = .adpStaging ∨ regionOf (64 * cw) = .wtStaging) (syms slot cue verdict : Nat) :
    ∃ e : ErrIn, d.hbmBad cw syms slot cue [] verdict =
      (((d.modMem fun m => { m with bad := setIns m.bad cw }).contain e []).modMem fun m => m.zeroCw .hbm 0 cw, true) := by
  refine ⟨{ memErrIn .hbm 0 cw syms 0x0502 1 with slot := slot, cue := cue, verdict := verdict }, ?_⟩
  rcases h with h | h <;> simp only [Dev.hbmBad, h]

/-- A bad codeword of staging reads as poison, is counted and recorded, and is written back zeroed. -/
theorem Dev.hostReadPart_bad {n : Nat} (hp : d.sys.st ≠ .parked) (h : regionOf a = .adpStaging ∨ regionOf a = .wtStaging) (hb : a / 64 ∈ d.mem.bad)
    (hk : d.sys.st ≠ .blackout) : let r := d.hostReadPart a n []
    r.2.1.length = n ∧ r.2.2 = true ∧ r.1.err.nextSeq = d.err.nextSeq + 1 ∧
    (∀ x, rd1 r.1.mem.hbm x = if x / 64 = a / 64 then 0 else rd1 d.mem.hbm x) ∧ a / 64 ∉ r.1.mem.bad ∧ r.1.mem.cnt = (d.mem.count .hbm (hbmChannel a) 2).cnt := by
  have hc : d.mem.bad.contains (a / 64) = true := by simpa using hb
  have hreg := (regionOf_codeword a).symm ▸ h
  obtain ⟨e, he⟩ := @Dev.hbmBad_staging (d.modMem fun m => m.count .hbm (hbmChannel a) 2) _ hreg 0 0 0 0
  have hr : d.readCw .hbm 0 (a / 64) [] false 0 0 [] = ((((d.modMem fun m => m.count .hbm (hbmChannel a) 2).hbmBad (a / 64) 0 0 0 []).1), true) := by
    simp only [Dev.readCw, storeSyms, rsDecode_nothing, hc, locUnit, hbmChannel_codeword, beq_self_eq_true, Bool.and_self, Bool.not_true,
      if_neg Bool.false_ne_true, if_true]
  rw [he] at hr
  obtain ⟨hm, -, hs⟩ := ((d.modMem fun m => m.count .hbm (hbmChannel a) 2).modMem fun m => { m with bad := setIns m.bad (a / 64) }).contain_spec e [] 1
  generalize hx : ((d.modMem fun m => m.count .hbm (hbmChannel a) 2).modMem fun m => { m with bad := setIns m.bad (a / 64) }).contain e [] = x at hr hm hs
  have hpart : d.hostReadPart a n [] = ((x.modMem fun m => m.zeroCw .hbm 0 (a / 64)).useFree n,
      (List.range n).map fun i => Config.poisonByte ((x.modMem fun m => m.zeroCw .hbm 0 (a / 64)).freeCtr + i), true) := by
    rcases h with h | h <;> simp only [Dev.hostReadPart, Dev.wakeStack_awake hp, h, hr] <;> rfl
  intro r
  have hr₁ : r = ((x.modMem fun m => m.zeroCw .hbm 0 (a / 64)).useFree n,
      (List.range n).map fun i => Config.poisonByte ((x.modMem fun m => m.zeroCw .hbm 0 (a / 64)).freeCtr + i), true) := hpart
  rw [hr₁]
  refine ⟨(List.length_map _).trans List.length_range, rfl, hs hk, fun y => ?_, ?_, ?_⟩
  · show rd1 (x.mem.zeroHbm (64 * (a / 64)) (64 * (a / 64) + 64)).hbm y = _
    rw [Mem.zeroHbm_rd1, hm]
    by_cases hy : y / 64 = a / 64
    · rw [if_pos hy, if_pos (by omega)]
    · rw [if_neg hy, if_neg (by omega)]
      rfl
  · show a / 64 ∉ x.mem.bad.filter fun c => 64 * c + 64 ≤ 64 * (a / 64) || 64 * (a / 64) + 64 ≤ 64 * c
    simp
  · show x.mem.cnt = _
    rw [hm]
    rfl

/-- Settles O56: a write goes to its region's part, a read to its codeword's. -/
theorem hostAccessesReachTheWindow : Obligations.HostAccessesReachTheWindow := by
  refine ⟨fun s a bs c hc h0 h hw hm => ⟨fun hn => ?_, fun hr ha hp => ?_⟩, fun s a n h0 h hw => ⟨fun hr => ?_, fun hr ha => ?_, fun hr ha => ?_⟩⟩
  case refine_1 =>
    refine State.gives_onDev (hostMemWrite_onDev hc hw) ?_
    rcases hn with hn | hn <;> simp [hostWriteMem, hn]
  case refine_2 =>
    intro m stored
    have hsp : sparseWf m.hbm = true := cellsWf_sparse ((Mem.wf_iff _).mp hm).1
    have gives {e : Dev} (he : s.dev.hostWritePart (a, bs) = e) : Gives c s e :=
      State.gives_onDev (hostMemWrite_onDev hc hw) ((hostWriteMem_one h0 h hr ha).trans he)
    refine ⟨fun hg => gives (Dev.hostWritePart_reserved hp hg), fun hg ho => ?_, fun hg => ⟨fun hb => ?_, fun hb hl => ?_⟩, fun hg hb hl => ?_,
      fun hg ho hb => ?_, fun hg hb hwake => ?_⟩
    · exact gives (by rw [Dev.hostWritePart_session hp hg, if_pos ho]; rfl)
    · have hns : (regionOf a == .sessionTable) = false := by rcases hg with hg | hg | hg <;> rw [hg] <;> rfl
      refine ⟨_, gives ((Dev.hostWritePart_data hp hg).trans (Dev.writeOwned_good h0 h hb)), ?_⟩
      rw [hns]
      exact ⟨storedAt_wrN hsp a bs, rfl⟩
    · have hns : regionOf a ≠ .sessionTable := by rcases hg with hg | hg | hg <;> rw [hg] <;> decide
      exact ⟨_, gives ((Dev.hostWritePart_data hp hg).trans (Dev.writeOwned_whole hl h hb hns)), storedAt_wrN hsp a bs, rfl, rfl⟩
    · exact gives ((Dev.hostWritePart_data hp (.inr hg)).trans (Dev.writeOwned_short hl hb hg))
    · have hd := (@Dev.hostWritePart_session s.dev a bs hp hg).trans ((if_neg (by simp [ho])).trans (Dev.writeOwned_good h0 h hb))
      simp only [hg, beq_self_eq_true, if_true, Dev.validMoved_eq] at hd
      refine ⟨_, gives hd, ?_⟩
      beta_reduce
      intro n v w
      refine ⟨storedAt_wrN hsp a bs, rfl, fun e => Call.valid_same e .., fun h₀ h₁ => ?_, fun h₁ h₀ => ?_⟩
      · show Call.valid v w n s.dev.call = _
        rw [h₀, h₁]
        rfl
      · show Call.valid v w n s.dev.call = _
        rw [h₀, h₁]
        rfl
    · refine ⟨_, gives ((Dev.hostWritePart_bitmap hp hg).trans (Dev.setBits_good h0 h hb hwake)), fun i hi => ?_, fun x hx => ?_, ?_, rfl⟩
      · refine (rd1_wrN_inside _ _ _ _ hsp (by simpa using hi)).trans ?_
        have hold : (s.dev.hbmRd a bs.length).getD i 0 = rd1 m.hbm (a + i) := by
          rw [List.getD_eq_getElem _ _ (by rw [Dev.hbmRd, rdN_length]; exact hi)]
          simp [Dev.hbmRd, rdN, m]
        rw [List.getD_eq_getElem _ _ (by simpa using hi), List.getD_eq_getElem _ _ hi, List.getElem_map, List.getElem_zipIdx, Nat.zero_add, hold, BitVec.or_comm]
      · exact rd1_wrN_outside _ _ _ _ (by simpa using hx)
      · have hbase : (a - bitmapBase) / 64 = a / 64 - bitmapBase / 64 := by simp only [bitmapBase]; omega
        rw [hbase]
  case refine_3 => exact State.gives_onDev (hostMemRead_onDev hw) (by simp [hostReadMem, hr])
  case refine_4 => exact State.gives_onDev (hostMemRead_onDev hw) (by simp [hostReadMem, hr, ha])
  case refine_5 =>
    have gives {e : Dev} (he : (s.dev.hostReadPart a n []).1.emit (.hostData (s.dev.hostReadPart a n []).2.1 (s.dev.hostReadPart a n []).2.2) = e) :
        Gives (.hostMemRead a n []) s e := State.gives_onDev (hostMemRead_onDev hw) ((hostReadMem_one h0 h hr ha).trans he)
    refine ⟨fun hp hg => ?_, fun hp hg hb => ?_, fun hp hg hb => ?_, fun hp hg hb => ?_⟩
    · exact gives (by rw [Dev.hostReadPart_reserved hg, Dev.wakeStack_awake hp])
    · exact gives (by rw [Dev.hostReadPart_good hg (by rw [Dev.wakeStack_awake hp]; exact hb), Dev.wakeStack_awake hp])
    · obtain ⟨hlen, hpoison, hseq, hz, hbad, hcnt⟩ := @Dev.hostReadPart_bad s.dev a n hp hg hb (by
        intro hk
        simp [Dev.memReached, Dev.coreRuns, hk] at hr)
      refine ⟨_, gives rfl, ⟨_, hlen, ?_⟩, by show _ < (s.dev.hostReadPart a n []).1.err.nextSeq; omega, hz, hbad, hcnt⟩
      simp [Dev.emit, hpoison]
    · have hwake : s.dev.wakeStack a = s.dev.modSys fun s => { s with selfRefresh := s.selfRefresh &&& ~~~ BitVec.ofNat 4 (2 ^ (hbmChannel a / 32)) } := if_pos hp
      refine gives ?_
      rw [Dev.hostReadPart_good hg (by rw [hwake]; exact hb), hwake]
      rfl
end Sys2Proof.Machine
end

section
/-! PROOF. The placement of arrivals over regular slots, and PLACE (R167, R339). -/
namespace Sys2Proof.Machine

/-! ## Which arrivals are placed -/

/-- What a placement in progress has done with the arrivals it has seen: `nl` lead and `no` other arrivals hold slots. -/
structure PlacedSoFar (n l : Nat) (seen placed left : List (Nat × Tok)) (nl no : Nat) : Prop where
  perm : (placed ++ left).Perm seen
  length : placed.length = nl + no
  others : (placed.filter fun a => a.2.cls != 0).length = no
  fits : nl + no ≤ n
  kept : no ≤ n - l
  full : ∀ a ∈ left, a.2.cls = 0 → nl + no = n

/-- One arrival placed or left over, as `placeSlots` decides it. -/
def placeOne (n l : Nat) (a : List (Nat × Tok) × List (Nat × Tok) × Nat × Nat) (x : Nat × Tok) : List (Nat × Tok) × List (Nat × Tok) × Nat × Nat :=
  let (placed, left, nl, no) := a
  if x.2.cls = 0 then
    if nl + no < n then (placed ++ [x], left, nl + 1, no) else (placed, left ++ [x], nl, no)
  else if no < n - nl - (l - nl) then (placed ++ [x], left, nl, no + 1)
  else (placed, left ++ [x], nl, no)

theorem placeSlots_eq (n l : Nat) (as : List (Nat × Tok)) :
    placeSlots n l as = ((as.foldl (placeOne n l) ([], [], 0, 0)).1, (as.foldl (placeOne n l) ([], [], 0, 0)).2.1) := rfl

section
variable {n l : Nat} {seen placed left : List (Nat × Tok)} {nl no : Nat} (h : PlacedSoFar n l seen placed left nl no) (x : Nat × Tok)
include h

theorem PlacedSoFar.perm_placed : ((placed ++ [x]) ++ left).Perm (seen ++ [x]) := by
  rw [List.append_assoc]
  exact ((List.perm_append_comm.append_left placed).trans (by rw [← List.append_assoc])).trans (h.perm.append_right [x])

theorem PlacedSoFar.perm_left : (placed ++ (left ++ [x])).Perm (seen ++ [x]) := by
  rw [← List.append_assoc]
  exact h.perm.append_right [x]

theorem PlacedSoFar.placeOne (hl : l ≤ n) :
    let r := Machine.placeOne n l (placed, left, nl, no) x
    PlacedSoFar n l (seen ++ [x]) r.1 r.2.1 r.2.2.1 r.2.2.2 := by
  have hfull : ∀ nl' no', nl' + no' ≤ n → nl + no ≤ nl' + no' → ∀ a ∈ left, a.2.cls = 0 → nl' + no' = n := fun nl' no' h1 h2 a ha h0 => by
    have := h.full a ha h0
    omega
  have h1 := h.fits
  have h2 := h.kept
  have hleft : ∀ p : Prop, (x.2.cls = 0 → p) → (∀ a ∈ left, a.2.cls = 0 → p) → ∀ a ∈ left ++ [x], a.2.cls = 0 → p := by
    intro p hx hp a ha
    obtain ha | ha := List.mem_append.mp ha
    · exact hp a ha
    · exact List.mem_singleton.mp ha ▸ hx
  rw [Machine.placeOne]
  split_ifs with h0 hs hs
  · exact ⟨h.perm_placed x, by simp [h.length]; omega, by simp [h0, h.others], by dsimp only; omega, h2, hfull _ _ (by dsimp only; omega) (by dsimp only; omega)⟩
  · exact ⟨h.perm_left x, h.length, h.others, h1, h2, hleft _ (fun _ => by dsimp only; omega) h.full⟩
  · exact ⟨h.perm_placed x, by simp [h.length]; omega, by simp [h0, h.others], by dsimp only; omega, by dsimp only; omega,
      hfull _ _ (by dsimp only; omega) (by dsimp only; omega)⟩
  · exact ⟨h.perm_left x, h.length, h.others, h1, h2, hleft _ (fun h => absurd h h0) h.full⟩
end

theorem foldl_placeOne {n l : Nat} (hl : l ≤ n) (as seen : List (Nat × Tok)) (a : List (Nat × Tok) × List (Nat × Tok) × Nat × Nat)
    (h : PlacedSoFar n l seen a.1 a.2.1 a.2.2.1 a.2.2.2) :
    let r := as.foldl (placeOne n l) a
    PlacedSoFar n l (seen ++ as) r.1 r.2.1 r.2.2.1 r.2.2.2 := by
  induction as generalizing seen a with
  | nil => simpa using h
  | cons x as ih =>
    have hx : seen ++ x :: as = (seen ++ [x]) ++ as := by rw [List.append_assoc, List.singleton_append]
    rw [hx]
    exact ih (seen ++ [x]) _ (h.placeOne x hl)

theorem placeSlots_spec {n l : Nat} (hl : l ≤ n) (as : List (Nat × Tok)) :
    ∃ nl no, PlacedSoFar n l as (placeSlots n l as).1 (placeSlots n l as).2 nl no :=
  ⟨_, _, foldl_placeOne hl as [] ([], [], 0, 0) ⟨.nil, rfl, rfl, Nat.zero_le _, Nat.zero_le _, fun _ h => nomatch h⟩⟩

/-- An arrival alone finds a slot, where one is left that its class may take. -/
theorem placeSlots_one {n l : Nat} {x : Nat × Tok} (h : if x.2.cls = 0 then 0 < n else l < n) : placeSlots n l [x] = ([x], []) := by
  rw [placeSlots_eq, List.foldl_cons, List.foldl_nil, placeOne]
  split_ifs at h ⊢ with h0 h1 h1
  · rfl
  · omega
  · rfl
  · omega

/-! ## The marks of late encores -/

/-- Only marks of skipped lanes and counters differ: what PLACE has done before it looks at this frame's arrivals. -/
structure SkipsOnly (d₀ d : Dev) (key : Nat) : Prop where
  dev : d = { d₀ with frm := { d₀.frm with skipped := d.frm.skipped }, call := d.call, eng := d.eng }
  dropped : d.eng.encoreOver = sdel d₀.eng.encoreOver key

section
variable {d₀ d : Dev} {key : Nat} (h : SkipsOnly d₀ d key)
include h

theorem SkipsOnly.lane (n : Nat) : d.lane n = d₀.lane n := by rw [h.dev]; rfl

theorem SkipsOnly.lanes : d.frm.lanes = d₀.frm.lanes := by rw [h.dev]

theorem SkipsOnly.nextLanes : d.frm.nextLanes = d₀.frm.nextLanes := by rw [h.dev]

theorem SkipsOnly.mem : d.mem = d₀.mem := by rw [h.dev]

theorem SkipsOnly.tile : d.tile = d₀.tile := by rw [h.dev]

theorem SkipsOnly.err : d.err = d₀.err := by rw [h.dev]

theorem SkipsOnly.hazActive : d.hazActive = d₀.hazActive := by rw [h.dev]; rfl

theorem SkipsOnly.template : d.template = d₀.template := by rw [h.dev]; rfl

theorem SkipsOnly.laneBufIn (k n tenant : Nat) : d.laneBufIn k n tenant = d₀.laneBufIn k n tenant := by rw [h.dev]; rfl

theorem SkipsOnly.refusedBank (tenant : Nat) (w : Bool) (a n : Nat) : d.refusedBank tenant w a n = d₀.refusedBank tenant w a n := by
  rw [h.dev]; rfl

theorem SkipsOnly.routeCount (n k : Nat) : SkipsOnly d₀ (d.routeCount n k) key := ⟨congrArg (Dev.routeCount · n k) h.dev, h.dropped⟩

theorem SkipsOnly.skipLane (n : Nat) : SkipsOnly d₀ (d.skipLane n) key := ⟨congrArg (Dev.skipLane · n) h.dev, h.dropped⟩
end

/-- The mark of an encore that came too late, in its arrival lane while that is empty. -/
def Dev.markLate (d : Dev) (o : Nat × Tok) : Dev := if (d.lane o.1).isSome then d else d.skipLane o.1

theorem SkipsOnly.markLate {d₀ d : Dev} {key : Nat} (h : SkipsOnly d₀ d key) (o : Nat × Tok) : SkipsOnly d₀ (d.markLate o) key := by
  rw [Dev.markLate]
  split
  · exact h
  · exact h.skipLane _

theorem Dev.mem_markLate_skipped (d : Dev) (o : Nat × Tok) (n : Nat) :
    n ∈ (d.markLate o).frm.skipped ↔ n ∈ d.frm.skipped ∨ (n = o.1 ∧ d.lane n = none) := by
  rw [Dev.markLate]
  split
  next h => grind
  next h =>
    rw [Option.not_isSome_iff_eq_none] at h
    show n ∈ setIns d.frm.skipped o.1 ↔ _
    rw [mem_setIns]
    exact or_comm.trans (or_congr_right ⟨fun e => ⟨e, e ▸ h⟩, And.left⟩)

theorem SkipsOnly.foldl_markLate {d₀ d : Dev} {key : Nat} (h : SkipsOnly d₀ d key) (late : List (Nat × Tok)) :
    SkipsOnly d₀ (late.foldl Dev.markLate d) key ∧
      ∀ n, n ∈ (late.foldl Dev.markLate d).frm.skipped ↔ n ∈ d.frm.skipped ∨ ((∃ t, (n, t) ∈ late) ∧ d₀.lane n = none) := by
  induction late generalizing d with
  | nil => exact ⟨h, fun n => by simp⟩
  | cons o late ih =>
    obtain ⟨h', hn⟩ := ih (h.markLate o)
    refine ⟨h', fun n => (hn n).trans ?_⟩
    rw [d.mem_markLate_skipped o n, h.lane]
    grind

/-! ## PLACE -/

/-- The assignments of the previous frame's encores, counted, forgotten and marked. -/
def Dev.placeEncores (d : Dev) (key served : Nat) : Dev :=
  (sgetD d.eng.encoreOver key []).foldl Dev.markLate
    (((d.routeCount 4 served).routeCount 5 (sgetD d.eng.encoreOver key []).length).modEng fun e => { e with encoreOver := sdel e.encoreOver key })

theorem Dev.placeEncores_spec (d : Dev) (key served : Nat) :
    SkipsOnly d (d.placeEncores key served) key ∧ ∀ n, n ∈ (d.placeEncores key served).frm.skipped ↔
      n ∈ d.frm.skipped ∨ ((∃ t, (n, t) ∈ sgetD d.eng.encoreOver key []) ∧ d.lane n = none) :=
  SkipsOnly.foldl_markLate ⟨rfl, rfl⟩ _

/-- A copy of a lane's buffer of this frame that the crossbar allows. -/
theorem Dev.copyBuf_allowed {d : Dev} {t : Tok} {src dst : Nat} (hz : d.hazActive = false)
    (hr : d.refusedBank t.tenant false (d.laneBufIn d.template src t.tenant).1 (d.laneBufIn d.template src t.tenant).2 = none)
    (hw : d.refusedBank t.tenant true (d.laneBufIn d.template dst t.tenant).1 (d.laneBufIn d.template src t.tenant).2 = none) (slot : Nat) :
    d.copyBuf t src dst slot false = { d with mem := { d.mem with
      wings := wrN d.mem.wings (d.laneBufIn d.template dst t.tenant).1
        (rdN d.mem.wings (d.laneBufIn d.template src t.tenant).1 (d.laneBufIn d.template src t.tenant).2) } } := by
  simp only [Dev.copyBuf, Dev.wingsRd_allowed hz hr, Bool.false_eq_true, if_false]
  exact Dev.wingsWr_allowed hz (by rw [rdN_length]; exact hw) ..

section
variable {d : Dev} {c : PlaceCue}

/-- PLACE with its arrivals known: marks and counters, then copies of the placed ones, when none is left over. -/
theorem place_eq {arr : List (Nat × Tok)} {x : ExpertSlots} {p : List (Nat × Tok)} (hc : d.cues = true)
    (hx : (d.experts.slots.find? fun e => e.layer == c.layer.toNat && e.expert == c.expert.toNat).getD default = x)
    (harr : ((List.range c.arrN.toNat).filterMap fun i => (d.lane (c.arrLane.toNat + i)).map fun t => (c.arrLane.toNat + i, t)) = arr)
    (hp : placeSlots x.regular x.lead (arr.foldl insAssign []) = (p, [])) :
    ∃ d', SkipsOnly d d' (1024 * c.layer.toNat + c.expert.toNat) ∧
      (∀ n, n ∈ d'.frm.skipped ↔ n ∈ d.frm.skipped ∨
        ((∃ t, (n, t) ∈ sgetD d.eng.encoreOver (1024 * c.layer.toNat + c.expert.toNat) []) ∧ d.lane n = none)) ∧
      place c d = p.zipIdx.foldl (fun d e => (d.copyBuf e.1.2 e.1.1 (c.regLane.toNat + e.2) c.slot.toNat false).modFrm fun f =>
        { f with lanes := sput f.lanes (c.regLane.toNat + e.2) e.1.2 }) d' := by
  obtain ⟨h, hs⟩ := d.placeEncores_spec (1024 * c.layer.toNat + c.expert.toNat)
    ((List.range x.encore).filter fun i => (d.lane (c.encLane.toNat + i)).isSome).length
  have harr' : ∀ f : Nat → Option Tok, f = d.lane →
      ((List.range c.arrN.toNat).filterMap fun i => (f (c.arrLane.toNat + i)).map fun t => (c.arrLane.toNat + i, t)) = arr := fun f e => e ▸ harr
  refine ⟨_, ((((h.routeCount 0 arr.length).routeCount 1 p.length).routeCount 2 ((p.filter fun a => a.2.cls == 0).length)).routeCount 7
    ((arr.filter fun a => a.2.cls == 0).length - x.lead)), hs, ?_⟩
  unfold place
  rw [if_neg (by simp [hc])]
  extract_lets layer key slot x' served late d₁ d₂ arr' leads
  have hx' : x' = x := hx
  have hd₂ : d₂ = d.placeEncores key ((List.range x.encore).filter fun i => (d.lane (c.encLane.toNat + i)).isSome).length := hx' ▸ rfl
  have harr₂ : arr' = arr := harr' _ (funext fun n => (congrArg (Dev.lane · n) hd₂).trans (h.lane n))
  have hleads : leads = (arr.filter fun a => a.2.cls == 0).length := harr₂ ▸ rfl
  clear_value d₂ arr' x' leads
  subst hd₂ harr₂ hx' hleads
  rw [hp]
  rfl
end

/-- Settles O35: an invariant of the placement of arrivals one by one; a PLACE with at most one arrival leaves none over. -/
theorem placeFillsExpertSlots : Obligations.PlaceFillsExpertSlots := by
  unfold Obligations.PlaceFillsExpertSlots
  refine ⟨fun n l as hl => ?_, fun s c => ?_⟩
  · intro r
    obtain ⟨nl, no, h⟩ := placeSlots_spec hl as
    exact ⟨h.perm, h.length.trans_le h.fits, h.others.trans_le h.kept, fun a ha h0 => h.length.trans (h.full a ha h0)⟩
  intro d₀ hwf hc hz x late hw
  refine ⟨fun hnone => ?_, fun t hn ht hfits => ?_⟩
  · have harr : ((List.range c.arrN.toNat).filterMap fun i => (d₀.lane (c.arrLane.toNat + i)).map fun t => (c.arrLane.toNat + i, t)) = [] :=
      List.filterMap_eq_nil_iff.mpr fun i hi => by rw [hnone i (List.mem_range.mp hi), Option.map_none]
    obtain ⟨d, h, hs, hd⟩ := place_eq hc rfl harr rfl
    exact ⟨d, gives_onCue hwf rfl hd, h.lanes, h.nextLanes, hs, h.dropped ▸ sget_sdel_self _ _ hw, h.mem, h.tile, h.err⟩
  · intro a b hr hb
    have harr : ((List.range c.arrN.toNat).filterMap fun i => (d₀.lane (c.arrLane.toNat + i)).map fun t => (c.arrLane.toNat + i, t)) =
        [(c.arrLane.toNat, t)] := by
      rw [show c.arrN.toNat = 1 from hn ▸ rfl]
      simp [ht]
    obtain ⟨d, h, hs, hd⟩ := place_eq hc rfl harr (placeSlots_one hfits)
    have hsrc : d.laneBufIn d.template c.arrLane.toNat t.tenant = a := by rw [h.template, h.laneBufIn]
    have hdst : d.laneBufIn d.template c.regLane.toNat t.tenant = b := by rw [h.template, h.laneBufIn]
    have hcopy := @Dev.copyBuf_allowed d t c.arrLane.toNat c.regLane.toNat (h.hazActive.trans hz)
      (by rw [hsrc, h.refusedBank]; exact hr) (by rw [hsrc, hdst, h.refusedBank]; exact hb) c.slot.toNat
    rw [hsrc, hdst, h.mem] at hcopy
    refine ⟨_, gives_onCue hwf rfl (hd.trans (congrArg (fun e : Dev => e.modFrm fun f => { f with lanes := sput f.lanes c.regLane.toNat t }) hcopy)),
      sget_sput_self .., fun n hn => (sget_sput_ne _ _ hn).trans (h.lane n), rfl, h.tile, h.err⟩

end Sys2Proof.Machine
end

section
/-! PROOF. The scrubber: corrected and uncorrectable codewords, and the map-outs that follow (R203 to R208). -/
namespace Sys2Proof.Machine
variable {d d₀ : Dev}

/-! ## Sequence numbers never fall -/

theorem Dev.enterStruck_nextSeq (d : Dev) : d.enterStruck.err.nextSeq = d.err.nextSeq := by
  obtain ⟨-, -, -, -, h⟩ := d.enterStruck_spec
  exact congrArg (fun x => x.2.2.2.1) h

theorem Dev.beginDrain_nextSeq (d : Dev) (seq : Nat) : (d.beginDrain seq).err.nextSeq = d.err.nextSeq := by
  unfold Dev.beginDrain
  dsimp only
  split
  · rfl
  · split
    · exact Dev.enterStruck_nextSeq _
    · rfl

theorem Dev.raise_nextSeq (h : d.sys.st ≠ .blackout) (i : ErrIn) : (d.raise i).err.nextSeq = d.err.nextSeq + 1 := by
  unfold Dev.raise
  rw [if_neg h]
  extract_lets seq handling
  split
  · simp
  · split <;> simp
  · split
    · simp
    · split
      · simp
      · rw [Dev.beginDrain_nextSeq, Dev.record_nextSeq]
  · split
    · simp
    · split
      · rw [(Dev.blackout_spec (by rwa [Dev.record_st])).2.2.2.2.2.1, Dev.record_nextSeq]
      · obtain ⟨-, -, -, -, -, -, -, hn, -⟩ := (d.record i 5 (d.inDrain || d.inContain)).fatalHandling_spec seq i.code
        rw [hn, Dev.record_nextSeq]

theorem Dev.le_raise_nextSeq (d : Dev) (i : ErrIn) : d.err.nextSeq ≤ (d.raise i).err.nextSeq := by
  by_cases h : d.sys.st = .blackout
  · rw [Dev.raise, if_pos h]
  · rw [Dev.raise_nextSeq h]
    exact Nat.le_succ _

theorem Dev.histEvent_nextSeq (d : Dev) (kind unit score threshold : Nat) : (d.histEvent kind unit score threshold).1.err.nextSeq = d.err.nextSeq := by
  unfold Dev.histEvent
  dsimp only
  split <;> rfl

/-! ## What a map-out changes (R206 to R208) -/

/-- Memory differs in spares, waiting map-outs and counts of map-outs alone, and no record is taken back. -/
structure MapsOut (d r : Dev) : Prop where
  rest : { r.mem with cnt := d.mem.cnt, spares := d.mem.spares, mapNext := d.mem.mapNext } = d.mem
  cnt (k : Nat) : k % 8 ≠ 3 → sgetD r.mem.cnt k 0 = sgetD d.mem.cnt k 0
  seq : d.err.nextSeq ≤ r.err.nextSeq

theorem MapsOut.of_mem {d r : Dev} (hm : r.mem = d.mem) (hs : d.err.nextSeq ≤ r.err.nextSeq) : MapsOut d r := by
  refine ⟨?_, fun k _ => ?_, hs⟩ <;> rw [hm]

theorem MapsOut.refl (d : Dev) : MapsOut d d := .of_mem rfl le_rfl

theorem MapsOut.trans {a b c : Dev} (h : MapsOut a b) (h' : MapsOut b c) : MapsOut a c := by
  refine ⟨?_, fun k hk => (h'.cnt k hk).trans (h.cnt k hk), h.seq.trans h'.seq⟩
  have := congrArg (fun m : Mem => { m with cnt := a.mem.cnt, spares := a.mem.spares, mapNext := a.mem.mapNext }) h'.rest
  exact this.trans h.rest

theorem MapsOut.bytesOf {d r : Dev} (h : MapsOut d r) (st : Store) : r.mem.bytesOf st = d.mem.bytesOf st := by
  conv_rhs => rw [← h.rest]
  cases st <;> rfl

section
variable (h : MapsOut d₀ d)
include h

theorem MapsOut.modErr {f : Err → Err} (hf : (f d.err).nextSeq = d.err.nextSeq) : MapsOut d₀ (d.modErr f) := h.trans (.of_mem rfl hf.ge)

theorem MapsOut.modTile (f : Tile → Tile) : MapsOut d₀ (d.modTile f) := h.trans (.of_mem rfl le_rfl)

theorem MapsOut.modKv (f : Kv → Kv) : MapsOut d₀ (d.modKv f) := h.trans (.of_mem rfl le_rfl)

theorem MapsOut.useFree (n : Nat) : MapsOut d₀ (d.useFree n) := h.trans (.of_mem rfl le_rfl)
end

theorem MapsOut.raise (h : MapsOut d₀ d) (i : ErrIn) : MapsOut d₀ (d.raise i) := h.trans (.of_mem (Dev.raise_mem ..) (d.le_raise_nextSeq i))

theorem MapsOut.calError (d : Dev) (cls : Nat) : MapsOut d (d.calError cls) := by
  rw [Dev.calError]
  exact ((MapsOut.refl d).raise _).useFree 3

theorem MapsOut.histEvent (d : Dev) (kind unit score threshold : Nat) : MapsOut d (d.histEvent kind unit score threshold).1 :=
  .of_mem (Dev.histEvent_mem ..) (d.histEvent_nextSeq ..).ge

theorem MapsOut.calWrite {f : Dev → Dev} (hf : ∀ d, MapsOut d (f d)) (d : Dev) : MapsOut d (d.calWrite f).1 := by
  have hu : MapsOut d (d.useFree 1) := (MapsOut.refl d).useFree 1
  unfold Dev.calWrite
  dsimp only
  split
  · exact hu.trans (hf _)
  · have hc := (hu.trans (.calError _ 0)).trans (.histEvent _ 12 0 16 48)
    split
    · exact hc.trans (.calError _ 2)
    · exact hc

/-- The map takes the location, and its unit's map-outs count one more. -/
theorem MapsOut.counted (h : MapsOut d₀ d) {f : Mem → Mem} (hf : ∀ m : Mem, { f m with cnt := m.cnt, spares := m.spares, mapNext := m.mapNext } = m)
    (hc : ∀ m, (f m).cnt = m.cnt) (store : Store) (unit : Nat) : MapsOut d₀ (d.modMem fun m => (f m).count store unit 3) := by
  refine h.trans ⟨hf d.mem, fun k hk => ?_, le_rfl⟩
  show sgetD (smod (f d.mem).cnt (8 * unitKey store unit + 3) 0 bump) k 0 = _
  rw [sgetD_smod_ne _ _ _ _ (by omega), hc]

/-- A spare stands for a location's row or line. -/
def Mem.takeSpare (e : Store × Nat × Nat) (m : Mem) : Mem :=
  { m with spares := smod m.spares (unitKey e.1 e.2.1) {} fun s => { s with used := s.used + 1, mapped := s.mapped ++ [e.2.2] } }

theorem MapsOut.mapOne (d : Dev) (e : Store × Nat × Nat) : MapsOut d (d.mapOne e).1 :=
  .calWrite (fun d => @MapsOut.counted d d (.refl d) (Mem.takeSpare e) (fun _ => rfl) (fun _ => rfl) e.1 e.2.1) d

theorem MapsOut.mapOuts (d : Dev) (now : Store → Bool) : MapsOut d (d.mapOuts now) := by
  refine foldl_keeps (MapsOut d) _ (fun x e hx => ?_) _ _ (.refl d)
  split
  · have h := hx.trans (.mapOne x e)
    dsimp only
    split
    · exact h.trans ⟨rfl, fun _ _ => rfl, le_rfl⟩
    · exact h
  · exact hx

theorem MapsOut.hbmRowOut (d : Dev) (loc : Nat) : MapsOut d (d.hbmRowOut loc) := by
  unfold Dev.hbmRowOut
  extract_lets u row s s' d₁ base e ps d₂
  have h₁ : MapsOut d d₁ := ⟨rfl, fun _ _ => rfl, le_rfl⟩
  have h₂ : MapsOut d d₂ := by
    unfold d₂
    split
    · exact (h₁.modKv _).raise _
    · exact h₁.raise _
  split
  · exact .refl d
  · split
    · exact h₂.raise _
    · exact h₂

theorem MapsOut.mapOut (d : Dev) (store : Store) (unit loc : Nat) : MapsOut d (d.mapOut store unit loc) := by
  have h₀ : MapsOut d d.commitHistory := .of_mem rfl le_rfl
  unfold Dev.mapOut
  extract_lets u d₀ e waiting d₁ d₂
  split
  · exact h₀.trans (.hbmRowOut _ _)
  · split
    · exact h₀
    · split
      · have h₁ : MapsOut d d₁ := h₀.trans ⟨rfl, fun _ _ => rfl, le_rfl⟩
        have h₂ : MapsOut d d₂ := by
          unfold d₂
          split
          · exact h₁.modTile _
          · exact h₁
        split
        · exact h₂.trans (.mapOuts ..)
        · exact h₂
      · exact h₀.raise _

/-- A memory event of a location maps it out at most (R405 to R407). -/
theorem MapsOut.locEvent (d : Dev) (store : Store) (unit loc : Nat) (syms : List Nat) (written : Bool) : MapsOut d (d.locEvent store unit loc syms written) := by
  unfold Dev.locEvent
  extract_lets u
  have h := MapsOut.histEvent d (storeHist store) u 16 256
  generalize d.histEvent (storeHist store) u 16 256 = x at h
  dsimp only
  split
  · exact (h.modErr rfl).trans (.mapOut ..)
  · exact h.modErr rfl

/-! ## A codeword zeroed -/

theorem rd1_foldl_zero (keys : List Nat) {m : Sparse Byte} (w : sparseWf m = true) (a : Nat) :
    rd1 (keys.foldl (fun m k => wr1 m k 0) m) a = if a ∈ keys then 0 else rd1 m a := by
  induction keys generalizing m with
  | nil => rfl
  | cons k keys ih =>
    rw [List.foldl_cons, ih (sparseWf_wr1 m k 0 w)]
    by_cases ha : a = k
    · subst ha
      rw [rd1_wr1_self m a 0 w, if_pos List.mem_cons_self]
      exact ite_self _
    · rw [rd1_wr1_ne m 0 ha]
      simp only [List.mem_cons, ha, false_or]

/-- The keys of a codeword's data bytes. -/
def Mem.lineKeys (m : Mem) (st : Store) (u loc : Nat) : List Nat := (List.range 128).map (m.symKey st u loc)

theorem Mem.mem_lineKeys {m : Mem} {st : Store} {u loc a : Nat} : a ∈ m.lineKeys st u loc ↔ ∃ i < 128, a = m.symKey st u loc i := by
  simp only [Mem.lineKeys, List.mem_map, List.mem_range, eq_comm]

/-- A codeword zeroed: its bytes read 0, the others as before. -/
theorem Mem.zeroCw_rd1 {m : Mem} {st : Store} (hst : st ≠ .hbm ∧ st ≠ .rowTag) (w : m.wf = true) (u loc a : Nat) :
    rd1 ((m.zeroCw st u loc).bytesOf st) a = if a ∈ m.lineKeys st u loc then 0 else rd1 (m.bytesOf st) a := by
  have line (c : Sparse Byte) {lo : Nat} (h : ∀ i, m.symKey st u loc i = lo + i) :
      rd1 (zeroRange c (m.symKey st u loc 0) (m.symKey st u loc 128)) a = if a ∈ m.lineKeys st u loc then 0 else rd1 c a := by
    rw [rd1_zeroRange, h, h]
    refine if_congr (Iff.trans ?_ Mem.mem_lineKeys.symm) rfl rfl
    simp only [h]
    exact ⟨fun h => ⟨a - lo, by omega, by omega⟩, fun ⟨i, hi, ha⟩ => by omega⟩
  cases st with
  | hbm => exact absurd rfl hst.1
  | rowTag => exact absurd rfl hst.2
  | wings => exact line m.wings fun i => rfl
  | localBuf => exact line m.localBuf fun i => (Nat.add_assoc ..).symm
  | prompter => exact line m.prompter fun i => (Nat.add_assoc ..).symm
  | apron =>
    obtain ⟨-, -, -, -, hap⟩ := (Mem.wf_iff m).mp w
    have h := rd1_foldl_zero (m.lineKeys .apron u loc) (cellsWf_sparse hap) a
    rw [Mem.lineKeys, List.foldl_map] at h
    simp only [Mem.zeroCw, Mem.bytesOf, Mem.lineKeys]
    exact h

theorem Mem.zeroCw_cnt (m : Mem) (st : Store) (u loc : Nat) : (m.zeroCw st u loc).cnt = m.cnt := by
  cases st <;> simp only [Mem.zeroCw, Mem.zeroHbm]

theorem Mem.zeroCw_hbm {st : Store} (h : st ≠ .hbm) (m : Mem) (u loc : Nat) : (m.zeroCw st u loc).hbm = m.hbm := by
  cases st with
  | hbm => exact absurd rfl h
  | apron | rowTag | wings | localBuf | prompter => simp only [Mem.zeroCw]

theorem Mem.bytesOf_count (m : Mem) (st store : Store) (unit n : Nat) : (m.count store unit n).bytesOf st = m.bytesOf st := by
  cases st <;> simp only [Mem.bytesOf, Mem.count]

/-- Counting touches no codeword. -/
theorem Mem.zeroCw_count (m : Mem) (st : Store) (u loc : Nat) (store : Store) (unit n : Nat) :
    (m.count store unit n).zeroCw st u loc = (m.zeroCw st u loc).count store unit n := by
  cases st <;> simp only [Mem.zeroCw, Mem.zeroHbm, Mem.count, Mem.symKey, Mem.rowKey, Mem.physRow]

/-! ## Codewords with errors -/

theorem Dev.up_blackout (h : d.up = true) : d.sys.st ≠ .blackout := by
  intro hb
  simp [Dev.up, Dev.coreRuns, hb] at h

theorem Dev.scrubs_up {st : Store} (h : d.scrubs st = true) : d.up = true := by
  simp only [Dev.scrubs, Bool.and_eq_true] at h
  exact h.1.1

/-- An uncorrectable codeword of SRAM, but for tag stores and COMMON banks: contained, then zeroed. -/
theorem Dev.sramBad_spec {st : Store} {u : Nat} (hst : st ≠ .hbm ∧ st ≠ .rowTag) (hw : st = .wings → d.bankOwner (u * 2 ^ 20) ≠ 16)
    (hb : d.sys.st ≠ .blackout) (loc syms verdict : Nat) : let r := d.sramBad st u loc syms verdict
    r.mem = d.mem.zeroCw st u loc ∧ r.err.nextSeq = d.err.nextSeq + 1 := by
  have h (e : ErrIn) (ts : List (Nat × Nat × Nat)) : ((d.contain e ts).modMem fun m => m.zeroCw st u loc).mem = d.mem.zeroCw st u loc ∧
      (d.contain e ts).err.nextSeq = d.err.nextSeq + 1 := by
    obtain ⟨hm, -, hs⟩ := d.contain_spec e ts 1
    exact ⟨congrArg (Mem.zeroCw · st u loc) hm, hs hb⟩
  cases st with
  | hbm => exact absurd rfl hst.1
  | rowTag => exact absurd rfl hst.2
  | wings =>
    simp only [Dev.sramBad, if_neg (hw rfl)]
    exact h ..
  | localBuf => exact h ..
  | prompter => exact h ..
  | apron =>
    obtain ⟨hm, hs⟩ := h { memErrIn .apron u loc syms 0x0502 1 with verdict := verdict } (d.tile.usersOf (d.mem.rowKey u (loc / 4)))
    exact ⟨hm, hs⟩

section
variable {st : Store} {u loc : Nat} {f : SymErrs} (hs : d.scrubs st = true) (hl : locOk st u loc = true)
include hs hl

theorem scrubRead_eq : scrubRead st u loc f d = if lastLoc st u loc then
    (d.readCw st u loc f true 0 0 []).1.modMem fun m => { m with passes := smod m.passes (storeCode st) 0 bump } else (d.readCw st u loc f true 0 0 []).1 := by
  rw [scrubRead, if_neg (by simp [hs, hl])]
end

section
variable {st : Store} {loc : Nat} {f : SymErrs}

theorem Dev.readCw_noErrors (hb : st = .hbm → loc ∉ d.mem.bad) (hf : rsDecode (storeSyms st) f = .clean) (u : Nat) :
    d.readCw st u loc f true 0 0 [] = (d, false) := by
  have ho : (st == .hbm && d.mem.bad.contains loc) = false := by simpa using hb
  simp only [Dev.readCw, hf, ho, Bool.not_false, if_true]

/-- A corrected codeword is counted and recorded; the event may map its location out. -/
theorem Dev.readCw_corrected (hb : st = .hbm → loc ∉ d.mem.bad) {p : List (Nat × Nat)} (hf : rsDecode (storeSyms st) f = .correct p)
    (hp : rsResidue (storeSyms st) f p = []) (u : Nat) :
    ∃ e : ErrIn, MapsOut ((d.modMem fun m => m.count st (locUnit st u loc) 1).raise e) (d.readCw st u loc f true 0 0 []).1 := by
  have ho : (st == .hbm && d.mem.bad.contains loc) = false := by simpa using hb
  simp only [Dev.readCw, hf, ho, hp, Bool.false_eq_true, if_false, List.foldl_nil, if_true]
  exact ⟨_, .locEvent ..⟩

/-- An uncorrectable codeword of SRAM is counted, contained and zeroed; the event may map its location out. -/
theorem Dev.readCw_lost (hst : st ≠ .hbm) (hf : rsDecode (storeSyms st) f = .uncorrectable) (u : Nat) :
    ∃ syms verdict, MapsOut ((d.modMem fun m => m.count st u 2).sramBad st u loc syms verdict) (d.readCw st u loc f true 0 0 []).1 := by
  simp only [Dev.readCw, hf, locUnit, if_neg hst]
  exact ⟨_, _, .locEvent ..⟩
end

/-- Settles O19: a scrub is a read of the codeword with errors; what follows it can only map locations out. -/
theorem scrubberCorrectsAndContains : Obligations.ScrubberCorrectsAndContains := by
  refine ⟨fun s st u loc f hs hl hn hb => ⟨fun hf => ?_, fun p hf hp => ?_, fun hst ht hw hf hm => ?_⟩, fun s st u loc f hs hl hn hb hf => ?_,
    fun s st u loc f hu => ?_, fun s hu => ?_⟩
  · refine State.gives_onDev rfl ?_
    rw [scrubRead_eq hs hl, hn, Dev.readCw_noErrors hb hf]
    rfl
  · have heq : scrubRead st u loc f s.dev = (s.dev.readCw st u loc f true 0 0 []).1 := by rw [scrubRead_eq hs hl, hn]; rfl
    obtain ⟨e, h⟩ := Dev.readCw_corrected hb hf hp u
    have hseq : ((s.dev.modMem fun m => m.count st (locUnit st u loc) 1).raise e).err.nextSeq = s.dev.err.nextSeq + 1 :=
      @Dev.raise_nextSeq (s.dev.modMem fun m => m.count st (locUnit st u loc) 1) (Dev.up_blackout (Dev.scrubs_up hs)) e
    have hrest := h.rest
    have hcnt := h.cnt (8 * unitKey st (locUnit st u loc) + 1) (by omega)
    rw [Dev.raise_mem] at hrest hcnt
    refine ⟨_, State.gives_onDev rfl heq, congrArg (fun m : Mem => { m with cnt := s.dev.mem.cnt }) hrest, hcnt.trans (sgetD_smod_self ..), ?_,
      Dev.readCw_sec .., Dev.readCw_scr ..⟩
    have := h.seq
    omega
  · have heq : scrubRead st u loc f s.dev = (s.dev.readCw st u loc f true 0 0 []).1 := by rw [scrubRead_eq hs hl, hn]; rfl
    obtain ⟨syms, verdict, h⟩ := @Dev.readCw_lost s.dev st loc f hst hf u
    obtain ⟨hmem, hseq⟩ := @Dev.sramBad_spec (s.dev.modMem fun m => m.count st u 2) st u ⟨hst, ht⟩ hw (Dev.up_blackout (Dev.scrubs_up hs)) loc syms verdict
    have hmem₁ : ((s.dev.modMem fun m => m.count st u 2).sramBad st u loc syms verdict).mem = (s.dev.mem.zeroCw st u loc).count st u 2 :=
      hmem.trans (s.dev.mem.zeroCw_count ..)
    have hbytes (a : Nat) : rd1 ((s.dev.readCw st u loc f true 0 0 []).1.mem.bytesOf st) a =
        if a ∈ s.dev.mem.lineKeys st u loc then 0 else rd1 (s.dev.mem.bytesOf st) a := by
      rw [h.bytesOf, hmem₁]
      rw [Mem.bytesOf_count]
      exact Mem.zeroCw_rd1 ⟨hst, ht⟩ hm u loc a
    refine ⟨_, State.gives_onDev rfl heq, fun i hi => ?_, fun a ha => ?_, ?_, ?_, ?_, Dev.readCw_sec ..⟩
    · rw [hbytes, if_pos (Mem.mem_lineKeys.mpr ⟨i, hi, rfl⟩)]
    · rw [hbytes, if_neg fun h => (Mem.mem_lineKeys.mp h).elim fun i h => ha i h.1 h.2]
    · have hh := h.bytesOf .hbm
      rw [hmem₁] at hh
      exact hh.trans (Mem.zeroCw_hbm hst ..)
    · rw [h.cnt _ (by omega), hmem₁]
      exact (sgetD_smod_self ..).trans (by rw [Mem.zeroCw_cnt])
    · have := h.seq
      have hq : (s.dev.modMem fun m => m.count st u 2).err.nextSeq = s.dev.err.nextSeq := rfl
      omega
  · refine State.gives_onDev rfl ?_
    rw [scrubRead_eq hs hl, hn, Dev.readCw_noErrors hb hf]
    rfl
  · refine State.gives_onDev rfl ?_
    simp [scrubRead, Dev.scrubs, hu]
  · exact State.gives_onDev rfl (by rw [errMemClr, if_pos hu]; rfl)

end Sys2Proof.Machine
end

section
/-! PROOF. The windows of a flock: repeats served, and rehearsal (R54, R87, R114, R120, R123, R338, R352 to R355). -/
namespace Sys2Proof.Machine
variable {d : Dev}

/-! ## Requests that a repeat window leaves over -/

/-- A landed request whose step still holds its lane. -/
def Dev.waits (d : Dev) (slot : Nat) (r : RepReq) : Bool := r.landed slot && d.reqLive r

/-- A request that waits still is answered as unserved. -/
def Dev.leaveOver (f slot : Nat) (d : Dev) (r : RepReq) : Dev := if d.waits slot r then (d.dropReq f r).unserved r else d

theorem Dev.reqLive_of_frm {e : Dev} (h : e.frm = d.frm) (r : RepReq) : e.reqLive r = d.reqLive r := by
  simp only [Dev.reqLive, Dev.lane, h]

theorem Dev.unserved_queue (d : Dev) (r : RepReq) : (d.unserved r).tile.queue = d.tile.queue := by
  rw [Dev.unserved, Dev.precFlag_tile]
  rfl

theorem Dev.dropReq_queue (d : Dev) (f : Nat) (r : RepReq) : sgetD (d.dropReq f r).tile.queue f [] = (sgetD d.tile.queue f []).erase r := by
  rw [sgetD, Dev.dropReq]
  exact congrArg (Option.getD · []) (sget_sput_self ..)

/-- Each answer takes one request of the list out of the queue, so none that waits outlasts the list. -/
theorem Dev.foldl_leaveOver (f slot : Nat) (l : List RepReq) (d : Dev)
    (h : ∀ q, d.waits slot q = true → (sgetD d.tile.queue f []).count q ≤ l.count q) (q : RepReq)
    (hq : (l.foldl (Dev.leaveOver f slot) d).waits slot q = true) : q ∉ sgetD (l.foldl (Dev.leaveOver f slot) d).tile.queue f [] := by
  induction l generalizing d with
  | nil => exact List.count_eq_zero.mp (Nat.le_zero.mp (h q hq))
  | cons r l ih =>
    refine ih (d.leaveOver f slot r) (fun p hp => ?_) hq
    by_cases hr : d.waits slot r = true
    · have heq : d.leaveOver f slot r = (d.dropReq f r).unserved r := if_pos hr
      rw [heq, Dev.waits, Dev.reqLive_of_frm (Dev.unserved_frm ..)] at hp
      have := h p hp
      rw [heq, Dev.unserved_queue, Dev.dropReq_queue, List.count_erase]
      rw [List.count_cons] at this
      omega
    · have heq : d.leaveOver f slot r = d := if_neg hr
      rw [heq] at hp ⊢
      have hne : r ≠ p := fun e => hr (e ▸ hp)
      have := h p hp
      rwa [List.count_cons_of_ne hne] at this

/-! ## A repeat window -/

/-- The slots that a window inserts, noted with the frame's stall. -/
def Dev.noteInserted (d : Dev) (f tiles endSlot : Nat) (ins : List (Nat × Nat)) : Dev :=
  if ins.isEmpty then d
  else
    let old := match d.tile.ins with | some (e, u) => if e = endSlot then u else [] | none => []
    let now := insWin old ⟨f, tiles, ins⟩
    let extra := insSlots now - insSlots old
    (d.modTile fun t => { t with ins := some (endSlot, now) }).modFrm fun fr =>
      { fr with causes := fr.causes ||| 8, stallSlots := bumpBy fr.stallSlots extra, stallShift := fr.stallShift + extra,
                stalledFor := setIns fr.stalledFor 3 }

theorem Dev.noteInserted_waits (d : Dev) (f tiles endSlot : Nat) (ins : List (Nat × Nat)) :
    (d.noteInserted f tiles endSlot ins).tile.queue = d.tile.queue ∧
      ∀ slot r, (d.noteInserted f tiles endSlot ins).waits slot r = d.waits slot r := by
  unfold Dev.noteInserted
  split
  · exact ⟨rfl, fun _ _ => rfl⟩
  · exact ⟨rfl, fun _ _ => rfl⟩

/-- What the window has served of its flock's queue, and the slots it inserts for it. -/
def Dev.winServed (c : WinCue) (d : Dev) : Dev × List (Nat × Nat) :=
  Dev.serveAll c.flock.toNat (min c.tiles.toNat flockLimit) c.slot.toNat (c.slot.toNat + c.slots.toNat)
    (8 * (sgetD d.tile.queue c.flock.toNat []).length + 8) [] [] d

theorem repeatWin_eq {c : WinCue} (hc : d.cues = true) : repeatWin c d =
    Dev.noteInserted ((sgetD (Dev.winServed c (d.advance c.slot.toNat)).1.tile.queue c.flock.toNat []).foldl (Dev.leaveOver c.flock.toNat c.slot.toNat)
      (Dev.winServed c (d.advance c.slot.toNat)).1) c.flock.toNat (min c.tiles.toNat flockLimit) (c.slot.toNat + c.slots.toNat)
      (Dev.winServed c (d.advance c.slot.toNat)).2 := by
  rw [repeatWin, if_neg (by simp [hc])]
  rfl

/-- A window that serves all without inserted slots leaves what it served. -/
theorem repeatWin_served {c : WinCue} {e : Dev} (hc : d.cues = true) (h : Dev.winServed c (d.advance c.slot.toNat) = (e, []))
    (hq : sgetD e.tile.queue c.flock.toNat [] = []) : repeatWin c d = e := by
  rw [repeatWin_eq hc, h, hq]
  rfl

theorem Dev.serveAll_empty {f : Nat} (hq : sgetD d.tile.queue f [] = []) (tiles lo hi fuel : Nat) (use : WinUse) (ins : List (Nat × Nat)) :
    Dev.serveAll f tiles lo hi fuel use ins d = (d, ins) := by
  cases fuel with
  | zero => rfl
  | succ n => simp only [Dev.serveAll, Dev.nextReq, hq, List.find?_nil]

/-- The next request, served in the first free slots of the window. -/
theorem Dev.serveAll_next {f lo hi tiles p : Nat} {r : RepReq} {use : WinUse} (hn : d.nextReq f lo = some r) (hl : d.reqLive r = true)
    (hp : d.winPlace use tiles lo hi r = some p) (fuel : Nat) (ins : List (Nat × Nat)) : Dev.serveAll f tiles lo hi (fuel + 1) use ins d =
      Dev.serveAll f tiles lo hi fuel ((List.range r.cost).foldl (fun u i => smod u (p + i) 0 (· + 1)) use) ins
        (((d.dropReq f r).drives r.tile p r.cost).serve r p false) := by
  have hl' : (d.dropReq f r).reqLive r = true := hl
  have hp' : (d.dropReq f r).winPlace use tiles lo hi r = some p := hp
  rw [Dev.serveAll, hn]
  simp only [hl', hp', Bool.not_true, Bool.false_eq_true, if_false]

/-! ## A repeat -/

/-- The evaluation of a repeat, in its format or its range. -/
def Dev.runRepeat (d : Dev) (r : RepReq) (a : Nat) : Dev × Option AccSet × Block × List Phase × EvalIn :=
  if r.format then d.runFormat r a else d.runRange r a

theorem Dev.convert_outs (a range : Nat) (l : List (List Int)) (d : Dev) : (d.convert a range l).1.tile.outs = d.tile.outs := by
  induction l generalizing d with
  | nil => rfl
  | cons p t ih => exact ih _

theorem Dev.runRepeat_spec (d : Dev) (r : RepReq) (a : Nat) : let z := d.runRepeat r a
    z.1.tile.servedCnt = d.tile.servedCnt ∧ z.1.tile.outs = d.tile.outs ∧ z.1.mem = d.mem := by
  intro z
  have hz : z = if r.format then d.runFormat r a else d.runRange r a := rfl
  split at hz
  · refine hz ▸ ⟨Dev.runFormat_servedCnt .., ?_, Dev.runFormat_mem ..⟩
    simp only [Dev.runFormat]
    (repeat' split) <;> simp [Dev.convert_outs, Dev.precCount, Dev.modTile]
  · exact hz ▸ ⟨Dev.runRange_servedCnt .., Dev.convert_outs .., Dev.runRange_mem ..⟩

/-- The output of a chain rewritten with what a repeat adds. -/
def Dev.merged (d : Dev) (r : RepReq) (s : Option AccSet) (slot : Nat) : Dev :=
  match s, sget d.tile.outs (4096 * r.chain + r.lane) with
  | some s, some o => d.mergeOut r o s slot
  | _, _ => d

theorem Dev.merged_spec (d : Dev) (r : RepReq) (s : Option AccSet) (slot : Nat) : (d.merged r s slot).tile.servedCnt = d.tile.servedCnt ∧
    (sget d.tile.outs (4096 * r.chain + r.lane) = none → (d.merged r s slot).mem = d.mem) := by
  unfold Dev.merged
  split
  next ho => exact ⟨Dev.mergeOut_servedCnt .., fun h => nomatch ho.symm.trans h⟩
  · exact ⟨rfl, fun _ => rfl⟩

/-- Served on a cued tile with a principal that is not suspended: evaluated, merged, counted, and its troubles asked for again. -/
theorem Dev.serve_eq {r : RepReq} {a : Nat} (hh : d.tile.holder r.tile r.pslot = some a) (hs : (d.arr a).suspended = false)
    (hp : r.tile ∉ d.tile.prBad) (slot : Nat) (ins : Bool) : let z := d.runRepeat r a
    let m := ((z.1.merged r z.2.1 slot).precCount r.tile (if ins then 8 else 7)).precFlag r.tok 0
    d.serve r slot ins = Dev.evalTrouble (if z.2.2.1.n = 0 then m else m.capture a (16 * r.tile + r.pslot) r.range z.2.2.2.1) r.tok z.2.2.2.2
      z.2.2.1 z.2.2.2.1 (slot + r.cost + 1 + 65536) r.lane (!r.format) := by
  have hp' : d.tile.prBad.contains r.tile = false := by simpa using hp
  simp only [Dev.serve, hh, hp', hs, Bool.false_eq_true, if_false, Dev.merged, Dev.runRepeat]
  rfl

theorem Dev.serve_spec {r : RepReq} {a : Nat} (hh : d.tile.holder r.tile r.pslot = some a) (hs : (d.arr a).suspended = false)
    (hp : r.tile ∉ d.tile.prBad) (slot : Nat) (ins : Bool) : let x := d.serve r slot ins
    let n := 16 * (r.tile / 128) + (if ins then 8 else 7)
    sgetD x.tile.precCnt n 0 = bump (sgetD d.tile.precCnt n 0) ∧ (sget d.tile.outs (4096 * r.chain + r.lane) = none → x.mem = d.mem) := by
  intro x n
  have hx : x = _ := Dev.serve_eq hh hs hp slot ins
  obtain ⟨hc, ho, hm⟩ := d.runRepeat_spec r a
  generalize d.runRepeat r a = z at hx hc ho hm
  obtain ⟨hc', hm'⟩ := z.1.merged_spec r z.2.1 slot
  generalize z.1.merged r z.2.1 slot = e at hx hc' hm'
  have hcnt (f : Nat) : e.tile.servedCnt f = d.tile.servedCnt f := by rw [hc', hc]
  have hx₁ : x.tile.servedCnt = (e.precCount r.tile (if ins then 8 else 7)).tile.servedCnt := by
    rw [hx]
    split <;> simp
  have hx₂ : x.mem = e.mem := by
    rw [hx]
    split <;> simp [Dev.capture]
  have hf := congrFun hx₁ (r.tile / 128)
  refine ⟨?_, fun h => hx₂.trans ((hm' (ho ▸ h)).trans hm)⟩
  cases ins with
  | false =>
    refine (congrArg Prod.fst hf).trans ((sgetD_smod_self ..).trans (congrArg bump ?_))
    exact congrArg Prod.fst (hcnt (r.tile / 128))
  | true =>
    refine (congrArg Prod.snd hf).trans ((sgetD_smod_self ..).trans (congrArg bump ?_))
    exact congrArg Prod.snd (hcnt (r.tile / 128))

/-! ## One tile-phase of rehearsal -/

theorem Tile.acc_pend_of_wins {t u : Tile} (h : t.wins = u.wins) : t.acc = u.acc ∧ t.pend = u.pend :=
  ⟨congrArg (fun w => w.1) h, congrArg (fun w => w.2.1) h⟩

theorem Tile.rot_of_wins {t u : Tile} (h : t.wins = u.wins) : t.rot = u.rot := congrArg (fun w => w.2.2.2.1) h

theorem Tile.probes_of_wins {t u : Tile} (h : t.wins = u.wins) : t.probes = u.probes := congrArg (fun w => w.2.2.1) h

theorem Tile.mem_driven_of_wins {t u : Tile} (h : t.wins = u.wins) {x : Nat × Nat} (hx : x ∈ u.driven) : x ∈ t.driven :=
  have hd : t.driven = u.driven := congrArg (fun w => w.2.2.2.2) h
  hd ▸ hx

theorem Dev.mem_driven_drives (d : Dev) (tile slot : Nat) : (tile, slot) ∈ (d.drives tile slot 1).tile.driven := List.mem_cons_self

/-- What stands of the probes on an array is replaced by q. -/
def Dev.setProbe (d : Dev) (a : Nat) (q : Option Probe) : Dev :=
  d.modTile fun t => { t with probes := t.probes.filterMap fun x => if x.arr == a then q else some x }

theorem Dev.arrayError_freeCtr (d : Dev) (code cls a : Nat) (flagged : List Nat) (row : Option Nat) (pattern : Nat) (spare : Bool) (verdict : Nat) :
    (d.arrayError code cls a flagged row pattern spare verdict).freeCtr = d.freeCtr := by simp [Dev.arrayError]

theorem Dev.tileSuspect_freeCtr (d : Dev) (code tile slot : Nat) : (d.tileSuspect code tile slot).freeCtr = d.freeCtr := by simp [Dev.tileSuspect]

theorem Dev.emptyServed_freeCtr (d : Dev) (key : Nat) : (d.emptyServed key).freeCtr = d.freeCtr :=
  Dev.foldl_freeCtr (fun d x => by split <;> simp) _ d

theorem Dev.failPrincipal_freeCtr (d : Dev) (code a : Nat) (flagged : List Nat) (row : Option Nat) (pattern : Nat) :
    (d.failPrincipal code a flagged row pattern).freeCtr = d.freeCtr := by
  simp only [Dev.failPrincipal]
  (repeat' split) <;> simp [Dev.arrayError_freeCtr, Dev.tileSuspect_freeCtr, Dev.emptyServed_freeCtr]

/-- The windows' part of the tiles and the free values drawn are the same. -/
structure SameWins (d e : Dev) : Prop where
  wins : e.tile.wins = d.tile.wins
  free : e.freeCtr = d.freeCtr

theorem SameWins.refl (d : Dev) : SameWins d d := ⟨rfl, rfl⟩

section
variable {e : Dev} (h : SameWins d e)
include h

theorem SameWins.failPrincipal (code a : Nat) (flagged : List Nat) (row : Option Nat) (pattern : Nat) :
    SameWins d (e.failPrincipal code a flagged row pattern) :=
  ⟨(Dev.failPrincipal_wins ..).trans h.wins, (Dev.failPrincipal_freeCtr ..).trans h.free⟩

theorem SameWins.tileSuspect (code tile slot : Nat) : SameWins d (e.tileSuspect code tile slot) :=
  ⟨(Dev.tileSuspect_wins ..).trans h.wins, (Dev.tileSuspect_freeCtr ..).trans h.free⟩

theorem SameWins.arrayError (code cls a : Nat) (flagged : List Nat) (row : Option Nat) (pattern : Nat) (spare : Bool) (verdict : Nat) :
    SameWins d (e.arrayError code cls a flagged row pattern spare verdict) :=
  ⟨(Dev.arrayError_wins ..).trans h.wins, (Dev.arrayError_freeCtr ..).trans h.free⟩

theorem SameWins.histEvent (kind unit score threshold : Nat) : SameWins d (e.histEvent kind unit score threshold).1 :=
  ⟨(Dev.histEvent_wins ..).trans h.wins, (Dev.histEvent_freeCtr ..).trans h.free⟩

theorem SameWins.probeVerdict (p : Probe) : SameWins d (e.probeVerdict p) := by
  unfold Dev.probeVerdict
  dsimp only
  split
  · exact h.failPrincipal ..
  · have hf : SameWins d (e.modTile fun t => { t with colFaults := sput t.colFaults (p.arr / 17) ((p.flagged.map Prod.fst).foldl
        (fun l j => setIns l (512 * (e.arr p.arr).pslot + j)) (sgetD e.tile.colFaults (p.arr / 17) [])) }) := ⟨h.wins, h.free⟩
    split
    · exact (hf.failPrincipal ..).tileSuspect ..
    · exact hf.failPrincipal ..
end

/-- A probe in hand goes one pattern on, or is gone, after one free value more. -/
theorem Dev.probeStep_spec (d : Dev) (p : Probe) : ∃ q : Option Probe, (∀ x, q = some x → x.next = p.next + 1) ∧
    SameWins ((d.probeRun p.arr p.next).1.setProbe p.arr q) (d.probeStep p) := by
  unfold Dev.probeStep
  extract_lets set
  generalize d.probeRun p.arr p.next = z
  obtain ⟨e, r⟩ := z
  have hset (x : Dev) (q : Option Probe) : set x q = x.setProbe p.arr q := rfl
  clear_value set
  simp only [hset]
  split
  case isTrue h0 =>
    split
    · refine ⟨none, fun x hx => (nomatch hx), ?_⟩
      have h := ((SameWins.refl (e.setProbe p.arr none)).arrayError 0x0205 0 p.arr (p.flagged.map Prod.fst) none 0 false
        ((e.setProbe p.arr none).histNext 10 p.arr 16 64).verdict).histEvent 10 p.arr 16 64
      split
      · exact h.failPrincipal ..
      · exact h
    · exact ⟨some _, fun x hx => Option.some.inj hx ▸ (congrArg (· + 1) h0).symm, .refl _⟩
  case isFalse h0 =>
    split
    · exact ⟨some _, fun x hx => Option.some.inj hx ▸ rfl, .refl _⟩
    · exact ⟨none, fun x hx => (nomatch hx), (SameWins.refl _).probeVerdict _⟩

/-- A tile may drive its rows in a slot for rehearsal. -/
def Dev.mayRehearse (d : Dev) (slot a : Nat) : Bool :=
  !d.sheetEval (a / 17) slot && d.tile.idleIn (a / 17) slot 1 && !d.tile.prBad.contains (a / 17)

/-- An array of the flock that is being measured. -/
def Dev.measures (f : Nat) (a : Nat × Arr) : Bool := a.1 / 17 / 128 == f && a.2.pstate == 3 && a.2.toMeasure != 0

section
variable {f slot : Nat}

theorem Dev.measures_mayRehearse (d : Dev) (f slot : Nat) : (fun e : Nat × Arr => Dev.measures f e && d.mayRehearse slot e.1) =
    fun e => (e.1 / 17 / 128 == f && d.mayRehearse slot e.1) && e.2.pstate == 3 && e.2.toMeasure != 0 := by
  funext e
  simp only [Dev.measures]
  ac_rfl

theorem Dev.rehearse_measure {a : Nat} {x : Arr} (h : (d.tile.arrs.find? fun e => Dev.measures f e && d.mayRehearse slot e.1) = some (a, x)) :
    d.rehearse f slot = if (((d.drives (a / 17) slot 1).measureOne a).arr a).toMeasure = 0 then
      ((d.drives (a / 17) slot 1).measureOne a).modArr a Arr.measured else (d.drives (a / 17) slot 1).measureOne a := by
  rw [Dev.measures_mayRehearse] at h
  unfold Dev.rehearse
  dsimp only [Dev.mayRehearse] at h ⊢
  rw [h]

section
variable (h : (d.tile.arrs.find? fun e => Dev.measures f e && d.mayRehearse slot e.1) = none)
include h

theorem Dev.rehearse_hand {p : Probe} (hp : (d.tile.probes.find? fun p => p.arr / 17 / 128 == f && d.mayRehearse slot p.arr) = some p) :
    d.rehearse f slot = (d.drives (p.arr / 17) slot 1).probeStep p := by
  rw [Dev.measures_mayRehearse] at h
  unfold Dev.rehearse
  dsimp only [Dev.mayRehearse] at h hp ⊢
  rw [h, hp]

variable (hp : (d.tile.probes.find? fun p => p.arr / 17 / 128 == f && d.mayRehearse slot p.arr) = none)
include hp

theorem Dev.rehearse_next {a : Nat} (hr : d.rotation f (d.mayRehearse slot) = some a) : d.rehearse f slot =
    ((d.drives (a / 17) slot 1).modTile fun t => { t with rot := sput t.rot f (a % 2176 + 1) }).probeNext a := by
  rw [Dev.measures_mayRehearse] at h
  unfold Dev.mayRehearse at h hp hr
  unfold Dev.rehearse
  dsimp only at h hp ⊢
  rw [h, hp]
  dsimp only
  rw [hr]

theorem Dev.rehearse_idle (hr : d.rotation f (d.mayRehearse slot) = none) : d.rehearse f slot = d := by
  rw [Dev.measures_mayRehearse] at h
  unfold Dev.mayRehearse at h hp hr
  unfold Dev.rehearse
  dsimp only at h hp ⊢
  rw [h, hp]
  dsimp only
  rw [hr]
end

theorem Dev.measureOne_toMeasure (d : Dev) (a : Nat) : ((d.measureOne a).arr a).toMeasure = (d.arr a).toMeasure - 1 := by
  simp only [Dev.measureOne, Dev.phase, Dev.arr_modArr, if_true]
  have h (g : Arr → Arr) : ((d.modArr a g).useFree 1).arr a = g (d.arr a) := (Dev.arr_modArr a a g).trans (if_pos rfl)
  rw [h]

/-- A measuring evaluation takes one free value; the last one ends the measurement. -/
theorem Dev.measured_spec (d : Dev) (a : Nat) :
    let r := if ((d.measureOne a).arr a).toMeasure = 0 then (d.measureOne a).modArr a Arr.measured else d.measureOne a
    r.freeCtr = d.freeCtr + 1 ∧ r.tile.wins = d.tile.wins ∧ (r.arr a).toMeasure = (d.arr a).toMeasure - 1 := by
  intro r
  have ht := d.measureOne_toMeasure a
  have hr : r = if ((d.measureOne a).arr a).toMeasure = 0 then (d.measureOne a).modArr a Arr.measured else d.measureOne a := rfl
  split at hr
  next h0 =>
    refine hr ▸ ⟨rfl, rfl, ?_⟩
    rw [Dev.arr_modArr, if_pos rfl, ← ht, h0]
    rfl
  · exact hr ▸ ⟨rfl, rfl, ht⟩

/-- A probe of the rotation draws one free value, and leaves at most one probe more in hand, of its array. -/
theorem Dev.probeNext_spec (d : Dev) (a : Nat) : let r := d.probeNext a
    r.freeCtr = d.freeCtr + 1 ∧ r.err = d.err ∧ r.frm = d.frm ∧ r.tile.acc = d.tile.acc ∧ r.tile.pend = d.tile.pend ∧
    r.tile.rot = d.tile.rot ∧ r.tile.driven = d.tile.driven ∧ ∀ p ∈ r.tile.probes, p ∉ d.tile.probes → p.arr = a := by
  unfold Dev.probeNext
  have hnew (p : Probe) (h : p ∈ d.tile.probes) (h' : p ∉ d.tile.probes) : p.arr = a := absurd h h'
  dsimp only
  split
  · exact ⟨rfl, rfl, rfl, rfl, rfl, rfl, rfl, hnew⟩
  · split
    · exact ⟨rfl, rfl, rfl, rfl, rfl, rfl, rfl, hnew⟩
    · refine ⟨rfl, rfl, rfl, rfl, rfl, rfl, rfl, fun p hp hn => ?_⟩
      obtain hp | hp := List.mem_append.mp hp
      · exact absurd hp hn
      · exact congrArg Probe.arr (List.mem_singleton.mp hp)

/-- Rehearsal leaves accumulators and contributions alone. -/
theorem Dev.rehearse_sums (d : Dev) (f slot : Nat) : (d.rehearse f slot).tile.acc = d.tile.acc ∧ (d.rehearse f slot).tile.pend = d.tile.pend := by
  cases h : d.tile.arrs.find? fun e => Dev.measures f e && d.mayRehearse slot e.1 with
  | some e =>
    obtain ⟨-, hw, -⟩ := (d.drives (e.1 / 17) slot 1).measured_spec e.1
    rw [Dev.rehearse_measure h]
    obtain ⟨ha, hp⟩ := Tile.acc_pend_of_wins hw
    exact ⟨ha, hp⟩
  | none =>
    cases hp : d.tile.probes.find? fun p => p.arr / 17 / 128 == f && d.mayRehearse slot p.arr with
    | some p =>
      obtain ⟨q, -, hw⟩ := (d.drives (p.arr / 17) slot 1).probeStep_spec p
      rw [Dev.rehearse_hand h hp]
      obtain ⟨ha, hp⟩ := Tile.acc_pend_of_wins hw.wins
      exact ⟨ha, hp⟩
    | none =>
      cases hr : d.rotation f (d.mayRehearse slot) with
      | none => rw [Dev.rehearse_idle h hp hr]; exact ⟨rfl, rfl⟩
      | some a =>
        obtain ⟨-, -, -, ha, hpe, -⟩ := ((d.drives (a / 17) slot 1).modTile fun t => { t with rot := sput t.rot f (a % 2176 + 1) }).probeNext_spec a
        rw [Dev.rehearse_next h hp hr]
        exact ⟨ha, hpe⟩
end

/-- Accumulators, contributions, memory and the security block stand. -/
structure LeavesSums (d e : Dev) : Prop where
  acc : e.tile.acc = d.tile.acc
  pend : e.tile.pend = d.tile.pend
  mem : e.mem = d.mem
  sec : e.sec = d.sec

theorem LeavesSums.refl (d : Dev) : LeavesSums d d := ⟨rfl, rfl, rfl, rfl⟩

theorem LeavesSums.rehearse {e : Dev} (h : LeavesSums d e) (f slot : Nat) : LeavesSums d (e.rehearse f slot) := by
  obtain ⟨ha, hp⟩ := e.rehearse_sums f slot
  exact ⟨ha.trans h.acc, hp.trans h.pend, (Dev.rehearse_mem ..).trans h.mem, (Dev.rehearse_sec ..).trans h.sec⟩

/-! ## A rehearsal window -/

/-- A fold whose every step leaves its start as it is. -/
theorem foldl_fixed {α β : Type} {f : β → α → β} {l : List α} {b : β} (h : ∀ x ∈ l, f b x = b) : l.foldl f b = b := by
  induction l with
  | nil => rfl
  | cons x l ih =>
    rw [List.foldl_cons, h x List.mem_cons_self]
    exact ih fun y hy => h y (List.mem_cons_of_mem x hy)


theorem rehearseWin_eq {c : WinCue} (hc : d.cues = true) : rehearseWin c d =
    (List.range c.slots.toNat).foldl (fun d s => (List.range (min c.tiles.toNat flockLimit)).foldl
      (fun d _ => d.rehearse c.flock.toNat (c.slot.toNat + s)) d) (d.advance c.slot.toNat) := by
  rw [rehearseWin, if_neg (by simp [hc])]

/-- A window of one tile-phase. -/
theorem rehearseWin_one {c : WinCue} (hc : d.cues = true) (hs : c.slots = 1) (ht : c.tiles = 1) :
    rehearseWin c d = (d.advance c.slot.toNat).rehearse c.flock.toNat c.slot.toNat := by
  have hs' : c.slots.toNat = 1 := hs ▸ rfl
  have ht' : min c.tiles.toNat flockLimit = 1 := by
    rw [ht, flockLimit]
    split <;> rfl
  rw [rehearseWin_eq hc, hs', ht']
  simp only [List.range_one, List.foldl_cons, List.foldl_nil, Nat.add_zero]

/-- Settles O34: the answers that end a repeat window, one request served, and the three kinds of rehearsal work. -/
theorem windowsServeTheirFlock : Obligations.WindowsServeTheirFlock := by
  refine ⟨fun s c hw hc => ?_, fun d r a slot ins hh hs hp => ?_, fun s c hw hc => ?_⟩
  · intro f slot d₁
    refine ⟨⟨_, gives_onCue hw rfl rfl, fun r hr hl => ?_⟩, fun hq => ?_, fun r p hq hl hv hp => ?_, ⟨_, gives_onCue hw rfl rfl, ?_⟩⟩
    · rw [repeatWin_eq hc] at hr hl
      obtain ⟨hqu, hwa⟩ := Dev.noteInserted_waits ((sgetD (Dev.winServed c d₁).1.tile.queue f []).foldl (Dev.leaveOver f slot) (Dev.winServed c d₁).1)
        f (min c.tiles.toNat flockLimit) (slot + c.slots.toNat) (Dev.winServed c d₁).2
      rw [hqu] at hr
      exact Dev.foldl_leaveOver f slot _ _ (fun q _ => le_rfl) r ((hwa slot r).symm.trans (by rw [Dev.waits, hl.1, hl.2]; rfl)) hr
    · exact gives_onCue hw rfl (repeatWin_served hc (Dev.serveAll_empty hq ..) hq)
    · intro d₂ hq₂
      refine gives_onCue hw rfl (repeatWin_served hc ?_ hq₂)
      have hnext : d₁.nextReq f slot = some r := by
        rw [Dev.nextReq, hq]
        exact List.find?_cons_of_pos hl
      rw [Dev.winServed, hq]
      exact (Dev.serveAll_next hnext hv hp 15 []).trans (Dev.serveAll_empty hq₂ ..)
    · rw [rehearseWin_eq hc]
      obtain ⟨ha, hp, hm, hs⟩ := Machine.foldl_keeps (LeavesSums d₁) _
        (fun e n he => Machine.foldl_keeps (LeavesSums d₁) _ (fun e _ h => h.rehearse ..) _ _ he) (List.range c.slots.toNat) _ (.refl d₁)
      exact ⟨ha, hp, hm, hs⟩
  · obtain ⟨hc, hm⟩ := Dev.serve_spec hh hs hp slot ins
    obtain ⟨ha, hpe⟩ := Tile.acc_pend_of_wins (d.serve_wins r slot ins)
    exact ⟨hc, ha, hpe, hm⟩
  · intro f slot d₁ freeAt free meas hand
    refine ⟨fun hm hh hr => gives_onCue hw rfl ?_, fun hs ht => ⟨fun a x hm => ?_, fun p hm hp => ?_, fun a hm hp hr => ?_⟩⟩
    · rw [rehearseWin_eq hc]
      refine foldl_fixed fun i hi => foldl_fixed fun j _ => Dev.rehearse_idle ?_ ?_ (hr i (List.mem_range.mp hi))
      · exact List.find?_eq_none.mpr fun e he h => List.find?_eq_none.mp hm e he (Bool.and_eq_true_iff.mp h).1
      · exact List.find?_eq_none.mpr fun p hp h => List.find?_eq_none.mp hh p hp (Bool.and_eq_true_iff.mp h).1
    · obtain ⟨hf, hwn, hto⟩ := (d₁.drives (a / 17) slot 1).measured_spec a
      refine ⟨_, gives_onCue hw rfl ((rehearseWin_one hc hs ht).trans (Dev.rehearse_measure hm)), hf, (Tile.probes_of_wins hwn :),
        (Tile.rot_of_wins hwn :), hto, Tile.mem_driven_of_wins hwn (Dev.mem_driven_drives ..)⟩
    · obtain ⟨q, hq, h⟩ := (d₁.drives (p.arr / 17) slot 1).probeStep_spec p
      refine ⟨_, gives_onCue hw rfl ((rehearseWin_one hc hs ht).trans (Dev.rehearse_hand hm hp)), h.free ▸ Nat.lt_succ_self _,
        (Tile.rot_of_wins h.wins :), Tile.mem_driven_of_wins h.wins (Dev.mem_driven_drives ..), fun x hx hxa => ?_⟩
      rw [Tile.probes_of_wins h.wins] at hx
      obtain ⟨y, -, hy⟩ := List.mem_filterMap.mp hx
      split at hy
      · exact hq x hy
      next hne => exact absurd (Option.some.inj hy ▸ beq_iff_eq.mpr hxa) hne
    · obtain ⟨hf, he, hfr, -, -, hro, hdr, hpr⟩ := ((d₁.drives (a / 17) slot 1).modTile fun t => { t with rot := sput t.rot f (a % 2176 + 1) }).probeNext_spec a
      refine ⟨_, gives_onCue hw rfl ((rehearseWin_one hc hs ht).trans (Dev.rehearse_next hm hp hr)), hf, ?_, he, hfr, hdr ▸ Dev.mem_driven_drives .., hpr⟩
      rw [hro, sgetD]
      exact congrArg (Option.getD · 0) (sget_sput_self ..)

end Sys2Proof.Machine
end

section
/-! PROOF. A KV entry that lies on its own session's MIRROR bit (R250, R258, R274): KVWRITE then does more than write the entry. -/
namespace Sys2Proof.Machine

/-- A session whose entry in the session table, 2048 × session, is byte 2048 of the first page of the KV pool. -/
def overlaid : Nat := kvPoolBase / 2048 + 1

/-- The token of its one lane: position 1 of the session, whose KV entry of 1,024 bytes is byte 2048 of that page too. -/
def overlaidTok : Tok := { pos := 1, session := overlaid }

/-- The owner of the one layer, with entries of 1,024 bytes. -/
def overlaidKv : KvDev := ⟨0, 0, 1024, 1, [1]⟩

/-- A PLAYING device that owns the layer and holds page 0 for the session: mirrored so far (bit 3 of its KV word), of one block, its table in page 1. A local
buffer holds 2 as its first byte. -/
def overlaidDev : Dev :=
  { sys := { st := .playing, sysRst := false, prsnt := true, pg := 0x7F }, frm := { running := true, isOpen := true, lanes := [(0, overlaidTok)] },
    mem := { hbm := [(kvPage 0 + 2048 + 0x500, 9), (kvPage 0 + 2048 + 0x508, 1), (kvPage 0 + 2048 + 0x540, 1), (kvPage 0 + 2048 + 0x543, 0x80), (kvPage 1 + 3, 0x80)],
             localBuf := [(0, 2)] },
    scr := { script := some { kvDevs := [overlaidKv], kvLayers := [⟨0, 0, 0, false, 0⟩] } } }

/-- A KVWRITE of the lane, whose operand is one E4M3 element of the local buffer. -/
def overlaidWrite : KernelCue :=
  { slot := 0, lane := 0, engine := 0, thread := 0, last := 0, clear := false, stoch := false, nlanes := 1, layer := 0, const := 0,
    op0 := ⟨.localBuf, .e4m3, 1, 0⟩, op1 := ⟨.none, .e4m3, 0, 0⟩, op2 := ⟨.none, .e4m3, 0, 0⟩, op3 := ⟨.none, .e4m3, 0, 0⟩, num := 0 }

/-- The KVWRITE's thread runs. -/
def overlaidRun : Dev := overlaidDev.runThread (overlaidDev.krun 5 overlaidWrite)

/-- The byte of the session's KV word that an outcome leaves. -/
def kvWordAfter : Host.Outcome State Fault Refusal → Byte
  | .next s => rd1 s.dev.mem.hbm (kvPage 0 + 2048 + 0x500)
  | _ => 0

theorem overlaid_bytes : (overlaidRun.kvBytes (overlaidDev.krun 5 overlaidWrite) 0 overlaidTok).2 = some [2] := by decide +kernel

theorem overlaid_entry : overlaidRun.kvEntry overlaidKv overlaid 0 1 = some (0, 0, kvPage 0 + 2048) := by decide +kernel

theorem overlaid_page : overlaidRun.badPage overlaidKv overlaid 0 1 true = none := by decide +kernel

/-- The byte written is the session's MIRROR bit, and without a green room the mirror stops. -/
theorem overlaid_stops : kvWordAfter (exec (.kvwrite overlaidWrite) { State.reset with dev := overlaidDev }) = 1 := by decide +kernel

/-- A write of the entry alone leaves the KV word. -/
theorem overlaid_entryOnly : rd1 (overlaidRun.mem.wrHbm (kvPage 0 + 2048) [2]).hbm (kvPage 0 + 2048 + 0x500) = 9 := by decide +kernel

/-- Refutes O38: the bytes that KVWRITE writes set the MIRROR bit of a session so numbered that its table entry lies in the KV pool, and its mirror
stops, which clears a bit of its KV word. -/
theorem not_kvWritesExactAndStoppedKernels : ¬ Obligations.KvWritesExactAndStoppedKernels := by
  intro h
  obtain ⟨d, hx, hsome, -⟩ := h.1 { State.reset with dev := overlaidDev } overlaidWrite overlaidTok overlaidKv 0 0 (kvPage 0 + 2048) (by decide) (by decide)
    rfl rfl rfl (by decide) rfl rfl rfl (by decide) (by decide) (by decide) overlaid_page (by decide) overlaid_entry (by decide) rfl
  have hd := hsome [2] overlaid_bytes
  have hw := (overlaid_stops.symm.trans (congrArg kvWordAfter hx))
  rw [hd] at hw
  exact absurd (hw.trans overlaid_entryOnly) (by decide)

end Sys2Proof.Machine
end

section
/-! PROOF. The pure rules of routing, sampling and verification (R164, R165, R173, R176). -/
namespace Sys2Proof.Machine

theorem forall₂_of_mapM {α β : Type} {f : α → Option β} {l : List α} {r : List β} (h : l.mapM f = some r) : List.Forall₂ (fun a b => f a = some b) l r := by
  induction l generalizing r with
  | nil =>
    obtain rfl : [] = r := Option.some.inj h
    exact .nil
  | cons a l ih =>
    rw [List.mapM_cons, Option.bind_eq_bind, Option.bind_eq_some_iff] at h
    obtain ⟨b, hb, h⟩ := h
    rw [Option.bind_eq_bind, Option.bind_eq_some_iff] at h
    obtain ⟨bs, hbs, h⟩ := h
    obtain rfl : b :: bs = r := Option.some.inj h
    exact .cons hb (ih hbs)

/-- Whatever the results of a list name, its elements name. -/
theorem mem_of_forall₂ {α β : Type} {R : α → β → Prop} {l : List α} {r : List β} (h : List.Forall₂ R l r) {b : β} (hb : b ∈ r) : ∃ a ∈ l, R a b := by
  induction h with
  | nil => nomatch hb
  | cons hab _ ih =>
    obtain rfl | hb := List.mem_cons.mp hb
    · exact ⟨_, List.mem_cons_self, hab⟩
    · obtain ⟨a, ha, hr⟩ := ih hb
      exact ⟨a, List.mem_cons_of_mem _ ha, hr⟩

/-! ## ROUTE -/

/-- An expert of the layer that is scored and not masked. -/
def RouteLayer.Enabled (r : RouteLayer) (z : List F32) (e : Nat) : Prop := e < z.length ∧ e ∉ r.masked

theorem routeScores_enabled {r : RouteLayer} {z : List F32} {ss : List (Nat × F32)} (h : routeScores r z = some ss) : ∀ s ∈ ss, r.Enabled z s.1 := by
  simp only [routeScores, Option.bind_eq_bind, Option.bind_eq_some_iff] at h
  obtain ⟨inv, -, ys, hys, h⟩ := h
  have hy : ∀ y ∈ ys, r.Enabled z y.1 := fun y hy => by
    obtain ⟨x, hx, hf⟩ := mem_of_forall₂ (forall₂_of_mapM hys) hy
    simp only [List.mem_filter, Bool.not_eq_true', List.contains_eq_mem, decide_eq_false_iff_not] at hx
    obtain ⟨v, -, hv⟩ := Option.bind_eq_some_iff.mp hf
    obtain rfl := Option.some.inj hv
    exact ⟨(List.mem_zipIdx hx.1).2.1.trans_eq (Nat.zero_add _), hx.2⟩
  cases ys with
  | nil => exact fun s hs => nomatch Option.some.inj h ▸ hs
  | cons y0 t =>
    dsimp only at h
    obtain ⟨ts, hts, h⟩ := Option.bind_eq_some_iff.mp h
    obtain ⟨sum, -, h⟩ := Option.bind_eq_some_iff.mp h
    intro s hs
    obtain ⟨w, hw, hws⟩ := mem_of_forall₂ (forall₂_of_mapM h) hs
    obtain ⟨v, -, rfl⟩ := Option.map_eq_some_iff.mp hws
    obtain ⟨y, hy', hyw⟩ := mem_of_forall₂ (forall₂_of_mapM hts) hw
    obtain ⟨u, -, rfl⟩ := Option.map_eq_some_iff.mp hyw
    exact hy y hy'

theorem mem_insGate {l : List (Nat × F32 × F32)} {x y : Nat × F32 × F32} : y ∈ insGate l x ↔ y = x ∨ y ∈ l := by
  induction l with
  | nil => simp [insGate]
  | cons a t ih => grind [insGate]

theorem mem_foldl_insGate {l : List (Nat × F32 × F32)} {y : Nat × F32 × F32} (m : List (Nat × F32 × F32)) : y ∈ l.foldl insGate m ↔ y ∈ l ∨ y ∈ m := by
  induction l generalizing m with
  | nil => simp
  | cons x l ih =>
    rw [List.foldl_cons, ih, mem_insGate, List.mem_cons]
    tauto

/-- At most k experts are selected, all of them scored. -/
theorem routeSelect_spec {r : RouteLayer} {ss : List (Nat × F32)} {sel : List Gate} (h : routeSelect r ss = some sel) :
    sel.length ≤ r.k ∧ ∀ g ∈ sel, ∃ s ∈ ss, g.e = s.1 := by
  simp only [routeSelect, Option.bind_eq_bind, Option.bind_eq_some_iff] at h
  obtain ⟨vs, hvs, h⟩ := h
  obtain rfl := Option.some.inj h
  refine ⟨(List.length_map _).trans_le (List.length_take_le _ _), fun g hg => ?_⟩
  obtain ⟨x, hx, rfl⟩ := List.mem_map.mp hg
  have hx' := List.mem_of_mem_filter (List.mem_of_mem_take hx)
  rw [mem_foldl_insGate] at hx'
  obtain hx' | hx' := hx'
  · obtain ⟨s, hs, hsx⟩ := mem_of_forall₂ (forall₂_of_mapM hvs) hx'
    obtain ⟨v, -, rfl⟩ := Option.map_eq_some_iff.mp hsx
    exact ⟨s, hs, rfl⟩
  · nomatch hx'

/-- Gates of the same experts in the same order. -/
def SameExperts (a b : List Gate) : Prop := a.map Gate.e = b.map Gate.e

theorem SameExperts.length {a b : List Gate} (h : SameExperts a b) : b.length = a.length := by
  have := congrArg List.length h
  simpa using this.symm

theorem sameExperts_of_mapM {f : Gate → Option Gate} (hf : ∀ a b, f a = some b → b.e = a.e) {l r : List Gate} (h : l.mapM f = some r) : SameExperts l r := by
  have h' := forall₂_of_mapM h
  clear h
  induction h' with
  | nil => rfl
  | cons hab _ ih => exact List.cons_eq_cons.mpr ⟨(hf _ _ hab).symm, ih⟩

theorem routeGates_sameExperts {r : RouteLayer} {sel gs : List Gate} (h : routeGates r sel = some gs) : SameExperts sel gs := by
  simp only [routeGates, Option.bind_eq_bind, Option.bind_eq_some_iff] at h
  obtain ⟨sum, -, h⟩ := h
  refine sameExperts_of_mapM (fun a b hab => ?_) h
  obtain ⟨v, -, hab⟩ := Option.bind_eq_some_iff.mp hab
  split at hab
  all_goals
    obtain ⟨w, -, hw⟩ := Option.bind_eq_some_iff.mp hab
    exact Option.some.inj hw ▸ rfl

theorem rescale_sameExperts {total : F32} {gs out : List Gate} (h : rescale total gs = some out) : SameExperts gs out := by
  simp only [rescale, Option.bind_eq_bind, Option.bind_eq_some_iff] at h
  obtain ⟨sum, -, h⟩ := h
  refine sameExperts_of_mapM (fun a b hab => ?_) h
  obtain ⟨v, -, hab⟩ := Option.bind_eq_some_iff.mp hab
  obtain ⟨w, -, hw⟩ := Option.bind_eq_some_iff.mp hab
  exact Option.some.inj hw ▸ rfl

/-- The floor drops gates but the first, and keeps the order. -/
theorem gateFloor_spec {r : RouteLayer} {gs out : List Gate} (h : gateFloor r gs = some out) :
    ∃ kept, SameExperts kept out ∧ kept.Sublist gs ∧ kept.head? = gs.head? := by
  unfold gateFloor at h
  split at h
  · obtain rfl := Option.some.inj h
    exact ⟨gs, rfl, .refl _, rfl⟩
  · simp only [Option.bind_eq_bind, Option.bind_eq_some_iff] at h
    obtain ⟨total, -, lim, -, h⟩ := h
    split at h
    · obtain rfl := Option.some.inj h
      exact ⟨gs, rfl, .refl _, rfl⟩
    · refine ⟨_, rescale_sameExperts h, ?_, ?_⟩
      · have := (@List.filter_sublist _ (fun g : Gate × Nat => g.2 == 0 || !f32Lt g.1.v lim) gs.zipIdx).map Prod.fst
        rwa [List.zipIdx_map_fst] at this
      · cases gs with
        | nil => rfl
        | cons g t => rfl

/-! ## The greedy sample -/

/-- The largest value so far, the first of its kind. -/
def Best (l : List (F32 × Nat)) (b : F32 × Nat) : Prop := b ∈ l ∧ ∀ x ∈ l, ¬ f32Val b.1 < f32Val x.1 ∧ (x.2 < b.2 → f32Val x.1 < f32Val b.1)

/-- One step of argmax. -/
def betterOf (b : Option (F32 × Nat)) (x : F32 × Nat) : Option (F32 × Nat) :=
  match b with
  | some y => if f32Lt y.1 x.1 then some x else b
  | none => some x

theorem argmax_eq (l : List F32) : argmax l = (l.zipIdx.foldl betterOf none).elim 0 Prod.snd := rfl

theorem betterOf_best {seen : List (F32 × Nat)} {b x : F32 × Nat} (h : Best seen b) (hx : ∀ y ∈ seen, y.2 < x.2) :
    ∃ b', betterOf (some b) x = some b' ∧ Best (seen ++ [x]) b' := by
  simp only [betterOf, f32Lt, decide_eq_true_eq]
  split
  next hlt =>
    refine ⟨x, rfl, List.mem_append_right _ List.mem_cons_self, fun y hy => ?_⟩
    obtain hy | hy := List.mem_append.mp hy
    · have := lt_of_le_of_lt (not_lt.mp (h.2 y hy).1) hlt
      exact ⟨not_lt.mpr this.le, fun _ => this⟩
    · obtain rfl := List.mem_singleton.mp hy
      exact ⟨lt_irrefl _, fun h => absurd h (lt_irrefl _)⟩
  next hge =>
    refine ⟨b, rfl, List.mem_append_left _ h.1, fun y hy => ?_⟩
    obtain hy | hy := List.mem_append.mp hy
    · exact h.2 y hy
    · obtain rfl := List.mem_singleton.mp hy
      exact ⟨hge, fun hlt => absurd (hx b h.1) (Nat.lt_asymm hlt)⟩

theorem foldl_betterOf (l : List F32) (n : Nat) {seen : List (F32 × Nat)} {b : F32 × Nat} (h : Best seen b) (hn : ∀ y ∈ seen, y.2 < n) :
    ∃ b', (l.zipIdx n).foldl betterOf (some b) = some b' ∧ Best (seen ++ l.zipIdx n) b' := by
  induction l generalizing n seen b with
  | nil => exact ⟨b, rfl, by simpa using h⟩
  | cons x l ih =>
    obtain ⟨b', hb', h'⟩ := @betterOf_best seen b (x, n) h hn
    obtain ⟨b'', hb'', h''⟩ := ih (n + 1) h' fun y hy => by
      obtain hy | hy := List.mem_append.mp hy
      · exact (hn y hy).trans (Nat.lt_succ_self n)
      · exact List.mem_singleton.mp hy ▸ Nat.lt_succ_self n
    refine ⟨b'', ?_, ?_⟩
    · rw [List.zipIdx_cons, List.foldl_cons, hb', hb'']
    · rw [List.zipIdx_cons]
      simpa only [List.append_assoc, List.singleton_append] using h''

/-- argmax answers the lowest index of the largest value. -/
theorem argmax_spec {l : List F32} (hl : l ≠ []) : argmax l < l.length ∧ ∀ j v w, l[argmax l]? = some v → l[j]? = some w →
    ¬ f32Val v < f32Val w ∧ (j < argmax l → f32Val w < f32Val v) := by
  obtain ⟨x, t, rfl⟩ := List.exists_cons_of_ne_nil hl
  obtain ⟨b, hb, hmem, hbest⟩ := @foldl_betterOf t 1 [(x, 0)] (x, 0)
    ⟨List.mem_cons_self, fun y hy => by obtain rfl := List.mem_singleton.mp hy; exact ⟨lt_irrefl _, fun h => absurd h (lt_irrefl _)⟩⟩
    fun y hy => by obtain rfl := List.mem_singleton.mp hy; exact Nat.zero_lt_one
  have hz : [(x, 0)] ++ t.zipIdx 1 = (x :: t).zipIdx := rfl
  have ha : argmax (x :: t) = b.2 := by
    rw [argmax_eq]
    exact congrArg (fun o : Option (F32 × Nat) => o.elim 0 Prod.snd) hb
  rw [hz] at hmem hbest
  rw [ha]
  obtain ⟨-, hlt, hget⟩ := List.mem_zipIdx hmem
  refine ⟨hlt.trans_eq (Nat.zero_add _), fun j v w hv hw => ?_⟩
  have hj := hbest (w, j) (List.mem_zipIdx_iff_getElem?.mpr hw)
  have hbv : b.1 = v := by
    have := List.mem_zipIdx_iff_getElem?.mp hmem
    exact Option.some.inj (this.symm.trans hv)
  exact hbv ▸ hj

/-! ## VERIFY -/

/-- The tokens a verification releases: the samples up to the first that is no draft or is a stop token. -/
theorem verifyTokens_spec {stops ds r : List Nat} {ss : List (Option Nat)} (hs : ss ≠ []) (h : verifyTokens stops ss ds = some r) :
    1 ≤ r.length ∧ r.length ≤ ss.length ∧ r.map some <+: ss ∧ r.dropLast <+: ds ∧ ∀ t ∈ r.dropLast, t ∉ stops := by
  induction ss generalizing ds r with
  | nil => exact absurd rfl hs
  | cons s ss ih =>
    have one (v : Nat) (hv : s = some v) (hr : r = [v]) : 1 ≤ r.length ∧ r.length ≤ (s :: ss).length ∧ r.map some <+: s :: ss ∧ r.dropLast <+: ds ∧
        ∀ t ∈ r.dropLast, t ∉ stops := by
      subst hr hv
      exact ⟨le_rfl, Nat.succ_le_succ (Nat.zero_le _), ⟨ss, rfl⟩, List.nil_prefix, fun t ht => nomatch ht⟩
    match s, ds, h with
    | none, _, h => nomatch h
    | some v, [], h => exact one v rfl (Option.some.inj h).symm
    | some v, d :: ds, h =>
      rw [verifyTokens] at h
      split at h
      · exact one v rfl (Option.some.inj h).symm
      next hne =>
        obtain ⟨r', hr', rfl⟩ := Option.map_eq_some_iff.mp h
        by_cases hss : ss = []
        · subst hss
          obtain rfl : [] = r' := Option.some.inj hr'
          exact one v rfl rfl
        · obtain ⟨h1, h2, h3, h4, h5⟩ := ih hss hr'
          obtain ⟨w, t, rfl⟩ := List.exists_cons_of_length_pos h1
          simp only [Bool.or_eq_true, bne_iff_ne, ne_eq, List.contains_eq_mem, decide_eq_true_eq, not_or, not_not] at hne
          refine ⟨Nat.succ_le_succ (Nat.zero_le _), Nat.succ_le_succ h2, List.cons_prefix_cons.mpr ⟨rfl, h3⟩, ?_, ?_⟩
          · rw [List.dropLast_cons_of_ne_nil (List.cons_ne_nil _ _)]
            exact List.cons_prefix_cons.mpr ⟨hne.1, h4⟩
          · rw [List.dropLast_cons_of_ne_nil (List.cons_ne_nil _ _)]
            exact List.forall_mem_cons.mpr ⟨hne.2, h5⟩

end Sys2Proof.Machine
end

section
/-! PROOF. ROUTE, COMBINE, SAMPLE, VERIFY and ADAPT of one lane on wings operands (R164 to R181, R401). -/
namespace Sys2Proof.Machine
variable {d : Dev}

/-! ## A kernel of one lane -/

/-- A kernel that is performed on one lane with its vector in wings, without the detector. -/
structure LaneRun (d : Dev) (k : KernelCue) (t : Tok) (p₀ : Nat) : Prop where
  cues : d.cues = true
  haz : (d.threadRuns k).hazActive = false
  noClear : k.clear = false
  toks : ∀ fam, (d.krun fam k).toks = [some t]
  ready : d.opsOutstanding (d.krun 0 k) = none
  vec : (d.threadRuns k).opAt (d.krun 0 k) k.op0 (opSize k.op0) 0 = some (true, p₀)
  vecAllowed : (d.threadRuns k).refusedBank t.tenant false p₀ (opSize k.op0) = none

/-- The kernel records an error and discards its step. -/
structure KernelFails (e : Dev) (t : Tok) (d : Dev) : Prop where
  mem : d.mem = e.mem
  seq : d.err.nextSeq = e.err.nextSeq + 1
  lanes : d.frm.lanesOf t.ex t.ey t.session = []

/-- The kernel writes bytes into the wings, with no error and no lane moved. -/
structure KernelWrites (e d : Dev) (p : Nat) (bs : List Byte) : Prop where
  mem : d.mem = { e.mem with wings := wrN e.mem.wings p bs }
  err : d.err = e.err
  frm : d.frm = e.frm

theorem Dev.engineError_fails (hb : d.sys.st ≠ .blackout) (z : KRun) (code : Nat) (t : Tok) (verdict : Nat) :
    KernelFails d t (d.engineError z code [t.step] verdict) := by
  obtain ⟨hm, -, hs⟩ := Dev.contain_spec d { code := code, cls := 1, kind := 4, unit := z.k.engine.toNat, slot := z.slot, cue := z.num, verdict := verdict, detail := z.detail }
    [t.step] 1
  exact ⟨hm, hs hb, Dev.contain_lanesOf _ _ _ _⟩

section
variable {z : KRun} {t : Tok} (hz : z.toks = [some t])
include hz

/-- The output's row of one lane, in wings. -/
theorem Dev.outRow_wings {size p : Nat} (hp : d.opAt z z.k.op3 size 0 = some (true, p)) (bs : List Byte) :
    d.outRow z size 0 bs = d.wingsWr t p bs z.slot z.num := by
  simp [Dev.outRow, hp, Dev.kWrite, KRun.tokAt_of_toks hz]

theorem Dev.outRow_writes {size p : Nat} {bs : List Byte} (haz : d.hazActive = false) (hp : d.opAt z z.k.op3 size 0 = some (true, p))
    (ha : d.refusedBank t.tenant true p bs.length = none) : d.outRow z size 0 bs = { d with mem := { d.mem with wings := wrN d.mem.wings p bs } } := by
  rw [Dev.outRow_wings hz hp]
  exact Dev.wingsWr_allowed haz ha ..
end

namespace LaneRun
variable {k : KernelCue} {t : Tok} {p₀ : Nat} (h : LaneRun d k t p₀)
include h

/-- The kernel comes to its family's run. -/
theorem kernel_eq (fam : Nat) (run : KRun → Dev → Dev) : d.kernel fam k run = run (d.krun fam k) (d.threadRuns k) := by
  have ready : d.opsOutstanding (d.krun fam k) = none := h.ready
  have thread : d.runThread (d.krun fam k) = d.threadRuns k := rfl
  simp [Dev.kernel, h.cues, KRun.present_of_toks (h.toks fam), ready, thread, h.noClear, orderBroken]

theorem notBlack : (d.threadRuns k).sys.st ≠ .blackout := by
  rw [(Dev.runThread_spec _).2]
  exact Dev.st_ne_blackout_of_cues h.cues

/-- The vector's bytes as the run of any family reads them. -/
theorem opRow_vec (fam : Nat) : (d.threadRuns k).opRow (d.krun fam k) k.op0 0 =
    (d.threadRuns k, rdN (d.threadRuns k).mem.wings p₀ (opSize k.op0)) :=
  Dev.opRow_wings (h.toks fam) h.haz h.vec h.vecAllowed

theorem fails (fam code : Nat) : KernelFails (d.threadRuns k) t ((d.threadRuns k).engineError (d.krun fam k) code (d.krun fam k).steps) := by
  rw [KRun.steps_of_toks (h.toks fam)]
  exact Dev.engineError_fails h.notBlack ..

theorem tok_ne (fam : Nat) : (d.krun fam k).toks.zipIdx = [(some t, 0)] := by rw [h.toks]; rfl

end LaneRun

/-! ## ROUTE and ADAPT -/

theorem gateBytes_length (n : Nat) (gs : List Gate) : (gateBytes n gs).length = 8 * n := by
  induction n with
  | zero => rfl
  | succ n ih =>
    rw [gateBytes] at ih ⊢
    rw [List.range_succ, List.flatMap_append, List.length_append, ih, List.flatMap_singleton]
    split <;> simp [leBytes] <;> omega

namespace LaneRun
variable {k : KernelCue} {t : Tok} {p₀ : Nat} (h : LaneRun d k t p₀)
include h

/-- ROUTE: the routing row at p₃, or the error of R153. -/
theorem route {p₃ : Nat} (hp : (d.threadRuns k).opAt (d.krun 0 k) k.op3 (8 * ((d.threadRuns k).routeLayer k.layer.toNat).k) 0 = some (true, p₃))
    (ha : (d.threadRuns k).refusedBank t.tenant true p₃ (8 * ((d.threadRuns k).routeLayer k.layer.toNat).k) = none) :
    let r := (d.threadRuns k).routeLayer k.layer.toNat
    let row := (rowF32 k.op0.fmt (rdN (d.threadRuns k).mem.wings p₀ (opSize k.op0)) k.op0.elems.toNat).bind fun zs => routeRow r (zs.take r.e)
    (∀ g, row = some g → KernelWrites (d.threadRuns k) (d.kernel 6 k routeRun) p₃ (gateBytes r.k g.1)) ∧
    (row = none → KernelFails (d.threadRuns k) t (d.kernel 6 k routeRun)) := by
  intro r row
  have hgo : (do
      let l ← some ([] : List (Nat × List Gate × Nat))
      let zs ← rowF32 k.op0.fmt (rdN (d.threadRuns k).mem.wings p₀ (opSize k.op0)) k.op0.elems.toNat
      let g ← routeRow r (zs.take r.e)
      some (l ++ [(0, g.1, g.2)])) = row.map fun g => [(0, g.1, g.2)] := by
    simp only [row, Option.bind_eq_bind, Option.bind_some, List.nil_append, Option.map_eq_bind, Option.bind_assoc]
    rfl
  rw [h.kernel_eq]
  simp only [routeRun, h.tok_ne, List.foldl_cons, List.foldl_nil, Dev.krun_k, h.opRow_vec]
  rw [hgo]
  cases hrow : row with
  | none => exact ⟨nofun, fun _ => h.fails 6 0x0402⟩
  | some g =>
    refine ⟨fun g' hg => ?_, nofun⟩
    obtain rfl := Option.some.inj hg
    have ht : ((d.krun 6 k).toks.getD 0 none).isSome = true := by rw [h.toks]; rfl
    simp only [Option.map_some, List.foldl_cons, List.foldl_nil, ht, if_true]
    rw [Dev.outRow_writes (h.toks 6) h.haz hp (by rw [gateBytes_length]; exact ha)]
    exact ⟨rfl, rfl, rfl⟩

/-- SAMPLE and VERIFY of one position read its logits. -/
theorem logits (fam : Nat) : (d.threadRuns k).logits (d.krun fam k) = (d.threadRuns k,
    (rowF32 k.op0.fmt (rdN (d.threadRuns k).mem.wings p₀ (opSize k.op0)) k.op0.elems.toNat).map fun l => [(0, t, l)]) := by
  simp only [Dev.logits, h.tok_ne, List.foldl_cons, List.foldl_nil, Dev.krun_k, h.opRow_vec]
  cases rowF32 k.op0.fmt (rdN (d.threadRuns k).mem.wings p₀ (opSize k.op0)) k.op0.elems.toNat <;> rfl

/-- ADAPT of a token without an adapter only runs its thread. -/
theorem adapt_none (ht : t.adp = false) : d.kernel 10 k adaptRun = d.threadRuns k := by
  rw [h.kernel_eq]
  simp only [adaptRun, h.tok_ne, KRun.present_of_toks (h.toks 10), List.foldl_cons, List.foldl_nil, ht, List.filter_cons, Bool.false_and, Bool.false_eq_true,
    if_false, List.filter_nil, List.map_nil, List.dedup_nil, List.isEmpty_nil, if_true, Bool.not_false, Bool.true_or]

/-- ADAPT through a slot that is not READY is an error. -/
theorem adapt_notReady (ht : t.adp = true) (hr : ∀ x, sget (d.threadRuns k).call.adpSlots t.adapter = some x → x.ready = false) :
    KernelFails (d.threadRuns k) t (d.kernel 10 k adaptRun) := by
  have hok (m : Option AdpMat) (i o : Nat) : (d.threadRuns k).adpOk t m i o = false := by
    unfold Dev.adpOk
    split
    next x hx => simp [hr x hx]
    · rfl
  rw [h.kernel_eq]
  have hne : (List.filter (fun u => u.adp && !(d.threadRuns k).adpOk u ((d.threadRuns k).adpMat u.adapter (d.krun 10 k).kc.point) k.op0.elems.toNat
      k.op3.elems.toNat) [t]).map Tok.step = [t.step] := by
    simp [ht, hok]
  simp only [adaptRun, h.tok_ne, KRun.present_of_toks (h.toks 10), Dev.krun_k]
  rw [hne]
  simp
  exact Dev.engineError_fails h.notBlack ..

/-- ADAPT of a usable adapter: the merged output at p₃, or the error of R153. -/
theorem adapt_merges {m : AdpMat} {p₁ p₃ : Nat} (hs : k.stoch = false) (ht : t.adp = true)
    (hm : (d.threadRuns k).adpMat t.adapter (d.krun 0 k).kc.point = some m)
    (hok : (d.threadRuns k).adpOk t (some m) k.op0.elems.toNat k.op3.elems.toNat = true)
    (h₁ : (d.threadRuns k).opAt (d.krun 0 k) k.op1 (opSize k.op1) 0 = some (true, p₁))
    (ha : (d.threadRuns k).refusedBank t.tenant false p₁ (opSize k.op1) = none)
    (h₃ : (d.threadRuns k).opAt (d.krun 0 k) k.op3 (opSize k.op3) 0 = some (true, p₃)) :
    let r := (rowAt k.op0.fmt (rdN (d.threadRuns k).mem.wings p₀ (opSize k.op0)) k.op0.elems.toNat).bind fun xs =>
      (rowF32 k.op1.fmt (rdN (d.threadRuns k).mem.wings p₁ (opSize k.op1)) k.op3.elems.toNat).bind fun ys =>
        (d.threadRuns k).adaptRow m k.op0.elems.toNat k.op3.elems.toNat xs ys
    (∀ vs, r = some vs → (d.threadRuns k).refusedBank t.tenant true p₃ (encodeRow k.op3.fmt vs).length = none →
      KernelWrites (d.threadRuns k) (d.kernel 10 k adaptRun) p₃ (encodeRow k.op3.fmt vs)) ∧
    (r = none → KernelFails (d.threadRuns k) t (d.kernel 10 k adaptRun)) := by
  intro r
  have hrow₁ : (d.threadRuns k).opRow (d.krun 10 k) k.op1 0 = (d.threadRuns k, rdN (d.threadRuns k).mem.wings p₁ (opSize k.op1)) :=
    Dev.opRow_wings (h.toks 10) h.haz h₁ ha
  have hm' : (d.threadRuns k).adpMat t.adapter (d.krun 10 k).kc.point = some m := hm
  have hgo : (do
      let l ← some ([] : List (Nat × List Res))
      let xs ← rowAt k.op0.fmt (rdN (d.threadRuns k).mem.wings p₀ (opSize k.op0)) k.op0.elems.toNat
      let ys ← rowF32 k.op1.fmt (rdN (d.threadRuns k).mem.wings p₁ (opSize k.op1)) k.op3.elems.toNat
      let r ← (d.threadRuns k).adaptRow m k.op0.elems.toNat k.op3.elems.toNat xs ys
      some (l ++ [(0, r)])) = r.map fun r => [(0, r)] := by
    simp only [r, Option.bind_eq_bind, Option.bind_some, List.nil_append, Option.map_eq_bind, Option.bind_assoc]
    rfl
  rw [h.kernel_eq]
  simp only [adaptRun, h.tok_ne, KRun.present_of_toks (h.toks 10), Dev.krun_k, List.filter_cons, List.filter_nil, ht, hm', hok, Bool.not_true, Bool.and_false,
    Bool.false_eq_true, if_false, List.map_nil, List.dedup_nil, List.isEmpty_nil, if_true, List.foldl_cons, List.foldl_nil, List.contains_nil, Bool.false_or,
    h.opRow_vec, hrow₁]
  rw [hgo]
  cases hr : r with
  | none => exact ⟨nofun, fun _ => h.fails 10 0x0402⟩
  | some vs =>
    refine ⟨fun vs' hvs ha₃ => ?_, nofun⟩
    obtain rfl := Option.some.inj hvs
    simp only [Option.map_some, List.foldl_cons, List.foldl_nil]
    rw [Dev.outRes_wings (h.toks 10) hs h₃, Dev.krun_k, Dev.wingsWr_allowed h.haz ha₃]
    exact ⟨rfl, rfl, rfl⟩

end LaneRun

/-! ## A step's sample -/

/-- The step of a token after its session's steps changed, but for session and discard. -/
theorem Dev.stepOf_modStep {t : Tok} {x : Step} {f : Step → Step} (hx : d.stepOf t = some x) (hf : ∀ y, (f y).session = y.session ∧ (f y).discard = y.discard) :
    (d.modStep t.session f).stepOf t = some (f x) := by
  unfold Dev.stepOf at hx ⊢
  have hc : (d.modStep t.session f).coord = d.coord := rfl
  rw [hc]
  split at hx
  next ho =>
    rw [if_pos ho]
    have hs : x.session = t.session := by
      have := List.find?_some hx
      simp only [Bool.and_eq_true, beq_iff_eq] at this
      exact this.1
    show List.find? _ (d.call.steps.map fun y => if y.session == t.session then f y else y) = _
    have hp (y : Step) : ((fun y : Step => y.session == t.session && y.discard.isNone) (if y.session == t.session then f y else y)) =
        (y.session == t.session && y.discard.isNone) := by
      dsimp only
      split
      · rw [(hf y).1, (hf y).2]
      · rfl
    rw [List.find?_map]
    have hpf : (fun y : Step => y.session == t.session && y.discard.isNone) ∘ (fun y => if y.session == t.session then f y else y) =
        fun y => y.session == t.session && y.discard.isNone := funext hp
    rw [hpf, hx, Option.map_some, if_pos (beq_iff_eq.mpr hs)]
  next => nomatch hx

theorem Dev.stepOf_session {t : Tok} {x : Step} (hx : d.stepOf t = some x) : x.session = t.session := by
  unfold Dev.stepOf at hx
  split at hx
  · have := List.find?_some hx
    simp only [Bool.and_eq_true, beq_iff_eq] at this
    exact this.1
  · nomatch hx

/-- The token ids of a kernel of one lane. -/
theorem Dev.outTokens_one {z : KRun} {t : Tok} (hz : z.toks = [some t]) (ids : List (Nat × Nat)) :
    d.outTokens z ids = d.outRow z 4 0 (leBytes 4 ((ids.find? fun e => e.1 == 0).elim 0 Prod.snd)) := by
  simp [Dev.outTokens, hz]

/-- The step of a token released one: its token written at p, and the step marked sampled. -/
structure Releases (e d : Dev) (t : Tok) (p tok : Nat) : Prop where
  writes : KernelWrites e d p (leBytes 4 tok)
  step : ∃ y, d.stepOf t = some y ∧ y.sampled = true ∧ y.released = [tok]

theorem Dev.outTokens_releases {z : KRun} {t : Tok} {p tok : Nat} {x : Step} {ids : List (Nat × Nat)} (hz : z.toks = [some t]) (haz : d.hazActive = false)
    (hp : d.opAt z z.k.op3 4 0 = some (true, p)) (ha : d.refusedBank t.tenant true p 4 = none) (hx : d.stepOf t = some x)
    (hid : (ids.find? fun e => e.1 == 0) = some (0, tok)) :
    Releases d ((d.modStep t.session fun x => { x with sampled := true, released := [tok] }).outTokens z ids) t p tok := by
  have hl : (leBytes 4 tok).length = 4 := rfl
  rw [Dev.outTokens_one hz, hid]
  have hw := @Dev.outRow_writes (d.modStep t.session fun x => { x with sampled := true, released := [tok] }) z t hz 4 p (leBytes 4 tok) haz hp (by rw [hl]; exact ha)
  rw [show (Option.elim (some (0, tok)) 0 Prod.snd : Nat) = tok from rfl, hw]
  exact ⟨⟨rfl, rfl, rfl⟩, _, @Dev.stepOf_modStep d t x (fun x => { x with sampled := true, released := [tok] }) hx fun y => ⟨rfl, rfl⟩, rfl, rfl⟩

namespace LaneRun
variable {k : KernelCue} {t : Tok} {p₀ : Nat} (h : LaneRun d k t p₀)
include h

section
variable {p₃ : Nat} {x : Step} (hx : (d.threadRuns k).stepOf t = some x) (hs : x.sampled = false) (hk : x.kEff = 0) (hf : x.prefillOnly = false)
  (hpos : t.pos = x.lastPos) (hp : (d.threadRuns k).opAt (d.krun 0 k) k.op3 4 0 = some (true, p₃))
  (ha : (d.threadRuns k).refusedBank t.tenant true p₃ 4 = none)
include hx hs hk hf hpos hp ha

/-- SAMPLE of the last position: its token is released, or the error of R153. -/
theorem sample : let row := (rowF32 k.op0.fmt (rdN (d.threadRuns k).mem.wings p₀ (opSize k.op0)) k.op0.elems.toNat).bind fun l => (d.threadRuns k).sampleAt t l
    (∀ tok, row = some tok → Releases (d.threadRuns k) (d.kernel 8 k sampleRun) t p₃ tok) ∧
    (row = none → KernelFails (d.threadRuns k) t (d.kernel 8 k sampleRun)) := by
  intro row
  rw [h.kernel_eq]
  simp only [sampleRun, h.logits, row]
  cases rowF32 k.op0.fmt (rdN (d.threadRuns k).mem.wings p₀ (opSize k.op0)) k.op0.elems.toNat with
  | none => exact ⟨nofun, fun _ => h.fails 8 0x0402⟩
  | some l =>
    simp only [Option.map_some, Option.bind_some, List.mapM_cons, List.mapM_nil, hx, hs, Bool.false_eq_true, if_false]
    cases (d.threadRuns k).sampleAt t l with
    | none => exact ⟨nofun, fun _ => h.fails 8 0x0402⟩
    | some tok =>
      refine ⟨fun tok' he => ?_, nofun⟩
      obtain rfl := Option.some.inj he
      have hsam (g : Nat) : (d.threadRuns k).sampled t tok g = (d.threadRuns k).modStep t.session fun x => { x with sampled := true, released := [tok] } := by
        simp [Dev.sampled, hx, hs, hk, hf, hpos]
      simp only [Option.map_some, Option.bind_eq_bind, Option.bind_some, Option.pure_def, List.foldl_cons, List.foldl_nil, List.map_cons, List.map_nil, hsam]
      exact Dev.outTokens_releases (h.toks 8) h.haz hp ha hx rfl

/-- VERIFY of a step without drafts does the same. -/
theorem verify : let row := (rowF32 k.op0.fmt (rdN (d.threadRuns k).mem.wings p₀ (opSize k.op0)) k.op0.elems.toNat).bind fun l => (d.threadRuns k).sampleAt t l
    (∀ tok, row = some tok → Releases (d.threadRuns k) (d.kernel 9 k verifyRun) t p₃ tok) ∧
    (row = none → KernelFails (d.threadRuns k) t (d.kernel 9 k verifyRun)) := by
  intro row
  have hses := Dev.stepOf_session hx
  rw [h.kernel_eq]
  simp only [verifyRun, h.logits, row]
  cases rowF32 k.op0.fmt (rdN (d.threadRuns k).mem.wings p₀ (opSize k.op0)) k.op0.elems.toNat with
  | none => exact ⟨nofun, fun _ => h.fails 9 0x0402⟩
  | some l =>
    have hstep : (d.threadRuns k).verifyStep [(0, t, l)] x = ((d.threadRuns k).sampleAt t l).map fun tok =>
        (d.threadRuns k).modStep x.session fun y => { y with sampled := true, released := [tok] } := by
      simp [Dev.verifyStep, hk, hs, hf, hses, hpos]
      cases (d.threadRuns k).sampleAt t l <;> simp [verifyTokens]
    simp only [Option.map_some, Option.bind_some, KRun.present_of_toks (h.toks 9), List.filterMap_cons, hx, List.filterMap_nil, List.dedup_cons_of_notMem,
      List.not_mem_nil, not_false_eq_true, List.dedup_nil, List.foldlM_cons, List.foldlM_nil, hstep]
    cases (d.threadRuns k).sampleAt t l with
    | none => exact ⟨nofun, fun _ => h.fails 9 0x0402⟩
    | some tok =>
      refine ⟨fun tok' he => ?_, nofun⟩
      obtain rfl := Option.some.inj he
      obtain ⟨y, hy, hyl, hyr⟩ : ∃ y, ((d.threadRuns k).modStep t.session fun y => { y with sampled := true, released := [tok] }).stepOf t = some y ∧
          y.lastPos = t.pos ∧ y.released = [tok] := ⟨_, Dev.stepOf_modStep hx fun y => ⟨rfl, rfl⟩, hpos.symm, rfl⟩
      simp only [Option.map_some, Option.bind_eq_bind, Option.bind_some, Option.pure_def, hses, h.tok_ne, List.filterMap_cons, List.filterMap_nil, hy, hyl, hyr,
        le_refl, if_true, Nat.sub_self, List.getElem?_cons_zero]
      exact Dev.outTokens_releases (h.toks 9) h.haz hp ha hx rfl
end
end LaneRun

/-! ## COMBINE -/

/-- What reading operands keeps without the detector: the script and STATE. -/
structure Reads (d e : Dev) : Prop where
  scr : e.scr = d.scr
  st : e.sys.st = d.sys.st

theorem Dev.opAt_of {e : Dev} (hs : e.scr = d.scr) (hf : e.frm = d.frm) (z : KRun) (o : KOperand) (size i : Nat) : e.opAt z o size i = d.opAt z o size i := by
  simp only [Dev.opAt, Dev.laneBuf, Dev.laneMaps, Dev.template, Dev.window, hs, hf]

theorem Reads.refl (d : Dev) : Reads d d := ⟨rfl, rfl⟩

section
variable {e : Dev} (h : Reads d e) (haz : d.hazActive = false)
include h

theorem Reads.contain (i : ErrIn) (ts : List (Nat × Nat × Nat)) (cause : Nat) : Reads d (e.contain i ts cause) :=
  ⟨(Dev.contain_scr ..).trans h.scr, (Dev.contain_st ..).trans h.st⟩

theorem Reads.modMem (f : Mem → Mem) : Reads d (e.modMem f) := ⟨h.scr, h.st⟩

theorem Reads.modCall (f : Call → Call) : Reads d (e.modCall f) := ⟨h.scr, h.st⟩

theorem Reads.hazActive : e.hazActive = d.hazActive := by
  simp only [Dev.hazActive, h.scr]

include haz

theorem Reads.wingsRd (t : Tok) (a n slot cue operand : Nat) : Reads d (e.wingsRd t a n slot cue operand).1 := by
  unfold Dev.wingsRd
  split
  · dsimp only [Dev.refuseWings]
    exact (h.modMem _).contain ..
  · rwa [Dev.hazRead_off (h.hazActive.trans haz)]

theorem Reads.kRead (z : KRun) (p : Bool × Nat) (n i operand : Nat) : Reads d (e.kRead z p n i operand).1 := by
  unfold Dev.kRead
  rw [Dev.hazRead_off (h.hazActive.trans haz)]
  split
  · exact h.wingsRd haz ..
  · dsimp only
    split
    · dsimp only [Dev.engineError]
      exact (h.modMem _).contain ..
    · exact h

theorem Reads.opRow (z : KRun) (o : KOperand) (i : Nat) : Reads d (e.opRow z o i).1 := by
  unfold Dev.opRow
  split
  · exact h.kRead haz ..
  · exact h

theorem Reads.combineRow (z : KRun) (i : Nat) : Reads d (e.combineRow z i).1 := by
  unfold Dev.combineRow
  dsimp only
  have shared (c : Prop) [Decidable c] {x : Dev} (hx : Reads d x) : Reads d (if c then x.opRow z z.k.op2 i else (x, [])).1 := by
    split
    · exact hx.opRow haz ..
    · exact hx
  refine (shared _ (foldl_keeps (fun a : Dev × List (Gate × List Byte) => Reads d a.1) _ (fun a g ha => ?_) _ _ ?_)).modCall _
  · split
    · exact ha.wingsRd haz ..
    · exact ha
  · split
    · exact h.kRead haz ..
    · exact h
end

namespace LaneRun
variable {k : KernelCue} {t : Tok} {p₀ : Nat} (h : LaneRun d k t p₀)
include h

/-- COMBINE of a step whose return is lost discards it. -/
theorem combine_lost (he : t.encHeld = false) (hd : (d.threadRuns k).eng.delayed.contains (t.ex, t.ey, t.session, k.layer.toNat) = false)
    (hl : (d.threadRuns k).lostReturn (d.krun 0 k) 0 = true) : d.kernel 7 k combineRun = (d.threadRuns k).discardTok t.step 1 := by
  have hl' : (d.threadRuns k).lostReturn (d.krun 7 k) 0 = true := hl
  rw [h.kernel_eq]
  simp only [combineRun, h.tok_ne, List.filterMap_cons, List.filterMap_nil, Option.bind_some, hl', if_true, Dev.missedReturns, List.foldl_cons, List.foldl_nil,
    Dev.krun_k, hd, he, List.contains_nil, Bool.or_false, Bool.false_eq_true, if_false, Bool.not_false, List.nil_append]
  rw [h.toks]
  simp

/-- COMBINE of a step with its returns writes their sum at p₃, or is the error of R153. -/
theorem combine_sums {p₃ : Nat} (hst : k.stoch = false) (hd : (d.threadRuns k).eng.delayed.contains (t.ex, t.ey, t.session, k.layer.toNat) = false)
    (hl : (d.threadRuns k).lostReturn (d.krun 0 k) 0 = false) (hm : ((d.threadRuns k).combineRow (d.krun 7 k) 0).1.mem = (d.threadRuns k).mem)
    (her : ((d.threadRuns k).combineRow (d.krun 7 k) 0).1.err = (d.threadRuns k).err) (hf : ((d.threadRuns k).combineRow (d.krun 7 k) 0).1.frm = (d.threadRuns k).frm)
    (hp : (d.threadRuns k).opAt (d.krun 0 k) k.op3 (opSize k.op3) 0 = some (true, p₃)) :
    (∀ vs, ((d.threadRuns k).combineRow (d.krun 7 k) 0).2 = some vs → (d.threadRuns k).refusedBank t.tenant true p₃ (encodeRow k.op3.fmt vs).length = none →
      KernelWrites (d.threadRuns k) (d.kernel 7 k combineRun) p₃ (encodeRow k.op3.fmt vs)) ∧
    (((d.threadRuns k).combineRow (d.krun 7 k) 0).2 = none → KernelFails (d.threadRuns k) t (d.kernel 7 k combineRun)) := by
  have hl' : (d.threadRuns k).lostReturn (d.krun 7 k) 0 = false := hl
  have hz : ({ d.krun 7 k with toks := [some t] } : KRun) = d.krun 7 k := by rw [← h.toks 7]
  have hr := (Reads.refl (d.threadRuns k)).combineRow h.haz (d.krun 7 k) 0
  have heq : d.kernel 7 k combineRun = (d.threadRuns k).rows (d.krun 7 k) fun e i _ => e.combineRow (d.krun 7 k) i := by
    rw [h.kernel_eq]
    simp only [combineRun, h.tok_ne, List.filterMap_cons, List.filterMap_nil, Option.bind_some, hl', Bool.false_eq_true, if_false, Dev.missedReturns, List.foldl_nil,
      List.foldl_cons, Dev.krun_k, hd]
    rw [h.toks]
    have hd' : (t.ex, t.ey, t.session, k.layer.toNat) ∉ (d.threadRuns k).eng.delayed := by simpa using hd
    simp [hd', Option.filter_some]
    show (d.threadRuns k).rows { d.krun 7 k with toks := [some t] } (fun e i _ => e.combineRow { d.krun 7 k with toks := [some t] } i) = _
    rw [hz]
  rw [heq]
  have haz' : ((d.threadRuns k).combineRow (d.krun 7 k) 0).1.hazActive = false := hr.hazActive.trans h.haz
  have hop : ((d.threadRuns k).combineRow (d.krun 7 k) 0).1.opAt (d.krun 7 k) (d.krun 7 k).k.op3 (opSize k.op3) 0 = some (true, p₃) := by
    have hp₇ : (d.threadRuns k).opAt (d.krun 7 k) k.op3 (opSize k.op3) 0 = some (true, p₃) := hp
    exact (Dev.opAt_of hr.scr hf ..).trans hp₇
  have hb : ((d.threadRuns k).combineRow (d.krun 7 k) 0).1.sys.st ≠ .blackout := fun hb => h.notBlack (hr.st.symm.trans hb)
  clear hr
  generalize hx : (d.threadRuns k).combineRow (d.krun 7 k) 0 = x at hm her hf haz' hop hb
  obtain ⟨e, r⟩ := x
  dsimp only at hm her hf haz' hop hb
  cases r with
  | none =>
    have hrow : (fun (d₀ : Dev) (i : Nat) (_ : Tok) => d₀.combineRow (d.krun 7 k) i) (d.threadRuns k) 0 t = (e, none) := hx
    rw [Dev.rows_none (h.toks 7) hrow]
    have hfl := Dev.engineError_fails hb (d.krun 7 k) 0x0402 t 0
    exact ⟨nofun, fun _ => ⟨hfl.mem.trans hm, hfl.seq.trans (congrArg (fun e : Err => e.nextSeq + 1) her), hfl.lanes⟩⟩
  | some vs =>
    refine ⟨fun vs' hvs ha => ?_, nofun⟩
    obtain rfl := Option.some.inj hvs
    have ha' : e.refusedBank t.tenant true p₃ (encodeRow (d.krun 7 k).k.op3.fmt vs).length = none := by
      unfold Dev.refusedBank at ha ⊢
      rw [show e.mem = (d.threadRuns k).mem from hm]
      exact ha
    have hrow : (fun (d₀ : Dev) (i : Nat) (_ : Tok) => d₀.combineRow (d.krun 7 k) i) (d.threadRuns k) 0 t = (e, some vs) := hx
    rw [Dev.rows_some (h.toks 7) hrow, Dev.outRes_wings (h.toks 7) hst hop, Dev.wingsWr_allowed haz' ha']
    refine ⟨?_, her, hf⟩
    rw [← show e.mem = (d.threadRuns k).mem from hm]
    rfl
end LaneRun

/-! ## The statement -/

/-- Settles O37: the pure rules, and each family's run of one lane. -/
theorem routingChoosesEnabledExperts : Obligations.RoutingChoosesEnabledExperts := by
  refine ⟨fun r z ss sel gs out hss hsel hgs hout => ?_, fun l temp k p r ht hl => ?_, fun stops ds r ss hs h => verifyTokens_spec hs h, ?_⟩
  case refine_1 =>
    obtain ⟨hk, hsc⟩ := routeSelect_spec hsel
    have hg := routeGates_sameExperts hgs
    obtain ⟨kept, ho, hsub, hh⟩ := gateFloor_spec hout
    have hle : out.length ≤ sel.length := ho.length.trans_le (hsub.length_le.trans hg.length.le)
    refine ⟨hk, fun g hg' => ?_, hle, fun g hg' => ?_⟩
    · have he : g.e ∈ sel.map Gate.e := by
        rw [show sel.map Gate.e = gs.map Gate.e from hg]
        exact (hsub.map Gate.e).subset ((show kept.map Gate.e = out.map Gate.e from ho) ▸ List.mem_map_of_mem hg')
      obtain ⟨g', hg'', he'⟩ := List.mem_map.mp he
      obtain ⟨s, hs, hgs'⟩ := hsc g' hg''
      obtain ⟨hlt, hmask⟩ := routeScores_enabled hss s hs
      rw [← he', hgs']
      exact ⟨hlt, hmask⟩
    · have hmap : (out.map Gate.e).head? = some g.e := by
        rw [← show kept.map Gate.e = out.map Gate.e from ho, List.head?_map, hh, hg']
        rfl
      rw [List.head?_map] at hmap
      obtain ⟨g', hg'', he⟩ := Option.map_eq_some_iff.mp hmap
      exact ⟨g'.v, hg''.trans (congrArg some (by rw [← he]))⟩
  case refine_2 =>
    obtain ⟨hi, h⟩ := argmax_spec hl
    exact ⟨argmax l, by rw [sampleToken, if_pos ht], hi, h⟩
  case refine_3 =>
    intro s k t p₀ d₀ z d₁ hwf hcues haz hn hclear hlane hseg hready hvec hva
    have h : LaneRun d₀ k t p₀ := ⟨hcues, haz, hclear, Dev.krun_toks hn hlane hseg, hready, hvec, hva⟩
    intro fails row wrote
    have hfails {d : Dev} (hf : KernelFails d₁ t d) : fails d := ⟨hf.mem, hf.seq, hf.lanes⟩
    have hwrote {d : Dev} {p : Nat} {bs : List Byte} (hw : KernelWrites d₁ d p bs) : wrote d p bs := ⟨hw.mem, hw.err, hw.frm⟩
    refine ⟨fun p₃ => ?_, fun he hd hl => ?_, fun p₃ hs hd hl hm her hf hp => ?_, fun p₃ x hx hs hk hf hpos hp ha c hc => ?_, fun ht => ?_, fun ht hr => ?_,
      fun m p₁ p₃ hs ht hm hok h₁ ha h₃ => ?_⟩
    · intro r hp ha
      obtain ⟨hw, hn⟩ := h.route hp ha
      exact State.givesWith_onCue hwf rfl ⟨fun g hg => hwrote (hw g hg), fun hg => hfails (hn hg)⟩
    · refine State.givesWith_onCue hwf rfl ?_
      rw [h.combine_lost he hd hl]
      obtain ⟨-, -, hlanes⟩ := d₁.discardTok_spec t.step 1
      exact ⟨Dev.discardTok_mem .., hlanes, congrArg (fun w => w.1) (Dev.discardTok_wins d₁ t.step 1)⟩
    · obtain ⟨hw, hn⟩ := h.combine_sums hs hd hl hm her hf hp
      exact State.givesWith_onCue hwf rfl ⟨fun vs hv ha => hwrote (hw vs hv ha), fun hv => hfails (hn hv)⟩
    · have both {c' : Instr} {fam : Nat} {run : KRun → Dev → Dev} (hexec : exec c' s = s.onCue (k.wf true) (Dev.kernel fam k run))
          (hr : (∀ tok, row.bind (d₁.sampleAt t) = some tok → Releases d₁ (d₀.kernel fam k run) t p₃ tok) ∧
            (row.bind (d₁.sampleAt t) = none → KernelFails d₁ t (d₀.kernel fam k run))) : GivesWith c' s fun d =>
          (∀ tok, (row.bind fun l => d₁.sampleAt t l) = some tok → wrote d p₃ (leBytes 4 tok) ∧ ∃ y, d.stepOf t = some y ∧ y.sampled = true ∧ y.released = [tok]) ∧
          ((row.bind fun l => d₁.sampleAt t l) = none → fails d) :=
        State.givesWith_onCue hwf hexec ⟨fun tok ht => ⟨hwrote (hr.1 tok ht).writes, (hr.1 tok ht).step⟩, fun hn => hfails (hr.2 hn)⟩
      obtain rfl | rfl := hc
      · exact both rfl (h.sample hx hs hk hf hpos hp ha)
      · exact both rfl (h.verify hx hs hk hf hpos hp ha)
    · exact gives_onCue hwf rfl (h.adapt_none ht)
    · exact State.givesWith_onCue hwf rfl (hfails (h.adapt_notReady ht hr))
    · obtain ⟨hw, hn⟩ := h.adapt_merges hs ht hm hok h₁ ha h₃
      exact State.givesWith_onCue hwf rfl ⟨fun vs hv hb => hwrote (hw vs hv hb), fun hv => hfails (hn hv)⟩

end Sys2Proof.Machine
end
